-- ==== Sys2Proof/Word.lean ====
section
/-! DEFINITION. The word types of the machine and the plainest arithmetic on them (00 R4, R5). -/

namespace Sys2Proof

/-- An instruction word, a vector lane, a mask: 32 bits. -/
abbrev Word := BitVec 32
/-- A scalar register, a group register, an address: 64 bits. -/
abbrev DWord := BitVec 64
/-- A vector register, a memory line: 128 bytes. -/
abbrev Line := BitVec 1024
/-- A hypervector register (11 R266). -/
abbrev Hyper := BitVec 8192
/-- A bundle accumulator: 8192 signed bytes (11 R266). -/
abbrev Bundle := BitVec 65536
/-- One row of an accumulator tile: 128 FP32 values (10 R250). -/
abbrev TileRow := BitVec 4096

end Sys2Proof
end

