-- ==== Sys2Proof/Syntax.lean ====
section
/-! DEFINITION. The operations and events of the device: one constructor per row of the table of operations.
A constructor of an instruction word carries the fields of the word (06 R157), `sw` being the switch marker S. A
constructor of an event carries what names the event: positions in the tables of State, core and array numbers,
addresses (log 1). -/

namespace Sys2Proof

/-- A line of the pool, by the block that holds it and its mark in the block (04 R114, R116; log 18): of a wave, of a
group, or in a granule that no block has. -/
inductive PoolLine where
  | wave (w line : Nat)
  | group (g line : Nat)
  | free
  deriving DecidableEq, Repr

/-- A unit in which a hardware error can arise (14 R360-R364). -/
inductive HwUnit where
  /-- A 128-byte line of HBM, the LLC or the weight store, by physical address. -/
  | line (pa : Nat)
  /-- A line of the pool of the Core Store of a core. -/
  | coreStore (core : Nat) (at_ : PoolLine)
  /-- The pipelines of a core. -/
  | core (core : Nat)
  /-- An L1 or instruction-cache line of a core, by line number. -/
  | cacheLine (core line : Nat)
  /-- The pipeline of a matrix array of a core. -/
  | array (core a : Nat)
  /-- An accumulator tile of a matrix array. -/
  | tile (core a t : Nat)
  /-- A 128-byte line of the weight buffer of a matrix array. -/
  | weightBuffer (core a line : Nat)
  /-- The copy engine of a core. -/
  | copyEngine (core : Nat)
  /-- The front end. -/
  | frontEnd
  /-- A link, by number. -/
  | link (k : Nat)
  deriving DecidableEq, Repr

/-- The operation of an atomic (09 R237). -/
inductive AtomOp where
  | add | addF32 | and | or | xor | min | max | minu | maxu | xchg | cas
  deriving DecidableEq, Repr

/-- A memory access from outside the device (19 R402, R406). -/
inductive HostOp where
  | read (pa : Nat) (len : Nat)
  | write (pa : Nat) (bytes : List (BitVec 8))
  /-- An atomic of 32 or 64 bits: the operand, and the new value of a compare-and-swap. -/
  | atomic (op : AtomOp) (wide : Bool) (pa : Nat) (operand repl : DWord)
  deriving DecidableEq, Repr

/-- A self-test or a training that fails as the device comes up (19 R422). -/
inductive BootFailure where
  /-- A channel of HBM, by an address in it. -/
  | channel (pa : Nat)
  /-- A core. -/
  | core (k : Nat)
  /-- A way of the LLC set of an address. -/
  | llcSet (pa : Nat)
  /-- A bank group of the weight store, by an address in it. -/
  | bankGroup (pa : Nat)
  /-- The host link. -/
  | hostLink
  /-- A checkpoint port. -/
  | ckptPort (p : Nat)
  /-- A Peer Link port. -/
  | peerPort (p : Nat)
  deriving DecidableEq, Repr

/-- Every operation and event (06 R171, R172; spec/opcode_table.json). -/
inductive Instr where
  /-- VADD.I32: Adds two 32-bit integer lanes modulo 2^32, or clamps to the INT32 range with SAT (08 R208). -/
  | vaddI32 (sw : BitVec 1) (d a b : BitVec 8)
  /-- VSUB.I32: Subtracts 32-bit integer lanes, wrapping or saturating (08 R208). -/
  | vsubI32 (sw : BitVec 1) (d a b : BitVec 8)
  /-- VMUL.I32: Writes the low 32 bits of each lane product, or the clamped signed product with SAT (08 R208). -/
  | vmulI32 (sw : BitVec 1) (d a b : BitVec 8)
  /-- VMULH.I32: Writes the high 32 bits of each signed 64-bit lane product (08 R208). -/
  | vmulhI32 (sw : BitVec 1) (d a b : BitVec 8)
  /-- VMULHU.I32: Writes the high 32 bits of each unsigned 64-bit lane product (08 R208). -/
  | vmulhuI32 (sw : BitVec 1) (d a b : BitVec 8)
  /-- VMIN.I32: Writes the signed minimum of each lane pair (08 R208). -/
  | vminI32 (sw : BitVec 1) (d a b : BitVec 8)
  /-- VMAX.I32: Writes the signed maximum of each lane pair (08 R208). -/
  | vmaxI32 (sw : BitVec 1) (d a b : BitVec 8)
  /-- VMINU.I32: Writes the unsigned minimum of each lane pair (08 R208). -/
  | vminuI32 (sw : BitVec 1) (d a b : BitVec 8)
  /-- VMAXU.I32: Writes the unsigned maximum of each lane pair (08 R208). -/
  | vmaxuI32 (sw : BitVec 1) (d a b : BitVec 8)
  /-- VAND: Bitwise AND of each lane pair (08 R208). -/
  | vand (sw : BitVec 1) (d a b : BitVec 8)
  /-- VOR: Bitwise OR of each lane pair (08 R208). -/
  | vor (sw : BitVec 1) (d a b : BitVec 8)
  /-- VXOR: Bitwise XOR of each lane pair (08 R208). -/
  | vxor (sw : BitVec 1) (d a b : BitVec 8)
  /-- VSHL: Shifts each lane left by b mod 32 (08 R208). -/
  | vshl (sw : BitVec 1) (d a b : BitVec 8)
  /-- VSHR: Shifts each lane right logically by b mod 32 (08 R208). -/
  | vshr (sw : BitVec 1) (d a b : BitVec 8)
  /-- VSAR: Shifts each lane right arithmetically by b mod 32 (08 R208). -/
  | vsar (sw : BitVec 1) (d a b : BitVec 8)
  /-- VMOV: Copies each active lane bit for bit, with the source side-band and format code (08 R208). -/
  | vmov (sw : BitVec 1) (d a : BitVec 8)
  /-- VPOPC: Counts the 1 bits of each lane (08 R208). -/
  | vpopc (sw : BitVec 1) (d a : BitVec 8)
  /-- VCLZ: Counts the leading zero bits of each lane (08 R208). -/
  | vclz (sw : BitVec 1) (d a : BitVec 8)
  /-- VSEL: Selects va or vb per lane by bit l of m1 (08 R208). -/
  | vsel (sw : BitVec 1) (d a b : BitVec 8)
  /-- VADD.F32: Adds FP32 lanes with one rounding (08 R209). -/
  | vaddF32 (sw : BitVec 1) (d a b : BitVec 8)
  /-- VSUB.F32: Subtracts FP32 lanes with one rounding (08 R209). -/
  | vsubF32 (sw : BitVec 1) (d a b : BitVec 8)
  /-- VMUL.F32: Multiplies FP32 lanes with one rounding (08 R209). -/
  | vmulF32 (sw : BitVec 1) (d a b : BitVec 8)
  /-- VFMA.F32: Fused multiply-add of FP32 lanes into vd or a third source, with one rounding (08 R209). -/
  | vfmaF32 (sw : BitVec 1) (d a b : BitVec 8)
  /-- VMIN.F32: FP32 minimum with NaN and signed-zero rules (08 R210). -/
  | vminF32 (sw : BitVec 1) (d a b : BitVec 8)
  /-- VMAX.F32: FP32 maximum with NaN and signed-zero rules (08 R210). -/
  | vmaxF32 (sw : BitVec 1) (d a b : BitVec 8)
  /-- VABS.F32: Clears the sign bit of each FP32 lane (08 R209). -/
  | vabsF32 (sw : BitVec 1) (d a : BitVec 8)
  /-- VNEG.F32: Inverts the sign bit of each FP32 lane (08 R209). -/
  | vnegF32 (sw : BitVec 1) (d a : BitVec 8)
  /-- VADD.BF16X2: Adds packed BF16 sub-elements (08 R211). -/
  | vaddBf16x2 (sw : BitVec 1) (d a b : BitVec 8)
  /-- VMUL.BF16X2: Multiplies packed BF16 sub-elements (08 R211). -/
  | vmulBf16x2 (sw : BitVec 1) (d a b : BitVec 8)
  /-- VFMA.BF16X2: Fused multiply-add of packed BF16 sub-elements (08 R211). -/
  | vfmaBf16x2 (sw : BitVec 1) (d a b : BitVec 8)
  /-- VADD.FP16X2: Adds packed FP16 sub-elements (08 R211). -/
  | vaddFp16x2 (sw : BitVec 1) (d a b : BitVec 8)
  /-- VMUL.FP16X2: Multiplies packed FP16 sub-elements (08 R211). -/
  | vmulFp16x2 (sw : BitVec 1) (d a b : BitVec 8)
  /-- VFMA.FP16X2: Fused multiply-add of packed FP16 sub-elements (08 R211). -/
  | vfmaFp16x2 (sw : BitVec 1) (d a b : BitVec 8)
  /-- VADD.E4M3X4: Adds packed 8-bit float sub-elements, E4M3 or E5M2 by HINT.MOD.F8SEL (08 R211). -/
  | vaddE4m3x4 (sw : BitVec 1) (d a b : BitVec 8)
  /-- VMUL.E4M3X4: Multiplies packed 8-bit float sub-elements, E4M3 or E5M2 by F8SEL (08 R211). -/
  | vmulE4m3x4 (sw : BitVec 1) (d a b : BitVec 8)
  /-- VADD.INT8X4: Adds packed INT8 sub-elements, wrapping or saturating (08 R212). -/
  | vaddInt8x4 (sw : BitVec 1) (d a b : BitVec 8)
  /-- VSUB.INT8X4: Subtracts packed INT8 sub-elements (08 R212). -/
  | vsubInt8x4 (sw : BitVec 1) (d a b : BitVec 8)
  /-- VADD.UINT8X4: Adds packed UINT8 sub-elements (08 R212). -/
  | vaddUint8x4 (sw : BitVec 1) (d a b : BitVec 8)
  /-- VSUB.UINT8X4: Subtracts packed UINT8 sub-elements (08 R212). -/
  | vsubUint8x4 (sw : BitVec 1) (d a b : BitVec 8)
  /-- VDOT2.BF16: Accumulates a two-term BF16 dot product into an FP32 lane in ascending order (08 R213). -/
  | vdot2Bf16 (sw : BitVec 1) (d a b : BitVec 8)
  /-- VDOT2.FP16: Accumulates a two-term FP16 dot product into an FP32 lane (08 R213). -/
  | vdot2Fp16 (sw : BitVec 1) (d a b : BitVec 8)
  /-- VDOT4.E4M3: Accumulates a four-term 8-bit float dot product, E4M3 or E5M2 by F8SEL (08 R213). -/
  | vdot4E4m3 (sw : BitVec 1) (d a b : BitVec 8)
  /-- VDOT4.INT8: Accumulates a four-term exact INT8 dot product modulo 2^32 or saturated (08 R213). -/
  | vdot4Int8 (sw : BitVec 1) (d a b : BitVec 8)
  /-- VCVT.dfmt.sfmt: Converts one element per lane between formats 0 to 7 (08 R215). -/
  | vcvt (sw : BitVec 1) (d a : BitVec 8) (f g : BitVec 4)
  /-- VCVTPK.dfmt.sfmt: Converts several source registers into packed narrower sub-elements (08 R216). -/
  | vcvtpk (sw : BitVec 1) (d a : BitVec 8) (f g : BitVec 4)
  /-- VCVTXP.dfmt.sfmt: Expands packed sub-elements into several wider destination registers (08 R216). -/
  | vcvtxp (sw : BitVec 1) (d a : BitVec 8) (f g : BitVec 4)
  /-- VQBLK.fmt: Quantises FP32 registers into one block-format register with scales in its side-band (08 R218). -/
  | vqblk (sw : BitVec 1) (d a : BitVec 8) (f : BitVec 4)
  /-- VDQBLK.fmt: Decodes a block-format register into FP32 registers (08 R219). -/
  | vdqblk (sw : BitVec 1) (d a : BitVec 8) (f : BitVec 4)
  /-- VRCP: Correctly rounded reciprocal per lane, variable-latency (08 R220). -/
  | vrcp (sw : BitVec 1) (d a : BitVec 8)
  /-- VRSQ: Correctly rounded reciprocal square root per lane (08 R220). -/
  | vrsq (sw : BitVec 1) (d a : BitVec 8)
  /-- VSQRT: Correctly rounded square root per lane (08 R220). -/
  | vsqrt (sw : BitVec 1) (d a : BitVec 8)
  /-- VEXP2: Correctly rounded 2^x per lane (08 R220). -/
  | vexp2 (sw : BitVec 1) (d a : BitVec 8)
  /-- VLOG2: Correctly rounded log2 x per lane (08 R220). -/
  | vlog2 (sw : BitVec 1) (d a : BitVec 8)
  /-- VSINPI: Correctly rounded sin(pi x) per lane (08 R220). -/
  | vsinpi (sw : BitVec 1) (d a : BitVec 8)
  /-- VCOSPI: Correctly rounded cos(pi x) per lane (08 R220). -/
  | vcospi (sw : BitVec 1) (d a : BitVec 8)
  /-- ADD: Scalar 64-bit add (07 R183). -/
  | add (sw : BitVec 1) (d a b : BitVec 6)
  /-- SUB: Scalar 64-bit subtract (07 R183). -/
  | sub (sw : BitVec 1) (d a b : BitVec 6)
  /-- MUL: Low 64 bits of the scalar product (07 R183). -/
  | mul (sw : BitVec 1) (d a b : BitVec 6)
  /-- MULH: High 64 bits of the signed 128-bit product (07 R183). -/
  | mulh (sw : BitVec 1) (d a b : BitVec 6)
  /-- MULHU: High 64 bits of the unsigned 128-bit product (07 R183). -/
  | mulhu (sw : BitVec 1) (d a b : BitVec 6)
  /-- AND: Scalar bitwise AND (07 R183). -/
  | and (sw : BitVec 1) (d a b : BitVec 6)
  /-- OR: Scalar bitwise OR (07 R183). -/
  | or (sw : BitVec 1) (d a b : BitVec 6)
  /-- XOR: Scalar bitwise XOR (07 R183). -/
  | xor (sw : BitVec 1) (d a b : BitVec 6)
  /-- ANDN: Scalar a AND NOT b (07 R183). -/
  | andn (sw : BitVec 1) (d a b : BitVec 6)
  /-- SHL: Scalar shift left by b mod 64 (07 R183). -/
  | shl (sw : BitVec 1) (d a b : BitVec 6)
  /-- SHR: Scalar logical shift right by b mod 64 (07 R183). -/
  | shr (sw : BitVec 1) (d a b : BitVec 6)
  /-- SAR: Scalar arithmetic shift right by b mod 64 (07 R183). -/
  | sar (sw : BitVec 1) (d a b : BitVec 6)
  /-- SHLI: Scalar shift left by an immediate count (07 R183). -/
  | shli (sw : BitVec 1) (d a n : BitVec 6)
  /-- SHRI: Scalar logical shift right by an immediate count (07 R183). -/
  | shri (sw : BitVec 1) (d a n : BitVec 6)
  /-- SARI: Scalar arithmetic shift right by an immediate count (07 R183). -/
  | sari (sw : BitVec 1) (d a n : BitVec 6)
  /-- SLT: Signed less-than compare giving 0 or 1 (07 R183). -/
  | slt (sw : BitVec 1) (d a b : BitVec 6)
  /-- SLTU: Unsigned less-than compare giving 0 or 1 (07 R183). -/
  | sltu (sw : BitVec 1) (d a b : BitVec 6)
  /-- MIN: Signed scalar minimum (07 R183). -/
  | min (sw : BitVec 1) (d a b : BitVec 6)
  /-- MAX: Signed scalar maximum (07 R183). -/
  | max (sw : BitVec 1) (d a b : BitVec 6)
  /-- MINU: Unsigned scalar minimum (07 R183). -/
  | minu (sw : BitVec 1) (d a b : BitVec 6)
  /-- MAXU: Unsigned scalar maximum (07 R183). -/
  | maxu (sw : BitVec 1) (d a b : BitVec 6)
  /-- POPC: Counts the 1 bits of a scalar (07 R183). -/
  | popc (sw : BitVec 1) (d a : BitVec 6)
  /-- CLZ: Counts leading zero bits of a scalar (07 R183). -/
  | clz (sw : BitVec 1) (d a : BitVec 6)
  /-- CTZ: Counts trailing zero bits of a scalar (07 R183). -/
  | ctz (sw : BitVec 1) (d a : BitVec 6)
  /-- ADDI: Adds an immediate, extendable by HINT.IMM (07 R184). -/
  | addi (sw : BitVec 1) (x a : BitVec 6) (i : BitVec 12)
  /-- ANDI: ANDs with a sign-extended immediate (07 R184). -/
  | andi (sw : BitVec 1) (x a : BitVec 6) (i : BitVec 12)
  /-- ORI: ORs with a sign-extended immediate (07 R184). -/
  | ori (sw : BitVec 1) (x a : BitVec 6) (i : BitVec 12)
  /-- XORI: XORs with a sign-extended immediate (07 R184). -/
  | xori (sw : BitVec 1) (x a : BitVec 6) (i : BitVec 12)
  /-- SLTI: Signed compare against an immediate (07 R184). -/
  | slti (sw : BitVec 1) (x a : BitVec 6) (i : BitVec 12)
  /-- SLTIU: Unsigned compare against an immediate (07 R184). -/
  | sltiu (sw : BitVec 1) (x a : BitVec 6) (i : BitVec 12)
  /-- GRD: Reads a group register indivisibly at the home core, variable-latency (07 R186). -/
  | grd (sw : BitVec 1) (d : BitVec 6) (g : BitVec 8)
  /-- GWR: Writes a group register indivisibly at the home core (07 R186). -/
  | gwr (sw : BitVec 1) (a : BitVec 6) (g : BitVec 8)
  /-- GADD: Fetch-and-add on a group register, returning the old value (07 R186). -/
  | gadd (sw : BitVec 1) (d a : BitVec 6) (g : BitVec 8)
  /-- BEZ: Branches when a scalar register is zero (07 R188). -/
  | bez (sw : BitVec 1) (a : BitVec 6) (o : BitVec 18)
  /-- BNEZ: Branches when a scalar register is non-zero (07 R188). -/
  | bnez (sw : BitVec 1) (a : BitVec 6) (o : BitVec 18)
  /-- BRA: Unconditional PC-relative branch (07 R189). -/
  | bra (sw : BitVec 1) (o : BitVec 18)
  /-- BANY: Branches when any active lane is set in mk (07 R189). -/
  | bany (sw : BitVec 1) (k : BitVec 3) (o : BitVec 18)
  /-- BALL: Branches when every active lane is set in mk (07 R189). -/
  | ball (sw : BitVec 1) (k : BitVec 3) (o : BitVec 18)
  /-- BNONE: Branches when no active lane is set in mk (07 R189). -/
  | bnone (sw : BitVec 1) (k : BitVec 3) (o : BitVec 18)
  /-- CALL: PC-relative call linking PC + 4 into s63 (07 R189). -/
  | call (sw : BitVec 1) (o : BitVec 18)
  /-- JMPR: Jumps to a register plus immediate (07 R190). -/
  | jmpr (sw : BitVec 1) (x : BitVec 6) (i : BitVec 12)
  /-- CALLR: Calls a register plus immediate, linking into s63 (07 R190). -/
  | callr (sw : BitVec 1) (x : BitVec 6) (i : BitVec 12)
  /-- RET: Jumps to s63 (07 R190). -/
  | ret (sw : BitVec 1)
  /-- END: Waits for results, releases at system scope, waits for copies and matrix commands, and retires the wave (07 R192). -/
  | endWave (sw : BitVec 1)
  /-- YIELD: Makes the wave the youngest ready wave of its partition (07 R193). -/
  | yield (sw : BitVec 1)
  /-- TRAP: Completes and raises trap TRAP_INSN with the immediate in SR_TRAPADDR (07 R194). -/
  | trap (sw : BitVec 1) (i : BitVec 12)
  /-- TRET: Restores saved state from the trap frame and returns to SR_TRAPPC (07 R195). -/
  | tret (sw : BitVec 1)
  /-- SRD: Reads a special register into a scalar register (07 R196). -/
  | srd (sw : BitVec 1) (x : BitVec 6) (i : BitVec 12)
  /-- SWR: Writes a special register by its access code (07 R196). -/
  | swr (sw : BitVec 1) (x : BitVec 6) (i : BitVec 12)
  /-- FENCE.I: Discards fetched words and drops the core's instruction-cache lines of the context (07 R198). -/
  | fenceI (sw : BitVec 1)
  /-- SLD: Loads 8 bytes into a scalar register, or prefetches with destination s0 (09 R230). -/
  | sld (sw : BitVec 1) (x a : BitVec 6) (i : BitVec 12)
  /-- SST: Makes 8 bytes of a scalar register a pending plain store (09 R231). -/
  | sst (sw : BitVec 1) (x a : BitVec 6) (i : BitVec 12)
  /-- VLD.I8: Gathers sign-extended bytes per active lane (09 R232). -/
  | vldI8 (sw : BitVec 1) (v o : BitVec 8) (b : BitVec 5)
  /-- VLD.Z8: Gathers zero-extended bytes per active lane (09 R232). -/
  | vldZ8 (sw : BitVec 1) (v o : BitVec 8) (b : BitVec 5)
  /-- VLD.I16: Gathers sign-extended halfwords per active lane (09 R232). -/
  | vldI16 (sw : BitVec 1) (v o : BitVec 8) (b : BitVec 5)
  /-- VLD.Z16: Gathers zero-extended halfwords per active lane (09 R232). -/
  | vldZ16 (sw : BitVec 1) (v o : BitVec 8) (b : BitVec 5)
  /-- VLD.32: Gathers words per active lane (09 R232). -/
  | vld32 (sw : BitVec 1) (v o : BitVec 8) (b : BitVec 5)
  /-- VST.8: Scatters bytes as pending stores per active lane (09 R232). -/
  | vst8 (sw : BitVec 1) (v o : BitVec 8) (b : BitVec 5)
  /-- VST.16: Scatters halfwords as pending stores per active lane (09 R232). -/
  | vst16 (sw : BitVec 1) (v o : BitVec 8) (b : BitVec 5)
  /-- VST.32: Scatters words as pending stores per active lane (09 R232). -/
  | vst32 (sw : BitVec 1) (v o : BitVec 8) (b : BitVec 5)
  /-- VLDL: Loads one 128-byte line into a vector register (09 R233). -/
  | vldl (sw : BitVec 1) (x : BitVec 8) (a : BitVec 6)
  /-- VSTL: Stores a vector register to one line as pending stores (09 R233). -/
  | vstl (sw : BitVec 1) (x : BitVec 8) (a : BitVec 6)
  /-- VLDB: Loads a line with its side-band and format code (09 R233). -/
  | vldb (sw : BitVec 1) (x : BitVec 8) (a : BitVec 6)
  /-- VSTB: Stores a line together with its side-band as one pending store (09 R234). -/
  | vstb (sw : BitVec 1) (x : BitVec 8) (a : BitVec 6)
  /-- VSTC: Atomically reserves queue space and appends the active lanes as pending stores (09 R235). -/
  | vstc (sw : BitVec 1) (x : BitVec 8) (a b : BitVec 6)
  /-- PHASE.scope: Releasing then acquiring boundary of the named scope (09 R240). -/
  | phase (sw : BitVec 1) (c : BitVec 3)
  /-- BAR.INIT: Sets a barrier object's expected counts and clears its counts, keeping PHASE (09 R242). -/
  | barInit (sw : BitVec 1) (a b : BitVec 6)
  /-- BAR.ARRIVE: Releases at group scope and makes one arrival at a barrier object (09 R243). -/
  | barArrive (sw : BitVec 1) (a : BitVec 6)
  /-- BAR.WAIT: Tests a barrier phase and blocks the wave until it is reached (09 R244). -/
  | barWait (sw : BitVec 1) (a b : BitVec 6)
  /-- WSQ: Queries the refresh position of a weight-store bank group (09 R248). -/
  | wsq (sw : BitVec 1) (x a : BitVec 6)
  /-- AADD: Atomic integer add returning the old value (09 R237). -/
  | aadd (sw : BitVec 1) (o : BitVec 2) (c : BitVec 3) (v w : BitVec 1) (x a : BitVec 6)
  /-- AADD.F32: Atomic FP32 add with RNE at the performing unit (09 R237). -/
  | aaddF32 (sw : BitVec 1) (o : BitVec 2) (c : BitVec 3) (v : BitVec 1) (x a : BitVec 6)
  /-- AAND: Atomic AND (09 R237). -/
  | aand (sw : BitVec 1) (o : BitVec 2) (c : BitVec 3) (v w : BitVec 1) (x a : BitVec 6)
  /-- AOR: Atomic OR (09 R237). -/
  | aor (sw : BitVec 1) (o : BitVec 2) (c : BitVec 3) (v w : BitVec 1) (x a : BitVec 6)
  /-- AXOR: Atomic XOR (09 R237). -/
  | axor (sw : BitVec 1) (o : BitVec 2) (c : BitVec 3) (v w : BitVec 1) (x a : BitVec 6)
  /-- AMIN: Atomic signed minimum (09 R237). -/
  | amin (sw : BitVec 1) (o : BitVec 2) (c : BitVec 3) (v w : BitVec 1) (x a : BitVec 6)
  /-- AMAX: Atomic signed maximum (09 R237). -/
  | amax (sw : BitVec 1) (o : BitVec 2) (c : BitVec 3) (v w : BitVec 1) (x a : BitVec 6)
  /-- AMINU: Atomic unsigned minimum (09 R237). -/
  | aminu (sw : BitVec 1) (o : BitVec 2) (c : BitVec 3) (v w : BitVec 1) (x a : BitVec 6)
  /-- AMAXU: Atomic unsigned maximum (09 R237). -/
  | amaxu (sw : BitVec 1) (o : BitVec 2) (c : BitVec 3) (v w : BitVec 1) (x a : BitVec 6)
  /-- AXCHG: Atomic exchange (09 R237). -/
  | axchg (sw : BitVec 1) (o : BitVec 2) (c : BitVec 3) (v w : BitVec 1) (x a : BitVec 6)
  /-- ACAS: Atomic compare-and-swap returning the old value (09 R237). -/
  | acas (sw : BitVec 1) (o : BitVec 2) (c : BitVec 3) (v w : BitVec 1) (x a : BitVec 6)
  /-- VCMP.EQ.I32: Writes integer equality of active lanes into a mask (08 R221). -/
  | vcmpEqI32 (sw : BitVec 1) (m : BitVec 3) (a b : BitVec 8)
  /-- VCMP.NE.I32: Writes integer inequality into a mask (08 R221). -/
  | vcmpNeI32 (sw : BitVec 1) (m : BitVec 3) (a b : BitVec 8)
  /-- VCMP.LT.I32: Writes signed less-than into a mask (08 R221). -/
  | vcmpLtI32 (sw : BitVec 1) (m : BitVec 3) (a b : BitVec 8)
  /-- VCMP.LE.I32: Writes signed less-or-equal into a mask (08 R221). -/
  | vcmpLeI32 (sw : BitVec 1) (m : BitVec 3) (a b : BitVec 8)
  /-- VCMP.LTU.I32: Writes unsigned less-than into a mask (08 R221). -/
  | vcmpLtuI32 (sw : BitVec 1) (m : BitVec 3) (a b : BitVec 8)
  /-- VCMP.LEU.I32: Writes unsigned less-or-equal into a mask (08 R221). -/
  | vcmpLeuI32 (sw : BitVec 1) (m : BitVec 3) (a b : BitVec 8)
  /-- VCMP.EQ.F32: Writes FP32 numeric equality into a mask (08 R221). -/
  | vcmpEqF32 (sw : BitVec 1) (m : BitVec 3) (a b : BitVec 8)
  /-- VCMP.NE.F32: Writes FP32 inequality, true for NaN, into a mask (08 R221). -/
  | vcmpNeF32 (sw : BitVec 1) (m : BitVec 3) (a b : BitVec 8)
  /-- VCMP.LT.F32: Writes FP32 less-than into a mask (08 R221). -/
  | vcmpLtF32 (sw : BitVec 1) (m : BitVec 3) (a b : BitVec 8)
  /-- VCMP.LE.F32: Writes FP32 less-or-equal into a mask (08 R221). -/
  | vcmpLeF32 (sw : BitVec 1) (m : BitVec 3) (a b : BitVec 8)
  /-- VCMP.UN.F32: Writes FP32 unordered into a mask (08 R221). -/
  | vcmpUnF32 (sw : BitVec 1) (m : BitVec 3) (a b : BitVec 8)
  /-- MAND: Whole-mask AND (08 R222). -/
  | mand (sw : BitVec 1) (d a b : BitVec 3)
  /-- MOR: Whole-mask OR (08 R222). -/
  | mor (sw : BitVec 1) (d a b : BitVec 3)
  /-- MXOR: Whole-mask XOR (08 R222). -/
  | mxor (sw : BitVec 1) (d a b : BitVec 3)
  /-- MANDN: Whole-mask AND NOT (08 R222). -/
  | mandn (sw : BitVec 1) (d a b : BitVec 3)
  /-- MNOT: Whole-mask NOT (08 R222). -/
  | mnot (sw : BitVec 1) (d a : BitVec 3)
  /-- MFROMS: Sets a mask from bits [31:0] of a scalar register (08 R222). -/
  | mfroms (sw : BitVec 1) (d : BitVec 3) (r : BitVec 6)
  /-- MTOS: Copies a mask zero-extended into a scalar register (08 R222). -/
  | mtos (sw : BitVec 1) (a : BitVec 3) (r : BitVec 6)
  /-- MPOPC: Counts the set bits of a mask into a scalar register (08 R222). -/
  | mpopc (sw : BitVec 1) (a : BitVec 3) (r : BitVec 6)
  /-- MFFS: Finds the lowest set bit of a mask, or 32 (08 R222). -/
  | mffs (sw : BitVec 1) (a : BitVec 3) (r : BitVec 6)
  /-- VSHFL: Moves values between lanes of a membership set (08 R223). -/
  | vshfl (sw : BitVec 1) (d a : BitVec 8) (k : BitVec 3)
  /-- VMATCH: Finds active lanes with equal bit patterns (08 R224). -/
  | vmatch (sw : BitVec 1) (d a : BitVec 8)
  /-- VMATCH.F: Finds active lanes with numerically equal FP32 values (08 R224). -/
  | vmatchF (sw : BitVec 1) (d a : BitVec 8)
  /-- VREDUCE.ADD.F32: Sums active FP32 lanes in ascending lane order (08 R225). -/
  | vreduceAddF32 (sw : BitVec 1) (d a : BitVec 8)
  /-- VREDUCE.ADD.I32: Sums active integer lanes modulo 2^32 (08 R225). -/
  | vreduceAddI32 (sw : BitVec 1) (d a : BitVec 8)
  /-- VREDUCE.MIN.F32: FP32 minimum over active lanes (08 R225). -/
  | vreduceMinF32 (sw : BitVec 1) (d a : BitVec 8)
  /-- VREDUCE.MAX.F32: FP32 maximum over active lanes (08 R225). -/
  | vreduceMaxF32 (sw : BitVec 1) (d a : BitVec 8)
  /-- VREDUCE.MIN.I32: Signed minimum over active lanes (08 R225). -/
  | vreduceMinI32 (sw : BitVec 1) (d a : BitVec 8)
  /-- VREDUCE.MAX.I32: Signed maximum over active lanes (08 R225). -/
  | vreduceMaxI32 (sw : BitVec 1) (d a : BitVec 8)
  /-- VSCAN.ADD.F32: Inclusive FP32 prefix sum over active lanes (08 R225). -/
  | vscanAddF32 (sw : BitVec 1) (d a : BitVec 8)
  /-- VSCAN.ADD.I32: Inclusive integer prefix sum over active lanes (08 R225). -/
  | vscanAddI32 (sw : BitVec 1) (d a : BitVec 8)
  /-- VMOVS: Broadcasts a scalar into each active lane (08 R226). -/
  | vmovs (sw : BitVec 1) (v : BitVec 8) (a : BitVec 6)
  /-- VRDLANE: Reads one lane into a scalar register whatever m0 holds (08 R226). -/
  | vrdlane (sw : BitVec 1) (v : BitVec 8) (a b : BitVec 6)
  /-- VWRLANE: Writes a scalar into one lane if it is active (08 R226). -/
  | vwrlane (sw : BitVec 1) (v : BitVec 8) (a b : BitVec 6)
  /-- VLANEID: Writes each active lane's number (08 R226). -/
  | vlaneid (sw : BitVec 1) (v : BitVec 8)
  /-- MMA.bfmt.afmt: Checks operands and queues a matrix multiply-accumulate command on an array (10 R256). -/
  | mma (sw : BitVec 1) (p q : BitVec 4) (c : BitVec 3) (z : BitVec 1) (a : BitVec 6)
  /-- ACCZ: Queues a command that zeroes an accumulator tile (10 R261). -/
  | accz (sw : BitVec 1) (c : BitVec 3)
  /-- ACCLD: Queues a command that loads tile rows from memory (10 R261). -/
  | accld (sw : BitVec 1) (c : BitVec 3) (a b : BitVec 6)
  /-- ACCST: Reads tile rows at issue and makes them pending FP32 stores (10 R262). -/
  | accst (sw : BitVec 1) (c : BitVec 3) (a b : BitVec 6)
  /-- ACCCVT.fmt: Reads tile rows at issue, converts them and makes pending stores (10 R262). -/
  | acccvt (sw : BitVec 1) (c : BitVec 3) (a b : BitVec 6) (f : BitVec 4)
  /-- MWAIT: Parks the wave until earlier commands on a tile have completed (10 R263). -/
  | mwait (sw : BitVec 1) (c : BitVec 3)
  /-- COPYK: Reads and checks a copy descriptor, releases at core scope and queues the request (09 R245). -/
  | copyk (sw : BitVec 1) (a : BitVec 6)
  /-- CPQ: Counts the group's live copy requests with a TAG (09 R246). -/
  | cpq (sw : BitVec 1) (d a : BitVec 6)
  /-- PUBL: Checks the adopted generation, releases at device scope and makes a publish step (09 R247). -/
  | publ (sw : BitVec 1) (n : BitVec 8)
  /-- HVXOR: Binds two hypervectors by XOR (11 R268). -/
  | hvxor (sw : BitVec 1) (d a b : BitVec 4)
  /-- HVNOT: Inverts a hypervector (11 R268). -/
  | hvnot (sw : BitVec 1) (d a : BitVec 4)
  /-- HVMOV: Copies a hypervector (11 R268). -/
  | hvmov (sw : BitVec 1) (d a : BitVec 4)
  /-- HVBUND: Adds one saturating vote per bit into a bundle accumulator (11 R269). -/
  | hvbund (sw : BitVec 1) (a : BitVec 4) (k : BitVec 1)
  /-- HVBSUB: Subtracts one saturating vote per bit from a bundle accumulator (11 R269). -/
  | hvbsub (sw : BitVec 1) (a : BitVec 4) (k : BitVec 1)
  /-- HVMAJ: Reduces an accumulator to a hypervector, breaking ties from hvtie (11 R270). -/
  | hvmaj (sw : BitVec 1) (d : BitVec 4) (k : BitVec 1)
  /-- HVBCLR: Clears every counter of a bundle accumulator (11 R268). -/
  | hvbclr (sw k : BitVec 1)
  /-- HVGEN: Fills a hypervector from 128 steps of the generator (11 R271). -/
  | hvgen (sw : BitVec 1) (d : BitVec 4)
  /-- HVROT: Rotates a hypervector by S(Y) mod 8192 (11 R272). -/
  | hvrot (sw : BitVec 1) (a b : BitVec 4) (y : BitVec 6)
  /-- HVDIST: Writes the Hamming distance of two hypervectors (11 R272). -/
  | hvdist (sw : BitVec 1) (a b : BitVec 4) (x : BitVec 6)
  /-- HVSEED: Seeds hvtie, or restores C0 for a zero seed (11 R272). -/
  | hvseed (sw : BitVec 1) (y : BitVec 6)
  /-- HVRDTIE: Reads hvtie into a scalar register (11 R272). -/
  | hvrdtie (sw : BitVec 1) (x : BitVec 6)
  /-- HVLD: Loads a hypervector as eight plain line loads (11 R273). -/
  | hvld (sw : BitVec 1) (a : BitVec 4) (y : BitVec 6)
  /-- HVST: Stores a hypervector as eight pending line stores (11 R273). -/
  | hvst (sw : BitVec 1) (a : BitVec 4) (y : BitVec 6)
  /-- HVNEAR: Mirror search of a table for the nearest entry by Hamming distance (11 R276). -/
  | hvnear (sw : BitVec 1) (a : BitVec 4) (x y : BitVec 6)
  /-- HVBIT: Reads one bit of a hypervector (11 R272). -/
  | hvbit (sw : BitVec 1) (a : BitVec 4) (x y : BitVec 6)
  /-- ENQ: Releases and copies a record into a pool slot and adds it to a bin, returning a status (13 R317). -/
  | enq (sw : BitVec 1) (d a b : BitVec 6)
  /-- SGFORK: Creates a Sample Group Object and enqueues N sibling records (13 R325). -/
  | sgfork (sw : BitVec 1) (d a b : BitVec 6)
  /-- SGREWARD: Releases and submits the bound sibling's reward to its object (13 R326). -/
  | sgreward (sw : BitVec 1) (d a : BitVec 6)
  /-- SGWAIT: Returns the bound sibling's advantage, spinning while the object is not final (13 R327). -/
  | sgwait (sw : BitVec 1) (d : BitVec 6)
  /-- SGCANCEL: Cancels a sibling and kills its group (13 R328). -/
  | sgcancel (sw : BitVec 1) (a : BitVec 6)
  /-- SGQUERY: Reads an object's or a sibling's state without waiting (13 R329). -/
  | sgquery (sw : BitVec 1) (d a : BitVec 6)
  /-- SRDP: Reads a privileged register of the executing core (07 R200). -/
  | srdp (sw : BitVec 1) (x : BitVec 6) (i : BitVec 12)
  /-- SWRP: Writes a privileged register of the executing core (07 R200). -/
  | swrp (sw : BitVec 1) (x : BitVec 6) (i : BitVec 12)
  /-- ICINV: Drops every instruction-cache line of the device (07 R201). -/
  | icinv (sw : BitVec 1)
  /-- TLBINV: Drops translations of one tag or all tags device-wide (07 R201). -/
  | tlbinv (sw : BitVec 1) (x : BitVec 6)
  /-- WKILL: Kills the wave in a slot of the executing core (07 R202). -/
  | wkill (sw : BitVec 1) (x : BitVec 6)
  /-- WRESUME: Makes a HALTED wave in a slot ready (07 R202). -/
  | wresume (sw : BitVec 1) (x : BitVec 6)
  /-- ACRD: Reads a device-wide accounting counter of a domain (07 R203). -/
  | acrd (sw : BitVec 1) (x d c : BitVec 6)
  /-- HALT: Makes the executing wave HALTED after its outstanding results are written (07 R202). -/
  | halt (sw : BitVec 1)
  /-- HINT.IMM: Prefix that extends the immediate of its target (06 R166). -/
  | hintImm (p : BitVec 20)
  /-- HINT.MOD: Prefix that supplies rounding, saturation, flush, F8SEL and a third source to its target (06 R167). -/
  | hintMod (v : BitVec 1) (m : BitVec 2) (t z e w : BitVec 1) (c : BitVec 8)
  /-- IPREF: Requests instruction lines into the instruction cache without trapping (06 R168). -/
  | ipref (sw : BitVec 1) (n : BitVec 2) (o : BitVec 18)
  /-- HINT.SCHED: Delays the wave's issue by n clocks (06 R169). -/
  | hintSched (sw : BitVec 1) (n : BitVec 4)
  /-- HINT_SCHED_DELAY_END: The count of a HINT.SCHED delay expires and the wave may issue again (06 R169). -/
  | hintSchedDelayEnd (w : Nat)
  /-- RESULT_WRITE: A variable-latency result is written, ending a marker park when all are written (06 R161). -/
  | resultWrite (w k units : Nat)
  /-- ATOMIC_PERFORM: An atomic is performed indivisibly at its slice, base-die unit, home core or remote unit (02 R61). -/
  | atomicPerform (w lane : Nat)
  /-- LLC_FILL: A line is filled into the LLC with its format code and side-band scales (02 R54). -/
  | llcFill (pa : Nat)
  /-- LLC_WRITE_BACK: A dirty line is written back to HBM, compressing its unit when enabled (02 R58). -/
  | llcWriteBack (pa : Nat)
  /-- PAGE_WALK: A page walker completes a walk and installs or faults a translation (02 R71). -/
  | pageWalk (core c : Nat) (va : DWord)
  /-- WS_REFRESH_WINDOW_END: A bank group's refresh window ends and waiting reads are served (02 R65). -/
  | wsRefreshWindowEnd (q : Nat)
  /-- REGION_BASE_WRITE: Write of REGION_BASE, which sets BUSY when the region is enabled (02 R56). -/
  | regionBaseWrite (q r : Nat) (v : DWord)
  /-- REGION_LIMIT_WRITE: Write of REGION_LIMIT, which sets BUSY when the region is enabled (02 R56). -/
  | regionLimitWrite (q r : Nat) (v : DWord)
  /-- REGION_SCALE_WRITE: Write of REGION_SCALE, which sets BUSY when the region is enabled (02 R56). -/
  | regionScaleWrite (q r : Nat) (v : DWord)
  /-- REGION_CTL_WRITE: Write of REGION_CTL, checking an EN set and recording ERR (02 R52). -/
  | regionCtlWrite (q r : Nat) (v : DWord)
  /-- REGION_CHANGE_APPLY: After lines are written back and dropped, the region change takes effect and BUSY clears (02 R56). -/
  | regionChangeApply (q r : Nat)
  /-- REGISTER_WRITE: Write of a register field without behaviour of its own, by its access code (00 R6). -/
  | registerWrite (off : Nat) (v : DWord)
  /-- QWPTR_DOORBELL: A write of QWPTR announces granules written to a ring (13 R304). -/
  | qwptrDoorbell (slot : Nat) (v : DWord)
  /-- PAD: A PAD packet is dispatched and skipped (13 R306). -/
  | pad (c r : Nat)
  /-- KERNEL: A KERNEL packet is dispatched and enters one launch into the dispatch list (13 R310). -/
  | kernel (c r : Nat)
  /-- GRAPH: A GRAPH packet loads predecessor counters and makes root nodes ready (13 R312). -/
  | graph (c r : Nat)
  /-- COPY: A COPY packet is checked and executed by a copy engine in the destination's quadrant (03 R103). -/
  | copy (c r core : Nat)
  /-- WAIT_VALUE: A WAIT_VALUE packet translates ADDR and tests its condition (13 R306). -/
  | waitValue (c r : Nat)
  /-- WAIT_VALUE_REREAD: The front end reads a waiting WAIT_VALUE address again at its 4096-clock count (13 R306). -/
  | waitValueReread (c r : Nat)
  /-- SIGNAL: After earlier packets complete, writes VALUE to ADDR as a system-scope release (13 R306). -/
  | signal (c r : Nat)
  /-- SIGNAL_ADD: After earlier packets complete, adds VALUE at ADDR atomically (13 R306). -/
  | signalAdd (c r : Nat)
  /-- PUBLISH: A PUBLISH packet makes the publish step on its buffer (13 R306). -/
  | publish (c r : Nat)
  /-- CHECKPOINT_CLOSE: A CHECKPOINT packet with MODE 0 closes the current interval (14 R347). -/
  | checkpointClose (c r : Nat)
  /-- CHECKPOINT_STOP_SAVE: A CHECKPOINT packet with MODE 1 stops and saves the context (14 R356). -/
  | checkpointStopSave (c r : Nat)
  /-- LAUNCH_COMPLETE: A launch tree becomes quiescent and its launch completes (13 R320). -/
  | launchComplete (l : Nat)
  /-- BIN_TIMER_EXPIRY: A bin's set timer expires and the bin fires (13 R315). -/
  | binTimerExpiry (c b : Nat)
  /-- GROUP_PLACE: The dispatcher places one group per front-end clock on a core or span of cores (12 R291). -/
  | groupPlace
  /-- GROUP_START: The last granule is zeroed and all waves of the group start as one gang (12 R282). -/
  | groupStart (g : Nat)
  /-- GROUP_PARK: All waves of a parking group are saved and its resources freed (12 R296). -/
  | groupPark (g : Nat)
  /-- SGWAIT_SPIN_EXPIRY: An SGWAIT spin runs out after 2048 clocks and requests a park of its group (13 R327). -/
  | sgwaitSpinExpiry (w : Nat)
  /-- SGO_TIMEOUT: An object's timeout expires and WAITING siblings become TIMEDOUT (13 R324). -/
  | sgoTimeout (c o : Nat)
  /-- TRAP_ENTRY: After outstanding results are written, the wave enters its handler or the context faults (14 R334). -/
  | trapEntry (w : Nat)
  /-- BOUNDARY_TRAP: A COPY, ECC or REPLAY_ABORT trap due at a wave's next instruction boundary is taken (14 R340). -/
  | boundaryTrap (w : Nat)
  /-- WAVE_KILL: A wave is killed at its next boundary, discarding pending stores and freeing its blocks (07 R202). -/
  | waveKill (w : Nat)
  /-- WAVE_STOP: A wave reaches an instruction boundary with its outstanding results written (14 R344). -/
  | waveStop (w k : Nat)
  /-- COPY_REQUEST_START: The oldest runnable request takes a free active slot after its wait ends (03 R78). -/
  | copyRequestStart (core : Nat)
  /-- COPY_PIECE_LAND: A piece lands, LOW advances and landed bytes are added to the barrier (03 R90). -/
  | copyPieceLand (q n : Nat)
  /-- COPY_REQUEST_FAIL: A running request fails, enters FAILED and marks a COPY trap due (03 R104). -/
  | copyRequestFail (q : Nat)
  /-- COPY_REQUEST_CANCEL: A request of a killed wave stops at a piece boundary and enters CANCELLED (03 R108). -/
  | copyRequestCancel (q : Nat)
  /-- FOLLOW_ON_ISSUE: A completed request issues its follow-on MMA once its conditions hold (03 R95). -/
  | followOnIssue (q : Nat)
  /-- PUBLISH_STEP: Once bound requests finish, the buffer's generation advances indivisibly (03 R99). -/
  | publishStep (c n : Nat)
  /-- ARRAY_PASS: An array completes one pass of a chunk of a command (10 R258). -/
  | arrayPass (core a : Nat)
  /-- ACCZ_RUN: The array runs a queued ACCZ, zeroing a tile (10 R261). -/
  | acczRun (core a : Nat)
  /-- ACCLD_RUN: The array runs a queued ACCLD, writing tile rows from memory (10 R261). -/
  | accldRun (core a : Nat)
  /-- BAR_WAIT_COMPLETE: A blocked wait finds its phase reached and passes a group-scope boundary (09 R244). -/
  | barWaitComplete (w : Nat)
  /-- INTERVAL_CLOSE: Afterglow begins a cut, waiting for the previous interval to commit (14 R348). -/
  | intervalClose (c : Nat)
  /-- CUT_CAPTURE: With all agents stopped, state is captured and dirty items become pending (14 R348). -/
  | cutCapture (c : Nat)
  /-- CKPTINTV_EXPIRY: The automatic close period expires and an interval closes (14 R347). -/
  | ckptintvExpiry (c : Nat)
  /-- AG_STREAM_ITEM: Afterglow streams one pending item, releasing writes that waited on it (14 R349). -/
  | agStreamItem (c k : Nat)
  /-- AG_COMMIT: The COMMIT record is written and the interval is committed (14 R352). -/
  | agCommit (c : Nat)
  /-- AG_PEND_UPDATE: AG_PEND and AG_EST are updated at their 4096-clock count (14 R355). -/
  | agPendUpdate (c : Nat)
  /-- ECC_CORRECTABLE: A correctable error is corrected in place and counted (14 R360). -/
  | eccCorrectable (u : HwUnit)
  /-- ECC_UNCORRECTABLE: An uncorrectable error drops a clean line or poisons data (14 R360). -/
  | eccUncorrectable (u : HwUnit)
  /-- LOGIC_ERROR: A parity or internal check fails on a pipeline, queue, pass or front-end unit (14 R360). -/
  | logicError (u : HwUnit)
  /-- LINK_FLIT_RETRY: A link retries a failed flit and counts toward the lane threshold (14 R360). -/
  | linkFlitRetry (link : Nat)
  /-- SELF_TEST_VERDICT: A self-test ends and the device replays, rolls back or fences (14 R362). -/
  | selfTestVerdict (k : Nat) (ok : Bool)
  /-- HOST_HDM_ACCESS: A host access through BAR2 is performed at the line's home (19 R402). -/
  | hostHdmAccess (op : HostOp)
  /-- PEER_REQUEST: An access from a peer is performed at this device's home slice or base die (19 R406). -/
  | peerRequest (p : Nat) (op : HostOp)
  /-- PEER_LINK_DOWN: All ports to a peer fail and outstanding accesses complete with fixed values (19 R407). -/
  | peerLinkDown (p : Nat)
  /-- CKPT_PORT_DOWN: A checkpoint port goes down and streaming intervals cannot commit (19 R404). -/
  | ckptPortDown (p : Nat)
  /-- POWER_THROTTLE_WINDOW: A 4096-clock window ends and Lantern sets the withheld issue fraction (19 R419). -/
  | powerThrottleWindow (mw : Nat)
  /-- THERMAL_THROTTLE: The hottest junction reaches 100 degrees and Lantern throttles (19 R420). -/
  | thermalThrottle (on : Bool)
  /-- THERMTRIP: The hottest junction reaches 110 degrees; contexts are saved or faulted and issue halts (19 R420). -/
  | thermtrip
  /-- DEVICE_RESET: The device resets and runs bring-up with measured boot (19 R422). -/
  | deviceReset (fails : List BootFailure)
  /-- CTX_CREATE: Creates a context record in state SAVED (19 R411). -/
  | ctxCreate
  /-- CTX_DESTROY: Kills groups, destroys rings, unloads objects and frees the context (19 R411). -/
  | ctxDestroy
  /-- CTX_READ: Reads bytes of the context record (19 R411). -/
  | ctxRead
  /-- CTX_WRITE: Writes RW fields of the context record (19 R411). -/
  | ctxWrite
  /-- CTX_STOP_CLOSE: CTX_STOP with MODE 0 closes an interval (14 R347). -/
  | ctxStopClose
  /-- CTX_STOP_SAVE: CTX_STOP with MODE 1 stops and saves the context (14 R356). -/
  | ctxStopSave
  /-- CTX_RESUME: Resumes a SAVED context from its image, or a FAULTED one in place (14 R357). -/
  | ctxResume
  /-- CTX_KILL: Kills the context from any state and discards its images (14 R339). -/
  | ctxKill
  /-- CTX_INVAL: Invalidates translations of a virtual range for the context's tag (02 R74). -/
  | ctxInval
  /-- RING_CREATE: Creates a ring and assigns a queue-window slot (13 R304). -/
  | ringCreate
  /-- RING_DESTROY: Destroys a ring and the launch trees its packets opened (13 R321). -/
  | ringDestroy
  /-- OBJ_LOAD: Loads an Ixquin object: selects an image, places, relocates and maps it (15 R374). -/
  | objLoad
  /-- OBJ_UNLOAD: Revokes handles and unmaps an object once no group runs it (15 R376). -/
  | objUnload
  /-- GRAPH_SET: Registers or unregisters a graph table (13 R311). -/
  | graphSet
  /-- BIN_SET: Writes a bin entry, firing a pending set first (13 R313). -/
  | binSet
  /-- PB_SET: Writes a Publish Buffer table entry and invalidates its translations (03 R96). -/
  | pbSet
  /-- DOM_SET: Sets a domain's feature mask and per-core quotas (19 R416). -/
  | domSet
  /-- DOM_GET: Returns a domain's register block (19 R416). -/
  | domGet
  /-- SNAPSHOT: Reads a domain's counters at one cut and returns a signed record (19 R418). -/
  | snapshot
  /-- POWER_READ: Returns the power limit in force (19 R419). -/
  | powerRead
  /-- POWER_WRITE: Sets the power limit within the form's range (19 R419). -/
  | powerWrite
  /-- LIFE_GET: Returns bytes of the lifetime record (14 R365). -/
  | lifeGet
  /-- PEER_SET: Sets a peer table entry and returns its state (19 R405). -/
  | peerSet
  /-- IMAGE_PUSH: Checks and runs or stores a pushed Lantern firmware image (19 R415). -/
  | imagePush
  /-- SERVICE_COMPLETION: A begun service ends and its completion record is written with vector 2 (19 R412). -/
  | serviceCompletion (k : Nat)
  /-- GET_VERSION: SPDM request answered with the supported versions (19 R414). -/
  | getVersion
  /-- GET_CAPABILITIES: SPDM request answered with the responder's capabilities (19 R414). -/
  | getCapabilities
  /-- NEGOTIATE_ALGORITHMS: SPDM request settling ML-DSA-44 and SHA3-256 (19 R414). -/
  | negotiateAlgorithms
  /-- GET_DIGESTS: SPDM request answered with certificate chain digests (19 R414). -/
  | getDigests
  /-- GET_CERTIFICATE: SPDM request answered with the identity certificate (19 R414). -/
  | getCertificate
  /-- CHALLENGE: SPDM request answered with a signed challenge response (19 R414). -/
  | challenge (nonce : Nat)
  /-- GET_MEASUREMENTS: SPDM request answered with the boot measurements (19 R414). -/
  | getMeasurements (nonce : Nat)
  /-- VENDOR_DEFINED_REQUEST: SPDM request carrying an accounting snapshot (19 R414). -/
  | vendorDefinedRequest (dom nonce : Nat)
  /-- STORE_ENTERS_COHERENCE_ORDER: A released plain store reaches its home slice, base-die unit, home core, host (global observation) or peer (acknowledgement) and enters the location's coherence order, letting the releasing boundary complete (05 R131). -/
  | storeEntersCoherenceOrder (w k : Nat)
  /-- INSTRUCTION_FETCH: The word at PC is fetched and checked, trapping on PC_RANGE, a fetch fault, the zero word or an unassigned encoding (07 R191). -/
  | instructionFetch (w : Nat)
  /-- INSTRUCTION_CACHE_FILL: An instruction-cache line fill, by demand, read-ahead or IPREF, completes and makes the wave's next word fetched (15 R377). -/
  | instructionCacheFill (core c : Nat) (va : DWord)
  /-- BADSERVICE: A mailbox request whose SERVICE code is not in R411 is refused with BADSERVICE and an error response of KIND 8 (19 R410). -/
  | badservice
  /-- CHECKPOINT_PORT_UP: A checkpoint port that was down returns, so its records can be written and intervals can commit again (19 R404). -/
  | checkpointPortUp (p : Nat)
  /-- PEER_LINK_RETRAIN: The links to a DOWN peer retrain and Lantern confirms the peer's identity again, returning the entry to UP (19 R407). -/
  | peerLinkRetrain (p : Nat)
  /-- POWERED_ON_HOUR: Another powered-on hour elapses and Lantern updates LT_HOURS in the persistent lifetime record (14 R365). -/
  | poweredOnHour
  deriving DecidableEq, Repr

end Sys2Proof
end

