-- ==== Sys2Proof/Config.lean ====
section
/-! DEFINITION. What an implementation fixes, and the values the spec leaves open. An open value is an opaque function: no
proof can see what it is, so a statement about it holds whatever it is (log 5). -/

namespace Sys2Proof.Config

/-- Values the spec leaves open with no stated dependence, one per draw of State.draws (log 5). -/
opaque freeWord : Nat → DWord

/-- The self-tests and trainings that fail in a bring-up that no event describes, one per draw of State.draws (19 R415, R422; log 67). -/
opaque bootFailures : Nat → List BootFailure

/-- Where Lantern keeps a table of its own: of its kind, and of a context or an object (19 R408; log 84). -/
opaque tableBase : Nat → Nat → DWord

/-- The compression state (0 to 4) a lossless method gives to a unit of 512 bytes (02 R58; log 10). -/
opaque compressedState : List (BitVec 8) → Nat

/-- SHA3-256 of a byte string (19 R413; log 9). -/
opaque sha3 : List (BitVec 8) → BitVec 256

/-- The ML-DSA-44 signature of a byte string under the key of a device (19 R413, R414; log 9). -/
opaque sign : List (BitVec 8) → Nat

/-- Does a firmware image carry a valid signature (19 R415; log 9)? -/
opaque imageSigned : List (BitVec 8) → Bool

/-- The security version a firmware image carries (19 R415; log 9). -/
opaque imageVersion : List (BitVec 8) → Nat

/-- A payload byte of a WAVE, GROUP, SGO or FRONT record, whose layout the spec does not give: from the record's kind, what it
holds, and the byte's place (14 R351; log 12). -/
opaque recordByte : Nat → List DWord → Nat → BitVec 8

/-- The line of a full set of the LLC that a fill replaces, from a draw and the lines of the set (02 R45; log 74). -/
opaque llcVictim : Nat → List Nat → Nat

/-- The copy that a fill of a full L1 replaces, from a draw and the lines of its copies (04 R111; 05 R142; log 74). -/
opaque l1Victim : Nat → List Nat → Nat

/-- The entry that a fill of a full TLB or walk cache replaces, from a draw and the pages of its entries (02 R72; log 75). -/
opaque tlbVictim : Nat → List Nat → Nat

/-- The bytes that a read of the side storage of compression states transfers, and the unit that a fill of a full metadata cache
replaces, from a draw and the units it holds (02 R58; log 10). -/
opaque metaRead : Nat
opaque metaVictim : Nat → List Nat → Nat

/-- The ROM code of the stepping, and the digest of the device identity certificate, as bytes (19 R413; log 9). -/
opaque romCode : List (BitVec 8)
opaque identityDigest : BitVec 256

/-- The device identity certificate as bytes (19 R414; log 9). -/
opaque certificate : List (BitVec 8)

/-- An SPDM message as bytes: from the response code, whether algorithms are negotiated, the request and the content that
the spec names (19 R414; log 25). -/
opaque spdmMessage : Nat → Bool → List (BitVec 8) → List (BitVec 8) → List (BitVec 8)

/-- The domain and the nonce in the request for a snapshot that an SPDM vendor-defined message carries (19 R414; log 25). -/
opaque spdmDomain : List (BitVec 8) → Nat
opaque spdmNonce : List (BitVec 8) → Nat

end Sys2Proof.Config
end

