-- ==== Sys2Proof/WellFormed.lean ====
section
/-! DEFINITION. Which instructions are well formed: the field values that 06 R170 step 3 refuses in the word itself, the
registers that do not exist (06 R158), the special registers of 06 R160. The budgets of the running role (06 R159) and
the rules of word groups (06 R165) depend on the wave and are checked by the machine. -/

namespace Sys2Proof

/-- Element width in bits of a format code 0 to 7 (01 R12, 08 R214). -/
def cvtWidth (f : BitVec 4) : Nat :=
  if f = 0#4 ∨ f = 7#4 then 32 else if f = 1#4 ∨ f = 2#4 then 16 else 8

/-- The pairs VCVT accepts (08 R215). -/
def cvtPair (d s : BitVec 4) : Bool := decide (d < 8#4) && decide (s < 8#4) && decide (d ≠ s)

/-- The pairs VCVTPK accepts, and how many source registers it reads (08 R216). -/
def packPair (d s : BitVec 4) : Bool := cvtPair d s && decide (cvtWidth d ≤ cvtWidth s) && decide (cvtWidth d < 32)
def packCount (d s : BitVec 4) : Nat := cvtWidth s / cvtWidth d

/-- The pairs VCVTXP accepts, and how many destination registers it writes (08 R216). -/
def unpackPair (d s : BitVec 4) : Bool := cvtPair d s && decide (cvtWidth s < cvtWidth d)
def unpackCount (d s : BitVec 4) : Nat := cvtWidth d / cvtWidth s

/-- The codes of block formats (08 R218). -/
def blockCode (f : BitVec 4) : Bool := decide (8#4 ≤ f) && decide (f ≤ 12#4)

/-- FP32 registers that one register of a block format stands for (08 R218). -/
def blockRegs (f : BitVec 4) : Nat := if f = 10#4 ∨ f = 12#4 then 8 else 4

/-- The registers v(r) to v(r+n-1) exist (06 R158). -/
def regRange (r : BitVec 8) (n : Nat) : Bool := decide (r.toNat + n ≤ 256)

/-- The registers s(r) to s(r+n-1) exist (06 R158). -/
def scalarRange (r : BitVec 6) (n : Nat) : Bool := decide (r.toNat + n ≤ 64)

/-- s(r+1) exists (06 R158). -/
def nextScalar (r : BitVec 6) : Bool := scalarRange r 2

/-- A scope code of 05 R129; 6 and 7 are reserved (06 R172). -/
def scopeCode (c : BitVec 3) : Bool := decide (c < 6#3)

/-- V = 1 with W64 = 1 is reserved (06 R172). -/
def atomicShape (v w : BitVec 1) : Bool := !(v == 1#1 && w == 1#1)

/-- The formats of MMA operands and of ACCCVT results: 1 to 4 and 8 to 12 (10 R252, R262). -/
def mmaFormat (f : BitVec 4) : Bool :=
  (decide (1#4 ≤ f) && decide (f ≤ 4#4)) || (decide (8#4 ≤ f) && decide (f ≤ 12#4))

/-- The special registers SRD names (06 R160). -/
def srReadable (i : BitVec 12) : Bool :=
  decide (i ≤ 0x008#12) || (decide (0x010#12 ≤ i) && decide (i ≤ 0x012#12)) ||
  (decide (0x020#12 ≤ i) && decide (i ≤ 0x022#12)) || (decide (0x030#12 ≤ i) && decide (i ≤ 0x032#12)) ||
  (decide (0x040#12 ≤ i) && decide (i ≤ 0x042#12))

/-- The special registers SWR may write (06 R160). -/
def srWritable (i : BitVec 12) : Bool := i == 0x021#12 || i == 0x022#12 || i == 0x031#12

/-- Well-formedness of an instruction's own fields (06 R158, R160, R170 step 3). Events carry no encoding. -/
def Instr.wf : Instr → Bool
  | .vaddI32 _ _ _ _ => true
  | .vsubI32 _ _ _ _ => true
  | .vmulI32 _ _ _ _ => true
  | .vmulhI32 _ _ _ _ => true
  | .vmulhuI32 _ _ _ _ => true
  | .vminI32 _ _ _ _ => true
  | .vmaxI32 _ _ _ _ => true
  | .vminuI32 _ _ _ _ => true
  | .vmaxuI32 _ _ _ _ => true
  | .vand _ _ _ _ => true
  | .vor _ _ _ _ => true
  | .vxor _ _ _ _ => true
  | .vshl _ _ _ _ => true
  | .vshr _ _ _ _ => true
  | .vsar _ _ _ _ => true
  | .vmov _ _ _ => true
  | .vpopc _ _ _ => true
  | .vclz _ _ _ => true
  | .vsel _ _ _ _ => true
  | .vaddF32 _ _ _ _ => true
  | .vsubF32 _ _ _ _ => true
  | .vmulF32 _ _ _ _ => true
  | .vfmaF32 _ _ _ _ => true
  | .vminF32 _ _ _ _ => true
  | .vmaxF32 _ _ _ _ => true
  | .vabsF32 _ _ _ => true
  | .vnegF32 _ _ _ => true
  | .vaddBf16x2 _ _ _ _ => true
  | .vmulBf16x2 _ _ _ _ => true
  | .vfmaBf16x2 _ _ _ _ => true
  | .vaddFp16x2 _ _ _ _ => true
  | .vmulFp16x2 _ _ _ _ => true
  | .vfmaFp16x2 _ _ _ _ => true
  | .vaddE4m3x4 _ _ _ _ => true
  | .vmulE4m3x4 _ _ _ _ => true
  | .vaddInt8x4 _ _ _ _ => true
  | .vsubInt8x4 _ _ _ _ => true
  | .vaddUint8x4 _ _ _ _ => true
  | .vsubUint8x4 _ _ _ _ => true
  | .vdot2Bf16 _ _ _ _ => true
  | .vdot2Fp16 _ _ _ _ => true
  | .vdot4E4m3 _ _ _ _ => true
  | .vdot4Int8 _ _ _ _ => true
  | .vcvt _ _ _ f g => cvtPair f g
  | .vcvtpk _ _ a f g => packPair f g && regRange a (packCount f g)
  | .vcvtxp _ d _ f g => unpackPair f g && regRange d (unpackCount f g)
  | .vqblk _ _ a f => blockCode f && regRange a (blockRegs f)
  | .vdqblk _ d _ f => blockCode f && regRange d (blockRegs f)
  | .vrcp _ _ _ => true
  | .vrsq _ _ _ => true
  | .vsqrt _ _ _ => true
  | .vexp2 _ _ _ => true
  | .vlog2 _ _ _ => true
  | .vsinpi _ _ _ => true
  | .vcospi _ _ _ => true
  | .add _ _ _ _ => true
  | .sub _ _ _ _ => true
  | .mul _ _ _ _ => true
  | .mulh _ _ _ _ => true
  | .mulhu _ _ _ _ => true
  | .and _ _ _ _ => true
  | .or _ _ _ _ => true
  | .xor _ _ _ _ => true
  | .andn _ _ _ _ => true
  | .shl _ _ _ _ => true
  | .shr _ _ _ _ => true
  | .sar _ _ _ _ => true
  | .shli _ _ _ _ => true
  | .shri _ _ _ _ => true
  | .sari _ _ _ _ => true
  | .slt _ _ _ _ => true
  | .sltu _ _ _ _ => true
  | .min _ _ _ _ => true
  | .max _ _ _ _ => true
  | .minu _ _ _ _ => true
  | .maxu _ _ _ _ => true
  | .popc _ _ _ => true
  | .clz _ _ _ => true
  | .ctz _ _ _ => true
  | .addi _ _ _ _ => true
  | .andi _ _ _ _ => true
  | .ori _ _ _ _ => true
  | .xori _ _ _ _ => true
  | .slti _ _ _ _ => true
  | .sltiu _ _ _ _ => true
  | .grd _ _ _ => true
  | .gwr _ _ _ => true
  | .gadd _ _ _ _ => true
  | .bez _ _ _ => true
  | .bnez _ _ _ => true
  | .bra _ _ => true
  | .bany _ _ _ => true
  | .ball _ _ _ => true
  | .bnone _ _ _ => true
  | .call _ _ => true
  | .jmpr _ _ _ => true
  | .callr _ _ _ => true
  | .ret _ => true
  | .endWave _ => true
  | .yield _ => true
  | .trap _ _ => true
  | .tret _ => true
  | .srd _ _ i => srReadable i
  | .swr _ _ i => srWritable i
  | .fenceI _ => true
  | .sld _ _ _ _ => true
  | .sst _ _ _ _ => true
  | .vldI8 _ _ _ _ => true
  | .vldZ8 _ _ _ _ => true
  | .vldI16 _ _ _ _ => true
  | .vldZ16 _ _ _ _ => true
  | .vld32 _ _ _ _ => true
  | .vst8 _ _ _ _ => true
  | .vst16 _ _ _ _ => true
  | .vst32 _ _ _ _ => true
  | .vldl _ _ _ => true
  | .vstl _ _ _ => true
  | .vldb _ _ _ => true
  | .vstb _ _ _ => true
  | .vstc _ _ _ _ => true
  | .phase _ c => scopeCode c
  | .barInit _ _ _ => true
  | .barArrive _ _ => true
  | .barWait _ _ _ => true
  | .wsq _ _ _ => true
  | .aadd _ _ c v w _ _ => scopeCode c && atomicShape v w
  | .aaddF32 _ _ c _ _ _ => scopeCode c
  | .aand _ _ c v w _ _ => scopeCode c && atomicShape v w
  | .aor _ _ c v w _ _ => scopeCode c && atomicShape v w
  | .axor _ _ c v w _ _ => scopeCode c && atomicShape v w
  | .amin _ _ c v w _ _ => scopeCode c && atomicShape v w
  | .amax _ _ c v w _ _ => scopeCode c && atomicShape v w
  | .aminu _ _ c v w _ _ => scopeCode c && atomicShape v w
  | .amaxu _ _ c v w _ _ => scopeCode c && atomicShape v w
  | .axchg _ _ c v w _ _ => scopeCode c && atomicShape v w
  | .acas _ _ c v w x _ => scopeCode c && atomicShape v w && (v == 1#1 || nextScalar x)
  | .vcmpEqI32 _ _ _ _ => true
  | .vcmpNeI32 _ _ _ _ => true
  | .vcmpLtI32 _ _ _ _ => true
  | .vcmpLeI32 _ _ _ _ => true
  | .vcmpLtuI32 _ _ _ _ => true
  | .vcmpLeuI32 _ _ _ _ => true
  | .vcmpEqF32 _ _ _ _ => true
  | .vcmpNeF32 _ _ _ _ => true
  | .vcmpLtF32 _ _ _ _ => true
  | .vcmpLeF32 _ _ _ _ => true
  | .vcmpUnF32 _ _ _ _ => true
  | .mand _ _ _ _ => true
  | .mor _ _ _ _ => true
  | .mxor _ _ _ _ => true
  | .mandn _ _ _ _ => true
  | .mnot _ _ _ => true
  | .mfroms _ _ _ => true
  | .mtos _ _ _ => true
  | .mpopc _ _ _ => true
  | .mffs _ _ _ => true
  | .vshfl _ _ _ _ => true
  | .vmatch _ _ _ => true
  | .vmatchF _ _ _ => true
  | .vreduceAddF32 _ _ _ => true
  | .vreduceAddI32 _ _ _ => true
  | .vreduceMinF32 _ _ _ => true
  | .vreduceMaxF32 _ _ _ => true
  | .vreduceMinI32 _ _ _ => true
  | .vreduceMaxI32 _ _ _ => true
  | .vscanAddF32 _ _ _ => true
  | .vscanAddI32 _ _ _ => true
  | .vmovs _ _ _ => true
  | .vrdlane _ _ _ _ => true
  | .vwrlane _ _ _ _ => true
  | .vlaneid _ _ => true
  | .mma _ p q _ _ a => mmaFormat p && mmaFormat q && scalarRange a 4
  | .accz _ _ => true
  | .accld _ _ _ _ => true
  | .accst _ _ _ _ => true
  | .acccvt _ _ _ _ f => mmaFormat f
  | .mwait _ _ => true
  | .copyk _ _ => true
  | .cpq _ _ _ => true
  | .publ _ _ => true
  | .hvxor _ _ _ _ => true
  | .hvnot _ _ _ => true
  | .hvmov _ _ _ => true
  | .hvbund _ _ _ => true
  | .hvbsub _ _ _ => true
  | .hvmaj _ _ _ => true
  | .hvbclr _ _ => true
  | .hvgen _ _ => true
  | .hvrot _ _ _ _ => true
  | .hvdist _ _ _ _ => true
  | .hvseed _ _ => true
  | .hvrdtie _ _ => true
  | .hvld _ _ _ => true
  | .hvst _ _ _ => true
  | .hvnear _ _ x _ => nextScalar x
  | .hvbit _ _ _ _ => true
  | .enq _ _ _ _ => true
  | .sgfork _ _ _ _ => true
  | .sgreward _ _ _ => true
  | .sgwait _ _ => true
  | .sgcancel _ _ => true
  | .sgquery _ _ _ => true
  | .srdp _ _ _ => true
  | .swrp _ _ _ => true
  | .icinv _ => true
  | .tlbinv _ _ => true
  | .wkill _ _ => true
  | .wresume _ _ => true
  | .acrd _ _ _ _ => true
  | .halt _ => true
  | .hintImm _ => true
  | .hintMod _ _ _ _ _ _ _ => true
  | .ipref _ _ _ => true
  | .hintSched _ _ => true
  | .hintSchedDelayEnd _ => true
  | .resultWrite _ _ _ => true
  | .atomicPerform _ _ => true
  | .llcFill _ => true
  | .llcWriteBack _ => true
  | .pageWalk _ _ _ => true
  | .wsRefreshWindowEnd _ => true
  | .regionBaseWrite _ _ _ => true
  | .regionLimitWrite _ _ _ => true
  | .regionScaleWrite _ _ _ => true
  | .regionCtlWrite _ _ _ => true
  | .regionChangeApply _ _ => true
  | .registerWrite _ _ => true
  | .qwptrDoorbell _ _ => true
  | .pad _ _ => true
  | .kernel _ _ => true
  | .graph _ _ => true
  | .copy _ _ _ => true
  | .waitValue _ _ => true
  | .waitValueReread _ _ => true
  | .signal _ _ => true
  | .signalAdd _ _ => true
  | .publish _ _ => true
  | .checkpointClose _ _ => true
  | .checkpointStopSave _ _ => true
  | .launchComplete _ => true
  | .binTimerExpiry _ _ => true
  | .groupPlace => true
  | .groupStart _ => true
  | .groupPark _ => true
  | .sgwaitSpinExpiry _ => true
  | .sgoTimeout _ _ => true
  | .trapEntry _ => true
  | .boundaryTrap _ => true
  | .waveKill _ => true
  | .waveStop _ _ => true
  | .copyRequestStart _ => true
  | .copyPieceLand _ _ => true
  | .copyRequestFail _ => true
  | .copyRequestCancel _ => true
  | .followOnIssue _ => true
  | .publishStep _ _ => true
  | .arrayPass _ _ => true
  | .acczRun _ _ => true
  | .accldRun _ _ => true
  | .barWaitComplete _ => true
  | .intervalClose _ => true
  | .cutCapture _ => true
  | .ckptintvExpiry _ => true
  | .agStreamItem _ _ => true
  | .agCommit _ => true
  | .agPendUpdate _ => true
  | .eccCorrectable _ => true
  | .eccUncorrectable _ => true
  | .logicError _ => true
  | .linkFlitRetry _ => true
  | .selfTestVerdict _ _ => true
  | .hostHdmAccess _ => true
  | .peerRequest _ _ => true
  | .peerLinkDown _ => true
  | .ckptPortDown _ => true
  | .powerThrottleWindow _ => true
  | .thermalThrottle _ => true
  | .thermtrip => true
  | .deviceReset _ => true
  | .ctxCreate => true
  | .ctxDestroy => true
  | .ctxRead => true
  | .ctxWrite => true
  | .ctxStopClose => true
  | .ctxStopSave => true
  | .ctxResume => true
  | .ctxKill => true
  | .ctxInval => true
  | .ringCreate => true
  | .ringDestroy => true
  | .objLoad => true
  | .objUnload => true
  | .graphSet => true
  | .binSet => true
  | .pbSet => true
  | .domSet => true
  | .domGet => true
  | .snapshot => true
  | .powerRead => true
  | .powerWrite => true
  | .lifeGet => true
  | .peerSet => true
  | .imagePush => true
  | .serviceCompletion _ => true
  | .getVersion => true
  | .getCapabilities => true
  | .negotiateAlgorithms => true
  | .getDigests => true
  | .getCertificate => true
  | .challenge _ => true
  | .getMeasurements _ => true
  | .vendorDefinedRequest _ _ => true
  | .storeEntersCoherenceOrder _ _ => true
  | .instructionFetch _ => true
  | .instructionCacheFill _ _ _ => true
  | .badservice => true
  | .checkpointPortUp _ => true
  | .peerLinkRetrain _ => true
  | .poweredOnHour => true

end Sys2Proof
end

