-- ==== Sys2Proof/Decode.lean ====
section
/-! DEFINITION. Decoding: words to instructions, from the formats and the opcode map (06 R156, R157, R171, R172), and the
encoder written from the same tables. -/

namespace Sys2Proof

/-- The bits of a field that starts at bit `lo` (06 R157). -/
def fieldOf (w : Word) (lo len : Nat) : BitVec len := w.extractLsb' lo len

/-- A word from its bytes, the lowest address first (00 R5). -/
def wordOfBytes (b0 b1 b2 b3 : BitVec 8) : Word := b3 ++ b2 ++ b1 ++ b0

/-- Primary 0x60 (06 R172). -/
def decode60 (w : Word) : Option Instr :=
  if fieldOf w 18 6 = 0x0#6 then some (.add (fieldOf w 31 1) (fieldOf w 12 6) (fieldOf w 6 6) (fieldOf w 0 6))
  else if fieldOf w 18 6 = 0x1#6 then some (.sub (fieldOf w 31 1) (fieldOf w 12 6) (fieldOf w 6 6) (fieldOf w 0 6))
  else if fieldOf w 18 6 = 0x2#6 then some (.mul (fieldOf w 31 1) (fieldOf w 12 6) (fieldOf w 6 6) (fieldOf w 0 6))
  else if fieldOf w 18 6 = 0x3#6 then some (.mulh (fieldOf w 31 1) (fieldOf w 12 6) (fieldOf w 6 6) (fieldOf w 0 6))
  else if fieldOf w 18 6 = 0x4#6 then some (.mulhu (fieldOf w 31 1) (fieldOf w 12 6) (fieldOf w 6 6) (fieldOf w 0 6))
  else if fieldOf w 18 6 = 0x5#6 then some (.and (fieldOf w 31 1) (fieldOf w 12 6) (fieldOf w 6 6) (fieldOf w 0 6))
  else if fieldOf w 18 6 = 0x6#6 then some (.or (fieldOf w 31 1) (fieldOf w 12 6) (fieldOf w 6 6) (fieldOf w 0 6))
  else if fieldOf w 18 6 = 0x7#6 then some (.xor (fieldOf w 31 1) (fieldOf w 12 6) (fieldOf w 6 6) (fieldOf w 0 6))
  else if fieldOf w 18 6 = 0x8#6 then some (.andn (fieldOf w 31 1) (fieldOf w 12 6) (fieldOf w 6 6) (fieldOf w 0 6))
  else if fieldOf w 18 6 = 0x9#6 then some (.shl (fieldOf w 31 1) (fieldOf w 12 6) (fieldOf w 6 6) (fieldOf w 0 6))
  else if fieldOf w 18 6 = 0xA#6 then some (.shr (fieldOf w 31 1) (fieldOf w 12 6) (fieldOf w 6 6) (fieldOf w 0 6))
  else if fieldOf w 18 6 = 0xB#6 then some (.sar (fieldOf w 31 1) (fieldOf w 12 6) (fieldOf w 6 6) (fieldOf w 0 6))
  else if fieldOf w 18 6 = 0xC#6 then some (.shli (fieldOf w 31 1) (fieldOf w 12 6) (fieldOf w 6 6) (fieldOf w 0 6))
  else if fieldOf w 18 6 = 0xD#6 then some (.shri (fieldOf w 31 1) (fieldOf w 12 6) (fieldOf w 6 6) (fieldOf w 0 6))
  else if fieldOf w 18 6 = 0xE#6 then some (.sari (fieldOf w 31 1) (fieldOf w 12 6) (fieldOf w 6 6) (fieldOf w 0 6))
  else if fieldOf w 18 6 = 0xF#6 then some (.slt (fieldOf w 31 1) (fieldOf w 12 6) (fieldOf w 6 6) (fieldOf w 0 6))
  else if fieldOf w 18 6 = 0x10#6 then some (.sltu (fieldOf w 31 1) (fieldOf w 12 6) (fieldOf w 6 6) (fieldOf w 0 6))
  else if fieldOf w 18 6 = 0x11#6 then some (.min (fieldOf w 31 1) (fieldOf w 12 6) (fieldOf w 6 6) (fieldOf w 0 6))
  else if fieldOf w 18 6 = 0x12#6 then some (.max (fieldOf w 31 1) (fieldOf w 12 6) (fieldOf w 6 6) (fieldOf w 0 6))
  else if fieldOf w 18 6 = 0x13#6 then some (.minu (fieldOf w 31 1) (fieldOf w 12 6) (fieldOf w 6 6) (fieldOf w 0 6))
  else if fieldOf w 18 6 = 0x14#6 then some (.maxu (fieldOf w 31 1) (fieldOf w 12 6) (fieldOf w 6 6) (fieldOf w 0 6))
  else if fieldOf w 18 6 = 0x15#6 ∧ fieldOf w 0 6 = 0x0#6 then some (.popc (fieldOf w 31 1) (fieldOf w 12 6) (fieldOf w 6 6))
  else if fieldOf w 18 6 = 0x16#6 ∧ fieldOf w 0 6 = 0x0#6 then some (.clz (fieldOf w 31 1) (fieldOf w 12 6) (fieldOf w 6 6))
  else if fieldOf w 18 6 = 0x17#6 ∧ fieldOf w 0 6 = 0x0#6 then some (.ctz (fieldOf w 31 1) (fieldOf w 12 6) (fieldOf w 6 6))
  else none

/-- Primary 0x66 (06 R172). -/
def decode66 (w : Word) : Option Instr :=
  if fieldOf w 20 4 = 0x0#4 ∧ fieldOf w 8 6 = 0x0#6 then some (.grd (fieldOf w 31 1) (fieldOf w 14 6) (fieldOf w 0 8))
  else if fieldOf w 20 4 = 0x1#4 ∧ fieldOf w 14 6 = 0x0#6 then some (.gwr (fieldOf w 31 1) (fieldOf w 8 6) (fieldOf w 0 8))
  else if fieldOf w 20 4 = 0x2#4 then some (.gadd (fieldOf w 31 1) (fieldOf w 14 6) (fieldOf w 8 6) (fieldOf w 0 8))
  else none

/-- Primary 0x6A (06 R172). -/
def decode6A (w : Word) : Option Instr :=
  if fieldOf w 0 3 = 0x0#3 then some (.vldI8 (fieldOf w 31 1) (fieldOf w 16 8) (fieldOf w 8 8) (fieldOf w 3 5))
  else if fieldOf w 0 3 = 0x1#3 then some (.vldZ8 (fieldOf w 31 1) (fieldOf w 16 8) (fieldOf w 8 8) (fieldOf w 3 5))
  else if fieldOf w 0 3 = 0x2#3 then some (.vldI16 (fieldOf w 31 1) (fieldOf w 16 8) (fieldOf w 8 8) (fieldOf w 3 5))
  else if fieldOf w 0 3 = 0x3#3 then some (.vldZ16 (fieldOf w 31 1) (fieldOf w 16 8) (fieldOf w 8 8) (fieldOf w 3 5))
  else if fieldOf w 0 3 = 0x4#3 then some (.vld32 (fieldOf w 31 1) (fieldOf w 16 8) (fieldOf w 8 8) (fieldOf w 3 5))
  else if fieldOf w 0 3 = 0x5#3 then some (.vst8 (fieldOf w 31 1) (fieldOf w 16 8) (fieldOf w 8 8) (fieldOf w 3 5))
  else if fieldOf w 0 3 = 0x6#3 then some (.vst16 (fieldOf w 31 1) (fieldOf w 16 8) (fieldOf w 8 8) (fieldOf w 3 5))
  else if fieldOf w 0 3 = 0x7#3 then some (.vst32 (fieldOf w 31 1) (fieldOf w 16 8) (fieldOf w 8 8) (fieldOf w 3 5))
  else none

/-- Primary 0x6B (06 R172). -/
def decode6B (w : Word) : Option Instr :=
  if fieldOf w 20 4 = 0x0#4 ∧ fieldOf w 0 6 = 0x0#6 then some (.vldl (fieldOf w 31 1) (fieldOf w 12 8) (fieldOf w 6 6))
  else if fieldOf w 20 4 = 0x1#4 ∧ fieldOf w 0 6 = 0x0#6 then some (.vstl (fieldOf w 31 1) (fieldOf w 12 8) (fieldOf w 6 6))
  else if fieldOf w 20 4 = 0x2#4 ∧ fieldOf w 0 6 = 0x0#6 then some (.vldb (fieldOf w 31 1) (fieldOf w 12 8) (fieldOf w 6 6))
  else if fieldOf w 20 4 = 0x3#4 ∧ fieldOf w 0 6 = 0x0#6 then some (.vstb (fieldOf w 31 1) (fieldOf w 12 8) (fieldOf w 6 6))
  else if fieldOf w 20 4 = 0x4#4 then some (.vstc (fieldOf w 31 1) (fieldOf w 12 8) (fieldOf w 6 6) (fieldOf w 0 6))
  else if fieldOf w 20 4 = 0x5#4 ∧ fieldOf w 15 5 = 0x0#5 ∧ fieldOf w 0 12 = 0x0#12 then some (.phase (fieldOf w 31 1) (fieldOf w 12 3))
  else if fieldOf w 20 4 = 0x6#4 ∧ fieldOf w 12 8 = 0x0#8 then some (.barInit (fieldOf w 31 1) (fieldOf w 6 6) (fieldOf w 0 6))
  else if fieldOf w 20 4 = 0x7#4 ∧ fieldOf w 12 8 = 0x0#8 ∧ fieldOf w 0 6 = 0x0#6 then some (.barArrive (fieldOf w 31 1) (fieldOf w 6 6))
  else if fieldOf w 20 4 = 0x8#4 ∧ fieldOf w 12 8 = 0x0#8 then some (.barWait (fieldOf w 31 1) (fieldOf w 6 6) (fieldOf w 0 6))
  else if fieldOf w 20 4 = 0x9#4 ∧ fieldOf w 18 2 = 0x0#2 ∧ fieldOf w 0 6 = 0x0#6 then some (.wsq (fieldOf w 31 1) (fieldOf w 12 6) (fieldOf w 6 6))
  else none

/-- Primary 0x6E (06 R172). -/
def decode6E (w : Word) : Option Instr :=
  if fieldOf w 18 3 = 0x0#3 ∧ fieldOf w 21 3 = 0x0#3 then some (.bra (fieldOf w 31 1) (fieldOf w 0 18))
  else if fieldOf w 18 3 = 0x1#3 then some (.bany (fieldOf w 31 1) (fieldOf w 21 3) (fieldOf w 0 18))
  else if fieldOf w 18 3 = 0x2#3 then some (.ball (fieldOf w 31 1) (fieldOf w 21 3) (fieldOf w 0 18))
  else if fieldOf w 18 3 = 0x3#3 then some (.bnone (fieldOf w 31 1) (fieldOf w 21 3) (fieldOf w 0 18))
  else if fieldOf w 18 3 = 0x4#3 ∧ fieldOf w 21 3 = 0x0#3 then some (.call (fieldOf w 31 1) (fieldOf w 0 18))
  else none

/-- Primary 0x6F (06 R172). -/
def decode6F (w : Word) : Option Instr :=
  if fieldOf w 18 6 = 0x0#6 then some (.jmpr (fieldOf w 31 1) (fieldOf w 12 6) (fieldOf w 0 12))
  else if fieldOf w 18 6 = 0x1#6 then some (.callr (fieldOf w 31 1) (fieldOf w 12 6) (fieldOf w 0 12))
  else if fieldOf w 18 6 = 0x2#6 ∧ fieldOf w 0 18 = 0x0#18 then some (.ret (fieldOf w 31 1))
  else if fieldOf w 18 6 = 0x3#6 ∧ fieldOf w 0 18 = 0x0#18 then some (.endWave (fieldOf w 31 1))
  else if fieldOf w 18 6 = 0x4#6 ∧ fieldOf w 0 18 = 0x0#18 then some (.yield (fieldOf w 31 1))
  else if fieldOf w 18 6 = 0x5#6 ∧ fieldOf w 12 6 = 0x0#6 then some (.trap (fieldOf w 31 1) (fieldOf w 0 12))
  else if fieldOf w 18 6 = 0x6#6 ∧ fieldOf w 0 18 = 0x0#18 then some (.tret (fieldOf w 31 1))
  else if fieldOf w 18 6 = 0x7#6 then some (.srd (fieldOf w 31 1) (fieldOf w 12 6) (fieldOf w 0 12))
  else if fieldOf w 18 6 = 0x8#6 then some (.swr (fieldOf w 31 1) (fieldOf w 12 6) (fieldOf w 0 12))
  else if fieldOf w 18 6 = 0x9#6 ∧ fieldOf w 0 18 = 0x0#18 then some (.fenceI (fieldOf w 31 1))
  else none

/-- Primary 0x70 (06 R172). -/
def decode70 (w : Word) : Option Instr :=
  if fieldOf w 16 5 = 0x0#5 then some (.vcmpEqI32 (fieldOf w 31 1) (fieldOf w 21 3) (fieldOf w 8 8) (fieldOf w 0 8))
  else if fieldOf w 16 5 = 0x1#5 then some (.vcmpNeI32 (fieldOf w 31 1) (fieldOf w 21 3) (fieldOf w 8 8) (fieldOf w 0 8))
  else if fieldOf w 16 5 = 0x2#5 then some (.vcmpLtI32 (fieldOf w 31 1) (fieldOf w 21 3) (fieldOf w 8 8) (fieldOf w 0 8))
  else if fieldOf w 16 5 = 0x3#5 then some (.vcmpLeI32 (fieldOf w 31 1) (fieldOf w 21 3) (fieldOf w 8 8) (fieldOf w 0 8))
  else if fieldOf w 16 5 = 0x4#5 then some (.vcmpLtuI32 (fieldOf w 31 1) (fieldOf w 21 3) (fieldOf w 8 8) (fieldOf w 0 8))
  else if fieldOf w 16 5 = 0x5#5 then some (.vcmpLeuI32 (fieldOf w 31 1) (fieldOf w 21 3) (fieldOf w 8 8) (fieldOf w 0 8))
  else if fieldOf w 16 5 = 0x8#5 then some (.vcmpEqF32 (fieldOf w 31 1) (fieldOf w 21 3) (fieldOf w 8 8) (fieldOf w 0 8))
  else if fieldOf w 16 5 = 0x9#5 then some (.vcmpNeF32 (fieldOf w 31 1) (fieldOf w 21 3) (fieldOf w 8 8) (fieldOf w 0 8))
  else if fieldOf w 16 5 = 0xA#5 then some (.vcmpLtF32 (fieldOf w 31 1) (fieldOf w 21 3) (fieldOf w 8 8) (fieldOf w 0 8))
  else if fieldOf w 16 5 = 0xB#5 then some (.vcmpLeF32 (fieldOf w 31 1) (fieldOf w 21 3) (fieldOf w 8 8) (fieldOf w 0 8))
  else if fieldOf w 16 5 = 0xC#5 then some (.vcmpUnF32 (fieldOf w 31 1) (fieldOf w 21 3) (fieldOf w 8 8) (fieldOf w 0 8))
  else none

/-- Primary 0x71 (06 R172). -/
def decode71 (w : Word) : Option Instr :=
  if fieldOf w 19 5 = 0x0#5 ∧ fieldOf w 0 10 = 0x0#10 then some (.mand (fieldOf w 31 1) (fieldOf w 16 3) (fieldOf w 13 3) (fieldOf w 10 3))
  else if fieldOf w 19 5 = 0x1#5 ∧ fieldOf w 0 10 = 0x0#10 then some (.mor (fieldOf w 31 1) (fieldOf w 16 3) (fieldOf w 13 3) (fieldOf w 10 3))
  else if fieldOf w 19 5 = 0x2#5 ∧ fieldOf w 0 10 = 0x0#10 then some (.mxor (fieldOf w 31 1) (fieldOf w 16 3) (fieldOf w 13 3) (fieldOf w 10 3))
  else if fieldOf w 19 5 = 0x3#5 ∧ fieldOf w 0 10 = 0x0#10 then some (.mandn (fieldOf w 31 1) (fieldOf w 16 3) (fieldOf w 13 3) (fieldOf w 10 3))
  else if fieldOf w 19 5 = 0x4#5 ∧ fieldOf w 0 13 = 0x0#13 then some (.mnot (fieldOf w 31 1) (fieldOf w 16 3) (fieldOf w 13 3))
  else if fieldOf w 19 5 = 0x5#5 ∧ fieldOf w 10 6 = 0x0#6 ∧ fieldOf w 0 4 = 0x0#4 then some (.mfroms (fieldOf w 31 1) (fieldOf w 16 3) (fieldOf w 4 6))
  else if fieldOf w 19 5 = 0x6#5 ∧ fieldOf w 16 3 = 0x0#3 ∧ fieldOf w 10 3 = 0x0#3 ∧ fieldOf w 0 4 = 0x0#4 then some (.mtos (fieldOf w 31 1) (fieldOf w 13 3) (fieldOf w 4 6))
  else if fieldOf w 19 5 = 0x7#5 ∧ fieldOf w 16 3 = 0x0#3 ∧ fieldOf w 10 3 = 0x0#3 ∧ fieldOf w 0 4 = 0x0#4 then some (.mpopc (fieldOf w 31 1) (fieldOf w 13 3) (fieldOf w 4 6))
  else if fieldOf w 19 5 = 0x8#5 ∧ fieldOf w 16 3 = 0x0#3 ∧ fieldOf w 10 3 = 0x0#3 ∧ fieldOf w 0 4 = 0x0#4 then some (.mffs (fieldOf w 31 1) (fieldOf w 13 3) (fieldOf w 4 6))
  else none

/-- Primary 0x72 (06 R172). -/
def decode72 (w : Word) : Option Instr :=
  if fieldOf w 0 5 = 0x0#5 then some (.vshfl (fieldOf w 31 1) (fieldOf w 16 8) (fieldOf w 8 8) (fieldOf w 5 3))
  else if fieldOf w 0 5 = 0x1#5 ∧ fieldOf w 5 3 = 0x0#3 then some (.vmatch (fieldOf w 31 1) (fieldOf w 16 8) (fieldOf w 8 8))
  else if fieldOf w 0 5 = 0x2#5 ∧ fieldOf w 5 3 = 0x0#3 then some (.vmatchF (fieldOf w 31 1) (fieldOf w 16 8) (fieldOf w 8 8))
  else if fieldOf w 0 5 = 0x3#5 ∧ fieldOf w 5 3 = 0x0#3 then some (.vreduceAddF32 (fieldOf w 31 1) (fieldOf w 16 8) (fieldOf w 8 8))
  else if fieldOf w 0 5 = 0x4#5 ∧ fieldOf w 5 3 = 0x0#3 then some (.vreduceAddI32 (fieldOf w 31 1) (fieldOf w 16 8) (fieldOf w 8 8))
  else if fieldOf w 0 5 = 0x5#5 ∧ fieldOf w 5 3 = 0x0#3 then some (.vreduceMinF32 (fieldOf w 31 1) (fieldOf w 16 8) (fieldOf w 8 8))
  else if fieldOf w 0 5 = 0x6#5 ∧ fieldOf w 5 3 = 0x0#3 then some (.vreduceMaxF32 (fieldOf w 31 1) (fieldOf w 16 8) (fieldOf w 8 8))
  else if fieldOf w 0 5 = 0x7#5 ∧ fieldOf w 5 3 = 0x0#3 then some (.vreduceMinI32 (fieldOf w 31 1) (fieldOf w 16 8) (fieldOf w 8 8))
  else if fieldOf w 0 5 = 0x8#5 ∧ fieldOf w 5 3 = 0x0#3 then some (.vreduceMaxI32 (fieldOf w 31 1) (fieldOf w 16 8) (fieldOf w 8 8))
  else if fieldOf w 0 5 = 0x9#5 ∧ fieldOf w 5 3 = 0x0#3 then some (.vscanAddF32 (fieldOf w 31 1) (fieldOf w 16 8) (fieldOf w 8 8))
  else if fieldOf w 0 5 = 0xA#5 ∧ fieldOf w 5 3 = 0x0#3 then some (.vscanAddI32 (fieldOf w 31 1) (fieldOf w 16 8) (fieldOf w 8 8))
  else none

/-- Primary 0x73 (06 R172). -/
def decode73 (w : Word) : Option Instr :=
  if fieldOf w 20 4 = 0x0#4 ∧ fieldOf w 0 6 = 0x0#6 then some (.vmovs (fieldOf w 31 1) (fieldOf w 12 8) (fieldOf w 6 6))
  else if fieldOf w 20 4 = 0x1#4 then some (.vrdlane (fieldOf w 31 1) (fieldOf w 12 8) (fieldOf w 6 6) (fieldOf w 0 6))
  else if fieldOf w 20 4 = 0x2#4 then some (.vwrlane (fieldOf w 31 1) (fieldOf w 12 8) (fieldOf w 6 6) (fieldOf w 0 6))
  else if fieldOf w 20 4 = 0x3#4 ∧ fieldOf w 0 12 = 0x0#12 then some (.vlaneid (fieldOf w 31 1) (fieldOf w 12 8))
  else none

/-- Primary 0x75 (06 R172). -/
def decode75 (w : Word) : Option Instr :=
  if fieldOf w 20 4 = 0x0#4 ∧ fieldOf w 0 17 = 0x0#17 then some (.accz (fieldOf w 31 1) (fieldOf w 17 3))
  else if fieldOf w 20 4 = 0x1#4 ∧ fieldOf w 0 5 = 0x0#5 then some (.accld (fieldOf w 31 1) (fieldOf w 17 3) (fieldOf w 11 6) (fieldOf w 5 6))
  else if fieldOf w 20 4 = 0x2#4 ∧ fieldOf w 0 5 = 0x0#5 then some (.accst (fieldOf w 31 1) (fieldOf w 17 3) (fieldOf w 11 6) (fieldOf w 5 6))
  else if fieldOf w 20 4 = 0x3#4 ∧ fieldOf w 0 1 = 0x0#1 then some (.acccvt (fieldOf w 31 1) (fieldOf w 17 3) (fieldOf w 11 6) (fieldOf w 5 6) (fieldOf w 1 4))
  else if fieldOf w 20 4 = 0x4#4 ∧ fieldOf w 0 17 = 0x0#17 then some (.mwait (fieldOf w 31 1) (fieldOf w 17 3))
  else none

/-- Primary 0x76 (06 R172). -/
def decode76 (w : Word) : Option Instr :=
  if fieldOf w 20 4 = 0x0#4 ∧ fieldOf w 14 6 = 0x0#6 ∧ fieldOf w 0 8 = 0x0#8 then some (.copyk (fieldOf w 31 1) (fieldOf w 8 6))
  else if fieldOf w 20 4 = 0x1#4 ∧ fieldOf w 0 8 = 0x0#8 then some (.cpq (fieldOf w 31 1) (fieldOf w 14 6) (fieldOf w 8 6))
  else if fieldOf w 20 4 = 0x2#4 ∧ fieldOf w 8 12 = 0x0#12 then some (.publ (fieldOf w 31 1) (fieldOf w 0 8))
  else none

/-- Primary 0x78 (06 R172). -/
def decode78 (w : Word) : Option Instr :=
  if fieldOf w 19 5 = 0x0#5 ∧ fieldOf w 0 7 = 0x0#7 then some (.hvxor (fieldOf w 31 1) (fieldOf w 15 4) (fieldOf w 11 4) (fieldOf w 7 4))
  else if fieldOf w 19 5 = 0x1#5 ∧ fieldOf w 0 11 = 0x0#11 then some (.hvnot (fieldOf w 31 1) (fieldOf w 15 4) (fieldOf w 11 4))
  else if fieldOf w 19 5 = 0x2#5 ∧ fieldOf w 0 11 = 0x0#11 then some (.hvmov (fieldOf w 31 1) (fieldOf w 15 4) (fieldOf w 11 4))
  else if fieldOf w 19 5 = 0x3#5 ∧ fieldOf w 15 4 = 0x0#4 ∧ fieldOf w 7 4 = 0x0#4 ∧ fieldOf w 0 6 = 0x0#6 then some (.hvbund (fieldOf w 31 1) (fieldOf w 11 4) (fieldOf w 6 1))
  else if fieldOf w 19 5 = 0x4#5 ∧ fieldOf w 15 4 = 0x0#4 ∧ fieldOf w 7 4 = 0x0#4 ∧ fieldOf w 0 6 = 0x0#6 then some (.hvbsub (fieldOf w 31 1) (fieldOf w 11 4) (fieldOf w 6 1))
  else if fieldOf w 19 5 = 0x5#5 ∧ fieldOf w 7 8 = 0x0#8 ∧ fieldOf w 0 6 = 0x0#6 then some (.hvmaj (fieldOf w 31 1) (fieldOf w 15 4) (fieldOf w 6 1))
  else if fieldOf w 19 5 = 0x6#5 ∧ fieldOf w 7 12 = 0x0#12 ∧ fieldOf w 0 6 = 0x0#6 then some (.hvbclr (fieldOf w 31 1) (fieldOf w 6 1))
  else if fieldOf w 19 5 = 0x7#5 ∧ fieldOf w 0 15 = 0x0#15 then some (.hvgen (fieldOf w 31 1) (fieldOf w 15 4))
  else none

/-- Primary 0x79 (06 R172). -/
def decode79 (w : Word) : Option Instr :=
  if fieldOf w 20 4 = 0x0#4 ∧ fieldOf w 6 6 = 0x0#6 then some (.hvrot (fieldOf w 31 1) (fieldOf w 16 4) (fieldOf w 12 4) (fieldOf w 0 6))
  else if fieldOf w 20 4 = 0x1#4 ∧ fieldOf w 0 6 = 0x0#6 then some (.hvdist (fieldOf w 31 1) (fieldOf w 16 4) (fieldOf w 12 4) (fieldOf w 6 6))
  else if fieldOf w 20 4 = 0x2#4 ∧ fieldOf w 6 14 = 0x0#14 then some (.hvseed (fieldOf w 31 1) (fieldOf w 0 6))
  else if fieldOf w 20 4 = 0x3#4 ∧ fieldOf w 12 8 = 0x0#8 ∧ fieldOf w 0 6 = 0x0#6 then some (.hvrdtie (fieldOf w 31 1) (fieldOf w 6 6))
  else if fieldOf w 20 4 = 0x4#4 ∧ fieldOf w 6 10 = 0x0#10 then some (.hvld (fieldOf w 31 1) (fieldOf w 16 4) (fieldOf w 0 6))
  else if fieldOf w 20 4 = 0x5#4 ∧ fieldOf w 6 10 = 0x0#10 then some (.hvst (fieldOf w 31 1) (fieldOf w 16 4) (fieldOf w 0 6))
  else if fieldOf w 20 4 = 0x6#4 ∧ fieldOf w 12 4 = 0x0#4 then some (.hvnear (fieldOf w 31 1) (fieldOf w 16 4) (fieldOf w 6 6) (fieldOf w 0 6))
  else if fieldOf w 20 4 = 0x7#4 ∧ fieldOf w 12 4 = 0x0#4 then some (.hvbit (fieldOf w 31 1) (fieldOf w 16 4) (fieldOf w 6 6) (fieldOf w 0 6))
  else none

/-- Primary 0x7A (06 R172). -/
def decode7A (w : Word) : Option Instr :=
  if fieldOf w 20 4 = 0x0#4 ∧ fieldOf w 0 2 = 0x0#2 then some (.enq (fieldOf w 31 1) (fieldOf w 14 6) (fieldOf w 8 6) (fieldOf w 2 6))
  else if fieldOf w 20 4 = 0x1#4 ∧ fieldOf w 0 2 = 0x0#2 then some (.sgfork (fieldOf w 31 1) (fieldOf w 14 6) (fieldOf w 8 6) (fieldOf w 2 6))
  else if fieldOf w 20 4 = 0x2#4 ∧ fieldOf w 0 8 = 0x0#8 then some (.sgreward (fieldOf w 31 1) (fieldOf w 14 6) (fieldOf w 8 6))
  else if fieldOf w 20 4 = 0x3#4 ∧ fieldOf w 0 14 = 0x0#14 then some (.sgwait (fieldOf w 31 1) (fieldOf w 14 6))
  else if fieldOf w 20 4 = 0x4#4 ∧ fieldOf w 14 6 = 0x0#6 ∧ fieldOf w 0 8 = 0x0#8 then some (.sgcancel (fieldOf w 31 1) (fieldOf w 8 6))
  else if fieldOf w 20 4 = 0x5#4 ∧ fieldOf w 0 8 = 0x0#8 then some (.sgquery (fieldOf w 31 1) (fieldOf w 14 6) (fieldOf w 8 6))
  else none

/-- Primary 0x7B (06 R172). -/
def decode7B (w : Word) : Option Instr :=
  if fieldOf w 20 4 = 0x0#4 ∧ fieldOf w 0 1 = 0x0#1 then some (.aadd (fieldOf w 31 1) (fieldOf w 18 2) (fieldOf w 15 3) (fieldOf w 14 1) (fieldOf w 13 1) (fieldOf w 7 6) (fieldOf w 1 6))
  else if fieldOf w 20 4 = 0x1#4 ∧ fieldOf w 13 1 = 0x0#1 ∧ fieldOf w 0 1 = 0x0#1 then some (.aaddF32 (fieldOf w 31 1) (fieldOf w 18 2) (fieldOf w 15 3) (fieldOf w 14 1) (fieldOf w 7 6) (fieldOf w 1 6))
  else if fieldOf w 20 4 = 0x2#4 ∧ fieldOf w 0 1 = 0x0#1 then some (.aand (fieldOf w 31 1) (fieldOf w 18 2) (fieldOf w 15 3) (fieldOf w 14 1) (fieldOf w 13 1) (fieldOf w 7 6) (fieldOf w 1 6))
  else if fieldOf w 20 4 = 0x3#4 ∧ fieldOf w 0 1 = 0x0#1 then some (.aor (fieldOf w 31 1) (fieldOf w 18 2) (fieldOf w 15 3) (fieldOf w 14 1) (fieldOf w 13 1) (fieldOf w 7 6) (fieldOf w 1 6))
  else if fieldOf w 20 4 = 0x4#4 ∧ fieldOf w 0 1 = 0x0#1 then some (.axor (fieldOf w 31 1) (fieldOf w 18 2) (fieldOf w 15 3) (fieldOf w 14 1) (fieldOf w 13 1) (fieldOf w 7 6) (fieldOf w 1 6))
  else if fieldOf w 20 4 = 0x5#4 ∧ fieldOf w 0 1 = 0x0#1 then some (.amin (fieldOf w 31 1) (fieldOf w 18 2) (fieldOf w 15 3) (fieldOf w 14 1) (fieldOf w 13 1) (fieldOf w 7 6) (fieldOf w 1 6))
  else if fieldOf w 20 4 = 0x6#4 ∧ fieldOf w 0 1 = 0x0#1 then some (.amax (fieldOf w 31 1) (fieldOf w 18 2) (fieldOf w 15 3) (fieldOf w 14 1) (fieldOf w 13 1) (fieldOf w 7 6) (fieldOf w 1 6))
  else if fieldOf w 20 4 = 0x7#4 ∧ fieldOf w 0 1 = 0x0#1 then some (.aminu (fieldOf w 31 1) (fieldOf w 18 2) (fieldOf w 15 3) (fieldOf w 14 1) (fieldOf w 13 1) (fieldOf w 7 6) (fieldOf w 1 6))
  else if fieldOf w 20 4 = 0x8#4 ∧ fieldOf w 0 1 = 0x0#1 then some (.amaxu (fieldOf w 31 1) (fieldOf w 18 2) (fieldOf w 15 3) (fieldOf w 14 1) (fieldOf w 13 1) (fieldOf w 7 6) (fieldOf w 1 6))
  else if fieldOf w 20 4 = 0x9#4 ∧ fieldOf w 0 1 = 0x0#1 then some (.axchg (fieldOf w 31 1) (fieldOf w 18 2) (fieldOf w 15 3) (fieldOf w 14 1) (fieldOf w 13 1) (fieldOf w 7 6) (fieldOf w 1 6))
  else if fieldOf w 20 4 = 0xA#4 ∧ fieldOf w 0 1 = 0x0#1 then some (.acas (fieldOf w 31 1) (fieldOf w 18 2) (fieldOf w 15 3) (fieldOf w 14 1) (fieldOf w 13 1) (fieldOf w 7 6) (fieldOf w 1 6))
  else none

/-- Primary 0x7C (06 R172). -/
def decode7C (w : Word) : Option Instr :=
  if fieldOf w 20 4 = 0x0#4 ∧ fieldOf w 0 2 = 0x0#2 then some (.srdp (fieldOf w 31 1) (fieldOf w 14 6) (fieldOf w 2 12))
  else if fieldOf w 20 4 = 0x1#4 ∧ fieldOf w 0 2 = 0x0#2 then some (.swrp (fieldOf w 31 1) (fieldOf w 14 6) (fieldOf w 2 12))
  else if fieldOf w 20 4 = 0x2#4 ∧ fieldOf w 0 20 = 0x0#20 then some (.icinv (fieldOf w 31 1))
  else if fieldOf w 20 4 = 0x3#4 ∧ fieldOf w 0 14 = 0x0#14 then some (.tlbinv (fieldOf w 31 1) (fieldOf w 14 6))
  else if fieldOf w 20 4 = 0x4#4 ∧ fieldOf w 0 14 = 0x0#14 then some (.wkill (fieldOf w 31 1) (fieldOf w 14 6))
  else if fieldOf w 20 4 = 0x5#4 ∧ fieldOf w 0 14 = 0x0#14 then some (.wresume (fieldOf w 31 1) (fieldOf w 14 6))
  else if fieldOf w 20 4 = 0x6#4 ∧ fieldOf w 0 2 = 0x0#2 then some (.acrd (fieldOf w 31 1) (fieldOf w 14 6) (fieldOf w 8 6) (fieldOf w 2 6))
  else if fieldOf w 20 4 = 0x7#4 ∧ fieldOf w 0 20 = 0x0#20 then some (.halt (fieldOf w 31 1))
  else none

/-- Primary 0x7F (06 R172). -/
def decode7F (w : Word) : Option Instr :=
  if fieldOf w 31 1 = 0x0#1 ∧ fieldOf w 20 4 = 0x0#4 then some (.hintImm (fieldOf w 0 20))
  else if fieldOf w 31 1 = 0x0#1 ∧ fieldOf w 20 4 = 0x1#4 ∧ fieldOf w 0 5 = 0x0#5 then some (.hintMod (fieldOf w 19 1) (fieldOf w 17 2) (fieldOf w 16 1) (fieldOf w 15 1) (fieldOf w 14 1) (fieldOf w 13 1) (fieldOf w 5 8))
  else if fieldOf w 20 4 = 0x2#4 then some (.ipref (fieldOf w 31 1) (fieldOf w 18 2) (fieldOf w 0 18))
  else if fieldOf w 20 4 = 0x3#4 ∧ fieldOf w 4 16 = 0x0#16 then some (.hintSched (fieldOf w 31 1) (fieldOf w 0 4))
  else none

/-- The primaries of format V (06 R171). -/
def decodeV (w : Word) : Option Instr :=
  match (fieldOf w 24 7).toNat with
  | 0x01 => some (.vaddI32 (fieldOf w 31 1) (fieldOf w 16 8) (fieldOf w 8 8) (fieldOf w 0 8))
  | 0x02 => some (.vsubI32 (fieldOf w 31 1) (fieldOf w 16 8) (fieldOf w 8 8) (fieldOf w 0 8))
  | 0x03 => some (.vmulI32 (fieldOf w 31 1) (fieldOf w 16 8) (fieldOf w 8 8) (fieldOf w 0 8))
  | 0x04 => some (.vmulhI32 (fieldOf w 31 1) (fieldOf w 16 8) (fieldOf w 8 8) (fieldOf w 0 8))
  | 0x05 => some (.vmulhuI32 (fieldOf w 31 1) (fieldOf w 16 8) (fieldOf w 8 8) (fieldOf w 0 8))
  | 0x06 => some (.vminI32 (fieldOf w 31 1) (fieldOf w 16 8) (fieldOf w 8 8) (fieldOf w 0 8))
  | 0x07 => some (.vmaxI32 (fieldOf w 31 1) (fieldOf w 16 8) (fieldOf w 8 8) (fieldOf w 0 8))
  | 0x08 => some (.vminuI32 (fieldOf w 31 1) (fieldOf w 16 8) (fieldOf w 8 8) (fieldOf w 0 8))
  | 0x09 => some (.vmaxuI32 (fieldOf w 31 1) (fieldOf w 16 8) (fieldOf w 8 8) (fieldOf w 0 8))
  | 0x0A => some (.vand (fieldOf w 31 1) (fieldOf w 16 8) (fieldOf w 8 8) (fieldOf w 0 8))
  | 0x0B => some (.vor (fieldOf w 31 1) (fieldOf w 16 8) (fieldOf w 8 8) (fieldOf w 0 8))
  | 0x0C => some (.vxor (fieldOf w 31 1) (fieldOf w 16 8) (fieldOf w 8 8) (fieldOf w 0 8))
  | 0x0D => some (.vshl (fieldOf w 31 1) (fieldOf w 16 8) (fieldOf w 8 8) (fieldOf w 0 8))
  | 0x0E => some (.vshr (fieldOf w 31 1) (fieldOf w 16 8) (fieldOf w 8 8) (fieldOf w 0 8))
  | 0x0F => some (.vsar (fieldOf w 31 1) (fieldOf w 16 8) (fieldOf w 8 8) (fieldOf w 0 8))
  | 0x10 => if fieldOf w 0 8 = 0x0#8 then some (.vmov (fieldOf w 31 1) (fieldOf w 16 8) (fieldOf w 8 8)) else none
  | 0x11 => if fieldOf w 0 8 = 0x0#8 then some (.vpopc (fieldOf w 31 1) (fieldOf w 16 8) (fieldOf w 8 8)) else none
  | 0x12 => if fieldOf w 0 8 = 0x0#8 then some (.vclz (fieldOf w 31 1) (fieldOf w 16 8) (fieldOf w 8 8)) else none
  | 0x13 => some (.vsel (fieldOf w 31 1) (fieldOf w 16 8) (fieldOf w 8 8) (fieldOf w 0 8))
  | 0x18 => some (.vaddF32 (fieldOf w 31 1) (fieldOf w 16 8) (fieldOf w 8 8) (fieldOf w 0 8))
  | 0x19 => some (.vsubF32 (fieldOf w 31 1) (fieldOf w 16 8) (fieldOf w 8 8) (fieldOf w 0 8))
  | 0x1A => some (.vmulF32 (fieldOf w 31 1) (fieldOf w 16 8) (fieldOf w 8 8) (fieldOf w 0 8))
  | 0x1B => some (.vfmaF32 (fieldOf w 31 1) (fieldOf w 16 8) (fieldOf w 8 8) (fieldOf w 0 8))
  | 0x1C => some (.vminF32 (fieldOf w 31 1) (fieldOf w 16 8) (fieldOf w 8 8) (fieldOf w 0 8))
  | 0x1D => some (.vmaxF32 (fieldOf w 31 1) (fieldOf w 16 8) (fieldOf w 8 8) (fieldOf w 0 8))
  | 0x1E => if fieldOf w 0 8 = 0x0#8 then some (.vabsF32 (fieldOf w 31 1) (fieldOf w 16 8) (fieldOf w 8 8)) else none
  | 0x1F => if fieldOf w 0 8 = 0x0#8 then some (.vnegF32 (fieldOf w 31 1) (fieldOf w 16 8) (fieldOf w 8 8)) else none
  | 0x20 => some (.vaddBf16x2 (fieldOf w 31 1) (fieldOf w 16 8) (fieldOf w 8 8) (fieldOf w 0 8))
  | 0x21 => some (.vmulBf16x2 (fieldOf w 31 1) (fieldOf w 16 8) (fieldOf w 8 8) (fieldOf w 0 8))
  | 0x22 => some (.vfmaBf16x2 (fieldOf w 31 1) (fieldOf w 16 8) (fieldOf w 8 8) (fieldOf w 0 8))
  | 0x24 => some (.vaddFp16x2 (fieldOf w 31 1) (fieldOf w 16 8) (fieldOf w 8 8) (fieldOf w 0 8))
  | 0x25 => some (.vmulFp16x2 (fieldOf w 31 1) (fieldOf w 16 8) (fieldOf w 8 8) (fieldOf w 0 8))
  | 0x26 => some (.vfmaFp16x2 (fieldOf w 31 1) (fieldOf w 16 8) (fieldOf w 8 8) (fieldOf w 0 8))
  | 0x28 => some (.vaddE4m3x4 (fieldOf w 31 1) (fieldOf w 16 8) (fieldOf w 8 8) (fieldOf w 0 8))
  | 0x29 => some (.vmulE4m3x4 (fieldOf w 31 1) (fieldOf w 16 8) (fieldOf w 8 8) (fieldOf w 0 8))
  | 0x2C => some (.vaddInt8x4 (fieldOf w 31 1) (fieldOf w 16 8) (fieldOf w 8 8) (fieldOf w 0 8))
  | 0x2D => some (.vsubInt8x4 (fieldOf w 31 1) (fieldOf w 16 8) (fieldOf w 8 8) (fieldOf w 0 8))
  | 0x2E => some (.vaddUint8x4 (fieldOf w 31 1) (fieldOf w 16 8) (fieldOf w 8 8) (fieldOf w 0 8))
  | 0x2F => some (.vsubUint8x4 (fieldOf w 31 1) (fieldOf w 16 8) (fieldOf w 8 8) (fieldOf w 0 8))
  | 0x30 => some (.vdot2Bf16 (fieldOf w 31 1) (fieldOf w 16 8) (fieldOf w 8 8) (fieldOf w 0 8))
  | 0x31 => some (.vdot2Fp16 (fieldOf w 31 1) (fieldOf w 16 8) (fieldOf w 8 8) (fieldOf w 0 8))
  | 0x32 => some (.vdot4E4m3 (fieldOf w 31 1) (fieldOf w 16 8) (fieldOf w 8 8) (fieldOf w 0 8))
  | 0x33 => some (.vdot4Int8 (fieldOf w 31 1) (fieldOf w 16 8) (fieldOf w 8 8) (fieldOf w 0 8))
  | 0x38 => some (.vcvt (fieldOf w 31 1) (fieldOf w 16 8) (fieldOf w 8 8) (fieldOf w 4 4) (fieldOf w 0 4))
  | 0x39 => some (.vcvtpk (fieldOf w 31 1) (fieldOf w 16 8) (fieldOf w 8 8) (fieldOf w 4 4) (fieldOf w 0 4))
  | 0x3A => some (.vcvtxp (fieldOf w 31 1) (fieldOf w 16 8) (fieldOf w 8 8) (fieldOf w 4 4) (fieldOf w 0 4))
  | 0x3B => if fieldOf w 4 4 = 0x0#4 then some (.vqblk (fieldOf w 31 1) (fieldOf w 16 8) (fieldOf w 8 8) (fieldOf w 0 4)) else none
  | 0x3C => if fieldOf w 4 4 = 0x0#4 then some (.vdqblk (fieldOf w 31 1) (fieldOf w 16 8) (fieldOf w 8 8) (fieldOf w 0 4)) else none
  | 0x40 => if fieldOf w 0 8 = 0x0#8 then some (.vrcp (fieldOf w 31 1) (fieldOf w 16 8) (fieldOf w 8 8)) else none
  | 0x41 => if fieldOf w 0 8 = 0x0#8 then some (.vrsq (fieldOf w 31 1) (fieldOf w 16 8) (fieldOf w 8 8)) else none
  | 0x42 => if fieldOf w 0 8 = 0x0#8 then some (.vsqrt (fieldOf w 31 1) (fieldOf w 16 8) (fieldOf w 8 8)) else none
  | 0x43 => if fieldOf w 0 8 = 0x0#8 then some (.vexp2 (fieldOf w 31 1) (fieldOf w 16 8) (fieldOf w 8 8)) else none
  | 0x44 => if fieldOf w 0 8 = 0x0#8 then some (.vlog2 (fieldOf w 31 1) (fieldOf w 16 8) (fieldOf w 8 8)) else none
  | 0x45 => if fieldOf w 0 8 = 0x0#8 then some (.vsinpi (fieldOf w 31 1) (fieldOf w 16 8) (fieldOf w 8 8)) else none
  | 0x46 => if fieldOf w 0 8 = 0x0#8 then some (.vcospi (fieldOf w 31 1) (fieldOf w 16 8) (fieldOf w 8 8)) else none
  | _ => none

/-- The compound primaries (06 R172). -/
def decodeCompound (w : Word) : Option Instr :=
  match (fieldOf w 24 7).toNat with
  | 0x60 => decode60 w
  | 0x61 => some (.addi (fieldOf w 31 1) (fieldOf w 18 6) (fieldOf w 12 6) (fieldOf w 0 12))
  | 0x62 => some (.andi (fieldOf w 31 1) (fieldOf w 18 6) (fieldOf w 12 6) (fieldOf w 0 12))
  | 0x63 => some (.ori (fieldOf w 31 1) (fieldOf w 18 6) (fieldOf w 12 6) (fieldOf w 0 12))
  | 0x64 => some (.xori (fieldOf w 31 1) (fieldOf w 18 6) (fieldOf w 12 6) (fieldOf w 0 12))
  | 0x65 => some (.slti (fieldOf w 31 1) (fieldOf w 18 6) (fieldOf w 12 6) (fieldOf w 0 12))
  | 0x66 => decode66 w
  | 0x67 => some (.sltiu (fieldOf w 31 1) (fieldOf w 18 6) (fieldOf w 12 6) (fieldOf w 0 12))
  | 0x68 => some (.sld (fieldOf w 31 1) (fieldOf w 18 6) (fieldOf w 12 6) (fieldOf w 0 12))
  | 0x69 => some (.sst (fieldOf w 31 1) (fieldOf w 18 6) (fieldOf w 12 6) (fieldOf w 0 12))
  | 0x6A => decode6A w
  | 0x6B => decode6B w
  | 0x6C => some (.bez (fieldOf w 31 1) (fieldOf w 18 6) (fieldOf w 0 18))
  | 0x6D => some (.bnez (fieldOf w 31 1) (fieldOf w 18 6) (fieldOf w 0 18))
  | 0x6E => decode6E w
  | 0x6F => decode6F w
  | 0x70 => decode70 w
  | 0x71 => decode71 w
  | 0x72 => decode72 w
  | 0x73 => decode73 w
  | 0x74 => if fieldOf w 0 6 = 0x0#6 then some (.mma (fieldOf w 31 1) (fieldOf w 20 4) (fieldOf w 16 4) (fieldOf w 13 3) (fieldOf w 12 1) (fieldOf w 6 6)) else none
  | 0x75 => decode75 w
  | 0x76 => decode76 w
  | 0x78 => decode78 w
  | 0x79 => decode79 w
  | 0x7A => decode7A w
  | 0x7B => decode7B w
  | 0x7C => decode7C w
  | 0x7F => decode7F w
  | _ => none

/-- The instruction a word holds; none where the primary, a sub-code or a reserved field makes it no instruction
(06 R156, R170 step 3). Reserved values of a field are checked by `Instr.wf`. -/
def decode (w : Word) : Option Instr :=
  if (fieldOf w 24 7).toNat < 0x60 then decodeV w else decodeCompound w

/-- The instruction at the head of a list of bytes (00 R5, 06 R156). -/
def decodeBytes : List (BitVec 8) → Option Instr
  | b0 :: b1 :: b2 :: b3 :: _ => decode (wordOfBytes b0 b1 b2 b3)
  | _ => none

/-- The four bytes of a word, the lowest address first (00 R5). -/
def bytesOfWord (w : Word) : List (BitVec 8) := [fieldOf w 0 8, fieldOf w 8 8, fieldOf w 16 8, fieldOf w 24 8]

/-- The instruction the decoder reads from a row's word, numbered as the table of operations numbers it. -/
def decodeTableWord (nbits w : Nat) : Option Instr :=
  if nbits ≤ 32 then decodeBytes (bytesOfWord (BitVec.ofNat 32 (w % 2 ^ nbits))) else none

/-- The word of an instruction, from the encoding tables of 06 R157, R171, R172; an event has none. -/
def encode : Instr → Option Word
  | .vaddI32 sw d a b => some (sw ++ 0x01#7 ++ d ++ a ++ b)
  | .vsubI32 sw d a b => some (sw ++ 0x02#7 ++ d ++ a ++ b)
  | .vmulI32 sw d a b => some (sw ++ 0x03#7 ++ d ++ a ++ b)
  | .vmulhI32 sw d a b => some (sw ++ 0x04#7 ++ d ++ a ++ b)
  | .vmulhuI32 sw d a b => some (sw ++ 0x05#7 ++ d ++ a ++ b)
  | .vminI32 sw d a b => some (sw ++ 0x06#7 ++ d ++ a ++ b)
  | .vmaxI32 sw d a b => some (sw ++ 0x07#7 ++ d ++ a ++ b)
  | .vminuI32 sw d a b => some (sw ++ 0x08#7 ++ d ++ a ++ b)
  | .vmaxuI32 sw d a b => some (sw ++ 0x09#7 ++ d ++ a ++ b)
  | .vand sw d a b => some (sw ++ 0x0A#7 ++ d ++ a ++ b)
  | .vor sw d a b => some (sw ++ 0x0B#7 ++ d ++ a ++ b)
  | .vxor sw d a b => some (sw ++ 0x0C#7 ++ d ++ a ++ b)
  | .vshl sw d a b => some (sw ++ 0x0D#7 ++ d ++ a ++ b)
  | .vshr sw d a b => some (sw ++ 0x0E#7 ++ d ++ a ++ b)
  | .vsar sw d a b => some (sw ++ 0x0F#7 ++ d ++ a ++ b)
  | .vmov sw d a => some (sw ++ 0x10#7 ++ d ++ a ++ 0x0#8)
  | .vpopc sw d a => some (sw ++ 0x11#7 ++ d ++ a ++ 0x0#8)
  | .vclz sw d a => some (sw ++ 0x12#7 ++ d ++ a ++ 0x0#8)
  | .vsel sw d a b => some (sw ++ 0x13#7 ++ d ++ a ++ b)
  | .vaddF32 sw d a b => some (sw ++ 0x18#7 ++ d ++ a ++ b)
  | .vsubF32 sw d a b => some (sw ++ 0x19#7 ++ d ++ a ++ b)
  | .vmulF32 sw d a b => some (sw ++ 0x1A#7 ++ d ++ a ++ b)
  | .vfmaF32 sw d a b => some (sw ++ 0x1B#7 ++ d ++ a ++ b)
  | .vminF32 sw d a b => some (sw ++ 0x1C#7 ++ d ++ a ++ b)
  | .vmaxF32 sw d a b => some (sw ++ 0x1D#7 ++ d ++ a ++ b)
  | .vabsF32 sw d a => some (sw ++ 0x1E#7 ++ d ++ a ++ 0x0#8)
  | .vnegF32 sw d a => some (sw ++ 0x1F#7 ++ d ++ a ++ 0x0#8)
  | .vaddBf16x2 sw d a b => some (sw ++ 0x20#7 ++ d ++ a ++ b)
  | .vmulBf16x2 sw d a b => some (sw ++ 0x21#7 ++ d ++ a ++ b)
  | .vfmaBf16x2 sw d a b => some (sw ++ 0x22#7 ++ d ++ a ++ b)
  | .vaddFp16x2 sw d a b => some (sw ++ 0x24#7 ++ d ++ a ++ b)
  | .vmulFp16x2 sw d a b => some (sw ++ 0x25#7 ++ d ++ a ++ b)
  | .vfmaFp16x2 sw d a b => some (sw ++ 0x26#7 ++ d ++ a ++ b)
  | .vaddE4m3x4 sw d a b => some (sw ++ 0x28#7 ++ d ++ a ++ b)
  | .vmulE4m3x4 sw d a b => some (sw ++ 0x29#7 ++ d ++ a ++ b)
  | .vaddInt8x4 sw d a b => some (sw ++ 0x2C#7 ++ d ++ a ++ b)
  | .vsubInt8x4 sw d a b => some (sw ++ 0x2D#7 ++ d ++ a ++ b)
  | .vaddUint8x4 sw d a b => some (sw ++ 0x2E#7 ++ d ++ a ++ b)
  | .vsubUint8x4 sw d a b => some (sw ++ 0x2F#7 ++ d ++ a ++ b)
  | .vdot2Bf16 sw d a b => some (sw ++ 0x30#7 ++ d ++ a ++ b)
  | .vdot2Fp16 sw d a b => some (sw ++ 0x31#7 ++ d ++ a ++ b)
  | .vdot4E4m3 sw d a b => some (sw ++ 0x32#7 ++ d ++ a ++ b)
  | .vdot4Int8 sw d a b => some (sw ++ 0x33#7 ++ d ++ a ++ b)
  | .vcvt sw d a f g => some (sw ++ 0x38#7 ++ d ++ a ++ f ++ g)
  | .vcvtpk sw d a f g => some (sw ++ 0x39#7 ++ d ++ a ++ f ++ g)
  | .vcvtxp sw d a f g => some (sw ++ 0x3A#7 ++ d ++ a ++ f ++ g)
  | .vqblk sw d a f => some (sw ++ 0x3B#7 ++ d ++ a ++ 0x0#4 ++ f)
  | .vdqblk sw d a f => some (sw ++ 0x3C#7 ++ d ++ a ++ 0x0#4 ++ f)
  | .vrcp sw d a => some (sw ++ 0x40#7 ++ d ++ a ++ 0x0#8)
  | .vrsq sw d a => some (sw ++ 0x41#7 ++ d ++ a ++ 0x0#8)
  | .vsqrt sw d a => some (sw ++ 0x42#7 ++ d ++ a ++ 0x0#8)
  | .vexp2 sw d a => some (sw ++ 0x43#7 ++ d ++ a ++ 0x0#8)
  | .vlog2 sw d a => some (sw ++ 0x44#7 ++ d ++ a ++ 0x0#8)
  | .vsinpi sw d a => some (sw ++ 0x45#7 ++ d ++ a ++ 0x0#8)
  | .vcospi sw d a => some (sw ++ 0x46#7 ++ d ++ a ++ 0x0#8)
  | .add sw d a b => some (sw ++ 0x60#7 ++ 0x0#6 ++ d ++ a ++ b)
  | .sub sw d a b => some (sw ++ 0x60#7 ++ 0x1#6 ++ d ++ a ++ b)
  | .mul sw d a b => some (sw ++ 0x60#7 ++ 0x2#6 ++ d ++ a ++ b)
  | .mulh sw d a b => some (sw ++ 0x60#7 ++ 0x3#6 ++ d ++ a ++ b)
  | .mulhu sw d a b => some (sw ++ 0x60#7 ++ 0x4#6 ++ d ++ a ++ b)
  | .and sw d a b => some (sw ++ 0x60#7 ++ 0x5#6 ++ d ++ a ++ b)
  | .or sw d a b => some (sw ++ 0x60#7 ++ 0x6#6 ++ d ++ a ++ b)
  | .xor sw d a b => some (sw ++ 0x60#7 ++ 0x7#6 ++ d ++ a ++ b)
  | .andn sw d a b => some (sw ++ 0x60#7 ++ 0x8#6 ++ d ++ a ++ b)
  | .shl sw d a b => some (sw ++ 0x60#7 ++ 0x9#6 ++ d ++ a ++ b)
  | .shr sw d a b => some (sw ++ 0x60#7 ++ 0xA#6 ++ d ++ a ++ b)
  | .sar sw d a b => some (sw ++ 0x60#7 ++ 0xB#6 ++ d ++ a ++ b)
  | .shli sw d a n => some (sw ++ 0x60#7 ++ 0xC#6 ++ d ++ a ++ n)
  | .shri sw d a n => some (sw ++ 0x60#7 ++ 0xD#6 ++ d ++ a ++ n)
  | .sari sw d a n => some (sw ++ 0x60#7 ++ 0xE#6 ++ d ++ a ++ n)
  | .slt sw d a b => some (sw ++ 0x60#7 ++ 0xF#6 ++ d ++ a ++ b)
  | .sltu sw d a b => some (sw ++ 0x60#7 ++ 0x10#6 ++ d ++ a ++ b)
  | .min sw d a b => some (sw ++ 0x60#7 ++ 0x11#6 ++ d ++ a ++ b)
  | .max sw d a b => some (sw ++ 0x60#7 ++ 0x12#6 ++ d ++ a ++ b)
  | .minu sw d a b => some (sw ++ 0x60#7 ++ 0x13#6 ++ d ++ a ++ b)
  | .maxu sw d a b => some (sw ++ 0x60#7 ++ 0x14#6 ++ d ++ a ++ b)
  | .popc sw d a => some (sw ++ 0x60#7 ++ 0x15#6 ++ d ++ a ++ 0x0#6)
  | .clz sw d a => some (sw ++ 0x60#7 ++ 0x16#6 ++ d ++ a ++ 0x0#6)
  | .ctz sw d a => some (sw ++ 0x60#7 ++ 0x17#6 ++ d ++ a ++ 0x0#6)
  | .addi sw x a i => some (sw ++ 0x61#7 ++ x ++ a ++ i)
  | .andi sw x a i => some (sw ++ 0x62#7 ++ x ++ a ++ i)
  | .ori sw x a i => some (sw ++ 0x63#7 ++ x ++ a ++ i)
  | .xori sw x a i => some (sw ++ 0x64#7 ++ x ++ a ++ i)
  | .slti sw x a i => some (sw ++ 0x65#7 ++ x ++ a ++ i)
  | .sltiu sw x a i => some (sw ++ 0x67#7 ++ x ++ a ++ i)
  | .grd sw d g => some (sw ++ 0x66#7 ++ 0x0#4 ++ d ++ 0x0#6 ++ g)
  | .gwr sw a g => some (sw ++ 0x66#7 ++ 0x40#10 ++ a ++ g)
  | .gadd sw d a g => some (sw ++ 0x66#7 ++ 0x2#4 ++ d ++ a ++ g)
  | .bez sw a o => some (sw ++ 0x6C#7 ++ a ++ o)
  | .bnez sw a o => some (sw ++ 0x6D#7 ++ a ++ o)
  | .bra sw o => some (sw ++ 0x6E#7 ++ 0x0#6 ++ o)
  | .bany sw k o => some (sw ++ 0x6E#7 ++ k ++ 0x1#3 ++ o)
  | .ball sw k o => some (sw ++ 0x6E#7 ++ k ++ 0x2#3 ++ o)
  | .bnone sw k o => some (sw ++ 0x6E#7 ++ k ++ 0x3#3 ++ o)
  | .call sw o => some (sw ++ 0x6E#7 ++ 0x4#6 ++ o)
  | .jmpr sw x i => some (sw ++ 0x6F#7 ++ 0x0#6 ++ x ++ i)
  | .callr sw x i => some (sw ++ 0x6F#7 ++ 0x1#6 ++ x ++ i)
  | .ret sw => some (sw ++ 0x6F#7 ++ 0x80000#24)
  | .endWave sw => some (sw ++ 0x6F#7 ++ 0xC0000#24)
  | .yield sw => some (sw ++ 0x6F#7 ++ 0x100000#24)
  | .trap sw i => some (sw ++ 0x6F#7 ++ 0x140#12 ++ i)
  | .tret sw => some (sw ++ 0x6F#7 ++ 0x180000#24)
  | .srd sw x i => some (sw ++ 0x6F#7 ++ 0x7#6 ++ x ++ i)
  | .swr sw x i => some (sw ++ 0x6F#7 ++ 0x8#6 ++ x ++ i)
  | .fenceI sw => some (sw ++ 0x6F#7 ++ 0x240000#24)
  | .sld sw x a i => some (sw ++ 0x68#7 ++ x ++ a ++ i)
  | .sst sw x a i => some (sw ++ 0x69#7 ++ x ++ a ++ i)
  | .vldI8 sw v o b => some (sw ++ 0x6A#7 ++ v ++ o ++ b ++ 0x0#3)
  | .vldZ8 sw v o b => some (sw ++ 0x6A#7 ++ v ++ o ++ b ++ 0x1#3)
  | .vldI16 sw v o b => some (sw ++ 0x6A#7 ++ v ++ o ++ b ++ 0x2#3)
  | .vldZ16 sw v o b => some (sw ++ 0x6A#7 ++ v ++ o ++ b ++ 0x3#3)
  | .vld32 sw v o b => some (sw ++ 0x6A#7 ++ v ++ o ++ b ++ 0x4#3)
  | .vst8 sw v o b => some (sw ++ 0x6A#7 ++ v ++ o ++ b ++ 0x5#3)
  | .vst16 sw v o b => some (sw ++ 0x6A#7 ++ v ++ o ++ b ++ 0x6#3)
  | .vst32 sw v o b => some (sw ++ 0x6A#7 ++ v ++ o ++ b ++ 0x7#3)
  | .vldl sw x a => some (sw ++ 0x6B#7 ++ 0x0#4 ++ x ++ a ++ 0x0#6)
  | .vstl sw x a => some (sw ++ 0x6B#7 ++ 0x1#4 ++ x ++ a ++ 0x0#6)
  | .vldb sw x a => some (sw ++ 0x6B#7 ++ 0x2#4 ++ x ++ a ++ 0x0#6)
  | .vstb sw x a => some (sw ++ 0x6B#7 ++ 0x3#4 ++ x ++ a ++ 0x0#6)
  | .vstc sw x a b => some (sw ++ 0x6B#7 ++ 0x4#4 ++ x ++ a ++ b)
  | .phase sw c => some (sw ++ 0x6B#7 ++ 0xA0#9 ++ c ++ 0x0#12)
  | .barInit sw a b => some (sw ++ 0x6B#7 ++ 0x600#12 ++ a ++ b)
  | .barArrive sw a => some (sw ++ 0x6B#7 ++ 0x700#12 ++ a ++ 0x0#6)
  | .barWait sw a b => some (sw ++ 0x6B#7 ++ 0x800#12 ++ a ++ b)
  | .wsq sw x a => some (sw ++ 0x6B#7 ++ 0x24#6 ++ x ++ a ++ 0x0#6)
  | .aadd sw o c v w x a => some (sw ++ 0x7B#7 ++ 0x0#4 ++ o ++ c ++ v ++ w ++ x ++ a ++ 0x0#1)
  | .aaddF32 sw o c v x a => some (sw ++ 0x7B#7 ++ 0x1#4 ++ o ++ c ++ v ++ 0x0#1 ++ x ++ a ++ 0x0#1)
  | .aand sw o c v w x a => some (sw ++ 0x7B#7 ++ 0x2#4 ++ o ++ c ++ v ++ w ++ x ++ a ++ 0x0#1)
  | .aor sw o c v w x a => some (sw ++ 0x7B#7 ++ 0x3#4 ++ o ++ c ++ v ++ w ++ x ++ a ++ 0x0#1)
  | .axor sw o c v w x a => some (sw ++ 0x7B#7 ++ 0x4#4 ++ o ++ c ++ v ++ w ++ x ++ a ++ 0x0#1)
  | .amin sw o c v w x a => some (sw ++ 0x7B#7 ++ 0x5#4 ++ o ++ c ++ v ++ w ++ x ++ a ++ 0x0#1)
  | .amax sw o c v w x a => some (sw ++ 0x7B#7 ++ 0x6#4 ++ o ++ c ++ v ++ w ++ x ++ a ++ 0x0#1)
  | .aminu sw o c v w x a => some (sw ++ 0x7B#7 ++ 0x7#4 ++ o ++ c ++ v ++ w ++ x ++ a ++ 0x0#1)
  | .amaxu sw o c v w x a => some (sw ++ 0x7B#7 ++ 0x8#4 ++ o ++ c ++ v ++ w ++ x ++ a ++ 0x0#1)
  | .axchg sw o c v w x a => some (sw ++ 0x7B#7 ++ 0x9#4 ++ o ++ c ++ v ++ w ++ x ++ a ++ 0x0#1)
  | .acas sw o c v w x a => some (sw ++ 0x7B#7 ++ 0xA#4 ++ o ++ c ++ v ++ w ++ x ++ a ++ 0x0#1)
  | .vcmpEqI32 sw m a b => some (sw ++ 0x70#7 ++ m ++ 0x0#5 ++ a ++ b)
  | .vcmpNeI32 sw m a b => some (sw ++ 0x70#7 ++ m ++ 0x1#5 ++ a ++ b)
  | .vcmpLtI32 sw m a b => some (sw ++ 0x70#7 ++ m ++ 0x2#5 ++ a ++ b)
  | .vcmpLeI32 sw m a b => some (sw ++ 0x70#7 ++ m ++ 0x3#5 ++ a ++ b)
  | .vcmpLtuI32 sw m a b => some (sw ++ 0x70#7 ++ m ++ 0x4#5 ++ a ++ b)
  | .vcmpLeuI32 sw m a b => some (sw ++ 0x70#7 ++ m ++ 0x5#5 ++ a ++ b)
  | .vcmpEqF32 sw m a b => some (sw ++ 0x70#7 ++ m ++ 0x8#5 ++ a ++ b)
  | .vcmpNeF32 sw m a b => some (sw ++ 0x70#7 ++ m ++ 0x9#5 ++ a ++ b)
  | .vcmpLtF32 sw m a b => some (sw ++ 0x70#7 ++ m ++ 0xA#5 ++ a ++ b)
  | .vcmpLeF32 sw m a b => some (sw ++ 0x70#7 ++ m ++ 0xB#5 ++ a ++ b)
  | .vcmpUnF32 sw m a b => some (sw ++ 0x70#7 ++ m ++ 0xC#5 ++ a ++ b)
  | .mand sw d a b => some (sw ++ 0x71#7 ++ 0x0#5 ++ d ++ a ++ b ++ 0x0#10)
  | .mor sw d a b => some (sw ++ 0x71#7 ++ 0x1#5 ++ d ++ a ++ b ++ 0x0#10)
  | .mxor sw d a b => some (sw ++ 0x71#7 ++ 0x2#5 ++ d ++ a ++ b ++ 0x0#10)
  | .mandn sw d a b => some (sw ++ 0x71#7 ++ 0x3#5 ++ d ++ a ++ b ++ 0x0#10)
  | .mnot sw d a => some (sw ++ 0x71#7 ++ 0x4#5 ++ d ++ a ++ 0x0#13)
  | .mfroms sw d r => some (sw ++ 0x71#7 ++ 0x5#5 ++ d ++ 0x0#6 ++ r ++ 0x0#4)
  | .mtos sw a r => some (sw ++ 0x71#7 ++ 0x30#8 ++ a ++ 0x0#3 ++ r ++ 0x0#4)
  | .mpopc sw a r => some (sw ++ 0x71#7 ++ 0x38#8 ++ a ++ 0x0#3 ++ r ++ 0x0#4)
  | .mffs sw a r => some (sw ++ 0x71#7 ++ 0x40#8 ++ a ++ 0x0#3 ++ r ++ 0x0#4)
  | .vshfl sw d a k => some (sw ++ 0x72#7 ++ d ++ a ++ k ++ 0x0#5)
  | .vmatch sw d a => some (sw ++ 0x72#7 ++ d ++ a ++ 0x1#8)
  | .vmatchF sw d a => some (sw ++ 0x72#7 ++ d ++ a ++ 0x2#8)
  | .vreduceAddF32 sw d a => some (sw ++ 0x72#7 ++ d ++ a ++ 0x3#8)
  | .vreduceAddI32 sw d a => some (sw ++ 0x72#7 ++ d ++ a ++ 0x4#8)
  | .vreduceMinF32 sw d a => some (sw ++ 0x72#7 ++ d ++ a ++ 0x5#8)
  | .vreduceMaxF32 sw d a => some (sw ++ 0x72#7 ++ d ++ a ++ 0x6#8)
  | .vreduceMinI32 sw d a => some (sw ++ 0x72#7 ++ d ++ a ++ 0x7#8)
  | .vreduceMaxI32 sw d a => some (sw ++ 0x72#7 ++ d ++ a ++ 0x8#8)
  | .vscanAddF32 sw d a => some (sw ++ 0x72#7 ++ d ++ a ++ 0x9#8)
  | .vscanAddI32 sw d a => some (sw ++ 0x72#7 ++ d ++ a ++ 0xA#8)
  | .vmovs sw v a => some (sw ++ 0x73#7 ++ 0x0#4 ++ v ++ a ++ 0x0#6)
  | .vrdlane sw v a b => some (sw ++ 0x73#7 ++ 0x1#4 ++ v ++ a ++ b)
  | .vwrlane sw v a b => some (sw ++ 0x73#7 ++ 0x2#4 ++ v ++ a ++ b)
  | .vlaneid sw v => some (sw ++ 0x73#7 ++ 0x3#4 ++ v ++ 0x0#12)
  | .mma sw p q c z a => some (sw ++ 0x74#7 ++ p ++ q ++ c ++ z ++ a ++ 0x0#6)
  | .accz sw c => some (sw ++ 0x75#7 ++ 0x0#4 ++ c ++ 0x0#17)
  | .accld sw c a b => some (sw ++ 0x75#7 ++ 0x1#4 ++ c ++ a ++ b ++ 0x0#5)
  | .accst sw c a b => some (sw ++ 0x75#7 ++ 0x2#4 ++ c ++ a ++ b ++ 0x0#5)
  | .acccvt sw c a b f => some (sw ++ 0x75#7 ++ 0x3#4 ++ c ++ a ++ b ++ f ++ 0x0#1)
  | .mwait sw c => some (sw ++ 0x75#7 ++ 0x4#4 ++ c ++ 0x0#17)
  | .copyk sw a => some (sw ++ 0x76#7 ++ 0x0#10 ++ a ++ 0x0#8)
  | .cpq sw d a => some (sw ++ 0x76#7 ++ 0x1#4 ++ d ++ a ++ 0x0#8)
  | .publ sw n => some (sw ++ 0x76#7 ++ 0x2000#16 ++ n)
  | .hvxor sw d a b => some (sw ++ 0x78#7 ++ 0x0#5 ++ d ++ a ++ b ++ 0x0#7)
  | .hvnot sw d a => some (sw ++ 0x78#7 ++ 0x1#5 ++ d ++ a ++ 0x0#11)
  | .hvmov sw d a => some (sw ++ 0x78#7 ++ 0x2#5 ++ d ++ a ++ 0x0#11)
  | .hvbund sw a k => some (sw ++ 0x78#7 ++ 0x30#9 ++ a ++ 0x0#4 ++ k ++ 0x0#6)
  | .hvbsub sw a k => some (sw ++ 0x78#7 ++ 0x40#9 ++ a ++ 0x0#4 ++ k ++ 0x0#6)
  | .hvmaj sw d k => some (sw ++ 0x78#7 ++ 0x5#5 ++ d ++ 0x0#8 ++ k ++ 0x0#6)
  | .hvbclr sw k => some (sw ++ 0x78#7 ++ 0x6000#17 ++ k ++ 0x0#6)
  | .hvgen sw d => some (sw ++ 0x78#7 ++ 0x7#5 ++ d ++ 0x0#15)
  | .hvrot sw a b y => some (sw ++ 0x79#7 ++ 0x0#4 ++ a ++ b ++ 0x0#6 ++ y)
  | .hvdist sw a b x => some (sw ++ 0x79#7 ++ 0x1#4 ++ a ++ b ++ x ++ 0x0#6)
  | .hvseed sw y => some (sw ++ 0x79#7 ++ 0x8000#18 ++ y)
  | .hvrdtie sw x => some (sw ++ 0x79#7 ++ 0x300#12 ++ x ++ 0x0#6)
  | .hvld sw a y => some (sw ++ 0x79#7 ++ 0x4#4 ++ a ++ 0x0#10 ++ y)
  | .hvst sw a y => some (sw ++ 0x79#7 ++ 0x5#4 ++ a ++ 0x0#10 ++ y)
  | .hvnear sw a x y => some (sw ++ 0x79#7 ++ 0x6#4 ++ a ++ 0x0#4 ++ x ++ y)
  | .hvbit sw a x y => some (sw ++ 0x79#7 ++ 0x7#4 ++ a ++ 0x0#4 ++ x ++ y)
  | .enq sw d a b => some (sw ++ 0x7A#7 ++ 0x0#4 ++ d ++ a ++ b ++ 0x0#2)
  | .sgfork sw d a b => some (sw ++ 0x7A#7 ++ 0x1#4 ++ d ++ a ++ b ++ 0x0#2)
  | .sgreward sw d a => some (sw ++ 0x7A#7 ++ 0x2#4 ++ d ++ a ++ 0x0#8)
  | .sgwait sw d => some (sw ++ 0x7A#7 ++ 0x3#4 ++ d ++ 0x0#14)
  | .sgcancel sw a => some (sw ++ 0x7A#7 ++ 0x100#10 ++ a ++ 0x0#8)
  | .sgquery sw d a => some (sw ++ 0x7A#7 ++ 0x5#4 ++ d ++ a ++ 0x0#8)
  | .srdp sw x i => some (sw ++ 0x7C#7 ++ 0x0#4 ++ x ++ i ++ 0x0#2)
  | .swrp sw x i => some (sw ++ 0x7C#7 ++ 0x1#4 ++ x ++ i ++ 0x0#2)
  | .icinv sw => some (sw ++ 0x7C#7 ++ 0x200000#24)
  | .tlbinv sw x => some (sw ++ 0x7C#7 ++ 0x3#4 ++ x ++ 0x0#14)
  | .wkill sw x => some (sw ++ 0x7C#7 ++ 0x4#4 ++ x ++ 0x0#14)
  | .wresume sw x => some (sw ++ 0x7C#7 ++ 0x5#4 ++ x ++ 0x0#14)
  | .acrd sw x d c => some (sw ++ 0x7C#7 ++ 0x6#4 ++ x ++ d ++ c ++ 0x0#2)
  | .halt sw => some (sw ++ 0x7C#7 ++ 0x700000#24)
  | .hintImm p => some (0#1 ++ 0x7F#7 ++ 0x0#4 ++ p)
  | .hintMod v m t z e w c => some (0#1 ++ 0x7F#7 ++ 0x1#4 ++ v ++ m ++ t ++ z ++ e ++ w ++ c ++ 0x0#5)
  | .ipref sw n o => some (sw ++ 0x7F#7 ++ 0x2#4 ++ n ++ o)
  | .hintSched sw n => some (sw ++ 0x7F#7 ++ 0x30000#20 ++ n)
  | .hintSchedDelayEnd _ => none
  | .resultWrite _ _ _ => none
  | .atomicPerform _ _ => none
  | .llcFill _ => none
  | .llcWriteBack _ => none
  | .pageWalk _ _ _ => none
  | .wsRefreshWindowEnd _ => none
  | .regionBaseWrite _ _ _ => none
  | .regionLimitWrite _ _ _ => none
  | .regionScaleWrite _ _ _ => none
  | .regionCtlWrite _ _ _ => none
  | .regionChangeApply _ _ => none
  | .registerWrite _ _ => none
  | .qwptrDoorbell _ _ => none
  | .pad _ _ => none
  | .kernel _ _ => none
  | .graph _ _ => none
  | .copy _ _ _ => none
  | .waitValue _ _ => none
  | .waitValueReread _ _ => none
  | .signal _ _ => none
  | .signalAdd _ _ => none
  | .publish _ _ => none
  | .checkpointClose _ _ => none
  | .checkpointStopSave _ _ => none
  | .launchComplete _ => none
  | .binTimerExpiry _ _ => none
  | .groupPlace => none
  | .groupStart _ => none
  | .groupPark _ => none
  | .sgwaitSpinExpiry _ => none
  | .sgoTimeout _ _ => none
  | .trapEntry _ => none
  | .boundaryTrap _ => none
  | .waveKill _ => none
  | .waveStop _ _ => none
  | .copyRequestStart _ => none
  | .copyPieceLand _ _ => none
  | .copyRequestFail _ => none
  | .copyRequestCancel _ => none
  | .followOnIssue _ => none
  | .publishStep _ _ => none
  | .arrayPass _ _ => none
  | .acczRun _ _ => none
  | .accldRun _ _ => none
  | .barWaitComplete _ => none
  | .intervalClose _ => none
  | .cutCapture _ => none
  | .ckptintvExpiry _ => none
  | .agStreamItem _ _ => none
  | .agCommit _ => none
  | .agPendUpdate _ => none
  | .eccCorrectable _ => none
  | .eccUncorrectable _ => none
  | .logicError _ => none
  | .linkFlitRetry _ => none
  | .selfTestVerdict _ _ => none
  | .hostHdmAccess _ => none
  | .peerRequest _ _ => none
  | .peerLinkDown _ => none
  | .ckptPortDown _ => none
  | .powerThrottleWindow _ => none
  | .thermalThrottle _ => none
  | .thermtrip => none
  | .deviceReset _ => none
  | .ctxCreate => none
  | .ctxDestroy => none
  | .ctxRead => none
  | .ctxWrite => none
  | .ctxStopClose => none
  | .ctxStopSave => none
  | .ctxResume => none
  | .ctxKill => none
  | .ctxInval => none
  | .ringCreate => none
  | .ringDestroy => none
  | .objLoad => none
  | .objUnload => none
  | .graphSet => none
  | .binSet => none
  | .pbSet => none
  | .domSet => none
  | .domGet => none
  | .snapshot => none
  | .powerRead => none
  | .powerWrite => none
  | .lifeGet => none
  | .peerSet => none
  | .imagePush => none
  | .serviceCompletion _ => none
  | .getVersion => none
  | .getCapabilities => none
  | .negotiateAlgorithms => none
  | .getDigests => none
  | .getCertificate => none
  | .challenge _ => none
  | .getMeasurements _ => none
  | .vendorDefinedRequest _ _ => none
  | .storeEntersCoherenceOrder _ _ => none
  | .instructionFetch _ => none
  | .instructionCacheFill _ _ _ => none
  | .badservice => none
  | .checkpointPortUp _ => none
  | .peerLinkRetrain _ => none
  | .poweredOnHour => none

/-- Is it an instruction word rather than an event? -/
def Instr.isWord (i : Instr) : Bool := (encode i).isSome

end Sys2Proof
end

