-- ==== Sys2Proof/Machine/Flags.lean ====
section
/-! DEFINITION. The sticky exception flags of SR_FPFLAGS and the integer results that set them (01 R16, R28, R29). -/

namespace Sys2Proof.Machine

/-- The flag set of one operation, laid out as SR_FPFLAGS[5:0] (01 R28). -/
abbrev Flags := BitVec 6

/-- No flag. -/
def flagNone : Flags := 0x00#6
/-- NX: inexact result (01 R28). -/
def flagNX : Flags := 0x01#6
/-- UF: underflow (01 R26, R27). -/
def flagUF : Flags := 0x02#6
/-- OF: overflow (01 R24). -/
def flagOF : Flags := 0x04#6
/-- DZ: division by zero (01 R28). -/
def flagDZ : Flags := 0x08#6
/-- NV: invalid operation (01 R28). -/
def flagNV : Flags := 0x10#6
/-- SA: a saturation changed a value (01 R16, R25). -/
def flagSA : Flags := 0x20#6

/-- A flag when a condition holds. -/
def flagIf (c : Bool) (f : Flags) : Flags := if c then f else flagNone

/-- The smallest and largest value of a two's complement integer of `w` bits (01 R16). -/
def intMin (w : Nat) : Int := -(2 ^ (w - 1) : Nat)
def intMax (w : Nat) : Int := (2 ^ (w - 1) : Nat) - 1

/-- Clamp an exact integer to a range; SA when clamping changed it (01 R16). -/
def clampInt (lo hi v : Int) : Int × Flags :=
  if v < lo then (lo, flagSA) else if hi < v then (hi, flagSA) else (v, flagNone)

/-- An exact integer written to `w` bits: wrapping, or clamped to the signed range under SAT (01 R16). -/
def signedResult (w : Nat) (sat : Bool) (v : Int) : BitVec w × Flags :=
  if sat then ((BitVec.ofInt w (clampInt (intMin w) (intMax w) v).1), (clampInt (intMin w) (intMax w) v).2)
  else (BitVec.ofInt w v, flagNone)

/-- An exact integer written to `w` bits: wrapping, or clamped to the unsigned range under SAT (01 R16). -/
def unsignedResult (w : Nat) (sat : Bool) (v : Int) : BitVec w × Flags :=
  if sat then ((BitVec.ofInt w (clampInt 0 (2 ^ w - 1) v).1), (clampInt 0 (2 ^ w - 1) v).2)
  else (BitVec.ofInt w v, flagNone)

end Sys2Proof.Machine
end

