-- ==== Sys2Proof/Machine/State.lean ====
section
/-! DEFINITION. The state of the machine: everything the spec gives it, as plain data, and the state after reset.
Tables are lists indexed by position; an entry that has ended stays in its table, so that positions never change (log 1). -/

namespace Sys2Proof.Machine

/-! ### Memory (02 R41, 04 R109, 10 R250) -/

/-- A 16-byte side-band and a format code; `fmt` none is "no format" (02 R48). -/
structure Side where
  band : BitVec 128
  fmt : Option (BitVec 4)
  deriving DecidableEq, Repr

/-- The side-band of a line outside every format region: all 0x00, no format (02 R48). -/
def Side.none : Side := ⟨0#128, Option.none⟩

/-- Byte memory with the side-bands of its lines. `cells` is in canonical form: addresses strictly rising, no byte equal to
what an unlisted address reads as (0x00, log 2); `sides` likewise, keyed by line number. -/
structure Mem where
  cells : List Host.Cell
  sides : List (Nat × Side)
  deriving DecidableEq, Repr

/-! ### Places and pending work of a wave -/

/-- Where an access is performed: a physical address (`ms`: through a memory-side page), a scratchpad offset of the
wave's group, or an offset of the register window (02 R61, 04 R117, R118). -/
inductive Place where
  | phys (pa : Nat) (ms : Bool)
  | scratch (off : Nat)
  | reg (off : Nat)
  deriving DecidableEq, Repr

/-- The part of a side-band that a block store carries: the bytes, which of them, and the format code (09 R234, 10 R262). -/
structure SideStore where
  band : BitVec 128
  which : BitVec 16
  fmt : Option (BitVec 4)
  deriving DecidableEq, Repr

/-- A plain store that has not entered its coherence order (05 R131). Byte i of the store goes to place + i; an absent byte
is not stored. `also` holds the scale-array bytes that are the other view of a side-band stored to a format region
(02 R55). -/
structure PStore where
  va : DWord
  place : Place
  bytes : List (Option (BitVec 8))
  side : Option SideStore
  also : List Host.Cell
  deriving DecidableEq, Repr

/-- A variable-latency result that has not been wholly written (06 R161-R163): the units still to be written. -/
inductive Out where
  /-- A scalar register. -/
  | s (n : Nat) (v : DWord)
  /-- Lanes of a vector register, with the side-band the form sets. -/
  | v (n : Nat) (lanes : Word) (data : Line) (side : Side)
  /-- 128-byte lines of a hypervector register. -/
  | h (n : Nat) (lines : BitVec 8) (data : Hyper)
  deriving DecidableEq, Repr

/-- One access of an atomic: lane (0 for a scalar form), place, operand, and the new value of ACAS (09 R236). -/
structure AtomAccess where
  lane : Nat
  va : DWord
  place : Place
  operand : DWord
  repl : DWord
  deriving DecidableEq, Repr

/-- An issued atomic some of whose accesses are not yet performed (09 R238, R239). `ret` names the register that takes the
old values: none, a scalar, or a vector register. -/
inductive AtomRet where
  | none
  | scalar (n : Nat)
  | vector (n : Nat)
  deriving DecidableEq, Repr

structure Atom where
  op : AtomOp
  wide : Bool
  scope : Nat
  acquire : Bool
  pc : DWord
  ret : AtomRet
  todo : List AtomAccess
  deriving DecidableEq, Repr

/-- An open group of words (06 R165): the PC of its first word and the payloads met. -/
structure Pfx where
  pc : DWord
  imm : Option (BitVec 20)
  mod : Option (BitVec 20)
  deriving DecidableEq, Repr

/-- A trap frame (14 R335). -/
structure Frame where
  cause : BitVec 6
  detail : BitVec 8
  kind : BitVec 4
  xcause : BitVec 6
  lane : BitVec 5
  lanev : Bool
  ewave : BitVec 11
  tpc : DWord
  addr : DWord
  tag : BitVec 16
  low : BitVec 40
  sm0 : Word
  s60 : DWord
  s61 : DWord
  s62 : DWord
  deriving DecidableEq, Repr

/-- A frame of zeros (14 R335). -/
def Frame.zero : Frame :=
  ⟨0#6, 0#8, 0#4, 0#6, 0#5, false, 0#11, 0#64, 0#64, 0#16, 0#40, 0#32, 0#64, 0#64, 0#64⟩

/-- A vector register: its line and side-band (04 R114, 08 R206). -/
structure VReg where
  data : Line
  side : Side
  deriving DecidableEq, Repr

/-- The Mirror progress record (11 R278). -/
structure Mirror where
  valid : Bool
  next : Nat
  bestD : Nat
  bestI : Nat
  deriving DecidableEq, Repr

/-- A trap due at a wave's next instruction boundary (14 R340): its cause, detail, kind, xcause, address, TAG and LOW, and
the order in which it arose. -/
structure DueTrap where
  cause : BitVec 6
  detail : BitVec 8
  kind : BitVec 4
  xcause : BitVec 6
  addr : DWord
  tag : BitVec 16
  low : BitVec 40
  deriving DecidableEq, Repr

/-- What a wave does once its releasing boundary has completed (05 R130). -/
inductive Cont where
  /-- PHASE: acquire at the scope (09 R240). -/
  | phase (scope : Nat)
  /-- An atomic with REL or ACQREL: its accesses go to their units (09 R238). -/
  | atomic (a : Atom)
  /-- BAR.ARRIVE: one arrival at the object (09 R243). -/
  | barArrive (off : Nat)
  /-- BAR.WAIT: the acquire of its completion (09 R244). -/
  | barWait
  /-- COPYK: the accepted request joins the kick queue (09 R245). -/
  | copyk (q : Nat)
  /-- PUBL: step 4 for buffer n and generation G0 (09 R247). -/
  | publ (n : Nat) (g0 : Word)
  /-- ENQ: the record is copied and the status returned (13 R317). -/
  | enq (d : Nat) (va : DWord) (p : Place) (bin : Nat)
  /-- SGREWARD: the reward is posted (13 R326). -/
  | sgreward (d : Nat) (a : DWord)
  /-- END: the wave goes on to wait for its copies and commands (07 R192). -/
  | endWave
  deriving DecidableEq, Repr

/-- What a wave in WAIT waits for (12 R294). A wave parked at a switch marker is `ready` with `marked` set and results
outstanding. -/
inductive WaitFor where
  /-- Its pending stores to enter their coherence orders; then the rest of the instruction (05 R131). -/
  | release (scope : Nat) (k : Cont)
  /-- The accesses of its acquiring atomic and the return of their values, and the acquire after them (09 R238). -/
  | acquire (scope : Nat) (ret : AtomRet)
  /-- The commands of an MWAIT on a tile (10 R263). -/
  | mwait (acc : Nat) (cmds : List Nat)
  /-- The requests bound to generation g0 + 1 of buffer n (09 R247). -/
  | publ (n : Nat) (g0 : Word)
  /-- An HVNEAR whose scan is under way (11 R276-R278): destination, query, table base and control. -/
  | hvnear (x : Nat) (q : Hyper) (base ctl : DWord) (scan : Mirror)
  /-- The spin of SGWAIT (13 R327): destination register, and the clock at which the spin runs out. -/
  | sgspin (d : Nat) (until_ : Nat)
  /-- The copies and commands of an ending wave (07 R192). -/
  | ending
  /-- The end of a wave that WKILL named (07 R202). -/
  | wkill (w : Nat)
  /-- The accesses that used translations which TLBINV has dropped, by its selector (07 R201). -/
  | tlbinv (sel : DWord)
  /-- An entry of the core's kick queue, or of the command queue of an array, which is full (03 R80; 10 R258). -/
  | entry (array : Option Nat)
  deriving DecidableEq, Repr

/-- The state of a wave (12 R294). `unstarted` is a wave of a group not yet started. A wave keeps its state while its group
is stopped, parked or saved; `Wave.stopped` says that it has reached its boundary. -/
inductive WaveSt where
  | unstarted
  | ready
  | wait (f : WaitFor)
  | blocked (off : Nat) (phase : Word)
  | halted
  | retired
  deriving DecidableEq, Repr

/-- A group that may be placed (12 R289): one woken or restored, or the head of a launch. -/
inductive Candidate where
  | group (g : Nat)
  | launch (l : Nat)
  deriving DecidableEq, Repr

/-- A wave (12 R280, R285). Registers, special registers, and the work it has issued that is not yet done. -/
structure Wave where
  group : Nat
  ctx : Nat
  index : Nat
  stage : Nat
  core : Nat
  slot : Nat
  numV : Nat
  numH : Nat
  numB : Nat
  st : WaveSt
  pc : DWord
  sregs : List DWord
  masks : List Word
  vregs : List VReg
  hvs : List Hyper
  bas : List Bundle
  hvtie : DWord
  fpflags : Flags
  snapCur : Bool
  snapOvf : Bool
  acqCnt : Word
  relCnt : Word
  trapCause : BitVec 6
  trapPc : DWord
  trapAddr : DWord
  frame : Frame
  handler : Bool
  marked : Bool
  pfx : Option Pfx
  outs : List Out
  atoms : List Atom
  pend : List PStore
  own : List Host.Cell
  acq : Word
  floors : List (Nat × Nat)
  adopted : List Word
  gphase : Nat
  mirror : Mirror
  due : List DueTrap
  /-- A trap held because its context was FAULTED, and whether its instruction had completed (14 R339). -/
  held : Option (Frame × Bool)
  stopped : Bool
  killed : Bool
  age : Nat
  pass : Nat
  delayUntil : Option Nat
  /-- The wave came to its PC by sequential advance from the last word of a half of the address space (07 R191). -/
  ran : Bool
  /-- The word at the PC, fetched and not yet issued (07 R191, R198). -/
  fetched : Option (DWord × Word)
  /-- The wait of a BLOCKED wave is satisfied: its test held at some point of the object's order since it began (04 R126). -/
  reached : Bool
  /-- The outstanding results whose bytes a peer returns: the peer, the result if its link fails, and the result (19 R407). -/
  far : List (Nat × Out × Out)
  dirty : List Nat
  deriving DecidableEq, Repr

/-! ### Cores -/

/-- A versioned copy of a line in an L1 (05 R142): line number, data, side-band, the acquire stamp and the sequence number of
its fill, the sequence number that the next fill had when a store last updated it (its own before that), and the waves of its
reader mask. -/
structure L1Copy where
  line : Nat
  data : Line
  side : Side
  fill : Word
  seq : Nat
  upd : Nat
  readers : List Nat
  deriving DecidableEq, Repr

/-- A line of an instruction cache (15 R377): the context of its tag, the virtual line number, the Publish Buffer and the generation
through which it was filled (02 R73), and its bytes. -/
structure ICacheLine where
  ctx : Nat
  line : Nat
  pb : Option (Nat × Word)
  data : Line
  deriving DecidableEq, Repr

/-- A non-leaf entry in the page-walk cache of a quadrant (02 R72): the context of its tag, its level, the bits of the address
above its reach, and the entry. -/
structure WalkEntry where
  ctx : Nat
  level : Nat
  page : Nat
  entry : DWord
  deriving DecidableEq, Repr

/-- A translation held in a TLB (02 R72, R73): the context of its tag, the page, the leaf entry, and the generation a
Publish Buffer page was resolved for. -/
structure TlbEntry where
  ctx : Nat
  page : Nat
  sizeLog : Nat
  leaf : DWord
  gen : Option Word
  deriving DecidableEq, Repr

/-- The kind of a matrix command (10 R265). -/
inductive MKind where
  | mma | accz | accld | follow
  deriving DecidableEq, Repr

/-- The state of a matrix command (10 R265). -/
inductive MState where
  | queued | running | done
  deriving DecidableEq, Repr

/-- A matrix command: its description in follow-on layout (03 R94, 10 R265), its progress, its issuer. -/
structure MCmd where
  core : Nat
  desc : List DWord
  kind : MKind
  st : MState
  nextc : Nat
  wave : Nat
  group : Nat
  ctx : Nat
  fromCopy : Bool
  deriving DecidableEq, Repr

/-- A matrix array (10 R250): weight buffer, two tiles of 256 rows, queue of command positions. -/
structure ArrayUnit where
  wbuf : Mem
  tile0 : List TileRow
  tile1 : List TileRow
  queue : List Nat
  deriving DecidableEq, Repr

/-- A core: its caches, its instruction and data TLB (02 R72), its arrays, its privileged registers (04 R109, 05 R142,
07 R200, 10 R250). -/
structure Core where
  fenced : Bool
  clockOff : Nat
  stamp : Word
  fillSeq : Nat
  l1 : List L1Copy
  icache : List ICacheLine
  itlb : List TlbEntry
  tlb : List TlbEntry
  csErr : DWord
  icFill : DWord
  prSlot : BitVec 7
  arrays : List ArrayUnit
  ageSeq : Nat
  deriving DecidableEq, Repr

/-- The state of a copy request (03 R106); `reserved` is an entry that COPYK holds before its release completes. -/
inductive CopySt where
  | reserved | queued | ringwait | pubhold | running | followwait | done | failed | cancelled
  deriving DecidableEq, Repr

/-- A copy request: its own copies of the descriptor and the extension block as qwords (03 R79, R82, R88), its progress
record (03 R106), and its owner: a wave, or a host packet, named by ring and packet positions (03 R103). -/
structure CopyReq where
  core : Nat
  ctx : Nat
  group : Nat
  wave : Nat
  host : Option (Nat × Nat)
  desc : List DWord
  ext : List DWord
  st : CopySt
  low : Nat
  gent : Word
  pbidx : Nat
  pbv : Bool
  counted : Nat
  /-- The barrier phase that the request waits for has been reached (03 R93, R95; 04 R126). -/
  reached : Bool
  deriving DecidableEq, Repr

/-! ### Code and launches (12 R281, R283; 13 R304-R322; 15 R371) -/

/-- A role of a kernel (12 R281, 15 R371). -/
structure Role where
  entry : DWord
  numV : Nat
  numH : Nat
  numB : Nat
  waves : Nat
  deriving DecidableEq, Repr

/-- A kernel of a loaded object: its roles by stage, its scratchpad, its home declaration, the base of its object's global
offset table, the number of that object (15 R371, R374). -/
structure Kernel where
  roles : List Role
  scratch : Nat
  home : Option Nat
  got : DWord
  obj : Nat
  deriving DecidableEq, Repr

/-- The key by which the read-only part of an object is shared (15 R375): the hash of the file, L, and the values of the external
symbols. -/
structure ObjKey where
  hash : BitVec 256
  base : DWord
  values : List DWord
  deriving DecidableEq, Repr

/-- An object loaded into a context (15 R374-R376). `key` names the file, the load base and the resolved externals; `ro` and
`rw` are the physical bases of the shared and the private part; `pages` the virtual ranges mapped (base, bytes, shared). -/
structure Obj where
  num : Nat
  ctx : Nat
  key : ObjKey
  base : DWord
  gotb : DWord
  limit : DWord
  ro : Nat
  rw : Nat
  pages : List (Nat × Nat × Bool)
  kernels : List Kernel
  globals : List (List (BitVec 8) × DWord)
  revoked : Bool
  unloaded : Bool
  deriving DecidableEq, Repr

/-- A sibling reference: object number, generation, index (13 R322). -/
structure SibRef where
  obj : Nat
  gen : Nat
  idx : Nat
  deriving DecidableEq, Repr

/-- Where a launch comes from: a packet of a ring, a node of a graph run, a bin. -/
inductive Origin where
  | packet (ring pkt : Nat)
  | node (run node : Nat)
  | bin (b : Nat)
  deriving DecidableEq, Repr

/-- A launch (12 R283, 13 R310): its parameters, the linear index of its next unplaced group, and what its groups start
with. `num` is its launch number (14 R350). A bin launch holds the pool slots of its records and the place of its indirection table
(13 R316). `dead` is a launch whose group is to be killed when it is placed (13 R328). -/
structure Launch where
  ctx : Nat
  num : Nat
  tree : Nat
  origin : Origin
  kernel : Kernel
  args : DWord
  extent : Nat × Nat × Nat
  mclaim : Bool
  home : Option DWord
  stride : DWord × DWord × DWord
  next : Nat
  regs : List DWord
  depth : Nat
  sib : Option SibRef
  slots : List Nat
  table : Option (Nat × Nat)
  listed : Bool
  dead : Bool
  deriving DecidableEq, Repr

/-- A launch tree and Dusk's counts of it (13 R318); `done` counts its groups that retired, `ended` those of them that retired by END, `failed` a launch that fits
nowhere (12 R287), `abandoned` a tree that a kill or the destruction of its ring ends (13 R321, 14 R339). -/
structure Tree where
  ctx : Nat
  origin : Origin
  live : Nat
  pend : Nat
  infl : Nat
  unplaced : Nat
  done : Nat
  ended : Nat
  failed : Bool
  abandoned : Bool
  isOpen : Bool
  deriving DecidableEq, Repr

/-- A translation that the front end keeps from dispatch on (13 R306, R308): the address, what it found, the Publish Buffer
through which it goes (02 R73), and whether an invalidation has covered it since (02 R74). -/
structure Kept where
  va : DWord
  pa : Nat
  ms : Bool
  pb : Option Nat
  stale : Bool
  deriving DecidableEq, Repr

/-- A packet that has been dispatched (13 R305-R308): where it stood, its quadwords, the translations of its completion record's
address and of its ADDR, and the launch tree, graph run or copy request it became, or the generation that a PUBLISH found. -/
structure Packet where
  rpos : Word
  addr : DWord
  quads : List DWord
  cr : Option Kept
  found : Option Kept
  ref : Nat
  done : Bool
  deriving DecidableEq, Repr

inductive RingSt where
  | run | halted | destroying | free
  deriving DecidableEq, Repr

/-- A submission ring (13 R304). -/
structure Ring where
  ctx : Nat
  num : Nat
  base : DWord
  logsz : Nat
  wptr : Word
  rptr : Word
  st : RingSt
  err : BitVec 8
  errAddr : DWord
  done : DWord
  pkts : List Packet
  deriving DecidableEq, Repr

/-- A running graph (13 R312): the counters of its nodes, the nodes that were ready and found no free tree, how many are
running, how many groups of its nodes retired and how many of them by END, and the lowest node that failed. -/
structure GraphRun where
  ctx : Nat
  table : Nat
  ring : Nat
  pkt : Nat
  counts : List Nat
  waiting : List Nat
  running : Nat
  retired : Nat
  ended : Nat
  failed : Option Nat
  live : Bool
  deriving DecidableEq, Repr

/-- A record bin: its entry and its pending set (13 R313, R315). `due` is the clock of the context at which its timer
expires. -/
structure Bin where
  quads : List DWord
  slots : List Nat
  tree : Nat
  depth : Nat
  sib : Option SibRef
  due : Nat
  deriving DecidableEq, Repr

/-- The kind of a sibling (13 R323). -/
inductive SibKind where
  | waiting | reported | nonfin | cancelled | timedout
  deriving DecidableEq, Repr

/-- A sibling: its kind, reward and advantage, whether its advantage is DEGENERATE, whether its group has ended. -/
structure Sib where
  kind : SibKind
  reward : Word
  adv : Word
  degenerate : Bool
  gone : Bool
  deriving DecidableEq, Repr

/-- A Sample Group Object (13 R322-R332). `due` is the clock of the context at which its timeout expires, once started. -/
structure Sgo where
  num : Nat
  gen : Nat
  tree : Nat
  sibs : List Sib
  eps : Word
  timeout : Nat
  due : Option Nat
  expired : Bool
  final : Bool
  live : Bool
  deriving DecidableEq, Repr

/-! ### Groups -/

/-- The state of a group (12 R295). -/
inductive GroupSt where
  | pending | starting | running | parking | parked | saving | saved | faulted | retired
  deriving DecidableEq, Repr

/-- A group (12 R280): its launch and coordinates, its shared state, its place. -/
structure Group where
  ctx : Nat
  launch : Nat
  index : Nat
  coord : Nat × Nat × Nat
  extent : Nat × Nat × Nat
  st : GroupSt
  waves : List Nat
  scratchSize : Nat
  scratch : Mem
  gregs : List DWord
  claim : Bool
  cores : List Nat
  spanQ : Nat
  gid : Nat
  gphase : Nat
  got : DWord
  args : DWord
  entryRegs : List DWord
  kernel : Kernel
  tree : Nat
  depth : Nat
  sib : Option SibRef
  slots : List Nat
  table : Option (Nat × Nat)
  home : Option DWord
  /-- A wake that the group's next start answers with an acquiring boundary (12 R297). -/
  wake : Bool
  /-- The group starts anew, not from a saved state. -/
  fresh : Bool
  /-- The group has started on the cores that it holds (12 R282, R295). -/
  started : Bool
  /-- The arrays of its span members while it is parked or saved (12 R296, 14 R356). -/
  saved : List (List ArrayUnit)
  dirty : List Nat
  deriving DecidableEq, Repr

/-! ### Contexts -/

/-- The software-written registers of a context record (14 R342). -/
structure CtxRegs where
  ctl : DWord
  trapvec : DWord
  ptroot : DWord
  glintCtl : DWord
  glintLog : DWord
  declBase : DWord
  declN : DWord
  pbTable : DWord
  allocBase : DWord
  allocN : DWord
  saveBase : DWord
  saveSize : DWord
  ckptBase : DWord
  ckptSize : DWord
  ckptIntv : DWord
  recBase : DWord
  deriving DecidableEq, Repr

/-- All zero (14 R342). -/
def CtxRegs.zero : CtxRegs :=
  ⟨0#64, 0#64, 0#64, 0#64, 0#64, 0#64, 0#64, 0#64, 0#64, 0#64, 0#64, 0#64, 0#64, 0#64, 0#64, 0#64⟩

/-- The state of a context (14 R342). -/
inductive CtxSt where
  | resident | saved | faulted | restoring | stopping
  deriving DecidableEq, Repr

/-- An item that Afterglow tracks (14 R346). -/
inductive AgItem where
  /-- A pool line of a wave: its vector and hyper blocks, by mark (log 18). -/
  | wavePool (w line : Nat)
  /-- A pool line of a group block. -/
  | groupPool (g line : Nat)
  /-- An accumulator tile of a span member of a group. -/
  | tile (g member array tile : Nat)
  /-- A weight-buffer line of a span member of a group. -/
  | wbuf (g member array line : Nat)
  /-- A 64 KiB granule of an extent of the allocation list. -/
  | granule (ext idx : Nat)
  | waveState (w : Nat)
  | groupState (g : Nat)
  | copyRec (q : Nat)
  | cmdRec (k : Nat)
  | sgo (o : Nat)
  | front
  | free (g : Nat)
  /-- The COMMIT record of an interval (14 R352). -/
  | commit (ivl : Nat)
  deriving DecidableEq, Repr

/-- A request for a close of the interval (14 R347, R356): a packet, a begun service, the period, or a fence or thermal
stop; `save` when the context is to be stopped and saved. -/
inductive CloseBy where
  | packet (ring pkt : Nat)
  | service (k : Nat)
  | device
  deriving DecidableEq, Repr

structure CloseReq where
  origin : CloseBy
  save : Bool
  deriving DecidableEq, Repr

/-- A COMMIT record (14 R352): the interval, the number of its records, FULL, the digest of its records and the digest of the
COMMIT record before it. -/
structure Commit where
  ivl : Nat
  records : Nat
  full : Bool
  digest : BitVec 256
  prev : BitVec 256
  deriving DecidableEq, Repr

/-- An image of a context at a cut (14 R348, R351, R352), with the positions that its parts have in the tables of State.
`cells` and `sides` hold the extents' contents by extent index and offset. -/
structure Image where
  ivl : Nat
  full : Bool
  waves : List (Nat × Wave)
  groups : List (Nat × Group)
  copies : List (Nat × CopyReq)
  cmds : List (Nat × MCmd)
  rings : List (Nat × Ring)
  launches : List (Nat × Launch)
  trees : List (Nat × Tree)
  runs : List (Nat × GraphRun)
  wakes : List Nat
  bins : List (Nat × Bin)
  pool : List Nat
  tables : List (Nat × Nat)
  sgos : List Sgo
  pbGens : List Word
  exts : List Nat
  cells : List (Nat × Nat × BitVec 8)
  sides : List (Nat × Nat × Side)
  resClock : Nat
  deriving DecidableEq, Repr

/-- A context (14 R342): the written registers, the copy in effect since the last resume, and what the device keeps for it. -/
structure Ctx where
  id : BitVec 32
  regs : CtxRegs
  act : CtxRegs
  st : CtxSt
  faultKind : BitVec 4
  faultFrame : Frame
  faultWho : DWord
  faultWave : DWord
  ttag : BitVec 12
  logErr : Bool
  glintSeq : Word
  features : Nat
  /-- Front-end clocks for which the context has been resident; timeouts and bin timers count them (13 R315, R332). -/
  resClock : Nat
  /-- Queue-window slot (19 R399) and the ring served last (13 R307). -/
  slot : Option Nat
  lastRing : Nat
  graphs : List (Nat × DWord)
  bins : List (Nat × Bin)
  /-- Pool slots in use, ascending, and indirection tables in use as (offset, bytes) (13 R314). -/
  pool : List Nat
  tables : List (Nat × Nat)
  sgos : List Sgo
  /-- Group tags with the GPHASE their last holder left (05 R152). -/
  gids : List (Nat × Nat)
  /-- No tag was left for a group: Glint checks the context's accesses no more (05 R152). -/
  glintOff : Bool
  /-- Afterglow (14 R346-R355): the open interval, the dirty items, the close under way with its image, the items still to be
  streamed and those streamed, the committed image, the requests for closes. -/
  agOpen : Nat
  agDirty : List AgItem
  agStop : Bool
  agFrom : CtxSt
  agCut : Option Image
  agPend : List AgItem
  agDone : List AgItem
  agPort : Bool
  /-- The checkpoint port whose failure fails the interval (19 R404). -/
  agDown : Option Nat
  agBy : List CloseReq
  agQueue : List CloseReq
  agFirst : Bool
  image : Option Image
  /-- The region at CKPTBASE: the offset at which the next record goes, and the records of the committed image. -/
  agPtr : Nat
  agRecs : List (AgItem × Nat × Nat)
  agNew : List (AgItem × Nat × Nat)
  /-- The COMMIT records of the image, the latest first, back to the last full close (14 R352, R357). -/
  agChain : List Commit
  agPendReg : DWord
  agEstReg : DWord
  /-- The front-end clock of their last update (14 R355). -/
  agSeen : Nat
  ckptStart : Nat
  /-- An expander has marked records poisoned on which the committed image rests (19 R404). -/
  agBad : Bool
  /-- Lost data of this class code rolls the context back at the end of the step (14 R362, R363). -/
  rollBy : Option Nat
  /-- The format region registers that hold the context's declarations, by quadrant and number (02 R50; 14 R343). -/
  declRegs : List (Nat × Nat)
  destroyed : Bool
  deriving DecidableEq, Repr

/-! ### Memory side -/

/-- Glint's state of a 32-byte sector (05 R152). -/
structure Sector where
  gid : Nat
  gphase : Nat
  wave : Nat
  scope : Nat
  atom : Bool
  wr : Bool
  deriving DecidableEq, Repr

/-- A line present in an LLC slice (02 R45): line number, dirty state, the Glint state of its four sectors. -/
structure LlcLine where
  line : Nat
  dirty : Bool
  sectors : List (Option Sector)
  deriving DecidableEq, Repr

/-- A Format Region Register (02 R51, R52). -/
structure Region where
  base : DWord
  limit : DWord
  scale : DWord
  ctl : DWord
  deriving DecidableEq, Repr

def Region.zero : Region := ⟨0#64, 0#64, 0#64, 0#64⟩

/-- A change of a region register that waits for its lines to be dropped (02 R56). -/
structure RegionChange where
  quad : Nat
  reg : Nat
  new : Region
  deriving DecidableEq, Repr

/-- The memory controller of a quadrant (02 R51). -/
structure Quad where
  regions : List Region
  mcCtl : DWord
  rdBytes : DWord
  wrBytes : DWord
  llcFills : DWord
  cmpSaved : DWord
  clock : Nat
  /-- The units whose compression state the metadata cache holds (02 R58). -/
  metaUnits : List Nat
  /-- The shared TLB and the page-walk cache of the quadrant (02 R72). -/
  stlb : List TlbEntry
  pwc : List WalkEntry
  deriving DecidableEq, Repr

/-- The state of a peer table entry (19 R405). -/
inductive PeerSt where
  | absent | up | down
  deriving DecidableEq, Repr

/-- An entry of the peer table (19 R405). -/
structure Peer where
  ports : BitVec 16
  identity : BitVec 256
  st : PeerSt
  deriving DecidableEq, Repr

/-- An accounting domain (19 R416): feature mask, the quotas that differ from the reset value as (core, (QWAVE, QPOOL)), and
the counters of 07 R203. -/
structure Domain where
  fmask : DWord
  quotas : List (Nat × Nat × Nat)
  cnt : List DWord
  deriving DecidableEq, Repr

/-- A service that has been begun and not ended (19 R412): its code, context, TAG, completion address, a ring or object
number, the result and value of its record. -/
structure Begun where
  code : Nat
  ctx : Nat
  tag : DWord
  addr : DWord
  arg : Nat
  result : Nat
  value : DWord
  counts : List Nat
  ready : Bool
  ended : Bool
  deriving DecidableEq, Repr

/-- The class of a hardware error (14 R360, R362). -/
inductive ErrClass where
  | clean | lost | logic | lane
  deriving DecidableEq, Repr

/-- A self-test under way (14 R361): the unit, the class code of R360 and the error that led to it, the data that it has lost, the
groups parked for it, and the wave that met the error or the wave that had kicked or issued the engine's work (`boundary` then). -/
structure SelfTest where
  unit : HwUnit
  code : Nat
  cls : ErrClass
  item : Option AgItem
  parked : List Nat
  wave : Option Nat
  boundary : Bool
  verdict : Bool
  deriving DecidableEq, Repr

/-- A piece of work that is replayed (14 R362): the unit and the wave whose work it is, the class code of the error, and the
replays made in succession. -/
structure Replay where
  unit : HwUnit
  wave : Option Nat
  code : Nat
  count : Nat
  deriving DecidableEq, Repr

/-- The form of the device (00 R1, R2). -/
inductive DevForm where
  | kzm1600 | kzm1600p | kzm1600e
  deriving DecidableEq, Repr

/-- FORM (19 R400), and the upper limit of the power cap in watts (19 R419). -/
def DevForm.code : DevForm → Nat
  | .kzm1600 => 0 | .kzm1600p => 1 | .kzm1600e => 2
def DevForm.maxPower : DevForm → Nat
  | .kzm1600 => 2100 | .kzm1600p => 1750 | .kzm1600e => 2100

/-- A committed image in the region of the checkpoint tier at a base, as its records and COMMIT records give it (14 R350-R352;
19 R404): of this device, or of another that wrote it there. -/
structure TierImage where
  num : BitVec 32
  base : DWord
  image : Image
  chain : List Commit
  recs : List (AgItem × Nat × Nat)
  ptr : Nat
  bad : Bool
  deriving DecidableEq, Repr

/-! ### Lantern's capabilities (19 R408) -/

/-- What an entry of the capability table has been granted for: a ring, an address that a packet in progress names (part 0 the one of its
completion record, 1 the one that it reads or writes), the kernel table of
a loaded object, a part of a graph table (0 the header, 1 the nodes, 2 the successors), and of a context its bin table, its work area,
its Publish Buffer table, its record and its save area. -/
inductive CapObj where
  | ring (k : Nat)
  | field (ring pkt part : Nat)
  | object (k : Nat)
  | graph (c t part : Nat)
  | bins (c : Nat)
  | pool (c : Nat)
  | pbTable (c : Nat)
  | record (c : Nat)
  | saveArea (c : Nat)
  deriving DecidableEq, Repr

/-- An entry of the capability table: base, length, the permissions, the number of the context that owns it, the generation; a free
entry keeps its generation. -/
structure Cap where
  obj : CapObj
  base : DWord
  len : BitVec 48
  rd : Bool
  wr : Bool
  owner : BitVec 32
  gen : BitVec 16
  live : Bool
  deriving DecidableEq, Repr

/-- The transport of an SPDM request beside the mailbox: MCTP over PCIe, or over the SMBus (19 R414). -/
inductive SpdmVia where
  | pcie | smbus
  deriving DecidableEq, Repr

/-! ### Turns and the machine -/

/-- What acts in a step (log 1). -/
inductive Turn where
  /-- A wave looks at what it waits for, or fetches and issues its next word. -/
  | wave (w : Nat)
  /-- An event happens. -/
  | event (i : Instr)
  /-- Clocks pass in the four quadrants and the front end. -/
  | pass (q0 q1 q2 q3 fe : Nat)
  /-- The host writes bytes of its own memory. -/
  | hostStore (pa : Nat) (bytes : List (BitVec 8))
  /-- A memory expander of the checkpoint tier marks data of a context's region poisoned (19 R404). -/
  | expander (c : Nat)
  /-- Another device commits an image into a region of the checkpoint tier (14 R357). -/
  | tier (t : TierImage)
  /-- An SPDM request reaches Lantern over MCTP (19 R414). -/
  | spdm (via : SpdmVia) (msg : List (BitVec 8))
  deriving DecidableEq, Repr

/-- Why a step stops. -/
inductive Fault where
  /-- Raised by the meaning of an instruction word when no wave is running it; no step reaches it, since a step runs a
  word only for a wave that exists. Safe. -/
  | noWave
  deriving DecidableEq, Repr

/-- Why an instruction is refused. -/
inductive Refusal where
  /-- The instruction has no meaning yet. Safe. -/
  | notModelled (mnemonic : String)
  deriving DecidableEq, Repr

/-- The machine. -/
structure State where
  agenda : List Turn
  cur : Nat
  draws : Nat
  mem : Mem
  poison : List Nat
  /-- Data of the Core Store and the arrays that an uncorrectable error has left poisoned (04 R110; 14 R362). -/
  bad : List AgItem
  /-- The form of the device (00 R2; 19 R400). -/
  form : DevForm
  /-- Host accesses that ended with an unsupported-request error, as they are logged (19 R402; log 80). -/
  refusedHost : List Nat
  /-- What the checkpoint tier holds beside the images of this device's contexts (14 R357). -/
  tier : List TierImage
  quads : List Quad
  changes : List RegionChange
  unitStates : List (Nat × Nat)
  llc : List LlcLine
  feClock : Nat
  cores : List Core
  waves : List Wave
  groups : List Group
  ctxs : List Ctx
  copies : List CopyReq
  cmds : List MCmd
  peers : List Peer
  /-- The Peer Link ports that have trained, and those that stay down until the next reset (19 R405, R422). -/
  linkPorts : BitVec 16
  deadPorts : BitVec 16
  errBase : DWord
  errSize : DWord
  errWptr : Word
  errRptr : Word
  errSeq : Word
  errDropped : Word
  msix : List Nat
  /-- The dispatch list's launches, trees and graph runs, the rings, the loaded objects (13, 15). -/
  launches : List Launch
  trees : List Tree
  runs : List GraphRun
  rings : List Ring
  objs : List Obj
  /-- The pages of page tables that the loader has made (15 R374; log 11). -/
  tablePages : List Nat
  /-- Woken and restored groups in the order in which they became pending (12 R289). -/
  wakeQueue : List Nat
  /-- The span groups that wait because no quadrant fits them, in the order of their first trial, and the quadrant that each
  reserves (12 R292). -/
  spanWait : List (Candidate × Nat)
  lastSlot : Nat
  /-- The partition whose wave issued last, as 8 * core + partition (12 R299; log 1). -/
  lastPart : Nat
  /-- The mailbox (19 R399, R409). -/
  mbBuf : Mem
  mbBusy : Bool
  mbResult : BitVec 8
  ready : Bool
  recovery : Bool
  degraded : Bool
  throttle : Bool
  thermtrip : Bool
  /-- Issue on all cores is halted (19 R420). -/
  issueHalt : Bool
  /-- The services begun (19 R412). -/
  begun : List Begun
  /-- The capability table, and the capability registers of each Lantern core: an entry's index and generation (19 R408). -/
  caps : List Cap
  capRegs : List (List (Option (Nat × BitVec 16)))
  domains : List Domain
  epoch : Word
  snapSeq : DWord
  hours : DWord
  peerBytes : DWord
  powerCap : Nat
  /-- Sixty-fourths of each window in which issue is withheld, and whether the junction limit holds it (19 R419, R420). -/
  withheld : Nat
  hot : Bool
  /-- Checkpoint ports up (19 R404). -/
  ports : List Bool
  measurements : List (BitVec 256)
  /-- The stored firmware image, the fused security version, the SPDM negotiation (19 R413-R415). -/
  firmware : List (BitVec 8)
  fusedVersion : Nat
  spdmReady : Bool
  /-- SPDM over MCTP (19 R414): the requests that have reached Lantern and are not served, those of them that came before the request
  in the mailbox, and the responses that it has sent. -/
  spdmIn : List (SpdmVia × List (BitVec 8))
  spdmBefore : Nat
  spdmOut : List (SpdmVia × List (BitVec 8))
  /-- Errors (14 R360-R365): self-tests, units fenced, replays in succession of a piece of work, lane retries as
  (link, clock), the lifetime record by offset, the hour of the last error of a unit (`true` for an LLC set). -/
  tests : List SelfTest
  /-- The turn under way has come to an access that waits for a self-test, and is put off (14 R361; log 86). -/
  stall : Bool
  fencedUnits : List HwUnit
  /-- The failing ways of LLC sets that are fenced: one entry, the set, for each (14 R364; log 74). -/
  llcFences : List (Nat × Nat)
  replays : List Replay
  retries : List (Nat × Nat)
  life : List (Nat × DWord)
  lastErr : List ((HwUnit × Bool) × Nat)
  deriving DecidableEq, Repr

/-- A memory controller after reset (02 R51). -/
def Quad.reset : Quad :=
  ⟨List.replicate 16 Region.zero, 0x1#64, 0#64, 0#64, 0#64, 0#64, 0, [], [], []⟩

/-- An array with zeros in it (10 R251; log 3). -/
def ArrayUnit.zero : ArrayUnit :=
  ⟨⟨[], []⟩, List.replicate 256 0#4096, List.replicate 256 0#4096, []⟩

/-- A core after reset (log 3, log 4). -/
def Core.reset : Core :=
  { fenced := false, clockOff := 0, stamp := 0#32, fillSeq := 0, l1 := [], icache := [], itlb := [], tlb := [], csErr := 0#64,
    icFill := 0#64, prSlot := 0#7, arrays := List.replicate 4 ArrayUnit.zero, ageSeq := 0 }

/-- The machine right after reset: what the spec states, and the values of the log for what it leaves open (19 R422). -/
def State.reset : State :=
  { agenda := [], cur := 0, draws := 0, mem := ⟨[], []⟩, poison := [], bad := [],
    form := .kzm1600, refusedHost := [], tier := [], quads := List.replicate 4 Quad.reset, changes := [],
    unitStates := [], llc := [], feClock := 0, cores := List.replicate 160 Core.reset, waves := [], groups := [],
    ctxs := [], copies := [], cmds := [],
    peers := List.replicate 64 ⟨0#16, 0#256, .absent⟩, linkPorts := 0xFFFF#16, deadPorts := 0#16, errBase := 0#64, errSize := 0#64, errWptr := 0#32,
    errRptr := 0#32, errSeq := 0#32, errDropped := 0#32, msix := [],
    launches := [], trees := [], runs := [], rings := [], objs := [], tablePages := [], wakeQueue := [], spanWait := [],
    lastSlot := 239, lastPart := 0,
    mbBuf := ⟨[], []⟩, mbBusy := false, mbResult := 0#8, ready := false, recovery := false, degraded := false,
    throttle := false, thermtrip := false, issueHalt := false, begun := [],
    caps := [], capRegs := List.replicate 4 (List.replicate 8 none), domains := List.replicate 64 ⟨0#64, [], List.replicate 12 0#64⟩,
    epoch := 0#32, snapSeq := 0#64, hours := 0#64, peerBytes := 0#64, powerCap := 2100, withheld := 0, hot := false,
    ports := [true, true], measurements := List.replicate 5 0#256, firmware := [], fusedVersion := 0, spdmReady := false,
    spdmIn := [], spdmBefore := 0, spdmOut := [],
    tests := [], stall := false, fencedUnits := [], llcFences := [], replays := [], retries := [], life := [], lastErr := [] }

end Sys2Proof.Machine
end

