-- ==== Sys2Proof/Machine/Memory.lean ====
section
/-! DEFINITION. The named operations over byte memory, words, lines and side-bands, and the physical address map
(00 R5, 02 R41-R55). -/

namespace Sys2Proof.Machine

/-! ### Bytes and words -/

/-- The number a list of bytes holds, the lowest address first (00 R5). -/
def natOfBytes : List (BitVec 8) → Nat
  | [] => 0
  | b :: rest => b.toNat + 256 * natOfBytes rest

/-- The `n` bytes of a number, the lowest address first (00 R5). -/
def bytesOfNat : Nat → Nat → List (BitVec 8)
  | 0, _ => []
  | n + 1, x => BitVec.ofNat 8 x :: bytesOfNat n (x / 256)

/-- Put an entry into a sorted list, after its equals. -/
def insertBy {α : Type} (before : α → α → Bool) (x : α) : List α → List α
  | [] => [x]
  | y :: rest => if before x y then x :: y :: rest else y :: insertBy before x rest

/-- A list in an order; equals keep theirs. -/
def sortBy {α : Type} (before : α → α → Bool) (l : List α) : List α := l.foldl (fun acc x => insertBy before x acc) []

/-- A line from its 128 bytes, and its bytes. -/
def lineOfBytes (bs : List (BitVec 8)) : Line := BitVec.ofNat 1024 (natOfBytes bs)
def bytesOfLine (l : Line) : List (BitVec 8) := bytesOfNat 128 l.toNat

/-- Byte `i` of a line. -/
def lineByte (l : Line) (i : Nat) : BitVec 8 := l.extractLsb' (8 * i) 8

/-- Put `len` bits at bit `lo` of a bit vector. -/
def setBits {w len : Nat} (x : BitVec w) (lo : Nat) (v : BitVec len) : BitVec w :=
  (x &&& ~~~((BitVec.allOnes len).setWidth w <<< lo)) ||| ((v.setWidth w) <<< lo)

/-! ### Sorted tables -/

/-- The entry of a key in a sorted table. -/
def lookupSorted {α : Type} (k : Nat) : List (Nat × α) → Option α
  | [] => none
  | (a, v) :: rest => if a = k then some v else if k < a then none else lookupSorted k rest

/-- Set or remove the entry of a key, keeping the keys strictly rising. -/
def updateSorted {α : Type} (k : Nat) (v : Option α) : List (Nat × α) → List (Nat × α)
  | [] => match v with
    | some x => [(k, x)]
    | none => []
  | (a, y) :: rest =>
    if a = k then
      match v with
      | some x => (k, x) :: rest
      | none => rest
    else if k < a then
      match v with
      | some x => (k, x) :: (a, y) :: rest
      | none => (a, y) :: rest
    else (a, y) :: updateSorted k v rest

/-! ### Byte memory -/

/-- What an unlisted byte reads as (log 2). -/
def Mem.blank : BitVec 8 := 0x00#8

/-- Read one byte. -/
def Mem.byte (m : Mem) (a : Nat) : BitVec 8 := (lookupSorted a m.cells).getD Mem.blank

/-- Write one byte, in canonical form. -/
def Mem.setByte (m : Mem) (a : Nat) (b : BitVec 8) : Mem :=
  { m with cells := updateSorted a (if b = Mem.blank then none else some b) m.cells }

/-- Read `n` bytes from an address upward. -/
def Mem.read (m : Mem) (a : Nat) : Nat → List (BitVec 8)
  | 0 => []
  | n + 1 => m.byte a :: m.read (a + 1) n

/-- Write bytes from an address upward. -/
def Mem.write (m : Mem) (a : Nat) : List (BitVec 8) → Mem
  | [] => m
  | b :: rest => (m.setByte a b).write (a + 1) rest

/-- Write the present bytes of a partial store. -/
def Mem.writeSome (m : Mem) (a : Nat) : List (Option (BitVec 8)) → Mem
  | [] => m
  | some b :: rest => (m.setByte a b).writeSome (a + 1) rest
  | none :: rest => m.writeSome (a + 1) rest

/-- Read a little-endian number of `n` bytes. -/
def Mem.num (m : Mem) (a n : Nat) : Nat := natOfBytes (m.read a n)

/-- Read a quadword. -/
def Mem.quad (m : Mem) (a : Nat) : DWord := BitVec.ofNat 64 (m.num a 8)

/-- The side-band of a line of this memory, by line number. -/
def Mem.side (m : Mem) (line : Nat) : Side := (lookupSorted line m.sides).getD Side.none

/-- Set the side-band of a line, in canonical form. -/
def Mem.setSide (m : Mem) (line : Nat) (d : Side) : Mem :=
  { m with sides := updateSorted line (if d = Side.none then none else some d) m.sides }

/-- The 128 bytes of a line. -/
def Mem.line (m : Mem) (line : Nat) : Line := lineOfBytes (m.read (128 * line) 128)

/-- Strictly rising keys. -/
def risingKeys {α : Type} : List (Nat × α) → Bool
  | [] => true
  | [_] => true
  | (a, _) :: (b, y) :: rest => decide (a < b) && risingKeys ((b, y) :: rest)

/-- The canonical form: addresses strictly rising, no entry equal to what an unlisted address reads as. -/
def Mem.wf (m : Mem) : Bool :=
  risingKeys m.cells && m.cells.all (fun c => c.2 != Mem.blank) &&
  risingKeys m.sides && m.sides.all (fun c => c.2 != Side.none)

/-- Empty memory: every byte blank, no side-band. -/
def Mem.empty : Mem := ⟨[], []⟩

/-! ### The physical address map (02 R41) -/

/-- What lies at a physical address. -/
inductive PaKind where
  | hbm (q : Nat)
  | weightStore (q : Nat)
  | devRegs
  | peer (p : Nat)
  | host
  | hole
  deriving DecidableEq, Repr

/-- The map of 02 R41. -/
def paKind (pa : Nat) : PaKind :=
  if pa < 0x8000000000 then .hbm (pa / 0x2000000000)
  else if pa < 0x8200000000 then .weightStore ((pa - 0x8000000000) / 0x80000000)
  else if 0xC000000000 ≤ pa ∧ pa < 0xC100000000 then .devRegs
  else if 0x100000000000 ≤ pa ∧ pa < 0x500000000000 then .peer ((pa - 0x100000000000) / 0x10000000000)
  else if 0x800000000000 ≤ pa ∧ pa < 0x1000000000000 then .host
  else .hole

def PaKind.isHbm : PaKind → Bool
  | .hbm _ => true
  | _ => false

def PaKind.isWs : PaKind → Bool
  | .weightStore _ => true
  | _ => false

/-- Can a fetch reach what lies there (02 R41)? -/
def PaKind.fetchable (k : PaKind) : Bool := k.isHbm || k.isWs

/-- Is it a peer aperture, and of which peer? -/
def PaKind.peerOf : PaKind → Option Nat
  | .peer p => some p
  | _ => none

/-- Is the peer's table entry UP (19 R405)? -/
def State.peerUp (s : State) (p : Nat) : Bool :=
  match s.peers[p]? with
  | some e => e.st == .up
  | none => false

/-- May a program access name this page base (02 R41, R42; 19 R405)? -/
def State.reachable (s : State) (pa : Nat) : Bool :=
  match paKind pa with
  | .devRegs => false
  | .hole => false
  | .peer p => s.peerUp p && decide ((pa - 0x100000000000) % 0x10000000000 < 0x8000000000)
  | _ => true

/-- The home quadrant of an HBM address (02 R43). -/
def quadOf (pa : Nat) : Nat := pa / 0x2000000000 % 4

/-- Stack and channel of an HBM address (02 R43). -/
def hbmFold (pa : Nat) : BitVec 6 :=
  let o : BitVec 48 := BitVec.ofNat 48 pa
  o.extractLsb' 11 6 ^^^ o.extractLsb' 17 6 ^^^ o.extractLsb' 23 6 ^^^ o.extractLsb' 29 6
/-- The quadrant in which an HBM or weight-store address lies (02 R41). -/
def memQuad (pa : Nat) : Nat :=
  match paKind pa with
  | .hbm q => q
  | .weightStore q => q
  | _ => 0

def hbmStack (pa : Nat) : Nat := 2 * quadOf pa + (hbmFold pa).toNat / 32
def hbmChannel (pa : Nat) : Nat := (hbmFold pa).toNat % 32

/-- Is the line present in its slice? -/
def State.llcHas (s : State) (line : Nat) : Bool := s.llc.any (fun l => l.line == line)

/-- The unit class of a line: weight store, LLC or HBM (14 R360). -/
def State.lineClass (s : State) (line : Nat) : Nat :=
  if (paKind (128 * line)).isWs then 5 else if s.llcHas line then 3 else 4

/-- The refresh bank group of a weight-store address (02 R64). -/
def bankGroup (pa : Nat) : Nat := (pa - 0x8000000000) % 0x80000000 / 4096 % 16

/-- Is the bank group refreshing at this WSCLK (02 R65)? -/
def refreshing (wsclk g : Nat) : Bool :=
  decide (512 * g ≤ wsclk % 8192) && decide (wsclk % 8192 ≤ 512 * g + 63)

/-! ### Format regions (02 R50-R55) -/

/-- Fields of a region register (02 R51, R52). -/
def Region.lo (r : Region) : Nat := (r.base.extractLsb' 12 36).toNat * 4096
def Region.hi (r : Region) : Nat := (r.limit.extractLsb' 12 36).toNat * 4096
def Region.scaleBase (r : Region) : Nat := (r.scale.extractLsb' 4 44).toNat * 16
def Region.enabled (r : Region) : Bool := r.ctl.getLsbD 0
def Region.format (r : Region) : BitVec 4 := r.ctl.extractLsb' 4 4
def Region.layout (r : Region) : BitVec 2 := r.ctl.extractLsb' 8 2

/-- Bytes of a block's elements, and its scale bytes, by format code (01 R12, R19). -/
def blockBytes (f : BitVec 4) : Nat := if f = 10#4 ∨ f = 12#4 then 16 else 32
def blockScales (f : BitVec 4) : Nat := if f = 11#4 ∨ f = 12#4 then 2 else 1

/-- Side-band bytes that the blocks of one line use (02 R48). -/
def lineScales (f : BitVec 4) : Nat := 128 / blockBytes f * blockScales f

/-- Bytes of the scale array of a region (02 R52). -/
def Region.scaleSize (r : Region) : Nat := (r.hi - r.lo) / blockBytes r.format * blockScales r.format

/-- Do two address ranges meet? -/
def rangesMeet (a b c d : Nat) : Bool := decide (a < d) && decide (c < b)

/-- ERR of a write that sets EN of region `k` of quadrant `q` (02 R52): the first check that fails, 0 for none. -/
def regionError (q k : Nat) (all : List Region) (r : Region) : Nat :=
  let first := q * 0x2000000000
  let inside (a b : Nat) : Bool := decide (first ≤ a) && decide (b ≤ first + 0x2000000000)
  let others := ((all.zipIdx).filter (fun x => x.2 != k && x.1.enabled)).map (·.1)
  let f := r.format.toNat
  if f < 8 ∨ 12 < f then 1
  else if 2 ≤ r.layout.toNat then 2
  else if r.hi ≤ r.lo ∨ !inside r.lo r.hi then 3
  else if !inside r.scaleBase (r.scaleBase + r.scaleSize) then 4
  else if others.any (fun o => rangesMeet r.lo r.hi o.lo o.hi) then 5
  else if (r :: others).any (fun o => rangesMeet r.scaleBase (r.scaleBase + r.scaleSize) o.lo o.hi) then 6
  else 0

/-- The enabled region of a quadrant whose element range holds an address. -/
def findRegion (pa : Nat) : List Region → Option Region
  | [] => none
  | r :: rest => if r.enabled && decide (r.lo ≤ pa) && decide (pa < r.hi) then some r else findRegion pa rest

/-- The region that governs a physical address (02 R54). -/
def State.regionOf (s : State) (pa : Nat) : Option Region :=
  match paKind pa with
  | .hbm q => match s.quads[q]? with
    | some qd => findRegion pa qd.regions
    | none => none
  | _ => none

/-- Where the scale bytes of a line lie (02 R54). -/
def Region.lineScaleAddr (r : Region) (line : Nat) : Nat :=
  r.scaleBase + (128 * line - r.lo) / blockBytes r.format * blockScales r.format

/-- The set of a line: its quadrant, and one of the 2^21 sets of its slice (02 R45; log 74). -/
def llcSet (line : Nat) : Nat × Nat := (line / 2 ^ 30, line % 2 ^ 21)

/-- The part of the device that a line of memory belongs to and that is fenced with it: the channel of HBM, the bank group of
the weight store. -/
def sameLineUnit (a b : Nat) : Bool :=
  if (paKind a).isWs && (paKind b).isWs then memQuad a == memQuad b && bankGroup a == bankGroup b
  else (paKind a).isHbm && (paKind b).isHbm && hbmStack a == hbmStack b && hbmChannel a == hbmChannel b

/-- Does an access of a line wait for a self-test (14 R361): of its LLC set, of its HBM channel where the slice does not hold the line or
the access is memory-side, or of its bank group of the weight store? -/
def State.waitsAt (s : State) (line : Nat) (ms : Bool) : Bool :=
  s.tests.any (fun t => !t.verdict && (match t.unit with
    | .line pa =>
      if t.code = 2 ∨ t.code = 3 then (paKind (128 * line)).isHbm && llcSet (pa / 128) == llcSet line
      else sameLineUnit pa (128 * line) && ((paKind pa).isWs || ms || !s.llcHas line)
    | _ => false))

/-- The line that holds the scales of a line of a format region (02 R54). -/
def State.scaleLine (s : State) (line : Nat) : Option Nat := (s.regionOf (128 * line)).map (fun r => r.lineScaleAddr line / 128)

/-- Does an access of a line, or the fill of its scales with it, wait for a self-test? -/
def State.heldLine (s : State) (line : Nat) (ms : Bool) : Bool :=
  s.waitsAt line ms || (!s.llcHas line && (s.scaleLine line).any (fun l => s.waitsAt l false))

/-- Is a line poisoned for who reads it: itself, or the line that holds its scales, which are read with it (02 R49, R54)? While its unit
is under test who reads it waits (14 R361). -/
def State.linePoisoned (s : State) (line : Nat) : Bool :=
  (s.poison.contains line || (s.scaleLine line).any s.poison.contains) && !s.heldLine line false

/-- The lines that `n` bytes at a physical address lie in. -/
def linesOf (pa n : Nat) : List Nat := (List.range ((pa % 128 + n + 127) / 128)).map (· + pa / 128)

/-- Is an address in the element range or the scale array of an enabled region (02 R60)? -/
def inRegion (pa : Nat) : List Region → Bool
  | [] => false
  | r :: rest =>
    (r.enabled && ((decide (r.lo ≤ pa) && decide (pa < r.hi)) ||
      (decide (r.scaleBase ≤ pa) && decide (pa < r.scaleBase + r.scaleSize)))) || inRegion pa rest
def State.regionCovers (s : State) (pa : Nat) : Bool :=
  match paKind pa with
  | .hbm q => match s.quads[q]? with
    | some qd => inRegion pa qd.regions
    | none => false
  | _ => false

/-- The side-band of a physical line: decoded scales in a format region, the stored side-band in the weight store, zeros
elsewhere (02 R48, R54, R55, R64). -/
def State.lineSide (s : State) (line : Nat) : Side :=
  match s.regionOf (128 * line) with
  | some r =>
    ⟨BitVec.ofNat 128 (s.mem.num (r.lineScaleAddr line) (lineScales r.format)), some r.format⟩
  | none => if (paKind (128 * line)).isWs then s.mem.side line else Side.none

/-- The chosen bytes of a side-band laid over an old one. -/
def mergeBand (old new : BitVec 128) (which : BitVec 16) : Nat → BitVec 128
  | 0 => old
  | n + 1 =>
    let r := mergeBand old new which n
    if which.getLsbD n then setBits r (8 * n) (new.extractLsb' (8 * n) 8) else r

/-- The chosen scale bytes of a line written to its region's scale array (02 R55, 09 R234). -/
def writeScales (m : Mem) (base : Nat) (d : SideStore) : Nat → Mem
  | 0 => m
  | n + 1 =>
    let m' := writeScales m base d n
    if d.which.getLsbD n then m'.setByte (base + n) (d.band.extractLsb' (8 * n) 8) else m'

/-- The side-band part of a store entering at a physical line (09 R234): both views of the scales in a format region, the
stored side-band in the weight store, discarded elsewhere. -/
def State.storeSide (s : State) (line : Nat) (d : SideStore) : State :=
  match s.regionOf (128 * line) with
  | some r => { s with mem := writeScales s.mem (r.lineScaleAddr line) d (lineScales r.format) }
  | none =>
    if (paKind (128 * line)).isWs then
      { s with mem := s.mem.setSide line ⟨mergeBand (s.mem.side line).band d.band d.which 16, d.fmt⟩ }
    else s

/-- The scale-array bytes that are the other view of a side-band stored at a physical address (02 R55). -/
def State.sideAlso (s : State) (pa : Nat) (side : Option SideStore) : List Host.Cell :=
  match side, s.regionOf pa with
  | some d, some r => (List.range (lineScales r.format)).filterMap (fun i =>
      if d.which.getLsbD i then some (r.lineScaleAddr (pa / 128) + i, d.band.extractLsb' (8 * i) 8) else none)
  | _, _ => []

/-! ### Updates of the tables -/

def State.modWave (s : State) (w : Nat) (f : Wave → Wave) : State := { s with waves := s.waves.modify w f }
def State.modGroup (s : State) (g : Nat) (f : Group → Group) : State := { s with groups := s.groups.modify g f }
def State.modCtx (s : State) (c : Nat) (f : Ctx → Ctx) : State := { s with ctxs := s.ctxs.modify c f }
def State.modCore (s : State) (c : Nat) (f : Core → Core) : State := { s with cores := s.cores.modify c f }
def State.modQuad (s : State) (q : Nat) (f : Quad → Quad) : State := { s with quads := s.quads.modify q f }
def State.modCopy (s : State) (q : Nat) (f : CopyReq → CopyReq) : State := { s with copies := s.copies.modify q f }
def State.modCmd (s : State) (k : Nat) (f : MCmd → MCmd) : State := { s with cmds := s.cmds.modify k f }
def State.modArray (s : State) (core a : Nat) (f : ArrayUnit → ArrayUnit) : State :=
  s.modCore core fun k => { k with arrays := k.arrays.modify a f }

def State.allWaves (s : State) (f : Wave → Wave) : State := { s with waves := s.waves.map f }
def State.allGroups (s : State) (f : Group → Group) : State := { s with groups := s.groups.map f }
def State.allQuads (s : State) (f : Quad → Quad) : State := { s with quads := s.quads.map f }
def State.allCtxs (s : State) (f : Ctx → Ctx) : State := { s with ctxs := s.ctxs.map f }
def State.allCores (s : State) (f : Core → Core) : State := { s with cores := s.cores.map f }
def State.allCopies (s : State) (f : CopyReq → CopyReq) : State := { s with copies := s.copies.map f }

def State.modLaunch (s : State) (l : Nat) (f : Launch → Launch) : State := { s with launches := s.launches.modify l f }
def State.modTree (s : State) (t : Nat) (f : Tree → Tree) : State := { s with trees := s.trees.modify t f }
def State.modRing (s : State) (r : Nat) (f : Ring → Ring) : State := { s with rings := s.rings.modify r f }
def State.modRun (s : State) (r : Nat) (f : GraphRun → GraphRun) : State := { s with runs := s.runs.modify r f }
def State.modObj (s : State) (o : Nat) (f : Obj → Obj) : State := { s with objs := s.objs.modify o f }
def State.modBegun (s : State) (k : Nat) (f : Begun → Begun) : State := { s with begun := s.begun.modify k f }
def State.modDomain (s : State) (d : Nat) (f : Domain → Domain) : State := { s with domains := s.domains.modify d f }

/-- A fresh free value: the next draw (log 5). -/
def State.draw (s : State) : DWord × State := (Config.freeWord s.draws, { s with draws := s.draws + 1 })

end Sys2Proof.Machine
end

