-- ==== Sys2Proof/Machine/Translate.lean ====
section
/-! DEFINITION. Traps as data, virtual addresses, the page walk, Publish Buffer resolution and the TLBs
(02 R69-R77, 03 R96, 14 R337). -/

namespace Sys2Proof.Machine

/-! ### Traps (14 R335-R337) -/

def causeIllegal : BitVec 6 := 0x01#6
def causeZeroWord : BitVec 6 := 0x02#6
def causePriv : BitVec 6 := 0x03#6
def causeMisalign : BitVec 6 := 0x04#6
def causeXlateRd : BitVec 6 := 0x05#6
def causeXlateWr : BitVec 6 := 0x06#6
def causeXlateFetch : BitVec 6 := 0x07#6
def causeProt : BitVec 6 := 0x08#6
def causePcRange : BitVec 6 := 0x09#6
def causeMarker : BitVec 6 := 0x0A#6
def causeTrapInsn : BitVec 6 := 0x0B#6
def causeBarrier : BitVec 6 := 0x0C#6
def causeCopy : BitVec 6 := 0x0D#6
def causeMatrix : BitVec 6 := 0x0E#6
def causeRace : BitVec 6 := 0x0F#6
def causeSample : BitVec 6 := 0x10#6
def causeEnq : BitVec 6 := 0x11#6
def causeEcc : BitVec 6 := 0x12#6
def causeReplayAbort : BitVec 6 := 0x13#6

/-- What a trap reports (14 R335, R336). -/
structure TrapInfo where
  cause : BitVec 6
  detail : BitVec 8 := 0#8
  kind : BitVec 4 := 0#4
  xcause : BitVec 6 := 0#6
  lane : Option Nat := none
  ewave : Nat := 0
  addr : DWord := 0#64
  tag : BitVec 16 := 0#16
  low : BitVec 40 := 0#40
  deriving DecidableEq, Repr

/-- A trap with a cause and an address only. -/
def trapAt (cause : BitVec 6) (addr : DWord) : TrapInfo := { cause := cause, addr := addr }

/-! ### Publish Buffers (03 R96) -/

/-- Quadword `k` of entry `n` of a context's Publish Buffer table. -/
def State.pbQuad (s : State) (c n k : Nat) : DWord :=
  match s.ctxs[c]? with
  | some x => s.mem.quad (x.act.pbTable.toNat + 32 * n + 8 * k)
  | none => 0#64

def State.pbEnabled (s : State) (c n : Nat) : Bool := (s.pbQuad c n 0).getLsbD 0
def State.pbBase (s : State) (c n : Nat) : Nat := ((s.pbQuad c n 0).extractLsb' 16 41).toNat * 65536
def State.pbSize (s : State) (c n : Nat) : Nat := ((s.pbQuad c n 3).extractLsb' 0 32).toNat * 65536
def State.pbGen (s : State) (c n : Nat) : Word := (s.pbQuad c n 3).extractLsb' 32 32

/-- The physical base of the backing that a generation reads (02 R73). -/
def State.pbBacking (s : State) (c n : Nat) (g : Word) : Nat :=
  ((s.pbQuad c n (if g.getLsbD 0 then 2 else 1)).extractLsb' 16 32).toNat * 65536

/-- The physical address of an entry of a context's Publish Buffer table. -/
def State.pbEntry (s : State) (c n : Nat) : Option Nat := (s.ctxs[c]?).map (fun x => x.act.pbTable.toNat + 32 * n)

/-- The line of an entry of a context's Publish Buffer table. -/
def State.pbLine (s : State) (c n : Nat) : List Nat := ((s.pbEntry c n).map (· / 128)).toList

/-! ### Page-table entries (02 R70, R71) -/

def pteValid (e : DWord) : Bool := e.getLsbD 0
def pteW (e : DWord) : Bool := e.getLsbD 1
def pteX (e : DWord) : Bool := e.getLsbD 2
def pteMs (e : DWord) : Bool := e.getLsbD 3
def pteSize (e : DWord) : Nat := (e.extractLsb' 5 3).toNat
def pteTable (e : DWord) : Bool := e.getLsbD 8
def ptePb (e : DWord) : Bool := e.getLsbD 9
def ptePa (e : DWord) : Nat := (e.extractLsb' 12 36).toNat * 4096
def ptePbIdx (e : DWord) : Nat := (e.extractLsb' 56 8).toNat

/-- The reserved fields are zero. -/
def pteReservedOk (e : DWord) : Bool :=
  e.extractLsb' 48 8 == 0#8 && e.extractLsb' 10 2 == 0#2 && !e.getLsbD 4

/-- log2 of the page size a SIZE code names (02 R70). -/
def pageLog (size : Nat) : Nat :=
  match size with
  | 0 => 12 | 1 => 16 | 2 => 21 | 3 => 25 | _ => 29

/-- Is a leaf of this SIZE allowed at a level (02 R71)? -/
def sizeAllowed (level size : Nat) : Bool :=
  (level = 0 && decide (size ≤ 1)) || (level = 1 && decide (2 ≤ size) && decide (size ≤ 4))

/-- Are the 16 entries of a table line equal to one entry (02 R71)? -/
def sameEntries (m : Mem) (lineAddr : Nat) (e : DWord) : Nat → Bool
  | 0 => true
  | n + 1 => m.quad (lineAddr + 8 * n) == e && sameEntries m lineAddr e n

/-- Fault kinds of 02 R75. -/
def kindNonCanon : BitVec 4 := 1#4
def kindNotMapped : BitVec 4 := 2#4
def kindBadPte : BitVec 4 := 3#4
def kindBadPa : BitVec 4 := 4#4
def kindNoWrite : BitVec 4 := 1#4
def kindNoExec : BitVec 4 := 2#4
def kindWStore : BitVec 4 := 3#4

/-- The fields of a leaf that do not depend on the address (02 R70, R75 check 4). -/
def leafOk (level : Nat) (e : DWord) : Bool :=
  pteReservedOk e && sizeAllowed level (pteSize e) &&
  (if ptePb e then ptePa e == 0 else ptePbIdx e == 0 && ptePa e % 2 ^ pageLog (pteSize e) == 0)

/-- The walk from a table of level `n - 1` (02 R69, R71): the leaf entry, or a fault kind. Entries are checked in the
order in which the walk meets them (log 17). -/
def walk (m : Mem) (va : Nat) : Nat → Nat → Except (BitVec 4) DWord
  | 0, _ => .error kindBadPte
  | n + 1, table =>
    if (paKind table).isHbm then
      let idx := va / 2 ^ (12 + 9 * n) % 512
      let e := m.quad (table + 8 * idx)
      if !pteValid e then .error kindNotMapped
      else if pteTable e then
        if n = 0 || !pteReservedOk e || decide (5 ≤ pteSize e) || ptePb e || decide (ptePbIdx e ≠ 0) then .error kindBadPte
        else walk m va n (ptePa e)
      else if leafOk n e && (pteSize e = 0 || pteSize e = 2 || sameEntries m (table + idx / 16 * 128) e 16) then .ok e
      else .error kindBadPte
    else .error kindBadPa

/-- The lines of tables that a walk reads (02 R72). -/
def walkLines (m : Mem) (va : Nat) : Nat → Nat → List Nat
  | 0, _ => []
  | n + 1, table =>
    if (paKind table).isHbm then
      let at_ := table + 8 * (va / 2 ^ (12 + 9 * n) % 512)
      let e := m.quad at_
      at_ / 128 :: (if pteValid e && pteTable e then walkLines m va n (ptePa e) else [])
    else []

/-- The entries above the leaf that a walk goes through, with their levels (02 R72). -/
def walkTables (m : Mem) (va : Nat) : Nat → Nat → List (Nat × DWord)
  | 0, _ => []
  | n + 1, table =>
    let e := m.quad (table + 8 * (va / 2 ^ (12 + 9 * n) % 512))
    if (paKind table).isHbm && pteValid e && pteTable e then (n, e) :: walkTables m va n (ptePa e) else []

/-! ### Translation (02 R72-R75) -/

/-- The kind of an access. -/
inductive Acc where
  | rd | wr | fetch
  deriving DecidableEq, Repr

/-- The cause of a translation fault of an access (02 R75). -/
def Acc.cause : Acc → BitVec 6
  | .rd => causeXlateRd
  | .wr => causeXlateWr
  | .fetch => causeXlateFetch

/-- A translated address: the physical address, and whether the line is memory-side (02 R60). -/
structure Xlat where
  pa : Nat
  ms : Bool
  deriving DecidableEq, Repr

/-- Bits [63:56] are all equal (02 R69). -/
def canonical (va : DWord) : Bool := va.extractLsb' 56 8 == 0x00#8 || va.extractLsb' 56 8 == 0xFF#8

/-- The 57 significant bits of an address. -/
def vaBits (va : DWord) : Nat := (va.extractLsb' 0 57).toNat

/-- A TLB entry that serves an address at an adopted generation (02 R72, R73). -/
def TlbEntry.hits (t : TlbEntry) (c va : Nat) (gen : Nat → Word) : Bool :=
  decide (t.ctx = c) && decide (va / 2 ^ t.sizeLog = t.page) &&
  (!ptePb t.leaf || t.gen == some (gen (ptePbIdx t.leaf)))

/-- The quadrant of a core (00 R1). -/
def coreQuad (core : Nat) : Nat := core / 40

/-- The TLB entry that serves an access of a core: its instruction or data TLB, then the shared TLB of its quadrant (02 R72).
An agent that is not on a core uses none (log 75). -/
def State.tlbEntry (s : State) (core : Option Nat) (acc : Acc) (c : Nat) (gen : Nat → Word) (va : Nat) : Option TlbEntry :=
  match core with
  | none => none
  | some k =>
    let own := match s.cores[k]? with
      | some x => if acc = .fetch then x.itlb else x.tlb
      | none => []
    let shared := match s.quads[coreQuad k]? with
      | some q => q.stlb
      | none => []
    (own ++ shared).find? (fun (t : TlbEntry) => t.hits c va gen)

/-- Where a walk begins: at the entry nearest the leaf that the page-walk cache of the quadrant holds, else at the root
(02 R69, R72): the levels left and the table. -/
def State.walkStart (s : State) (core : Option Nat) (c va : Nat) : Nat × Nat :=
  let root := (5, match s.ctxs[c]? with
    | some x => (x.act.ptroot.extractLsb' 12 36).toNat * 4096
    | none => 0)
  match core.bind (fun k => s.quads[coreQuad k]?) with
  | none => root
  | some q =>
    match [1, 2, 3, 4].findSome? (fun l => q.pwc.find? (fun e =>
        e.ctx == c && e.level == l && e.page == va / 2 ^ (12 + 9 * l))) with
    | some e => (e.level, ptePa e.entry)
    | none => root

/-- The leaf of an address: from a TLB, else by a walk (02 R72). -/
def State.leafOf (s : State) (core : Option Nat) (acc : Acc) (c : Nat) (gen : Nat → Word) (va : Nat) :
    Except (BitVec 4) DWord :=
  match s.tlbEntry core acc c gen va with
  | some t => .ok t.leaf
  | none => match s.ctxs[c]? with
    | some _ => walk s.mem va (s.walkStart core c va).1 (s.walkStart core c va).2
    | none => .error kindNotMapped

/-- The lines that a translation reads when no TLB serves it: the tables of its walk, and of a Publish Buffer page the entry of the
buffer, which the walker checks (02 R72, R73). -/
def State.xlatLines (s : State) (core : Option Nat) (acc : Acc) (c : Nat) (gen : Nat → Word) (va : Nat) : List Nat :=
  match s.tlbEntry core acc c gen va with
  | some _ => []
  | none =>
    walkLines s.mem va (s.walkStart core c va).1 (s.walkStart core c va).2 ++ (match s.leafOf core acc c gen va with
      | .ok e => if ptePb e then s.pbLine c (ptePbIdx e) else []
      | .error _ => [])

/-- The poisoned table line that the translation for an access meets (02 R49). -/
def State.walkPoison (s : State) (core : Option Nat) (acc : Acc) (c : Nat) (gen : Nat → Word) (va : Nat) : Option Nat :=
  if s.poison.isEmpty then none else (s.xlatLines core acc c gen va).find? s.linePoisoned

/-- Hold a translation in a TLB of `size` entries; a full one replaces an entry (02 R72; log 75). -/
def putTlb (draw size : Nat) (l : List TlbEntry) (t : TlbEntry) : List TlbEntry :=
  t :: (if l.length < size then l else l.eraseIdx (Config.tlbVictim draw (l.map (·.page)) % l.length))

/-- Hold a translation in a shared TLB of 16,384 entries in 2048 sets of 8 ways (02 R72; log 75). -/
def putShared (draw : Nat) (l : List TlbEntry) (t : TlbEntry) : List TlbEntry :=
  let mine (x : TlbEntry) : Bool := x.page % 2048 == t.page % 2048
  putTlb draw 8 (l.filter mine) t ++ l.filter (fun x => !mine x)

/-- Hold entries above the leaf in a page-walk cache of 4096 entries (02 R72; log 75). -/
def putWalk (draw : Nat) (l : List WalkEntry) (e : WalkEntry) : List WalkEntry :=
  let rest := l.filter (· != e)
  e :: (if rest.length < 4096 then rest
    else rest.eraseIdx (Config.tlbVictim draw (rest.map (·.page)) % rest.length))

/-- The end of a walk of a core: its instruction TLB for a fetch and its data TLB for another access, the shared TLB and the page-walk
cache of its quadrant hold what it found (02 R72). -/
def State.fillTlbs (s : State) (core : Nat) (acc : Acc) (t : TlbEntry) (va : Nat) : State :=
  let ups := (walkTables s.mem va (s.walkStart (some core) t.ctx va).1 (s.walkStart (some core) t.ctx va).2).map
    (fun e => (⟨t.ctx, e.1, va / 2 ^ (12 + 9 * e.1), e.2⟩ : WalkEntry))
  let s1 := s.modCore core (fun k =>
    if acc = .fetch then { k with itlb := putTlb s.draws 32 k.itlb t } else { k with tlb := putTlb s.draws 256 k.tlb t })
  { s1.modQuad (coreQuad core) (fun q => { q with
      stlb := putShared s.draws q.stlb t, pwc := ups.foldl (putWalk s.draws) q.pwc }) with draws := s.draws + 1 }

/-- Drop the translations that a test names from every TLB, shared TLB and page-walk cache (02 R74). -/
def State.dropXlats (s : State) (t : TlbEntry → Bool) (e : WalkEntry → Bool) : State :=
  (s.allCores (fun k => { k with itlb := k.itlb.filter (fun x => !t x), tlb := k.tlb.filter (fun x => !t x) })).allQuads
    (fun q => { q with stlb := q.stlb.filter (fun x => !t x), pwc := q.pwc.filter (fun x => !e x) })

/-- The physical address a leaf gives (02 R70, R73): Publish Buffer pages by the generation the accessor uses. -/
def State.resolveLeaf (s : State) (c : Nat) (gen : Nat → Word) (va : Nat) (e : DWord) : Except (BitVec 4) Nat :=
  if ptePb e then
    let n := ptePbIdx e
    if s.pbEnabled c n && decide (s.pbBase c n ≤ va) && decide (va < s.pbBase c n + s.pbSize c n) then
      let pa := s.pbBacking c n (gen n) + (va - s.pbBase c n)
      if s.reachable pa then .ok pa else .error kindBadPa
    else .error kindBadPte
  else
    let sz := 2 ^ pageLog (pteSize e)
    if s.reachable (ptePa e) then .ok (ptePa e + va % sz) else .error kindBadPa

/-- Checks 2 to 8 of 02 R75 on the byte at an address. `wsWrite` lets a write reach the weight store (03 R103). A walk that
meets a poisoned table line meets an uncorrectable error (02 R49; log 76), and a fetch from a place that no fetch reaches fails
check 5 (02 R41; log 77). -/
def State.translate (s : State) (core : Option Nat) (c : Nat) (gen : Nat → Word) (acc : Acc) (wsWrite : Bool)
    (va : DWord) : Except TrapInfo Xlat :=
  if !canonical va then .error { cause := acc.cause, kind := kindNonCanon, addr := va }
  else match s.walkPoison core acc c gen (vaBits va) with
  | some line => .error { cause := causeEcc, detail := BitVec.ofNat 8 (s.lineClass line), addr := va &&& ~~~0x7F#64 }
  | none => match s.leafOf core acc c gen (vaBits va) with
    | .error k => .error { cause := acc.cause, kind := k, addr := va }
    | .ok e => match s.resolveLeaf c gen (vaBits va) e with
      | .error k => .error { cause := acc.cause, kind := k, addr := va }
      | .ok pa =>
        if acc = .fetch && !(paKind pa).fetchable then .error { cause := acc.cause, kind := kindBadPa, addr := va }
        else if acc = .wr && !pteW e then .error { cause := causeProt, kind := kindNoWrite, addr := va }
        else if acc = .fetch && !pteX e then .error { cause := causeProt, kind := kindNoExec, addr := va }
        else if acc = .wr && !wsWrite && (paKind pa).isWs then
          .error { cause := causeProt, kind := kindWStore, addr := va }
        else .ok ⟨pa, pteMs e && (paKind pa).isHbm && !s.regionCovers pa⟩

/-- The generations a wave has adopted (05 R136). -/
def Wave.gen (w : Wave) (n : Nat) : Word := w.adopted.getD n 0#32

/-- Translate for a wave. -/
def State.waveXlat (s : State) (w : Wave) (acc : Acc) (va : DWord) : Except TrapInfo Xlat :=
  s.translate (some w.core) w.ctx w.gen acc false va

/-- Translate for an agent that is not a wave: Publish Buffers by their current generation (02 R73). -/
def State.agentXlat (s : State) (c : Nat) (acc : Acc) (va : DWord) : Except TrapInfo Xlat :=
  s.translate none c (s.pbGen c) acc false va

/-! ### Windows (04 R117, R118) -/

def scratchWindow : Nat := 0xFF00000000000000
def regWindow : Nat := 0xFF00000000200000

/-- The window an address lies in. -/
inductive Window where
  | none
  | scratch (off : Nat)
  | reg (off : Nat)
  deriving DecidableEq, Repr

def windowOf (va : DWord) : Window :=
  let a := va.toNat
  if scratchWindow ≤ a ∧ a < scratchWindow + 0x200000 then .scratch (a - scratchWindow)
  else if regWindow ≤ a ∧ a < regWindow + 0x100000 then .reg (a - regWindow)
  else .none

/-- Is a register-window byte present (04 R117, 14 R335)? -/
def Wave.regPresent (w : Wave) (off : Nat) : Bool :=
  decide (off < 128 * w.numV) ||
  (decide (0x40000 ≤ off) && decide (off < 0x40000 + 1024 * w.numH)) ||
  (decide (0x80000 ≤ off) && decide (off < 0x80000 + 8192 * w.numB)) ||
  (w.handler && decide (0xF0000 ≤ off) && decide (off < 0xF0040))

/-- Is a frame byte one that a store may change: SM0, S60, S61, S62 (14 R335)? -/
def frameWritable (off : Nat) : Bool :=
  (decide (0xF0020 ≤ off) && decide (off < 0xF0024)) || (decide (0xF0028 ≤ off) && decide (off < 0xF0040))

/-- Scratchpad bytes of a wave's group. -/
def State.scratchSize (s : State) (w : Wave) : Nat :=
  match s.groups[w.group]? with
  | some g => g.scratchSize
  | none => 0

end Sys2Proof.Machine
end

