-- ==== Sys2Proof/Machine/Report.lean ====
section
/-! DEFINITION. Error responses and MSI-X vectors (19 R398, R403). -/

namespace Sys2Proof.Machine

/-- Kinds of error responses (19 R403). -/
def errQueue : Nat := 1
def errContext : Nat := 2
def errResume : Nat := 3
def errPeerDown : Nat := 4
def errCkptPort : Nat := 5
def errDegraded : Nat := 6
def errThermal : Nat := 7
def errRefused : Nat := 8
def errGlintLog : Nat := 9

/-- The context field of a response that concerns none (19 R403). -/
def noContext : BitVec 32 := 0xFFFFFFFF#32

/-- Raise an MSI-X vector (19 R398). -/
def State.raise (s : State) (v : Nat) : State := { s with msix := s.msix ++ [v] }

/-- Records the error ring holds (19 R399, R403). -/
def State.errSlots (s : State) : Nat := 2 ^ ((s.errSize.extractLsb' 0 4).toNat + 6)

/-- The place of host memory that an address on the host's own bus names (19 R399; log 20). -/
def hostBus (a : DWord) : Nat := 0x800000000000 + a.toNat % 2 ^ 47

/-- An error response (19 R403): a record in the host's ring and vector 0, or one more dropped record. -/
def State.report (s : State) (kind code : Nat) (ctx : BitVec 32) (addr : DWord) (place launch : Nat) : State :=
  if s.errBase = 0#64 ∨ (s.errWptr - s.errRptr).toNat = s.errSlots then { s with errDropped := s.errDropped + 1 }
  else
    let at_ := hostBus s.errBase + 32 * (s.errWptr.toNat % s.errSlots)
    let rec_ := bytesOfNat 4 (kind % 256 + 256 * (code % 256)) ++ bytesOfNat 4 ctx.toNat ++ bytesOfNat 8 addr.toNat ++
      bytesOfNat 4 place ++ bytesOfNat 4 launch ++ bytesOfNat 4 s.errSeq.toNat ++ bytesOfNat 4 s.errDropped.toNat
    ({ s with mem := s.mem.write at_ rec_, errWptr := s.errWptr + 1, errSeq := s.errSeq + 1, errDropped := 0#32 }).raise 0

/-! ### The lifetime record (14 R365) -/

/-- A counter of the record. -/
def State.lifeAt (s : State) (off : Nat) : DWord := (lookupSorted off s.life).getD 0#64

/-- Count one, saturating. -/
def State.lifeAdd (s : State) (off : Nat) : State :=
  let x := s.lifeAt off
  if x = 0xFFFFFFFFFFFFFFFF#64 then s else { s with life := updateSorted off (some (x + 1#64)) s.life }

def ltCe (u : Nat) : Nat := 0x40 * u
def ltUe (u : Nat) : Nat := 0x40 * u + 0x08
def ltReplay (u : Nat) : Nat := 0x40 * u + 0x10
def ltRollback (u : Nat) : Nat := 0x40 * u + 0x18
def ltPass (u : Nat) : Nat := 0x40 * u + 0x20
def ltFail (u : Nat) : Nat := 0x40 * u + 0x28
def ltAbort (u : Nat) : Nat := 0x40 * u + 0x30
def ltHist (u b : Nat) : Nat := 0x400 + 0x80 * (u - 1) + 8 * b
def ltCore (c : Nat) : Nat := 0x800 + 8 * c
def ltLane : Nat := 0xD00
def ltHours : Nat := 0xD08

/-! ### Replays (14 R362) -/

/-- Do two units do the same kind of work? A wave takes its work along when it moves to another core (14 R362). -/
def sameWork : HwUnit → HwUnit → Bool
  | .core _, .core _ => true
  | .array _ a, .array _ b => a == b
  | .copyEngine _, .copyEngine _ => true
  | u, v => u == v

/-- Is this the replayed work of a unit, for a wave where the work is one wave's? -/
def Replay.isOf (r : Replay) (u : HwUnit) (wave : Option Nat) : Bool :=
  r.wave == wave && (if wave.isSome then sameWork r.unit u else r.unit == u)

/-- Replays made in succession of a piece of work. -/
def State.replayCount (s : State) (u : HwUnit) (wave : Option Nat) : Nat :=
  ((s.replays.find? (fun r => r.isOf u wave)).map (·.count)).getD 0

/-- A piece of work has completed without an error: a replay of it is complete, and is counted (14 R365). -/
def State.workDone (s : State) (u : HwUnit) (wave : Option Nat) : State :=
  (s.replays.filter (fun r => r.isOf u wave)).foldl (fun t r => t.lifeAdd (ltReplay r.code))
    { s with replays := s.replays.filter (fun r => !r.isOf u wave) }

end Sys2Proof.Machine
end

