-- ==== Sys2Proof/Machine/Registers.lean ====
section
/-! DEFINITION. The named operations over a wave's registers, and the writing of variable-latency results
(06 R158-R163, R173; 08 R205, R206). -/

namespace Sys2Proof.Machine

/-! ### Scalar and mask registers (06 R158, R173) -/

/-- S(n): s0 reads zero. -/
def Wave.s (w : Wave) (n : Nat) : DWord := if n = 0 then 0#64 else w.sregs.getD n 0#64

/-- SetS(n, x): writes to s0 are discarded. -/
def Wave.setS (w : Wave) (n : Nat) (x : DWord) : Wave := if n = 0 then w else { w with sregs := w.sregs.set n x }

/-- M(n): m7 reads all ones. -/
def Wave.m (w : Wave) (n : Nat) : Word := if n = 7 then 0xFFFFFFFF#32 else w.masks.getD n 0#32

/-- SetM(n, x): writes to m7 are discarded. -/
def Wave.setM (w : Wave) (n : Nat) (x : Word) : Wave := if n = 7 then w else { w with masks := w.masks.set n x }

/-- Active(l). -/
def Wave.active (w : Wave) (l : Nat) : Bool := (w.m 0).getLsbD l

/-- Is any lane active? -/
def Wave.anyActive (w : Wave) : Bool := w.m 0 != 0#32

/-- The active lanes in ascending order. -/
def Wave.activeLanes (w : Wave) : List Nat := (List.range 32).filter w.active

/-! ### Vector, hypervector and bundle registers -/

/-- A vector register of zeros without a format (04 R112). -/
def VReg.zero : VReg := ⟨0#1024, Side.none⟩

def Wave.vreg (w : Wave) (n : Nat) : VReg := w.vregs.getD n VReg.zero

/-- Add a mark to a list of marks. -/
def addMark {α : Type} [DecidableEq α] (l : List α) (x : α) : List α := if x ∈ l then l else l ++ [x]

/-- Write a vector register, marking its pool line dirty (04 R116). -/
def Wave.setVreg (w : Wave) (n : Nat) (v : VReg) : Wave :=
  { w with vregs := w.vregs.set n v, dirty := addMark w.dirty n }

/-- Lane `l` of a line. -/
def laneOf (d : Line) (l : Nat) : Word := d.extractLsb' (32 * l) 32

/-- V(n, l). -/
def Wave.v (w : Wave) (n l : Nat) : Word := laneOf (w.vreg n).data l

/-- A line with lane `l` replaced. -/
def setLane (d : Line) (l : Nat) (x : Word) : Line := setBits d (32 * l) x

/-- A line built lane by lane over the lanes of a mask; the other lanes keep what `old` holds (08 R205). -/
def mergeLanes (mask : Word) (old : Line) (f : Nat → Word) : Nat → Line
  | 0 => old
  | n + 1 => if mask.getLsbD n then setLane (mergeLanes mask old f n) n (f n) else mergeLanes mask old f n

/-- The line of a lane function. -/
def lineOf (f : Nat → Word) : Line := mergeLanes 0xFFFFFFFF#32 0#1024 f 32

def Wave.hv (w : Wave) (n : Nat) : Hyper := w.hvs.getD n 0#8192

/-- The mark of a pool line of a hyper block, by its byte offset in the block (04 R114, R116; log 18). -/
def hyperMark (off : Nat) : Nat := 0x1000 + off / 128

/-- Write lines of a hypervector register: the pool lines written become dirty (04 R116). -/
def Wave.setHvLines (w : Wave) (n : Nat) (lines : List Nat) (x : Hyper) : Wave :=
  { w with
    hvs := w.hvs.set n x
    dirty := lines.foldl (fun l k => addMark l (hyperMark (8192 * w.numB + 1024 * n + 128 * k))) w.dirty }

/-- Write lines of a bundle accumulator: the pool lines written become dirty (04 R116). -/
def Wave.setBaLines (w : Wave) (n : Nat) (lines : List Nat) (x : Bundle) : Wave :=
  { w with
    bas := w.bas.set n x
    dirty := lines.foldl (fun l k => addMark l (hyperMark (8192 * n + 128 * k))) w.dirty }

def Wave.setHv (w : Wave) (n : Nat) (x : Hyper) : Wave := w.setHvLines n (List.range 8) x
def Wave.ba (w : Wave) (n : Nat) : Bundle := w.bas.getD n 0#65536
def Wave.setBa (w : Wave) (n : Nat) (x : Bundle) : Wave := w.setBaLines n (List.range 64) x

/-- Write lanes of a vector register as a form of chapter 08 does: the active lanes take the results, and when a lane is
active the side-band becomes `side` (08 R205, R206). -/
def Wave.writeLanes (w : Wave) (n : Nat) (mask : Word) (side : Side) (f : Nat → Word) : Wave :=
  if mask = 0#32 then w else w.setVreg n ⟨mergeLanes mask (w.vreg n).data f 32, side⟩

/-! ### Variable-latency results (06 R161-R164) -/

/-- Write the chosen units of an outstanding result: lanes, the whole scalar, or 128-byte lines (06 R163). -/
def Wave.applyOut (w : Wave) (o : Out) (units : Nat) : Wave :=
  match o with
  | .s n v => w.setS n v
  | .v n lanes data side => w.writeLanes n (lanes &&& BitVec.ofNat 32 units) side (laneOf data)
  | .h n lines data =>
    let ks := (List.range 8).filter (fun k => lines.getLsbD k && (BitVec.ofNat 8 units).getLsbD k)
    w.setHvLines n ks (ks.foldl (fun acc k => setBits acc (1024 * k) (data.extractLsb' (1024 * k) 1024)) (w.hv n))

/-- What is left of an outstanding result once some units are written. -/
def Out.rest (o : Out) (units : Nat) : Option Out :=
  match o with
  | .s _ _ => none
  | .v n lanes data side =>
    let left := lanes &&& ~~~(BitVec.ofNat 32 units)
    if left = 0#32 then none else some (.v n left data side)
  | .h n lines data =>
    let left := lines &&& ~~~(BitVec.ofNat 8 units)
    if left = 0#8 then none else some (.h n left data)

/-- Replace, or remove, the entry at a position. -/
def putAt {α : Type} (l : List α) (k : Nat) (x : Option α) : List α :=
  match x with
  | some y => l.set k y
  | none => l.eraseIdx k

/-- What stays outstanding at peers of the results that equal `o`, once some units of it are written (19 R407). -/
def farRest (far : List (Nat × Out × Out)) (o : Out) (units : Nat) : List (Nat × Out × Out) :=
  far.filterMap (fun f => if f.2.2 = o then (o.rest units).bind (fun r => (f.2.1.rest units).map (fun a => (f.1, a, r)))
    else some f)

/-- Write units of the k-th outstanding result of a wave. -/
def Wave.writeOut (w : Wave) (k units : Nat) : Wave :=
  match w.outs[k]? with
  | some o => { w.applyOut o units with outs := putAt w.outs k (o.rest units), far := farRest w.far o units }
  | none => w

/-- All units of any result. -/
def allUnits : Nat := 0xFFFFFFFF

/-- Write every outstanding result, in the order of issue (06 R164). -/
def Wave.drainOuts (w : Wave) : Wave :=
  { w.outs.foldl (fun v o => v.applyOut o allUnits) w with outs := [], far := [] }

/-- The register an outstanding result belongs to: class (0 scalar, 1 vector, 3 hypervector) and number. -/
def Out.reg : Out → Nat × Nat
  | .s n _ => (0, n)
  | .v n _ _ _ => (1, n)
  | .h n _ _ => (3, n)

/-- Write the outstanding results of one register before the wave's own window reaches it (04 R119). -/
def Wave.deliver (w : Wave) (r : Nat × Nat) : Wave :=
  { (w.outs.filter (fun o => o.reg == r)).foldl (fun v o => v.applyOut o allUnits) w with
    outs := w.outs.filter (fun o => o.reg != r), far := w.far.filter (fun f => f.2.2.reg != r) }

/-- A result with the units in which `alt` differs from `base`. -/
def Out.blend (o alt base : Out) : Out :=
  match o, alt, base with
  | .v n lanes d side, .v _ _ x _, .v _ _ y _ =>
    .v n lanes (lineOf (fun l => if laneOf x l = laneOf y l then laneOf d l else laneOf x l)) side
  | .h n lines d, .h _ _ x, .h _ _ y => .h n lines ((List.range 8).foldl (fun z k =>
      if x.extractLsb' (1024 * k) 1024 = y.extractLsb' (1024 * k) 1024 then z
      else setBits z (1024 * k) (x.extractLsb' (1024 * k) 1024)) d)
  | _, x, _ => x

/-- The loads of a wave outstanding at a peer whose link fails return what a failed link gives (19 R407). -/
def Wave.loseFar (w : Wave) (p : Nat) : Wave :=
  (w.far.filter (fun f => f.1 == p)).foldl (fun v f => { v with
    outs := v.outs.map (fun o => if o = f.2.2 then f.2.1 else o)
    far := v.far.filterMap (fun g => if g.2.2 = f.2.2 then
        (if g.1 = p then none else some (g.1, f.2.1.blend g.2.1 g.2.2, f.2.1))
      else some g) }) w

/-- Add an outstanding result; a result to s0 writes nothing. -/
def Wave.addOut (w : Wave) (o : Out) : Wave :=
  match o with
  | .s 0 _ => w
  | .v _ 0#32 _ _ => w
  | _ => { w with outs := w.outs ++ [o] }

/-! ### Register-window bytes (04 R117, R119; 14 R335) -/

/-- The eight quadwords of a trap frame (14 R335). -/
def Frame.quads (f : Frame) : List DWord :=
  [ 0#21 ++ f.ewave ++ (if f.lanev then 1#1 else 0#1) ++ f.lane ++ f.xcause ++ f.kind ++ f.detail ++ 0#2 ++ f.cause,
    f.tpc, f.addr, 0#8 ++ f.low ++ f.tag, 0#32 ++ f.sm0, f.s60, f.s61, f.s62 ]

/-- The 64 bytes of a frame. -/
def Frame.byte (f : Frame) (i : Nat) : BitVec 8 := (f.quads.getD (i / 8) 0#64).extractLsb' (8 * (i % 8)) 8

/-- Store a byte into the writable fields of a frame. -/
def Frame.setByte (f : Frame) (i : Nat) (b : BitVec 8) : Frame :=
  if 32 ≤ i ∧ i < 36 then { f with sm0 := setBits f.sm0 (8 * (i - 32)) b }
  else if 40 ≤ i ∧ i < 48 then { f with s60 := setBits f.s60 (8 * (i - 40)) b }
  else if 48 ≤ i ∧ i < 56 then { f with s61 := setBits f.s61 (8 * (i - 48)) b }
  else if 56 ≤ i ∧ i < 64 then { f with s62 := setBits f.s62 (8 * (i - 56)) b }
  else f

/-- The register a window byte belongs to. -/
def winReg (off : Nat) : Nat × Nat :=
  if off < 0x40000 then (1, off / 128)
  else if off < 0x80000 then (3, (off - 0x40000) / 1024)
  else (4, (off - 0x80000) / 8192)

/-- Read a byte of the register window. -/
def Wave.winByte (w : Wave) (off : Nat) : BitVec 8 :=
  if off < 0x40000 then lineByte (w.vreg (off / 128)).data (off % 128)
  else if off < 0x80000 then (w.hv ((off - 0x40000) / 1024)).extractLsb' (8 * (off % 1024)) 8
  else if off < 0xF0000 then (w.ba ((off - 0x80000) / 8192)).extractLsb' (8 * (off % 8192)) 8
  else w.frame.byte (off - 0xF0000)

/-- Write a byte of the register window: the line's side-band and format become none (04 R119). -/
def Wave.setWinByte (w : Wave) (off : Nat) (b : BitVec 8) : Wave :=
  if off < 0x40000 then w.setVreg (off / 128) ⟨setBits (w.vreg (off / 128)).data (8 * (off % 128)) b, Side.none⟩
  else if off < 0x80000 then
    w.setHvLines ((off - 0x40000) / 1024) [off % 1024 / 128] (setBits (w.hv ((off - 0x40000) / 1024)) (8 * (off % 1024)) b)
  else if off < 0xF0000 then
    w.setBaLines ((off - 0x80000) / 8192) [off % 8192 / 128] (setBits (w.ba ((off - 0x80000) / 8192)) (8 * (off % 8192)) b)
  else { w with frame := w.frame.setByte (off - 0xF0000) b }

/-- The mark of the pool line that holds a byte of the register window; the frame lies in none (04 R114, R117; log 18). -/
def Wave.winMark (w : Wave) (off : Nat) : Option Nat :=
  if off < 0x40000 then some (off / 128)
  else if off < 0x80000 then some (hyperMark (8192 * w.numB + (off - 0x40000)))
  else if off < 0xF0000 then some (hyperMark (off - 0x80000))
  else none

/-- The side-band of a line of the register window (09 R233). -/
def Wave.winSide (w : Wave) (off : Nat) : Side := if off < 0x40000 then (w.vreg (off / 128)).side else Side.none

/-- OR a flag set into SR_FPFLAGS (01 R29). -/
def Wave.orFlags (w : Wave) (f : Flags) : Wave := { w with fpflags := w.fpflags ||| f }

end Sys2Proof.Machine
end

