-- ==== Sys2Proof/Machine/Descriptor.lean ====
section
/-! DEFINITION. The raw fields of descriptors and extension blocks, and what a copy request waits for (03 R82-R95). -/

namespace Sys2Proof.Machine

/-- A block of quadwords as one number, the lowest address first. -/
def quadsNat : List DWord → Nat
  | [] => 0
  | q :: rest => q.toNat + 2 ^ 64 * quadsNat rest

/-- `n` bytes at byte `b` of a block. -/
def fieldAt (x b n : Nat) : Nat := x / 2 ^ (8 * b) % 2 ^ (8 * n)

/-- Bits [lo + len - 1 : lo] of a quadword. -/
def bitsOf (q : DWord) (lo len : Nat) : Nat := q.toNat / 2 ^ lo % 2 ^ len

/-- A quadword of a list. -/
def qAt (l : List DWord) (n : Nat) : DWord := l.getD n 0#64

/-- The quadwords of a list of bytes. -/
def quadsOf (bs : List (BitVec 8)) (n : Nat) : List DWord :=
  (List.range n).map (fun k => BitVec.ofNat 64 (natOfBytes ((bs.drop (8 * k)).take 8)))

/-- Ring parameters (03 R92). -/
def ringFull (ext : List DWord) : Nat := bitsOf (qAt ext 8) 0 21
def ringEmpty (ext : List DWord) : Nat := bitsOf (qAt ext 8) 32 21
def ringSeq (ext : List DWord) : Nat := bitsOf (qAt ext 9) 0 32
def ringSlot (ext : List DWord) : Nat := bitsOf (qAt ext 9) 32 21
def ringCount (ext : List DWord) : Nat := bitsOf (qAt ext 9) 56 7

/-- The follow-on quadwords FQ0 to FQ3 (03 R94). -/
def followQuads (ext : List DWord) : List DWord := (ext.drop 10).take 4

/-- The barrier object and the phase number that a request waits for: the empty barrier of its slot in ring mode (03 R93), and
the WBAR barrier of its follow-on (03 R95). -/
def CopyReq.waitsOn (q : CopyReq) : Option (Nat × Word) :=
  let q0 := qAt q.desc 0
  let f3 := qAt q.ext 13
  match q.st with
  | .queued | .ringwait | .pubhold =>
    if q0.getLsbD 23 then some (ringEmpty q.ext + 16 * (ringSeq q.ext % ringCount q.ext),
      BitVec.ofNat 32 (ringSeq q.ext / ringCount q.ext))
    else none
  | .followwait => if f3.getLsbD 53 then some (bitsOf f3 32 21, (qAt q.ext 12).extractLsb' 32 32) else none
  | _ => none

/-- PhaseReached (04 R126). -/
def phaseReached (phase p : Word) : Bool := decide ((phase - p).toNat < 2 ^ 31)

/-- The phase number of the barrier object at an offset of a group's scratchpad (04 R122). -/
def Group.phaseAt (g : Group) (off : Nat) : Word := (g.scratch.quad off).extractLsb' 0 32

/-- Has the line of a barrier object an uncorrectable error: its phase cannot be read (04 R110)? -/
def State.barBad (s : State) (g off : Nat) : Bool := s.bad.contains (.groupPool g (off / 128))

/-- After a write to a group's scratchpad, the waits of its waves and copy requests whose phase is reached are satisfied, and
stay so (04 R126). -/
def State.noteReached (s : State) (g : Nat) : State :=
  match s.groups[g]? with
  | none => s
  | some x => { s with
      waves := s.waves.map (fun w => match w.st with
        | .blocked off p => if w.group = g ∧ s.barBad g off = false ∧ phaseReached (x.phaseAt off) p then { w with reached := true } else w
        | _ => w)
      copies := s.copies.map (fun q => match q.waitsOn with
        | some (off, p) =>
          if q.host.isNone ∧ q.group = g ∧ s.barBad g off = false ∧ phaseReached (x.phaseAt off) p then { q with reached := true } else q
        | none => q) }

end Sys2Proof.Machine
end

