-- ==== Sys2Proof/Machine/Numbers.lean ====
section
/-! DEFINITION. Numbers as the device stores and computes them: formats, exact values, rounding, conversions, blocks,
dot products (01 R12-R38). Encodings are natural numbers here; the callers hold them in words. -/

namespace Sys2Proof.Machine

/-- A rounding mode (01 R21). -/
inductive RoundMode where
  | rne | rtz | rdn | rup
  deriving DecidableEq, Repr

/-- The mode a two-bit code names (01 R21). -/
def RoundMode.ofCode (c : BitVec 2) : RoundMode :=
  if c = 0#2 then .rne else if c = 1#2 then .rtz else if c = 2#2 then .rdn else .rup

/-- An element format (01 R12). -/
inductive ElemFmt where
  | fp32 | bf16 | fp16 | e4m3 | e5m2 | int8 | uint8 | int32 | mxe4m3 | mxe5m2 | mxfp4 | dx8 | dx4
  deriving DecidableEq, Repr

/-- The format a code names; codes 13 to 15 name none (01 R12, R13). -/
def ElemFmt.ofCode (c : Nat) : Option ElemFmt :=
  match c with
  | 0 => some .fp32 | 1 => some .bf16 | 2 => some .fp16 | 3 => some .e4m3 | 4 => some .e5m2
  | 5 => some .int8 | 6 => some .uint8 | 7 => some .int32 | 8 => some .mxe4m3 | 9 => some .mxe5m2
  | 10 => some .mxfp4 | 11 => some .dx8 | 12 => some .dx4 | _ => none

/-- The code of a format (01 R12). -/
def ElemFmt.code : ElemFmt → Nat
  | .fp32 => 0 | .bf16 => 1 | .fp16 => 2 | .e4m3 => 3 | .e5m2 => 4 | .int8 => 5 | .uint8 => 6 | .int32 => 7
  | .mxe4m3 => 8 | .mxe5m2 => 9 | .mxfp4 => 10 | .dx8 => 11 | .dx4 => 12

/-- Element width in bits (01 R12). -/
def ElemFmt.width : ElemFmt → Nat
  | .fp32 | .int32 => 32
  | .bf16 | .fp16 => 16
  | .e4m3 | .e5m2 | .int8 | .uint8 | .mxe4m3 | .mxe5m2 | .dx8 => 8
  | .mxfp4 | .dx4 => 4

/-- Is it a block format (01 R12)? -/
def ElemFmt.isBlock : ElemFmt → Bool
  | .mxe4m3 | .mxe5m2 | .mxfp4 | .dx8 | .dx4 => true
  | _ => false

/-- Is it one of the two DX formats (01 R18)? -/
def ElemFmt.isDx : ElemFmt → Bool
  | .dx8 | .dx4 => true
  | _ => false

/-- Is it an integer format (01 R16)? -/
def ElemFmt.isInt : ElemFmt → Bool
  | .int8 | .uint8 | .int32 => true
  | _ => false

/-- Scale bytes per block (01 R12): 1 for MX, 2 for DX, 0 otherwise. -/
def ElemFmt.scaleBytes (f : ElemFmt) : Nat := if f.isDx then 2 else if f.isBlock then 1 else 0

/-- The layout of a floating-point format (01 R14, R15): fraction and exponent widths, bias, whether an exponent of
all ones means Inf or NaN, the canonical NaN, and the encoding of the largest finite magnitude. -/
structure FloatFmt where
  frac : Nat
  expo : Nat
  bias : Nat
  hasInf : Bool
  canonNaN : Option Nat
  maxMag : Nat
  deriving DecidableEq, Repr

def FloatFmt.fp32 : FloatFmt := ⟨23, 8, 127, true, some 0x7FC00000, 0x7F7FFFFF⟩
def FloatFmt.bf16 : FloatFmt := ⟨7, 8, 127, true, some 0x7FC0, 0x7F7F⟩
def FloatFmt.fp16 : FloatFmt := ⟨10, 5, 15, true, some 0x7E00, 0x7BFF⟩
def FloatFmt.e4m3 : FloatFmt := ⟨3, 4, 7, false, some 0x7F, 0x7E⟩
def FloatFmt.e5m2 : FloatFmt := ⟨2, 5, 15, true, some 0x7E, 0x7B⟩
def FloatFmt.e2m1 : FloatFmt := ⟨1, 2, 1, false, none, 0x7⟩
/-- FP64, used only inside the advantage computation (13 R330). -/
def FloatFmt.fp64 : FloatFmt := ⟨52, 11, 1023, true, some 0x7FF8000000000000, 0x7FEFFFFFFFFFFFFF⟩

/-- The sign bit of a format as a number. -/
def FloatFmt.signBit (f : FloatFmt) : Nat := 2 ^ (f.frac + f.expo)

/-- The floating-point layout of the elements of a format, where it has one (01 R14, R17). -/
def ElemFmt.float? : ElemFmt → Option FloatFmt
  | .fp32 => some .fp32 | .bf16 => some .bf16 | .fp16 => some .fp16
  | .e4m3 | .mxe4m3 => some .e4m3 | .e5m2 | .mxe5m2 => some .e5m2 | .mxfp4 => some .e2m1
  | _ => none

/-- The range of an integer format (01 R16). -/
def ElemFmt.intLo : ElemFmt → Int
  | .int8 => -128 | .int32 => -2147483648 | _ => 0
def ElemFmt.intHi : ElemFmt → Int
  | .int8 => 127 | .uint8 => 255 | .int32 => 2147483647 | _ => 0

/-- An exact value: NaN, a signed infinity, or (-1)^neg * m * 2^e; m = 0 is a signed zero (01 R14, R23). -/
inductive Num where
  | nan
  | inf (neg : Bool)
  | fin (neg : Bool) (m : Nat) (e : Int)
  deriving DecidableEq, Repr

/-- Multiply a value by a power of two, exactly. -/
def Num.scale (x : Num) (k : Int) : Num :=
  match x with
  | .fin n m e => .fin n m (e + k)
  | y => y

/-- The sign of a value; a NaN counts as positive (01 R35). -/
def Num.neg : Num → Bool
  | .nan => false
  | .inf n => n
  | .fin n _ _ => n

/-- Negate a value. -/
def Num.negate : Num → Num
  | .nan => .nan
  | .inf n => .inf (!n)
  | .fin n m e => .fin (!n) m e

/-- Is it a finite number? -/
def Num.isFin : Num → Bool
  | .fin _ _ _ => true
  | _ => false

/-- The exact value of an integer. -/
def Num.ofInt (v : Int) : Num := .fin (decide (v < 0)) v.natAbs 0

/-- Exact value of an encoding of a floating-point format (01 R14, R15). -/
def decodeFloat (f : FloatFmt) (b : Nat) : Num :=
  let neg := decide (1 ≤ b / f.signBit % 2)
  let mag := b % f.signBit
  let ex := mag / 2 ^ f.frac
  let fr := mag % 2 ^ f.frac
  if f.maxMag < mag then
    if f.hasInf && decide (fr = 0) then .inf neg else .nan
  else if ex = 0 then .fin neg fr (1 - (f.bias : Int) - f.frac)
  else .fin neg (2 ^ f.frac + fr) ((ex : Int) - f.bias - f.frac)

/-- Round the magnitude `m * 2^e` to a multiple of `2^q`: the multiple and whether the rounding was inexact. `away`
says that a directed mode rounds away from zero here, `near` that the mode is to nearest, ties to even (01 R21). -/
def roundMag (near away : Bool) (m : Nat) (e q : Int) : Nat × Bool :=
  if m = 0 then (0, false)
  else if q ≤ e then (m * 2 ^ (e - q).toNat, false)
  else
    let d := (q - e).toNat
    if Nat.log2 m + 2 ≤ d then (if away then 1 else 0, true)
    else
      let k := m / 2 ^ d
      let r := m % 2 ^ d
      let h := 2 ^ (d - 1)
      let up := if near then decide (h < r) || (decide (r = h) && decide (k % 2 = 1)) else away && decide (r ≠ 0)
      (if up then k + 1 else k, decide (r ≠ 0))

/-- Does a mode round a value of this sign away from zero (01 R21)? -/
def RoundMode.away (mode : RoundMode) (neg : Bool) : Bool :=
  match mode with
  | .rdn => neg
  | .rup => !neg
  | _ => false

/-- Is the mode RNE? -/
def RoundMode.near (mode : RoundMode) : Bool := decide (mode = .rne)

/-- Put a sign on a magnitude encoding. -/
def FloatFmt.signed (f : FloatFmt) (neg : Bool) (mag : Nat) : Nat := if neg then f.signBit + mag else mag

/-- The infinity encoding of a format that has one. -/
def FloatFmt.infMag (f : FloatFmt) : Nat := f.maxMag + 1

/-- The result of an overflow (01 R24): the largest magnitude, an infinity, or the canonical NaN. -/
def overflowResult (f : FloatFmt) (mode : RoundMode) (neg : Bool) : Nat :=
  let toMax := match mode with
    | .rne => false
    | .rtz => true
    | .rdn => !neg
    | .rup => neg
  if toMax then f.signed neg f.maxMag
  else if f.hasInf then f.signed neg f.infMag
  else match f.canonNaN with
    | some n => n
    | none => f.signed neg f.maxMag

/-- RoundTo followed by Sat when `sat` holds, with the flags (01 R22-R26). -/
def roundTo (f : FloatFmt) (mode : RoundMode) (sat : Bool) (x : Num) : Nat × Flags :=
  match x with
  | .nan =>
    match f.canonNaN with
    | some n => (n, flagNone)
    | none => (0, flagNV)
  | .inf neg =>
    if sat then (f.signed neg f.maxMag, flagSA)
    else if f.hasInf then (f.signed neg f.infMag, flagNone)
    else match f.canonNaN with
      | some n => (n, flagNone)
      | none => (f.signed neg f.maxMag, flagNV)
  | .fin neg m e =>
    if m = 0 then (f.signed neg 0, flagNone)
    else
      let top : Int := (Nat.log2 m : Int) + e
      let emin : Int := 1 - (f.bias : Int) - f.frac
      let q := max (top - f.frac) emin
      let (k, inexact) := roundMag mode.near (mode.away neg) m e q
      let mag := k + (q - emin).toNat * 2 ^ f.frac
      if f.maxMag < mag then
        if sat then (f.signed neg f.maxMag, flagSA ||| flagNX)
        else (overflowResult f mode neg, flagOF ||| flagNX)
      else
        (f.signed neg mag,
          flagIf inexact flagNX ||| flagIf (inexact && decide (top < 1 - (f.bias : Int))) flagUF)

/-- The exact sum of two values, with R23's signed zeros and NV for Inf - Inf (01 R23, R36). -/
def Num.add (mode : RoundMode) (x y : Num) : Num × Flags :=
  match x, y with
  | .nan, _ => (.nan, flagNone)
  | _, .nan => (.nan, flagNone)
  | .inf a, .inf b => if a = b then (.inf a, flagNone) else (.nan, flagNV)
  | .inf a, .fin _ _ _ => (.inf a, flagNone)
  | .fin _ _ _, .inf b => (.inf b, flagNone)
  | .fin a m e, .fin b n g =>
    if m = 0 ∧ n = 0 then
      (.fin (if a = b then a else decide (mode = .rdn)) 0 0, flagNone)
    else if m = 0 then (y, flagNone)
    else if n = 0 then (x, flagNone)
    else
      let l := min e g
      let p : Int := (m * 2 ^ (e - l).toNat : Nat)
      let r : Int := (n * 2 ^ (g - l).toNat : Nat)
      let s := (if a then -p else p) + (if b then -r else r)
      if s = 0 then (.fin (decide (mode = .rdn)) 0 0, flagNone)
      else (.fin (decide (s < 0)) s.natAbs l, flagNone)

/-- ExactProduct (01 R36), with NV for 0 times Inf. -/
def Num.mul (x y : Num) : Num × Flags :=
  match x, y with
  | .nan, _ => (.nan, flagNone)
  | _, .nan => (.nan, flagNone)
  | .inf a, .inf b => (.inf (a != b), flagNone)
  | .inf a, .fin b n _ => if n = 0 then (.nan, flagNV) else (.inf (a != b), flagNone)
  | .fin a m _, .inf b => if m = 0 then (.nan, flagNV) else (.inf (a != b), flagNone)
  | .fin a m e, .fin b n g => (.fin (a != b) (m * n) (e + g), flagNone)

/-- The exact value of a product plus an addend (08 R209). DESIGN CHOICE (log 78): 0 times an infinity sets NV beside a NaN addend
too, which by itself sets no flag. -/
def Num.fma (mode : RoundMode) (x y z : Num) : Num × Flags :=
  let (p, f) := Num.mul x y
  let (s, g) := Num.add mode p z
  (s, f ||| g)

/-- DotStep on an FP32 accumulator encoding (01 R36); the flags are used by the vector dot forms only. -/
def dotStep (acc : Nat) (x y : Num) : Nat × Flags :=
  let (s, f) := Num.fma .rne x y (decodeFloat .fp32 acc)
  let (r, g) := roundTo .fp32 .rne false s
  (r, f ||| g)

/-- Dot: the products in ascending order, one rounding each (01 R36). -/
def dot (acc : Nat) : List (Num × Num) → Nat × Flags
  | [] => (acc, flagNone)
  | (x, y) :: rest =>
    let (r, f) := dotStep acc x y
    let (r', g) := dot r rest
    (r', f ||| g)

/-- Flush: a subnormal of FP32, BF16 or FP16 becomes a zero of its sign (01 R27, R40). -/
def flushable (f : ElemFmt) : Bool :=
  match f with
  | .fp32 | .bf16 | .fp16 => true
  | _ => false

/-- Is this encoding a subnormal of the layout? -/
def FloatFmt.isSubnormal (f : FloatFmt) (b : Nat) : Bool :=
  let mag := b % f.signBit
  decide (mag < 2 ^ f.frac) && decide (mag ≠ 0)

/-- Flush a source encoding under FTZ (01 R27). -/
def flushSource (f : ElemFmt) (ftz : Bool) (b : Nat) : Nat :=
  match f.float? with
  | some l => if ftz && flushable f && l.isSubnormal b then l.signed (decide (1 ≤ b / l.signBit % 2)) 0 else b
  | none => b

/-- Flush a result encoding under FTZ; UF and NX when it was a subnormal (01 R27). -/
def flushResult (f : ElemFmt) (ftz : Bool) (r : Nat × Flags) : Nat × Flags :=
  match f.float? with
  | some l =>
    if ftz && flushable f && l.isSubnormal r.1 then
      (l.signed (decide (1 ≤ r.1 / l.signBit % 2)) 0, r.2 ||| flagUF ||| flagNX)
    else r
  | none => r

/-- The modifiers of R167 as one operation sees them: rounding mode (none: the default), SAT, FTZ. -/
structure Modes where
  mode : Option RoundMode
  sat : Bool
  ftz : Bool
  deriving DecidableEq, Repr

/-- The mode of every operation but a float-to-integer conversion (01 R21). -/
def Modes.round (md : Modes) : RoundMode := md.mode.getD .rne

/-- No modifiers. -/
def Modes.default : Modes := ⟨none, false, false⟩

/-- FpResult on a floating-point format (08 R207). -/
def fpResult (f : ElemFmt) (md : Modes) (x : Num × Flags) : Nat × Flags :=
  match f.float? with
  | some l =>
    let r := flushResult f md.ftz (roundTo l md.round md.sat x.1)
    (r.1, x.2 ||| r.2)
  | none => (0, x.2)

/-- Src: the exact value of a source encoding, flushed under FTZ (08 R207). -/
def srcNum (f : ElemFmt) (md : Modes) (b : Nat) : Num :=
  match f.float? with
  | some l => decodeFloat l (flushSource f md.ftz b)
  | none => .nan

/-- The integer an encoding of an integer format holds (01 R16). -/
def decodeInt (f : ElemFmt) (b : Nat) : Int :=
  match f with
  | .int8 => (BitVec.ofNat 8 b).toInt
  | .int32 => (BitVec.ofNat 32 b).toInt
  | _ => (b % 256 : Nat)

/-- The encoding of an integer in a format, keeping the low bits (01 R16, R34). -/
def encodeInt (f : ElemFmt) (v : Int) : Nat := (v % (2 ^ f.width : Nat)).toNat

/-- ToInt: float to integer (01 R33). -/
def toInt (f : ElemFmt) (mode : RoundMode) (x : Num) : Nat × Flags :=
  match x with
  | .nan => (0, flagNV)
  | .inf neg => (encodeInt f (if neg then f.intLo else f.intHi), flagNV)
  | .fin neg m e =>
    let (k, inexact) := roundMag mode.near (mode.away neg) m e 0
    let v : Int := if neg then -(k : Int) else k
    if v < f.intLo then (encodeInt f f.intLo, flagNV)
    else if f.intHi < v then (encodeInt f f.intHi, flagNV)
    else (encodeInt f v, flagIf inexact flagNX)

/-- NarrowInt: integer to integer (01 R34): a narrower destination keeps the low bits, or clamps under SAT; a wider one
extends. INT8 and UINT8 are of one width, and a conversion between them follows the narrowing rule (log 14). -/
def narrowInt (d s : ElemFmt) (sat : Bool) (v : Int) : Nat × Flags :=
  if s.width < d.width then (encodeInt d v, flagNone)
  else if sat then
    let (c, f) := clampInt d.intLo d.intHi v
    (encodeInt d c, f)
  else (encodeInt d v, flagNone)

/-- The widening pairs of R32's first row that can carry an infinity: their result is exact, and Sat does not apply
(log 15). -/
def widens (d s : ElemFmt) : Bool :=
  match s with
  | .bf16 | .fp16 => decide (d = .fp32)
  | .e4m3 | .e5m2 => decide (d = .fp32) || decide (d = .fp16) || decide (d = .bf16)
  | _ => false

/-- Cvt (08 R214, 01 R32-R34): one value of an unblocked format `s` to an unblocked format `d`. -/
def convert (d s : ElemFmt) (md : Modes) (b : Nat) : Nat × Flags :=
  if s.isInt then
    if d.isInt then narrowInt d s md.sat (decodeInt s b)
    else fpResult d md (Num.ofInt (decodeInt s b), flagNone)
  else if d.isInt then toInt d (md.mode.getD .rtz) (srcNum s md b)
  else fpResult d { md with sat := md.sat && !widens d s } (srcNum s md b, flagNone)

/-! ### Blocks (01 R17-R19, R35) -/

/-- The exact value of an element of a block under its scale bytes (01 R17, R18). -/
def decodeElem (f : ElemFmt) (b : Nat) (scales : List Nat) : Num :=
  match f with
  | .mxe4m3 | .mxe5m2 | .mxfp4 =>
    let x := scales.getD 0 0
    if x = 0xFF then .nan
    else match f.float? with
      | some l => (decodeFloat l b).scale ((x : Int) - 127)
      | none => .nan
  | .dx8 | .dx4 =>
    let ea := scales.getD 0 0
    let eb := scales.getD 1 0
    if ea = 0xFF ∨ eb = 0xFF then .nan
    else
      let w := if f = .dx8 then 8 else 4
      let sel := b / 2 ^ (w - 1) % 2
      let neg := decide (b / 2 ^ (w - 2) % 2 = 1)
      let m := b % 2 ^ (w - 2)
      let sh : Int := if f = .dx8 then 5 else 1
      .fin neg m ((if sel = 1 then (eb : Int) else ea) - 127 - sh)
  | .int8 | .uint8 | .int32 => Num.ofInt (decodeInt f b)
  | _ => match f.float? with
    | some l => decodeFloat l b
    | none => .nan

/-- floor(log2 |x|) of a non-zero finite value; none for zero and specials. -/
def Num.log2? : Num → Option Int
  | .fin _ m e => if m = 0 then none else some ((Nat.log2 m : Int) + e)
  | _ => none

/-- floor(log2(amax)) of a block; none when amax = 0. -/
def amaxLog : List Num → Option Int
  | [] => none
  | x :: rest =>
    match x.log2?, amaxLog rest with
    | none, r => r
    | some a, none => some a
    | some a, some b => some (max a b)

/-- Clamp a scale exponent to 0x00..0xFE. -/
def clampScale (v : Int) : Nat := if v < 0 then 0 else if 254 < v then 254 else v.toNat

/-- One DX element under the two scales (01 R35): sel, sign and magnitude packed, with flags. -/
def quantDx (dx8 : Bool) (mode : RoundMode) (ea eb : Nat) (x : Num) : Nat × Flags :=
  match x with
  | .fin neg m e =>
    let w : Int := if dx8 then 5 else 1
    let mmax := if dx8 then 63 else 3
    let bits := if dx8 then 64 else 4
    let near := mode.near
    let away := decide (mode = .rup)
    let (m1, i1) := roundMag near away m (e + w - ((eb : Int) - 127)) 0
    let s := if neg then bits else 0
    if m1 ≤ mmax then (2 * bits + s + m1, flagIf i1 flagNX)
    else
      let (m0, i0) := roundMag near away m (e + w - ((ea : Int) - 127)) 0
      if mmax < m0 then (s + mmax, flagSA ||| flagNX) else (s + m0, flagIf i0 flagNX)
  | _ => (0, flagNone)

/-- OR the flags of a list of results and keep the values. -/
def joinFlags : List (Nat × Flags) → List Nat × Flags
  | [] => ([], flagNone)
  | (v, f) :: rest => let (vs, g) := joinFlags rest; (v :: vs, f ||| g)

/-- The sign of an element with m = 0 in a block format's encoding. -/
def blockZero (f : ElemFmt) (neg : Bool) : Nat :=
  if neg then
    match f with
    | .dx8 => 0x40 | .dx4 => 0x4 | .mxfp4 => 0x8 | _ => 0x80
  else 0

/-- QuantBlock (01 R35): element encodings, scale bytes and flags. -/
def quantBlock (f : ElemFmt) (mode : RoundMode) (xs : List Num) : List Nat × List Nat × Flags :=
  if xs.all Num.isFin then
    let top := amaxLog xs
    if f.isDx then
      let ea := match top with
        | none => 0
        | some t => clampScale (t + 127)
      let eb := ea - (if f = .dx8 then 5 else 2)
      let (es, fl) := joinFlags (xs.map (quantDx (decide (f = .dx8)) mode ea eb))
      (es, [ea, eb], fl)
    else
      match f.float? with
      | some l =>
        let emax : Int := match f with
          | .mxe4m3 => 8
          | .mxe5m2 => 15
          | _ => 2
        let sc := match top with
          | none => 0
          | some t => clampScale (t - emax + 127)
        let (es, fl) := joinFlags (xs.map fun x => roundTo l mode true (x.scale (127 - (sc : Int))))
        (es, [sc], fl)
      | none => ([], [], flagNone)
  else (xs.map (fun x => blockZero f x.neg), List.replicate f.scaleBytes 0xFF, flagNone)

/-! ### Comparisons (08 R210, R221) -/

/-- Is an FP32 encoding a NaN? -/
def isNaN32 (b : Word) : Bool := decide (0x7F800000#32 < b &&& 0x7FFFFFFF#32)

/-- FP32 order with -0 below +0, as a sortable integer (08 R210). -/
def fpKey (b : Word) : Int :=
  let mag : Int := (b &&& 0x7FFFFFFF#32).toNat
  if b.msb then -mag - 1 else mag

/-- Min and Max of R210. -/
def fpMin (a b : Word) : Word :=
  if isNaN32 a && isNaN32 b then 0x7FC00000#32
  else if isNaN32 a then b else if isNaN32 b then a
  else if fpKey b < fpKey a then b else a
def fpMax (a b : Word) : Word :=
  if isNaN32 a && isNaN32 b then 0x7FC00000#32
  else if isNaN32 a then b else if isNaN32 b then a
  else if fpKey a < fpKey b then b else a

/-- The numeric value of a non-NaN FP32 encoding as a sortable integer: the two zeros are equal (08 R221). -/
def fpNumKey (b : Word) : Int :=
  let mag : Int := (b &&& 0x7FFFFFFF#32).toNat
  if b.msb then -mag else mag

def fpEq (a b : Word) : Bool := !isNaN32 a && !isNaN32 b && decide (fpNumKey a = fpNumKey b)
def fpLt (a b : Word) : Bool := !isNaN32 a && !isNaN32 b && decide (fpNumKey a < fpNumKey b)
def fpLe (a b : Word) : Bool := !isNaN32 a && !isNaN32 b && decide (fpNumKey a ≤ fpNumKey b)
def fpUnordered (a b : Word) : Bool := isNaN32 a || isNaN32 b

end Sys2Proof.Machine
end

