-- ==== Sys2Proof/Machine/Access.lean ====
section
/-! DEFINITION. Accesses of waves: places and checks, the LLC, Glint, the stable view of the L1, loads, entering stores,
atomics (02 R45, R61, R75, R76; 04 R118, R119; 05 R131, R132, R138-R155; 09 R228, R237). -/

namespace Sys2Proof.Machine

/-! ### Checks of one access (09 R228) -/

/-- The lowest of the listed byte offsets that fails a test. -/
def firstBad (ok : Nat → Bool) : List Nat → Option Nat
  | [] => none
  | o :: rest => if ok o then firstBad ok rest else some o

/-- Checks 2 to 8 of 02 R75, or the window checks of 04 R118, on the bytes `va + o` for the listed offsets, and the place of
the access. The offsets lie in one page and one window line. -/
def State.placeOf (s : State) (w : Wave) (acc : Acc) (atomic : Bool) (va : DWord) (offs : List Nat) :
    Except TrapInfo Place :=
  match windowOf va with
  | .none => match s.waveXlat w acc va with
    | .error t => .error t
    | .ok x => .ok (.phys x.pa x.ms)
  | .scratch off =>
    match firstBad (fun o => decide (off + o < s.scratchSize w)) offs with
    | some o => .error { cause := acc.cause, kind := kindNotMapped, addr := va + BitVec.ofNat 64 o }
    | none => .ok (.scratch off)
  | .reg off =>
    match firstBad (fun o => w.regPresent (off + o)) offs with
    | some o => .error { cause := acc.cause, kind := kindNotMapped, addr := va + BitVec.ofNat 64 o }
    | none =>
      if atomic then .error { cause := causeProt, kind := kindNoWrite, addr := va }
      else match firstBad (fun o => decide (acc = .rd) || decide (off + o < 0xF0000) || frameWritable (off + o)) offs with
        | some o => .error { cause := causeProt, kind := kindNoWrite, addr := va + BitVec.ofNat 64 o }
        | none => .ok (.reg off)

/-- Check one access of `len` bytes that must be aligned to `align` (09 R228). -/
def State.checkAccess (s : State) (w : Wave) (acc : Acc) (atomic : Bool) (align : Nat) (va : DWord) (len : Nat) :
    Except TrapInfo Place :=
  if va.toNat % align ≠ 0 then .error (trapAt causeMisalign va)
  else s.placeOf w acc atomic va (List.range len)

/-- The accesses of a vector form before the first that fails a check. -/
def lanesBefore (chk : DWord → Except TrapInfo Place) : List (Nat × DWord) → List (Nat × DWord × Place)
  | [] => []
  | (l, va) :: rest => match chk va with
    | .error _ => []
    | .ok p => (l, va, p) :: lanesBefore chk rest

/-- Check the accesses of a vector form lane by lane; the lowest faulting lane is reported (02 R76). -/
def checkLanes (chk : DWord → Except TrapInfo Place) : List (Nat × DWord) → Except TrapInfo (List (Nat × DWord × Place))
  | [] => .ok []
  | (l, va) :: rest =>
    match chk va with
    | .error t => .error { t with lane := some l }
    | .ok p => match checkLanes chk rest with
      | .error t => .error t
      | .ok ps => .ok ((l, va, p) :: ps)

/-! ### The LLC (02 R45, R54, R57, R58) -/

/-- The compression state of a 512-byte unit (02 R58; log 3). -/
def State.unitState (s : State) (u : Nat) : Nat := (lookupSorted u s.unitStates).getD 0

/-- Bytes read to fill a line of a unit in a state (02 R58). -/
def unitReadBytes (st : Nat) : Nat :=
  match st with
  | 0 => 128 | 1 => 0 | 2 => 128 | 3 => 256 | _ => 384

/-- Bytes written to store a whole unit in a state (02 R58). -/
def unitWriteBytes (st : Nat) : Nat := if st = 0 then 512 else unitReadBytes st

/-- The smallest state that holds a unit losslessly (02 R58). -/
def smallestState (bs : List (BitVec 8)) : Nat :=
  if bs.all (· == 0x00#8) then 1
  else if 2 ≤ Config.compressedState bs ∧ Config.compressedState bs ≤ 4 then Config.compressedState bs else 0

/-- Mark a line of the slice dirty. -/
def State.llcDirty (s : State) (line : Nat) : State :=
  { s with llc := s.llc.map (fun l => if l.line = line then { l with dirty := true } else l) }

/-- Write a unit's compression state. -/
def State.setUnit (s : State) (u st : Nat) : State :=
  { s with unitStates := updateSorted u (if st = 0 then none else some st) s.unitStates }

/-- Count bytes transferred to and from the stacks of a line's quadrant, and bytes that compression saved (02 R51). -/
def State.countHbm (s : State) (line rd wr saved : Nat) : State :=
  s.modQuad (quadOf (128 * line)) (fun q => { q with
    rdBytes := q.rdBytes + BitVec.ofNat 64 rd, wrBytes := q.wrBytes + BitVec.ofNat 64 wr
    cmpSaved := q.cmpSaved + BitVec.ofNat 64 saved })

/-- CMP_EN of a line's quadrant (02 R51). -/
def State.compressing (s : State) (line : Nat) : Bool :=
  match s.quads[quadOf (128 * line)]? with
  | some x => x.mcCtl.getLsbD 0
  | none => false

/-- A fill looks for the unit's state in the metadata cache of 1 MiB, which holds the 3-bit states of 2^23 / 3 units; a miss
reads it from side storage, and the read is counted (02 R58; log 10). -/
def metaCapacity : Nat := 2 ^ 23 / 3
def State.lookMeta (s : State) (line : Nat) : State :=
  let u := line / 4
  let q := quadOf (128 * line)
  match s.quads[q]? with
  | none => s
  | some x =>
    if x.metaUnits.contains u then s
    else
      let kept := if x.metaUnits.length < metaCapacity then x.metaUnits
        else x.metaUnits.eraseIdx (Config.metaVictim s.draws x.metaUnits % x.metaUnits.length)
      { s.modQuad q (fun y => { y with metaUnits := u :: kept, rdBytes := y.rdBytes + BitVec.ofNat 64 Config.metaRead }) with
        draws := s.draws + 1 }

/-- The dirty lines of a unit are written back together (02 R58; log 10): all four give the unit its smallest state when
compression is on; fewer stay as they are in an uncompressed unit, and are merged into a compressed one, which is read first.
Without CMP_EN the unit takes state 0. -/
def State.writeUnit (s : State) (line : Nat) : State :=
  let u := line / 4
  let dirty := (s.llc.filter (fun l => l.line / 4 == u && l.dirty)).length
  let old := s.unitState u
  let small := if s.compressing line then smallestState (s.mem.read (512 * u) 512) else 0
  let s1 := { s with llc := s.llc.map (fun (l : LlcLine) => if l.line / 4 = u then { l with dirty := false } else l) }
  if dirty = 4 then (s1.setUnit u small).countHbm line 0 (unitWriteBytes small) (512 - unitWriteBytes small)
  else if old = 0 then s1.countHbm line 0 (128 * dirty) 0
  else (s1.setUnit u small).countHbm line (unitReadBytes old) (unitWriteBytes small) (128 * dirty - unitWriteBytes small)

/-- Drop a line from its slice, written back when it is dirty (02 R45, R58). -/
def State.llcDrop (s : State) (line : Nat) : State :=
  let s1 := if s.llc.any (fun l => l.line == line && l.dirty) then s.writeUnit line else s
  { s1 with llc := s1.llc.filter (fun l => l.line != line) }

/-- The ways of the set of a line: 16, without those that are fenced (02 R45; 14 R364; log 74). -/
def State.llcWays (s : State) (line : Nat) : Nat := max 1 (16 - s.llcFences.count (llcSet line))

/-- Room in the set of a line: a set whose ways are all taken gives up one line (02 R45; log 74). -/
def State.llcRoom (s : State) (line : Nat) : State :=
  let set := (s.llc.filter (fun l => llcSet l.line == llcSet line)).map (·.line)
  if set.length < s.llcWays line then s
  else ({ s with draws := s.draws + 1 } : State).llcDrop (set.getD (Config.llcVictim s.draws set % set.length) 0)

/-- Bytes that a fill reads beside the line: the scales of a line of a format region whose scale line is not in the slice
(02 R54; log 10). -/
def State.scaleRead (s : State) (line : Nat) : Nat :=
  match s.regionOf (128 * line) with
  | some r => if s.llcHas (r.lineScaleAddr line / 128) then 0 else 16
  | none => 0

/-- Fill a line into its slice with the counts of 02 R51; nothing happens when it is present. -/
def State.llcFill (s : State) (line : Nat) : State :=
  if s.llcHas line then s
  else
    let s1 := (s.llcRoom line).lookMeta line
    let n := unitReadBytes (s1.unitState (line / 4))
    let s2 := s1.countHbm line (n + s1.scaleRead line) 0 (128 - n)
    { s2.modQuad (quadOf (128 * line)) (fun q => { q with llcFills := q.llcFills + 1 }) with
      llc := s2.llc ++ [⟨line, false, [none, none, none, none]⟩] }

/-- A memory-side access finds no copy in the slice and its unit in state 0: a copy is written back and dropped, and a
compressed unit is rewritten (02 R59, R60). -/
def State.leaveSlice (s : State) (line : Nat) : State :=
  let s1 := s.llcDrop line
  let old := s1.unitState (line / 4)
  if old = 0 then s1 else (s1.setUnit (line / 4) 0).countHbm line (unitReadBytes old) 512 0

/-- An access comes to a line whose unit is under test: the turn is put off (14 R361). -/
def State.noteHeld (s : State) (line : Nat) (ms : Bool) : State := { s with stall := s.stall || s.heldLine line ms }

/-- An access of `n` bytes at the home of a physical line: an HBM line without MS is filled into its slice; a memory-side access
is made at the base die, and its bytes are counted (02 R45, R51, R59, R60). -/
def State.homeAccess (s0 : State) (pa : Nat) (ms write : Bool) (n : Nat) : State :=
  let s := s0.noteHeld (pa / 128) ms
  if (paKind pa).isHbm then
    if ms then (s.leaveSlice (pa / 128)).countHbm (pa / 128) (if write then 0 else n) (if write then n else 0) 0
    else if write then (s.llcFill (pa / 128)).llcDirty (pa / 128) else s.llcFill (pa / 128)
  else s

/-- A unit reads or writes `n` bytes at a physical address at the homes of their lines (02 R45, R51). -/
def State.homeRange (s : State) (pa n : Nat) (write : Bool) : State :=
  (linesOf pa n).foldl (fun t l => t.homeAccess (128 * l) false write 128) s

/-- The entry of a buffer is read from its context's table (02 R45; 03 R96). -/
def State.readPb (s : State) (c n : Nat) : State := (s.pbEntry c n).elim s (fun a => s.homeRange a 32 false)

/-- Is the line of an entry poisoned (02 R49)? -/
def State.pbPoison (s : State) (c n : Nat) : Option Nat := (s.pbLine c n).find? s.linePoisoned

/-- The entry that a TLB holds of a leaf for an address (02 R72, R73). -/
def tlbEntryOf (c : Nat) (gen : Nat → Word) (va : Nat) (e : DWord) : TlbEntry :=
  ⟨c, va / 2 ^ pageLog (pteSize e), pageLog (pteSize e), e, if ptePb e then some (gen (ptePbIdx e)) else none⟩

/-- What the translation of an address leaves behind (02 R72): where no TLB serves it, the walk reads its tables through the slices,
and what it found is held in the TLBs of the core. A walk that meets a poisoned line reads nothing. -/
def State.lookUp (s : State) (core : Option Nat) (acc : Acc) (c : Nat) (gen : Nat → Word) (va : DWord) : State :=
  let a := vaBits va
  if !canonical va || (s.walkPoison core acc c gen a).isSome || (s.tlbEntry core acc c gen a).isSome then s
  else
    let s1 := (s.xlatLines core acc c gen a).foldl (fun t l => t.homeAccess (128 * l) false false 128) s
    match core, s.leafOf core acc c gen a with
    | some k, .ok e => s1.fillTlbs k acc (tlbEntryOf c gen a e) a
    | _, _ => s1

/-- The translations that an agent makes for `n` bytes: one for each page that they may lie in. -/
def State.lookUps (s : State) (core : Option Nat) (acc : Acc) (c : Nat) (gen : Nat → Word) (va : DWord) (n : Nat) : State :=
  ((List.range n).filter (fun k => k == 0 || (va.toNat + k) % 4096 == 0)).foldl (fun t k =>
    t.lookUp core acc c gen (va + BitVec.ofNat 64 k)) s

/-- The translations that an agent which is no wave makes for `n` bytes: it holds none of them (02 R72, R73; log 75). -/
def State.agentLooks (s : State) (c : Nat) (acc : Acc) (va : DWord) (n : Nat) : State := s.lookUps none acc c (s.pbGen c) va n

/-- The translation that a wave makes for an access, unless a window holds the address. -/
def State.waveLooks (s : State) (wid : Nat) (acc : Acc) (va : DWord) : State :=
  match s.waves[wid]?, windowOf va with
  | some w, .none => s.lookUp (some w.core) acc w.ctx w.gen va
  | _, _ => s

/-- The translation that a failed check was made by: it has read its tables all the same. -/
def State.failedLooks (s : State) (wid : Nat) (t : TrapInfo) : State :=
  if t.cause = causeXlateRd then s.waveLooks wid .rd t.addr
  else if t.cause = causeXlateWr then s.waveLooks wid .wr t.addr
  else if t.cause = causeXlateFetch then s.waveLooks wid .fetch t.addr
  else if t.cause = causeProt then s.waveLooks wid (if t.kind = kindNoExec then .fetch else .wr) t.addr
  else s

/-- The lines of the slices in a region's element range and scale array are written back and dropped (02 R56). -/
def State.dropRegion (s : State) (r : Region) : State :=
  if r.enabled then
    (s.llc.filter (fun l => (decide (r.lo ≤ 128 * l.line) && decide (128 * l.line < r.hi)) ||
      rangesMeet (128 * l.line) (128 * l.line + 128) r.scaleBase (r.scaleBase + r.scaleSize))).foldl
      (fun t l => t.llcDrop l.line) s
  else s

/-- A region register takes its new contents after the drop of the lines of the old and the new ranges (02 R56). -/
def State.applyRegion (s : State) (q k : Nat) (new : Region) : State :=
  let old := match s.quads[q]? with
    | some x => x.regions.getD k Region.zero
    | none => Region.zero
  ((s.dropRegion old).dropRegion new).modQuad q (fun z => { z with regions := z.regions.set k new })

/-! ### Afterglow's marks on memory (14 R343, R346, R349) -/

/-- The extent and granule of a context's allocation list that hold a physical address. -/
def extentIn (m : Mem) (base pa : Nat) : Nat → Option (Nat × Nat)
  | 0 => none
  | n + 1 =>
    let b := (m.quad (base + 32 * n)).toNat
    let z := (m.quad (base + 32 * n + 16)).toNat
    if b ≤ pa ∧ pa < b + z then some (n, (pa - b) / 65536) else extentIn m base pa n

def State.extentOf (s : State) (c : Ctx) (pa : Nat) : Option (Nat × Nat) :=
  extentIn s.mem c.act.allocBase.toNat pa (c.act.allocN.extractLsb' 0 16).toNat

/-- Mark an item dirty in the open interval; a pending item is streamed before the write enters (14 R349). -/
def Ctx.markItem (c : Ctx) (i : AgItem) : Ctx :=
  if i ∈ c.agPend then
    { c with agPend := c.agPend.filter (· != i), agDone := c.agDone ++ [i], agDirty := addMark c.agDirty i }
  else { c with agDirty := addMark c.agDirty i }

/-- Mark the granule of a physical address dirty in every context that tracks it. -/
def State.markPa (s : State) (pa : Nat) : State :=
  { s with ctxs := s.ctxs.map (fun c => match s.extentOf c pa with
      | some (e, k) => c.markItem (.granule e k)
      | none => c) }

/-- A unit that is no wave writes bytes at a physical address, at the homes of their lines (02 R45; 14 R346). -/
def State.agentStore (s : State) (pa : Nat) (bs : List (BitVec 8)) : State :=
  let s1 := s.homeRange pa bs.length true
  (linesOf pa bs.length).foldl (fun t l => t.markPa (128 * l)) { s1 with mem := s1.mem.write pa bs }

/-- Does a launch come from a bin? -/
def Launch.ofBin (l : Launch) : Bool :=
  match l.origin with
  | .bin _ => true
  | _ => false

/-- Has the context a live kernel (02 R67): a group that has not retired, or a launch in the dispatch list? A bin's launch that has
placed no group is not dispatched while a COPY to the weight store waits, and does not hold it (log 81). -/
def State.liveKernel (s : State) (c : Nat) : Bool :=
  s.groups.any (fun g => g.ctx == c && g.st != .retired) ||
  s.launches.any (fun l => l.ctx == c && l.listed && !(l.ofBin && l.next == 0))

/-! ### Glint (05 R151-R155) -/

/-- MODE of a context's Glint control. -/
def Ctx.glintMode (c : Ctx) : Nat := (c.act.glintCtl.extractLsb' 0 2).toNat

/-- The number of group tags (05 R152): 13 bits. -/
def glintTags : Nat := 8192

/-- GlintCheck's verdict: does the access race with the recorded one? -/
def glintRace (r a : Sector) : Bool :=
  r.gid == a.gid && r.gphase == a.gphase && r.wave != a.wave &&
  (((r.wr && !r.atom) || (a.wr && !a.atom)) || (r.atom && a.atom && (r.scope == 0 || a.scope == 0)))

/-- GlintCheck's update: is the recorded access kept? -/
def glintKeep (r a : Sector) : Bool :=
  r.gid == a.gid && r.gphase == a.gphase && r.wr && !r.atom && !(a.wr && !a.atom)

/-- Write a log record, or set LOGERR (05 R155). DESIGN CHOICE (log 78): a report that is suppressed while LOGERR is set leaves
SEQ as it is. -/
def State.glintLog (s : State) (w : Wave) (pc va : DWord) (r a : Sector) : State :=
  match s.ctxs[w.ctx]? with
  | none => s
  | some c =>
    if c.logErr then s
    else
      let size := 2 ^ ((c.act.glintCtl.extractLsb' 4 4).toNat + 6)
      let at_ := c.act.glintLog + BitVec.ofNat 64 (32 * (c.glintSeq.toNat % size))
      let s1 := s.modCtx w.ctx (fun x => { x with glintSeq := x.glintSeq + 1 })
      match s.agentXlat w.ctx .wr at_ with
      | .error _ => ((s1.agentLooks w.ctx .wr at_ 32).modCtx w.ctx (fun x => { x with logErr := true })).report errGlintLog 0 c.id at_ 0 0
      | .ok x =>
        let q2 := a.gid % 8192 + 2 ^ 13 * (a.wave % 2048) + 2 ^ 24 * (r.wave % 2048) +
          (if a.wr then 2 ^ 35 else 0) + (if a.atom then 2 ^ 36 else 0) + (if r.wr then 2 ^ 37 else 0) +
          (if r.atom then 2 ^ 38 else 0) + 2 ^ 39 * (a.scope % 8) + 2 ^ 42 * (r.scope % 8)
        let s2 := (s1.agentLooks w.ctx .wr at_ 32).homeAccess x.pa x.ms true 32
        { s2 with mem := s2.mem.write x.pa (bytesOfNat 8 va.toNat ++ bytesOfNat 8 pc.toNat ++ bytesOfNat 8 q2 ++
            bytesOfNat 8 c.glintSeq.toNat) }.markPa x.pa

/-- The state of one sector of a line in the slice. -/
def State.sectorOf (s : State) (line k : Nat) : Option Sector :=
  match s.llc.find? (fun l => l.line == line) with
  | some l => (l.sectors.getD k none)
  | none => none

def State.setSector (s : State) (line k : Nat) (x : Sector) : State :=
  { s with llc := s.llc.map (fun l => if l.line = line then { l with sectors := l.sectors.set k (some x) } else l) }

/-- Check one access at the slice against the sector that holds its first byte; no access of a wave spans two sectors.
The result names the earlier wave of a race in trap mode. -/
def State.glintCheck (s : State) (w : Wave) (pc va : DWord) (pa : Nat) (ms atom wr : Bool) (scope : Nat) :
    State × Option Nat :=
  match s.ctxs[w.ctx]?, s.groups[w.group]? with
  | some c, some g =>
    if c.glintMode = 0 || c.glintOff || ms || !(paKind pa).isHbm then (s, none)
    else
      let s1 := s.llcFill (pa / 128)
      let k := pa / 32 % 4
      let a : Sector := ⟨g.gid, w.gphase, w.index, scope, atom, wr⟩
      match s1.sectorOf (pa / 128) k with
      | none => (s1.setSector (pa / 128) k a, none)
      | some r =>
        let s2 := if glintKeep r a then s1 else s1.setSector (pa / 128) k a
        if glintRace r a then
          if c.glintMode = 1 then (s2.glintLog w pc va r a, none) else (s2, some r.wave)
        else (s2, none)
  | _, _ => (s, none)

/-! ### The stable view (05 R139-R145) -/

/-- Does the L1 hold lines of this kind (04 R111)? -/
def l1Holds (pa : Nat) (ms : Bool) : Bool := ((paKind pa).isHbm && !ms) || (paKind pa).isWs

/-- FILL ≥ ACQ(w) on wrapping stamps (05 R142). -/
def stampReached (fill acq : Word) : Bool := decide ((fill - acq).toNat < 2 ^ 31)

/-- The sequence number from which copies of a line may serve a wave: after an atomic, a new one (05 R142); after the loss of a copy
that it has read, one filled since that copy was last updated (05 R139). -/
def Wave.floorOf (w : Wave) (line : Nat) : Nat := (w.floors.find? (fun f => f.1 == line)).elim 0 (·.2)

/-- Raise the floor of a line for a wave. -/
def Wave.raiseFloor (w : Wave) (line seq : Nat) : Wave :=
  { w with floors := (line, max seq (w.floorOf line)) :: w.floors.filter (fun f => f.1 != line) }

/-- Copies are dropped from an L1: the waves of their masks have SNAP_CUR and SNAP_OVF set, and read nothing older than what they
have read (05 R139, R140, R142). -/
def State.loseCopies (s : State) (out : List L1Copy) : State :=
  out.foldl (fun t k => k.readers.foldl (fun u w => u.modWave w (fun x =>
    { x.raiseFloor k.line k.upd with snapCur := true, snapOvf := true })) t) s

/-- May wave `wid` use this copy (05 R142)? -/
def L1Copy.usable (k : L1Copy) (w : Wave) (line : Nat) : Bool :=
  k.line == line && stampReached k.fill w.acq && decide (w.floorOf line ≤ k.seq)

/-- The copy that serves a plain load: the one whose mask holds the wave, else the oldest usable one. -/
def chooseCopy (l1 : List L1Copy) (wid : Nat) (w : Wave) (line : Nat) : Option L1Copy :=
  match l1.find? (fun k => k.line == line && k.readers.contains wid) with
  | some k => some k
  | none => l1.find? (fun k => k.usable w line)

/-- The line that a wave's plain load would fill anew. -/
def State.wouldFill (s : State) (wid : Nat) (w : Wave) (line : Nat) : Bool :=
  match s.cores[w.core]? with
  | some c => (chooseCopy c.l1 wid w line).isNone
  | none => true

/-- Copies that the L1 of a core holds: 640 KiB of lines (04 R109). -/
def l1Lines : Nat := 5120

/-- The copy that a fill evicts: the oldest of four copies of the line, else one of a full L1 (05 R142; 04 R111; log 74). -/
def l1Evicts (draw : Nat) (l1 : List L1Copy) (line : Nat) : Option L1Copy :=
  let same := l1.filter (fun k => k.line == line)
  if 4 ≤ same.length then same.head?
  else if l1Lines ≤ l1.length then l1[Config.l1Victim draw (l1.map (·.line)) % l1.length]?
  else none

/-- Put a new copy into an L1; the readers of a copy that it evicts lose the stable view (05 R139, R142). -/
def State.l1Fill (s : State) (core line : Nat) (readers : List Nat) : State :=
  match s.cores[core]? with
  | none => s
  | some c =>
    let out := l1Evicts s.draws c.l1 line
    let s1 := ({ s with draws := s.draws + (if out.isSome then 1 else 0) } : State).homeAccess (128 * line) false false 128
    let l1 := c.l1.filter (fun k => !(out.any (fun o => o.seq == k.seq)))
    let copy : L1Copy := ⟨line, s.mem.line line, s.lineSide line, c.stamp, c.fillSeq, c.fillSeq, readers⟩
    (s1.loseCopies out.toList).modCore core (fun x => { x with l1 := l1 ++ [copy], fillSeq := x.fillSeq + 1 })

/-- Serve a line to a plain load of a wave (05 R142): the chosen copy, with the wave set in its mask. -/
def State.l1Read (s : State) (wid : Nat) (w : Wave) (line : Nat) : Line × Side × State :=
  match s.cores[w.core]? with
  | none => (s.mem.line line, s.lineSide line, s)
  | some c =>
    match chooseCopy c.l1 wid w line with
    | some k => (k.data, k.side, s.modCore w.core (fun x => { x with l1 := x.l1.map (fun y =>
        if y.seq = k.seq then { y with readers := addMark y.readers wid } else y) }))
    | none => (s.mem.line line, s.lineSide line, s.l1Fill w.core line [wid])

/-- Remove a wave from the reader masks of a core: of one line, or of all. -/
def State.leaveMasks (s : State) (core wid : Nat) (line : Option Nat) : State :=
  s.modCore core (fun c => { c with l1 := c.l1.map (fun k =>
    if line = none ∨ line = some k.line then { k with readers := k.readers.filter (· != wid) } else k) })

/-! ### The wave's own bytes (05 R131, R132) -/

/-- The byte a pending store holds for a place, if it covers it. -/
def PStore.byteAt (p : PStore) (q : Place) : Option (BitVec 8) :=
  match p.place, q with
  | .phys a _, .phys b _ =>
    match (if a ≤ b then p.bytes.getD (b - a) none else none) with
    | some x => some x
    | none => lookupSorted b p.also
  | .scratch a, .scratch b => if a ≤ b then (p.bytes.getD (b - a) none) else none
  | _, _ => none

/-- The latest pending store's byte at a place. -/
def pendingByte (pend : List PStore) (q : Place) : Option (BitVec 8) :=
  pend.foldl (fun r p => match p.byteAt q with
    | some b => some b
    | none => r) none

/-- A place `k` bytes on. -/
def Place.plus (p : Place) (k : Nat) : Place :=
  match p with
  | .phys a ms => .phys (a + k) ms
  | .scratch o => .scratch (o + k)
  | .reg o => .reg (o + k)

/-- The byte a wave sees at a place, given what the memory side returns for it (05 R132). -/
def Wave.seenByte (w : Wave) (q : Place) (shared : BitVec 8) : BitVec 8 :=
  match pendingByte w.pend q with
  | some b => b
  | none => match q with
    | .phys a ms => if l1Holds a ms then (lookupSorted a w.own).getD shared else shared
    | _ => shared

/-! ### Loads (05 R138-R144; 09 R229) -/

/-- Count bytes that cross the Peer Link (07 R203, 19 R417). -/
def State.countPeer (s : State) (pa n : Nat) : State :=
  match paKind pa with
  | .peer _ => { s with peerBytes := s.peerBytes + BitVec.ofNat 64 n }
  | _ => s

/-- The shared byte at a coherence point that the L1 does not hold: scratchpad, memory-side, peer and host lines
(05 R144). -/
def State.homeByte (s : State) (w : Wave) (q : Place) : BitVec 8 :=
  match q with
  | .phys a _ => match paKind a with
    | .peer p => if s.peerUp p then s.mem.byte a else 0xFF#8
    | _ => s.mem.byte a
  | .scratch o => match s.groups[w.group]? with
    | some g => g.scratch.byte o
    | none => 0#8
  | .reg o => w.winByte o

/-- The bytes at offsets 0 to n-1 of a place as a wave sees them. -/
def gatherBytes (w : Wave) (shared : Place → BitVec 8) (p : Place) : Nat → List (BitVec 8)
  | 0 => []
  | n + 1 => gatherBytes w shared p n ++ [w.seenByte (p.plus n) (shared (p.plus n))]

/-- The side-band of a line with what the wave itself has stored to it (05 R132; 02 R55; 09 R234). -/
def State.ownSide (s : State) (w : Wave) (line : Nat) (sd : Side) : Side :=
  match s.regionOf (128 * line) with
  | none => sd
  | some r => { sd with band := (List.range (lineScales r.format)).foldl (fun b i =>
      setBits b (8 * i) (w.seenByte (.phys (r.lineScaleAddr line + i) false) (sd.band.extractLsb' (8 * i) 8))) sd.band }

/-- The side-band of a scratchpad line with the wave's own pending stores to it. -/
def Wave.ownScratchSide (w : Wave) (line : Nat) (sd : Side) : Side :=
  w.pend.foldl (fun b p => match p.place, p.side with
    | .scratch a, some d => if a / 128 = line then ⟨mergeBand b.band d.band d.which 16, d.fmt⟩ else b
    | _, _ => b) sd

/-- A plain load of `n` bytes that lie in one line: its bytes, the side-band of the line, and the state after it. -/
def State.load (s : State) (wid : Nat) (p : Place) (n : Nat) : List (BitVec 8) × Side × State :=
  match s.waves[wid]? with
  | none => ([], Side.none, s)
  | some w =>
    match p with
    | .phys a ms =>
      if l1Holds a ms then
        let (d, sd, s1) := s.l1Read wid w (a / 128)
        (gatherBytes w (fun q => match q with
          | .phys b _ => lineByte d (b % 128)
          | _ => 0#8) p n, s.ownSide w (a / 128) sd, s1)
      else (gatherBytes w (s.homeByte w) p n, Side.none, (s.homeAccess a ms false n).countPeer a n)
    | .scratch o =>
      let sd := match s.groups[w.group]? with
        | some g => w.ownScratchSide (o / 128) (g.scratch.side (o / 128))
        | none => Side.none
      (gatherBytes w (s.homeByte w) p n, sd, s)
    | .reg o =>
      let w1 := w.deliver (winReg o)
      ((List.range n).map (fun k => w1.winByte (o + k)), w1.winSide o, s.modWave wid (fun _ => w1))

/-- Does an access of a wave reach poisoned data: a line of memory (02 R49), or a pool line with an uncorrectable error
(04 R110)? -/
def State.poisoned (s : State) (wid : Nat) (w : Wave) (p : Place) : Bool :=
  match p with
  | .phys a _ => s.linePoisoned (a / 128)
  | .scratch o => s.bad.contains (.groupPool w.group (o / 128))
  | .reg o => (w.winMark o).any (fun k => s.bad.contains (.wavePool wid k))

/-- The class code of the line at a place (14 R360). -/
def State.placeClass (s : State) (p : Place) : Nat :=
  match p with
  | .phys a _ => s.lineClass (a / 128)
  | _ => 1

/-- Does the context hold a committed image? -/
def State.hasImage (s : State) (c : Nat) : Bool :=
  match s.ctxs[c]? with
  | some x => x.image.isSome
  | none => false

/-- A wave meets lost data outside the issue of a word (02 R49; 14 R340, R362): its context rolls back at the end of the step when it has
an image, else ECC is due at its next boundary. -/
def State.dueEcc (s : State) (wid code : Nat) (addr : DWord) : State :=
  match s.waves[wid]? with
  | none => s
  | some w =>
    if s.hasImage w.ctx then s.modCtx w.ctx (fun x => { x with rollBy := some code })
    else s.modWave wid (fun x => { x with due := x.due ++ [⟨causeEcc, BitVec.ofNat 8 code, 0#4, 0#6, addr, 0#16, 0#40⟩] })

/-- Does the plain load reach the line's home, so that poison applies to it, and Glint where it lies in HBM? -/
def State.reachesHome (s : State) (wid : Nat) (w : Wave) (p : Place) : Bool :=
  match p with
  | .phys a ms => !l1Holds a ms || s.wouldFill wid w (a / 128)
  | _ => true

/-! ### Stores that enter their coherence order (05 R131, R142) -/

/-- The bytes that are present in a partial store, with their offsets. -/
def presentBytes : Nat → List (Option (BitVec 8)) → List (Nat × BitVec 8)
  | _, [] => []
  | k, some b :: rest => (k, b) :: presentBytes (k + 1) rest
  | k, none :: rest => presentBytes (k + 1) rest

/-- An L1 copy of the line takes the bytes, and what the store carries of the side-band, when its mask is empty or holds only the
storing wave (05 R142). `next` is the sequence number of the next fill. -/
def L1Copy.update (k : L1Copy) (a : Nat) (bytes : List (Nat × BitVec 8)) (wid : Option Nat) (side : Option SideStore)
    (next : Nat) : L1Copy :=
  if k.line = a / 128 && k.readers.all (fun r => some r == wid) then
    { k with
      upd := next
      data := bytes.foldl (fun d x => setBits d (8 * ((a + x.1) % 128)) x.2) k.data
      side := match side with
        | some d => { k.side with band := mergeBand k.side.band d.band d.which 16 }
        | none => k.side }
  else k

/-- The bytes that a wave releases join what it reads as its own until its next acquiring boundary (05 R132; log 19). -/
def Wave.addOwn (w : Wave) (a : Nat) (bytes : List (Nat × BitVec 8)) : Wave :=
  { w with own := bytes.foldl (fun l x => updateSorted (a + x.1) (some x.2) l) w.own }

/-- The line that holds the scales of a line of a format region is written with it: it is fetched, and dirty, as the other view
of the side-band (02 R55). -/
def State.touchScales (s : State) (line : Nat) : State :=
  match s.regionOf (128 * line) with
  | some r => (s.homeAccess (r.lineScaleAddr line) false true 16).markPa (r.lineScaleAddr line)
  | none => s

/-- What a line takes of a side-band that is stored to it (09 R234): the scale bytes of the region's format, all of it in the weight store,
and nothing of it in another line. -/
def State.heldSide (s : State) (line : Nat) (d : SideStore) : Option SideStore :=
  match s.regionOf (128 * line) with
  | some r => some { d with which := d.which &&& BitVec.ofNat 16 (2 ^ lineScales r.format - 1) }
  | none => if (paKind (128 * line)).isWs then some d else none

/-- Bytes enter the coherence order of physical locations of one line. `wid` is the storing wave and its core, if a wave
stores. Stores to a peer that is not UP are discarded (19 R407). -/
def State.enterPhys (s : State) (who : Option (Nat × Nat)) (a : Nat) (ms : Bool) (bytes : List (Option (BitVec 8)))
    (side : Option SideStore) : State :=
  if ((paKind a).peerOf).any (fun p => !s.peerUp p) then s
  else
    let here := presentBytes 0 bytes
    let s1 := (s.homeAccess a ms true here.length).countPeer a here.length
    let s2 := { s1 with mem := s1.mem.writeSome a bytes }
    let s3 := match side with
      | some d => (s2.touchScales (a / 128)).storeSide (a / 128) d
      | none => s2
    let s4 := match who with
      | some (wid, core) => (s3.modCore core (fun c => { c with
          l1 := c.l1.map (fun (k : L1Copy) => k.update a here (some wid) (side.bind (s.heldSide (a / 128))) c.fillSeq) })).modWave wid (fun w => w.addOwn a here)
      | none => s3
    s4.markPa a

/-- Write bytes of a group's scratchpad, marking the pool lines that they lie in dirty (04 R116). -/
def Group.writeScratch (g : Group) (o : Nat) (bytes : List (Option (BitVec 8))) : Group :=
  { g with
    scratch := g.scratch.writeSome o bytes
    dirty := (presentBytes o bytes).foldl (fun l x => addMark l (x.1 / 128)) g.dirty }

/-- Bytes enter a group's scratchpad, at their home core: a phase that a wait names can be reached by them (04 R125, R126). -/
def State.storeScratch (s : State) (g o : Nat) (bytes : List (Option (BitVec 8))) : State :=
  (s.modGroup g (fun x => x.writeScratch o bytes)).noteReached g

/-- The side-band part of a store to a scratchpad line (09 R234, 10 R262). -/
def Group.writeScratchSide (g : Group) (line : Nat) (d : SideStore) : Group :=
  { g with
    scratch := g.scratch.setSide line ⟨mergeBand (g.scratch.side line).band d.band d.which 16, d.fmt⟩
    dirty := addMark g.dirty line }

/-- One pending store of a wave enters its coherence order (05 R131). -/
def State.enterStore (s : State) (wid : Nat) (w : Wave) (p : PStore) : State :=
  match p.place with
  | .phys a ms => (s.enterPhys (some (wid, w.core)) a ms p.bytes p.side).modWave wid (fun x => { x with
      own := p.also.foldl (fun l c => updateSorted c.1 (some c.2) l) x.own })
  | .scratch o =>
    let s1 := s.storeScratch w.group o p.bytes
    match p.side with
    | some d => s1.modGroup w.group (fun g => g.writeScratchSide (o / 128) d)
    | none => s1
  | .reg _ => s

/-- The k-th pending store of a wave enters and is pending no more. -/
def State.releaseStore (s : State) (wid k : Nat) : State :=
  match s.waves[wid]? with
  | none => s
  | some w => match w.pend[k]? with
    | none => s
    | some p => (s.enterStore wid w p).modWave wid (fun x => { x with pend := x.pend.eraseIdx k })

/-- Do two stores touch a common byte? -/
def PStore.overlaps (p q : PStore) : Bool :=
  (presentBytes 0 p.bytes).any (fun x => (q.byteAt (p.place.plus x.1)).isSome) ||
  p.also.any (fun c => (q.byteAt (.phys c.1 false)).isSome)

/-- The peer line at which an access of a place arrives, if it lies in a peer aperture (19 R406). -/
def Place.peerLine (p : Place) : Option Nat :=
  match p with
  | .phys a _ => ((paKind a).peerOf).map (fun _ => a / 128)
  | _ => none

/-- The peer at which a place lies. -/
def Place.peer (p : Place) : Option Nat :=
  match p with
  | .phys a _ => (paKind a).peerOf
  | _ => none

/-- Do two accesses go to one peer line? They arrive there in program order (19 R406). -/
def Place.samePeerLine (p q : Place) : Bool := p.peerLine.isSome && p.peerLine == q.peerLine

/-- May the k-th pending store enter now: no earlier one touches its bytes (05 R131: program order for each location), and no
earlier access of the wave to its peer line is on its way (19 R406). -/
def Wave.mayRelease (w : Wave) (k : Nat) : Bool :=
  match w.pend[k]? with
  | none => false
  | some p => (w.pend.take k).all (fun q => !(p.overlaps q) && !p.place.samePeerLine q.place) &&
      w.atoms.all (fun a => a.todo.all (fun x => !p.place.samePeerLine x.place))

/-! ### Atomics (02 R61, R62; 05 R143; 09 R237-R239) -/

/-- The new value of an atomic (09 R237) on an operand of 32 or 64 bits. -/
def atomNew (op : AtomOp) (w : Nat) (m v r : BitVec w) : BitVec w :=
  match op with
  | .add => m + v
  | .addF32 => BitVec.ofNat w (roundTo .fp32 .rne false
      (Num.add .rne (decodeFloat .fp32 m.toNat) (decodeFloat .fp32 v.toNat)).1).1
  | .and => m &&& v
  | .or => m ||| v
  | .xor => m ^^^ v
  | .min => if v.slt m then v else m
  | .max => if m.slt v then v else m
  | .minu => if v < m then v else m
  | .maxu => if m < v then v else m
  | .xchg => v
  | .cas => if m = v then r else m

/-- The result of an atomic from the old value, zero-extended. -/
def atomResult (op : AtomOp) (wide : Bool) (old : DWord) (x : AtomAccess) : DWord :=
  if wide then atomNew op 64 old x.operand x.repl
  else (atomNew op 32 (old.setWidth 32) (x.operand.setWidth 32) (x.repl.setWidth 32)).setWidth 64

/-- Does an atomic write its location? A failed ACAS does not (09 R237). -/
def atomWrites (op : AtomOp) (wide : Bool) (old : DWord) (x : AtomAccess) : Bool :=
  match op with
  | .cas => if wide then decide (old = x.operand) else decide (old.setWidth 32 = x.operand.setWidth 32)
  | _ => true

/-- Bytes of an atomic's operand. -/
def Atom.size (a : Atom) : Nat := if a.wide then 8 else 4

/-- Perform one access of an atomic of a wave indivisibly at its unit: the old value and the state after it. An atomic to a
peer that is not UP returns all ones and changes nothing (19 R407). DESIGN CHOICE (log 83): an atomic drops the wave's copy of the whole
line (05 R142) and sets no SNAP bit, although another byte of the line that the wave has read may read anew within its phase (R139). -/
def State.performAccess (s : State) (wid : Nat) (w : Wave) (a : Atom) (x : AtomAccess) : DWord × State :=
  match x.place with
  | .phys pa ms =>
    if ((paKind pa).peerOf).any (fun p => !s.peerUp p) then (BitVec.ofNat 64 (2 ^ (8 * a.size) - 1), s)
    else
      let old := BitVec.ofNat 64 (s.mem.num pa a.size)
      let s1 := (((s.homeAccess pa ms false a.size).homeAccess pa ms true a.size).countPeer pa a.size).leaveMasks w.core wid
        (some (pa / 128))
      let s2 := if atomWrites a.op a.wide old x then
          ({ s1 with mem := s1.mem.write pa (bytesOfNat a.size (atomResult a.op a.wide old x).toNat) }).markPa pa
        else s1
      let seq := match s.cores[w.core]? with
        | some c => c.fillSeq
        | none => 0
      (old, s2.modWave wid (fun y => { y with
        floors := (pa / 128, seq) :: y.floors.filter (fun f => f.1 != pa / 128)
        own := y.own.filter (fun c => decide (c.1 < pa) || decide (pa + a.size ≤ c.1)) }))
  | .scratch o =>
    let old := match s.groups[w.group]? with
      | some g => BitVec.ofNat 64 (g.scratch.num o a.size)
      | none => 0#64
    if atomWrites a.op a.wide old x then
      (old, s.storeScratch w.group o ((bytesOfNat a.size (atomResult a.op a.wide old x).toNat).map some))
    else (old, s)
  | .reg _ => (0#64, s)

/-- Put the value an access returned into the register of its atomic. -/
def AtomRet.out (r : AtomRet) (lane : Nat) (old : DWord) (side : Side) : Option Out :=
  match r with
  | .none => Option.none
  | .scalar n => Option.some (.s n old)
  | .vector n => Option.some (.v n (1#32 <<< lane) (setLane 0#1024 lane (old.setWidth 32)) side)

/-- Do two places name one location, whatever the attributes of the pages through which they were found? -/
def Place.same (p q : Place) : Bool :=
  match p, q with
  | .phys a _, .phys b _ => a == b
  | p, q => p == q

/-- Perform the first accesses of an atomic that name one location, in ascending lane order with nothing between them
(09 R239): the returned values become outstanding results. An access that meets poisoned data is not performed and returns nothing:
ECC is due (02 R49; 09 R228, R229). -/
def State.performSame (s : State) (wid : Nat) (a : Atom) (p : Place) : List AtomAccess → List AtomAccess × State
  | [] => ([], s)
  | x :: rest =>
    if x.place.same p then
      match s.waves[wid]? with
      | none => (x :: rest, s)
      | some w =>
        if s.poisoned wid w x.place then
          (s.dueEcc wid (s.placeClass x.place) (x.va &&& ~~~0x7F#64)).performSame wid a p rest
        else
        let (old, s1) := s.performAccess wid w a x
        let s2 := match a.ret.out x.lane old Side.none with
          | some o => s1.modWave wid (fun y => y.addOut o)
          | none => s1
        s2.performSame wid a p rest
    else
      let (left, s1) := s.performSame wid a p rest
      (x :: left, s1)

/-- Perform, of the k-th issued atomic of a wave, the accesses to the location of one lane. -/
def State.performAtomic (s : State) (wid k lane : Nat) : State :=
  match s.waves[wid]? with
  | none => s
  | some w => match w.atoms[k]? with
    | none => s
    | some a => match a.todo.find? (fun x => x.lane == lane) with
      | none => s
      | some x =>
        let (left, s1) := s.performSame wid a x.place a.todo
        s1.modWave wid (fun y => { y with
          atoms := putAt y.atoms k (if left.isEmpty then none else some { a with todo := left }) })

/-- Perform every access of the first issued atomic of a wave, at most `fuel` locations. -/
def State.drainFirst (s : State) (wid : Nat) : Nat → State
  | 0 => s
  | n + 1 => match s.waves[wid]? with
    | none => s
    | some w => match w.atoms with
      | [] => s
      | a :: _ => match a.todo with
        | [] => s.modWave wid (fun y => { y with atoms := y.atoms.tail })
        | x :: _ => (s.performAtomic wid 0 x.lane).drainFirst wid n

/-- Perform every issued atomic of a wave, in program order (06 R164). -/
def State.drainAtoms (s : State) (wid : Nat) : State :=
  match s.waves[wid]? with
  | none => s
  | some w => s.drainFirst wid (w.atoms.foldl (fun n a => n + a.todo.length + 1) 0)

/-- Does an issued atomic of the wave touch one of the bytes of an access, or its peer line? -/
def Wave.atomTouches (w : Wave) (p : Place) (n : Nat) : Bool :=
  w.atoms.any (fun a => a.todo.any (fun x => p.samePeerLine x.place || match x.place, p with
    | .phys b _, .phys c _ => decide (b < c + n) && decide (c < b + a.size)
    | .scratch b, .scratch c => decide (b < c + n) && decide (c < b + a.size)
    | _, _ => false))

/-- Before an access of the wave to bytes that its own issued atomics touch, those atomics are performed (05 R143). -/
def State.orderAtoms (s : State) (wid : Nat) (p : Place) (n : Nat) : State :=
  match s.waves[wid]? with
  | none => s
  | some w => if w.atomTouches p n then s.drainAtoms wid else s

/-- Is a byte one of the `n` bytes at a place? -/
def Place.within (b p : Place) (n : Nat) : Bool :=
  match b, p with
  | .phys x _, .phys y _ => decide (y ≤ x) && decide (x < y + n)
  | .scratch x, .scratch y => decide (y ≤ x) && decide (x < y + n)
  | _, _ => false

/-- Does a store touch one of the `n` bytes at a place? -/
def PStore.touches (q : PStore) (p : Place) (n : Nat) : Bool :=
  (presentBytes 0 q.bytes).any (fun x => (q.place.plus x.1).within p n) || q.also.any (fun c => (Place.phys c.1 false).within p n)

/-- The part of a pending store that lies in the `n` bytes at a place, and what is left of the store. A store that carries a side-band is
one with it, and enters whole (09 R234). -/
def PStore.split (q : PStore) (p : Place) (n : Nat) : PStore × PStore :=
  let inside (k : Nat) : Bool := (q.place.plus k).within p n
  let part (keep : Nat → Bool) : PStore := { q with bytes := q.bytes.mapIdx (fun k b => if keep k then b else none) }
  if q.side.isSome then (q, { q with bytes := [], also := [], side := none }) else (part inside, part (fun k => !inside k))

/-- Does a store still store anything? -/
def PStore.holds (q : PStore) : Bool := q.bytes.any (·.isSome) || q.side.isSome

/-- Before an atomic is performed, or an engine reads what the wave sees, the wave's pending stores to the bytes enter, in program
order, at those bytes, a store with a side-band whole; everything else stays pending (09 R234, R238 step 3). -/
def State.enterOverlapping (s : State) (wid : Nat) (p : Place) (n : Nat) : State :=
  match s.waves[wid]? with
  | none => s
  | some w =>
    if w.pend.any (fun q => q.touches p n) then
      (((w.pend.filter (fun q => q.touches p n)).map (fun q => (q.split p n).1)).foldl (fun t q => t.enterStore wid w q) s).modWave wid
        (fun x => { x with pend := (w.pend.map (fun q => if q.touches p n then (q.split p n).2 else q)).filter PStore.holds })
    else s

/-- The register into which an atomic returns. -/
def AtomRet.reg : AtomRet → Option (Nat × Nat)
  | .none => Option.none
  | .scalar n => some (0, n)
  | .vector n => some (1, n)

/-- Before an access of the wave: its own atomics on the bytes are performed; of a register reached by its window, the earlier
results are written (05 R143, 04 R119). -/
def State.beforeAccess (s : State) (wid : Nat) (p : Place) (n : Nat) : State :=
  match p, s.waves[wid]? with
  | .reg o, some w =>
    let s1 := if w.atoms.any (fun a => a.ret.reg == some (winReg o)) then s.drainAtoms wid else s
    s1.modWave wid (fun x => x.deliver (winReg o))
  | _, _ => s.orderAtoms wid p n

/-- Before an engine or a unit reads bytes as the wave sees them: what the wave itself has stored to them has entered (10 R258,
R261). -/
def State.showBytes (s : State) (wid : Nat) (p : Place) (n : Nat) : State := (s.beforeAccess wid p n).enterOverlapping wid p n

/-- Granules of a group block (04 R113). -/
def Group.blockGranules (g : Group) : Nat := (g.scratchSize + 2048 + 4095) / 4096

/-- The line of the group block that holds group register `n` (04 R114). -/
def Group.gregLine (g : Group) (n : Nat) : Nat := 32 * g.blockGranules - 16 + n / 16

/-- Has the line of a register of a group an uncorrectable error (04 R110)? -/
def State.badGreg (s : State) (g n : Nat) : Bool := (s.groups[g]?).any (fun x => s.bad.contains (.groupPool g (x.gregLine n)))

/-- The lowest line of a group's scratchpad range with an uncorrectable error, as an offset (04 R110). -/
def State.badScratch (s : State) (g off n : Nat) : Option Nat :=
  ((List.range ((off % 128 + n + 127) / 128)).map (fun k => 128 * (off / 128 + k))).find? (fun o =>
    s.bad.contains (.groupPool g (o / 128)))

end Sys2Proof.Machine
end

