-- ==== Sys2Proof/Machine/Ops.lean ====
section
/-! DEFINITION. Taking a trap and returning from one, context faults, phase boundaries
(05 R130-R136, R141, R142, R152; 14 R334-R340). -/

namespace Sys2Proof.Machine

/-! ### Trap frames and context faults -/

/-- The trap PC: the instruction, or the first word of its group of words (06 R165, 14 R335). -/
def Wave.trapPoint (w : Wave) : DWord :=
  match w.pfx with
  | some p => p.pc
  | none => w.pc

/-- The frame of a trap (14 R335): what step 4 and step 5 of 14 R334 write. -/
def Wave.frameFor (w : Wave) (t : TrapInfo) : Frame :=
  { cause := t.cause, detail := t.detail, kind := t.kind, xcause := t.xcause, lane := BitVec.ofNat 5 (t.lane.getD 0),
    lanev := t.lane.isSome, ewave := BitVec.ofNat 11 t.ewave, tpc := w.trapPoint, addr := t.addr, tag := t.tag,
    low := t.low, sm0 := w.m 0, s60 := w.s 60, s61 := w.s 61, s62 := w.s 62 }

def faultUnhandled : BitVec 4 := 1#4
def faultDouble : BitVec 4 := 2#4
def faultRollback : BitVec 4 := 3#4
def faultLost : BitVec 4 := 4#4
def faultFence : BitVec 4 := 5#4
def faultBadResume : BitVec 4 := 6#4

/-- The launch number of a launch (13 R310, 14 R350; log 21). -/
def State.launchNumber (s : State) (l : Nat) : Nat := (((s.launches[l]?).map (·.num)).getD 0) % 2 ^ 32

/-- The number of the next launch that enters the dispatch list (14 R350; log 21). -/
def State.nextLaunch (s : State) : Nat := s.launches.foldl (fun m l => max m l.num) 0 + 1

/-- The group of a faulted context whose waves have all stopped is FAULTED (12 R295; 14 R339). -/
def State.settleFaulted (s : State) (g : Nat) : State :=
  match s.groups[g]? with
  | none => s
  | some x =>
    let faulted := match s.ctxs[x.ctx]? with
      | some c => c.st == .faulted
      | none => false
    if faulted && x.st == .running &&
        x.waves.all (fun w => (s.waves[w]?).all (fun y => y.stopped || y.st == .retired)) then
      s.modGroup g (fun y => { y with st := .faulted })
    else s

/-- The groups of a context with no wave left to stop are FAULTED at once. -/
def State.settleFaults (s : State) (c : Nat) : State :=
  (List.range s.groups.length).foldl (fun t g => if (t.groups[g]?).any (fun x => x.ctx == c) then t.settleFaulted g else t) s

/-- A context fault (14 R339): the context stops in place, its record takes the fault, the host is told, and a LOST outcome is
counted (14 R365). Its waves stop at their boundaries, and their groups are FAULTED then. A context already FAULTED keeps its
first fault. -/
def State.contextFault (s : State) (c : Nat) (kind : BitVec 4) (f : Frame) (who : Nat × Nat) (wave : DWord) : State :=
  match s.ctxs[c]? with
  | none => s
  | some x =>
    if x.st = .faulted then s
    else
      let s1 := s.modCtx c (fun y => { y with
        st := .faulted, faultKind := kind, faultFrame := f, faultWave := wave,
        faultWho := BitVec.ofNat 64 (who.1 % 2 ^ 32 + 2 ^ 32 * (who.2 % 2 ^ 32)) })
      let s2 := if kind = faultLost then s1.lifeAdd (ltAbort f.detail.toNat) else s1
      (s2.settleFaults c).report errContext kind.toNat x.id f.addr (who.2 % 2 ^ 32) who.1

/-- An agent that is no wave meets lost data of a context (02 R49; 14 R362): the context rolls back at the end of the step when it
has an image, else it is FAULTED with kind LOST (log 76). -/
def State.unitLost (s : State) (c code : Nat) (addr : DWord) : State :=
  if s.hasImage c then s.modCtx c (fun x => { x with rollBy := some code })
  else s.contextFault c faultLost { Frame.zero with cause := causeEcc, detail := BitVec.ofNat 8 code, addr := addr } (0, 0) 0#64

/-- The launch number and group index of a wave, as FAULT_WHO holds them (14 R342). -/
def State.whoOf (s : State) (w : Wave) : Nat × Nat :=
  match s.groups[w.group]? with
  | some g => (s.launchNumber g.launch, g.index)
  | none => (0, 0)

/-- The context of a wave. -/
def State.ctxState (s : State) (w : Wave) : CtxSt :=
  match s.ctxs[w.ctx]? with
  | some x => x.st
  | none => .saved

/-- TRAPVEC of a wave's context (14 R342). -/
def State.trapVec (s : State) (w : Wave) : DWord :=
  match s.ctxs[w.ctx]? with
  | some x => x.act.trapvec
  | none => 0#64

/-! ### Taking a trap (14 R334) -/

/-- The last word of a half of the address space (07 R191). -/
def lastWord (pc : DWord) : Bool := pc == 0x00FFFFFFFFFFFFFC#64 || pc == 0xFFFFFFFFFFFFFFFC#64

/-- Where a wave goes on after a trap: past an instruction that had completed, else at the trap PC (14 R334, R339). -/
def resumePc (f : Frame) (after : Bool) : DWord := if after then f.tpc + 4#64 else f.tpc

/-- Steps 3 to 5 of 14 R334 for a frame that is built: the handler, or a context fault. -/
def State.enterTrap (s : State) (wid : Nat) (f : Frame) (after : Bool) : State :=
  match s.waves[wid]? with
  | none => s
  | some w =>
    let vec := s.trapVec w
    if w.handler || vec == 0#64 then
      let kind := if w.handler then faultDouble else if f.cause = causeEcc then faultLost else faultUnhandled
      ((s.modWave wid (fun x => { x with
        pc := resumePc f after, pfx := none, held := none, fetched := none, stopped := true
        ran := if after then lastWord f.tpc else x.ran })).contextFault w.ctx kind f
        (s.whoOf w) (BitVec.ofNat 64 w.index)).settleFaulted w.group
    else
      s.modWave wid (fun x => { (x.setM 0 0xFFFFFFFF#32) with
        frame := f, trapCause := f.cause, trapAddr := f.addr, trapPc := resumePc f after, handler := true, pc := vec,
        pfx := none, held := none, st := .ready, ran := false, fetched := none })

/-- Taking a trap (14 R334): the outstanding atomics and results first, then the handler, or a context fault; a trap met
while the context is FAULTED is held at its boundary (14 R339). Lost data rolls back a context that has an image, and no trap is
taken (14 R362). `after`: the instruction had completed. -/
def State.takeTrap (s : State) (wid : Nat) (t : TrapInfo) (after : Bool) : State :=
  let s1 := (s.drainAtoms wid).modWave wid Wave.drainOuts
  match s1.waves[wid]? with
  | none => s1
  | some w =>
    let f := w.frameFor t
    if t.cause = causeEcc ∧ s1.hasImage w.ctx = true then s1.modCtx w.ctx (fun x => { x with rollBy := some t.detail.toNat })
    else if s1.ctxState w = .faulted then
      s1.modWave wid (fun x => { x with held := some (f, after), pc := f.tpc, pfx := none, st := .ready, fetched := none })
    else s1.enterTrap wid f after

/-- TRET (07 R195, 14 R338): what trap entry saved, as the frame stands, and the PC of SR_TRAPPC. -/
def Wave.trapReturn (w : Wave) : Wave :=
  { ((((w.setM 0 w.frame.sm0).setS 60 w.frame.s60).setS 61 w.frame.s61).setS 62 w.frame.s62) with
    pc := w.trapPc, handler := false }

/-- A trap held while the context was FAULTED is taken once the context runs again (14 R339). -/
def State.takeHeld (s : State) (wid : Nat) : State :=
  match s.waves[wid]? with
  | none => s
  | some w => match w.held with
    | none => s
    | some (f, after) => if s.ctxState w = .faulted then s else s.enterTrap wid f after

/-! ### Traps due at a boundary (14 R340) -/

/-- The order in which due traps are taken: ECC, then REPLAY_ABORT, then COPY. -/
def dueRank (d : DueTrap) : Nat := if d.cause = causeEcc then 0 else if d.cause = causeReplayAbort then 1 else 2

/-- The first due trap of the lowest rank. -/
def firstDue (l : List DueTrap) : Option DueTrap :=
  match l.find? (fun d => dueRank d == 0) with
  | some d => some d
  | none => match l.find? (fun d => dueRank d == 1) with
    | some d => some d
    | none => l.head?

/-- A due trap as a trap. -/
def DueTrap.info (d : DueTrap) : TrapInfo :=
  { cause := d.cause, detail := d.detail, kind := d.kind, xcause := d.xcause, addr := d.addr, tag := d.tag, low := d.low }

/-- Is the wave at an instruction boundary at which a due trap may be taken: ready, or in BAR.WAIT, MWAIT, the wait of END or the
wait for an entry of a queue, and not in a handler or inside a group of words? -/
def Wave.atBoundary (w : Wave) : Bool :=
  !w.handler && w.pfx.isNone &&
  (match w.st with
  | .ready => true
  | .blocked _ _ => true
  | .wait (.mwait _ _) => true
  | .wait .ending => true
  | .wait (.entry _) => true
  | _ => false)

/-- Take the next due trap of a wave at its boundary (14 R340): a wait there is abandoned. -/
def State.boundaryTrap (s : State) (wid : Nat) : State :=
  match s.waves[wid]? with
  | none => s
  | some w => match firstDue w.due with
    | none => s
    | some d =>
      if w.atBoundary && w.held.isNone then
        (s.modWave wid (fun x => { x with due := x.due.erase d, st := .ready })).takeTrap wid d.info false
      else s

/-! ### Acquiring boundaries (05 R130, R136, R141, R142; 09 R240) -/

/-- Copies whose stamp lags by 2^31 or more are dropped, and their readers lose the stable view (05 R142). -/
def State.dropStale (s : State) (core : Nat) : State :=
  match s.cores[core]? with
  | none => s
  | some c =>
    let old := c.l1.filter (fun k => !decide ((c.stamp - k.fill).toNat < 2 ^ 31))
    (s.loseCopies old).modCore core (fun x => { x with
      l1 := x.l1.filter (fun k => decide ((c.stamp - k.fill).toNat < 2 ^ 31)) })

/-- The generations of every Publish Buffer of a context (05 R136). -/
def State.allGens (s : State) (c : Nat) : List Word := (List.range 256).map (s.pbGen c)

/-- Every generation of a context is read from its Publish Buffer table, if it has one; a poisoned line of it is met (02 R45, R49;
05 R136). -/
def State.readGens (s : State) (wid c : Nat) : State :=
  match s.ctxs[c]? with
  | none => s
  | some x =>
    if x.act.pbTable = 0#64 then s
    else
      let s1 := s.homeRange x.act.pbTable.toNat 8192 false
      match (linesOf x.act.pbTable.toNat 8192).find? s.linePoisoned with
      | some l => s1.dueEcc wid (s.lineClass l) 0#64
      | none => s1

/-- A new stamp of a wave's core is the wave's ACQ, and the wave reads no copy made before (05 R142). -/
def State.freshView (s : State) (wid : Nat) : State :=
  match s.waves[wid]? with
  | none => s
  | some w =>
    let s1 := ((s.modCore w.core (fun c => { c with stamp := c.stamp + 1#32 })).dropStale w.core).leaveMasks w.core wid none
    let stamp := match s1.cores[w.core]? with
      | some c => c.stamp
      | none => 0#32
    s1.modWave wid (fun x => { x with acq := stamp, own := [], floors := [] })

/-- An acquiring boundary of a wave: a new phase, a new stamp, no reader mask, the current generations; its core learns the
group's GPHASE, which every wave of the group on the core then carries (05 R152). -/
def State.acquire (s : State) (wid : Nat) : State :=
  match s.waves[wid]? with
  | none => s
  | some w =>
    let gp := match s.groups[w.group]? with
      | some g => g.gphase
      | none => 0
    (((s.readGens wid w.ctx).freshView wid).modWave wid (fun x => { x with
      snapCur := false, adopted := s.allGens w.ctx, acqCnt := x.acqCnt + 1#32 })).allWaves (fun x =>
        if x.group = w.group ∧ x.core = w.core then { x with gphase := gp } else x)

/-- The end of a releasing boundary of a scope: it is counted, and GPHASE rises for scope group or wider
(05 R141, R152). -/
def State.releaseDone (s : State) (wid scope : Nat) : State :=
  match s.waves[wid]? with
  | none => s
  | some w =>
    let s1 := s.modWave wid (fun x => { x with relCnt := x.relCnt + 1#32 })
    if 1 ≤ scope then s1.modGroup w.group (fun g => { g with gphase := g.gphase + 1 }) else s1

/-! ### Moving on -/

/-- Move to the next instruction, noting a step past the last word of a half of the address space (07 R191). -/
def Wave.advance (w : Wave) : Wave := { w with pc := w.pc + 4#64, ran := lastWord w.pc, fetched := none }

def State.advance (s : State) (wid : Nat) : State := s.modWave wid Wave.advance

/-- The end of a wait: the wave is ready at the next instruction. -/
def State.proceed (s : State) (wid : Nat) : State := s.modWave wid (fun w => { w.advance with st := .ready })

/-- Put a wave into a state. -/
def State.setSt (s : State) (wid : Nat) (st : WaveSt) : State := s.modWave wid (fun w => { w with st := st })

end Sys2Proof.Machine
end

