-- ==== Sys2Proof/Machine/Barrier.lean ====
section
/-! DEFINITION. Barrier objects in scratchpad: their fields, increments, completion, the phase test (04 R122-R127). -/

namespace Sys2Proof.Machine

/-- A barrier object (04 R122). -/
structure Barrier where
  ovr : Bool
  arr : Nat
  expArr : Nat
  phase : Word
  landed : Nat
  expBytes : Nat
  deriving DecidableEq, Repr

/-- The fields of the two quadwords of an object; the reserved bits have no effect (04 R122). -/
def Barrier.ofQuads (q0 q1 : DWord) : Barrier :=
  { ovr := q0.getLsbD 63, arr := (q0.extractLsb' 45 13).toNat, expArr := (q0.extractLsb' 32 13).toNat,
    phase := q0.extractLsb' 0 32, landed := (q1.extractLsb' 32 32).toNat, expBytes := (q1.extractLsb' 0 32).toNat }

/-- The quadwords of an object, the reserved bits 0 (04 R122). -/
def Barrier.q0 (b : Barrier) : DWord :=
  (if b.ovr then 1#1 else 0#1) ++ 0#5 ++ BitVec.ofNat 13 b.arr ++ BitVec.ofNat 13 b.expArr ++ b.phase
def Barrier.q1 (b : Barrier) : DWord := BitVec.ofNat 32 b.landed ++ BitVec.ofNat 32 b.expBytes

/-- The completion check after an increment (04 R123, R124). -/
def Barrier.check (b : Barrier) : Barrier :=
  if b.arr = b.expArr ∧ b.landed = b.expBytes ∧ (b.expArr ≠ 0 ∨ b.expBytes ≠ 0) then
    { b with phase := b.phase + 1#32, arr := 0, landed := 0 }
  else b

/-- One arrival, and whether it overran (04 R123, R124). -/
def Barrier.arrive (b : Barrier) : Barrier × Bool :=
  if b.expArr < b.arr + 1 then (({ b with arr := b.expArr, ovr := true } : Barrier).check, true)
  else (({ b with arr := b.arr + 1 } : Barrier).check, false)

/-- A byte increment (04 R123, R124). -/
def Barrier.land (b : Barrier) (n : Nat) : Barrier :=
  if b.expBytes < b.landed + n then ({ b with landed := b.expBytes, ovr := true } : Barrier).check
  else ({ b with landed := b.landed + n } : Barrier).check

/-- The object at an offset of a group's scratchpad. -/
def Group.barrier (g : Group) (off : Nat) : Barrier := Barrier.ofQuads (g.scratch.quad off) (g.scratch.quad (off + 8))

/-- Write an object back. -/
def Group.setBarrier (g : Group) (off : Nat) (b : Barrier) : Group :=
  g.writeScratch off ((bytesOfNat 8 b.q0.toNat ++ bytesOfNat 8 b.q1.toNat).map some)

/-- The phase number of an object of a group. -/
def State.phaseOf (s : State) (g off : Nat) : Word :=
  match s.groups[g]? with
  | some x => (x.barrier off).phase
  | none => 0#32

/-- One arrival at an object of a group: whether it overran, and the state after it. -/
def State.arriveAt (s : State) (g off : Nat) : Bool × State :=
  match s.groups[g]? with
  | some x => ((x.barrier off).arrive.2, (s.modGroup g (fun y => y.setBarrier off (x.barrier off).arrive.1)).noteReached g)
  | none => (false, s)

/-- A byte increment at an object of a group. -/
def State.landAt (s : State) (g off n : Nat) : State :=
  (s.modGroup g (fun y => y.setBarrier off ((y.barrier off).land n))).noteReached g

end Sys2Proof.Machine
end

