-- ==== Sys2Proof/Machine/Caps.lean ====
section
/-! DEFINITION. Errors of a unit as the lifetime record has them (14 R365), and Lantern's capability table and capability registers
(19 R408; 13 R309; log 84). -/

namespace Sys2Proof.Machine

/-! ### Errors in the lifetime record (14 R365) -/

/-- Histogram bin of a gap in hours. -/
def histBin (gap : Nat) : Nat := if gap = 0 then 0 else min 15 (Nat.log2 gap)

/-- The core of a unit (14 R361, R364). -/
def unitCore : HwUnit → Option Nat
  | .coreStore c _ => some c
  | .core c => some c
  | .cacheLine c _ => some c
  | .array c _ => some c
  | .tile c _ _ => some c
  | .weightBuffer c _ _ => some c
  | .copyEngine c => some c
  | _ => none

/-- Are two units one for the record (14 R365)? A line of the LLC counts for its set, another for its channel or bank group; lines of a
pool, tiles and lines of a weight buffer for the Core Store or the array that holds them, and cached lines for the cache of a core. -/
def sameUnit (x y : HwUnit × Bool) : Bool :=
  match x.1, y.1 with
  | .line a, .line b => x.2 == y.2 && (if x.2 then llcSet (a / 128) == llcSet (b / 128) else sameLineUnit a b)
  | .coreStore a _, .coreStore b _ => a == b
  | .cacheLine a _, .cacheLine b _ => a == b
  | .tile a k _, .tile b l _ => a == b && k == l
  | .weightBuffer a k _, .weightBuffer b l _ => a == b && k == l
  | u, v => u == v

/-- A unit as the record tells it: an error of class 2 or 3 of a line is one of its LLC set (14 R360). -/
def recordUnit (u : HwUnit) (code : Nat) : HwUnit × Bool := (u, code == 2 || code == 3)

/-- Count an uncorrectable or logic error of a class (14 R365). -/
def State.countError (s : State) (u : HwUnit) (code : Nat) : State :=
  let k := recordUnit u code
  let s1 := s.lifeAdd (ltUe code)
  let s2 := match s.lastErr.find? (fun e => sameUnit e.1 k) with
    | some e => s1.lifeAdd (ltHist code (histBin (s.hours.toNat - e.2)))
    | none => s1
  let s3 := match unitCore u with
    | some c => s2.lifeAdd (ltCore c)
    | none => s2
  { s3 with lastErr := (k, s.hours.toNat) :: s.lastErr.filter (fun e => !sameUnit e.1 k) }

/-- A logic error of the front end: it is counted, and the self-test of the unit begins (14 R360, R361). -/
def State.frontError (s : State) : State :=
  let t := s.countError .frontEnd 8
  { t with tests := t.tests ++ [⟨.frontEnd, 8, .logic, none, [], none, false, false⟩] }

/-! ### The grant service (19 R408) -/

/-- An entry is granted: the first free one, with the generation that it has, else a new one. -/
def State.grant (s : State) (o : CapObj) (base : DWord) (len : Nat) (rd wr : Bool) (owner : BitVec 32) : State :=
  let entry (g : BitVec 16) : Cap := ⟨o, base, BitVec.ofNat 48 len, rd, wr, owner, g, true⟩
  match s.caps.findIdx? (fun c => !c.live) with
  | some k => { s with caps := s.caps.modify k (fun c => entry c.gen) }
  | none => { s with caps := s.caps ++ [entry 0#16] }

/-- The entries that a test names are revoked, and their generations rise. -/
def State.revoke (s : State) (p : Cap → Bool) : State :=
  { s with caps := s.caps.map (fun c => if c.live && p c then { c with live := false, gen := c.gen + 1#16 } else c) }

/-- The entry of an object is revoked. -/
def State.revokeObj (s : State) (o : CapObj) : State := s.revoke (fun c => c.obj == o)

/-- The number of a context, as entries name their owner. -/
def State.ownerOf (s : State) (c : Nat) : BitVec 32 := ((s.ctxs[c]?).map (·.id)).getD 0#32

/-! ### Capability registers (19 R408) -/

/-- A capability register is loaded by entry index and generation; the load of a free entry, or of another generation, fails. -/
def State.loadCap (s : State) (core r idx : Nat) (gen : BitVec 16) : Option State :=
  match s.caps[idx]? with
  | some c =>
    if c.live && c.gen == gen then
      some { s with capRegs := s.capRegs.modify core (fun l => l.set r (some (idx, gen))) }
    else none
  | none => none

/-- Lantern's core 0 loads a register with the entry of an object, where there is one (log 84). -/
def State.useCap (s : State) (r : Nat) (o : CapObj) : Option State :=
  (s.caps.findIdx? (fun c => c.live && c.obj == o)).bind (fun k => (s.caps[k]?).bind (fun c => s.loadCap 0 r k c.gen))

/-- Is an access of `n` bytes at an offset allowed through a register of core 0, for a context: the entry's generation, owner,
permissions and length? -/
def State.capAllows (s : State) (r : Nat) (owner : BitVec 32) (off n : Nat) (write : Bool) : Bool :=
  match ((s.capRegs[0]?).bind (·[r]?)).join with
  | none => false
  | some (k, gen) => match s.caps[k]? with
    | some c => c.live && c.gen == gen && c.owner == owner && (if write then c.wr else c.rd) && decide (off + n ≤ c.len.toNat)
    | none => false

/-- The state with a register loaded for an object, where an access of a context through it passes its checks. -/
def State.capFor (s : State) (r : Nat) (o : CapObj) (c off n : Nat) (write : Bool) : Option State :=
  (s.useCap r o).filter (fun t => t.capAllows r (t.ownerOf c) off n write)

/-- Does Lantern hold an object for a context, with the bytes that a field names? -/
def State.holds (s : State) (c : Nat) (o : CapObj) (off n : Nat) : Bool := (s.capFor 1 o c off n false).isSome

/-- Lantern acts on memory of an object through a register; a check that fails is an error of the front end, and nothing is accessed
(19 R408). -/
def State.viaCap (s : State) (r : Nat) (o : CapObj) (c off n : Nat) (write : Bool) (f : State → State) : State :=
  match s.capFor r o c off n write with
  | some t => f t
  | none => s.frontError

/-! ### Entries of a context's objects (14 R342; 13 R313, R314; 03 R96) -/

/-- A context has been created: its record and its bin table. -/
def State.grantCtx (s : State) (c : Nat) : State :=
  (s.grant (.record c) (Config.tableBase 0 c) 0x150 true true (s.ownerOf c)).grant (.bins c) (Config.tableBase 1 c) (32 * 4096) true true
    (s.ownerOf c)

/-- The registers of a context are in force: its Publish Buffer table, its save area and its work area. -/
def State.grantRegs (s : State) (c : Nat) (r : CtxRegs) : State :=
  let s1 := ((s.revokeObj (.pbTable c)).revokeObj (.saveArea c)).revokeObj (.pool c)
  let s2 := if r.pbTable = 0#64 then s1 else s1.grant (.pbTable c) r.pbTable 8192 true true (s.ownerOf c)
  let s3 := if r.saveSize = 0#64 then s2 else s2.grant (.saveArea c) r.saveBase r.saveSize.toNat true true (s.ownerOf c)
  s3.grant (.pool c) r.recBase (2 ^ 26) true true (s.ownerOf c)

/-! ### The Publish Buffer table (03 R96, R99; 14 R357) -/

/-- The generation of a buffer is written into its table entry. -/
def State.putPbGen (s : State) (c n : Nat) (g : Word) : State :=
  (s.pbEntry c n).elim s (fun a => s.viaCap 2 (.pbTable c) c (32 * n + 28) 4 true (fun t => t.agentStore (a + 28) (bytesOfNat 4 g.toNat)))

/-- Set the generation of a buffer. A table in the weight store does not change while a kernel of its context lives
(02 R68; log 87). -/
def State.setPbGen (s : State) (c n : Nat) (g : Word) : State :=
  if (s.pbEntry c n).any (fun a => (paKind a).isWs) && s.liveKernel c then s else s.putPbGen c n g

end Sys2Proof.Machine
end

