-- ==== Sys2Proof/Machine/Operands.lean ====
section
/-! DEFINITION. Operands of instruction words: immediates, HINT.MOD fields, the registers a form names, the checks that come
before an instruction's own checks, and issue (06 R158-R170; 15 R372, R373). -/

namespace Sys2Proof.Machine

/-- The answer of a step of this machine. -/
abbrev Step := Host.Outcome State Fault Refusal

/-! ### The group of words (06 R165-R167) -/

/-- The HINT.MOD payload of the open group; zero when there is none. -/
def Wave.modWord (w : Wave) : BitVec 20 :=
  match w.pfx with
  | some p => p.mod.getD 0#20
  | none => 0#20

/-- ImmValue() (06 R166). -/
def Wave.immValue (w : Wave) (i : BitVec 12) : DWord :=
  match w.pfx with
  | some ⟨_, some h, _⟩ => (((h.setWidth 32) <<< 12) + i.signExtend 32).signExtend 64
  | _ => i.signExtend 64

/-- The mode, saturation and flush fields (06 R167, 08 R207). -/
def Wave.modes (w : Wave) : Modes :=
  { mode := if w.modWord.getLsbD 19 then some (RoundMode.ofCode (w.modWord.extractLsb' 17 2)) else none,
    sat := w.modWord.getLsbD 16, ftz := w.modWord.getLsbD 15 }

/-- F8SEL (06 R167). -/
def Wave.f8sel (w : Wave) : Bool := w.modWord.getLsbD 14

/-- CV, and the third source register C (06 R167). -/
def Wave.cv (w : Wave) : Bool := w.modWord.getLsbD 13
def Wave.cReg (w : Wave) : Nat := (w.modWord.extractLsb' 5 8).toNat

/-- The addend register of a fused form: C when CV is set, else the destination (08 R209, R213). -/
def Wave.third (w : Wave) (d : BitVec 8) : Nat := if w.cv then w.cReg else d.toNat

/-- The HINT.MOD fields a form accepts (06 R167). -/
structure ModAcc where
  rm : Bool := false
  sat : Bool := false
  ftz : Bool := false
  f8 : Bool := false
  c : Bool := false
  deriving DecidableEq, Repr

/-- Every field that is set is accepted (06 R167). -/
def ModAcc.allows (m : ModAcc) (p : BitVec 20) : Bool :=
  (m.rm || p.extractLsb' 17 3 == 0#3) && (m.sat || !p.getLsbD 16) && (m.ftz || !p.getLsbD 15) &&
  (m.f8 || !p.getLsbD 14) && (m.c || p.extractLsb' 5 9 == 0#9)

/-! ### What a form names -/

/-- A register named by a form: scalar, vector, hypervector, bundle accumulator. -/
inductive RegRef where
  | s (n : Nat)
  | v (n : Nat)
  | h (n : Nat)
  | b (n : Nat)
  deriving DecidableEq, Repr

/-- What the checks before an instruction's own look at: the marker, the source and destination registers in the order of
14 R336, what it accepts before it, privilege, and the optional feature it belongs to (15 R372). -/
structure Form where
  sw : BitVec 1 := 0#1
  src : List RegRef := []
  /-- The destination of a fused form, which is its addend without CV (06 R167). -/
  acc : Option (BitVec 8) := none
  dst : List RegRef := []
  imm : Bool := false
  mods : Option ModAcc := none
  priv : Bool := false
  feat : Option Nat := none
  /-- The group register that the form reads (07 R186). -/
  greg : Option Nat := none
  deriving DecidableEq, Repr

/-- The sources of a form, its addend and its HINT.MOD third source included. -/
def Form.sources (f : Form) (w : Wave) : List RegRef :=
  match f.acc with
  | some d => if w.cv then f.src ++ [.v w.cReg] else .v d.toNat :: f.src
  | none => f.src

/-- Does the register exist for the wave's role (06 R158, R159)? -/
def RegRef.inBudget (w : Wave) : RegRef → Bool
  | .s n => decide (n < 64)
  | .v n => decide (n < w.numV)
  | .h n => decide (n < w.numH)
  | .b n => decide (n < w.numB)

/-- Does an outstanding result of the wave write this register (06 R161, R163)? -/
def Wave.outstanding (w : Wave) (r : RegRef) : Bool :=
  match r with
  | .s n => w.outs.any (fun o => o.reg == (0, n)) || w.atoms.any (fun a => a.ret == .scalar n)
  | .v n => w.outs.any (fun o => o.reg == (1, n)) || w.atoms.any (fun a => a.ret == .vector n)
  | .h n => w.outs.any (fun o => o.reg == (3, n))
  | .b _ => false

/-- SR_TRAPADDR of MARKER: register number and class (14 R336). -/
def RegRef.markerAddr : RegRef → DWord
  | .s n => BitVec.ofNat 64 (n % 256)
  | .v n => BitVec.ofNat 64 (n % 256 + 256)
  | .h n => BitVec.ofNat 64 (n % 256 + 768)
  | .b n => BitVec.ofNat 64 (n % 256)

/-- Does the wave's context have an optional feature (15 R373)? -/
def State.hasFeature (s : State) (w : Wave) (k : Nat) : Bool :=
  match s.ctxs[w.ctx]? with
  | some c => c.features.testBit k
  | none => false

/-- Is the wave in privileged mode (07 R199)? -/
def State.privileged (s : State) (w : Wave) : Bool :=
  match s.ctxs[w.ctx]? with
  | some c => c.act.ctl.getLsbD 6
  | none => false

/-- Is the wave in strict mode (14 R341)? -/
def State.strict (s : State) (w : Wave) : Bool :=
  match s.ctxs[w.ctx]? with
  | some c => c.act.ctl.getLsbD 7
  | none => false

/-- The rules of the group of words that end at its target (06 R165, R167). -/
def Form.accepts (f : Form) (w : Wave) : Bool :=
  match w.pfx with
  | none => true
  | some p => (p.imm.isNone || f.imm) && (match p.mod, f.mods with
    | none, _ => true
    | some m, some a => a.allows m
    | some _, none => false)

/-- The word of an instruction, zero-extended (14 R336). -/
def wordAddr (i : Instr) : DWord := ((encode i).getD 0#32).setWidth 64

/-- Steps 3 to 5 of 06 R170. -/
def State.refuses (s : State) (w : Wave) (i : Instr) (f : Form) : Option TrapInfo :=
  if !(i.wf && f.accepts w && (f.sources w).all (RegRef.inBudget w) && f.dst.all (RegRef.inBudget w) &&
      (match f.feat with
      | some k => s.hasFeature w k
      | none => true)) then some (trapAt causeIllegal (wordAddr i))
  else if f.priv && !s.privileged w then some (trapAt causePriv (wordAddr i))
  else if s.strict w then
    match (f.sources w ++ f.dst).find? w.outstanding with
    | some r => some (trapAt causeMarker r.markerAddr)
    | none => none
  else none

/-! ### Issue -/

/-- What remains when an instruction has issued: the group of words is closed, the marker is noted (06 R161, R165). -/
def Wave.issued (sw : BitVec 1) (w : Wave) : Wave := { w with pfx := none, marked := sw == 1#1, fetched := none }

/-- The window offsets of the lines of a register. -/
def RegRef.lines : RegRef → List Nat
  | .s _ => []
  | .v n => [128 * n]
  | .h n => (List.range 8).map (fun k => 0x40000 + 1024 * n + 128 * k)
  | .b n => (List.range 64).map (fun k => 0x80000 + 8192 * n + 128 * k)

/-- The address of the first line with an uncorrectable error that a form reads as a register (04 R110): in the register window, and 0
for the line of a group register, which has no address (log 76). -/
def State.badSource (s : State) (wid : Nat) (w : Wave) (f : Form) : Option DWord :=
  if s.bad.isEmpty then none
  else match ((f.sources w).flatMap RegRef.lines).find? (fun o => s.poisoned wid w (.reg o)) with
    | some o => some (BitVec.ofNat 64 (regWindow + o))
    | none => if f.greg.any (s.badGreg w.group) then some 0#64 else none

/-- ECC at a line that the wave's own access met (14 R336): its virtual address and its class. -/
def eccAt (va : DWord) (code : Nat) : TrapInfo :=
  { cause := causeEcc, detail := BitVec.ofNat 8 code, addr := va &&& 0xFFFFFFFFFFFFFF80#64 }

/-- Issue an instruction word of the current wave: the checks of 06 R170, then its own checks and effect; a trap leaves
nothing else (06 R170) but what its translation read (02 R72). A register with an uncorrectable error is met when the form reads it (04 R110). -/
def State.issue (s : State) (i : Instr) (f : Form) (body : Nat → Wave → Except TrapInfo State) : Step :=
  match s.waves[s.cur]? with
  | none => .fault .noWave
  | some w =>
    match s.refuses w i f with
    | some t => .next (s.takeTrap s.cur t false)
    | none => match s.badSource s.cur w f with
    | some a => .next (s.takeTrap s.cur (eccAt a 1) false)
    | none => match body s.cur w with
      | .error t => .next ((s.failedLooks s.cur t).takeTrap s.cur t false)
      | .ok s' => .next (s'.modWave s.cur (Wave.issued f.sw))

/-- A form whose whole effect is on the wave's own registers, at the next instruction. -/
def State.onWave (s : State) (i : Instr) (f : Form) (g : Wave → Wave) : Step :=
  s.issue i f (fun wid _ => .ok (s.modWave wid (fun w => (g w).advance)))

end Sys2Proof.Machine
end

