-- ==== Sys2Proof/Machine/Scalar.lean ====
section
/-! DEFINITION. Scalar arithmetic, group registers, branches, jumps, deliberate traps and their return, special registers
(07 R182-R198). -/

namespace Sys2Proof.Machine

/-! ### Arithmetic (07 R183, R184) -/

/-- A register-register form with two sources (07 R183). -/
def formRR (sw : BitVec 1) (d a b : BitVec 6) : Form :=
  { sw := sw, src := [.s a.toNat, .s b.toNat], dst := [.s d.toNat] }

/-- A register-register form with one source (07 R183). -/
def formR (sw : BitVec 1) (d a : BitVec 6) : Form := { sw := sw, src := [.s a.toNat], dst := [.s d.toNat] }

/-- An immediate form, which accepts HINT.IMM (07 R184). -/
def formRI (sw : BitVec 1) (x a : BitVec 6) : Form :=
  { sw := sw, src := [.s a.toNat], dst := [.s x.toNat], imm := true }

/-- SetS(D, f(S(A), S(B))) (07 R183). -/
def setRR (d a b : BitVec 6) (f : DWord → DWord → DWord) (w : Wave) : Wave := w.setS d.toNat (f (w.s a.toNat) (w.s b.toNat))

/-- SetS(D, f(S(A))) (07 R183). -/
def setR (d a : BitVec 6) (f : DWord → DWord) (w : Wave) : Wave := w.setS d.toNat (f (w.s a.toNat))

/-- SetS(X, f(S(A), ImmValue())) (07 R184). -/
def setRI (x a : BitVec 6) (i : BitVec 12) (f : DWord → DWord → DWord) (w : Wave) : Wave :=
  w.setS x.toNat (f (w.s a.toNat) (w.immValue i))

/-- A truth value as a scalar. -/
def bit64 (c : Bool) : DWord := if c then 1#64 else 0#64

/-- Bits [127:64] of the products (07 R183). -/
def mulHigh (a b : DWord) : DWord := (a.signExtend 128 * b.signExtend 128).extractLsb' 64 64
def mulHighU (a b : DWord) : DWord := (a.setWidth 128 * b.setWidth 128).extractLsb' 64 64

/-- The number of 1 bits among the low `n` bits. -/
def popBits {w : Nat} (x : BitVec w) : Nat → Nat
  | 0 => 0
  | n + 1 => popBits x n + (if x.getLsbD n then 1 else 0)

/-- The number of 0 bits above the highest 1 bit, looking from bit n-1 down. -/
def leadZeros {w : Nat} (x : BitVec w) : Nat → Nat
  | 0 => 0
  | n + 1 => if x.getLsbD n then 0 else leadZeros x n + 1

/-- The index of the lowest 1 bit at or above bit `k`, looking at `n` bits; k + n when there is none. -/
def lowestOne {w : Nat} (x : BitVec w) (k : Nat) : Nat → Nat
  | 0 => k
  | n + 1 => if x.getLsbD k then k else lowestOne x (k + 1) n

def execAdd (sw : BitVec 1) (d a b : BitVec 6) (s : State) : Step :=
  s.onWave (.add sw d a b) (formRR sw d a b) (setRR d a b (· + ·))
def execSub (sw : BitVec 1) (d a b : BitVec 6) (s : State) : Step :=
  s.onWave (.sub sw d a b) (formRR sw d a b) (setRR d a b (· - ·))
def execMul (sw : BitVec 1) (d a b : BitVec 6) (s : State) : Step :=
  s.onWave (.mul sw d a b) (formRR sw d a b) (setRR d a b (· * ·))
def execMulh (sw : BitVec 1) (d a b : BitVec 6) (s : State) : Step :=
  s.onWave (.mulh sw d a b) (formRR sw d a b) (setRR d a b mulHigh)
def execMulhu (sw : BitVec 1) (d a b : BitVec 6) (s : State) : Step :=
  s.onWave (.mulhu sw d a b) (formRR sw d a b) (setRR d a b mulHighU)
def execAnd (sw : BitVec 1) (d a b : BitVec 6) (s : State) : Step :=
  s.onWave (.and sw d a b) (formRR sw d a b) (setRR d a b (· &&& ·))
def execOr (sw : BitVec 1) (d a b : BitVec 6) (s : State) : Step :=
  s.onWave (.or sw d a b) (formRR sw d a b) (setRR d a b (· ||| ·))
def execXor (sw : BitVec 1) (d a b : BitVec 6) (s : State) : Step :=
  s.onWave (.xor sw d a b) (formRR sw d a b) (setRR d a b (· ^^^ ·))
def execAndn (sw : BitVec 1) (d a b : BitVec 6) (s : State) : Step :=
  s.onWave (.andn sw d a b) (formRR sw d a b) (setRR d a b (fun x y => x &&& ~~~y))
def execShl (sw : BitVec 1) (d a b : BitVec 6) (s : State) : Step :=
  s.onWave (.shl sw d a b) (formRR sw d a b) (setRR d a b (fun x y => x <<< (y.toNat % 64)))
def execShr (sw : BitVec 1) (d a b : BitVec 6) (s : State) : Step :=
  s.onWave (.shr sw d a b) (formRR sw d a b) (setRR d a b (fun x y => x >>> (y.toNat % 64)))
def execSar (sw : BitVec 1) (d a b : BitVec 6) (s : State) : Step :=
  s.onWave (.sar sw d a b) (formRR sw d a b) (setRR d a b (fun x y => x.sshiftRight (y.toNat % 64)))
def execShli (sw : BitVec 1) (d a n : BitVec 6) (s : State) : Step :=
  s.onWave (.shli sw d a n) (formR sw d a) (setR d a (fun x => x <<< n.toNat))
def execShri (sw : BitVec 1) (d a n : BitVec 6) (s : State) : Step :=
  s.onWave (.shri sw d a n) (formR sw d a) (setR d a (fun x => x >>> n.toNat))
def execSari (sw : BitVec 1) (d a n : BitVec 6) (s : State) : Step :=
  s.onWave (.sari sw d a n) (formR sw d a) (setR d a (fun x => x.sshiftRight n.toNat))
def execSlt (sw : BitVec 1) (d a b : BitVec 6) (s : State) : Step :=
  s.onWave (.slt sw d a b) (formRR sw d a b) (setRR d a b (fun x y => bit64 (x.slt y)))
def execSltu (sw : BitVec 1) (d a b : BitVec 6) (s : State) : Step :=
  s.onWave (.sltu sw d a b) (formRR sw d a b) (setRR d a b (fun x y => bit64 (x.ult y)))
def execMin (sw : BitVec 1) (d a b : BitVec 6) (s : State) : Step :=
  s.onWave (.min sw d a b) (formRR sw d a b) (setRR d a b (fun x y => if y.slt x then y else x))
def execMax (sw : BitVec 1) (d a b : BitVec 6) (s : State) : Step :=
  s.onWave (.max sw d a b) (formRR sw d a b) (setRR d a b (fun x y => if x.slt y then y else x))
def execMinu (sw : BitVec 1) (d a b : BitVec 6) (s : State) : Step :=
  s.onWave (.minu sw d a b) (formRR sw d a b) (setRR d a b (fun x y => if y.ult x then y else x))
def execMaxu (sw : BitVec 1) (d a b : BitVec 6) (s : State) : Step :=
  s.onWave (.maxu sw d a b) (formRR sw d a b) (setRR d a b (fun x y => if x.ult y then y else x))
def execPopc (sw : BitVec 1) (d a : BitVec 6) (s : State) : Step :=
  s.onWave (.popc sw d a) (formR sw d a) (setR d a (fun x => BitVec.ofNat 64 (popBits x 64)))
def execClz (sw : BitVec 1) (d a : BitVec 6) (s : State) : Step :=
  s.onWave (.clz sw d a) (formR sw d a) (setR d a (fun x => BitVec.ofNat 64 (leadZeros x 64)))
def execCtz (sw : BitVec 1) (d a : BitVec 6) (s : State) : Step :=
  s.onWave (.ctz sw d a) (formR sw d a) (setR d a (fun x => BitVec.ofNat 64 (lowestOne x 0 64)))

def execAddi (sw : BitVec 1) (x a : BitVec 6) (i : BitVec 12) (s : State) : Step :=
  s.onWave (.addi sw x a i) (formRI sw x a) (setRI x a i (· + ·))
def execAndi (sw : BitVec 1) (x a : BitVec 6) (i : BitVec 12) (s : State) : Step :=
  s.onWave (.andi sw x a i) (formRI sw x a) (setRI x a i (· &&& ·))
def execOri (sw : BitVec 1) (x a : BitVec 6) (i : BitVec 12) (s : State) : Step :=
  s.onWave (.ori sw x a i) (formRI sw x a) (setRI x a i (· ||| ·))
def execXori (sw : BitVec 1) (x a : BitVec 6) (i : BitVec 12) (s : State) : Step :=
  s.onWave (.xori sw x a i) (formRI sw x a) (setRI x a i (· ^^^ ·))
def execSlti (sw : BitVec 1) (x a : BitVec 6) (i : BitVec 12) (s : State) : Step :=
  s.onWave (.slti sw x a i) (formRI sw x a) (setRI x a i (fun p q => bit64 (p.slt q)))
def execSltiu (sw : BitVec 1) (x a : BitVec 6) (i : BitVec 12) (s : State) : Step :=
  s.onWave (.sltiu sw x a i) (formRI sw x a) (setRI x a i (fun p q => bit64 (p.ult q)))

/-! ### Group registers (07 R185, R186; 04 R114, R116) -/

/-- G(n). -/
def Group.greg (g : Group) (n : Nat) : DWord := g.gregs.getD n 0#64

/-- G(n) := x, marking the pool line that holds it. -/
def Group.setGreg (g : Group) (n : Nat) (x : DWord) : Group :=
  { g with gregs := g.gregs.set n x, dirty := addMark g.dirty (g.gregLine n) }

/-- G(n) as a wave reads it at the home core of its group. -/
def State.greg (s : State) (w : Wave) (n : Nat) : DWord :=
  match s.groups[w.group]? with
  | some g => g.greg n
  | none => 0#64

def execGrd (sw : BitVec 1) (d : BitVec 6) (g : BitVec 8) (s : State) : Step :=
  s.issue (.grd sw d g) { sw := sw, dst := [.s d.toNat], greg := some g.toNat } fun wid w =>
    .ok (s.modWave wid (fun x => (x.addOut (.s d.toNat (s.greg w g.toNat))).advance))
def execGwr (sw : BitVec 1) (a : BitVec 6) (g : BitVec 8) (s : State) : Step :=
  s.issue (.gwr sw a g) { sw := sw, src := [.s a.toNat] } fun wid w =>
    .ok ((s.modGroup w.group (fun x => x.setGreg g.toNat (w.s a.toNat))).advance wid)
def execGadd (sw : BitVec 1) (d a : BitVec 6) (g : BitVec 8) (s : State) : Step :=
  s.issue (.gadd sw d a g) { sw := sw, src := [.s a.toNat], dst := [.s d.toNat], greg := some g.toNat } fun wid w =>
    let old := s.greg w g.toNat
    .ok ((s.modGroup w.group (fun x => x.setGreg g.toNat (old + w.s a.toNat))).modWave wid
      (fun x => (x.addOut (.s d.toNat old)).advance))

/-! ### Branches, jumps, calls (07 R187-R190) -/

/-- The branch target of OFF18 (07 R187). -/
def Wave.target (w : Wave) (o : BitVec 18) : DWord := w.pc + ((o.signExtend 64) <<< 2)

/-- Take a branch or go on (07 R187). -/
def Wave.branch (w : Wave) (taken : Bool) (o : BitVec 18) : Wave := if taken then { w with pc := w.target o } else w.advance

/-- A branch whose condition is a function of the wave. -/
def State.branchIf (s : State) (i : Instr) (f : Form) (o : BitVec 18) (c : Wave → Bool) : Step :=
  s.issue i f (fun wid _ => .ok (s.modWave wid (fun w => w.branch (c w) o)))

def execBez (sw : BitVec 1) (a : BitVec 6) (o : BitVec 18) (s : State) : Step :=
  s.branchIf (.bez sw a o) { sw := sw, src := [.s a.toNat] } o (fun w => w.s a.toNat == 0#64)
def execBnez (sw : BitVec 1) (a : BitVec 6) (o : BitVec 18) (s : State) : Step :=
  s.branchIf (.bnez sw a o) { sw := sw, src := [.s a.toNat] } o (fun w => w.s a.toNat != 0#64)
def execBra (sw : BitVec 1) (o : BitVec 18) (s : State) : Step := s.branchIf (.bra sw o) { sw := sw } o (fun _ => true)
def execBany (sw : BitVec 1) (k : BitVec 3) (o : BitVec 18) (s : State) : Step :=
  s.branchIf (.bany sw k o) { sw := sw } o (fun w => (w.m k.toNat &&& w.m 0) != 0#32)
def execBall (sw : BitVec 1) (k : BitVec 3) (o : BitVec 18) (s : State) : Step :=
  s.branchIf (.ball sw k o) { sw := sw } o (fun w => (w.m k.toNat &&& w.m 0) == w.m 0)
def execBnone (sw : BitVec 1) (k : BitVec 3) (o : BitVec 18) (s : State) : Step :=
  s.branchIf (.bnone sw k o) { sw := sw } o (fun w => (w.m k.toNat &&& w.m 0) == 0#32)
def execCall (sw : BitVec 1) (o : BitVec 18) (s : State) : Step :=
  s.issue (.call sw o) { sw := sw, dst := [.s 63] } fun wid _ =>
    .ok (s.modWave wid (fun w => { w.setS 63 (w.pc + 4#64) with pc := w.target o }))

/-- A jump to a computed address, with or without the link (07 R190). -/
def State.jump (s : State) (i : Instr) (f : Form) (link : Bool) (target : Wave → DWord) : Step :=
  s.issue i f fun wid w =>
    let t := target w
    if t.extractLsb' 0 2 ≠ 0#2 then .error (trapAt causeMisalign t)
    else .ok (s.modWave wid (fun x => { (if link then x.setS 63 (x.pc + 4#64) else x) with pc := t }))

def execJmpr (sw : BitVec 1) (x : BitVec 6) (i : BitVec 12) (s : State) : Step :=
  s.jump (.jmpr sw x i) { sw := sw, src := [.s x.toNat], imm := true } false (fun w => w.s x.toNat + w.immValue i)
def execCallr (sw : BitVec 1) (x : BitVec 6) (i : BitVec 12) (s : State) : Step :=
  s.jump (.callr sw x i) { sw := sw, src := [.s x.toNat], dst := [.s 63], imm := true } true
    (fun w => w.s x.toNat + w.immValue i)
def execRet (sw : BitVec 1) (s : State) : Step := s.jump (.ret sw) { sw := sw, src := [.s 63] } false (fun w => w.s 63)

/-! ### Yielding, trapping, returning (07 R193-R195) -/

/-- The youngest age of a core, handed to a wave (12 R299). -/
def State.makeYoungest (s : State) (wid : Nat) (w : Wave) : State :=
  let n := match s.cores[w.core]? with
    | some c => c.ageSeq
    | none => 0
  (s.modCore w.core (fun c => { c with ageSeq := c.ageSeq + 1 })).modWave wid (fun x => { x with age := n })

def execYield (sw : BitVec 1) (s : State) : Step :=
  s.issue (.yield sw) { sw := sw } fun wid w => .ok ((s.makeYoungest wid w).advance wid)

def execTrap (sw : BitVec 1) (i : BitVec 12) (s : State) : Step :=
  s.issue (.trap sw i) { sw := sw } fun wid _ => .ok (s.takeTrap wid (trapAt causeTrapInsn (i.setWidth 64)) true)

/-- TRET names the registers that it restores (06 R163; 07 R195; 14 R338). -/
def formTret (sw : BitVec 1) : Form := { sw := sw, dst := [.s 60, .s 61, .s 62] }

/-- TRET: the outstanding results are written first (06 R164; 07 R195). -/
def execTret (sw : BitVec 1) (s : State) : Step :=
  s.issue (.tret sw) (formTret sw) fun wid w =>
    if w.handler then .ok (((s.drainAtoms wid).modWave wid Wave.drainOuts).modWave wid Wave.trapReturn) else .error (trapAt causeIllegal (wordAddr (.tret sw)))

/-! ### Special registers (06 R160; 07 R196, R197) -/

/-- The clock count of a core (07 R197; log 4). -/
def State.coreClock (s : State) (core : Nat) : Nat :=
  match s.cores[core]?, s.quads[core / 40]? with
  | some c, some q => q.clock - c.clockOff
  | _, _ => 0

/-- The value SRD reads (06 R160, 07 R196). -/
def State.specialReg (s : State) (w : Wave) (i : BitVec 12) : DWord :=
  let n (k : Nat) : DWord := BitVec.ofNat 64 k
  let g (f : Group → Nat) : DWord := match s.groups[w.group]? with
    | some x => n (f x)
    | none => 0#64
  if i = 0x000#12 then n (w.index % 2048)
  else if i = 0x001#12 then g (fun x => x.coord.1 % 2 ^ 32)
  else if i = 0x002#12 then g (fun x => x.coord.2.1 % 2 ^ 32)
  else if i = 0x003#12 then g (fun x => x.coord.2.2 % 2 ^ 32)
  else if i = 0x004#12 then g (fun x => x.extent.1 % 2 ^ 32)
  else if i = 0x005#12 then g (fun x => x.extent.2.1 % 2 ^ 32)
  else if i = 0x006#12 then g (fun x => x.extent.2.2 % 2 ^ 32)
  else if i = 0x007#12 then n (w.stage % 4)
  else if i = 0x008#12 then g (fun x => x.waves.length % 4096)
  else if i = 0x010#12 then n (s.coreClock w.core)
  else if i = 0x011#12 then n (w.core % 256)
  else if i = 0x012#12 then match s.ctxs[w.ctx]? with
    | some c => (c.act.ctl.extractLsb' 0 6).setWidth 64
    | none => 0#64
  else if i = 0x020#12 then w.acqCnt ++ w.relCnt
  else if i = 0x021#12 then n ((if w.snapCur then 2 else 0) + (if w.snapOvf then 1 else 0))
  else if i = 0x022#12 then w.fpflags.setWidth 64
  else if i = 0x030#12 then w.trapCause.setWidth 64
  else if i = 0x031#12 then w.trapPc
  else if i = 0x032#12 then w.trapAddr
  else if i = 0x040#12 then n scratchWindow
  else if i = 0x041#12 then n regWindow
  else if i = 0x042#12 then match s.groups[w.group]? with
    | some x => x.got
    | none => 0#64
  else 0#64

/-- The effect of SWR (06 R160, 07 R196). -/
def Wave.writeSpecial (w : Wave) (i : BitVec 12) (v : DWord) : Wave :=
  if i = 0x021#12 then { w with snapOvf := w.snapOvf && !v.getLsbD 0 }
  else if i = 0x022#12 then { w with fpflags := w.fpflags &&& ~~~(v.extractLsb' 0 6) }
  else if i = 0x031#12 then { w with trapPc := v &&& 0xFFFFFFFFFFFFFFFC#64 }
  else w

def execSrd (sw : BitVec 1) (x : BitVec 6) (i : BitVec 12) (s : State) : Step :=
  s.onWave (.srd sw x i) { sw := sw, dst := [.s x.toNat] } (fun w => w.setS x.toNat (s.specialReg w i))
def execSwr (sw : BitVec 1) (x : BitVec 6) (i : BitVec 12) (s : State) : Step :=
  s.onWave (.swr sw x i) { sw := sw, src := [.s x.toNat] } (fun w => w.writeSpecial i (w.s x.toNat))

/-! ### FENCE.I (07 R198) -/

def execFenceI (sw : BitVec 1) (s : State) : Step :=
  s.issue (.fenceI sw) { sw := sw } fun wid w =>
    .ok ((s.modCore w.core (fun c => { c with icache := c.icache.filter (fun l => l.ctx != w.ctx) })).advance wid)

/-! ### Hint words (06 R165-R169) -/

def execHintImm (p : BitVec 20) (s : State) : Step :=
  match s.waves[s.cur]? with
  | none => .fault .noWave
  | some w => match w.pfx with
    | some ⟨_, some _, _⟩ => .next (s.takeTrap s.cur (trapAt causeIllegal (wordAddr (.hintImm p))) false)
    | some ⟨pc, none, m⟩ => .next (s.modWave s.cur (fun x => { x.advance with pfx := some ⟨pc, some p, m⟩ }))
    | none => .next (s.modWave s.cur (fun x => { x.advance with pfx := some ⟨w.pc, some p, none⟩, marked := false }))

def execHintMod (v : BitVec 1) (m : BitVec 2) (t z e w : BitVec 1) (c : BitVec 8) (s : State) : Step :=
  let p : BitVec 20 := v ++ m ++ t ++ z ++ e ++ w ++ c ++ 0#5
  match s.waves[s.cur]? with
  | none => .fault .noWave
  | some x => match x.pfx with
    | some ⟨_, _, some _⟩ =>
      .next (s.takeTrap s.cur (trapAt causeIllegal (wordAddr (.hintMod v m t z e w c))) false)
    | some ⟨pc, i, none⟩ => .next (s.modWave s.cur (fun y => { y.advance with pfx := some ⟨pc, i, some p⟩ }))
    | none => .next (s.modWave s.cur (fun y => { y.advance with pfx := some ⟨x.pc, none, some p⟩, marked := false }))

def execHintSched (sw : BitVec 1) (n : BitVec 4) (s : State) : Step :=
  s.issue (.hintSched sw n) { sw := sw } fun wid w =>
    .ok (s.modWave wid (fun x => { x.advance with
      delayUntil := if n = 0#4 then none else some (s.coreClock w.core + n.toNat) }))

/-- HINT_SCHED_DELAY_END (06 R169): once the clocks have passed, the wave may issue again. -/
def execHintSchedDelayEnd (w : Nat) (s : State) : Step :=
  match s.waves[w]? with
  | some x => match x.delayUntil with
    | some t => if t ≤ s.coreClock x.core then .next (s.modWave w (fun y => { y with delayUntil := none })) else .next s
    | none => .next s
  | none => .next s

end Sys2Proof.Machine
end

