-- ==== Sys2Proof/Machine/Special.lean ====
section
/-! DEFINITION. The special functions RCP, RSQ, SQRT, EXP2, LOG2, SINPI and COSPI, correctly rounded (01 R39).
A result that is no dyadic number is carried as a truncated numeral with an odd last digit standing for the rest of its
expansion, so that one rounding of it is the rounding of the exact value (log 16). -/

namespace Sys2Proof.Machine

/-- Fraction bits of the fixed-point numerals (log 16). -/
def fixBits : Nat := 512
def fixOne : Nat := 2 ^ fixBits

/-- The first 512 fraction bits of pi. -/
def fixPi : Nat :=
  0x3243f6a8885a308d313198a2e03707344a4093822299f31d0082efa98ec4e6c89452821e638d01377be5466cf34e90c6cc0ac29b7c97c50dd3f84d5b5b5470917

/-- The first 512 fraction bits of the natural logarithm of 2. -/
def fixLn2 : Nat :=
  0xb17217f7d1cf79abc9e3b39803f2f6af40f343267298b62d8a0d175b8baafa2be7b876206debac98559552fb4afa1b10ed2eae35c138214427573b291169b825

/-- Integer square root by bits. -/
def isqrtGo : Nat → Nat → Nat → Nat
  | 0, _, r => r
  | n + 1, x, r => isqrtGo n x (if (r + 2 ^ n) * (r + 2 ^ n) ≤ x then r + 2 ^ n else r)

/-- floor of the square root of a number below 2^256. -/
def isqrt (x : Nat) : Nat := isqrtGo 128 x 0

/-- A truncated magnitude: exact, or followed by a non-zero rest. -/
def sticky (neg : Bool) (m : Nat) (e : Int) (exact : Bool) : Num :=
  .fin neg (if exact then 2 * m else 2 * m + 1) (e - 1)

/-- 1/x (01 R39). -/
def rcpNum : Num → Num × Flags
  | .nan => (.nan, flagNone)
  | .inf n => (.fin n 0 0, flagNone)
  | .fin n m e =>
    if m = 0 then (.inf n, flagDZ)
    else (sticky n (2 ^ 80 / m) (-80 - e) (decide (2 ^ 80 % m = 0)), flagNone)

/-- A finite positive value as `m * 2^(2*j)`. -/
def evenExp (m : Nat) (e : Int) : Nat × Int := if e % 2 = 0 then (m, e / 2) else (2 * m, (e - 1) / 2)

/-- 1/sqrt x (01 R39). -/
def rsqNum : Num → Num × Flags
  | .nan => (.nan, flagNone)
  | .inf n => if n then (.nan, flagNV) else (.fin false 0 0, flagNone)
  | .fin n m e =>
    if m = 0 then (.inf n, flagDZ)
    else if n then (.nan, flagNV)
    else
      let (k, j) := evenExp m e
      let r := isqrt (2 ^ 140 / k)
      (sticky false r (-70 - j) (decide (r * r * k = 2 ^ 140)), flagNone)

/-- sqrt x (01 R39). -/
def sqrtNum : Num → Num × Flags
  | .nan => (.nan, flagNone)
  | .inf n => if n then (.nan, flagNV) else (.inf false, flagNone)
  | .fin n m e =>
    if m = 0 then (.fin n 0 0, flagNone)
    else if n then (.nan, flagNV)
    else
      let (k, j) := evenExp m e
      let r := isqrt (k * 2 ^ 80)
      (sticky false r (j - 40) (decide (r * r = k * 2 ^ 80)), flagNone)

/-- The exponential series in fixed point. -/
def expSeries : Nat → Nat → Nat → Nat → Nat → Nat
  | 0, _, _, _, acc => acc
  | n + 1, k, y, t, acc =>
    let t' := t * y / fixOne / k
    expSeries n (k + 1) y t' (acc + t')

/-- 2^x (01 R39). -/
def exp2Num : Num → Num × Flags
  | .nan => (.nan, flagNone)
  | .inf n => (if n then .fin false 0 0 else .inf false, flagNone)
  | .fin n m e =>
    let v : Int := (if n then -(m : Int) else m)
    if 0 ≤ e then (.fin false 1 (v * (2 ^ e.toNat : Nat)), flagNone)
    else
      let x : Int := v * (2 ^ (fixBits - e.natAbs) : Nat)
      let i := x / (fixOne : Int)
      let f := (x % (fixOne : Int)).toNat
      if f = 0 then (.fin false 1 i, flagNone)
      else (sticky false (expSeries 120 1 (f * fixLn2 / fixOne) fixOne fixOne) (i - fixBits) false, flagNone)

/-- The series of the inverse hyperbolic tangent in fixed point. -/
def atanhSeries : Nat → Nat → Nat → Nat → Nat → Nat
  | 0, _, _, _, acc => acc
  | n + 1, k, zz, t, acc => atanhSeries n (k + 2) zz (t * zz / fixOne) (acc + t / k)

/-- log2 of 1 + f/2^512 in fixed point. -/
def log2Fix (x : Nat) : Nat :=
  let z := (x - fixOne) * fixOne / (x + fixOne)
  2 * atanhSeries 180 1 (z * z / fixOne) z 0 * fixOne / fixLn2

/-- log2 x (01 R39). -/
def log2Num : Num → Num × Flags
  | .nan => (.nan, flagNone)
  | .inf n => if n then (.nan, flagNV) else (.inf false, flagNone)
  | .fin n m e =>
    if m = 0 then (.inf true, flagDZ)
    else if n then (.nan, flagNV)
    else
      let l := Nat.log2 m
      let i := (l : Int) + e
      if m = 2 ^ l then (Num.ofInt i, flagNone)
      else
        let t : Int := i * (fixOne : Int) + log2Fix (m * 2 ^ (fixBits - l))
        if t < 0 then (.fin true (2 * t.natAbs - 1) (-(fixBits : Int) - 1), flagNone)
        else (sticky false t.toNat (-(fixBits : Int)) false, flagNone)

/-- The sine series in fixed point. -/
def sinSeries : Nat → Nat → Nat → Nat → Bool → Int → Int
  | 0, _, _, _, _, acc => acc
  | n + 1, k, tt, t, neg, acc =>
    let t' := t * tt / fixOne / ((k + 1) * (k + 2))
    sinSeries n (k + 2) tt t' (!neg) (if neg then acc - t else acc + t)

/-- sin(pi * a) for a in (0, 1/2), in fixed point. -/
def sinPiFix (a : Nat) : Nat :=
  let t := a * fixPi / fixOne
  (sinSeries 64 1 (t * t / fixOne) t false 0).toNat

/-- sin(pi x) (01 R39). -/
def sinpiNum : Num → Num × Flags
  | .nan => (.nan, flagNone)
  | .inf _ => (.nan, flagNV)
  | .fin n m e =>
    if m = 0 ∨ 0 ≤ e then (.fin n 0 0, flagNone)
    else
      let r := m * 2 ^ (fixBits - e.natAbs) % (2 * fixOne)
      let a := r % fixOne
      let s := n != decide (fixOne ≤ r)
      if a = 0 then (.fin n 0 0, flagNone)
      else if 2 * a = fixOne then (.fin s 1 0, flagNone)
      else (sticky s (sinPiFix (if fixOne < 2 * a then fixOne - a else a)) (-(fixBits : Int)) false, flagNone)

/-- cos(pi x) (01 R39). -/
def cospiNum : Num → Num × Flags
  | .nan => (.nan, flagNone)
  | .inf _ => (.nan, flagNV)
  | .fin _ m e =>
    if 0 < e then (.fin false 1 0, flagNone)
    else if fixBits < e.natAbs then (.fin false 1 0, flagNone)
    else
      let r := m * 2 ^ (fixBits - e.natAbs) % (2 * fixOne)
      let a := if fixOne < r then 2 * fixOne - r else r
      if a = 0 then (.fin false 1 0, flagNone)
      else if a = fixOne then (.fin true 1 0, flagNone)
      else if 2 * a = fixOne then (.fin false 0 0, flagNone)
      else if 2 * a < fixOne then (sticky false (sinPiFix (fixOne / 2 - a)) (-(fixBits : Int)) false, flagNone)
      else (sticky true (sinPiFix (a - fixOne / 2)) (-(fixBits : Int)) false, flagNone)

/-- A special function on an FP32 encoding under the modifiers of R167 (08 R220). -/
def specialFn (f : Num → Num × Flags) (md : Modes) (b : Nat) : Nat × Flags :=
  fpResult .fp32 md (f (srcNum .fp32 md b))

end Sys2Proof.Machine
end

