-- ==== Sys2Proof/Machine/Vector.lean ====
section
/-! DEFINITION. Vector arithmetic, conversions, blocks in registers and special functions (08 R205-R220). -/

namespace Sys2Proof.Machine

/-! ### Lane by lane (08 R205-R207) -/

/-- Forms with two, one or a fused third source (06 R157, R167). -/
def formVV (sw : BitVec 1) (d a b : BitVec 8) (m : Option ModAcc) : Form :=
  { sw := sw, src := [.v a.toNat, .v b.toNat], dst := [.v d.toNat], mods := m }
def formV (sw : BitVec 1) (d a : BitVec 8) (m : Option ModAcc) : Form :=
  { sw := sw, src := [.v a.toNat], dst := [.v d.toNat], mods := m }
def formVVC (sw : BitVec 1) (d a b : BitVec 8) (m : ModAcc) : Form :=
  { sw := sw, src := [.v a.toNat, .v b.toNat], acc := some d, dst := [.v d.toNat], mods := some m }

/-- What forms accept (06 R167). -/
def accSat : ModAcc := { sat := true }
def accFp : ModAcc := { rm := true, sat := true, ftz := true }
def accFtz : ModAcc := { ftz := true }
def accFma : ModAcc := { rm := true, sat := true, ftz := true, c := true }
def accF8 : ModAcc := { rm := true, sat := true, f8 := true }
def accDot : ModAcc := { c := true }
def accDot8 : ModAcc := { f8 := true, c := true }
def accDotI : ModAcc := { sat := true, c := true }
def accRm : ModAcc := { rm := true }

/-- The flags of the lanes of a mask, ORed (01 R29). -/
def laneFlags (mask : Word) (f : Nat → Flags) : Nat → Flags
  | 0 => flagNone
  | n + 1 => if mask.getLsbD n then laneFlags mask f n ||| f n else laneFlags mask f n

/-- Write a destination lane by lane, with flags and the side-band of 08 R206. -/
def Wave.laneResult (w : Wave) (d : Nat) (g : Nat → Word × Flags) : Wave :=
  (w.writeLanes d (w.m 0) Side.none (fun l => (g l).1)).orFlags (laneFlags (w.m 0) (fun l => (g l).2) 32)

/-- A lane function of two sources that sets no flag (08 R208). -/
def laneVV (d a b : BitVec 8) (f : Word → Word → Word) (w : Wave) : Wave :=
  w.laneResult d.toNat (fun l => (f (w.v a.toNat l) (w.v b.toNat l), flagNone))

/-- A lane function of one source that sets no flag. -/
def laneV (d a : BitVec 8) (f : Word → Word) (w : Wave) : Wave :=
  w.laneResult d.toNat (fun l => (f (w.v a.toNat l), flagNone))

/-- A lane function of two sources with flags. -/
def laneVVF (d a b : BitVec 8) (f : Wave → Word → Word → Word × Flags) (w : Wave) : Wave :=
  w.laneResult d.toNat (fun l => f w (w.v a.toNat l) (w.v b.toNat l))

/-- A lane function of two sources and the addend of a fused form. -/
def laneVVC (d a b : BitVec 8) (f : Wave → Word → Word → Word → Word × Flags) (w : Wave) : Wave :=
  w.laneResult d.toNat (fun l => f w (w.v a.toNat l) (w.v b.toNat l) (w.v (w.third d) l))

/-! ### Integer and bit forms (08 R208) -/

/-- A signed result with the SAT of the group of words (08 R208). -/
def satI32 (w : Wave) (v : Int) : Word × Flags := signedResult 32 w.modes.sat v

def execVaddI32 (sw : BitVec 1) (d a b : BitVec 8) (s : State) : Step :=
  s.onWave (.vaddI32 sw d a b) (formVV sw d a b accSat) (laneVVF d a b (fun w x y => satI32 w (x.toInt + y.toInt)))
def execVsubI32 (sw : BitVec 1) (d a b : BitVec 8) (s : State) : Step :=
  s.onWave (.vsubI32 sw d a b) (formVV sw d a b accSat) (laneVVF d a b (fun w x y => satI32 w (x.toInt - y.toInt)))
def execVmulI32 (sw : BitVec 1) (d a b : BitVec 8) (s : State) : Step :=
  s.onWave (.vmulI32 sw d a b) (formVV sw d a b accSat) (laneVVF d a b (fun w x y => satI32 w (x.toInt * y.toInt)))
def execVmulhI32 (sw : BitVec 1) (d a b : BitVec 8) (s : State) : Step :=
  s.onWave (.vmulhI32 sw d a b) (formVV sw d a b none)
    (laneVV d a b (fun x y => (x.signExtend 64 * y.signExtend 64).extractLsb' 32 32))
def execVmulhuI32 (sw : BitVec 1) (d a b : BitVec 8) (s : State) : Step :=
  s.onWave (.vmulhuI32 sw d a b) (formVV sw d a b none)
    (laneVV d a b (fun x y => (x.setWidth 64 * y.setWidth 64).extractLsb' 32 32))

/-- Signed minimum and maximum (08 R208, R225). -/
def minS (x y : Word) : Word := if y.slt x then y else x
def maxS (x y : Word) : Word := if x.slt y then y else x

def execVminI32 (sw : BitVec 1) (d a b : BitVec 8) (s : State) : Step :=
  s.onWave (.vminI32 sw d a b) (formVV sw d a b none) (laneVV d a b minS)
def execVmaxI32 (sw : BitVec 1) (d a b : BitVec 8) (s : State) : Step :=
  s.onWave (.vmaxI32 sw d a b) (formVV sw d a b none) (laneVV d a b maxS)
def execVminuI32 (sw : BitVec 1) (d a b : BitVec 8) (s : State) : Step :=
  s.onWave (.vminuI32 sw d a b) (formVV sw d a b none) (laneVV d a b (fun x y => if y.ult x then y else x))
def execVmaxuI32 (sw : BitVec 1) (d a b : BitVec 8) (s : State) : Step :=
  s.onWave (.vmaxuI32 sw d a b) (formVV sw d a b none) (laneVV d a b (fun x y => if x.ult y then y else x))
def execVand (sw : BitVec 1) (d a b : BitVec 8) (s : State) : Step :=
  s.onWave (.vand sw d a b) (formVV sw d a b none) (laneVV d a b (· &&& ·))
def execVor (sw : BitVec 1) (d a b : BitVec 8) (s : State) : Step :=
  s.onWave (.vor sw d a b) (formVV sw d a b none) (laneVV d a b (· ||| ·))
def execVxor (sw : BitVec 1) (d a b : BitVec 8) (s : State) : Step :=
  s.onWave (.vxor sw d a b) (formVV sw d a b none) (laneVV d a b (· ^^^ ·))
def execVshl (sw : BitVec 1) (d a b : BitVec 8) (s : State) : Step :=
  s.onWave (.vshl sw d a b) (formVV sw d a b none) (laneVV d a b (fun x y => x <<< (y.toNat % 32)))
def execVshr (sw : BitVec 1) (d a b : BitVec 8) (s : State) : Step :=
  s.onWave (.vshr sw d a b) (formVV sw d a b none) (laneVV d a b (fun x y => x >>> (y.toNat % 32)))
def execVsar (sw : BitVec 1) (d a b : BitVec 8) (s : State) : Step :=
  s.onWave (.vsar sw d a b) (formVV sw d a b none) (laneVV d a b (fun x y => x.sshiftRight (y.toNat % 32)))

/-- VMOV copies the side-band and the format code as well (08 R206). -/
def execVmov (sw : BitVec 1) (d a : BitVec 8) (s : State) : Step :=
  s.onWave (.vmov sw d a) (formV sw d a none)
    (fun w => w.writeLanes d.toNat (w.m 0) (w.vreg a.toNat).side (w.v a.toNat))
def execVpopc (sw : BitVec 1) (d a : BitVec 8) (s : State) : Step :=
  s.onWave (.vpopc sw d a) (formV sw d a none) (laneV d a (fun x => BitVec.ofNat 32 (popBits x 32)))
def execVclz (sw : BitVec 1) (d a : BitVec 8) (s : State) : Step :=
  s.onWave (.vclz sw d a) (formV sw d a none) (laneV d a (fun x => BitVec.ofNat 32 (leadZeros x 32)))
def execVsel (sw : BitVec 1) (d a b : BitVec 8) (s : State) : Step :=
  s.onWave (.vsel sw d a b) (formVV sw d a b none) (fun w =>
    w.laneResult d.toNat (fun l => (if (w.m 1).getLsbD l then w.v a.toNat l else w.v b.toNat l, flagNone)))

/-! ### FP32 forms (08 R209, R210) -/

/-- FpResult of an exact value, as a lane. -/
def fp32Lane (md : Modes) (x : Num × Flags) : Word × Flags :=
  let r := fpResult .fp32 md x
  (BitVec.ofNat 32 r.1, r.2)

/-- Src(FP32, x) decoded (08 R207). -/
def src32 (w : Wave) (x : Word) : Num := srcNum .fp32 w.modes x.toNat

/-- Src(FP32, x) as bits (08 R207). -/
def flush32 (w : Wave) (x : Word) : Word := BitVec.ofNat 32 (flushSource .fp32 w.modes.ftz x.toNat)

def execVaddF32 (sw : BitVec 1) (d a b : BitVec 8) (s : State) : Step :=
  s.onWave (.vaddF32 sw d a b) (formVV sw d a b accFp)
    (laneVVF d a b (fun w x y => fp32Lane w.modes (Num.add w.modes.round (src32 w x) (src32 w y))))
def execVsubF32 (sw : BitVec 1) (d a b : BitVec 8) (s : State) : Step :=
  s.onWave (.vsubF32 sw d a b) (formVV sw d a b accFp)
    (laneVVF d a b (fun w x y => fp32Lane w.modes (Num.add w.modes.round (src32 w x) (src32 w y).negate)))
def execVmulF32 (sw : BitVec 1) (d a b : BitVec 8) (s : State) : Step :=
  s.onWave (.vmulF32 sw d a b) (formVV sw d a b accFp)
    (laneVVF d a b (fun w x y => fp32Lane w.modes (Num.mul (src32 w x) (src32 w y))))
def execVfmaF32 (sw : BitVec 1) (d a b : BitVec 8) (s : State) : Step :=
  s.onWave (.vfmaF32 sw d a b) (formVVC sw d a b accFma)
    (laneVVC d a b (fun w x y z => fp32Lane w.modes (Num.fma w.modes.round (src32 w x) (src32 w y) (src32 w z))))
def execVminF32 (sw : BitVec 1) (d a b : BitVec 8) (s : State) : Step :=
  s.onWave (.vminF32 sw d a b) (formVV sw d a b accFtz)
    (laneVVF d a b (fun w x y => (fpMin (flush32 w x) (flush32 w y), flagNone)))
def execVmaxF32 (sw : BitVec 1) (d a b : BitVec 8) (s : State) : Step :=
  s.onWave (.vmaxF32 sw d a b) (formVV sw d a b accFtz)
    (laneVVF d a b (fun w x y => (fpMax (flush32 w x) (flush32 w y), flagNone)))
def execVabsF32 (sw : BitVec 1) (d a : BitVec 8) (s : State) : Step :=
  s.onWave (.vabsF32 sw d a) (formV sw d a accFtz)
    (fun w => laneV d a (fun x => flush32 w x &&& 0x7FFFFFFF#32) w)
def execVnegF32 (sw : BitVec 1) (d a : BitVec 8) (s : State) : Step :=
  s.onWave (.vnegF32 sw d a) (formV sw d a accFtz)
    (fun w => laneV d a (fun x => flush32 w x ^^^ 0x80000000#32) w)

/-! ### Packed forms (08 R211, R212) -/

/-- Sub(x, w, j) as a number (06 R173). -/
def subElem (x : Word) (w j : Nat) : Nat := x.toNat / 2 ^ (w * j) % 2 ^ w

/-- A lane made of its sub-elements 0 to n-1, each on its own (01 R31). -/
def packLane (w : Nat) (f : Nat → Nat × Flags) : Nat → Nat × Flags
  | 0 => (0, flagNone)
  | n + 1 => ((packLane w f n).1 + (f n).1 % 2 ^ w * 2 ^ (w * n), (packLane w f n).2 ||| (f n).2)

/-- A packed lane as a word. -/
def packWord (w n : Nat) (f : Nat → Nat × Flags) : Word × Flags :=
  (BitVec.ofNat 32 (packLane w f n).1, (packLane w f n).2)

/-- A packed floating-point lane (08 R211). -/
def packFp (f : ElemFmt) (w : Wave) (g : RoundMode → Num → Num → Num × Flags) (x y : Word) : Word × Flags :=
  packWord f.width (32 / f.width) (fun j => fpResult f w.modes
    (g w.modes.round (srcNum f w.modes (subElem x f.width j)) (srcNum f w.modes (subElem y f.width j))))

/-- A packed fused lane (08 R211). -/
def packFma (f : ElemFmt) (w : Wave) (x y z : Word) : Word × Flags :=
  packWord f.width (32 / f.width) (fun j => fpResult f w.modes
    (Num.fma w.modes.round (srcNum f w.modes (subElem x f.width j)) (srcNum f w.modes (subElem y f.width j))
      (srcNum f w.modes (subElem z f.width j))))

/-- The 8-bit format that F8SEL selects (06 R167). -/
def Wave.f8 (w : Wave) : ElemFmt := if w.f8sel then .e5m2 else .e4m3

def execVaddBf16x2 (sw : BitVec 1) (d a b : BitVec 8) (s : State) : Step :=
  s.onWave (.vaddBf16x2 sw d a b) (formVV sw d a b accFp) (laneVVF d a b (fun w => packFp .bf16 w Num.add))
def execVmulBf16x2 (sw : BitVec 1) (d a b : BitVec 8) (s : State) : Step :=
  s.onWave (.vmulBf16x2 sw d a b) (formVV sw d a b accFp) (laneVVF d a b (fun w => packFp .bf16 w (fun _ => Num.mul)))
def execVfmaBf16x2 (sw : BitVec 1) (d a b : BitVec 8) (s : State) : Step :=
  s.onWave (.vfmaBf16x2 sw d a b) (formVVC sw d a b accFma) (laneVVC d a b (packFma .bf16))
def execVaddFp16x2 (sw : BitVec 1) (d a b : BitVec 8) (s : State) : Step :=
  s.onWave (.vaddFp16x2 sw d a b) (formVV sw d a b accFp) (laneVVF d a b (fun w => packFp .fp16 w Num.add))
def execVmulFp16x2 (sw : BitVec 1) (d a b : BitVec 8) (s : State) : Step :=
  s.onWave (.vmulFp16x2 sw d a b) (formVV sw d a b accFp) (laneVVF d a b (fun w => packFp .fp16 w (fun _ => Num.mul)))
def execVfmaFp16x2 (sw : BitVec 1) (d a b : BitVec 8) (s : State) : Step :=
  s.onWave (.vfmaFp16x2 sw d a b) (formVVC sw d a b accFma) (laneVVC d a b (packFma .fp16))
def execVaddE4m3x4 (sw : BitVec 1) (d a b : BitVec 8) (s : State) : Step :=
  s.onWave (.vaddE4m3x4 sw d a b) (formVV sw d a b accF8) (laneVVF d a b (fun w => packFp w.f8 w Num.add))
def execVmulE4m3x4 (sw : BitVec 1) (d a b : BitVec 8) (s : State) : Step :=
  s.onWave (.vmulE4m3x4 sw d a b) (formVV sw d a b accF8) (laneVVF d a b (fun w => packFp w.f8 w (fun _ => Num.mul)))

/-- A packed integer lane, signed or unsigned (08 R212). -/
def packInt (signed : Bool) (w : Wave) (g : Int → Int → Int) (x y : Word) : Word × Flags :=
  packWord 8 4 (fun j =>
    let r := if signed then signedResult 8 w.modes.sat (g (decodeInt .int8 (subElem x 8 j)) (decodeInt .int8 (subElem y 8 j)))
      else unsignedResult 8 w.modes.sat (g (subElem x 8 j) (subElem y 8 j))
    (r.1.toNat, r.2))

def execVaddInt8x4 (sw : BitVec 1) (d a b : BitVec 8) (s : State) : Step :=
  s.onWave (.vaddInt8x4 sw d a b) (formVV sw d a b accSat) (laneVVF d a b (fun w => packInt true w (· + ·)))
def execVsubInt8x4 (sw : BitVec 1) (d a b : BitVec 8) (s : State) : Step :=
  s.onWave (.vsubInt8x4 sw d a b) (formVV sw d a b accSat) (laneVVF d a b (fun w => packInt true w (· - ·)))
def execVaddUint8x4 (sw : BitVec 1) (d a b : BitVec 8) (s : State) : Step :=
  s.onWave (.vaddUint8x4 sw d a b) (formVV sw d a b accSat) (laneVVF d a b (fun w => packInt false w (· + ·)))
def execVsubUint8x4 (sw : BitVec 1) (d a b : BitVec 8) (s : State) : Step :=
  s.onWave (.vsubUint8x4 sw d a b) (formVV sw d a b accSat) (laneVVF d a b (fun w => packInt false w (· - ·)))

/-! ### Dot products (08 R213) -/

/-- Dot over the sub-elements of a lane, in ascending order (01 R36). -/
def dotLane (f : ElemFmt) (x y c : Word) : Word × Flags :=
  let r := dot c.toNat ((List.range (32 / f.width)).map (fun j =>
    (srcNum f Modes.default (subElem x f.width j), srcNum f Modes.default (subElem y f.width j))))
  (BitVec.ofNat 32 r.1, r.2)

/-- The exact integer sum of VDOT4.INT8. -/
def dotInt8 (w : Wave) (x y c : Word) : Word × Flags :=
  satI32 w ((List.range 4).foldl (fun t j => t + decodeInt .int8 (subElem x 8 j) * decodeInt .int8 (subElem y 8 j)) c.toInt)

def execVdot2Bf16 (sw : BitVec 1) (d a b : BitVec 8) (s : State) : Step :=
  s.onWave (.vdot2Bf16 sw d a b) (formVVC sw d a b accDot) (laneVVC d a b (fun _ => dotLane .bf16))
def execVdot2Fp16 (sw : BitVec 1) (d a b : BitVec 8) (s : State) : Step :=
  s.onWave (.vdot2Fp16 sw d a b) (formVVC sw d a b accDot) (laneVVC d a b (fun _ => dotLane .fp16))
def execVdot4E4m3 (sw : BitVec 1) (d a b : BitVec 8) (s : State) : Step :=
  s.onWave (.vdot4E4m3 sw d a b) (formVVC sw d a b accDot8) (laneVVC d a b (fun w => dotLane w.f8))
def execVdot4Int8 (sw : BitVec 1) (d a b : BitVec 8) (s : State) : Step :=
  s.onWave (.vdot4Int8 sw d a b) (formVVC sw d a b accDotI) (laneVVC d a b dotInt8)

/-! ### Conversions (08 R214-R216) -/

/-- The element format of a code, FP32 for codes that no accepted form names. -/
def fmtOf (c : BitVec 4) : ElemFmt := (ElemFmt.ofCode c.toNat).getD .fp32

def execVcvt (sw : BitVec 1) (d a : BitVec 8) (f g : BitVec 4) (s : State) : Step :=
  s.onWave (.vcvt sw d a f g) (formV sw d a accFp) (fun w => w.laneResult d.toNat (fun l =>
    let r := convert (fmtOf f) (fmtOf g) w.modes (subElem (w.v a.toNat l) (fmtOf g).width 0)
    (BitVec.ofNat 32 r.1, r.2)))

/-- Consecutive vector registers. -/
def vregs (r : BitVec 8) (n : Nat) : List RegRef := (List.range n).map (fun k => .v (r.toNat + k))

def execVcvtpk (sw : BitVec 1) (d a : BitVec 8) (f g : BitVec 4) (s : State) : Step :=
  s.onWave (.vcvtpk sw d a f g)
    { sw := sw, src := vregs a (packCount f g), dst := [.v d.toNat], mods := some accFp }
    (fun w => w.laneResult d.toNat (fun l =>
      packWord (fmtOf f).width (32 / (fmtOf f).width) (fun j =>
        let ns := 32 / (fmtOf g).width
        convert (fmtOf f) (fmtOf g) w.modes (subElem (w.v (a.toNat + j / ns) l) (fmtOf g).width (j % ns)))))

/-- Write the registers of an unpacking conversion, all from the sources as they stood (08 R205, R216). -/
def unpackRegs (src : Wave) (d a : BitVec 8) (f g : ElemFmt) : Nat → Wave → Wave
  | 0, w => w
  | i + 1, w => (unpackRegs src d a f g i w).laneResult (d.toNat + i) (fun l =>
      packWord f.width (32 / f.width) (fun j =>
        convert f g src.modes (subElem (src.v a.toNat l) g.width (i * (32 / f.width) + j))))

def execVcvtxp (sw : BitVec 1) (d a : BitVec 8) (f g : BitVec 4) (s : State) : Step :=
  s.onWave (.vcvtxp sw d a f g)
    { sw := sw, src := [.v a.toNat], dst := vregs d (unpackCount f g), mods := some accFp }
    (fun w => unpackRegs w d a (fmtOf f) (fmtOf g) (unpackCount f g) w)

/-! ### Blocks in registers (08 R217-R219) -/

/-- Elements packed from the lowest bit up. -/
def packElems (width : Nat) : List Nat → Nat
  | [] => 0
  | e :: rest => e % 2 ^ width + 2 ^ width * packElems width rest

/-- One line of blocks quantised from rows of 32 values: its data, its scales in the order of 02 R48, the flags. -/
def quantLine (f : ElemFmt) (mode : RoundMode) : List (List Num) → List Nat × List Nat × Flags
  | [] => ([], [], flagNone)
  | xs :: rest =>
    let (es, sc, fl) := quantBlock f mode xs
    let (es', sc', fl') := quantLine f mode rest
    (es ++ es', sc ++ sc', fl ||| fl')

/-- Scale bytes as a side-band (02 R48). -/
def bandOf (sc : List Nat) : BitVec 128 := BitVec.ofNat 128 (packElems 8 sc)

def execVqblk (sw : BitVec 1) (d a : BitVec 8) (f : BitVec 4) (s : State) : Step :=
  s.onWave (.vqblk sw d a f)
    { sw := sw, src := vregs a (blockRegs f), dst := [.v d.toNat], mods := some accRm,
      feat := if f = 10#4 ∨ f = 12#4 then some 2 else none }
    (fun w =>
      let rows := (List.range (blockRegs f)).map (fun b => (List.range 32).map (fun l =>
        decodeFloat .fp32 (w.v (a.toNat + b) l).toNat))
      let (es, sc, fl) := quantLine (fmtOf f) w.modes.round rows
      let line : Line := BitVec.ofNat 1024 (packElems (fmtOf f).width es)
      if w.m 0 = 0#32 then w
      else (w.writeLanes d.toNat (w.m 0) ⟨bandOf sc, some f⟩ (laneOf line)).orFlags fl)

/-- The scale bytes of block `b` in a side-band (02 R48). -/
def blockScalesOf (f : ElemFmt) (band : BitVec 128) (b : Nat) : List Nat :=
  (List.range f.scaleBytes).map (fun k => (band.extractLsb' (8 * (f.scaleBytes * b + k)) 8).toNat)

/-- Element `e` of a line of blocks, decoded with its scales (01 R17, R18; 08 R217). -/
def lineElem (f : ElemFmt) (d : Line) (band : BitVec 128) (e : Nat) : Num :=
  decodeElem f (d.extractLsb' (f.width * e) f.width).toNat (blockScalesOf f band (e / 32))

/-- Write the registers of VDQBLK, all from the source as it stood. -/
def dequantRegs (src : VReg) (f : ElemFmt) (d : BitVec 8) : Nat → Wave → Wave
  | 0, w => w
  | b + 1, w => (dequantRegs src f d b w).laneResult (d.toNat + b) (fun l =>
      let r := roundTo .fp32 .rne false (lineElem f src.data src.side.band (32 * b + l))
      (BitVec.ofNat 32 r.1, r.2))

def execVdqblk (sw : BitVec 1) (d a : BitVec 8) (f : BitVec 4) (s : State) : Step :=
  s.onWave (.vdqblk sw d a f)
    { sw := sw, src := [.v a.toNat], dst := vregs d (blockRegs f),
      feat := if f = 10#4 ∨ f = 12#4 then some 2 else none }
    (fun w => dequantRegs (w.vreg a.toNat) (fmtOf f) d (blockRegs f) w)

/-! ### Special functions (08 R220) -/

/-- A special function: its lanes are a variable-latency result, its flags are those of the instruction (06 R162).
DESIGN CHOICE (log 78): they enter SR_FPFLAGS at issue, before the lanes are written. -/
def sfuResult (d a : BitVec 8) (f : Num → Num × Flags) (w : Wave) : Wave :=
  let r (l : Nat) : Nat × Flags := specialFn f w.modes (w.v a.toNat l).toNat
  (w.addOut (.v d.toNat (w.m 0) (mergeLanes (w.m 0) 0#1024 (fun l => BitVec.ofNat 32 (r l).1) 32) Side.none)).orFlags
    (laneFlags (w.m 0) (fun l => (r l).2) 32)

def execVrcp (sw : BitVec 1) (d a : BitVec 8) (s : State) : Step :=
  s.onWave (.vrcp sw d a) (formV sw d a accFp) (sfuResult d a rcpNum)
def execVrsq (sw : BitVec 1) (d a : BitVec 8) (s : State) : Step :=
  s.onWave (.vrsq sw d a) (formV sw d a accFp) (sfuResult d a rsqNum)
def execVsqrt (sw : BitVec 1) (d a : BitVec 8) (s : State) : Step :=
  s.onWave (.vsqrt sw d a) (formV sw d a accFp) (sfuResult d a sqrtNum)
def execVexp2 (sw : BitVec 1) (d a : BitVec 8) (s : State) : Step :=
  s.onWave (.vexp2 sw d a) (formV sw d a accFp) (sfuResult d a exp2Num)
def execVlog2 (sw : BitVec 1) (d a : BitVec 8) (s : State) : Step :=
  s.onWave (.vlog2 sw d a) (formV sw d a accFp) (sfuResult d a log2Num)
def execVsinpi (sw : BitVec 1) (d a : BitVec 8) (s : State) : Step :=
  s.onWave (.vsinpi sw d a) (formV sw d a accFp) (sfuResult d a sinpiNum)
def execVcospi (sw : BitVec 1) (d a : BitVec 8) (s : State) : Step :=
  s.onWave (.vcospi sw d a) (formV sw d a accFp) (sfuResult d a cospiNum)

end Sys2Proof.Machine
end

