-- ==== Sys2Proof/Machine/Copies.lean ====
section
/-! DEFINITION. The copy engine: descriptors and their acceptance, element addresses, chains, landing, follow-on fields,
Publish Buffers (03 R78-R108). -/

namespace Sys2Proof.Machine

/-! ### Descriptors (03 R82, R83, R88) -/

/-- The fields of a request descriptor (03 R82, R83). `exts` and `strs` hold the dimensions that the form has. -/
structure CopyDesc where
  form : Nat
  ssp : Nat
  dsp : Nat
  ndim : Nat
  sfmt : Nat
  dfmt : Nat
  fmode : Nat
  fsat : Bool
  tside : Bool
  bar : Bool
  ring : Bool
  follow : Bool
  nstage : Nat
  arr : Nat
  tag : BitVec 16
  src : DWord
  dst : DWord
  baroff : Nat
  extoff : Nat
  exts : List Nat
  strs : List Int
  deriving DecidableEq, Repr

/-- A stride from its 32 bits. -/
def signed32 (x : Nat) : Int := (BitVec.ofNat 32 x).toInt

/-- Read a descriptor from its quadwords (03 R82, R83). -/
def CopyDesc.of (l : List DWord) : CopyDesc :=
  let q0 := qAt l 0
  let q3 := qAt l 3
  let x := quadsNat l
  let long := bitsOf q0 0 2 = 1
  let dims := if long then 12 else 6
  let strAt := if long then 56 else 44
  { form := bitsOf q0 0 2, ssp := bitsOf q0 2 2, dsp := bitsOf q0 4 2, ndim := bitsOf q0 6 4 + 1, sfmt := bitsOf q0 10 4,
    dfmt := bitsOf q0 14 4, fmode := bitsOf q0 18 2, fsat := q0.getLsbD 20, tside := q0.getLsbD 21, bar := q0.getLsbD 22,
    ring := q0.getLsbD 23, follow := q0.getLsbD 24, nstage := bitsOf q0 25 4, arr := bitsOf q0 29 2,
    tag := q0.extractLsb' 32 16, src := qAt l 1, dst := qAt l 2, baroff := bitsOf q3 0 21, extoff := bitsOf q3 32 21,
    exts := (List.range dims).map (fun d => fieldAt x (32 + 2 * d) 2),
    strs := (List.range dims).map (fun d => if d = 0 then 0 else signed32 (fieldAt x (strAt + 4 * (d - 1)) 4)) }

def CopyDesc.srcFmt (d : CopyDesc) : ElemFmt := (ElemFmt.ofCode d.sfmt).getD .fp32
def CopyDesc.dstFmt (d : CopyDesc) : ElemFmt := (ElemFmt.ofCode d.dfmt).getD .fp32

/-- Sizes in nibbles (03 R85). -/
def CopyDesc.srcNibs (d : CopyDesc) : Nat := d.srcFmt.width / 4
def CopyDesc.dstNibs (d : CopyDesc) : Nat := d.dstFmt.width / 4

/-- Extent and stride of a dimension. -/
def CopyDesc.ext (d : CopyDesc) (k : Nat) : Nat := d.exts.getD k 0
def CopyDesc.str (d : CopyDesc) (k : Nat) : Int := d.strs.getD k 0

/-- Elements of the request (03 R85). -/
def CopyDesc.count (d : CopyDesc) : Nat := ((List.range d.ndim).map d.ext).foldl (· * ·) 1

/-- Destination bytes of the request (03 R90). -/
def CopyDesc.bytes (d : CopyDesc) : Nat := (d.count * d.dstNibs + 1) / 2

/-- Are enabled parts of an extension block read (03 R88)? -/
def CopyDesc.hasExt (d : CopyDesc) : Bool := decide (d.nstage ≠ 0) || d.ring || d.follow

/-! ### Acceptance (03 R86, R105) -/

/-- Bytes of `k` elements of A, in whole blocks for block formats (10 R254). -/
def rowBytes (f : ElemFmt) (k : Nat) : Nat :=
  if f.isBlock then (k + 31) / 32 * blockBytes (BitVec.ofNat 4 f.code) else k * (f.width / 8)

/-- The bytes that the tensor side spans, as nibble offsets from its base (03 R85). -/
def CopyDesc.tensorSpan (d : CopyDesc) (nibs : Nat) : Int × Int :=
  let part (k : Nat) : Int := 2 * d.str k * ((d.ext k : Int) - 1)
  let ks := (List.range d.ndim).drop 1
  (ks.foldl (fun a k => a + min 0 (part k)) 0,
   ks.foldl (fun a k => a + max 0 (part k)) ((d.ext 0 * nibs : Nat) : Int))

/-- Does a side in scratchpad lie inside it (03 R105)? -/
def CopyDesc.sideFits (d : CopyDesc) (tensor : Bool) (base : DWord) (nibs size : Nat) : Bool :=
  if tensor then
    let (lo, hi) := d.tensorSpan nibs
    decide (0 ≤ 2 * (base.toNat : Int) + lo) && decide (2 * (base.toNat : Int) + hi ≤ 2 * (size : Int))
  else decide (2 * base.toNat + d.count * nibs ≤ 2 * size)

/-- The format rules of R86 on one side. -/
def CopyDesc.sideAligned (d : CopyDesc) (f : ElemFmt) (tensor : Bool) (base : DWord) : Bool :=
  if f.isBlock then
    let b := blockBytes (BitVec.ofNat 4 f.code)
    decide (base.toNat % b = 0) &&
      (!tensor || ((List.range d.ndim).drop 1).all (fun k => decide (d.str k % (b : Int) = 0)))
  else true

/-- R86. -/
def CopyDesc.formatsFit (d : CopyDesc) : Bool :=
  (decide (d.srcFmt.width ≠ 4 ∧ d.dstFmt.width ≠ 4) || decide (d.ext 0 % 2 = 0)) &&
  (!(d.srcFmt.isBlock || d.dstFmt.isBlock) || decide (d.ext 0 % 32 = 0)) &&
  d.sideAligned d.srcFmt (!d.tside) d.src && d.sideAligned d.dstFmt d.tside d.dst

/-- Stage k of the chain (03 R89). -/
def stageAt (ext : List DWord) (k : Nat) : DWord := qAt ext k

/-- Is a stage well formed (03 R89)? -/
def stageOk (st : DWord) : Bool :=
  let op := bitsOf st 0 4
  decide (1 ≤ op) && decide (op ≤ 12) &&
  (if op = 12 then decide (1 ≤ bitsOf st 4 4) && decide (bitsOf st 4 4 ≤ 4) else decide (bitsOf st 4 7 = 0)) &&
  (!([6, 8, 9, 10, 11, 12].contains op) || decide (bitsOf st 32 32 = 0)) &&
  (op ≠ 3 || decide (bitsOf st 32 32 % 4 = 0))

/-- The reserved bits of a descriptor and of the enabled extension parts are zero (03 R82, R83, R88, R89, R92, R94). -/
def reservedOk (d : CopyDesc) (l ext : List DWord) : Bool :=
  let q0 := qAt l 0
  let q3 := qAt l 3
  decide (bitsOf q0 48 16 = 0) && !q0.getLsbD 31 && decide (bitsOf q3 21 11 = 0) && decide (bitsOf q3 53 11 = 0) &&
  (d.form ≠ 1 || decide (fieldAt (quadsNat l) 100 28 = 0)) &&
  (List.range (min d.nstage 8)).all (fun k => decide (bitsOf (stageAt ext k) 11 21 = 0)) &&
  (!d.ring || (decide (bitsOf (qAt ext 8) 21 11 = 0) && decide (bitsOf (qAt ext 8) 53 11 = 0) &&
    decide (bitsOf (qAt ext 9) 53 3 = 0) && !(qAt ext 9).getLsbD 63)) &&
  (!d.follow || (decide (bitsOf (qAt ext 10) 29 3 = 0) && decide (bitsOf (qAt ext 11) 21 11 = 0) &&
    decide (bitsOf (qAt ext 11) 53 11 = 0) && decide (bitsOf (qAt ext 12) 20 12 = 0) &&
    decide (bitsOf (qAt ext 13) 22 10 = 0) && decide (bitsOf (qAt ext 13) 54 10 = 0)))

/-- Extents and strides beyond NDIM are zero, and the bases fit their spaces (03 R82). -/
def unusedOk (d : CopyDesc) : Bool :=
  (List.range 12).all (fun k => decide (k < d.ndim) || (d.ext k = 0 && d.str k = 0)) &&
  (d.bar || d.baroff = 0) && (d.hasExt || d.extoff = 0) &&
  (d.ssp ≠ 1 || decide (d.src.toNat < 2 ^ 21)) && (d.dsp ≠ 1 || decide (d.dst.toNat < 2 ^ 21)) &&
  (d.dsp ≠ 2 || decide (d.dst.toNat < 2 ^ 20))

/-- The spaces and the claim (03 R84, R105). -/
def spacesOk (d : CopyDesc) (claim : Bool) : Bool :=
  d.dsp ≠ 3 && decide (d.ssp < 2) && (d.dsp = 2 || d.arr = 0) &&
  (d.dsp ≠ 2 || (!d.tside && d.sfmt = d.dfmt && d.nstage = 0 && !d.ring)) && (claim || (d.dsp ≠ 2 && !d.follow))

/-- The scratchpad ranges that a request names lie inside the group's scratchpad (03 R105). DESIGN CHOICE (log 78): the last ring
slot is checked over the destination bytes of the request, not over the slot stride. DESIGN CHOICE (log 85): a follow-on's A whose code is no
matrix format has rows of K elements of the code's width, and of no bytes for codes 13 to 15. -/
def rangesOk (d : CopyDesc) (ext : List DWord) (size : Nat) : Bool :=
  let m := bitsOf (qAt ext 10) 12 9
  let rb := match ElemFmt.ofCode (bitsOf (qAt ext 10) 4 4) with
    | some f => rowBytes f (bitsOf (qAt ext 10) 32 32)
    | none => 0
  let a := bitsOf (qAt ext 11) 0 21 + (m - 1) * bitsOf (qAt ext 11) 32 21 + rb
  (d.ssp ≠ 1 || d.sideFits (!d.tside) d.src d.srcNibs size) &&
  (d.dsp ≠ 1 || d.ring || d.sideFits d.tside d.dst d.dstNibs size) && (!d.bar || decide (d.baroff + 16 ≤ size)) &&
  (List.range (min d.nstage 8)).all (fun k => bitsOf (stageAt ext k) 0 4 ≠ 3 ||
    decide (bitsOf (stageAt ext k) 32 32 + 4 * d.ext 0 ≤ size)) &&
  (!d.ring || (decide (ringFull ext + 16 * ringCount ext ≤ size) && decide (ringEmpty ext + 16 * ringCount ext ≤ size) &&
    (d.dsp ≠ 1 || decide (d.dst.toNat + (ringCount ext - 1) * ringSlot ext + d.bytes ≤ size)))) &&
  (!d.follow || (decide (a ≤ size) &&
    (!(qAt ext 13).getLsbD 21 || decide (bitsOf (qAt ext 13) 0 21 + 16 ≤ size)) &&
    (!(qAt ext 13).getLsbD 53 || decide (bitsOf (qAt ext 13) 32 21 + 16 ≤ size))))

/-- A format code that names no format, or one of a feature the context lacks (03 R105, 15 R373). -/
def codeOk (features : Nat) (c : Nat) : Bool := decide (c ≤ 12) && (features.testBit 2 || (c ≠ 10 && c ≠ 12))

/-- The acceptance checks of R105 on a descriptor and extension that have been read: the lowest detail that fails. -/
def acceptDetail (features size : Nat) (claim aligned : Bool) (l ext : List DWord) : Option Nat :=
  let d := CopyDesc.of l
  let dims := if d.form = 1 then 12 else 6
  let checks : List (Nat × Bool) :=
    [(0x01, decide (d.form < 2) && reservedOk d l ext && unusedOk d),
     (0x02, decide (d.ndim ≤ dims)),
     (0x03, (List.range (min d.ndim dims)).all (fun k => d.ext k ≠ 0)),
     (0x04, codeOk features d.sfmt && codeOk features d.dfmt),
     (0x05, aligned && d.formatsFit && decide (d.baroff % 16 = 0) && decide (d.extoff % 128 = 0) &&
       (!d.ring || (decide (ringFull ext % 16 = 0) && decide (ringEmpty ext % 16 = 0)))),
     (0x06, (!d.hasExt || decide (d.extoff + 128 ≤ size)) && rangesOk d ext size),
     (0x07, spacesOk d claim),
     (0x08, decide (d.bytes < 2 ^ 32) && (d.dsp ≠ 2 || decide (d.dst.toNat + d.bytes ≤ 2 ^ 20))),
     (0x09, decide (d.nstage ≤ 8) && (List.range (min d.nstage 8)).all (fun k => stageOk (stageAt ext k))),
     (0x0A, !d.ring || (decide (1 ≤ ringCount ext) && decide (ringCount ext ≤ 64) && decide (ringSlot ext % 128 = 0) &&
       decide (d.bytes ≤ ringSlot ext) && d.dsp = 1 && !d.tside && !d.bar))]
  (checks.find? (fun c => !c.2)).map (·.1)

/-- Scratchpad bytes as a wave sees them, its own pending stores included (05 R132). -/
def State.scratchBytes (s : State) (w : Wave) (off n : Nat) : List (BitVec 8) :=
  gatherBytes w (s.homeByte w) (.scratch off) n

/-- COPYK's reading and checking of a descriptor (03 R79, R105; 09 R245): a detail, or the descriptor and extension. -/
def State.readDescriptor (s : State) (w : Wave) (off : DWord) : Except Nat (List DWord × List DWord) :=
  let size := s.scratchSize w
  let q0 := if off.toNat + 8 ≤ size then qAt (quadsOf (s.scratchBytes w off.toNat 8) 1) 0 else 0#64
  let len := if bitsOf q0 0 2 = 1 then 128 else 64
  let aligned := decide (off.toNat % len = 0)
  if size < off.toNat + len then .error (if aligned then 0x06 else 0x05)
  else
    let l := quadsOf (s.scratchBytes w off.toNat len) (len / 8)
    let d := CopyDesc.of l
    let ext := if d.hasExt && decide (d.extoff + 128 ≤ size) then quadsOf (s.scratchBytes w d.extoff 128) 16 else []
    let claim := match s.groups[w.group]? with
      | some g => g.claim
      | none => false
    let features := match s.ctxs[w.ctx]? with
      | some c => c.features
      | none => 0
    match acceptDetail features size claim aligned l ext with
    | some k => .error k
    | none => .ok (l, ext)

/-! ### The kick queue (03 R78, R80) -/

/-- Has a request ended (03 R106)? -/
def CopySt.ended : CopySt → Bool
  | .done | .failed | .cancelled => true
  | _ => false

/-- Does the group hold resources on cores (12 R295)? -/
def GroupSt.holds : GroupSt → Bool
  | .starting | .running | .parking | .saving | .faulted => true
  | _ => false

/-- Is a request in the copy engine of a core: a host copy, or one of a group that is resident there (03 R78; 12 R295)? -/
def State.copyOn (s : State) (core : Nat) (q : CopyReq) : Bool :=
  q.core == core && (q.host.isSome || (s.groups[q.group]?).any (fun g => g.st.holds))

/-- Entries of a kick queue in use: a request keeps its entry from COPYK until it has ended (03 R78; log 37), while its group is
resident. -/
def State.queueUsed (s : State) (core : Nat) : Nat := (s.copies.filter (fun q => s.copyOn core q && !q.st.ended)).length
def State.activeUsed (s : State) (core : Nat) : Nat := (s.copies.filter (fun q => s.copyOn core q && q.st == .running)).length

/-- A request that holds nothing yet. -/
def CopyReq.fresh (core ctx group wave : Nat) (host : Option (Nat × Nat)) (l ext : List DWord) (st : CopySt) : CopyReq :=
  { core := core, ctx := ctx, group := group, wave := wave, host := host, desc := l, ext := ext, st := st, low := 0,
    gent := 0#32, pbidx := 0, pbv := false, counted := 0, reached := false }

def CopyReq.d (q : CopyReq) : CopyDesc := CopyDesc.of q.desc

/-- May engine work of a context go on: the context runs and no stop is under way (14 R339, R344)? -/
def State.ctxRuns (s : State) (c : Nat) : Bool :=
  match s.ctxs[c]? with
  | some x => (x.st == .resident || x.st == .restoring) && !x.agStop && !x.destroyed
  | none => false

/-- May the request move data now? -/
def State.copyMay (s : State) (q : CopyReq) : Bool :=
  s.ctxRuns q.ctx && (q.host.isSome || match s.groups[q.group]? with
    | some g => g.st == .running
    | none => false)

/-- Is the request's wave killed, so that the request is to be cancelled (03 R108)? -/
def State.copyKilled (s : State) (q : CopyReq) : Bool :=
  match q.host with
  | some (r, _) => match s.rings[r]? with
    | some x => x.st == .destroying || x.st == .free
    | none => true
  | none => match s.waves[q.wave]? with
    | some w => w.killed
    | none => true

/-! ### Addresses of elements (03 R85, R93) -/

/-- The index vector of a linear index. -/
def indexVec : List Nat → Nat → List Nat
  | [], _ => []
  | e :: rest, l => l % e :: indexVec rest (l / e)

/-- TensorNib, modulo 2^65. -/
def CopyDesc.tensorNib (d : CopyDesc) (base : DWord) (nibs l : Nat) : Nat :=
  let iv := indexVec (d.exts.take d.ndim) l
  let off : Int := ((List.range d.ndim).drop 1).foldl (fun a k => a + 2 * d.str k * (iv.getD k 0 : Int)) 0
  ((2 * (base.toNat : Int) + ((iv.getD 0 0 * nibs : Nat) : Int) + off) % (2 ^ 65 : Int)).toNat

/-- TileNib, modulo 2^65. -/
def tileNib (base nibs l : Nat) : Nat := (2 * base + l * nibs) % 2 ^ 65

/-- The base of the destination: of the ring slot in ring mode (03 R93). -/
def CopyReq.dstBase (q : CopyReq) : DWord :=
  if q.d.ring then q.d.dst + BitVec.ofNat 64 (ringSeq q.ext % ringCount q.ext * ringSlot q.ext) else q.d.dst

/-- Nibble addresses of the source and the destination of element `l`. -/
def CopyReq.srcNib (q : CopyReq) (l : Nat) : Nat :=
  if q.d.tside then tileNib q.d.src.toNat q.d.srcNibs l else q.d.tensorNib q.d.src q.d.srcNibs l
def CopyReq.dstNib (q : CopyReq) (l : Nat) : Nat :=
  if q.d.tside then q.d.tensorNib q.dstBase q.d.dstNibs l else tileNib q.dstBase.toNat q.d.dstNibs l

/-- The completion barrier of a request, if it has one (03 R83, R93). -/
def CopyReq.barrierOff (q : CopyReq) : Option Nat :=
  if q.d.ring then some (ringFull q.ext + 16 * (ringSeq q.ext % ringCount q.ext))
  else if q.d.bar then some q.d.baroff else none

/-! ### Reading a source (03 R87, R91) -/

/-- A byte of memory as an engine reads it; a peer that is not UP answers all ones (19 R407). -/
def State.agentByte (s : State) (pa : Nat) : BitVec 8 :=
  match paKind pa with
  | .peer p => if s.peerUp p then s.mem.byte pa else 0xFF#8
  | _ => s.mem.byte pa

/-- Translate the bytes of an access one by one; the lowest byte that fails is reported. -/
def xlatBytes (f : DWord → Except TrapInfo Xlat) (va : DWord) : Nat → Except TrapInfo (List Xlat)
  | 0 => .ok []
  | n + 1 => match xlatBytes f va n with
    | .error t => .error t
    | .ok xs => match f (va + BitVec.ofNat 64 n) with
      | .error t => .error t
      | .ok x => .ok (xs ++ [x])

/-- The COPY trap of a request (03 R104, 14 R336). -/
def CopyReq.trap (q : CopyReq) (detail : Nat) (t : TrapInfo) (low : Nat) : TrapInfo :=
  { cause := causeCopy, detail := BitVec.ofNat 8 detail, kind := t.kind, xcause := t.cause, addr := t.addr,
    tag := q.d.tag, low := BitVec.ofNat 40 low }

/-- The reads that an engine makes at their homes. -/
def State.agentReads (s : State) (xs : List Xlat) : State :=
  xs.foldl (fun t x => (t.homeAccess x.pa x.ms false 1).countPeer x.pa 1) s

/-- The trap of a unit that fails at element `l`: an uncorrectable error stays one (02 R49), another failure is a COPY trap. -/
def CopyReq.failAt (q : CopyReq) (detail : Nat) (t : TrapInfo) (l : Nat) : TrapInfo :=
  if t.cause = causeEcc then { cause := causeEcc, detail := t.detail, low := BitVec.ofNat 40 l } else q.trap detail t l

/-- Source bytes of an element or block: the bytes, the side-band of the line where they start, the state after the reads. -/
def State.copyRead (s : State) (q : CopyReq) (l n : Nat) : Except TrapInfo (List (BitVec 8) × BitVec 128 × State) :=
  let at_ := q.srcNib l / 2
  if q.d.ssp = 1 then
    match s.groups[q.group]? with
    | some g =>
      if (List.range n).any (fun k => s.bad.contains (.groupPool q.group ((at_ + k) / 128))) then
        .error { cause := causeEcc, detail := 1#8, low := BitVec.ofNat 40 l }
      else .ok (g.scratch.read at_ n, (g.scratch.side (at_ / 128)).band, s)
    | none => .ok (List.replicate n 0#8, 0#128, s)
  else
    match xlatBytes (s.agentXlat q.ctx .rd) (BitVec.ofNat 64 at_) n with
    | .error t => .error (q.failAt 0x0D t l)
    | .ok xs =>
      match xs.find? (fun x => s.linePoisoned (x.pa / 128)) with
      | some x => .error { cause := causeEcc, detail := BitVec.ofNat 8 (s.lineClass (x.pa / 128)), low := BitVec.ofNat 40 l }
      | none =>
        let band := match xs.head? with
          | some x => (s.lineSide (x.pa / 128)).band
          | none => 0#128
        .ok (xs.map (fun x => s.agentByte x.pa), band, (s.agentLooks q.ctx .rd (BitVec.ofNat 64 at_) n).agentReads xs)

/-- The scale bytes of the block that starts at, or holds, a byte address of a line with this side-band. -/
def scalesAt (f : ElemFmt) (band : BitVec 128) (addr : Nat) : List Nat :=
  if f.isBlock then blockScalesOf f band (addr % 128 / blockBytes (BitVec.ofNat 4 f.code)) else []

/-- Element `k` of a run of bytes. -/
def elemBits (width : Nat) (bs : List (BitVec 8)) (k : Nat) : Nat := natOfBytes bs / 2 ^ (width * k) % 2 ^ width

/-! ### Chains (03 R87, R89) -/

def f32 (x : Num) : Nat := (roundTo .fp32 .rne false x).1
def dec32 (b : Nat) : Num := decodeFloat .fp32 b
def f32Add (x y : Nat) : Nat := f32 (Num.add .rne (dec32 x) (dec32 y)).1
def f32Mul (x y : Nat) : Nat := f32 (Num.mul (dec32 x) (dec32 y)).1
def f32One : Nat := 0x3F800000

/-- RCP and EXP2 of 01 R39, without FTZ. -/
def f32Rcp (x : Nat) : Nat := (specialFn rcpNum Modes.default x).1
def f32Exp2 (x : Nat) : Nat := (specialFn exp2Num Modes.default x).1

/-- The fixed sequences of R89. -/
def sigF (x : Nat) : Nat :=
  f32Rcp (f32Add f32One (f32Exp2 (f32Mul (f32 (dec32 x).negate) 0x3FB8AA3B)))
def tanhF (x : Nat) : Nat := f32Add (f32Mul 0x40000000 (sigF (f32Mul 0x40000000 x))) 0xBF800000
def gelutF (x : Nat) : Nat :=
  f32Mul (f32Mul 0x3F000000 x)
    (f32Add f32One (tanhF (f32Mul 0x3F4C422A (f32Add x (f32Mul 0x3D372713 (f32Mul (f32Mul x x) x))))))

def gtZero (x : Nat) : Bool := fpLt 0#32 (BitVec.ofNat 32 x)

/-- One stage on an FP32 value (03 R89). `v` is the vector element of BIASV. DESIGN CHOICE (log 83): CLAMP with a NaN constant gives
CanonNaN, and LEAKY with a NaN constant keeps a value above zero, which the constant does not enter. -/
def stageF (st : DWord) (v x : Nat) : Nat :=
  let k := bitsOf st 32 32
  if isNaN32 (BitVec.ofNat 32 x) then 0x7FC00000
  else match bitsOf st 0 4 with
    | 1 => f32Mul x k
    | 2 => f32Add x k
    | 3 => f32Add x v
    | 4 => if isNaN32 (BitVec.ofNat 32 k) then 0x7FC00000
      else if fpLt (BitVec.ofNat 32 x) (BitVec.ofNat 32 k) then k else x
    | 5 => if isNaN32 (BitVec.ofNat 32 k) then 0x7FC00000
      else if fpLt (BitVec.ofNat 32 k) (BitVec.ofNat 32 x) then k else x
    | 6 => if gtZero x then x else 0
    | 7 => if gtZero x then x else f32Mul x k
    | 8 => sigF x
    | 9 => f32Mul x (sigF x)
    | 10 => tanhF x
    | 11 => gelutF x
    | 12 => match (ElemFmt.ofCode (bitsOf st 4 4)).bind ElemFmt.float? with
      | some l => f32 (decodeFloat l (roundTo l (RoundMode.ofCode (st.extractLsb' 8 2)) (st.getLsbD 10) (dec32 x)).1)
      | none => x
    | _ => x

/-- The stages in order on an element whose index of dimension 0 is `i0`. -/
def chainF (ext : List DWord) (bias : Nat → Nat) (i0 : Nat) : Nat → Nat → Nat
  | 0, x => x
  | n + 1, x =>
    let st := stageAt ext n
    stageF st (bias (bitsOf st 32 32 + 4 * i0)) (chainF ext bias i0 n x)

/-- Does an element of index `i0` in dimension 0 meet an uncorrectable error in a vector of BIASV (03 R89; 04 R110)? -/
def State.biasBad (s : State) (q : CopyReq) (i0 : Nat) : Bool :=
  !s.bad.isEmpty && (List.range q.d.nstage).any (fun k => decide (bitsOf (stageAt q.ext k) 0 4 = 3) &&
    (s.badScratch q.group (bitsOf (stageAt q.ext k) 32 32 + 4 * i0) 4).isSome)

/-- An element on the converted path up to the end of the chain, as FP32 (03 R87). -/
def State.chained (s : State) (q : CopyReq) (l : Nat) (bits : Nat) (scales : List Nat) : Nat :=
  let bias (off : Nat) : Nat := match s.groups[q.group]? with
    | some g => g.scratch.num off 4
    | none => 0
  chainF q.ext bias (l % q.d.ext 0) q.d.nstage (f32 (decodeElem q.d.srcFmt bits scales))

/-- The final conversion to an unblocked format (03 R87). -/
def CopyDesc.final (d : CopyDesc) (x : Nat) : Nat :=
  let mode := RoundMode.ofCode (BitVec.ofNat 2 d.fmode)
  match d.dstFmt.float? with
  | some l => (roundTo l mode d.fsat (dec32 x)).1
  | none => (toInt d.dstFmt mode (dec32 x)).1

/-- Is the raw path taken (03 R87)? -/
def CopyDesc.raw (d : CopyDesc) : Bool := d.sfmt = d.dfmt && d.nstage = 0

/-- Elements that land together (03 R90). -/
def CopyDesc.unit (d : CopyDesc) : Nat := if d.dstFmt.isBlock then 32 else 1

/-- The number of source elements of one read: a whole block where the source has blocks and so has the destination. -/
def State.readElems (s : State) (q : CopyReq) (l : Nat) : Nat → Except TrapInfo (List (Nat × List Nat) × State)
  | 0 => .ok ([], s)
  | n + 1 => match s.readElems q l n with
    | .error t => .error t
    | .ok (xs, s1) =>
      let nib := q.srcNib (l + n)
      let w := q.d.srcFmt.width
      match s1.copyRead q (l + n) ((w + 7) / 8) with
      | .error t => .error t
      | .ok (bs, band, s2) =>
        let bits := natOfBytes bs / 2 ^ (4 * (nib % 2)) % 2 ^ w
        .ok (xs ++ [(bits, scalesAt q.d.srcFmt band (nib / 2))], s2)

/-- What a unit of the destination receives: its bytes and, for a block format, its scale bytes (03 R87, R90). -/
def State.unitValue (s : State) (q : CopyReq) (l : Nat) : Except TrapInfo (List (BitVec 8) × List Nat × State) :=
  match s.readElems q l q.d.unit with
  | .error t => .error t
  | .ok (xs, s1) =>
    let w := q.d.dstFmt.width
    let pack (es : List Nat) : List (BitVec 8) := bytesOfNat (q.d.unit * w / 8) (packElems w es)
    if q.d.raw then .ok (pack (xs.map (·.1)), (xs.head?.map (·.2)).getD [], s1)
    else match (List.range q.d.unit).find? (fun k => s.biasBad q ((l + k) % q.d.ext 0)) with
    | some k => .error { cause := causeEcc, detail := 1#8, low := BitVec.ofNat 40 (l + k) }
    | none =>
      let ys := (List.range q.d.unit).map (fun k => s.chained q (l + k) (xs.getD k (0, [])).1 (xs.getD k (0, [])).2)
      if q.d.dstFmt.isBlock then
        let (es, sc, _) := quantBlock q.d.dstFmt (RoundMode.ofCode (BitVec.ofNat 2 q.d.fmode)) (ys.map dec32)
        .ok (pack es, sc, s1)
      else .ok (pack (ys.map q.d.final), [], s1)

/-! ### Writing a destination (03 R87, R97, R101) -/

/-- The side-band part of a block store: the scale bytes of the block at a byte address. -/
def blockSide (f : ElemFmt) (addr : Nat) (sc : List Nat) : Option SideStore :=
  if f.isBlock then
    let k := addr % 128 / blockBytes (BitVec.ofNat 4 f.code) * f.scaleBytes
    some ⟨BitVec.ofNat 128 (packElems 8 sc * 2 ^ (8 * k)), BitVec.ofNat 16 ((2 ^ f.scaleBytes - 1) * 2 ^ k),
      some (BitVec.ofNat 4 f.code)⟩
  else none

/-- Merge a block's scales into a line's side-band. -/
def Mem.mergeSide (m : Mem) (line : Nat) (d : SideStore) : Mem :=
  m.setSide line ⟨mergeBand (m.side line).band d.band d.which 16, d.fmt⟩

/-- Mark an item of a context dirty. -/
def State.markItem (s : State) (c : Nat) (i : AgItem) : State := s.modCtx c (fun x => x.markItem i)

/-- The span member index of a core in a group (12 R293). -/
def Group.member (g : Group) (core : Nat) : Nat := (g.cores.idxOf? core).getD 0

/-- Write bytes of a weight buffer line with their scales (03 R101). -/
def State.writeWbuf (s : State) (q : CopyReq) (off : Nat) (bs : List (BitVec 8)) (side : Option SideStore) : State :=
  let s1 := s.modArray q.core q.d.arr (fun a =>
    let m := a.wbuf.write off bs
    { a with wbuf := match side with
      | some d => m.mergeSide (off / 128) d
      | none => m })
  match s.groups[q.group]? with
  | some g => (s1.markItem q.ctx (.wbuf q.group (g.member q.core) q.d.arr (off / 128))).markItem q.ctx
      (.wbuf q.group (g.member q.core) q.d.arr ((off + bs.length - 1) / 128))
  | none => s1

/-- Enter an engine's bytes one by one; the side-band part goes with the first. -/
def State.agentWrites (s : State) : List (Xlat × BitVec 8) → Option SideStore → State
  | [], _ => s
  | (x, b) :: rest, side => (s.enterPhys none x.pa x.ms [some b] side).agentWrites rest none

/-- The generations through which a request's destination is translated (03 R97). -/
def State.copyGen (s : State) (q : CopyReq) (n : Nat) : Word := if q.pbv && n = q.pbidx then q.gent else s.pbGen q.ctx n

/-- The Publish Buffer of a global address, if its page has one. -/
def State.pbOf (s : State) (c : Nat) (va : DWord) : Option Nat :=
  match s.leafOf none .wr c (s.pbGen c) (vaBits va) with
  | .ok e => if ptePb e then some (ptePbIdx e) else none
  | .error _ => none

/-- Check and translate one destination byte (03 R97, R103, R105): in the buffer to which the request is bound; a host copy may
write other pages as well. -/
def State.dstByte (s : State) (q : CopyReq) (l : Nat) (va : DWord) : Except TrapInfo Xlat :=
  match s.translate none q.ctx (s.copyGen q) .wr q.host.isSome va with
  | .error t => .error (q.failAt 0x0E t l)
  | .ok x =>
    let fits := match s.pbOf q.ctx va with
      | some n => q.pbv && n == q.pbidx
      | none => q.host.isSome
    if fits then .ok x else .error (q.trap 0x0C { cause := 0#6, addr := va } l)

/-- The Publish Buffer that a request's first destination translation reaches (03 R97): at its first byte, and for a host copy at
the first byte of the unit at `l` that lies in one (03 R103). -/
def State.unitPb (s : State) (q : CopyReq) (l : Nat) : Option Nat :=
  (List.range (if q.host.isSome then (q.d.unit * q.d.dstNibs + 1) / 2 else 1)).findSome? (fun k =>
    s.pbOf q.ctx (BitVec.ofNat 64 (q.dstNib l / 2 + k)))

/-- Must a host copy bind to a Publish Buffer before the unit at `l` (03 R97, R103)? -/
def State.needsBind (s : State) (q : CopyReq) (l : Nat) : Bool := q.host.isSome && !q.pbv && (s.unitPb q l).isSome

/-- Write one unit of the destination (03 R87, R97). -/
def State.copyWrite (s : State) (q : CopyReq) (l : Nat) (bs : List (BitVec 8)) (sc : List Nat) : Except TrapInfo State :=
  let at_ := q.dstNib l / 2
  let side := blockSide q.d.dstFmt at_ sc
  if q.d.dsp = 1 then
    let s1 := s.storeScratch q.group at_ (bs.map some)
    .ok (match side with
      | some d => s1.modGroup q.group (fun g => g.writeScratchSide (at_ / 128) d)
      | none => s1)
  else if q.d.dsp = 2 then .ok (s.writeWbuf q at_ bs side)
  else match xlatBytes (s.dstByte q l) (BitVec.ofNat 64 at_) bs.length with
    | .error t => .error t
    | .ok xs => .ok ((s.lookUps none .wr q.ctx (s.copyGen q) (BitVec.ofNat 64 at_) bs.length).agentWrites (xs.zip bs) side)

/-- Compute and write the unit at linear index `l`. The lowest faulting element is reported, and of one element a source fault
before a destination fault (03 R104; log 43): a source fault within a block comes after a destination fault of an element
below it. -/
def State.landUnit (s : State) (q : CopyReq) (l : Nat) : Except TrapInfo State :=
  match s.unitValue q l with
  | .error t =>
    let below := (t.low.toNat - l) * q.d.dstNibs / 2
    match (if q.d.dsp = 0 then xlatBytes (s.dstByte q l) (BitVec.ofNat 64 (q.dstNib l / 2)) below else .ok []) with
    | .error u => .error u
    | .ok _ => .error t
  | .ok (bs, sc, s1) => s1.copyWrite q l bs sc

/-- Land at most `n` units from LOW up; landing ends before a unit that faults (03 R90, R104) or that a binding comes before. -/
def State.landUnits (s : State) (q : CopyReq) : Nat → Nat → State × Nat
  | 0, l => (s, l)
  | n + 1, l =>
    if s.needsBind q l then (s, l)
    else match s.landUnit q l with
      | .error _ => (s, l)
      | .ok s1 => s1.landUnits q n (l + q.d.unit)

/-- Does a piece that ends before element `l` leave no line of the weight buffer half written (03 R101)? -/
def CopyReq.lineEnd (q : CopyReq) (l : Nat) : Bool := q.dstNib l % 256 == 0 || decide (q.d.count ≤ l)

/-- The units of a piece of at most `most` units that asks for `n`: into a weight buffer whole lines land (03 R101). -/
def CopyReq.pieceUnits (q : CopyReq) (n most : Nat) : Nat :=
  if q.d.dsp = 2 then
    let ends := (List.range (most + 1)).filter (fun u => decide (0 < u) && q.lineEnd (q.low + u * q.d.unit))
    (ends.find? (fun u => decide (n ≤ u))).getD (ends.getLast?.getD most)
  else n

/-- The domain of a context (14 R342). -/
def State.domainOf (s : State) (c : Nat) : Nat :=
  match s.ctxs[c]? with
  | some x => (x.act.ctl.extractLsb' 0 6).toNat
  | none => 0

/-- Counters of an accounting domain (07 R203). -/
def cntWaveClk : Nat := 0
def cntIssue : Nat := 1
def cntMac16 : Nat := 2
def cntMac8 : Nat := 3
def cntMac4 : Nat := 4
def cntHbmRd : Nat := 5
def cntHbmWr : Nat := 6
def cntLlcFill : Nat := 7
def cntCopyB : Nat := 8
def cntCkptB : Nat := 9
def cntPeerB : Nat := 10
def cntEnergy : Nat := 11

/-- Add to a counter of a domain, modulo 2^64. -/
def State.account (s : State) (dom k n : Nat) : State :=
  s.modDomain dom (fun d => { d with cnt := d.cnt.modify k (· + BitVec.ofNat 64 n) })

/-- Totals of the memory side: HBM bytes read and written, LLC fills, Peer Link bytes. -/
def State.totals (s : State) : List DWord :=
  let sum (f : Quad → DWord) : DWord := (s.quads.map f).foldl (· + ·) 0#64
  [sum (·.rdBytes), sum (·.wrBytes), sum (·.llcFills), s.peerBytes]

/-- The difference of two totals counts to the domain of a context. -/
def State.accountDiff (s : State) (now before : List DWord) (c : Nat) : State :=
  let d (k : Nat) : Nat := (now.getD k 0#64 - before.getD k 0#64).toNat
  let dom := s.domainOf c
  (((s.account dom cntHbmRd (d 0)).account dom cntHbmWr (d 1)).account dom cntLlcFill (d 2)).account dom cntPeerB (d 3)

/-- What a turn has moved counts to the domain of the context that caused it. -/
def State.accountFrom (s : State) (before : List DWord) (c : Option Nat) : State :=
  match c with
  | none => s
  | some c => s.accountDiff s.totals before c

/-- A part of a step acts for a context: what it moves counts to the domain of that context (19 R417). -/
def State.charging (s : State) (c : Nat) (f : State → State) : State := (f s).accountFrom s.totals (some c)

/-- A part of a turn of one context acts for another: what it moves counts to the other's domain, and not to that of the turn. -/
def State.chargingOther (s : State) (own c : Nat) (f : State → State) : State :=
  if own = c then f s else (s.charging c f).accountDiff s.totals (f s).totals own

/-- Has the completion barrier of a request an uncorrectable error (04 R110)? -/
def State.barrierBad (s : State) (q : CopyReq) : Bool := q.barrierOff.any (fun o => (s.badScratch q.group o 16).isSome)

/-- A piece of a running request lands (03 R90): at most `n` elements and 4 KiB of destination bytes. DESIGN CHOICE (log 85):
COUNTED counts the landed bytes of a request without a completion barrier too. -/
def State.landPiece (s : State) (k n : Nat) : State :=
  match s.copies[k]? with
  | none => s
  | some q =>
    let d := q.d
    let most := 4096 * 2 / (d.dstNibs * d.unit)
    let left := (d.count - q.low) / d.unit
    let units := if s.barrierBad q then 0 else q.pieceUnits (min (min (n / d.unit) most) left) (min most left)
    let (s1, low) := s.landUnits q units q.low
    let bytes := (low - q.low) * d.dstNibs / 2
    let s2 := match q.barrierOff with
      | some off => if bytes = 0 then s1 else s1.landAt q.group off bytes
      | none => s1
    let st := if low < d.count then (if s2.needsBind q low then CopySt.pubhold else .running)
      else if d.follow then .followwait else .done
    ((s2.account (s.domainOf q.ctx) cntCopyB bytes).modCopy k (fun x => { x with
      low := low, counted := x.counted + bytes, st := st, reached := false })).noteReached q.group

/-- Is a running request among the eight that hold the active slots of its core (03 R78)? -/
def State.copyActive (s : State) (k : Nat) : Bool :=
  match s.copies[k]? with
  | some q => q.st == .running && s.copyOn q.core q &&
      decide (((s.copies.take k).filter (fun x => s.copyOn q.core x && x.st == .running)).length < 8)
  | none => false

/-- Does a request wait on its ring slot, or for its follow-on, on a barrier whose line has an uncorrectable error (03 R93, R95;
04 R110)? -/
def State.phaseBad (s : State) (q : CopyReq) : Bool :=
  q.host.isNone && !q.reached && (q.st == .ringwait || q.st == .followwait) && q.waitsOn.any (fun x => s.barBad q.group x.1)

/-- The trap of a request whose unit at LOW faults, or whose completion barrier or the barrier that it waits on does. -/
def State.copyFault (s : State) (k : Nat) : Option TrapInfo :=
  match s.copies[k]? with
  | none => none
  | some q =>
    if s.phaseBad q then some { cause := causeEcc, detail := 1#8, low := BitVec.ofNat 40 q.low }
    else if q.low < q.d.count ∧ s.barrierBad q = true then some { cause := causeEcc, detail := 1#8, low := BitVec.ofNat 40 q.low }
    else if q.low < q.d.count ∧ s.needsBind q q.low = false then
      match s.landUnit q q.low with
      | .error t => some t
      | .ok _ => none
    else none

/-- The element that faults within a unit lies at LOW or above it; the frame holds the request's LOW (03 R104). -/
def State.failCopy (s : State) (k : Nat) (t : TrapInfo) : State :=
  match s.copies[k]? with
  | none => s
  | some q =>
    let s1 := s.modCopy k (fun x => { x with st := .failed })
    if q.host.isSome then s1
    else s1.modWave q.wave (fun w => if w.st = .retired then w
      else { w with due := w.due ++ [⟨t.cause, t.detail, t.kind, t.xcause, t.addr, t.tag, BitVec.ofNat 40 q.low⟩] })

/-! ### Starting a request: rings, binding, the publish hold (03 R78, R93, R97, R98) -/

/-- Is a host PUBLISH of a buffer in progress, and does `ok` hold of the generation that it found? -/
def State.hostPublishes (s : State) (c n : Nat) (ok : Nat → Bool) : Bool :=
  s.rings.any (fun r => r.ctx == c && r.pkts.any (fun p => !p.done && bitsOf (qAt p.quads 0) 0 8 == 6 &&
    bitsOf (qAt p.quads 2) 0 8 == n && ok p.ref))

/-- Has a PUBL of the buffer begun and not completed (03 R97): in its release or its step, running or stopped? DESIGN CHOICE (log 83):
a host PUBLISH in progress delays a binding as a PUBL does. -/
def State.publishBegun (s : State) (c n : Nat) : Bool :=
  s.waves.any (fun w => w.ctx == c && (match w.st with
    | .wait (.publ m _) => m == n
    | .wait (.release _ (.publ m _)) => m == n
    | _ => false)) || s.hostPublishes c n (fun _ => true)

/-- Is the wave one that holds a copy (03 R98): not blocked or parked, in a group that runs, or that comes back from a save to go
on with the generations that it has adopted? -/
def State.waveLive (s : State) (w : Wave) : Bool :=
  (match w.st with
  | .ready | .wait _ | .halted => true
  | _ => false) && (match s.groups[w.group]? with
  | some g => g.st == .running || g.st == .faulted || g.st == .parking ||
      ((g.st == .pending || g.st == .starting) && !g.fresh && !g.wake)
  | none => false)

/-- Has a live wave of the context adopted the generation whose backing the request writes (03 R98)? -/
def State.held (s : State) (q : CopyReq) : Bool :=
  s.waves.any (fun w => w.ctx == q.ctx && s.waveLive w && w.gen q.pbidx == q.gent - 2#32)

/-- Bind a request with a global destination (03 R97): unchanged where its next unit reaches no Publish Buffer page. -/
def State.bind (s : State) (q : CopyReq) : Option CopyReq :=
  if q.d.dsp ≠ 0 || q.pbv then some q
  else match s.unitPb q q.low with
    | none => some q
    | some n => if s.publishBegun q.ctx n then none
      else some { q with pbv := true, pbidx := n, gent := s.pbGen q.ctx n + 1#32 }

/-- Is a tree quiescent (13 R318)? -/
def Tree.quiet (t : Tree) : Bool := t.live == 0 && t.pend == 0 && t.infl == 0 && t.unplaced == 0

/-- Does a destination byte of a host copy lie in the weight store (02 R67)? -/
def State.toWeightStore (s : State) (q : CopyReq) : Bool :=
  q.host.isSome && (List.range q.d.count).any (fun l => (List.range ((q.dstNib l % 2 + q.d.dstNibs + 1) / 2)).any (fun k =>
    match s.translate none q.ctx (s.pbGen q.ctx) .wr true (BitVec.ofNat 64 (q.dstNib l / 2 + k)) with
    | .ok x => (paKind x.pa).isWs
    | .error _ => false))

/-- Does a COPY to the weight store of the context wait or run, so that no new kernel of it is dispatched (02 R67)? -/
def State.sealing (s : State) (c : Nat) : Bool :=
  s.copies.any (fun q => q.ctx == c && !q.st.ended && s.toWeightStore q)

/-- What becomes of a waiting request when a slot is free: it waits for the context's kernels when it writes the weight store,
on its ring slot, on a publish hold, or it runs. -/
def State.prepare (s : State) (q : CopyReq) : CopyReq :=
  if s.toWeightStore q && s.liveKernel q.ctx then q
  else if q.d.ring && !q.reached then { q with st := .ringwait }
  else match s.bind q with
    | none => { q with st := .pubhold }
    | some q1 => if q1.pbv && s.held q1 then { q1 with st := .pubhold } else { q1 with st := .running, reached := false }

/-- The positions of the requests that wait on a core, in kick order. -/
def State.waiting (s : State) (core : Nat) : List Nat :=
  (List.range s.copies.length).filter (fun k => match s.copies[k]? with
    | some q => s.copyOn core q && s.copyMay q && !s.copyKilled q &&
      (q.st == .queued || q.st == .ringwait || q.st == .pubhold)
    | none => false)

/-- Look at waiting requests in kick order until one takes the free slot (03 R78). -/
def State.startFirst (s : State) : List Nat → State
  | [] => s
  | k :: rest => match s.copies[k]? with
    | none => s.startFirst rest
    | some q =>
      let q1 := s.prepare q
      let s1 := s.modCopy k (fun _ => q1)
      if q1.st = .running then s1 else s1.startFirst rest

/-- The oldest runnable request of a core takes a free active slot (03 R78). -/
def State.startCopy (s : State) (core : Nat) : State :=
  if s.activeUsed core < 8 then s.startFirst (s.waiting core) else s

/-! ### Publish steps (03 R99, 09 R247) -/

/-- Is a request bound to a generation of a buffer still under way? -/
def State.boundUnder (s : State) (c n : Nat) (t : Word) : Bool :=
  s.copies.any (fun q => q.ctx == c && q.pbv && q.pbidx == n && q.gent == t && !q.st.ended)

/-- Does a step on the buffer's current generation wait to be made: a PUBL that has released and found this generation, of a wave that
runs, or a host PUBLISH that found it (03 R99; 05 R130; 09 R247)? -/
def State.publishWaits (s : State) (c n : Nat) : Bool :=
  s.waves.any (fun w => w.ctx == c && !w.stopped && (s.groups[w.group]?).any (fun g => g.st == .running) && (match w.st with
    | .wait (.publ m g) => m == n && g == s.pbGen c n
    | _ => false)) || s.hostPublishes c n (fun g => g == (s.pbGen c n).toNat)

/-- The step from generation g0, once nothing bound to g0 + 1 is under way; another step may have made it already. A table entry that is
lost is met instead (02 R49). -/
def State.publishStep (s : State) (c n : Nat) (g0 : Word) : State :=
  match s.pbPoison c n with
  | some l => s.unitLost c (s.lineClass l) 0#64
  | none => if s.pbGen c n = g0 then s.setPbGen c n (g0 + 1#32) else s

/-- CPQ (09 R246). DESIGN CHOICE (log 78): counts above 127 are taken modulo 128 in their 7-bit fields. -/
def State.copyQuery (s : State) (w : Wave) (tag : BitVec 16) : DWord :=
  let mine := s.copies.filter (fun q => q.host.isNone && q.group == w.group && q.d.tag == tag && !q.st.ended &&
    q.st != .reserved)
  let held := (mine.filter (fun q => q.st == .ringwait || q.st == .pubhold || q.st == .followwait)).length
  let run := (mine.filter (fun q => q.st == .running)).length
  BitVec.ofNat 64 (mine.length % 128 + 2 ^ 8 * (run % 128) + 2 ^ 16 * (held % 128) +
    2 ^ 24 * ((64 - s.queueUsed w.core) % 128))

end Sys2Proof.Machine
end

