-- ==== Sys2Proof/Machine/Arrays.lean ====
section
/-! DEFINITION. Matrix arrays: operand checks, queues, passes, the queued accumulator commands (10 R250-R265). -/

namespace Sys2Proof.Machine

/-! ### Descriptions in follow-on layout (03 R94, 10 R253) -/

def mmaArr (q : List DWord) : Nat := bitsOf (qAt q 0) 0 2
def mmaTile (q : List DWord) : Nat := bitsOf (qAt q 0) 2 1
def mmaZero (q : List DWord) : Bool := (qAt q 0).getLsbD 3
def mmaAcode (q : List DWord) : Nat := bitsOf (qAt q 0) 4 4
def mmaBcode (q : List DWord) : Nat := bitsOf (qAt q 0) 8 4
def mmaM (q : List DWord) : Nat := bitsOf (qAt q 0) 12 9
def mmaN (q : List DWord) : Nat := bitsOf (qAt q 0) 21 8 + 1
def mmaK (q : List DWord) : Nat := bitsOf (qAt q 0) 32 32
def mmaAoff (q : List DWord) : Nat := bitsOf (qAt q 1) 0 21
def mmaAstr (q : List DWord) : Nat := bitsOf (qAt q 1) 32 21
def mmaBoff (q : List DWord) : Nat := bitsOf (qAt q 2) 0 20
def mmaMbar (q : List DWord) : Nat := bitsOf (qAt q 3) 0 21
def mmaMbarEn (q : List DWord) : Bool := (qAt q 3).getLsbD 21
def mmaAfmt (q : List DWord) : ElemFmt := (ElemFmt.ofCode (mmaAcode q)).getD .bf16
def mmaBfmt (q : List DWord) : ElemFmt := (ElemFmt.ofCode (mmaBcode q)).getD .bf16

/-- The description of an MMA from its word and registers (10 R253, R265). -/
def mmaDesc (acc : Nat) (z : Bool) (af bf : Nat) (r0 r1 r2 r3 : DWord) : List DWord :=
  [r0 ||| BitVec.ofNat 64 (acc / 2 % 4 + 4 * (acc % 2) + (if z then 8 else 0) + 16 * af + 256 * bf), r1, r2, r3]

/-- A format that arrays multiply (10 R252). -/
def mmaCode (c : Nat) : Bool := (decide (1 ≤ c) && decide (c ≤ 4)) || (decide (8 ≤ c) && decide (c ≤ 12))

/-- Tile bytes of B in KTILE128 layout (10 R255). -/
def tileBytes (f : ElemFmt) : Nat := 2048 * f.width

/-- What A's offsets must be multiples of (10 R254). -/
def aAlign (f : ElemFmt) : Nat := if f.isBlock then blockBytes (BitVec.ofNat 4 f.code) else f.width / 8

/-- Is the A range inside a scratchpad of this size (10 R254)? -/
def aInside (q : List DWord) (size : Nat) : Bool :=
  decide (mmaAoff q + (mmaM q - 1) * mmaAstr q + rowBytes (mmaAfmt q) (mmaK q) ≤ size)

/-- The bits that R253 requires to be 0 in the registers. -/
def mmaRegsZero (r0 r1 r2 r3 : DWord) : Bool :=
  decide (bitsOf r0 0 12 = 0) && decide (bitsOf r0 29 3 = 0) && decide (bitsOf r1 21 11 = 0) &&
  decide (bitsOf r1 53 11 = 0) && decide (bitsOf r2 20 44 = 0) && decide (bitsOf r3 22 42 = 0)

/-- The address SR_TRAPADDR holds for a scratchpad offset. -/
def scrAddr (off : Nat) : DWord := BitVec.ofNat 64 (scratchWindow + off)

/-- The operand checks of R257 from detail 0x03 on: the lowest that fails, with SR_TRAPADDR. -/
def mmaCheck (size : Nat) (q : List DWord) : Option (Nat × DWord) :=
  let aligned := decide (mmaAoff q % aAlign (mmaAfmt q) = 0) && decide (mmaAstr q % aAlign (mmaAfmt q) = 0)
  let bEnd := mmaBoff q + (mmaK q + 127) / 128 * tileBytes (mmaBfmt q)
  let checks : List (Nat × Bool × DWord) :=
    [(0x03, decide (1 ≤ mmaM q) && decide (mmaM q ≤ 256), 0#64),
     (0x04, decide (mmaN q ≤ 128), 0#64),
     (0x05, decide (1 ≤ mmaK q), 0#64),
     (0x07, aligned, scrAddr (mmaAoff q)),
     (0x07, aInside q size, scrAddr (max (mmaAoff q) size)),
     (0x08, decide (mmaBoff q % 128 = 0) && decide (bEnd ≤ 2 ^ 20), BitVec.ofNat 64 (mmaBoff q)),
     (0x09, !mmaMbarEn q || (decide (mmaMbar q % 16 = 0) && decide (mmaMbar q + 16 ≤ size)), scrAddr (mmaMbar q))]
  match checks.find? (fun c => !c.2.1) with
  | some (k, _, a) => some (k, a)
  | none => none

/-- A MATRIX trap (10 R257). -/
def matrixTrap (detail : Nat) (addr : DWord) : TrapInfo :=
  { cause := causeMatrix, detail := BitVec.ofNat 8 detail, addr := addr }

/-- Does the wave's group hold the matrix claim (10 R251)? -/
def State.hasClaim (s : State) (w : Wave) : Bool :=
  match s.groups[w.group]? with
  | some g => g.claim
  | none => false

/-! ### Queues (10 R258) -/

/-- The array a command goes to. -/
def State.arrayOf (s : State) (core a : Nat) : Option ArrayUnit :=
  match s.cores[core]? with
  | some c => c.arrays[a]?
  | none => none

/-- Is the queue of an array full? -/
def State.queueFull (s : State) (core a : Nat) : Bool :=
  match s.arrayOf core a with
  | some u => decide (16 ≤ u.queue.length)
  | none => true

/-- A command joins its array's queue. -/
def State.enqueueCmd (s : State) (c : MCmd) (a : Nat) : State :=
  { (s.modArray c.core a (fun u => { u with queue := u.queue ++ [s.cmds.length] })) with cmds := s.cmds ++ [c] }

/-- The 48-byte record of a command (10 R265). -/
def MKind.code : MKind → Nat
  | .mma => 0 | .accz => 1 | .accld => 2 | .follow => 3
def MState.code : MState → Nat
  | .queued => 0 | .running => 1 | .done => 2
def State.cmdRecord (s : State) (c : MCmd) : List DWord :=
  let wave := match s.waves[c.wave]? with
    | some w => w.index
    | none => 0
  (List.range 4).map (qAt c.desc) ++
    [BitVec.ofNat 64 (c.kind.code + 2 ^ 4 * c.st.code + 2 ^ 32 * (c.nextc % 2 ^ 32)),
     BitVec.ofNat 64 (wave % 2 ^ 11 + (if c.fromCopy then 2 ^ 11 else 0))]

/-- The array and tile of a command. -/
def MCmd.arr (c : MCmd) : Nat := mmaArr c.desc
def MCmd.tile (c : MCmd) : Nat := mmaTile c.desc

/-- The commands on a tile that have not completed. -/
def State.cmdsOn (s : State) (core acc : Nat) : List Nat :=
  match s.arrayOf core (acc / 2) with
  | some u => u.queue.filter (fun k => match s.cmds[k]? with
    | some c => c.tile == acc % 2 && c.st != .done
    | none => false)
  | none => []

/-- The command at the head of an array's queue, if its group may run it now; the commands of a killed wave complete (07 R202). -/
def State.headCmd (s : State) (core a : Nat) : Option (Nat × MCmd) :=
  match s.arrayOf core a with
  | none => none
  | some u => match u.queue with
    | [] => none
    | k :: _ => match s.cmds[k]? with
      | none => none
      | some c =>
        let runs := match s.groups[c.group]? with
          | some g => g.st == .running
          | none => false
        let killed := match s.waves[c.wave]? with
          | some w => w.killed
          | none => false
        if (s.ctxRuns c.ctx && runs) || killed then some (k, c) else none

/-- A command has completed: it leaves the queue, and its arrival follows its writes (10 R256), unless the object's line has an
uncorrectable error (04 R110). -/
def State.finishCmd (s : State) (k : Nat) (c : MCmd) : State :=
  let s1 := (s.modArray c.core c.arr (fun u => { u with queue := u.queue.filter (· != k) })).modCmd k
    (fun x => { x with st := .done })
  match c.kind with
  | .mma | .follow =>
    if mmaMbarEn c.desc && (s.badScratch c.group (mmaMbar c.desc) 16).isNone then (s1.arriveAt c.group (mmaMbar c.desc)).2 else s1
  | _ => s1

/-! ### Tiles -/

def ArrayUnit.tileRows (u : ArrayUnit) (t : Nat) : List TileRow := if t = 0 then u.tile0 else u.tile1
def ArrayUnit.setTile (u : ArrayUnit) (t : Nat) (rows : List TileRow) : ArrayUnit :=
  if t = 0 then { u with tile0 := rows } else { u with tile1 := rows }

/-- Element (m, n) of a tile. -/
def rowElem (r : TileRow) (n : Nat) : Nat := (r.extractLsb' (32 * n) 32).toNat
def ArrayUnit.row (u : ArrayUnit) (t m : Nat) : TileRow := (u.tileRows t).getD m 0#4096

/-- Write a tile of a command and mark it dirty. -/
def State.writeTile (s : State) (c : MCmd) (rows : List TileRow) : State :=
  let s1 := s.modArray c.core c.arr (fun u => u.setTile c.tile rows)
  match s.groups[c.group]? with
  | some g => s1.markItem c.ctx (.tile c.group (g.member c.core) c.arr c.tile)
  | none => s1

/-! ### Passes (10 R252-R256) -/

/-- The wider operand decides the step rate: chunk length and counter (10 R252). -/
def chunkLen (q : List DWord) : Nat :=
  let w := max (mmaAfmt q).width (mmaBfmt q).width
  if w = 16 then 128 else if w = 8 then 256 else 512
def macCounter (q : List DWord) : Nat :=
  let w := max (mmaAfmt q).width (mmaBfmt q).width
  if w = 16 then cntMac16 else if w = 8 then cntMac8 else cntMac4

/-- Element `k` of a run of elements that starts at a byte of a memory, decoded with its own scales (01 R17-R19). -/
def elemIn (m : Mem) (f : ElemFmt) (base k : Nat) : Num :=
  let nib := 2 * base + k * (f.width / 4)
  let bits := m.num (nib / 2) ((f.width + 7) / 8) / 2 ^ (4 * (nib % 2)) % 2 ^ f.width
  decodeElem f bits (scalesAt f (m.side (nib / 2 / 128)).band (nib / 2))

/-- Where column `n` of the KTILE128 tile that holds row `k` of B starts (10 R255). -/
def bColumn (q : List DWord) (k n : Nat) : Nat :=
  mmaBoff q + k / 128 * tileBytes (mmaBfmt q) + n * (16 * (mmaBfmt q).width)

/-- The steps of one chunk on one element, in ascending k (10 R256). -/
def chunkDot (q : List DWord) (a b : Mem) (m n lo : Nat) : Nat → Nat → Nat
  | 0, acc => acc
  | j + 1, acc =>
    let k := lo + j
    (dotStep (chunkDot q a b m n lo j acc) (elemIn a (mmaAfmt q) (mmaAoff q + m * mmaAstr q) k)
      (elemIn b (mmaBfmt q) (bColumn q k n) (k % 128))).1

/-- A row of the tile after one chunk; columns from N on keep their contents. -/
def chunkRow (q : List DWord) (a b : Mem) (m c : Nat) (old : TileRow) : Nat → TileRow
  | 0 => old
  | n + 1 =>
    let lo := c * chunkLen q
    let start := if c = 0 && mmaZero q then 0 else rowElem old n
    setBits (chunkRow q a b m c old n) (32 * n)
      (BitVec.ofNat 32 (chunkDot q a b m n lo (min (chunkLen q) (mmaK q - lo)) start))

/-- The tile after one chunk; rows from M on keep their contents. -/
def chunkTile (q : List DWord) (a b : Mem) (c : Nat) (rows : List TileRow) : List TileRow :=
  rows.mapIdx (fun m r => if m < mmaM q then chunkRow q a b m c r (mmaN q) else r)

/-- The lines of the weight buffer that a chunk of `n` rows of B from row `lo` on reads: of each column below N (10 R255). -/
def bLines (q : List DWord) (lo n : Nat) : List Nat :=
  (List.range ((n + 127) / 128)).flatMap (fun t => (List.range (mmaN q)).flatMap (fun c =>
    linesOf (bColumn q (lo + 128 * t) c) ((min 128 (n - 128 * t) * (mmaBfmt q).width + 7) / 8)))

/-- The class of the poisoned data that a pass reads: a line of A, the object of the arrival after the last pass, a line of B, or the
tile where the pass goes on from it (04 R110; 10 R250, R255, R257; 14 R360). -/
def State.passPoison (s : State) (g : Group) (c : MCmd) : Option Nat :=
  if s.bad.isEmpty then none
  else
    let lo := c.nextc * chunkLen c.desc
    let n := min (chunkLen c.desc) (mmaK c.desc - lo)
    let bytes := rowBytes (mmaAfmt c.desc) (lo + n) - rowBytes (mmaAfmt c.desc) lo
    let inA := (List.range (mmaM c.desc)).any (fun m =>
      (s.badScratch c.group (mmaAoff c.desc + m * mmaAstr c.desc + rowBytes (mmaAfmt c.desc) lo) bytes).isSome)
    let inBar := mmaMbarEn c.desc && decide (mmaK c.desc ≤ lo + n) && (s.badScratch c.group (mmaMbar c.desc) 16).isSome
    let inB := (bLines c.desc lo n).any (fun j => s.bad.contains (.wbuf c.group (g.member c.core) c.arr j))
    let inTile := !(mmaZero c.desc && c.nextc == 0) && s.bad.contains (.tile c.group (g.member c.core) c.arr c.tile)
    if inA || inBar then some 1 else if inB then some 7 else if inTile then some 6 else none

/-- One pass of the command at the head of an array (10 R256, R258), or the ECC of data that it reads. DESIGN CHOICE (log 83): of the
moments from issue to the end of a pass that 10 R258 allows for the read of a byte of A, every byte is read at its pass. -/
def State.arrayPass (s : State) (core a : Nat) : Except TrapInfo State :=
  match s.headCmd core a, s.arrayOf core a with
  | some (k, c), some u =>
    match c.kind with
    | .mma | .follow =>
      match s.groups[c.group]? with
      | none => .ok s
      | some g => match s.passPoison g c with
      | some code => .error { cause := causeEcc, detail := BitVec.ofNat 8 code }
      | none =>
        let rows := chunkTile c.desc g.scratch u.wbuf c.nextc (u.tileRows c.tile)
        let steps := mmaM c.desc * mmaN c.desc * min (chunkLen c.desc) (mmaK c.desc - c.nextc * chunkLen c.desc)
        let s1 := ((s.writeTile c rows).account (s.domainOf c.ctx) (macCounter c.desc) steps).modCmd k
          (fun x => { x with st := .running, nextc := c.nextc + 1 })
        .ok (if mmaK c.desc ≤ (c.nextc + 1) * chunkLen c.desc then s1.finishCmd k c else s1)
    | _ => .ok s
  | _, _ => .ok s

/-- ACCZ at the head of an array (10 R261). -/
def State.acczRun (s : State) (core a : Nat) : State :=
  match s.headCmd core a with
  | some (k, c) => if c.kind = .accz then (s.writeTile c (List.replicate 256 0#4096)).finishCmd k c else s
  | none => s

/-! ### ACCLD (10 R260, R261) -/

/-- STRIDE and ROWS of S(B) (10 R260). -/
def rowsOf (b : DWord) : Nat := bitsOf b 32 9
def strideOf (b : DWord) : Nat := bitsOf b 0 32
def rowAddr (a b : DWord) (r : Nat) : DWord := a + BitVec.ofNat 64 (r * strideOf b)

/-- A row that an array reads whose translation no longer holds: free values (log 5). -/
def State.freeBytes (s : State) : Nat → List (BitVec 8) × State
  | 0 => ([], s)
  | n + 1 =>
    let (bs, s1) := s.freeBytes n
    let (x, s2) := s1.draw
    (bs ++ [x.extractLsb' 0 8], s2)

/-- Does an address lie in an aperture of a peer that is not UP, so that what reads it gets all ones (19 R407)? -/
def State.deadPeer (s : State) (c : Nat) (gen : Nat → Word) (va : DWord) : Bool :=
  match s.leafOf none .rd c gen (vaBits va) with
  | .ok e => !ptePb e && ((paKind (ptePa e)).peerOf).any (fun p => !s.peerUp p)
  | .error _ => false

/-- A byte of a row: of memory, 0xFF at a peer that is not UP (19 R407), a free value where nothing translates any more (log 5). -/
def State.rowByte (s : State) (c : Nat) (gen : Nat → Word) (va : DWord) : BitVec 8 × State :=
  match s.translate none c gen .rd false va with
  | .ok x => (s.agentByte x.pa, s.agentReads [x])
  | .error _ =>
    if s.deadPeer c gen va then (0xFF#8, s)
    else ((s.draw).1.extractLsb' 0 8, (s.draw).2)

/-- The bytes of a row, in ascending order. -/
def State.rowBytes (s : State) (c : Nat) (gen : Nat → Word) (va : DWord) : Nat → List (BitVec 8) × State
  | 0 => ([], s)
  | n + 1 =>
    let (b, s1) := s.rowByte c gen va
    let (bs, s2) := s1.rowBytes c gen (va + 1#64) n
    (b :: bs, s2)

/-- The class of the lost data that a row reads, in its lines or in the tables of its translation (02 R49). -/
def State.rowPoison (s : State) (c : Nat) (gen : Nat → Word) (va : DWord) (n : Nat) : Option (BitVec 8) :=
  if s.poison.isEmpty then none
  else (List.range n).findSome? (fun k => match s.translate none c gen .rd false (va + BitVec.ofNat 64 k) with
    | .error t => if t.cause = causeEcc then some t.detail else none
    | .ok x => if s.linePoisoned (x.pa / 128) then some (BitVec.ofNat 8 (s.lineClass (x.pa / 128))) else none)

/-- The bytes an array reads from a row, from the state of the issuing wave (10 R258, R261). DESIGN CHOICE (log 83): a row in a Publish
Buffer page is read by the generation that the wave has adopted when the command runs. -/
def State.rowRead (s : State) (wid : Nat) (va : DWord) (n : Nat) : Except TrapInfo (List (BitVec 8) × State) :=
  match s.waves[wid]? with
  | none => .ok (List.replicate n 0#8, s)
  | some w => match windowOf va with
    | .scratch off =>
      if (s.badScratch w.group off n).isSome then .error { cause := causeEcc, detail := 1#8 }
      else .ok ((List.range n).map (fun k => s.homeByte w (.scratch (off + k))), s)
    | .reg off =>
      if (List.range n).any (fun k => s.poisoned wid w (.reg (off + k))) then .error { cause := causeEcc, detail := 1#8 }
      else .ok ((List.range n).map (fun k => w.winByte (off + k)), s)
    | .none => match s.rowPoison w.ctx w.gen va n with
      | some code => .error { cause := causeEcc, detail := code }
      | none => .ok ((s.lookUps none .rd w.ctx w.gen va n).rowBytes w.ctx w.gen va n)

/-- Rows 0 to n-1 of an ACCLD laid over the tile's rows. -/
def State.accldRows (s : State) (c : MCmd) (rows : List TileRow) : Nat → Except TrapInfo (List TileRow × State)
  | 0 => .ok (rows, s)
  | n + 1 => match s.accldRows c rows n with
    | .error t => .error t
    | .ok (rs, s1) => match s1.rowRead c.wave (rowAddr (qAt c.desc 1) (qAt c.desc 2) n) 512 with
      | .error t => .error t
      | .ok (bs, s2) => .ok (rs.set n (BitVec.ofNat 4096 (natOfBytes bs)), s2)

/-- ACCLD at the head of an array, or the ECC of a poisoned row (10 R261). -/
def State.accldRun (s : State) (core a : Nat) : Except TrapInfo State :=
  match s.headCmd core a, s.arrayOf core a with
  | some (k, c), some u =>
    if c.kind = .accld then
      match s.accldRows c (u.tileRows c.tile) (rowsOf (qAt c.desc 2)) with
      | .error t => .error t
      | .ok (rows, s1) => .ok ((s1.writeTile c rows).finishCmd k c)
    else .ok s
  | _, _ => .ok s

/-! ### Follow-on commands (03 R95) -/

/-- May the follow-on of a request issue: its request has landed and its wait barrier has been reached? -/
def State.followReady (s : State) (q : CopyReq) : Bool :=
  let f := followQuads q.ext
  s.ctxRuns q.ctx && q.st == .followwait && (!(qAt f 3).getLsbD 53 || q.reached)

/-- The bytes of A from its first row to the end of its last (10 R254): the range that the checks and the array's reads name. -/
def aRange (q : List DWord) : Place × Nat :=
  (.scratch (mmaAoff q), (mmaM q - 1) * mmaAstr q + rowBytes (mmaAfmt q) (mmaK q))

/-- What the issuing wave has stored to the A range enters (10 R258). -/
def State.enterRows (s : State) (wid : Nat) (q : List DWord) : State := s.showBytes wid (aRange q).1 (aRange q).2

/-- Issue the follow-on of a request: its command joins the queue, or the request fails with detail 0x0B. DESIGN CHOICE (log 78):
SR_TRAPADDR of that failure is 0, there being no faulting element. -/
def State.issueFollow (s : State) (k : Nat) : State :=
  match s.copies[k]? with
  | none => s
  | some q =>
    let f := followQuads q.ext
    let size := match s.groups[q.group]? with
      | some g => g.scratchSize
      | none => 0
    let features := match s.ctxs[q.ctx]? with
      | some c => c.features
      | none => 0
    let codes := mmaCode (mmaAcode f) && codeOk features (mmaAcode f) && mmaCode (mmaBcode f) && codeOk features (mmaBcode f)
    if !s.followReady q then s
    else if !codes || (mmaCheck size f).isSome then s.failCopy k (q.trap 0x0B { cause := 0#6 } q.low)
    else if s.queueFull q.core (mmaArr f) then s
    else
      ((s.enterRows q.wave f).enqueueCmd ⟨q.core, f, .follow, .queued, 0, q.wave, q.group, q.ctx, true⟩ (mmaArr f)).modCopy k
        (fun x => { x with st := .done })

end Sys2Proof.Machine
end

