-- ==== Sys2Proof/Machine/Place.lean ====
section
/-! DEFINITION. What a group needs, quotas, the division of span groups, the choice of cores, placement and start
(04 R112, R113; 12 R281-R297). -/

namespace Sys2Proof.Machine

/-! ### Needs (04 R113; 12 R281, R286, R288) -/

/-- Granules of the vector and hyper blocks of a wave with these budgets (04 R113). -/
def blockNeed (n h b : Nat) : Nat := (n + 31) / 32 + (8192 * b + 1024 * h + 4095) / 4096

def Role.granules (r : Role) : Nat := blockNeed r.numV r.numH r.numB
def Wave.granules (w : Wave) : Nat := blockNeed w.numV w.numH w.numB

/-- The size of a group's scratchpad: what the kernel declares, rounded up to whole lines (04 R113). -/
def Kernel.scratchSize (k : Kernel) : Nat := (k.scratch + 127) / 128 * 128

/-- Granules of the group block of a kernel (04 R113). -/
def Kernel.blockGranules (k : Kernel) : Nat := (k.scratchSize + 2048 + 4095) / 4096

/-- Stage and role of each wave, by wave index (12 R281). -/
def Kernel.waveRoles (k : Kernel) : List (Nat × Role) :=
  (List.range k.roles.length).flatMap (fun st => match k.roles[st]? with
    | some r => List.replicate r.waves (st, r)
    | none => [])

/-- Waves and granules of span member `j` of a division with `q` waves a member; `alive` tells the waves that have not
retired (12 R288). -/
def Kernel.memberNeed (k : Kernel) (alive : Nat → Bool) (q j : Nat) : Nat × Nat :=
  let ws := (k.waveRoles.zipIdx).filter (fun x => x.2 / q == j && alive x.2)
  (ws.length, (ws.map (fun x => x.1.2.granules)).foldl (· + ·) 0 + (if j = 0 then k.blockGranules else 0))

/-- Do `n` members hold the waves of a kernel (12 R288)? -/
def Kernel.divides (k : Kernel) (n : Nat) : Option (Nat × Nat) :=
  let w := k.waveRoles.length
  let q := (w + n - 1) / n
  let m := (w + q - 1) / q
  if (List.range m).all (fun j =>
      decide ((k.memberNeed (fun _ => true) q j).1 ≤ 128) && decide ((k.memberNeed (fun _ => true) q j).2 ≤ 416)) then some (q, m)
  else none

/-- The division of a group: waves a member, and members; a group that is no span group has one (12 R288). -/
def Kernel.division (k : Kernel) : Option (Nat × Nat) :=
  match k.divides 1 with
  | some d => some d
  | none => ((List.range 15).map (· + 2)).findSome? k.divides

/-- The needs of the members. -/
def Kernel.needs (k : Kernel) (alive : Nat → Bool) : Option (List (Nat × Nat)) :=
  match k.division with
  | some (q, m) => some ((List.range m).map (k.memberNeed alive q))
  | none => none

/-! ### Room on a core (12 R286, R287) -/

/-- QWAVE and QPOOL of a domain on a core (19 R416). -/
def State.quota (s : State) (dom core : Nat) : Nat × Nat :=
  match s.domains[dom]? with
  | some d => match d.quotas.find? (fun x => x.1 == core) with
    | some x => x.2
    | none => (128, 416)
  | none => (128, 416)

/-- Is a group on a core, and of a domain if one is named? -/
def State.onCore (s : State) (core : Nat) (dom : Option Nat) (g : Group) : Bool :=
  g.st.holds && g.cores.contains core && (match dom with
    | some d => s.domainOf g.ctx == d
    | none => true)

/-- The waves that hold slots of a core (12 R303). -/
def State.slotWaves (s : State) (core : Nat) (dom : Option Nat) : List Wave :=
  s.waves.filter (fun w => w.core == core && w.st != .retired && (match s.groups[w.group]? with
    | some g => s.onCore core dom g
    | none => false))

/-- The granules in use on a core. -/
def State.usedGranules (s : State) (core : Nat) (dom : Option Nat) : Nat :=
  ((s.slotWaves core dom).map Wave.granules).foldl (· + ·) 0 +
  ((s.groups.filter (fun g => s.onCore core dom g && g.cores.head? == some core)).map Group.blockGranules).foldl (· + ·) 0

def State.freeGranules (s : State) (core : Nat) : Nat := 416 - s.usedGranules core none

def State.fenced (s : State) (core : Nat) : Bool :=
  match s.cores[core]? with
  | some c => c.fenced
  | none => true

/-- Is a unit of a core under test? Every group is off the core then (14 R361). -/
def State.underTest (s : State) (core : Nat) : Bool := s.tests.any (fun t => unitCore t.unit == some core && !t.verdict)

/-- The requests of a group that has been placed before, by span member: each takes an entry of the kick queue of the core that its member
goes to (03 R78; log 37). -/
def State.requestsOf (s : State) (g m : Nat) : Nat :=
  match s.groups[g]? with
  | some x => (s.copies.filter (fun q => q.host.isNone && q.group == g && !q.st.ended && x.cores.idxOf? q.core == some m)).length
  | none => 0

/-- Can a core take a member of a group (12 R286; 14 R361), with its `reqs` copy requests (03 R78)? -/
def State.canTake (s : State) (dom : Nat) (claim : Bool) (need : Nat × Nat) (reqs core : Nat) : Bool :=
  let (qw, qp) := s.quota dom core
  decide (s.queueUsed core + reqs ≤ 64) && !s.fenced core && !s.underTest core && decide ((s.slotWaves core none).length + need.1 ≤ 128) &&
  decide (s.usedGranules core none + need.2 ≤ 416) &&
  decide ((s.groups.filter (s.onCore core none)).length < 32) &&
  (!claim || !(s.groups.any (fun g => s.onCore core none g && g.claim))) &&
  decide ((s.slotWaves core (some dom)).length + need.1 ≤ qw) && decide (s.usedGranules core (some dom) + need.2 ≤ qp)

/-- Can a core take a member when it is empty (12 R287, 14 R358)? -/
def State.couldTake (s : State) (dom : Nat) (need : Nat × Nat) (core : Nat) : Bool :=
  let (qw, qp) := s.quota dom core
  !s.fenced core && decide (need.1 ≤ min 128 qw) && decide (need.2 ≤ min 416 qp)

/-- Can every member be placed on some core of the device with every core empty (12 R287)? -/
def State.couldPlace (s : State) (dom : Nat) (needs : Option (List (Nat × Nat))) : Bool :=
  match needs with
  | some l => l.all (fun n => (List.range 160).any (s.couldTake dom n))
  | none => false

/-! ### The choice of cores (12 R290-R292) -/

/-- The home tile address of a group with a home pointer (12 R290). -/
def homeTile (h : DWord) (stride : DWord × DWord × DWord) (coord : Nat × Nat × Nat) : DWord :=
  h + BitVec.ofNat 64 coord.1 * stride.1 + BitVec.ofNat 64 coord.2.1 * stride.2.1 + BitVec.ofNat 64 coord.2.2 * stride.2.2

/-- The preferred quadrant of a group (12 R290). -/
def State.homeQuad (s : State) (c : Nat) (home : Option DWord) (stride : DWord × DWord × DWord)
    (coord : Nat × Nat × Nat) (index : Nat) : Nat :=
  match home with
  | none => index % 4
  | some h =>
    match s.agentXlat c .rd (homeTile h stride coord) with
    | .error _ => index % 4
    | .ok x => match paKind x.pa with
      | .hbm q => q
      | .weightStore q => q
      | _ => index % 4

/-- The dispatcher's translation of a home tile address (02 R72; 12 R290). -/
def State.homeLooks (s : State) (c : Nat) (home : Option DWord) (stride : DWord × DWord × DWord) (coord : Nat × Nat × Nat) : State :=
  home.elim s (fun h => s.agentLooks c .rd (homeTile h stride coord) 1)

/-- The core of a quadrant, not among `used`, that takes a member: the one with the most free granules, the lowest among
equals (12 R291, R292). -/
def State.bestCore (s : State) (dom : Nat) (claim : Bool) (need : Nat × Nat) (reqs : Nat) (used : List Nat) (quad : Nat) :
    Option Nat :=
  ((List.range 40).map (· + 40 * quad)).foldl (fun best k =>
    if used.contains k || !s.canTake dom claim need reqs k then best
    else match best with
      | none => some k
      | some b => if s.freeGranules b < s.freeGranules k then some k else best) none

/-- Cores for the members of a group in one quadrant (12 R292). -/
def State.memberCores (s : State) (dom : Nat) (claim : Bool) (reqs : Nat → Nat) (quad : Nat) :
    List Nat → List (Nat × Nat) → Option (List Nat)
  | used, [] => some used
  | used, n :: rest => match s.bestCore dom claim n (reqs used.length) used quad with
    | some k => s.memberCores dom claim reqs quad (used ++ [k]) rest
    | none => none

/-- The first quadrant from the preferred one that holds the group, among those that `ok` allows. -/
def State.findCores (s : State) (dom : Nat) (claim : Bool) (needs : List (Nat × Nat)) (reqs : Nat → Nat) (pref : Nat)
    (ok : Nat → Bool) : Option (List Nat) :=
  ((List.range 4).map (fun k => (pref + k) % 4)).findSome? (fun q =>
    if ok q then s.memberCores dom claim reqs q [] needs else none)

/-! ### Candidates (12 R289, 13 R310) -/

/-- Is the front end under test, or fenced (14 R361, R364)? Its dispatch stops then. -/
def State.frontStopped (s : State) : Bool :=
  s.fencedUnits.contains .frontEnd || s.tests.any (fun t => t.unit == .frontEnd && !t.verdict)

/-- The groups that may be placed, in the order in which they are tried. A bin launch does not begin before
its table has a place, nor while a COPY of the context fills the weight store (02 R67; 13 R316; log 11, log 81). -/
def State.candidates (s : State) : List Candidate :=
  if s.frontStopped then [] else
  (s.wakeQueue.filter (fun g => match s.groups[g]? with
    | some x => s.ctxRuns x.ctx && x.st == .pending
    | none => false)).map .group ++
  ((List.range s.launches.length).filter (fun l => match s.launches[l]? with
    | some x => x.listed && s.ctxRuns x.ctx && !(x.ofBin && x.next == 0 && (x.table.isNone || s.sealing x.ctx))
    | none => false)).map .launch

/-- The coordinates of a group from its linear index (12 R280). -/
def coordOf (e : Nat × Nat × Nat) (i : Nat) : Nat × Nat × Nat := (i % e.1, i / e.1 % e.2.1, i / e.1 / e.2.1)

/-- Domain, claim, needs and preferred quadrant of a candidate. -/
def State.wants (s : State) : Candidate → Option (Nat × Bool × List (Nat × Nat) × Nat)
  | .group g => match s.groups[g]? with
    | none => none
    | some x =>
      let alive (i : Nat) : Bool := match x.waves[i]?.bind (fun w => s.waves[w]?) with
        | some w => w.st != .retired
        | none => true
      let stride := match s.launches[x.launch]? with
        | some l => l.stride
        | none => (0#64, 0#64, 0#64)
      (x.kernel.needs alive).map (fun n => (s.domainOf x.ctx, x.claim, n, s.homeQuad x.ctx x.home stride x.coord x.index))
  | .launch l => match s.launches[l]? with
    | none => none
    | some x => (x.kernel.needs (fun _ => true)).map (fun n =>
        (s.domainOf x.ctx, x.mclaim, n, s.homeQuad x.ctx x.home x.stride (coordOf x.extent x.next) x.next))

/-- Is a quadrant closed to a candidate: reserved by a waiting span group other than itself? Of two that reserve one quadrant the
one that began to wait first has it (12 R292; log 81). -/
def State.closedTo (s : State) (c : Candidate) (q : Nat) : Bool :=
  let before := if s.spanWait.contains (c, q) then s.spanWait.takeWhile (· != (c, q)) else s.spanWait
  before.any (fun e => e.1 != c && e.2 == q)

/-- The copy requests that the members of a candidate bring with them. -/
def State.candidateReqs (s : State) : Candidate → Nat → Nat
  | .group g => s.requestsOf g
  | .launch _ => fun _ => 0

/-- Cores for a candidate, in quadrants that are open to it. -/
def State.coresFor (s : State) (c : Candidate) : Option (List Nat) :=
  match s.wants c with
  | none => none
  | some (dom, claim, needs, pref) => s.findCores dom claim needs (s.candidateReqs c) pref (fun q => !s.closedTo c q)

/-- A candidate that waits from now on: a span group for which no quadrant is found reserves its preferred quadrant
(12 R292). -/
def State.beginSpanWait (s : State) (c : Candidate) : State :=
  match s.wants c with
  | some (_, _, needs, pref) =>
    if 1 < needs.length && !(s.spanWait.any (fun e => e.1 == c)) && (s.coresFor c).isNone then
      { s with spanWait := s.spanWait ++ [(c, pref)] }
    else s
  | none => s

/-- Is a group still to be placed, though its context may be stopped for the moment (12 R292)? -/
def State.standing (s : State) (c : Candidate) : Bool :=
  let here (k : Nat) : Bool := (s.ctxs[k]?).any (fun x => !x.destroyed && x.st != .saved)
  match c with
  | .group g => (s.groups[g]?).any (fun x => x.st == .pending && here x.ctx)
  | .launch l => (s.launches[l]?).any (fun x => x.listed && here x.ctx)

/-- The dispatcher tries its candidates: a wait ends once its group is placed or gone, and span groups that find no quadrant wait
(12 R292). -/
def State.noteSpanWait (s : State) : State :=
  s.candidates.foldl State.beginSpanWait { s with spanWait := s.spanWait.filter (fun e => s.standing e.1) }

/-! ### Free picks (log 11) -/

/-- The lowest number from `k` up, among `n`, that is free. -/
def firstFrom (free : Nat → Bool) (k : Nat) : Nat → Option Nat
  | 0 => none
  | n + 1 => if free k then some k else firstFrom free (k + 1) n

/-- A number below `n` that is free: the proposal of a free value if it is free, else the lowest (log 11). -/
def State.pick (s : State) (free : Nat → Bool) (n : Nat) : Option Nat × State :=
  let (x, s1) := s.draw
  if free (x.toNat % n) then (some (x.toNat % n), s1) else (firstFrom free 0 n, s1)

/-! ### Making a group (12 R281, R285, R293; 13 R316) -/

/-- The lowest free slot of the partition with the fewest resident waves (12 R293). -/
def pickSlot (used : List Nat) : Nat :=
  let count (p : Nat) : Nat := (used.filter (fun k => k / 16 == p)).length
  let p := (List.range 8).foldl (fun b q => if count q < count b then q else b) 0
  16 * p + (firstFrom (fun k => !(used.contains (16 * p + k))) 0 16).getD 0

/-- Slots for waves in ascending order on cores whose slots in use are `used`. -/
def giveSlots (used : Nat → List Nat) : List (Nat × Nat) → List (Nat × Nat × Nat)
  | [] => []
  | (w, core) :: rest =>
    let k := pickSlot (used core)
    (w, core, k) :: giveSlots (fun c => if c = core then k :: used c else used c) rest

/-- C0 (11 R267). -/
def tieC0 : DWord := 0x9E3779B97F4A7C15#64

/-- The marks of every line of the pool blocks of a wave with these budgets (04 R116; log 18). -/
def poolMarks (n h b : Nat) : List Nat :=
  List.range (32 * ((n + 31) / 32)) ++ (List.range (32 * ((8192 * b + 1024 * h + 4095) / 4096))).map (· + 0x1000)

/-- A wave of a group not yet started (12 R285). -/
def Wave.fresh (group ctx index stage core slot : Nat) (r : Role) (args : DWord) (regs : List DWord) : Wave :=
  { group := group, ctx := ctx, index := index, stage := stage, core := core, slot := slot,
    numV := r.numV, numH := r.numH, numB := r.numB, st := .unstarted, pc := r.entry,
    sregs := ((List.replicate 64 0#64).set 1 args).mapIdx (fun n x => if 2 ≤ n ∧ n ≤ 5 then regs.getD (n - 2) 0#64 else x),
    masks := [0xFFFFFFFF#32, 0#32, 0#32, 0#32, 0#32, 0#32, 0#32, 0#32],
    vregs := List.replicate r.numV VReg.zero, hvs := List.replicate r.numH 0#8192, bas := List.replicate r.numB 0#65536,
    hvtie := tieC0, fpflags := flagNone, snapCur := false, snapOvf := false, acqCnt := 0#32, relCnt := 0#32,
    trapCause := 0#6, trapPc := 0#64, trapAddr := 0#64, frame := Frame.zero, handler := false, marked := false,
    pfx := none, outs := [], atoms := [], pend := [], own := [], acq := 0#32, floors := [], adopted := [], gphase := 0,
    mirror := ⟨false, 0, 0, 0⟩, due := [], held := none, stopped := false, killed := false, age := 0, pass := 0,
    delayUntil := none, ran := false, fetched := none, reached := false, far := []
    dirty := poolMarks r.numV r.numH r.numB }

/-- The next age of a core (12 R299). -/
def State.nextAge (s : State) (core : Nat) : Nat × State :=
  match s.cores[core]? with
  | some c => (c.ageSeq, s.modCore core (fun x => { x with ageSeq := x.ageSeq + 1 }))
  | none => (0, s)

/-- Seat waves in slots of cores: the granules of their blocks are zeroed, which marks every line of them (04 R116; 12 R293). -/
def State.seat (s : State) (l : List (Nat × Nat × Nat)) : State :=
  l.foldl (fun t x => t.modWave x.1 (fun w => { w with
    core := x.2.1, slot := x.2.2, dirty := poolMarks w.numV w.numH w.numB })) s

/-- The slots in use on a core. -/
def State.usedSlots (s : State) (core : Nat) : List Nat := (s.slotWaves core none).map (·.slot)

/-- Give the live waves of a group their cores and slots, and its engine work its cores; every line of its group block is marked
(04 R116). -/
def State.seatGroup (s : State) (g q : Nat) (cores : List Nat) : State :=
  match s.groups[g]? with
  | none => s
  | some x =>
    let live := (x.waves.zipIdx).filter (fun y => match s.waves[y.1]? with
      | some w => w.st != .retired
      | none => false)
    let core (i : Nat) : Nat := cores.getD (i / q) 0
    let moved (k : Nat) : Nat := cores.getD ((x.cores.idxOf? k).getD 0) k
    let s1 := s.seat (giveSlots s.usedSlots (live.map (fun y => (y.1, core y.2))))
    ({ s1 with
      copies := s1.copies.map (fun (c : CopyReq) => if c.host.isNone && c.group == g && !c.st.ended then { c with core := moved c.core } else c)
      cmds := s1.cmds.map (fun (c : MCmd) => if c.group == g && c.st != MState.done then { c with core := moved c.core } else c) }).modGroup g
      (fun y => { y with
        cores := cores, spanQ := q, st := .starting, started := false, dirty := List.range (32 * y.blockGranules) })

/-- A group tag that no live group of the context has, with the GPHASE it continues; none when no tag remains (05 R152). -/
def State.pickTag (s : State) (c : Nat) : Nat × Nat × State :=
  let inUse := (s.groups.filter (fun g => g.ctx == c && g.st != .retired)).map (·.gid)
  let past := match s.ctxs[c]? with
    | some x => x.gids
    | none => []
  let phase (t : Nat) : Nat := ((past.find? (fun p => p.1 == t)).map (·.2)).getD 0
  let (t, s1) := s.pick (fun t => !(inUse.contains t) && decide (phase t < 2 ^ 48 - 1)) glintTags
  match t with
  | some k => (k, phase k, s1)
  | none => (glintTags, 0, s1.modCtx c (fun x => { x with glintOff := true }))

/-- The head group of a launch enters the tables and takes its place (12 R281, R289; 13 R316, R318). -/
def State.placeNew (s : State) (l : Nat) (x : Launch) (q : Nat) (cores : List Nat) : State :=
  let g := s.groups.length
  let base := s.waves.length
  let roles := x.kernel.waveRoles
  let waves := (roles.zipIdx).map (fun y =>
    { Wave.fresh g x.ctx y.2 y.1.1 (cores.getD (y.2 / q) 0) 0 y.1.2 x.args x.regs with killed := x.dead })
  let (gid, gphase, s0) := s.pickTag x.ctx
  let grp : Group :=
    { ctx := x.ctx, launch := l, index := x.next, coord := coordOf x.extent x.next, extent := x.extent, st := .pending,
      waves := (List.range roles.length).map (· + base), scratchSize := x.kernel.scratchSize, scratch := Mem.empty,
      gregs := List.replicate 256 0#64, claim := x.mclaim, cores := cores, spanQ := q, gid := gid, gphase := gphase,
      got := x.kernel.got, args := x.args, entryRegs := x.regs, kernel := x.kernel, tree := x.tree, depth := x.depth,
      sib := x.sib, slots := x.slots, table := x.table, home := x.home, wake := false, fresh := true, started := false, saved := [],
      dirty := List.range (32 * x.kernel.blockGranules) }
  let last := decide (x.extent.1 * x.extent.2.1 * x.extent.2.2 ≤ x.next + 1)
  let s1 := ({ s0 with groups := s0.groups ++ [grp], waves := s0.waves ++ waves }).modLaunch l (fun y => { y with
    next := y.next + 1, listed := !last })
  (s1.modTree x.tree (fun t => { t with
    live := t.live + 1
    pend := if x.ofBin then t.pend - 1 else t.pend
    unplaced := if x.ofBin then t.unplaced else t.unplaced - 1 })).seatGroup g q cores

/-! ### Starting (10 R251; 12 R282, R297; 14 R357) -/

/-- Arrays of the members of a group, from a list of one array set a member. -/
def State.setArrays (s : State) (g : Group) (sets : List (List ArrayUnit)) : State :=
  ((g.cores.zip sets).foldl (fun t x => t.modCore x.1 (fun c => { c with arrays := x.2 })) s)

/-- The arrays of the members of a group. -/
def State.getArrays (s : State) (g : Group) : List (List ArrayUnit) :=
  g.cores.map (fun k => match s.cores[k]? with
    | some c => c.arrays
    | none => [])

/-- A started wave is ready, and the youngest of its core (12 R282, R299). -/
def State.readyWave (s : State) (wid core : Nat) : State :=
  let (age, s1) := s.nextAge core
  s1.modWave wid (fun x => { x with
    st := if x.st = .unstarted then .ready else x.st, stopped := false, age := age, pass := 0 })

/-- Each wave of a group starts: an acquiring boundary for a group that starts anew or was woken, the SNAP bits for one that a
resume restored (12 R282, R297; 14 R357). -/
def State.startWave (s : State) (fresh wake : Bool) (wid : Nat) : State :=
  match s.waves[wid]? with
  | none => s
  | some w =>
    if w.st = .retired then s
    else
      let s1 := s.readyWave wid w.core
      if fresh then (s1.acquire wid).modWave wid (fun x => { x with acqCnt := 0#32 })
      else if wake then s1.acquire wid
      else (s1.freshView wid).modWave wid (fun x => { x with snapCur := true, snapOvf := true })

/-- A group starts: all its waves as one gang (12 R282). -/
def State.startGroup (s : State) (g : Nat) : State :=
  match s.groups[g]? with
  | none => s
  | some x =>
    let faulted : Bool := match s.ctxs[x.ctx]? with
      | some c => c.st == .faulted
      | none => false
    let sets := if x.fresh then List.replicate x.cores.length (List.replicate 4 ArrayUnit.zero) else x.saved
    let s1 := if x.claim then s.setArrays x sets else s
    let s2 := x.waves.foldl (fun t w => t.startWave x.fresh x.wake w) s1
    s2.modGroup g (fun y => { y with
      st := if faulted then GroupSt.faulted else .running, fresh := false, started := true, wake := false, saved := [] })

end Sys2Proof.Machine
end

