-- ==== Sys2Proof/Machine/Work.lean ====
section
/-! DEFINITION. The front end's work: trees, launches, records and bins, sample groups, the retirement and the kill of waves
and groups (07 R192, R202; 12 R296-R303; 13 R310-R332). -/

namespace Sys2Proof.Machine

/-! ### Kernels and launches (12 R283, R284; 13 R310; 15 R371) -/

/-- The kernel that a handle names among the loaded objects of a context (15 R371). -/
def State.kernelOf (s : State) (c : Nat) (h : DWord) : Option Kernel :=
  match s.objs.find? (fun o => o.ctx == c && o.num == bitsOf h 16 32 && !o.revoked && !o.unloaded) with
  | some o => o.kernels[bitsOf h 0 16]?
  | none => none

/-- The loaded object that a handle names, by its position. -/
def State.objectOf (s : State) (c : Nat) (h : DWord) : Option Nat :=
  s.objs.findIdx? (fun o => o.ctx == c && o.num == bitsOf h 16 32 && !o.revoked && !o.unloaded)

/-- Bytes that the front end reads at a virtual address of a context, if it translates, at the homes of their lines (02 R45, R72). Data
that are lost are met by the context (02 R49). -/
def State.feRead (s : State) (c : Nat) (va : DWord) (n : Nat) : Option (List (BitVec 8)) × State :=
  let s1 := s.agentLooks c .rd va n
  match xlatBytes (s.agentXlat c .rd) va n with
  | .error t => (none, if t.cause = causeEcc then s1.unitLost c t.detail.toNat t.addr else s1)
  | .ok xs => match xs.find? (fun x => s.linePoisoned (x.pa / 128)) with
    | some x => (none, (s1.agentReads xs).unitLost c (s.lineClass (x.pa / 128)) (va &&& ~~~0x7F#64))
    | none => (some (xs.map (fun x => s.agentByte x.pa)), s1.agentReads xs)

/-- The work area of a context (13 R314). -/
def State.recBase (s : State) (c : Nat) : DWord :=
  match s.ctxs[c]? with
  | some x => x.act.recBase
  | none => 0#64

/-- Bytes that the front end writes through its capability at a virtual address of the work area of a context (13 R314; 19 R408). Its pages
need no W; the weight store takes no such write (02 R68; log 87). -/
def State.feWrite (s0 : State) (c : Nat) (va : DWord) (bs : List (BitVec 8)) : State :=
  s0.viaCap 2 (.pool c) c (va - s0.recBase c).toNat bs.length true (fun s =>
    match xlatBytes (s.agentXlat c .rd) va bs.length with
    | .error _ => s.agentLooks c .rd va bs.length
    | .ok xs =>
      if xs.any (fun x => (paKind x.pa).isWs) then s.agentLooks c .rd va bs.length
      else (s.agentLooks c .rd va bs.length).agentWrites (xs.zip bs) none)

/-- The home pointer of a launch (12 R284). -/
def State.readHome (s : State) (c : Nat) (k : Kernel) (args : DWord) : Option DWord × State :=
  match k.home with
  | none => (none, s)
  | some off =>
    let (bs, s1) := s.feRead c (args + BitVec.ofNat 64 off) 8
    (bs.map (fun l => BitVec.ofNat 64 (natOfBytes l)), s1)

/-- A tree of a context opens (13 R318). -/
def State.openTree (s : State) (t : Tree) : State := { s with trees := s.trees ++ [t] }

/-- The open trees of a context (13 R319). -/
def State.openTrees (s : State) (c : Nat) : Nat := (s.trees.filter (fun t => t.ctx == c && t.isOpen)).length

/-- A launch of a packet or a node with a tree of its own: with no group when it fits nowhere (12 R287; 13 R310, R320). -/
def State.launch (s0 : State) (c : Nat) (o : Origin) (k : Kernel) (args : DWord) (e : Nat × Nat × Nat) (claim : Bool)
    (stride : DWord × DWord × DWord) : State :=
  let (home, s) := s0.readHome c k args
  let fits := s.couldPlace (s.domainOf c) (k.needs (fun _ => true))
  let t := s.trees.length
  let s1 := s.openTree
    { ctx := c, origin := o, live := 0, pend := 0, infl := 0, unplaced := if fits then e.1 * e.2.1 * e.2.2 else 0, done := 0, ended := 0,
      failed := !fits, abandoned := false, isOpen := true }
  { s1 with launches := s1.launches ++ [
      { ctx := c, num := s.nextLaunch, tree := t, origin := o, kernel := k, args := args, extent := e, mclaim := claim,
        home := home, stride := stride, next := 0, regs := [], depth := 0, sib := none, slots := [],
        table := none, listed := fits, dead := false }] }

/-! ### Record pool and indirection tables (13 R314) -/

/-- The size of a context's pool and of its indirection area. -/
def poolSlots : Nat := 1048576
def tableArea : Nat := 33554432

/-- The virtual address of a pool slot. -/
def State.slotAddr (s : State) (c i : Nat) : DWord := s.recBase c + BitVec.ofNat 64 (32 * i)

/-- The indirection tables of a context in use. -/
def State.tablesOf (s : State) (c : Nat) : List (Nat × Nat) :=
  match s.ctxs[c]? with
  | some x => x.tables
  | none => []

/-- Is a range of the indirection area free? -/
def tableFree (tables : List (Nat × Nat)) (off len : Nat) : Bool :=
  decide (off + len ≤ tableArea) && tables.all (fun t => decide (t.1 + t.2 ≤ off) || decide (off + len ≤ t.1))

/-- The first gap of the indirection area that holds a table. -/
def firstGap (tables : List (Nat × Nat)) (len : Nat) : Option Nat :=
  (0 :: tables.map (fun t => t.1 + t.2)).find? (fun o => tableFree tables o len)

/-- A place for an indirection table: a free value if it is free, else the first gap (log 11); none where no gap holds it. -/
def State.pickTable (s : State) (c len : Nat) : Option (Nat × State) :=
  (firstGap (s.tablesOf c) len).map (fun gap =>
    let (x, s1) := s.draw
    let off := x.toNat % (tableArea / 8) * 8
    (if tableFree (s.tablesOf c) off len then off else gap, s1))

/-- A free slot of a context's pool. -/
def State.pickSlotOf (s : State) (c : Nat) : Option Nat × State :=
  let used := match s.ctxs[c]? with
    | some x => x.pool
    | none => []
  s.pick (fun i => !(used.contains i)) poolSlots

/-- A pool slot is taken, or slots are freed. -/
def State.takeSlot (s : State) (c i : Nat) : State := s.modCtx c (fun x => { x with pool := x.pool ++ [i] })
def State.freeSlots (s : State) (c : Nat) (l : List Nat) : State :=
  s.modCtx c (fun x => { x with pool := x.pool.filter (fun i => !(l.contains i)) })
def State.freeTable (s : State) (c : Nat) (t : Option (Nat × Nat)) : State :=
  s.modCtx c (fun x => { x with tables := x.tables.filter (fun y => t != some y) })

/-! ### Sample Group Objects (13 R322-R332) -/

/-- A sibling reference as a register holds it (13 R322). -/
def SibRef.word (r : SibRef) : DWord := BitVec.ofNat 64 (r.obj % 2 ^ 16 + 2 ^ 16 * (r.gen % 2 ^ 16) + 2 ^ 32 * (r.idx % 256))
def SibRef.ofWord (x : DWord) : SibRef := ⟨bitsOf x 0 16, bitsOf x 16 16, bitsOf x 32 8⟩

/-- The live object that a reference names. -/
def State.sgoOf (s : State) (c : Nat) (r : SibRef) : Option Sgo :=
  match s.ctxs[c]? with
  | some x => x.sgos.find? (fun o => o.num == r.obj && o.gen == r.gen && o.live)
  | none => none

def State.modSgo (s : State) (c : Nat) (r : SibRef) (f : Sgo → Sgo) : State :=
  s.modCtx c (fun x => { x with sgos := x.sgos.map (fun o => if o.num = r.obj ∧ o.gen = r.gen then f o else o) })

/-- F64 (13 R330). -/
def f64 (x : Num) : Nat := (roundTo .fp64 .rne false x).1
def dec64 (b : Nat) : Num := decodeFloat .fp64 b

/-- A quotient of finite values, correctly rounded when it is rounded once: truncated, with a non-zero rest marked. -/
def divNum (x y : Num) : Num :=
  match x, y with
  | .fin a m e, .fin b n g =>
    if n = 0 then .nan else if m = 0 then .fin (a != b) 0 0
    else sticky (a != b) (m * 2 ^ 160 / n) (e - g - 160) (decide (m * 2 ^ 160 % n = 0))
  | _, _ => .nan

/-- The advantages of the contributors' rewards, in index order (13 R330). -/
def advantages (eps : Word) (rew : List Num) : List Word :=
  let n := Num.ofInt rew.length
  let sub (r : Num) (mu : Nat) : Nat := f64 (Num.add .rne r (dec64 mu).negate).1
  let sum := rew.foldl (fun a r => f64 (Num.add .rne (dec64 a) r).1) 0
  let mu := f64 (divNum (dec64 sum) n)
  let q := rew.foldl (fun a r =>
    f64 (Num.add .rne (dec64 a) (dec64 (f64 (Num.mul (dec64 (sub r mu)) (dec64 (sub r mu))).1))).1) 0
  let sigma := f64 (sqrtNum (dec64 (f64 (divNum (dec64 q) n)))).1
  let den := f64 (Num.add .rne (dec64 sigma) (decodeFloat .fp32 eps.toNat)).1
  rew.map (fun r =>
    let a := (roundTo .fp32 .rne false (divNum (dec64 (sub r mu)) (dec64 den))).1
    if a % 2 ^ 31 = 0 then 0#32 else BitVec.ofNat 32 a)

/-- Give the contributors their advantages in order. -/
def spread : List Sib → List Word → List Sib
  | [], _ => []
  | b :: rest, advs =>
    if b.kind = .reported then
      match advs with
      | a :: more => { b with adv := a, degenerate := false } :: spread rest more
      | [] => { b with adv := 0#32, degenerate := true } :: spread rest []
    else { b with adv := 0#32, degenerate := false } :: spread rest advs

/-- Finalisation of an object (13 R324, R330). -/
def Sgo.finalise (o : Sgo) : Sgo :=
  let rew := (o.sibs.filter (fun b => b.kind == .reported)).map (fun b => decodeFloat .fp32 b.reward.toNat)
  { o with final := true, sibs := spread o.sibs (if rew.length < 2 then [] else advantages o.eps rew) }

/-- Does a wake make a parked group pending now (12 R289, R298)? Its context is on the device, be it FAULTED, and is not being saved; a
close that stops it only to take its cut does not hold the wake back (14 R348). -/
def State.wakes (s : State) (c : Nat) : Bool :=
  (s.ctxs[c]?).any (fun x => (x.st == .resident || x.st == .restoring || x.st == .faulted) && !x.destroyed &&
    !(x.agStop && x.agBy.any (·.save)))

/-- A parked group is woken (12 R297, R298). -/
def State.wakeGroup (s : State) (g : Nat) : State :=
  match s.groups[g]? with
  | none => s
  | some x =>
    if x.st = .parked then
      if s.wakes x.ctx then
        { s.modGroup g (fun y => { y with st := .pending, wake := true }) with wakeQueue := s.wakeQueue ++ [g] }
      else s.modGroup g (fun y => { y with wake := true })
    else if x.st = .parking then s.modGroup g (fun y => { y with wake := true })
    else s

/-- The groups bound to an object. -/
def State.boundTo (s : State) (c : Nat) (o : Sgo) : List Nat :=
  (List.range s.groups.length).filter (fun g => match s.groups[g]? with
    | some x => x.ctx == c && (match x.sib with
      | some r => r.obj == o.num && r.gen == o.gen
      | none => false)
    | none => false)

/-- Finalisation once no sibling is WAITING, with its wakes; an object that is final and whose groups have retired is freed
(13 R324, R332). DESIGN CHOICE (log 85): the groups that it wakes become pending in the order of the group table. -/
def State.settleSgo (s : State) (c : Nat) (r : SibRef) : State :=
  match s.sgoOf c r with
  | none => s
  | some o =>
    let s1 :=
      if !o.final && o.sibs.all (fun b => b.kind != .waiting) then
        (s.boundTo c o).foldl State.wakeGroup (s.modSgo c r Sgo.finalise)
      else s
    match s1.sgoOf c r with
    | some p => if p.final && p.sibs.all (·.gone) then s1.modSgo c r (fun y => { y with live := false }) else s1
    | none => s1

/-- The STATUS codes of R323. -/
def sgOk : Nat := 0
def sgPending : Nat := 1
def sgLate : Nat := 2
def sgDegenerate : Nat := 3
def sgNonfin : Nat := 4
def sgCancelled : Nat := 5
def sgDup : Nat := 6
def sgNoReward : Nat := 7

/-- The result layout of R323. -/
def sgResult (adv : Word) (status : Nat) (final : Bool) : DWord :=
  BitVec.ofNat 64 (adv.toNat + 2 ^ 32 * status + (if final then 2 ^ 40 else 0))

/-- The status of a sibling of a final object (13 R327). -/
def Sib.finalStatus (b : Sib) : Nat :=
  match b.kind with
  | .reported => if b.degenerate then sgDegenerate else sgOk
  | .nonfin => sgNonfin
  | .cancelled => sgCancelled
  | .timedout => sgLate
  | .waiting => sgNoReward

/-- The status of a sibling before finalisation (13 R329). -/
def Sib.openStatus (b : Sib) : Nat :=
  match b.kind with
  | .waiting => sgNoReward
  | .reported => sgPending
  | .nonfin => sgNonfin
  | .cancelled => sgCancelled
  | .timedout => sgLate

/-- What SGQUERY with SIB returns (13 R329). -/
def Sgo.sibWord (o : Sgo) (idx : Nat) : DWord :=
  match o.sibs[idx]? with
  | none => 0#64
  | some b => if o.final then sgResult b.adv b.finalStatus true else sgResult 0#32 b.openStatus false

/-- What SGQUERY without SIB returns (13 R329). -/
def Sgo.objWord (o : Sgo) : DWord :=
  let rep := (o.sibs.filter (fun b => b.kind == .reported || b.kind == .nonfin)).length
  let res := (o.sibs.filter (fun b => b.kind != .waiting)).length
  BitVec.ofNat 64 (o.sibs.length + 2 ^ 9 * rep + 2 ^ 18 * res + (if o.final then 2 ^ 27 else 0) +
    (if o.expired then 2 ^ 29 else 0) + (if o.due.isSome then 2 ^ 30 else 0))

/-- The expiry of an object's timeout (13 R324). DESIGN CHOICE (log 85): on a final object it does nothing, EXPIRED stays clear. -/
def State.sgTimeout (s : State) (c : Nat) (o : Sgo) (clock : Nat) : State :=
  match o.due with
  | some d =>
    if o.live && !o.final && o.timeout != 0 && decide (d ≤ clock) then
      (s.modSgo c ⟨o.num, o.gen, 0⟩ (fun p => { p with
        expired := true
        sibs := p.sibs.map (fun b => if b.kind = .waiting then { b with kind := .timedout } else b) })).settleSgo c
          ⟨o.num, o.gen, 0⟩
    else s
  | none => s

/-- An object's timeout that has run out expires before whatever reads or changes the object now (13 R324). -/
def State.sgExpire (s : State) (c : Nat) (r : SibRef) : State :=
  match s.sgoOf c r, s.ctxs[c]? with
  | some o, some x => s.sgTimeout c o x.resClock
  | _, _ => s

/-- A sibling's group has ended, or will never start (13 R323, R324): after a timeout of its
object that has run out. -/
def State.sibEnded (s : State) (c : Nat) (r : SibRef) : State :=
  ((s.sgExpire c r).modSgo c r (fun o => { o with sibs := o.sibs.modify r.idx (fun b =>
    { b with gone := true, kind := if b.kind = .waiting then .timedout else b.kind }) })).settleSgo c r

/-- The arrival of a reward (13 R326): what SGREWARD returns, and the state after it. -/
def State.sgReward (s0 : State) (c : Nat) (r : SibRef) (rew : Word) : DWord × State :=
  let s := s0.sgExpire c r
  match s.sgoOf c r with
  | none => (sgResult 0#32 sgLate true, s)
  | some o => match o.sibs[r.idx]? with
    | none => (0#64, s)
    | some b =>
      let clock := match s.ctxs[c]? with
        | some x => x.resClock
        | none => 0
      if b.kind = .waiting then
        let fin := (decodeFloat .fp32 rew.toNat).isFin
        let s1 := (s.modSgo c r (fun p => { p with
          sibs := p.sibs.modify r.idx (fun y => { y with kind := if fin then .reported else .nonfin, reward := rew })
          due := match p.due with
            | some d => some d
            | none => some (clock + 256 * p.timeout) })).settleSgo c r
        let final := match s1.sgoOf c r with
          | some p => p.final
          | none => true
        (sgResult 0#32 (if fin then sgPending else sgNonfin) final, s1)
      else
        let st := match b.kind with
          | .cancelled => sgCancelled
          | .timedout => sgLate
          | _ => sgDup
        (sgResult 0#32 st o.final, s)

/-! ### Bins (13 R313-R316) -/

def State.binOf (s : State) (c b : Nat) : Option Bin :=
  match s.ctxs[c]? with
  | some x => (x.bins.find? (fun y => y.1 == b)).map (·.2)
  | none => none

def State.modBin (s : State) (c b : Nat) (f : Bin → Bin) : State :=
  s.modCtx c (fun x => { x with bins := x.bins.map (fun y => if y.1 = b then (y.1, f y.2) else y) })

def Bin.en (b : Bin) : Bool := (qAt b.quads 0).getLsbD 0
def Bin.coal (b : Bin) : Nat := bitsOf (qAt b.quads 0) 12 11 + 1
def Bin.timer (b : Bin) : Nat := bitsOf (qAt b.quads 0) 32 16

/-- The records of a set are discarded: their slots are free, their tree has no more of them. -/
def State.dropSet (s : State) (c b : Nat) (x : Bin) : State :=
  let s1 := ((s.freeSlots c x.slots).modTree x.tree (fun t => { t with pend := t.pend - x.slots.length })).modBin c b
    (fun y => { y with slots := [], sib := none })
  match x.sib with
  | some r => s1.sibEnded c r
  | none => s1

/-- Lantern places the indirection table of a bin launch (13 R314, R316): the launch's registers name it from then on. Without a
gap that holds the table the launch waits (log 11). -/
def State.giveTable (s : State) (k : Nat) : State :=
  match s.launches[k]? with
  | none => s
  | some l => match l.origin with
    | .bin b =>
      if l.table.isSome || !l.listed then s
      else
        let n := l.slots.length
        match s.pickTable l.ctx (8 * n) with
        | none => s
        | some (off, s1) =>
          let at_ := s.recBase l.ctx + BitVec.ofNat 64 (tableArea + off)
          let ptrs := l.slots.flatMap (fun i => bytesOfNat 8 (s.slotAddr l.ctx i).toNat)
          let s5 := match l.sib with
            | some r => r.word
            | none => BitVec.ofNat 64 b
          ((s1.feWrite l.ctx at_ ptrs).modCtx l.ctx (fun y => { y with tables := y.tables ++ [(off, 8 * n)] })).modLaunch k
            (fun y => { y with
              table := some (off, 8 * n), regs := [at_, BitVec.ofNat 64 n, BitVec.ofNat 64 l.depth, s5] })
    | _ => s

/-- The bin launches that wait for a table look for a gap again. -/
def State.seekTables (s : State) : State :=
  (List.range s.launches.length).foldl (fun t k => match t.launches[k]? with
    | some l => t.charging l.ctx (fun u => u.giveTable k)
    | none => t) s

/-- A bin fires: its set becomes one launch of one group (13 R315, R316). A set whose kernel is gone or fits nowhere is
discarded, and its tree has failed (12 R287). -/
def State.fireBin (s : State) (c b : Nat) : State :=
  match s.binOf c b with
  | none => s
  | some x =>
    if x.slots = [] then s
    else
      let h := qAt x.quads 1
      let args := qAt x.quads 2
      match s.kernelOf c h with
      | none => (s.dropSet c b x).modTree x.tree (fun t => { t with failed := true })
      | some k =>
        if s.couldPlace (s.domainOf c) (k.needs (fun _ => true)) then
          let (home, s) := s.readHome c k args
          let l : Launch :=
            { ctx := c, num := s.nextLaunch, tree := x.tree, origin := .bin b, kernel := k, args := args, extent := (1, 1, 1),
              mclaim := (qAt x.quads 0).getLsbD 1, home := home, stride := (0#64, 0#64, 0#64), next := 0,
              regs := [], depth := x.depth, sib := x.sib, slots := x.slots, table := none, listed := true, dead := false }
          ((({ s with launches := s.launches ++ [l] }).modTree x.tree
            (fun t => { t with pend := t.pend - x.slots.length + 1 })).modBin c b
              (fun y => { y with slots := [], sib := none })).giveTable s.launches.length
        else (s.dropSet c b x).modTree x.tree (fun t => { t with failed := true })

/-- A set that fires: for how long it has been due, the number of its context, its bin, and the position of the context. -/
structure DueBin where
  late : Nat
  id : Nat
  bin : Nat
  ctx : Nat
  deriving DecidableEq, Repr

/-- Does one set enter dispatch before another: it was due earlier, or has the lower context number, then the lower bin (13 R310)? -/
def DueBin.before (x y : DueBin) : Bool :=
  decide (y.late < x.late) || (x.late == y.late && (decide (x.id < y.id) || (x.id == y.id && decide (x.bin < y.bin))))

/-- The sets whose timers have run out. -/
def State.dueBins (s : State) : List DueBin :=
  (List.range s.ctxs.length).flatMap (fun c => match s.ctxs[c]? with
    | some x => if s.ctxRuns c then
        (x.bins.filter (fun y => !y.2.slots.isEmpty && decide (y.2.due ≤ x.resClock))).map
          (fun y => ⟨x.resClock - y.2.due, x.id.toNat, y.1, c⟩)
      else []
    | none => [])

/-- A set fires that has been due for a while, after those that enter dispatch before it (13 R310). -/
def State.fireDue (s : State) (c b late : Nat) : State :=
  let me : DueBin := ⟨late, (s.ownerOf c).toNat, b, c⟩
  ((sortBy DueBin.before (s.dueBins.filter (fun y => y.before me))).foldl (fun t y =>
    t.chargingOther c y.ctx (fun u => u.fireBin y.ctx y.bin)) s).fireBin c b

/-- A set whose timer has expired fires (13 R315). -/
def State.binExpire (s : State) (c b : Nat) : State :=
  match s.binOf c b, s.ctxs[c]? with
  | some x, some y => if x.slots ≠ [] ∧ x.due ≤ y.resClock ∧ s.ctxRuns c then s.fireDue c b (y.resClock - x.due) else s
  | _, _ => s

/-- A record in a slot arrives at a bin (13 R315): after the expiry of a timer that has run out, it joins the next set. -/
def State.addRecord (s0 : State) (c b slot tree depth : Nat) (sib : Option SibRef) : State :=
  let s := s0.binExpire c b
  match s.binOf c b with
  | none => s
  | some x =>
    let s1 := if x.slots ≠ [] ∧ (x.tree ≠ tree ∨ sib.isSome ∨ x.sib.isSome) then s.fireDue c b 0 else s
    let clock := match s.ctxs[c]? with
      | some y => y.resClock
      | none => 0
    let s2 := (s1.modBin c b (fun y => { y with
      slots := y.slots ++ [slot], tree := tree
      depth := if y.slots = [] then depth else max y.depth depth
      sib := sib
      due := if y.slots = [] then clock + max 1 (256 * y.timer) else y.due })).modTree tree
        (fun t => { t with pend := t.pend + 1 })
    match s2.binOf c b with
    | some y => if y.coal ≤ y.slots.length || sib.isSome then s2.fireDue c b 0 else s2
    | none => s2

/-! ### Retirement (07 R192; 12 R303; 13 R316, R318) -/

/-- Has the group unfinished engine work? -/
def State.engineBusy (s : State) (g : Nat) : Bool :=
  s.copies.any (fun q => q.host.isNone && q.group == g && !q.st.ended) ||
  s.cmds.any (fun k => k.group == g && k.st != .done)

/-- Have all waves of the group retired? -/
def State.allRetired (s : State) (x : Group) : Bool :=
  x.waves.all (fun w => match s.waves[w]? with
    | some y => y.st == .retired
    | none => true)

/-- Did a kill end a wave of the group (07 R202)? -/
def State.anyKilled (s : State) (x : Group) : Bool := x.waves.any (fun w => (s.waves[w]?).any (·.killed))

/-- The group ends once its last wave has retired and its engine work is done (12 R303): its tag, records, tree and
sibling are told. -/
def State.tryEnd (s : State) (g : Nat) : State :=
  match s.groups[g]? with
  | none => s
  | some x =>
    if x.st = .retired ∨ !s.allRetired x ∨ s.engineBusy g then s
    else
      let s1 := { s.modGroup g (fun y => { y with st := .retired, saved := [] }) with wakeQueue := s.wakeQueue.filter (· != g) }
      let s2 := s1.modCtx x.ctx (fun c => { c with
        gids := (x.gid, x.gphase) :: c.gids.filter (fun p => p.1 != x.gid), agDirty := addMark c.agDirty (.free g) })
      let s3 := ((s2.freeSlots x.ctx x.slots).freeTable x.ctx x.table).modTree x.tree (fun t => { t with
        live := t.live - 1, done := t.done + 1
        ended := if t.abandoned || s.anyKilled x then t.ended else t.ended + 1 })
      match x.sib with
      | some r => s3.sibEnded x.ctx r
      | none => s3

/-- A wave is gone: what it holds is dropped (07 R192, R202). -/
def State.retireWave (s : State) (wid : Nat) : State :=
  match s.waves[wid]? with
  | none => s
  | some w =>
    ((s.leaveMasks w.core wid none).modWave wid (fun x => { x with
      st := .retired, outs := [], atoms := [], pend := [], own := [], due := [], held := none, pfx := none, handler := false,
      mirror := ⟨false, 0, 0, 0⟩, stopped := false })).tryEnd w.group

/-! ### Kills (07 R202; 12 R298; 13 R321, R328) -/

/-- The wave is at a boundary at which a kill takes effect. -/
def Wave.killable (w : Wave) : Bool :=
  match w.st with
  | .retired => false
  | .wait (.release _ _) => false
  | .wait (.acquire _ _) => false
  | _ => true

/-- A killed wave ends at its boundary (07 R202): atomics that are out are performed, everything else is discarded. -/
def State.killWave (s : State) (wid : Nat) : State := (s.drainAtoms wid).retireWave wid

/-- Cancel the requests of a group at their piece boundaries (03 R108). -/
def State.cancelCopies (s : State) (g : Nat) : State :=
  s.allCopies (fun q => if q.host.isNone && q.group == g && !q.st.ended then { q with st := .cancelled } else q)

/-- Commands of a group that is on no core are dropped with its saved state. -/
def State.dropCmds (s : State) (g : Nat) : State :=
  { s with cmds := s.cmds.map (fun (k : MCmd) => if k.group = g then { k with st := .done } else k) }

/-- Kill a group: its waves at their next boundaries; a group on no core loses its saved state at once (12 R298). -/
def State.killGroup (s : State) (g : Nat) : State :=
  match s.groups[g]? with
  | none => s
  | some x =>
    if x.st = .retired then s
    else
      let s1 := x.waves.foldl (fun t w => t.modWave w (fun y => { y with killed := y.killed || y.st != .retired })) s
      if x.st.holds then s1 else x.waves.foldl State.retireWave ((s1.cancelCopies g).dropCmds g)

/-- The groups left unplaced by a launch. -/
def Launch.unplaced (l : Launch) : Nat := l.extent.1 * l.extent.2.1 * l.extent.2.2 - l.next

/-- The unplaced groups of a launch are discarded (13 R321). -/
def State.discardLaunch (s : State) (k : Nat) : State :=
  match s.launches[k]? with
  | none => s
  | some l =>
    if l.listed then
      let s1 := (((s.modLaunch k (fun y => { y with listed := false })).freeSlots l.ctx l.slots).freeTable l.ctx l.table).modTree
        l.tree (fun t => { t with
          unplaced := if l.ofBin then t.unplaced else t.unplaced - l.unplaced
          pend := if l.ofBin then t.pend - 1 else t.pend })
      match l.sib with
      | some r => s1.sibEnded l.ctx r
      | none => s1
    else s

/-- SGCANCEL's arrival (13 R328). DESIGN CHOICE (log 85): the sibling's groups end first, then its launches, then its records in bins. -/
def State.sgCancel (s0 : State) (c : Nat) (r : SibRef) : State :=
  let s := s0.sgExpire c r
  match s.sgoOf c r with
  | none => s
  | some o =>
    let s1 := if o.final then s else
      (s.modSgo c r (fun p => { p with sibs := p.sibs.modify r.idx (fun b => { b with kind := .cancelled }) })).settleSgo c r
    let groups := (List.range s1.groups.length).filter (fun g => match s1.groups[g]? with
      | some x => x.ctx == c && x.sib == some r
      | none => false)
    let launches := (List.range s1.launches.length).filter (fun l => match s1.launches[l]? with
      | some x => x.ctx == c && x.sib == some r && x.listed
      | none => false)
    let bins : List (Nat × Bin) := match s1.ctxs[c]? with
      | some x => x.bins.filter (fun y => y.2.sib == some r && y.2.slots != [])
      | none => []
    let s2 := groups.foldl State.killGroup s1
    let s3 := launches.foldl (fun t l => t.modLaunch l (fun y => { y with dead := true })) s2
    bins.foldl (fun t y => t.dropSet c y.1 y.2) s3

/-- What the end of a set of trees has done (13 R321): groups killed, groups discarded, requests cancelled, records
discarded. -/
structure TreeEnd where
  killed : Nat
  discarded : Nat
  cancelled : Nat
  records : Nat
  deriving DecidableEq, Repr

/-- Steps 2 and 3 of R321 for the trees of a set. DESIGN CHOICE (log 85): the records of a bin's launch that is not placed are not among the
records discarded; its groups are among the groups. -/
def State.endTrees (s : State) (inSet : Nat → Bool) : TreeEnd × State :=
  let ls := (List.range s.launches.length).filter (fun k => match s.launches[k]? with
    | some l => inSet l.tree && l.listed
    | none => false)
  let gs := (List.range s.groups.length).filter (fun g => match s.groups[g]? with
    | some x => inSet x.tree && x.st != .retired
    | none => false)
  let bs := (List.range s.ctxs.length).flatMap (fun c => match s.ctxs[c]? with
    | some x => (x.bins.filter (fun y => inSet y.2.tree && y.2.slots != [])).map (fun y => (c, y))
    | none => [])
  let copies := s.copies.filter (fun q => q.host.isNone && gs.contains q.group && !q.st.ended)
  let rep : TreeEnd :=
    { killed := gs.length
      discarded := (ls.map (fun k => match s.launches[k]? with
        | some l => l.unplaced
        | none => 0)).foldl (· + ·) 0
      cancelled := copies.length
      records := (bs.map (fun b => b.2.2.slots.length)).foldl (· + ·) 0 }
  let s0 : State := { s with trees := s.trees.mapIdx (fun k t => if inSet k then { t with abandoned := true } else t) }
  let s1 := ls.foldl State.discardLaunch s0
  let s2 := bs.foldl (fun t b => t.dropSet b.1 b.2.1 b.2.2) s1
  (rep, gs.foldl State.killGroup s2)

/-! ### Parking (12 R296) -/

/-- A park is requested: no wave of the group issues again. -/
def State.requestPark (s : State) (g : Nat) : State :=
  match s.groups[g]? with
  | some x => if x.st = .running then s.modGroup g (fun y => { y with st := .parking }) else s
  | none => s

/-- Has every wave of the group reached its boundary? -/
def State.allStopped (s : State) (x : Group) : Bool :=
  x.waves.all (fun w => match s.waves[w]? with
    | some y => y.st == .retired || y.st == .unstarted || y.stopped
    | none => true)

/-- A group leaves its cores with its state saved, its requests and commands as they stand at their boundaries (03 R106, R107;
10 R264; 12 R296; 14 R356): its arrays' queues are empty then. A group that has not started keeps what it was to start from. -/
def State.leaveCores (s : State) (g : Nat) (st : GroupSt) : State :=
  match s.groups[g]? with
  | none => s
  | some x =>
    let s1 := x.waves.foldl (fun t w => match s.waves[w]? with
      | some y => t.leaveMasks y.core w none
      | none => t) s
    let s2 := if x.claim then
        x.cores.foldl (fun t k => t.modCore k (fun c => { c with
          arrays := c.arrays.map (fun (a : ArrayUnit) => { a with queue := [] }) })) s1
      else s1
    s2.modGroup g (fun y => { y with
      st := st, saved := if x.claim && x.started then s.getArrays x else x.saved })

/-- All waves of a PARKING group have stopped: it is PARKED, and PENDING at once when a wake has arrived (12 R296, R298). -/
def State.parkGroup (s : State) (g : Nat) : State :=
  match s.groups[g]? with
  | none => s
  | some x =>
    if x.st = .parking && s.allStopped x then
      let s1 := (s.leaveCores g .parked).modGroup g (fun y => { y with wake := false })
      if x.wake then s1.wakeGroup g else s1
    else s

end Sys2Proof.Machine
end

