-- ==== Sys2Proof/Machine/Front.lean ====
section
/-! DEFINITION. The front end's rings: reading and checking packets, completion records, graphs, the completion of launch
trees (13 R304-R312, R320; 02 R67; 03 R103). -/

namespace Sys2Proof.Machine

/-! ### Completion records (13 R308) -/

def stOk : Nat := 0
def stNofit : Nat := 1
def stGraphFail : Nat := 2
def stCopyFail : Nat := 3
def stPubFail : Nat := 4
def stAbandoned : Nat := 5
def stCkptFail : Nat := 6

/-- Packet `p` of ring `r`. -/
def State.packetOf (s : State) (r p : Nat) : Option (Ring × Packet) :=
  match s.rings[r]? with
  | some x => match x.pkts[p]? with
    | some y => some (x, y)
    | none => none
  | none => none

def State.modPacket (s : State) (r p : Nat) (f : Packet → Packet) : State :=
  s.modRing r (fun x => { x with pkts := x.pkts.modify p f })

/-- The translation that the front end keeps of an address (13 R306). -/
def State.keep (s : State) (c : Nat) (acc : Acc) (va : DWord) : Option Kept :=
  match s.agentXlat c acc va with
  | .error _ => none
  | .ok x =>
    let pb := match s.leafOf none acc c (s.pbGen c) (vaBits va) with
      | .ok e => if ptePb e then some (ptePbIdx e) else none
      | .error _ => none
    some { va := va, pa := x.pa, ms := x.ms, pb := pb, stale := false }

/-- The kept translations of a context that cover an address of those a test names are to be found again (02 R74; 13 R306). -/
def State.staleKept (s : State) (p : Nat → DWord → Bool) : State :=
  { s with rings := s.rings.map (fun (r : Ring) =>
      let mark (k : Option Kept) : Option Kept := k.map (fun y => { y with stale := y.stale || p r.ctx y.va })
      { r with pkts := r.pkts.map (fun x => if x.done then x else { x with cr := mark x.cr, found := mark x.found }) }) }

/-- A kept translation at an access: found again when an invalidation has covered it, and through a Publish Buffer by the current
generation (02 R73, R74; 13 R306). -/
def State.refind (s : State) (c : Nat) (acc : Acc) (k : Kept) : Option Kept :=
  if k.stale then s.keep c acc k.va
  else match k.pb with
    | some n => some { k with pa := s.pbBacking c n (s.pbGen c n) + (vaBits k.va - s.pbBase c n) }
    | none => some k

/-- A translation that is found again reads its tables (02 R72). -/
def State.keptLooks (s : State) (c : Nat) (acc : Acc) (k : Kept) : State := if k.stale then s.agentLooks c acc k.va 1 else s

/-- A 32-byte record that the front end writes at a kept address. DESIGN CHOICE (log 79): after an invalidation that leaves no
translation the record is not written. -/
def State.writeRecord (s : State) (c : Nat) (k : Kept) (qs : List Nat) : State :=
  match s.refind c .wr k with
  | some x => (s.keptLooks c .wr k).enterPhys none x.pa x.ms ((qs.flatMap (bytesOfNat 8)).map some) none
  | none => s.keptLooks c .wr k

/-- Lantern gives up the addresses of a packet (19 R408). -/
def State.dropFields (s : State) (r p : Nat) : State :=
  s.revoke (fun k => match k.obj with
    | .field a b _ => a == r && b == p
    | _ => false)

/-- A packet completes: its record is written, QDONE counts it (13 R304, R307, R308), and Lantern gives up its addresses (19 R408). -/
def State.completePacket (s : State) (r p status detail count : Nat) (addr : DWord) : State :=
  match s.packetOf r p with
  | none => s
  | some (x, y) =>
    if y.done then s
    else
      let s1 := match y.cr with
        | some k => s.viaCap 5 (.field r p 0) x.ctx 0 32 true (fun t => t.writeRecord x.ctx k
            [status + 2 ^ 16 * (detail % 2 ^ 16), count, addr.toNat, y.rpos.toNat + 2 ^ 32 * x.num])
        | none => s
      ((s1.modPacket r p (fun k => { k with done := true })).modRing r (fun k => { k with done := k.done + 1#64 })).dropFields r p

/-! ### Reading a ring (13 R304, R307, R309) -/

def errStraddle : Nat := 1
def errLength : Nat := 2
def errBadType : Nat := 3
def errBadField : Nat := 4
def errCap : Nat := 5
def errOverrun : Nat := 6
def errFetch : Nat := 7
def errXlate : Nat := 8

/-- STATE of QSTAT. -/
def RingSt.code : RingSt → Nat
  | .run => 0
  | .halted => 1
  | .destroying => 2
  | .free => 3

/-- The address of granule `g` of a ring. -/
def Ring.granule (r : Ring) (g : Nat) : Nat := r.base.toNat + 16 * (g % 2 ^ r.logsz)

/-- Can the front end read a granule? -/
def State.granuleOk (s : State) (pa : Nat) : Bool :=
  ((paKind pa).isHbm || paKind pa == .host) && !s.linePoisoned (pa / 128)

/-- The quadwords of the packet at QRPTR, `n` granules long; they do not wrap. -/
def State.packetQuads (s : State) (r : Ring) (n : Nat) : List DWord :=
  (List.range (2 * n)).map (fun k => s.mem.quad (r.granule r.rptr.toNat + 8 * k))

def pktType (q : List DWord) : Nat := bitsOf (qAt q 0) 0 8
def pktLen (q : List DWord) : Nat := bitsOf (qAt q 0) 8 8 + 1
def pktBarrier (q : List DWord) : Bool := (qAt q 0).getLsbD 16
def pktCren (q : List DWord) : Bool := (qAt q 0).getLsbD 17
def pktFlags (q : List DWord) : Nat := bitsOf (qAt q 0) 24 8

/-- The granules that R306 gives a type; PAD has any length. -/
def pktGranules (t : Nat) : Option Nat :=
  match t with
  | 1 => some 5 | 2 => some 2 | 3 => some 9 | 4 => some 3 | 5 => some 2 | 6 => some 2 | 7 => some 2 | _ => none

/-- An argument block address (12 R283). -/
def argsOk (a : DWord) : Bool := canonical a && decide (a.toNat % 8 = 0)

/-- Grid extents of a KERNEL packet. -/
def pktExtent (q : List DWord) : Nat × Nat × Nat := (bitsOf (qAt q 4) 0 32, bitsOf (qAt q 4) 32 32, bitsOf (qAt q 5) 0 32)

/-- The field rules of R306 and R309 on the body of a packet. -/
def bodyOk (q : List DWord) : Bool :=
  match pktType q with
  | 0 => pktFlags q = 0
  | 1 => pktFlags q = 0 && argsOk (qAt q 3) && decide (bitsOf (qAt q 2) 48 16 = 0) && decide (bitsOf (qAt q 5) 33 31 = 0) &&
    qAt q 9 == 0#64 && (pktExtent q).1 != 0 && (pktExtent q).2.1 != 0 && (pktExtent q).2.2 != 0
  | 2 => pktFlags q = 0 && decide (bitsOf (qAt q 2) 8 56 = 0) && qAt q 3 == 0#64
  | 3 =>
    let d := CopyDesc.of (q.drop 2)
    pktFlags q = 0 && d.form = 1 && d.ssp = 0 && d.dsp = 0 && !d.bar && !d.ring && !d.follow && d.nstage = 0 && d.arr = 0 &&
    d.baroff = 0 && d.extoff = 0
  | 4 => decide (pktFlags q < 8) && qAt q 5 == 0#64 &&
    decide ((qAt q 2).toNat % (if (pktFlags q) / 4 % 2 = 1 then 8 else 4) = 0)
  | 5 => decide (pktFlags q < 4) && decide ((qAt q 2).toNat % (if pktFlags q % 2 = 1 then 8 else 4) = 0)
  | 6 => pktFlags q = 0 && decide (bitsOf (qAt q 2) 8 56 = 0) && qAt q 3 == 0#64
  | 7 => pktFlags q = 0 && decide (bitsOf (qAt q 2) 1 63 = 0) && qAt q 3 == 0#64
  | _ => true

/-- BADFIELD (13 R309): reserved bits, length, fields, the completion address. -/
def State.fieldsOk (s : State) (c : Nat) (q : List DWord) : Bool :=
  decide (bitsOf (qAt q 0) 32 32 = 0) && decide (bitsOf (qAt q 0) 18 6 = 0) &&
  (match pktGranules (pktType q) with
  | some n => pktLen q = n
  | none => true) && bodyOk q &&
  (if pktCren q then decide ((qAt q 1).toNat % 32 = 0) && (match s.agentXlat c .wr (qAt q 1) with
    | .ok _ => true
    | .error _ => false)
  else qAt q 1 == 0#64)

/-- What Lantern must hold for a packet's KHANDLE, TABLE or BUF: the object, and the bytes of it that the field names (19 R408). -/
def State.packetCap (s : State) (c : Nat) (q : List DWord) : Option (CapObj × Nat × Nat) :=
  match pktType q with
  | 1 => (s.objectOf c (qAt q 2)).map (fun k => (.object k, 64 * bitsOf (qAt q 2) 0 16, 64))
  | 2 => some (.graph c (bitsOf (qAt q 2) 0 8) 0, 0, 32)
  | 6 => some (.pbTable c, 32 * bitsOf (qAt q 2) 0 8, 32)
  | _ => none

/-- CAP (13 R309): a handle, table or buffer outside what Lantern holds for the context. -/
def State.capOk (s : State) (c : Nat) (q : List DWord) : Bool :=
  let held : Bool := (s.packetCap c q).any (fun x => s.holds c x.1 x.2.1 x.2.2)
  match pktType q with
  | 1 => (s.kernelOf c (qAt q 2)).isSome && held
  | 2 => held
  | 6 => held
  | _ => true

/-- The translation of ADDR of WAIT_VALUE and SIGNAL packets (13 R306). -/
def State.addrKept (s : State) (c : Nat) (q : List DWord) : Option Kept :=
  s.keep c (if pktType q = 4 then .rd else .wr) (qAt q 2)

/-- What the front end finds at QRPTR of a ring: nothing to do yet, a queue fault, or a packet to dispatch. -/
inductive Look where
  | wait
  | fault (err : Nat)
  | go (quads : List DWord)
  deriving DecidableEq, Repr

/-- Have all dispatched packets of the ring completed? -/
def Ring.allDone (r : Ring) : Bool := r.pkts.all (·.done)

/-- Is a WAIT_VALUE of the ring still waiting? -/
def Ring.waiting (r : Ring) : Bool := r.pkts.any (fun p => !p.done && pktType p.quads == 4)

/-- May a core take a host copy: it is not fenced, has a free entry, and lies in the home quadrant of the destination, if that
has one (03 R103)? A destination in a Publish Buffer is its shadow (03 R97). -/
def State.copyCore (s : State) (c : Nat) (d : CopyDesc) (core : Nat) : Bool :=
  let home := match s.translate none c (fun n => s.pbGen c n + 1#32) .wr true d.dst with
    | .ok x => match paKind x.pa with
      | .hbm q => some q
      | .weightStore q => some q
      | _ => none
    | .error _ => none
  decide (core < 160) && !s.fenced core && decide (s.queueUsed core < 64) && (match home with
  | some q => decide (core / 40 = q)
  | none => true)

/-- The check of 03 R105 that a COPY packet fails at dispatch (03 R103). -/
def State.copyDetail (s : State) (c : Nat) (q : List DWord) : Option Nat :=
  let features := match s.ctxs[c]? with
    | some x => x.features
    | none => 0
  acceptDetail features 0 false true (q.drop 2) []

/-- Is a graph table of the context running (13 R312)? -/
def State.tableRuns (s : State) (c t : Nat) : Bool := s.runs.any (fun r => r.ctx == c && r.table == t && r.live)

/-- The conditions on dispatch of R307, R312, R319 and 02 R67, beyond the order of the ring. A COPY that passes its checks waits for
a core that can take it (03 R80, R103). -/
def State.mayDispatch (s : State) (r : Ring) (q : List DWord) : Bool :=
  (!pktBarrier q || r.allDone) && !r.waiting &&
  (match pktType q with
  | 1 => decide (s.openTrees r.ctx < 4096) && !s.sealing r.ctx
  | 2 => !s.tableRuns r.ctx (bitsOf (qAt q 2) 0 8) && !s.sealing r.ctx
  | 3 => !bodyOk q || (s.copyDetail r.ctx q).isSome || (List.range 160).any (s.copyCore r.ctx (CopyDesc.of (q.drop 2)))
  | _ => true)

/-- Look at the next packet of a ring, with the checks of R309 in their order. DESIGN CHOICE (log 85): those from BADFIELD on
are made once nothing holds the packet back. -/
def State.look (s : State) (r : Ring) : Look :=
  let size := 2 ^ r.logsz
  let have_ := (r.wptr - r.rptr).toNat
  if r.st ≠ .run ∨ !s.ctxRuns r.ctx ∨ s.frontStopped ∨ have_ = 0 then .wait
  else if !s.granuleOk (r.granule r.rptr.toNat) then .fault errFetch
  else if size < have_ then .fault errOverrun
  else
    let h := s.packetQuads r 1
    if size < pktLen h then .fault errLength
    else if size < r.rptr.toNat % size + pktLen h then .fault errStraddle
    else if have_ < pktLen h then .wait
    else if 7 < pktType h then .fault errBadType
    else if !(List.range (pktLen h)).all (fun k => s.granuleOk (r.granule (r.rptr.toNat + k))) then .fault errFetch
    else
      let q := s.packetQuads r (pktLen h)
      if !s.mayDispatch r q then .wait
      else if !s.fieldsOk r.ctx q then .fault errBadField
      else if !s.capOk r.ctx q then .fault errCap
      else if (pktType q = 4 ∨ pktType q = 5) ∧ (s.addrKept r.ctx q).isNone then .fault errXlate
      else .go q

/-! ### Which ring is served (13 R307) -/

/-- Does a ring have a packet to dispatch, or one that faults? -/
def State.ready? (s : State) (k : Nat) : Bool :=
  match s.rings[k]? with
  | some r => s.look r != .wait
  | none => false

/-- The first number after `last` in a circle of `n` for which something holds. -/
def circleFrom (n last : Nat) (p : Nat → Bool) : Option Nat :=
  ((List.range n).map (fun k => (last + 1 + k) % n)).find? p

/-- The context in a queue-window slot. -/
def State.ctxInSlot (s : State) (slot : Nat) : Option Nat := s.ctxs.findIdx? (fun c => c.slot == some slot && !c.destroyed)

/-- The position of a ring of a context by its number. -/
def State.ringAt (s : State) (c num : Nat) : Option Nat :=
  s.rings.findIdx? (fun r => r.ctx == c && r.num == num && r.st != .free)

/-- The ring of a context whose registers the block of a number shows: the one made last, destroyed or not. -/
def State.lastRingAt (s : State) (c num : Nat) : Option Nat :=
  ((List.range s.rings.length).filter (fun k => (s.rings[k]?).any (fun r => r.ctx == c && r.num == num))).getLast?

/-- A write of QWPTR (13 R304): the window slot and the ring number together are the index of the register block. -/
def State.doorbell (s : State) (block : Nat) (v : DWord) : State :=
  match (s.ctxInSlot (block / 1024)).bind (fun c => s.lastRingAt c (block % 1024)) with
  | some k => s.modRing k (fun r => { r with wptr := v.extractLsb' 0 32 })
  | none => s

/-- The ring that the front end serves next. -/
def State.nextRing (s : State) : Option Nat :=
  match circleFrom 240 s.lastSlot (fun slot => match s.ctxInSlot slot with
    | some c => (List.range s.rings.length).any (fun k => (match s.rings[k]? with
      | some r => r.ctx == c
      | none => false) && s.ready? k)
    | none => false) with
  | none => none
  | some slot => match s.ctxInSlot slot with
    | none => none
    | some c =>
      let last := match s.ctxs[c]? with
        | some x => x.lastRing
        | none => 0
      match circleFrom 1024 last (fun n => match s.ringAt c n with
        | some k => s.ready? k
        | none => false) with
      | some n => s.ringAt c n
      | none => none

/-- Note which context and ring were served. -/
def State.served (s : State) (r : Ring) : State :=
  let slot := match s.ctxs[r.ctx]? with
    | some c => c.slot.getD s.lastSlot
    | none => s.lastSlot
  ({ s with lastSlot := slot }).modCtx r.ctx (fun c => { c with lastRing := r.num })

/-- The translations of a packet's CRADDR, and of its ADDR (13 R306, R309). -/
def State.fieldLooks (s : State) (c : Nat) (q : List DWord) (addr : Bool) : State :=
  let s1 := if pktCren q then s.agentLooks c .wr (qAt q 1) 32 else s
  if addr && pktType q == 4 then s1.agentLooks c .rd (qAt q 2) 1
  else if addr && pktType q == 5 then s1.agentLooks c .wr (qAt q 2) 1
  else s1

/-- The translations that the checks of a packet which ends in a queue fault have made. -/
def State.faultLooks (s : State) (r : Ring) (err : Nat) : State :=
  let q := s.packetQuads r (pktLen (s.packetQuads r 1))
  if err = errXlate then s.fieldLooks r.ctx q true
  else if err = errBadField ∨ err = errCap then s.fieldLooks r.ctx q false
  else s

/-- A queue fault (13 R309): the granule at QRPTR has been read, the ring halts and the host is told. -/
def State.haltRing (s : State) (k err : Nat) : State :=
  match s.rings[k]? with
  | none => s
  | some r =>
    let at_ := BitVec.ofNat 64 (r.granule r.rptr.toNat)
    let id := match s.ctxs[r.ctx]? with
      | some c => c.id
      | none => noContext
    (((s.faultLooks r err).homeRange (r.granule r.rptr.toNat) 16 false).modRing k (fun x => { x with
      st := .halted, err := BitVec.ofNat 8 err, errAddr := at_ })).report errQueue err id at_ r.num 0

/-- Lantern holds the CRADDR and the ADDR of packet `p` of ring `k`, until it completes (19 R408). -/
def State.holdFields (s : State) (k p : Nat) (own : BitVec 32) (q : List DWord) : State :=
  let s1 := if pktCren q then s.grant (.field k p 0) (qAt q 1) 32 false true own else s
  if pktType q = 4 then s1.grant (.field k p 1) (qAt q 2) 8 true false own
  else if pktType q = 5 then s1.grant (.field k p 1) (qAt q 2) 8 true true own
  else s1

/-- A packet that is dispatched: the entry of its table is loaded, and its addresses are held (19 R408). -/
def State.holdPacket (s : State) (r : Ring) (k : Nat) (q : List DWord) : State :=
  (((s.packetCap r.ctx q).bind (fun x => s.useCap 1 x.1)).getD s).holdFields k r.pkts.length (s.ownerOf r.ctx) q

/-- A packet is dispatched: it has been read at the homes of its lines (02 R45), it enters the ring's table and QRPTR moves past it
(13 R304); the front end's step has been done (14 R362). -/
def State.takePacket (s0 : State) (k : Nat) (r : Ring) (q : List DWord) (ref : Nat) : State :=
  let s := ((s0.holdPacket r k q).fieldLooks r.ctx q true).homeRange (r.granule r.rptr.toNat) (16 * pktLen q) false
  let pkt : Packet :=
    { rpos := r.rptr, addr := BitVec.ofNat 64 (r.granule r.rptr.toNat), quads := q
      cr := if pktCren q then s.keep r.ctx .wr (qAt q 1) else none
      found := if pktType q = 4 ∨ pktType q = 5 then s.addrKept r.ctx q else none, ref := ref, done := false }
  ((s.modRing k (fun x => { x with
    pkts := x.pkts ++ [pkt], rptr := x.rptr + BitVec.ofNat 32 (pktLen q) })).served r).workDone .frontEnd none

/-- Lantern reads granules of a ring at QRPTR (19 R408). -/
def State.viaRing (s : State) (k : Nat) (r : Ring) (n : Nat) (f : State → State) : State :=
  s.viaCap 0 (.ring k) r.ctx (16 * (r.rptr.toNat % 2 ^ r.logsz)) (16 * n) false f

/-- Serve ring `k` of context `c` if it is the ring to be served: a queue fault halts it, and a packet of the type is handed
to `act` with its place in the ring's table. DESIGN CHOICE (log 83): a ring that meets a queue fault has had its turn, and counts as
served last, as one with a packet to dispatch does. -/
def State.serve (s : State) (c k type : Nat) (act : State → Ring → List DWord → Nat → State) : State :=
  match s.rings[k]? with
  | none => s
  | some r =>
    if r.ctx ≠ c ∨ s.nextRing ≠ some k then s
    else match s.look r with
      | .wait => s
      | .fault e => s.viaRing k r 1 (fun t => (t.haltRing k e).served r)
      | .go q => if pktType q = type then s.viaRing k r (pktLen q) (fun t => act t r q r.pkts.length) else s

/-! ### WAIT_VALUE and SIGNAL (13 R306) -/

/-- Bytes that a WAIT_VALUE reads, and that a SIGNAL writes. -/
def waitBytes (q : List DWord) : Nat := if pktFlags q / 4 % 2 = 1 then 8 else 4
def signalBytes (q : List DWord) : Nat := if pktFlags q % 2 = 1 then 8 else 4

/-- Does the condition of a WAIT_VALUE hold on the bytes at a physical address? -/
def State.waitHolds (s : State) (q : List DWord) (pa : Nat) : Bool :=
  let m := BitVec.ofNat 64 (natOfBytes ((List.range (waitBytes q)).map (fun k => s.agentByte (pa + k)))) &&& qAt q 4
  let v := qAt q 3
  match pktFlags q % 4 with
  | 0 => m == v
  | 1 => m != v
  | 2 => decide (v.toNat ≤ m.toNat)
  | _ => decide (m.toNat < v.toNat)

/-- Does a SIGNAL add? -/
def signalAdds (q : List DWord) : Bool := pktFlags q / 2 % 2 == 1

/-- The write of a SIGNAL at its place, or its atomic add, which reads there first (02 R61). -/
def State.signalWrite (s : State) (q : List DWord) (x : Kept) : State :=
  let n := signalBytes q
  let v := (qAt q 3).toNat
  let s1 := if signalAdds q then s.homeAccess x.pa x.ms false n else s
  s1.enterPhys none x.pa x.ms ((bytesOfNat n (if signalAdds q then s.mem.num x.pa n + v else v)).map some) none

/-- A WAIT_VALUE or SIGNAL whose address no longer translates: the ring halts with XLATE, and the packet is abandoned (13 R306;
log 79). -/
def State.abandonPacket (s : State) (r p : Nat) : State :=
  match s.packetOf r p with
  | none => s
  | some (ring, k) =>
    let id := match s.ctxs[ring.ctx]? with
      | some x => x.id
      | none => noContext
    ((s.modRing r (fun x => { x with st := .halted, err := BitVec.ofNat 8 errXlate, errAddr := k.addr })).report errQueue errXlate
      id k.addr ring.num 0).completePacket r p stAbandoned 0 0 0#64

/-- What a WAIT_VALUE or SIGNAL packet does at its address: the translation that it keeps is found again if need be, and Lantern acts
through its entry (13 R306; 19 R408). -/
def State.atField (s : State) (r p n : Nat) (acc : Acc) (ring : Ring) (k : Packet) (f : State → Kept → State) : State :=
  let s1 := k.found.elim s (s.keptLooks ring.ctx acc)
  match k.found.bind (s.refind ring.ctx acc) with
  | none => s1.abandonPacket r p
  | some x => s1.viaCap 5 (.field r p 1) ring.ctx 0 n (acc == .wr) (fun t => f t x)

/-- A waiting WAIT_VALUE packet is read once (13 R306), at the home of its line (02 R59, R60). -/
def State.rereadPacket (s : State) (r p : Nat) : State :=
  match s.packetOf r p with
  | none => s
  | some (ring, k) =>
    if k.done || pktType k.quads != 4 || !s.ctxRuns ring.ctx || s.frontStopped then s
    else s.atField r p (waitBytes k.quads) .rd ring k (fun t x =>
      let s1 := (t.modPacket r p (fun y => { y with found := some x })).homeAccess x.pa x.ms false (waitBytes k.quads)
      if s1.linePoisoned (x.pa / 128) then s1.unitLost ring.ctx (s.lineClass (x.pa / 128)) (x.va &&& ~~~0x7F#64)
      else if s1.waitHolds k.quads x.pa then s1.completePacket r p stOk 0 0 0#64 else s1)

/-- The open packets of a type, as (ring, packet). -/
def State.openOf (s : State) (type : Nat) : List (Nat × Nat) :=
  (List.range s.rings.length).flatMap (fun r => match s.rings[r]? with
    | some x => ((List.range x.pkts.length).filter (fun p => match x.pkts[p]? with
        | some k => !k.done && pktType k.quads == type
        | none => false)).map (fun p => (r, p))
    | none => [])

def State.rereadAll (s : State) : State := (s.openOf 4).foldl (fun t k => t.rereadPacket k.1 k.2) s

/-- Have all packets of the ring before an open SIGNAL completed (13 R306)? -/
def State.signalDue (s : State) (r p : Nat) : Bool :=
  match s.packetOf r p with
  | none => false
  | some (ring, k) => !k.done && pktType k.quads == 5 && s.ctxRuns ring.ctx && !s.frontStopped && (ring.pkts.take p).all (·.done)

/-- A SIGNAL whose turn it is writes or adds, completes, and the WAIT_VALUE packets are read again (13 R306). -/
def State.performSignal (s : State) (r p : Nat) : State :=
  match s.packetOf r p with
  | none => s
  | some (ring, k) =>
    if !s.signalDue r p then s
    else s.atField r p (signalBytes k.quads) .wr ring k (fun t x =>
      if signalAdds k.quads && t.linePoisoned (x.pa / 128) then
        t.unitLost ring.ctx (s.lineClass (x.pa / 128)) (x.va &&& ~~~0x7F#64)
      else ((t.signalWrite k.quads x).completePacket r p stOk 0 0 0#64).rereadAll)

/-! ### Graphs (13 R311, R312) -/

/-- The header of a registered table. -/
def State.graphHeader (s : State) (c t : Nat) : Nat :=
  match s.ctxs[c]? with
  | some x => ((x.graphs.find? (fun g => g.1 == t)).map (fun g => g.2.toNat)).getD 0
  | none => 0

/-- Quadword `k` of node `j` of a table header at `h`, its number of nodes, a successor. -/
def graphNodes (m : Mem) (h : Nat) : Nat := bitsOf (m.quad h) 0 17
def nodeQuad (m : Mem) (h j k : Nat) : DWord := m.quad ((m.quad (h + 8)).toNat + 64 * j + 8 * k)
def nodePreds (m : Mem) (h j : Nat) : Nat := bitsOf (nodeQuad m h j 3) 33 17
def succBase (m : Mem) (h : Nat) : Nat := (m.quad (h + 16)).toNat
def nodeSuccs (m : Mem) (h j : Nat) : List Nat :=
  let off := bitsOf (nodeQuad m h j 4) 0 32
  (List.range (bitsOf (nodeQuad m h j 4) 32 17)).map (fun k => m.num (succBase m h + 2 * (off + k)) 2)

/-- The bytes of a table that the front end reads when a graph begins: the header and every node (13 R312). -/
def graphRanges (m : Mem) (h : Nat) : List (Nat × Nat) := [(h, 32), ((m.quad (h + 8)).toNat, 64 * graphNodes m h)]

/-- The bytes that it reads of a node: the node itself as it is launched, and its successors as it ends. -/
def nodeRange (m : Mem) (h j : Nat) : Nat × Nat := ((m.quad (h + 8)).toNat + 64 * j, 64)
def succRange (m : Mem) (h j : Nat) : Nat × Nat :=
  (succBase m h + 2 * bitsOf (nodeQuad m h j 4) 0 32, 2 * bitsOf (nodeQuad m h j 4) 32 17)

/-- The front end reads bytes of a table at the homes of their lines (02 R45). -/
def State.tableReads (s : State) (l : List (Nat × Nat)) : State := l.foldl (fun t x => t.homeRange x.1 x.2 false) s

/-- A poisoned line among bytes of a table (02 R49). -/
def State.tablePoison (s : State) (l : List (Nat × Nat)) : Option Nat :=
  if s.poison.isEmpty then none else (l.flatMap (fun x => linesOf x.1 x.2)).find? s.linePoisoned

/-- The poisoned line that a graph meets as it begins. -/
def State.graphPoison (s : State) (c t : Nat) : Option Nat := s.tablePoison (graphRanges s.mem (s.graphHeader c t))

/-- Bytes of a table are read as a graph runs; lost data are met by the context. -/
def State.readTable (s : State) (c : Nat) (l : List (Nat × Nat)) : State :=
  match s.tablePoison l with
  | some k => (s.tableReads l).unitLost c (s.lineClass k) 0#64
  | none => s.tableReads l

/-- A node of a run has failed: no further node becomes ready, and the lowest failing node is kept; nodes that are ready already are
launched (13 R312). -/
def State.failRun (s : State) (run j : Nat) : State :=
  s.modRun run (fun x => { x with failed := some ((x.failed.map (min j)).getD j) })

/-- A node becomes ready: it is launched, or it waits for a free tree, or for the end of a COPY that fills the weight store (02 R67;
13 R312, R319). A node that fits nowhere has failed (12 R287), and so has one that Lantern's entry does not hold (19 R408; log 84). -/
def State.startNode (s0 : State) (run j : Nat) : State :=
  match s0.runs[run]? with
  | none => s0
  | some r =>
    if 4096 ≤ s0.openTrees r.ctx || s0.sealing r.ctx then s0.modRun run (fun x => { x with waiting := x.waiting ++ [j] })
    else
      let h := s0.graphHeader r.ctx r.table
      let cap := s0.capFor 3 (.graph r.ctx r.table 1) r.ctx (64 * j) 64 false
      let s := (cap.map (fun t => t.readTable r.ctx [nodeRange t.mem h j])).getD s0.frontError
      let q (k : Nat) : DWord := nodeQuad s.mem h j k
      let e := (bitsOf (q 2) 0 32, bitsOf (q 2) 32 32, bitsOf (q 3) 0 32)
      let s1 := s.modRun run (fun x => { x with running := x.running + 1 })
      let s2 := match cap.bind (fun _ => s.kernelOf r.ctx (q 0)) with
        | some k => s1.launch r.ctx (.node run j) k (q 1) e ((q 3).getLsbD 32) (q 5, q 6, q 7)
        | none => s1.openTree
          { ctx := r.ctx, origin := .node run j, live := 0, pend := 0, infl := 0, unplaced := 0, done := 0, ended := 0,
            failed := true, abandoned := false, isOpen := true }
      if s2.trees.getLast?.any (·.failed) then s2.failRun run j else s2

/-- Start the nodes of a list whose counters are zero, in ascending index. -/
def State.startNodes (s : State) (run : Nat) (l : List Nat) : State := l.foldl (fun t j => t.startNode run j) s

/-- Begin a graph (13 R312). -/
def State.beginGraph (s : State) (c t ring pkt : Nat) : State :=
  let h := s.graphHeader c t
  let n := graphNodes s.mem h
  let counts := (List.range n).map (nodePreds s.mem h)
  let run := s.runs.length
  let r : GraphRun :=
    { ctx := c, table := t, ring := ring, pkt := pkt, counts := counts, waiting := [], running := 0, retired := 0, ended := 0,
      failed := none, live := true }
  (({ s with runs := s.runs ++ [r] } : State).tableReads (graphRanges s.mem h)).startNodes run
    ((List.range n).filter (fun j => counts.getD j 0 == 0))

/-- The packet of a graph completes once nothing of it runs and nothing more becomes ready (13 R312). -/
def State.settleRun (s : State) (run status : Nat) : State :=
  match s.runs[run]? with
  | none => s
  | some r =>
    if r.live && r.running == 0 && (r.waiting.isEmpty || status == stAbandoned) then
      let s1 := s.modRun run (fun x => { x with live := false, waiting := [] })
      if status = stAbandoned then s1.completePacket r.ring r.pkt status 0 r.ended 0#64
      else match r.failed with
        | some j => s1.completePacket r.ring r.pkt stGraphFail j r.retired 0#64
        | none => s1.completePacket r.ring r.pkt status 0 r.retired 0#64
    else s

/-- The state with a register loaded for the successors of a node, where Lantern's entry holds them (19 R408). -/
def State.succCap (s : State) (r : GraphRun) (h j : Nat) : Option State :=
  let x := succRange s.mem h j
  if x.2 = 0 then some s else s.capFor 3 (.graph r.ctx r.table 2) r.ctx (x.1 - succBase s.mem h) x.2 false

/-- A node has completed (13 R312): its successors' counters fall, and nodes at zero become ready. A run whose successors Lantern's entry
does not hold has failed at the node (19 R408; log 84). -/
def State.nodeDone (s0 : State) (run j done ended : Nat) (failed0 abandoned : Bool) : State :=
  match s0.runs[run]? with
  | none => s0
  | some r =>
    let h := s0.graphHeader r.ctx r.table
    let ask : Bool := !(failed0 || abandoned || r.failed.isSome)
    let cap := if ask then s0.succCap r h j else some s0
    let s := cap.getD s0.frontError
    let failed := failed0 || cap.isNone
    let read := ask && cap.isSome
    let succs := if read then nodeSuccs s.mem h j else []
    let counts := succs.foldl (fun l k => l.modify k (· - 1)) r.counts
    let now := (succs.eraseDups).filter (fun k => counts.getD k 0 == 0 && r.counts.getD k 0 != 0)
    let s1 := (if read then s.readTable r.ctx [succRange s.mem h j] else s).modRun run (fun x => { x with
      counts := counts, running := x.running - 1, retired := x.retired + done, ended := x.ended + ended
      waiting := if abandoned then [] else x.waiting })
    ((if failed then s1.failRun run j else s1).startNodes run (sortBy (fun a b => decide (a < b)) now)).settleRun run (if abandoned then stAbandoned else stOk)

/-- The nodes of a context that wait to be launched, as (table, run, node), in the order of R310. -/
def State.waitingNodes (s : State) (c : Nat) : List (Nat × Nat × Nat) :=
  let l := (List.range s.runs.length).flatMap (fun k => match s.runs[k]? with
    | some r => if r.ctx = c && r.live then r.waiting.map (fun j => (r.table, k, j)) else []
    | none => [])
  sortBy (fun a b => decide (a.1 < b.1) || (a.1 == b.1 && decide (a.2.2 < b.2.2))) l

/-- Nodes that wait to be launched try again, in the order of R310 (02 R67; 13 R319). -/
def State.retryNodes (s : State) (c : Nat) : State :=
  (s.waitingNodes c).foldl (fun t y =>
    (t.modRun y.2.1 (fun x => { x with waiting := x.waiting.filter (· != y.2.2) })).startNode y.2.1 y.2.2) s

/-- A quiescent tree closes, and its packet or node completes (13 R318-R320; 14 R339). -/
def State.closeTree (s : State) (t : Nat) : State :=
  match s.trees[t]? with
  | none => s
  | some x =>
    if x.isOpen && x.quiet then
      let s1 := s.modTree t (fun y => { y with isOpen := false })
      let status := if x.abandoned then stAbandoned else if x.failed then stNofit else stOk
      let s2 := match x.origin with
        | .packet r p => s1.completePacket r p status 0 (if x.abandoned then x.ended else x.done) 0#64
        | .node run j => s1.nodeDone run j x.done x.ended (x.failed && !x.abandoned) x.abandoned
        | .bin _ => s1
      s2.retryNodes x.ctx
    else s

end Sys2Proof.Machine
end

