-- ==== Sys2Proof/Machine/Records.lean ====
section
/-! DEFINITION. Afterglow's records: which item is which record, its header, its payload bytes, what it counts, and the digests of
COMMIT records (14 R350-R355; 17 R386; log 12). -/

namespace Sys2Proof.Machine

/-! ### The allocation list (14 R343) -/

def Ctx.extents (c : Ctx) : Nat := (c.act.allocN.extractLsb' 0 16).toNat
def extBase (m : Mem) (c : Ctx) (k : Nat) : Nat := (m.quad (c.act.allocBase.toNat + 32 * k)).toNat
def extSize (m : Mem) (c : Ctx) (k : Nat) : Nat := (m.quad (c.act.allocBase.toNat + 32 * k + 16)).toNat

/-- WS of an extent. -/
def extWs (m : Mem) (c : Ctx) (k : Nat) : Bool := (m.quad (c.act.allocBase.toNat + 32 * k + 24)).getLsbD 0

/-! ### Codes and parts of an image -/

/-- The entry of a part of an image at a position. -/
def partAt {α : Type} (l : List (Nat × α)) (k : Nat) : Option α := (l.find? (fun e => e.1 == k)).map (·.2)

/-- Codes of group states, and of the waits of waves, as records hold them; the spec gives none (log 12). -/
def GroupSt.code : GroupSt → Nat
  | .pending => 0 | .starting => 1 | .running => 2 | .parking => 3 | .parked => 4 | .saving => 5 | .saved => 6 | .faulted => 7
  | .retired => 8

def WaveSt.code : WaveSt → Nat
  | .unstarted => 0 | .ready => 1 | .wait (.publ _ _) => 2 | .wait _ => 3 | .blocked _ _ => 4 | .halted => 5 | .retired => 6

/-- The code of a copy request's state (03 R106). -/
def CopySt.code : CopySt → Nat
  | .reserved => 0 | .queued => 0 | .ringwait => 1 | .pubhold => 2 | .running => 3 | .followwait => 4 | .done => 5 | .failed => 6
  | .cancelled => 7

/-- The progress record of a copy request (03 R106). -/
def CopyReq.progress (q : CopyReq) (wave : Nat) : List DWord :=
  [BitVec.ofNat 64 (q.low % 2 ^ 40 + 2 ^ 40 * q.st.code),
   BitVec.ofNat 64 (q.gent.toNat + 2 ^ 32 * (q.pbidx % 256) + (if q.pbv then 2 ^ 40 else 0)),
   BitVec.ofNat 64 (q.counted % 2 ^ 32 + 2 ^ 32 * (wave % 2 ^ 16)), 0#64]

/-! ### What records hold (14 R351) -/

/-- Pending 8-byte pieces of a wave's stores. -/
def Wave.pendPieces (w : Wave) : Nat := (w.pend.map (fun p => (p.bytes.length + 7) / 8)).foldl (· + ·) 0

/-- The address, byte mask and data of each 8 bytes of a pending store. -/
def PStore.words (p : PStore) : List DWord :=
  (List.range ((p.bytes.length + 7) / 8)).flatMap (fun k =>
    let bs := (p.bytes.drop (8 * k)).take 8
    [p.va + BitVec.ofNat 64 (8 * k),
     BitVec.ofNat 64 ((bs.zipIdx.map (fun (x : Option (BitVec 8) × Nat) => if x.1.isSome then 2 ^ x.2 else 0)).foldl (· + ·) 0),
     BitVec.ofNat 64 (natOfBytes (bs.map (fun b => b.getD 0#8)))])

/-- The state of a wave as a record holds it: its code, and of a PUBL that waits for its step the buffer and G0 (09 R247; 14 R351). -/
def WaveSt.word (x : WaveSt) : DWord :=
  match x with
  | .wait (.publ n g0) => BitVec.ofNat 64 (x.code + 2 ^ 8 * n + 2 ^ 32 * g0.toNat)
  | _ => BitVec.ofNat 64 x.code

/-- The quadwords Q0 and Q1 of a Mirror progress record (11 R278). -/
def Mirror.quads (m : Mirror) : List DWord :=
  [BitVec.ofNat 64 (m.next % 2 ^ 13 + 2 ^ 16 * (m.bestD % 2 ^ 14) + (if m.valid then 2 ^ 63 else 0)), BitVec.ofNat 64 m.bestI]

/-- What a WAVE record holds. -/
def Wave.words (w : Wave) : List DWord :=
  let b (x : Bool) : DWord := if x then 1#64 else 0#64
  [w.pc, w.st.word, b w.handler] ++ w.sregs.drop 1 ++ (w.masks.take 7).map (·.setWidth 64) ++
  [w.hvtie, w.fpflags.setWidth 64, b w.snapCur, b w.snapOvf, w.acqCnt.setWidth 64, w.relCnt.setWidth 64] ++ w.frame.quads ++
  w.mirror.quads ++
  w.adopted.map (·.setWidth 64) ++ w.pend.flatMap PStore.words

/-- What a GROUP record holds. -/
def Group.words (g : Group) : List DWord :=
  let n (k : Nat) : DWord := BitVec.ofNat 64 k
  [n g.st.code, n g.gphase, n g.spanQ, n g.cores.length] ++ g.kernel.roles.map (fun (r : Role) => n r.waves) ++
  (match g.sib with
    | some r => [1#64, r.word]
    | none => [0#64]) ++ [if g.claim then 1#64 else 0#64]

/-- What an SGO record holds (13 R332): TIMEOUT, and what remains of a timeout that runs at a clock of the context. -/
def Sgo.words (o : Sgo) (clock : Nat) : List DWord :=
  let n (k : Nat) : DWord := BitVec.ofNat 64 k
  let kind (b : Sib) : Nat := match b.kind with
    | .waiting => 0 | .reported => 1 | .nonfin => 2 | .cancelled => 3 | .timedout => 4
  [n o.num, n o.gen, o.eps.setWidth 64, n o.timeout, n ((o.due.map (· - clock)).getD 0),
    n ((if o.final then 1 else 0) + (if o.expired then 2 else 0) + (if o.due.isSome then 4 else 0))] ++
  o.sibs.flatMap (fun (b : Sib) => [n (kind b + (if b.degenerate then 2 ^ 8 else 0) + (if b.gone then 2 ^ 9 else 0)),
    b.reward.setWidth 64, b.adv.setWidth 64])

/-- What a FRONT record holds. -/
def Image.frontWords (i : Image) : List DWord :=
  let n (k : Nat) : DWord := BitVec.ofNat 64 k
  i.rings.flatMap (fun (r : Nat × Ring) => [n r.2.num, r.2.wptr.setWidth 64, r.2.rptr.setWidth 64, r.2.done,
    n (r.2.st.code + 2 ^ 8 * r.2.err.toNat), r.2.errAddr]) ++
  i.bins.flatMap (fun (b : Nat × Bin) => n b.1 :: n (b.2.due - i.resClock) :: b.2.quads ++ b.2.slots.map n) ++
  i.trees.flatMap (fun (t : Nat × Tree) => [n t.2.live, n t.2.pend, n t.2.infl, n t.2.unplaced, n t.2.done]) ++
  i.runs.flatMap (fun (r : Nat × GraphRun) => n r.2.table :: r.2.counts.map n) ++ i.pbGens.map (·.setWidth 64) ++
  (i.groups.filter (fun (g : Nat × Group) => g.2.st == .parked)).map (fun g => n (g.1 + if g.2.wake then 2 ^ 32 else 0))

/-- The bytes of a line of a wave's vector or hyper block, by mark, with its side-band (04 R114; log 18). -/
def Wave.poolLine (w : Wave) (line : Nat) : List (BitVec 8) × Side :=
  if line < 0x1000 then match w.vregs[line]? with
    | some v => (bytesOfLine v.data, v.side)
    | none => (List.replicate 128 0#8, Side.none)
  else
    let off := 128 * (line - 0x1000)
    let h := off - 8192 * w.numB
    (if off < 8192 * w.numB then bytesOfNat 128 ((w.bas.getD (off / 8192) 0#65536).toNat / 2 ^ (8 * (off % 8192)))
     else bytesOfNat 128 ((w.hvs.getD (h / 1024) 0#8192).toNat / 2 ^ (8 * (h % 1024))), Side.none)

/-- The bytes of a line of a group block: the scratchpad from its start, the group registers at its end (04 R114). -/
def Group.poolLine (g : Group) (line : Nat) : List (BitVec 8) × Side :=
  let regs := 32 * g.blockGranules - 16
  if regs ≤ line then ((List.range 16).flatMap (fun k => bytesOfNat 8 (g.gregs.getD (16 * (line - regs) + k) 0#64).toNat), Side.none)
  else (g.scratch.read (128 * line) 128, g.scratch.side line)

/-- A line with its side-band and format code. -/
def lineRecord (x : List (BitVec 8) × Side) : List (BitVec 8) :=
  x.1 ++ bytesOfNat 16 x.2.band.toNat ++ [BitVec.ofNat 8 ((x.2.fmt.map BitVec.toNat).getD 0)]

/-- Words as bytes. -/
def wordBytes (l : List DWord) : List (BitVec 8) := l.flatMap (fun (x : DWord) => bytesOfNat 8 x.toNat)

/-- The payload of a record whose layout the spec does not give: `n` bytes, a free value of the kind and of what it holds. -/
def openBytes (kind n : Nat) (ws : List DWord) : List (BitVec 8) := (List.range n).map (Config.recordByte kind ws)

/-- The array of a span member in what a group keeps of its arrays. -/
def Group.savedArray (g : Group) (member a : Nat) : ArrayUnit := (g.saved.getD member []).getD a ArrayUnit.zero

/-! ### Records (14 R350, R351) -/

/-- KIND (14 R351). -/
def State.recordKind (s : State) (x : Ctx) : AgItem → Nat
  | .waveState _ => 1 | .groupState _ => 2 | .wavePool _ _ => 3 | .groupPool _ _ => 3 | .tile _ _ _ _ => 4 | .wbuf _ _ _ _ => 5
  | .granule e _ => if extWs s.mem x e then 7 else 6
  | .copyRec _ => 8 | .cmdRec _ => 9 | .sgo _ => 10 | .front => 11 | .commit _ => 12 | .free _ => 13

/-- The group that owns an item, if one does. -/
def AgItem.owner (s : State) : AgItem → Option Nat
  | .wavePool w _ => (s.waves[w]?).map (·.group)
  | .waveState w => (s.waves[w]?).map (·.group)
  | .groupPool g _ => some g
  | .tile g _ _ _ => some g
  | .wbuf g _ _ _ => some g
  | .groupState g => some g
  | .free g => some g
  | .copyRec q => (s.copies[q]?).bind (fun c => if c.host.isSome then none else some c.group)
  | .cmdRec k => (s.cmds[k]?).map (·.group)
  | .granule _ _ => none
  | .sgo _ => none
  | .front => none
  | .commit _ => none

/-- OWNER: launch number and group linear index, or the extent. -/
def State.recordOwner (s : State) (i : AgItem) : Nat :=
  match i with
  | .granule e _ => e
  | _ => match (i.owner s).bind (fun g => s.groups[g]?) with
    | some g => s.launchNumber g.launch + 2 ^ 32 * (g.index % 2 ^ 32)
    | none => 0

/-- The wave index of a wave in its group. -/
def State.waveIndex (s : State) (w : Nat) : Nat := ((s.waves[w]?).map (·.index)).getD 0

/-- The span member of a group on a core. -/
def State.memberOn (s : State) (g core : Nat) : Nat := ((s.groups[g]?).bind (fun x => x.cores.idxOf? core)).getD 0

/-- SUB and OFFSET. What they hold in COPY, CMD and SGO records beyond the words of the spec is the model's (log 12). -/
def State.recordPlace (s : State) : AgItem → Nat × Nat
  | .waveState w => (s.waveIndex w, 0)
  | .wavePool w k => if k < 0x1000 then (s.waveIndex w, 128 * k) else (2 ^ 14 + s.waveIndex w, 128 * (k - 0x1000))
  | .groupPool _ k => (2 ^ 15, 128 * k)
  | .tile _ m a t => (2 ^ 8 * m + 4 * t + a, 0)
  | .wbuf _ m a l => (2 ^ 8 * m + a, 128 * l)
  | .granule _ k => (0, 65536 * k)
  | .copyRec q => (match s.copies[q]? with
    | some c => if c.host.isSome then 0 else s.waveIndex c.wave
    | none => 0, q)
  | .cmdRec k => (match s.cmds[k]? with
    | some c => 2 ^ 8 * s.memberOn c.group c.core + c.arr
    | none => 0, k)
  | .sgo o => (o % 2 ^ 16, 0)
  | .groupState _ => (0, 0)
  | .front => (0, 0)
  | .commit _ => (0, 0)
  | .free _ => (0, 0)

/-- LENGTH: payload bytes, with `pieces` pending 8-byte pieces of a wave (14 R351, R352; log 12). -/
def AgItem.length (pieces : Nat → Nat) : AgItem → Nat
  | .waveState w => 2048 + 24 * pieces w
  | .groupState _ => 512
  | .wavePool _ _ => 145 | .groupPool _ _ => 145 | .wbuf _ _ _ _ => 145
  | .tile _ _ _ _ => 131072
  | .granule _ _ => 65536
  | .copyRec _ => 288
  | .cmdRec _ => 48
  | .sgo _ => 4096
  | .front => 4096
  | .commit _ => 88
  | .free _ => 0

/-- What an item counts in AG_PEND (14 R355): a line counts its 128 data bytes. -/
def AgItem.cost (pieces : Nat → Nat) (i : AgItem) : Nat :=
  match i with
  | .wavePool _ _ | .groupPool _ _ | .wbuf _ _ _ _ => 128
  | _ => i.length pieces

/-- Pending pieces of a wave as it stands, and as an image has it. -/
def State.pieces (s : State) (w : Nat) : Nat := ((s.waves[w]?).map Wave.pendPieces).getD 0
def Image.pieces (i : Image) (w : Nat) : Nat := ((partAt i.waves w).map Wave.pendPieces).getD 0

/-- Bytes of a record in the region: header and padded payload (14 R350). -/
def AgItem.span (pieces : Nat → Nat) (i : AgItem) : Nat := 32 + (i.length pieces + 31) / 32 * 32

/-- Bytes of a record as they are streamed and counted. DEDUCED (log 12): the padding of a WAVE record is not among them (17 R386). -/
def AgItem.streamed (pieces : Nat → Nat) (i : AgItem) : Nat :=
  match i with
  | .waveState _ => 32 + i.length pieces
  | _ => i.span pieces

/-- The payload of a record with the values of a cut (14 R349, R351). -/
def State.recordPayload (s : State) (x : Ctx) (img : Image) (i : AgItem) : List (BitVec 8) :=
  let n := i.length img.pieces
  match i with
  | .waveState w => openBytes 1 n (((partAt img.waves w).map Wave.words).getD [])
  | .groupState g => openBytes 2 n (((partAt img.groups g).map Group.words).getD [])
  | .wavePool w k => lineRecord (((partAt img.waves w).map (fun y => y.poolLine k)).getD ([], Side.none))
  | .groupPool g k => lineRecord (((partAt img.groups g).map (fun y => y.poolLine k)).getD ([], Side.none))
  | .tile g m a t => match partAt img.groups g with
    | some y => (if t = 0 then (y.savedArray m a).tile0 else (y.savedArray m a).tile1).flatMap (fun r => bytesOfNat 512 r.toNat)
    | none => []
  | .wbuf g m a l => match partAt img.groups g with
    | some y => lineRecord ((y.savedArray m a).wbuf.read (128 * l) 128, (y.savedArray m a).wbuf.side l)
    | none => []
  | .granule e k => (List.range 65536).map (fun j =>
      ((img.cells.find? (fun c => c.1 == e && c.2.1 == 65536 * k + j)).map (·.2.2)).getD 0#8)
  | .copyRec q => match partAt img.copies q with
    | some c => wordBytes ((List.range 16).map (qAt c.desc) ++ (List.range 16).map (qAt c.ext) ++
        c.progress (if c.host.isSome then 0 else s.waveIndex c.wave))
    | none => []
  | .cmdRec k => match partAt img.cmds k with
    | some c => wordBytes (s.cmdRecord c)
    | none => []
  | .sgo o => openBytes 10 n (((img.sgos.find? (fun y => y.num == o)).map (fun y => y.words img.resClock)).getD [])
  | .front => openBytes 11 n img.frontWords
  | .commit v => match x.agChain.find? (fun c => c.ivl == v) with
    | some c => wordBytes [BitVec.ofNat 64 c.ivl, BitVec.ofNat 64 c.records, if c.full then 1#64 else 0#64] ++
        bytesOfNat 32 c.digest.toNat ++ bytesOfNat 32 c.prev.toNat
    | none => []
  | .free _ => []

/-- The header of a record of an interval (14 R350). -/
def State.recordHeader (s : State) (x : Ctx) (img : Image) (i : AgItem) : List DWord :=
  let p := s.recordPlace i
  [BitVec.ofNat 64 (s.recordKind x i + 2 ^ 32 * (img.ivl % 2 ^ 32)), BitVec.ofNat 64 (s.recordOwner i),
   BitVec.ofNat 64 (p.1 % 2 ^ 16 + 2 ^ 16 * (p.2 % 2 ^ 48)), BitVec.ofNat 64 (i.length img.pieces % 2 ^ 32)]

/-- The bytes of a record: header, payload, and zeros up to a multiple of 32. -/
def State.recordBytes (s : State) (x : Ctx) (img : Image) (i : AgItem) : List (BitVec 8) :=
  let n := i.length img.pieces
  wordBytes (s.recordHeader x img i) ++ s.recordPayload x img i ++ List.replicate ((n + 31) / 32 * 32 - n) 0#8

/-! ### COMMIT records (14 R352, R357) -/

/-- Bytes of a COMMIT record. -/
def commitBytes : Nat := 32 + 96

/-- The bytes of a COMMIT record. -/
def Commit.bytes (c : Commit) : List (BitVec 8) :=
  wordBytes [BitVec.ofNat 64 (12 + 2 ^ 32 * (c.ivl % 2 ^ 32)), 0#64, 0#64, 88#64, BitVec.ofNat 64 c.ivl, BitVec.ofNat 64 c.records,
    if c.full then 1#64 else 0#64] ++ bytesOfNat 32 c.digest.toNat ++ bytesOfNat 32 c.prev.toNat ++ bytesOfNat 8 0

/-- The digest of the COMMIT record before, zeros where there is none. DEDUCED (log 12): the SHA3-256 digest of its bytes. -/
def prevDigest (chain : List Commit) : BitVec 256 :=
  match chain with
  | c :: _ => Config.sha3 c.bytes
  | [] => 0#256

/-- The COMMIT record of an interval whose records, in stream order, are `items`. -/
def State.commitOf (s : State) (x : Ctx) (img : Image) (items : List AgItem) : Commit :=
  { ivl := img.ivl, records := items.length, full := img.full
    digest := Config.sha3 (items.flatMap (s.recordBytes x img)), prev := prevDigest x.agChain }

/-- Does the chain of COMMIT digests hold, back to the last full close (14 R357 step 1)? -/
def chainOk : List Commit → Bool
  | [] => false
  | c :: rest => c.full || (c.prev == prevDigest rest && chainOk rest)

end Sys2Proof.Machine
end

