-- ==== Sys2Proof/Machine/Afterglow.lean ====
section
/-! DEFINITION. Afterglow: requests for closes, the cut, streaming and commit, stop-and-save, restoring an image, rollback
(14 R343-R359, R363). The records of the checkpoint tier are held structured; their places in the region are counted
(log 12). -/

namespace Sys2Proof.Machine

/-! ### Extents in use (14 R343; 15 R375, R376) -/

/-- Bytes of a part of an object as it is placed. -/
def Obj.blockSize (o : Obj) : Nat := ((o.limit - o.base).toNat + 65535) / 65536 * 65536

/-- An entry that the loader has made in the allocation list of a context for an object which the context has unloaded: it keeps no
memory in use (15 R376; log 60). -/
def State.givenUp (s : State) (c : Nat) (x : Ctx) (k : Nat) : Bool :=
  let a := x.act.allocBase.toNat + 32 * k
  let entry (o : Obj) : Bool := o.ctx == c && o.base == s.mem.quad (a + 8) && o.blockSize == extSize s.mem x k &&
    (if (s.mem.quad (a + 24)).getLsbD 1 then o.ro == extBase s.mem x k else o.rw == extBase s.mem x k)
  s.objs.any (fun o => entry o && o.unloaded) && !s.objs.any (fun o => entry o && !o.unloaded)

/-- The extents of a context that are in use. -/
def State.extentsHeld (s : State) (c : Nat) (x : Ctx) : List Nat := (List.range x.extents).filter (fun k => !s.givenUp c x k)

/-! ### Capture (14 R343, R348, R351) -/

/-- The bytes and side-bands of an extent, by offset. -/
def extCells (m : Mem) (base size k : Nat) : List (Nat × Nat × BitVec 8) :=
  (m.cells.filter (fun x => decide (base ≤ x.1) && decide (x.1 < base + size))).map (fun x => (k, x.1 - base, x.2))
def extSides (m : Mem) (base size k : Nat) : List (Nat × Nat × Side) :=
  (m.sides.filter (fun x => decide (base ≤ 128 * x.1) && decide (128 * x.1 < base + size))).map
    (fun x => (k, 128 * x.1 - base, x.2))

/-- The entries of a table that satisfy a test, with their positions. -/
def entries {α : Type} (l : List α) (p : α → Bool) : List (Nat × α) :=
  ((l.zipIdx).filter (fun x => p x.1)).map (fun x => (x.2, x.1))

/-- Has a group not ended? -/
def State.groupLives (s : State) (g : Nat) : Bool :=
  match s.groups[g]? with
  | some x => x.st != .retired
  | none => false

/-- The launches of a context that have groups to place, or live groups. -/
def State.launchParts (s : State) (c : Nat) : List (Nat × Launch) :=
  let used := (s.groups.filter (fun g => g.ctx == c && g.st != .retired)).map (·.launch)
  ((s.launches.zipIdx).filter (fun x => x.1.ctx == c && (x.1.listed || used.contains x.2))).map (fun x => (x.2, x.1))

/-- The image of a context as it stands. The arrays of a group that has started are captured on its cores; another keeps what it is
to start from. -/
def State.capture (s : State) (c : Nat) (x : Ctx) (full : Bool) : Image :=
  { ivl := x.agOpen, full := full,
    waves := entries s.waves (fun w => w.ctx == c && w.st != .retired && s.groupLives w.group),
    groups := (entries s.groups (fun g => g.ctx == c && g.st != .retired)).map (fun g =>
      (g.1, if g.2.claim && g.2.st.holds && g.2.started then { g.2 with saved := s.getArrays g.2 } else g.2)),
    copies := entries s.copies (fun q => q.ctx == c && !q.st.ended),
    cmds := entries s.cmds (fun k => k.ctx == c && k.st != .done),
    rings := entries s.rings (fun r => r.ctx == c && r.st != .free),
    launches := s.launchParts c,
    trees := entries s.trees (fun t => t.ctx == c && t.isOpen),
    runs := entries s.runs (fun r => r.ctx == c && r.live),
    wakes := s.wakeQueue.filter (fun g => match s.groups[g]? with
      | some y => y.ctx == c
      | none => false),
    bins := x.bins, pool := x.pool, tables := x.tables, sgos := x.sgos.filter (·.live), pbGens := s.allGens c,
    exts := (List.range x.extents).map (extSize s.mem x),
    cells := (List.range x.extents).flatMap (fun k => extCells s.mem (extBase s.mem x k) (extSize s.mem x k) k),
    sides := (List.range x.extents).flatMap (fun k => extSides s.mem (extBase s.mem x k) (extSize s.mem x k) k),
    resClock := x.resClock }

/-! ### Items (14 R346, R349, R355) -/

/-- The stream order of R349. -/
def AgItem.rank : AgItem → Nat
  | .free _ => 0
  | .waveState _ => 1 | .groupState _ => 1
  | .copyRec _ => 2 | .cmdRec _ => 2
  | .front => 3 | .sgo _ => 3
  | .wavePool _ _ => 4 | .groupPool _ _ => 4 | .tile _ _ _ _ => 4 | .wbuf _ _ _ _ => 4
  | .granule _ _ => 5
  | .commit _ => 6

/-- Every item of a context beyond the records of state, for a full close (14 R353). -/
def State.allItems (s : State) (c : Nat) (x : Ctx) : List AgItem :=
  let ws := (entries s.waves (fun w => w.ctx == c && w.st != .retired && s.groupLives w.group))
  let gs := (entries s.groups (fun g => g.ctx == c && g.st != .retired))
  ws.flatMap (fun w => (poolMarks w.2.numV w.2.numH w.2.numB).map (.wavePool w.1)) ++
  gs.flatMap (fun g => (List.range (32 * g.2.blockGranules)).map (.groupPool g.1) ++
    (if g.2.claim then (List.range g.2.cores.length).flatMap (fun m => (List.range 4).flatMap (fun a =>
      [.tile g.1 m a 0, .tile g.1 m a 1] ++ (List.range 8192).map (.wbuf g.1 m a))) else [])) ++
  (List.range x.extents).flatMap (fun k => (List.range (extSize s.mem x k / 65536)).map (.granule k))

/-- The image of the last cut: of the interval that closes, else the committed one. -/
def Ctx.lastCut (x : Ctx) : Option Image :=
  match x.agCut with
  | some i => some i
  | none => x.image

/-- The WAVE, GROUP and FRONT records that every close writes (14 R355). -/
def State.everyClose (s : State) (c : Nat) : List AgItem :=
  (entries s.waves (fun w => w.ctx == c && w.st != .retired && s.groupLives w.group)).map (fun w => .waveState w.1) ++
  (entries s.groups (fun g => g.ctx == c && g.st != .retired)).map (fun g => .groupState g.1) ++ [.front]

/-- The progress records, command records and Sample Group Objects that have changed since the last cut (14 R346). -/
def State.changedItems (s : State) (c : Nat) (x : Ctx) : List AgItem :=
  let old := x.lastCut
  let changed {α : Type} [BEq α] (l : Option (List α)) (y : α) : Bool := !(l.any (fun m => m.contains y))
  ((entries s.copies (fun q => q.ctx == c && !q.st.ended)).filter (changed (old.map (·.copies)))).map (fun q => .copyRec q.1) ++
  ((entries s.cmds (fun k => k.ctx == c && k.st != .done)).filter (changed (old.map (·.cmds)))).map (fun k => .cmdRec k.1) ++
  ((x.sgos.filter (·.live)).filter (changed (old.map (·.sgos)))).map (fun o => .sgo o.num)

/-- All of them, for a full close. -/
def State.stateItems (s : State) (c : Nat) (x : Ctx) : List AgItem :=
  s.everyClose c ++ (entries s.copies (fun q => q.ctx == c && !q.st.ended)).map (fun q => .copyRec q.1) ++
  (entries s.cmds (fun k => k.ctx == c && k.st != .done)).map (fun k => .cmdRec k.1) ++
  (x.sgos.filter (·.live)).map (fun o => .sgo o.num)

/-- The pool lines of a context that are dirty. -/
def State.poolItems (s : State) (c : Nat) : List AgItem :=
  (entries s.waves (fun w => w.ctx == c && w.st != .retired)).flatMap (fun w => w.2.dirty.map (.wavePool w.1)) ++
  (entries s.groups (fun g => g.ctx == c && g.st != .retired)).flatMap (fun g => g.2.dirty.map (.groupPool g.1))

/-- Is there still something to write of an item that an interval which failed has left dirty: has its wave, group, request, command
or object not ended? -/
def State.itemLives (s : State) (x : Ctx) : AgItem → Bool
  | .wavePool w _ => (s.waves[w]?).any (fun y => y.st != .retired)
  | .waveState w => (s.waves[w]?).any (fun y => y.st != .retired)
  | .groupPool g _ => s.groupLives g
  | .groupState g => s.groupLives g
  | .tile g _ _ _ => s.groupLives g
  | .wbuf g _ _ _ => s.groupLives g
  | .copyRec q => (s.copies[q]?).any (fun y => !y.st.ended)
  | .cmdRec k => (s.cmds[k]?).any (fun y => y.st != .done)
  | .sgo o => x.sgos.any (fun y => y.num == o && y.live)
  | .granule _ _ => true
  | .front => true
  | .commit _ => false
  | .free _ => true

/-- The items dirty in the open interval, each once: all of them while no interval has been committed and none closes (14 R347). -/
def State.dirtyItems (s : State) (c : Nat) (x : Ctx) : List AgItem :=
  ((if x.agFirst && x.agCut.isNone then s.allItems c x ++ s.stateItems c x else []) ++ x.agDirty.filter (s.itemLives x) ++ s.poolItems c ++
    s.changedItems c x).foldl addMark []

/-- What a close writes, beside a full close. -/
def State.partItems (s : State) (c : Nat) (x : Ctx) : List AgItem := (s.everyClose c).foldl addMark (s.dirtyItems c x)

/-- What a full close writes: every item, and the FREE records. -/
def State.fullItems (s : State) (c : Nat) (x : Ctx) : List AgItem :=
  (x.agDirty.filter (fun i => i.rank == 0)) ++ s.allItems c x ++ s.stateItems c x

/-- The items of a close in stream order: granules in ascending extent and offset (14 R349). -/
def streamOrder (l : List AgItem) : List AgItem :=
  let key (i : AgItem) : Nat × Nat := match i with
    | .granule e k => (e, k)
    | _ => (0, 0)
  (List.range 5).flatMap (fun r => l.filter (fun i => i.rank == r)) ++
  sortBy (fun a b => decide ((key a).1 < (key b).1) || ((key a).1 == (key b).1 && decide ((key a).2 < (key b).2)))
    (l.filter (fun i => i.rank == 5))

/-- The free space of the region from the write pointer on: up to the next record of the committed image, and none inside one
(14 R353). -/
def Ctx.regionGap (x : Ctx) : Nat :=
  let size := x.act.ckptSize.toNat
  x.agRecs.foldl (fun g r => if (x.agPtr + size - r.2.1) % size < r.2.2 then 0 else min g ((r.2.1 + size - x.agPtr) % size)) size

/-- AG_PEND and AG_EST (14 R355). An item that is dirty again while it is pending counts twice, since it is streamed twice. -/
def State.saveCost (s : State) (c : Nat) (x : Ctx) : Nat :=
  ((x.agPend ++ s.partItems c x).map (fun i => i.cost s.pieces)).foldl (· + ·) 0

def State.updatePend (s : State) (c : Nat) : State :=
  match s.ctxs[c]? with
  | none => s
  | some x =>
    let p := s.saveCost c x
    s.modCtx c (fun y => { y with
      agPendReg := BitVec.ofNat 64 p, agEstReg := BitVec.ofNat 64 ((p + 319) / 320 + 2560), agSeen := s.feClock })

/-! ### Requests and closes (14 R347) -/

/-- Who asked for a close is told how it ended (13 R308, 19 R412). -/
def State.answerClose (s : State) (r : CloseReq) (ivl : Nat) (ok : Bool) : State :=
  match r.origin with
  | .packet ring pkt => s.completePacket ring pkt (if ok then stOk else stCkptFail) 0 0 0#64
  | .service k => s.modBegun k (fun b => { b with ready := true, result := if ok then 0 else 0x0A, value := BitVec.ofNat 64 ivl })
  | .device => s

/-- A context stops in place with FAULTKIND FENCE (14 R361, R364; 19 R420). -/
def State.fenceFault (s : State) (c : Nat) : State :=
  s.contextFault c faultFence Frame.zero (0, 0) 0#64

/-- A close is requested; with CKPTSIZE = 0 it fails at once, and a context that the device wanted saved stops in place. -/
def State.requestClose (s : State) (c : Nat) (r : CloseReq) : State :=
  match s.ctxs[c]? with
  | none => s
  | some x =>
    if x.act.ckptSize = 0#64 then
      let s1 := s.answerClose r 0 false
      if r.origin = .device && r.save then s1.fenceFault c else s1
    else s.modCtx c (fun y => { y with agQueue := y.agQueue ++ [r] })

/-- Is a close under way? -/
def Ctx.closing (x : Ctx) : Bool := x.agStop || x.agCut.isSome

/-- May a requested close begin: any of a context that runs, a save also of a FAULTED one (14 R339, R348)? -/
def Ctx.mayClose (x : Ctx) (r : CloseReq) : Bool := x.st == .resident || (x.st == .faulted && r.save)

/-- The first requested close that may begin does: the context stops (14 R348 step 1). A FAULTED context is saved though an ordinary
close was requested before (14 R339, R356). -/
def State.beginClose (s : State) (c : Nat) : State :=
  match s.ctxs[c]? with
  | none => s
  | some x => match x.agQueue.find? x.mayClose with
    | none => s
    | some r =>
      if x.closing then s
      else s.modCtx c (fun y => { y with
        agStop := true, agFrom := x.st, agBy := [r], agQueue := y.agQueue.eraseP x.mayClose })

/-- The cores that hold groups of a context. -/
def State.coresOf (s : State) (c : Nat) : List Nat := (s.groups.filter (fun g => g.ctx == c && g.st.holds)).flatMap (·.cores)

/-- Has every agent of the context stopped, with no park under way on its cores (14 R344)? -/
def State.ctxStopped (s : State) (c : Nat) : Bool :=
  s.groups.all (fun g => g.ctx != c || g.st == .retired || (g.st != .parking && (!g.st.holds || s.allStopped g))) &&
  s.groups.all (fun g => g.st != .parking || !(g.cores.any (s.coresOf c).contains))

/-- The waves of a context go on after a stop (14 R348 step 4). -/
def State.goOn (s : State) (c : Nat) : State := s.allWaves (fun w => if w.ctx = c then { w with stopped := false } else w)

/-- A checkpoint port that is down: while one is, no interval commits (19 R404). -/
def State.downPort (s : State) : Option Nat := (List.range s.ports.length).find? (fun p => !(s.ports.getD p true))

/-- Steps 2 to 4 of R348, and step 1 of R356: the image is taken, the dirty items become pending, and execution goes on or the
groups enter SAVING. A close that does not fit into the region cannot commit (R353), nor can one with a port down (19 R404). -/
def State.cut (s : State) (c : Nat) : State :=
  match s.ctxs[c]? with
  | none => s
  | some x =>
    if x.agStop && x.agCut.isNone && s.ctxStopped c then
      let save := x.agBy.any (·.save)
      let part := streamOrder (s.partItems c x)
      let every := streamOrder (s.fullItems c x)
      let bytes (l : List AgItem) : Nat := (l.map (fun i => i.span s.pieces)).foldl (· + ·) commitBytes
      let full := x.agFirst || decide (x.regionGap < bytes part)
      let items := if full then every else part
      let img := s.capture c x full
      let s1 := s.modCtx c (fun y => { y with
        agCut := some img, agOpen := y.agOpen + 1, agDirty := [], agPend := items, agDone := [], agNew := []
        agDown := s.downPort, agPort := decide (y.regionGap < bytes items), agStop := save
        st := if save then .stopping else y.st, ckptStart := y.resClock })
      let s2 := (s1.allWaves (fun w => if w.ctx = c then { w with dirty := [] } else w)).allGroups
        (fun g => if g.ctx = c then { g with dirty := [], st := if save && g.st.holds then .saving else g.st } else g)
      if save then s2 else s2.goOn c
    else s

/-! ### Format declarations (02 R50; 14 R343) -/

/-- A declaration: virtual base, limit, scale base, format, layout. -/
structure Decl where
  base : DWord
  limit : DWord
  scale : DWord
  fmt : Nat
  layout : Nat
  deriving DecidableEq, Repr

def declAt (m : Mem) (c : Ctx) (k : Nat) : Decl :=
  let a := c.act.declBase.toNat + 32 * k
  ⟨m.quad a, m.quad (a + 8), m.quad (a + 16), bitsOf (m.quad (a + 24)) 0 4, bitsOf (m.quad (a + 24)) 4 2⟩

/-- The scale bytes of `n` element bytes of a declaration. -/
def Decl.scales (d : Decl) (n : Nat) : Nat := n / blockBytes (BitVec.ofNat 4 d.fmt) * blockScales (BitVec.ofNat 4 d.fmt)

/-- Page k of a declaration's element range: where it lies, and where its scale bytes lie, in the HBM of one quadrant and one
after the other. DESIGN CHOICE (log 85): a page whose scale bytes cross into a scale page that lies elsewhere cannot be held, since a piece
ends at a page. -/
def State.declPage (s : State) (c : Nat) (d : Decl) (k : Nat) : Option (Nat × Nat) :=
  match s.agentXlat c .rd (d.base + BitVec.ofNat 64 (4096 * k)) with
  | .error _ => none
  | .ok x => match xlatBytes (s.agentXlat c .rd) (d.scale + BitVec.ofNat 64 (d.scales (4096 * k))) (d.scales 4096) with
    | .ok (y :: ys) =>
      if (paKind x.pa).isHbm && (paKind y.pa).isHbm &&
          ((y :: ys).zipIdx).all (fun z => z.1.pa == y.pa + z.2 && quadOf z.1.pa == quadOf x.pa) then some (x.pa, y.pa) else none
    | _ => none

/-- The pieces of the first n pages: element base, scale base, bytes; each runs on in elements and in scales. -/
def growPieces (d : Decl) (f : Nat → Option (Nat × Nat)) : Nat → Option (List (Nat × Nat × Nat))
  | 0 => some []
  | n + 1 => match growPieces d f n with
    | none => none
    | some l => match f n with
      | none => none
      | some (pa, sa) => match l.getLast? with
        | some (b, sb, z) =>
          if b + z = pa ∧ sb + d.scales z = sa ∧ quadOf b = quadOf pa then some (l.dropLast ++ [(b, sb, z + 4096)])
          else some (l ++ [(pa, sa, 4096)])
        | none => some [(pa, sa, 4096)]

/-- The region register of a piece. -/
def Decl.region (d : Decl) (p : Nat × Nat × Nat) : Region :=
  ⟨BitVec.ofNat 64 p.1, BitVec.ofNat 64 (p.1 + p.2.2), BitVec.ofNat 64 p.2.1,
    BitVec.ofNat 64 (1 + 16 * d.fmt + 256 * d.layout)⟩

/-- The pieces of a declaration as (quadrant, register contents), or none when it cannot be held. -/
def State.declRegions (s : State) (c : Nat) (d : Decl) : Option (List (Nat × Region)) :=
  if d.base.toNat % 4096 ≠ 0 ∨ d.limit.toNat % 4096 ≠ 0 ∨ d.scale.toNat % 16 ≠ 0 ∨ d.limit.toNat ≤ d.base.toNat then none
  else match growPieces d (s.declPage c d) ((d.limit.toNat - d.base.toNat) / 4096) with
    | none => none
    | some ps => some (ps.map (fun p => (quadOf p.1, d.region p)))

/-- Lantern reads the tables of the pages of a declaration and of their scale bytes (02 R50, R72). -/
def State.declLooks (s : State) (c : Nat) (d : Decl) : State :=
  (List.range ((d.limit.toNat - d.base.toNat) / 4096)).foldl (fun t k =>
    (t.agentLooks c .rd (d.base + BitVec.ofNat 64 (4096 * k)) 1).agentLooks c .rd
      (d.scale + BitVec.ofNat 64 (d.scales (4096 * k))) (d.scales 4096)) s

/-- Program one register for a context: the lowest disabled one of its quadrant, with the checks of 02 R52. -/
def State.programRegion (s : State) (c q : Nat) (r : Region) : Option State :=
  match s.quads[q]? with
  | none => none
  | some x => match x.regions.findIdx? (fun y => !y.enabled) with
    | none => none
    | some k =>
      if regionError q k x.regions r = 0 then
        some ((s.applyRegion q k r).modCtx c (fun y => { y with declRegs := y.declRegs ++ [(q, k)] }))
      else none

def State.programAll (s : State) (c : Nat) : List (Nat × Region) → Option State
  | [] => some s
  | (q, r) :: rest => match s.programRegion c q r with
    | some s1 => s1.programAll c rest
    | none => none

/-- Program every declaration of a context, or name the first that cannot be held. -/
def State.programDecls (s : State) (c : Nat) (x : Ctx) : Nat → Nat → Except Nat State
  | 0, _ => .ok s
  | n + 1, k =>
    match s.declRegions c (declAt s.mem x k) with
    | none => .error k
    | some l => match (s.declLooks c (declAt s.mem x k)).programAll c l with
      | none => .error k
      | some s1 => s1.programDecls c x n (k + 1)

/-- The registers that hold a context's declarations are given up, after the slices have written back and dropped the lines of their
ranges and scale arrays (02 R56; log 57). -/
def State.dropDecls (s : State) (c : Nat) : State :=
  (((s.ctxs[c]?).map (·.declRegs)).getD []).foldl (fun t p => t.applyRegion p.1 p.2 Region.zero)
    (s.modCtx c (fun y => { y with declRegs := [] }))

/-! ### Streaming and commit (14 R349-R353, R356) -/

/-- The granules among some items, by the address at which they lie. -/
def granulesAt (m : Mem) (x : Ctx) (l : List AgItem) : List Nat :=
  l.filterMap (fun i => match i with
    | .granule e k => some (extBase m x e + 65536 * k)
    | _ => none)

/-- Granules that are streamed are read at the homes of their lines (02 R45, R46, R51; 14 R349). -/
def State.readGranules (s : State) (x : Ctx) (l : List AgItem) : State :=
  (granulesAt s.mem x l).foldl (fun t pa => t.homeRange pa 65536 false) s

/-- A poisoned line of the granules that are streamed (02 R49). -/
def State.granulePoison (s : State) (x : Ctx) (l : List AgItem) : Option Nat :=
  (granulesAt s.mem x l).findSome? (fun pa => (linesOf pa 65536).find? s.linePoisoned)

/-- Afterglow has met lost data in a granule: the interval does not commit, and the context is rolled back, or FAULTED where it has no
image (02 R49; 14 R362; log 76). -/
def State.meetGranules (s : State) (c : Nat) (x : Ctx) (l : List AgItem) : State :=
  match s.granulePoison x l with
  | some line => ((s.readGranules x l).modCtx c (fun y => { y with agPort := true })).unitLost c (s.lineClass line) 0#64
  | none => s.readGranules x l

/-- The streamed items that have no place in the region yet get one, and are counted (14 R353, R354, R386). While a port is down the
interval does not commit (19 R404). Records of a close that does not fit get no place: none of the committed image is
overwritten. -/
def State.layRecords (s : State) (c : Nat) : State :=
  match s.ctxs[c]? with
  | none => s
  | some x => match x.agCut with
    | none => s
    | some img =>
      let size := x.act.ckptSize.toNat
      let fresh := x.agDone.drop x.agNew.length
      if x.agPort then s.modCtx c (fun y => { y with agNew := y.agNew ++ fresh.map (fun i => (i, x.agPtr, 0)) })
      else
        let placed := fresh.foldl (fun (acc : List (AgItem × Nat × Nat) × Nat) i =>
          (acc.1 ++ [(i, acc.2 % size, i.span img.pieces)], acc.2 + i.span img.pieces)) ([], x.agPtr)
        ((s.meetGranules c x fresh).account (s.domainOf c) cntCkptB ((fresh.map (fun i => i.streamed img.pieces)).foldl (· + ·) 0)).modCtx c (fun y => { y with
          agNew := y.agNew ++ placed.1, agPtr := placed.2 % size
          agDown := match y.agDown with
            | some p => some p
            | none => s.downPort })

/-- The quadrant whose Afterglow streams an item: of the core that holds it, or of the memory; quadrant 0's streams what belongs to
no core, and the front end's records (14 R349). -/
def State.itemQuad (s : State) (x : Ctx) (i : AgItem) : Nat :=
  let core (g m : Nat) : Nat := coreQuad (((s.groups[g]?).bind (fun y => y.cores[m]?)).getD 0)
  match i with
  | .wavePool w _ => coreQuad (((s.waves[w]?).map (·.core)).getD 0)
  | .waveState w => coreQuad (((s.waves[w]?).map (·.core)).getD 0)
  | .groupPool g _ => core g 0
  | .groupState g => core g 0
  | .free g => core g 0
  | .tile g m _ _ => core g m
  | .wbuf g m _ _ => core g m
  | .copyRec q => coreQuad (((s.copies[q]?).map (·.core)).getD 0)
  | .cmdRec k => coreQuad (((s.cmds[k]?).map (·.core)).getD 0)
  | .granule e k => memQuad (extBase s.mem x e + 65536 * k)
  | .sgo _ => 0
  | .front => 0
  | .commit _ => 0

/-- Stream a pending item: each quadrant's Afterglow streams its own in order (14 R349). -/
def State.streamItem (s : State) (c k : Nat) : State :=
  match s.ctxs[c]? with
  | none => s
  | some x => match x.agPend[k]?, x.agCut with
    | some i, some _ =>
      if (x.agPend.take k).any (fun j => s.itemQuad x j == s.itemQuad x i) then s
      else (s.modCtx c (fun y => { y with
        agPend := y.agPend.eraseIdx k, agDone := y.agDone ++ [i] })).layRecords c
    | _, _ => s

/-- Pending items that have been written since the cut have been streamed, with the values of the cut, before the write
entered (14 R349): pool lines, and what `Ctx.markItem` has found. -/
def State.hasten (s : State) (c : Nat) : State :=
  match s.ctxs[c]? with
  | none => s
  | some x =>
    if x.agPend.isEmpty && decide (x.agDone.length ≤ x.agNew.length) then s
    else
      let hit := (s.poolItems c).filter x.agPend.contains
      if hit.isEmpty && decide (x.agDone.length ≤ x.agNew.length) then s
      else (s.modCtx c (fun y => { y with
        agPend := y.agPend.filter (fun i => !hit.contains i), agDone := y.agDone ++ hit })).layRecords c

/-- The groups of a context leave their cores, SAVED; a parked group stays PARKED (14 R356 step 3). Its format regions are
given up; a resume programs them anew (R343). What the device wanted saved is saved, and its other requests are met. -/
def State.saveGroups (s0 : State) (c : Nat) : State :=
  let s := s0.dropDecls c
  let s1 := (List.range s.groups.length).foldl (fun t g => match s.groups[g]? with
    | some x => if x.ctx = c ∧ x.st = .saving then t.leaveCores g .saved else t
    | none => t) s
  { (s1.modCtx c (fun y => { y with
      st := .saved, agStop := false, agQueue := y.agQueue.filter (fun r => r.origin != .device) })) with
    wakeQueue := s1.wakeQueue.filter (fun g => match s1.groups[g]? with
      | some x => x.ctx != c
      | none => false) }

/-- Pending groups of a context that is saved keep their place as parked groups with a wake, or as saved ones (12 R298). -/
def State.shelve (s : State) (c : Nat) : State :=
  s.allGroups (fun g => if g.ctx = c ∧ g.st = .pending then
    (if g.wake then { g with st := .parked } else { g with st := .saved }) else g)

/-- Parked groups of a context that a wake has made pending: those of a list first, in its order, then the others. -/
def State.wokenGroups (s : State) (c : Nat) (first : List Nat) : List Nat :=
  let all := (entries s.groups (fun g => g.ctx == c && g.st == .parked && g.wake)).map (·.1)
  first.filter all.contains ++ all.filter (fun g => !first.contains g)

/-- Parked groups that a wake has reached while it could not make them pending become pending (12 R298). -/
def State.enterWoken (s : State) (c : Nat) : State :=
  let order := s.wokenGroups c []
  let s1 := order.foldl (fun t g => t.modGroup g (fun y => { y with st := .pending })) s
  { s1 with wakeQueue := s1.wakeQueue ++ order }

/-- A stop-and-save that fails: the groups return to what they were (14 R356), and groups that were woken meanwhile are pending
(12 R298). -/
def State.unsave (s : State) (c : Nat) (was : CtxSt) : State :=
  let back : GroupSt := if was = .faulted then .faulted else .running
  let s1 := ((s.allGroups (fun g => if g.ctx = c ∧ g.st = .saving then
    { g with st := if g.started then back else .starting } else g)).modCtx c
    (fun y => { y with st := was, agStop := false })).goOn c
  s1.enterWoken c

/-- The interval does not commit (14 R353, R356; 19 R404): its items stay dirty, the region is as before it, who asked is told, and a
failed port is reported. -/
def State.failClose (s : State) (c : Nat) (y : Ctx) (ivl : Nat) (down : Option Nat) : State :=
  let save := y.agBy.any (·.save)
  let s2 := s.modCtx c (fun z => { z with
    agCut := none, agDirty := z.agDone.foldl addMark z.agDirty, agDone := [], agNew := [], agBy := [], agDown := none
    agPtr := (z.agNew.head?.map (·.2.1)).getD z.agPtr })
  let s3 := if save then s2.unsave c (if y.st = .faulted then .faulted else y.agFrom) else s2
  let s4 := y.agBy.foldl (fun t r => t.answerClose r ivl false) s3
  let s5 := match down with
    | some p => s4.report errCkptPort 0 y.id 0#64 p 0
    | none => s4
  if y.agBy.any (fun r => r.origin == .device && r.save) then s5.fenceFault c else s5

/-- The records of the committed image that stay in use: those of which the interval has no later one, and whose owner it has not
freed (14 R351-R353). -/
def State.keptRecs (s : State) (y : Ctx) (img : Image) : List (AgItem × Nat × Nat) :=
  let freed := y.agNew.filterMap (fun r => match r.1 with
    | .free g => some g
    | _ => none)
  if img.full then [] else y.agRecs.filter (fun r =>
    !(y.agNew.any (fun n => n.1 == r.1)) && !(match r.1.owner s with
      | some g => freed.contains g
      | none => false))

/-- The end of an interval (14 R352, R353): its COMMIT record is written, or it fails. -/
def State.commit (s : State) (c : Nat) : State :=
  match s.ctxs[c]? with
  | none => s
  | some x => match x.agCut with
    | none => s
    | some img =>
      if x.agPend ≠ [] then s
      else
        let s1 := s.layRecords c
        match s1.ctxs[c]? with
        | none => s1
        | some y =>
          let down := match y.agDown with
            | some p => some p
            | none => s1.downPort
          if y.agPort || down.isSome then s1.failClose c y img.ivl down
          else
            let size := y.act.ckptSize.toNat
            let rec_ := s1.commitOf y img (y.agNew.map (·.1))
            let s2 := (s1.account (s.domainOf c) cntCkptB commitBytes).modCtx c (fun z => { z with
              image := some img, agCut := none, agDone := [], agNew := [], agBy := [], agFirst := false
              agRecs := s1.keptRecs y img ++ y.agNew ++ [(.commit img.ivl, y.agPtr, commitBytes)]
              agChain := if img.full then [rec_] else rec_ :: y.agChain
              agPtr := (z.agPtr + commitBytes) % size, agBad := z.agBad && !img.full })
            let s3 : State := { s2 with tier := s2.tier.filter (fun t => t.base != y.act.ckptBase) }
            let s4 := if y.agBy.any (·.save) then (s3.saveGroups c).shelve c else s3
            y.agBy.foldl (fun t r => t.answerClose r img.ivl true) s4

/-! ### Restoring an image (14 R357, R358, R363) -/

/-- Put entries back at their positions. -/
def putBack {α : Type} (l : List α) (es : List (Nat × α)) : List α := es.foldl (fun acc e => acc.set e.1 e.2) l

/-- Is a position among saved entries? -/
def kept {α : Type} (es : List (Nat × α)) (k : Nat) : Bool := es.any (fun e => e.1 == k)

/-- A part of an image goes back to its positions of a table; what else a context has there ends. -/
def putPart {α : Type} (mine : α → Bool) (gone : α → α) (l : List α) (es : List (Nat × α)) : List α :=
  putBack (l.mapIdx (fun k x => if mine x && !kept es k then gone x else x)) es

/-- The ranges that a restore writes: of every extent in use that the image records, what it records. -/
def restoredRanges (m : Mem) (x : Ctx) (img : Image) (held : List Nat) : List (Nat × Nat) :=
  (held.filter (· < img.exts.length)).map (fun k => (extBase m x k, img.exts.getD k 0))

/-- Write the recorded bytes of the extents to where the allocation list now has them, but for those that are no longer in use. -/
def Mem.restoreExts (m : Mem) (x : Ctx) (img : Image) (held : List Nat) : Mem :=
  let inside (a : Nat) : Bool := (restoredRanges m x img held).any (fun r => decide (r.1 ≤ a) && decide (a < r.1 + r.2))
  let bare : Mem := ⟨m.cells.filter (fun c => !inside c.1), m.sides.filter (fun d => !inside (128 * d.1))⟩
  let m1 := (img.cells.filter (fun c => held.contains c.1)).foldl (fun t c => t.setByte (extBase m x c.1 + c.2.1) c.2.2) bare
  (img.sides.filter (fun d => held.contains d.1)).foldl (fun t d => t.setSide ((extBase m x d.1 + d.2.1) / 128) d.2.2) m1

/-- The bytes that a restore writes are written at the homes of their lines (02 R45, R46; 14 R357 step 3), and no line of them is
poisoned any more. -/
def State.restoreHome (s : State) (x : Ctx) (img : Image) (held : List Nat) : State :=
  let ranges := restoredRanges s.mem x img held
  let s1 := ranges.foldl (fun t r => t.homeRange r.1 r.2 true) { s with mem := s.mem.restoreExts x img held }
  { s1 with poison := s1.poison.filter (fun l =>
      !ranges.any (fun r => decide (r.1 ≤ 128 * l) && decide (128 * l < r.1 + r.2))) }

/-- A group as a restore leaves it: SAVED, or PARKED with its wake for one that a wake had made pending. A wake that came while the
context was saved is kept (12 R298). -/
def Group.restored (g : Group) (wasSaved : Bool) (live : Option Group) : Group :=
  let later := wasSaved && live.any (fun y => y.st == .parked && y.wake)
  { g with
    st := if (g.st == .pending || g.st == .starting) && g.wake then .parked
      else if g.st.holds || g.st == .pending then .saved else g.st
    wake := g.wake || later, started := false }

/-- A ring as a restore leaves it: where the driver has it now, with the write pointer that the host has written since. A packet that
had been dispatched translates its addresses anew; a CHECKPOINT packet has completed with the image (13 R308). -/
def Ring.restored (r : Ring) (live : Option Ring) : Ring :=
  match live with
  | none => r
  | some l =>
    if l.st = .free then l
    else
      let open_ := (r.pkts.filter (fun p => !p.done && pktType p.quads == 7)).length
      let stale (k : Option Kept) : Option Kept := k.map (fun y => { y with stale := true })
      { r with
        base := l.base, logsz := l.logsz, wptr := l.wptr, st := if l.st = .destroying then l.st else r.st
        done := r.done + BitVec.ofNat 64 open_
        pkts := r.pkts.map (fun p => { p with
          cr := stale p.cr, found := stale p.found, done := p.done || pktType p.quads == 7 }) }

/-- What is left of an entry that a restore ends, since the image does not have it. -/
def Wave.gone (w : Wave) : Wave := { w with st := .retired, pend := [], outs := [] }
def Group.gone (g : Group) : Group := { g with st := .retired }
def CopyReq.gone (q : CopyReq) : CopyReq := if q.st.ended then q else { q with st := .cancelled }
def MCmd.gone (k : MCmd) : MCmd := { k with st := .done }
def Launch.gone (l : Launch) : Launch := { l with listed := false }
def Tree.gone (t : Tree) : Tree := { t with isOpen := false, live := 0, pend := 0, infl := 0, unplaced := 0 }
def GraphRun.gone (r : GraphRun) : GraphRun := { r with live := false }

/-- The tables of the machine with the state of a context as its image has it (14 R357 steps 3 and 6). What came after the cut
is gone; progress records are as they were saved (03 R106). -/
def State.putImage (s : State) (c : Nat) (img : Image) : State :=
  let wasSaved : Bool := match s.ctxs[c]? with
    | some x => x.st == .saved
    | none => false
  { s with
    waves := putPart (fun (w : Wave) => w.ctx == c) Wave.gone s.waves
      (img.waves.map (fun e => (e.1, { e.2 with stopped := false })))
    groups := putPart (fun (g : Group) => g.ctx == c) Group.gone s.groups
      (img.groups.map (fun e => (e.1, e.2.restored wasSaved s.groups[e.1]?)))
    copies := putPart (fun (q : CopyReq) => q.ctx == c) CopyReq.gone s.copies img.copies
    cmds := putPart (fun (k : MCmd) => k.ctx == c) MCmd.gone s.cmds img.cmds
    rings := putBack s.rings (img.rings.map (fun e => (e.1, e.2.restored s.rings[e.1]?)))
    launches := putPart (fun (l : Launch) => l.ctx == c) Launch.gone s.launches img.launches
    trees := putPart (fun (t : Tree) => t.ctx == c) Tree.gone s.trees img.trees
    runs := putPart (fun (r : GraphRun) => r.ctx == c) GraphRun.gone s.runs img.runs
    wakeQueue := s.wakeQueue.filter (fun g => match s.groups[g]? with
      | some x => x.ctx != c
      | none => true)
    ctxs := s.ctxs.modify c (fun x => { x with
      bins := img.bins, pool := img.pool, tables := img.tables
      sgos := (x.sgos.filter (fun o => !(img.sgos.any (fun p => p.num == o.num && p.gen == o.gen)))).map
        (fun (o : Sgo) => { o with live := false }) ++ img.sgos
      resClock := img.resClock }) }

/-- After a restore Lantern holds the addresses of the packets in progress of a context, and of no other (19 R408). -/
def State.holdOpen (s : State) (c : Nat) : State :=
  let mine (r : Nat) : Bool := (s.rings[r]?).any (fun x => x.ctx == c)
  let s1 := s.revoke (fun k => match k.obj with
    | .field r _ _ => mine r
    | _ => false)
  (s.rings.zipIdx).foldl (fun t r => if r.1.ctx = c then (r.1.pkts.zipIdx).foldl (fun u p =>
    if p.1.done then u else u.holdFields r.2 p.2 (s.ownerOf c) p.1.quads) t else t) s1

/-- The caches of the cores and the TLBs hold nothing of the context and its extents, and Glint starts with all its state invalid
(05 R154). -/
def State.dropCaches (s : State) (c : Nat) (x : Ctx) : State :=
  let ranges := (s.extentsHeld c x).map (fun k => (extBase s.mem x k, extSize s.mem x k))
  let inside (line : Nat) : Bool := ranges.any (fun r => decide (r.1 ≤ 128 * line) && decide (128 * line < r.1 + r.2))
  { (s.allCores (fun k => { k with
      l1 := k.l1.filter (fun y => !inside y.line), icache := k.icache.filter (fun y => y.ctx != c) })).dropXlats
        (fun t => t.ctx == c) (fun e => e.ctx == c) with
    llc := s.llc.map (fun l => { l with sectors := List.replicate 4 none })
    bad := s.bad.filter (fun i => match (i.owner s).bind (fun g => s.groups[g]?) with
      | some g => g.ctx != c
      | none => true) }

/-- The lowest wave of a context with a pending store that does not translate (14 R357 step 4). -/
def State.badPending (s : State) (c : Nat) : Option Nat :=
  s.waves.findIdx? (fun w => w.ctx == c && w.st != .retired && w.pend.any (fun p => match p.place with
    | .phys _ _ => match s.translate none c w.gen .wr false p.va with
      | .error _ => true
      | .ok _ => false
    | _ => false))

/-- The check of the pending stores of a context reads the tables of their pages (02 R72; 14 R357 step 4). -/
def State.pendLooks (s : State) (c : Nat) : State :=
  (s.waves.filter (fun w => w.ctx == c && w.st != .retired)).foldl (fun t w => w.pend.foldl (fun u p => match p.place with
    | .phys _ _ => u.lookUps none .wr c w.gen p.va 1
    | _ => u) t) s

/-- The pending stores of a context at the places that they have now. -/
def State.replacePending (s : State) (c : Nat) : State :=
  s.allWaves (fun w => if w.ctx = c then { w with pend := w.pend.map (fun p => match p.place with
    | .phys _ _ => match s.translate none c w.gen .wr false p.va with
      | .ok x => { p with place := .phys x.pa x.ms, also := s.sideAlso x.pa p.side }
      | .error _ => p
    | _ => p) } else w)

/-- Saved groups, in ascending launch number and group index (14 R357 step 5). -/
def State.savedGroups (s : State) (c : Nat) : List Nat :=
  (sortBy (fun (a b : Nat × Group) =>
    decide (s.launchNumber a.2.launch < s.launchNumber b.2.launch) ||
      (decide (s.launchNumber a.2.launch = s.launchNumber b.2.launch) && decide (a.2.index < b.2.index)))
    (entries s.groups (fun g => g.ctx == c && g.st == .saved))).map (·.1)

/-- The saved groups enter dispatch after the parked groups that were woken; `first` is the order in which an image has its woken
groups pending (12 R289, R298; 14 R357 step 5). -/
def State.enterGroups (s : State) (c : Nat) (first : List Nat) : State :=
  let order := s.wokenGroups c first ++ s.savedGroups c
  let s1 := order.foldl (fun t g => t.modGroup g (fun y => { y with st := .pending })) s
  { s1 with wakeQueue := s1.wakeQueue ++ order }

/-- RESTORING until the last restored group is placed (14 R357). -/
def State.settleRestore (s : State) (c : Nat) : State :=
  match s.ctxs[c]? with
  | none => s
  | some x =>
    if x.st = .restoring && !(s.wakeQueue.any (fun g => match s.groups[g]? with
        | some y => y.ctx == c && !y.wake
        | none => false)) then s.modCtx c (fun y => { y with st := .resident })
    else s

/-- Why a resume is refused: the place and the launch that the error response names, and its address (19 R403). -/
structure Refused where
  place : Nat
  launch : Nat
  addr : DWord
  deriving DecidableEq, Repr

/-- The extents of an image that the allocation list does not hold (14 R357 step 2). -/
def missingExtent (m : Mem) (x : Ctx) (exts : List Nat) : Option Nat :=
  (List.range exts.length).find? (fun k => decide (x.extents ≤ k) || decide (extSize m x k < exts.getD k 0))

/-- A saved group of an image that fits on no core (14 R358): its launch number and its index. -/
def State.homeless (s : State) (c : Nat) (img : Image) : Option (Nat × Nat) :=
  (img.groups.find? (fun e => (e.2.restored false none).st == .saved && !(s.couldPlace (s.domainOf c) (e.2.kernel.needs (fun i =>
    match e.2.waves[i]? with
    | some w => !(img.waves.all (fun y => y.1 != w))
    | none => false))))).map (fun e => (((partAt img.launches e.2.launch).map (·.num)).getD 0, e.2.index))

/-- Are the records of a context's image to be had: does their chain of digests hold, are both checkpoint ports up, and has no
expander marked them poisoned (14 R357 step 1; 19 R404; log 62)? -/
def State.imageReadable (s : State) (x : Ctx) : Bool := s.ports.all id && !x.agBad && chainOk x.agChain

/-- The granules that a restore leaves dirty: those of the weight-store extents that it has written, and those of extents that no
image has recorded yet (14 R343, R346). -/
def restoreMarks (m : Mem) (x : Ctx) (img : Image) : List AgItem :=
  (List.range x.extents).flatMap (fun k =>
    if extWs m x k || decide (img.exts.length ≤ k) then (List.range (extSize m x k / 65536)).map (.granule k)
    else (List.range (extSize m x k / 65536 - img.exts.getD k 0 / 65536)).map (fun j => .granule k (img.exts.getD k 0 / 65536 + j)))

/-- The groups of a context give up their cores, for what an image has of them (14 R363). -/
def State.vacate (s : State) (c : Nat) : State :=
  ((entries s.groups (fun g => g.ctx == c && g.st.holds)).map (·.1)).foldl (fun t g => t.leaveCores g .saved) s

/-- The bytes of the declarations and of the allocation list of a context. -/
def Ctx.lists (x : Ctx) : List (Nat × Nat) :=
  [(x.act.declBase.toNat, 32 * (x.act.declN.extractLsb' 0 7).toNat), (x.act.allocBase.toNat, 32 * x.extents)]

/-- Lantern reads them at the homes of their lines (02 R45; 14 R357 step 2). -/
def State.readLists (s : State) (x : Ctx) : State := x.lists.foldl (fun t r => t.homeRange r.1 r.2 false) s

/-- The address of a poisoned line of them: a resume that would read it is refused (02 R49; log 76). -/
def State.listPoison (s : State) (x : Ctx) : Option DWord :=
  (x.lists.findSome? (fun r => (linesOf r.1 r.2).find? s.linePoisoned)).map (fun l => BitVec.ofNat 64 (128 * l))

/-- What a resume reads and programs before anything of an image is written: the lists, which must hold the extents that the image
records, and the declarations (14 R343, R357 step 2). -/
def State.readyLists (s : State) (c : Nat) (x : Ctx) (exts : List Nat) : Except Refused State :=
  match s.listPoison x, missingExtent s.mem x exts with
  | some a, _ => .error ⟨0, 0, a⟩
  | none, some k => .error ⟨k, 0, 0#64⟩
  | none, none => match (s.readLists x).programDecls c x (x.act.declN.extractLsb' 0 7).toNat 0 with
    | .error k => .error ⟨k, 0, (declAt s.mem x k).base⟩
    | .ok t => .ok t

/-- A resume from the committed image (14 R357, R358), with the registers that the driver wrote in effect. -/
def State.restore (s : State) (c : Nat) (img : Image) : Except Refused State :=
  match s.ctxs[c]? with
  | none => .error ⟨0, 0, 0#64⟩
  | some x =>
    match s.readyLists c x img.exts with
    | .error e => .error e
    | .ok s1 =>
      match s1.homeless c img with
      | some g => .error ⟨g.2, g.1, 0#64⟩
      | none =>
        let s2 := (List.range 256).foldl (fun t n => t.putPbGen c n (img.pbGens.getD n 0#32)) (s1.vacate c)
        let s3 := s2.restoreHome x img (s2.extentsHeld c x)
        let s4 := ((((s3.putImage c img).holdOpen c).dropCaches c x).modCtx c (fun y => { y with
          agDirty := (restoreMarks s3.mem x img).foldl addMark y.agDirty })).pendLooks c
        match s4.badPending c with
        | some w =>
          let who := match s4.waves[w]? with
            | some y => s4.whoOf y
            | none => (0, 0)
          let idx := match s4.waves[w]? with
            | some y => y.index
            | none => 0
          .ok (s4.contextFault c faultBadResume Frame.zero who (BitVec.ofNat 64 idx))
        | none =>
          .ok (((s4.replacePending c).modCtx c (fun y => { y with st := .restoring })).enterGroups c img.wakes |>.settleRestore c)

/-- A rollback (14 R363): the context stops in place, its running state is discarded, and it stands at its latest image,
FAULTED of kind ROLLBACK. An image that is not to be had is reported as a resume from it is (14 R357; log 62). -/
def State.rollback (s : State) (c : Nat) : State :=
  match s.ctxs[c]? with
  | none => s
  | some x => match x.image with
    | none => s
    | some img =>
      let s1 := s.modCtx c (fun y => { y with
        agStop := false, agCut := none, agPend := [], agDone := [], agNew := [], agBy := [], agDirty := [], agDown := none })
      let s2 := x.agBy.foldl (fun t r => t.answerClose r img.ivl false) (s1.dropDecls c)
      let at_ := BitVec.ofNat 64 (2 ^ 32 * (img.ivl % 2 ^ 32))
      match (if s2.imageReadable x then s2.restore c img else .error ⟨0, 0, 0#64⟩) with
      | .error e => (s2.report errResume 8 x.id e.addr e.place e.launch).contextFault c faultRollback Frame.zero (0, 0) at_
      | .ok s3 => s3.contextFault c faultRollback Frame.zero (0, 0) at_

end Sys2Proof.Machine
end

