-- ==== Sys2Proof/Machine/Errors.lean ====
section
/-! DEFINITION. Hardware errors: the lifetime record, self-tests, their verdicts, replay, rollback and fences
(14 R360-R365). -/

namespace Sys2Proof.Machine

/-! ### Units (14 R360, R361, R364) -/

/-- The class code of an uncorrectable error, and whether a clean copy exists (14 R360). A unit without protected data has
none. -/
def State.errorClass (s : State) (u : HwUnit) : Option (Nat × ErrClass) :=
  match u with
  | .line pa =>
    if (paKind pa).isWs then some (5, .lost)
    else if (paKind pa).isHbm then
      match s.llc.find? (fun l => l.line == pa / 128) with
      | some l => if l.dirty then some (3, .lost) else some (2, .clean)
      | none => some (4, .lost)
    else none
  | .coreStore _ _ => some (1, .lost)
  | .cacheLine _ _ => some (2, .clean)
  | .tile _ _ _ => some (6, .lost)
  | .weightBuffer _ _ _ => some (7, .lost)
  | _ => none

/-- The class code of a correctable error (14 R360). -/
def State.correctableCode (s : State) (u : HwUnit) : Option Nat :=
  match u with
  | .line pa => if (paKind pa).isHbm && s.llcHas (pa / 128) then some 3 else (s.errorClass u).map (·.1)
  | _ => (s.errorClass u).map (·.1)

/-- The group that claims the arrays of a core. -/
def State.claimant (s : State) (core : Nat) : Option Nat := s.groups.findIdx? (fun g => s.onCore core none g && g.claim)

/-- The data in a unit of a core, as Afterglow names them: a pool line by its block, a tile or a weight-buffer line by the group that
claims the array. -/
def State.unitItem (s : State) : HwUnit → Option AgItem
  | .coreStore c (.wave w k) => if (s.waves[w]?).any (fun x => x.core == c && x.st != .retired) then some (.wavePool w k) else none
  | .coreStore c (.group g k) => if (s.groups[g]?).any (fun x => s.onCore c none x && x.cores.head? == some c) then some (.groupPool g k) else none
  | .tile c a t => (s.claimant c).bind (fun g => (s.groups[g]?).map (fun x => .tile g (x.member c) a t))
  | .weightBuffer c a l => (s.claimant c).bind (fun g => (s.groups[g]?).map (fun x => .wbuf g (x.member c) a l))
  | _ => none

/-- The context that owns the data of an item. -/
def State.itemCtx (s : State) (i : AgItem) : Option Nat := ((i.owner s).bind (fun g => s.groups[g]?)).map (·.ctx)

/-! ### The work concerned (14 R362) -/

/-- The lowest wave that runs on a core, the current one first. -/
def State.waveOn (s : State) (core : Nat) : Option Nat :=
  let here (w : Wave) : Bool := w.core == core && w.st != .retired && (match s.groups[w.group]? with
    | some g => s.onCore core none g
    | none => false)
  match s.waves[s.cur]? with
  | some w => if here w then some s.cur else s.waves.findIdx? here
  | none => s.waves.findIdx? here

/-- The wave whose instruction met an error, or that kicked or issued the work of the engine that met it; `true` for an
engine's. A line of the LLC that is dropped was met by the wave that acts (log 76). -/
def State.errorWave (s : State) (u : HwUnit) : Option Nat × Bool :=
  match u with
  | .core c => (s.waveOn c, false)
  | .cacheLine c _ => (s.waveOn c, false)
  | .line _ => (match s.waves[s.cur]? with
    | some w => if w.st != .retired then some s.cur else none
    | none => none, false)
  | .array c a => ((s.headCmd c a).map (·.2.wave), true)
  | .copyEngine c => ((s.copies.find? (fun q => q.core == c && q.st == .running)).bind (fun q =>
      if q.host.isSome then none else some q.wave), true)
  | _ => (none, false)

/-- The unit by whose work a replay is told from others: for an instruction the pipelines of a core. -/
def workUnit : HwUnit → HwUnit
  | .cacheLine c _ => .core c
  | .line _ => .core 0
  | u => u

/-! ### Self-tests (14 R361) -/

/-- Bytes that the save area needs for a group (14 R351, R361; log 12). -/
def State.groupBytes (s : State) (g : Nat) (x : Group) : Nat :=
  let waves := (x.waves.map (fun w => (AgItem.waveState w).length s.pieces + match s.waves[w]? with
    | some y => 4096 * y.granules
    | none => 0)).foldl (· + ·) 0
  (AgItem.groupState g).length s.pieces + waves + 4096 * x.blockGranules +
    (if x.claim then 4 * (2 ^ 20 + 2 * 131072) * x.cores.length else 0)

/-- Bytes of the save area of a context that parked groups hold. -/
def State.savedBytes (s : State) (c : Nat) : Nat :=
  ((entries s.groups (fun g => g.ctx == c && (g.st == .parked || g.st == .parking))).map
    (fun e => s.groupBytes e.1 e.2)).foldl (· + ·) 0

/-- A group of a core under test is parked, started or not; a context whose save area cannot hold it is stopped and saved
(14 R361). -/
def State.parkForTest (s : State) (g : Nat) : State :=
  match s.groups[g]? with
  | none => s
  | some x =>
    let size := match s.ctxs[x.ctx]? with
      | some c => c.act.saveSize.toNat
      | none => 0
    if (x.st = .running || x.st = .starting) && decide (s.savedBytes x.ctx + s.groupBytes g x ≤ size) then
      s.modGroup g (fun y => { y with st := .parking, wake := false })
    else if s.ctxs[x.ctx]?.any (fun c => c.agQueue.any (·.save) || c.agBy.any (·.save)) then s
    else s.requestClose x.ctx ⟨.device, true⟩

/-- The groups on a core. -/
def State.groupsOn (s : State) (core : Nat) : List Nat :=
  (entries s.groups (fun g => s.onCore core none g)).map (·.1)

/-- The groups on a core whose own park or save is not yet under way. -/
def State.groupsToPark (s : State) (core : Nat) : List Nat :=
  (s.groupsOn core).filter (fun g => (s.groups[g]?).any (fun x => x.st != .parking && x.st != .saving))

/-- A self-test of a unit begins: the groups of a core under test are parked (14 R361). -/
def State.beginTest (s : State) (u : HwUnit) (code : Nat) (cls : ErrClass) : State :=
  let (wave, engine) := s.errorWave u
  let parked := match unitCore u with
    | some c => s.groupsToPark c
    | none => []
  let t : SelfTest := ⟨u, code, cls, s.unitItem u, parked, wave, engine, false⟩
  parked.foldl State.parkForTest { s with tests := s.tests ++ [t] }

/-- Does a test, or a fence, of a core hold back the work of its engines? -/
def State.coreHeld (s : State) (core : Nat) : Bool := s.fenced core || s.underTest core

/-! ### Outcomes (14 R362-R364) -/

/-- A rollback for an error of a class. -/
def State.rollbackFor (s : State) (c code : Nat) : State := (s.rollback c).lifeAdd (ltRollback code)

/-- A context that met lost data in this step rolls back (14 R362, R363). -/
def State.settleRollback (s : State) (c : Nat) : State :=
  match (s.ctxs[c]?).bind (·.rollBy) with
  | some code => (s.modCtx c (fun x => { x with rollBy := none })).rollbackFor c code
  | none => s

/-- A trap that an error raises in a wave (14 R340, R362): at its next boundary, or at once as a double fault when its own instruction
met the error inside a handler. -/
def State.errorTrap (s : State) (wid : Nat) (engine : Bool) (cause : BitVec 6) (code : Nat) : State :=
  match s.waves[wid]? with
  | none => s
  | some w =>
    if w.st = .retired then s
    else if w.handler && !engine then s.takeTrap wid { cause := cause, detail := BitVec.ofNat 8 code, addr := 0#64 } false
    else s.modWave wid (fun x => { x with due := x.due ++ [⟨cause, BitVec.ofNat 8 code, 0#4, 0#6, 0#64, 0#16, 0#40⟩] })

/-- A wave's access meets lost data (02 R49; 04 R110; 14 R336, R362): rollback with a committed image, ECC with the address of the line
without one. -/
def State.meetPoison (s : State) (wid : Nat) (va : DWord) (code : Nat) : State :=
  s.takeTrap wid { cause := causeEcc, detail := BitVec.ofNat 8 code, addr := va &&& 0xFFFFFFFFFFFFFF80#64 } false

/-- An engine has met lost data: its context is rolled back, or its wave gets ECC (14 R340, R362). -/
def State.enginePoison (s : State) (c : Nat) (wid : Option Nat) (code : Nat) : State :=
  if s.hasImage c then s.modCtx c (fun x => { x with rollBy := some code })
  else match wid with
    | some w => s.errorTrap w true causeEcc code
    | none => s

/-- Data of a class is lost (14 R362): the contexts that own it are rolled back. Without an image it stays poisoned, and is met by
whoever reads it next. -/
def State.lostData (s : State) (t : SelfTest) : State :=
  let owners := match t.unit with
    | .line pa => (List.range s.ctxs.length).filter (fun c => match s.ctxs[c]? with
      | some x => (s.extentOf x pa).isSome && !x.destroyed
      | none => false)
    | _ => ((t.item.bind s.itemCtx).map (fun c => [c])).getD []
  (owners.filter s.hasImage).foldl (fun u c => u.charging c (fun v => v.rollbackFor c t.code)) s

/-- A running request of a core, of a wave if one is named. -/
def State.runningOf (s : State) (core : Nat) (wave : Option Nat) : Option Nat :=
  s.copies.findIdx? (fun q => q.core == core && q.st == .running && (match wave with
    | some w => q.host.isNone && q.wave == w
    | none => q.host.isSome))

/-- The packet that the front end is about to dispatch: the next of the ring that it serves next. -/
def State.nextPacket (s : State) : Option (Nat × Ring × List DWord) :=
  match s.nextRing with
  | none => none
  | some k => match s.rings[k]? with
    | none => none
    | some r => match s.look r with
      | .go q => some (k, r, q)
      | _ => none

/-- The context for which the front end works: of the packet that it is about to dispatch, else the one that it served last. -/
def State.frontCtx (s : State) : Option Nat :=
  match s.nextPacket with
  | some (_, r, _) => some r.ctx
  | none => s.ctxs.findIdx? (fun x => x.slot == some s.lastSlot)

/-- The front end's work is abandoned (14 R362; log 76): the packet that it is about to dispatch is consumed and completes as abandoned,
with none of its effect. -/
def State.dropPacket (s : State) : State :=
  match s.nextPacket with
  | some (k, r, q) => (s.takePacket k r q 0).completePacket k r.pkts.length stAbandoned 0 0 0#64
  | none => s

/-- The work of an engine is abandoned: a request fails, a command leaves its queue, a COPY packet fails with a detail that the spec
does not give (log 5). -/
def State.dropWork (s : State) (u : HwUnit) (wave : Option Nat) : State :=
  match u with
  | .copyEngine c => match s.runningOf c wave with
    | some k => match s.copies[k]? with
      | some q =>
        let s1 := s.modCopy k (fun y => { y with st := .failed })
        match q.host with
        | some (r, p) =>
          let (v, s2) := s1.draw
          s2.completePacket r p stCopyFail (v.toNat % 2 ^ 16) q.counted 0#64
        | none => s1
      | none => s
    | none => s
  | .array c a => match s.headCmd c a with
    | some (k, m) => (s.modArray m.core m.arr (fun x => { x with queue := x.queue.filter (· != k) })).modCmd k
        (fun y => { y with st := .done })
    | none => s
  | .frontEnd => s.dropPacket
  | _ => s

/-- The context whose work a test concerns: of the wave, of the COPY packet that runs, or the one that the front end served last. -/
def State.workCtx (s : State) (t : SelfTest) : Option Nat :=
  match t.wave with
  | some w => (s.waves[w]?).map (·.ctx)
  | none => match t.unit with
    | .copyEngine c => ((s.runningOf c none).bind (fun k => s.copies[k]?)).map (·.ctx)
    | .frontEnd => s.frontCtx
    | _ => none

/-- Three replays of the same work have met errors (14 R362): rollback, or the end of the work and REPLAY_ABORT. -/
def State.abandonWork (s : State) (t : SelfTest) : State :=
  let s0 := { s with replays := s.replays.filter (fun r => !r.isOf (workUnit t.unit) t.wave) }
  match s.workCtx t with
  | none => s0
  | some c =>
    if s.hasImage c then s0.charging c (fun v => v.rollbackFor c t.code)
    else
      let s1 := s0.charging c (fun v => v.dropWork t.unit t.wave)
      match t.wave with
      | none => s1
      | some wid => match s.waves[wid]? with
        | none => s1
        | some w => ((s1.lifeAdd (ltAbort t.code)).errorTrap wid t.boundary causeReplayAbort 0).tryEnd w.group

/-- What follows a test after an error that left no data lost (14 R362): a replay of the work, which had had no effect and is found
where it was, or its end when three replays in succession have met errors. -/
def State.replay (s : State) (t : SelfTest) : State :=
  let u := workUnit t.unit
  let n := s.replayCount u t.wave
  if 3 ≤ n then s.abandonWork t
  else { s with replays := ⟨u, t.wave, t.code, n + 1⟩ :: s.replays.filter (fun r => !r.isOf u t.wave) }

/-- The contexts of a list of groups, each once. -/
def State.contextsOf (s : State) (gs : List Nat) : List Nat :=
  (gs.filterMap (fun g => (s.groups[g]?).map (·.ctx))).eraseDups

/-- Host copies of a fenced core go on at the lowest core of its quadrant that is not fenced. -/
def State.moveHostCopies (s : State) (core : Nat) : State :=
  let dest := ((List.range 40).map (· + core / 40 * 40)).find? (fun k => k != core && !s.fenced k)
  s.allCopies (fun q => if q.core == core && q.host.isSome && !q.st.ended then { q with core := dest.getD core } else q)

/-- A failing way of the set of a line is fenced: a set with more lines than it has ways gives up one (14 R364; log 74). -/
def State.fenceWay (s : State) (line : Nat) : State :=
  let s1 := { s with llcFences := s.llcFences ++ [llcSet line] }
  if s1.llcWays line < (s1.llc.filter (fun l => llcSet l.line == llcSet line)).length then s1.llcRoom line else s1

/-- A fence (14 R364). -/
def State.fence (s : State) (t : SelfTest) : State :=
  let s1 := { s with fencedUnits := addMark s.fencedUnits t.unit }
  match t.unit with
  | .line pa =>
    if t.code = 3 ∨ t.code = 2 then s.fenceWay (pa / 128)
    else
      let hit := (List.range s.ctxs.length).filter (fun c => match s.ctxs[c]? with
        | some x => !x.destroyed && (s.extentsHeld c x).any (fun k =>
            (List.range (extSize s.mem x k / 128)).any (fun j => sameLineUnit pa (extBase s.mem x k + 128 * j)))
        | none => false)
      hit.foldl (fun u c => (u.fenceFault c).requestClose c ⟨.device, true⟩) s1
  | .frontEnd => ({ s1 with degraded := true }).report errDegraded 0 noContext 0#64 0 0
  | .link _ => s1.lifeAdd ltLane
  | u => match unitCore u with
    | some c => (s.contextsOf t.parked).foldl (fun v x => v.requestClose x ⟨.device, false⟩)
        ((s1.modCore c (fun k => { k with fenced := true })).moveHostCopies c)
    | none => s1

/-- PR_FENCED of a quadrant. -/
def State.fencedBits (s : State) (q : Nat) : Nat :=
  (List.range 40).foldl (fun b k => if s.fenced (40 * q + k) then b + 2 ^ k else b) 0

/-- The bits of PR_FENCED of every quadrant, as bytes. -/
def State.fencedBytes (s : State) : List (BitVec 8) := (List.range 4).flatMap (fun q => bytesOfNat 8 (s.fencedBits q))

/-- Measurement 4: ISAREV, FEAT and the fenced cores (19 R413; log 9). -/
def State.measureFeatures (s : State) : State :=
  { s with measurements := s.measurements.set 3 (Config.sha3 (bytesOfNat 8 0x71 ++ s.fencedBytes)) }

/-- Count the verdict of a test of a unit of some class (14 R365); links have no class. -/
def State.countVerdict (s : State) (t : SelfTest) (ok : Bool) : State :=
  if t.cls = .lane then s else s.lifeAdd (if ok then ltPass t.code else ltFail t.code)

/-- What follows the verdict of the k-th test (14 R361, R362). What a rollback writes then does not wait for other tests (log 86). -/
def State.verdict (s : State) (k : Nat) (ok : Bool) : State :=
  match s.tests[k]? with
  | none => s
  | some t =>
    let busy := match unitCore t.unit with
      | some c => (s.groupsOn c).any (fun g => (s.groups[g]?).any (fun x => x.st != .faulted))
      | none => false
    if t.verdict || busy then s
    else
      let s1 := ({ s with tests := s.tests.set k { t with verdict := true } }).countVerdict t ok
      let s2 := if ok then s1 else (s1.fence t).measureFeatures
      let s3 := t.parked.foldl State.wakeGroup s2
      let s4 := match t.cls with
        | .lane => s3
        | .lost => s3.lostData t
        | _ => s3.replay t
      { s4 with stall := false }

end Sys2Proof.Machine
end

