-- ==== Sys2Proof/Machine/Release.lean ====
section
/-! DEFINITION. Releasing boundaries and what follows them; the ends of waits that other agents bring about
(05 R130, R131; 07 R192; 09 R238-R247; 13 R317, R326). -/

namespace Sys2Proof.Machine

/-! ### What a released wave does next -/

/-- The accesses of an atomic go to their units, after the wave's own pending stores to their bytes (09 R238). -/
def State.sendAtomic (s : State) (wid : Nat) (a : Atom) : State :=
  let s1 := a.todo.foldl (fun t x => t.enterOverlapping wid x.place a.size) s
  let s2 := if a.todo.isEmpty then s1 else s1.modWave wid (fun w => { w with atoms := w.atoms ++ [a] })
  if a.acquire then
    if a.todo.isEmpty then (s2.acquire wid).proceed wid else s2.setSt wid (.wait (.acquire a.scope a.ret))
  else s2.proceed wid

/-- An arrival after its release: an overrun traps with the arrival made (09 R243); an uncorrectable error in the object's line is met
instead (04 R110). -/
def State.barrierArrive (s : State) (wid off : Nat) : State :=
  match s.waves[wid]? with
  | none => s
  | some w =>
    if s.bad.contains (.groupPool w.group (off / 128)) then
      (s.setSt wid .ready).meetPoison wid (BitVec.ofNat 64 (scratchWindow + off)) 1
    else
    let (excess, s1) := s.arriveAt w.group off
    if excess then (s1.setSt wid .ready).takeTrap wid (trapAt causeBarrier (BitVec.ofNat 64 (scratchWindow + off))) true
    else s1.proceed wid

/-- The 32 bytes of a record as the wave reads them, without a new copy in the L1. -/
def State.recordOf (s : State) (wid : Nat) (p : Place) : List (BitVec 8) × State :=
  let (bs, _, s1) := (s.beforeAccess wid p 32).load wid p 32
  (bs, s1)

/-- Does a read of a wave at a place meet a poisoned line (02 R49; 04 R110)? -/
def State.meets (s : State) (wid : Nat) (w : Wave) (p : Place) : Bool := s.poisoned wid w p && s.reachesHome wid w p

/-- ENQ after its release (13 R317): the status in the destination register. A record of a tree that a kill or the destruction of its
ring has ended is discarded (13 R321). -/
def State.enqRest (s0 : State) (wid d : Nat) (va : DWord) (p : Place) (bin : Nat) : State :=
  match s0.waves[wid]? with
  | none => s0
  | some w => match s0.groups[w.group]? with
    | none => s0
    | some g =>
      let s := s0.modTree g.tree (fun t => { t with infl := t.infl - 1 })
      let dropped := match s.trees[g.tree]? with
        | some t => t.abandoned
        | none => false
      if dropped then s.proceed wid
      else if s.meets wid w p then (s.setSt wid .ready).meetPoison wid va (s.placeClass p)
      else
      let done (t : State) (status : Nat) : State :=
        (t.modWave wid (fun x => x.addOut (.s d (BitVec.ofNat 64 status)))).proceed wid
      if 24 < g.depth + 1 then done s 2
      else match s.pickSlotOf w.ctx with
        | (none, s1) => done s1 1
        | (some slot, s1) =>
          let (bs, s2) := s1.recordOf wid p
          done ((((s2.takeSlot w.ctx slot).feWrite w.ctx (s2.slotAddr w.ctx slot) bs)).addRecord w.ctx bin slot g.tree
            (g.depth + 1) none) 0

/-- SGREWARD after its release (13 R326). -/
def State.rewardRest (s : State) (wid d : Nat) (a : DWord) : State :=
  match s.waves[wid]? with
  | none => s
  | some w => match (s.groups[w.group]?).bind (·.sib) with
    | none => s.proceed wid
    | some r =>
      let (v, s1) := s.sgReward w.ctx r (a.extractLsb' 0 32)
      (s1.modWave wid (fun x => x.addOut (.s d v))).proceed wid

/-- Has a wave that ends no work left: no copy of its own, no command (03 R81; 07 R192)? -/
def State.waveDone (s : State) (wid : Nat) : Bool :=
  !(s.copies.any (fun q => q.host.isNone && q.wave == wid && !q.st.ended)) &&
  !(s.cmds.any (fun k => k.wave == wid && k.st != .done))

/-- What the wave does after its releasing boundary. -/
def State.runCont (s : State) (wid : Nat) (k : Cont) : State :=
  match k with
  | .phase _ => (s.acquire wid).proceed wid
  | .atomic a => s.sendAtomic wid a
  | .barArrive off => s.barrierArrive wid off
  | .barWait => (s.acquire wid).proceed wid
  | .copyk q =>
    let g := match s.copies[q]? with
      | some x => x.group
      | none => 0
    ((s.modCopy q (fun x => { x with st := .queued })).noteReached g).proceed wid
  | .publ n g0 => s.setSt wid (.wait (.publ n g0))
  | .enq d va p bin => s.enqRest wid d va p bin
  | .sgreward d a => s.rewardRest wid d a
  | .endWave => s.setSt wid (.wait .ending)

/-- A releasing boundary of a scope, and what follows it (05 R130, R131): at once when nothing is pending. DESIGN CHOICE
(log 85): it waits for plain stores, not for unordered atomics of the wave that are still to be performed. -/
def State.release (s : State) (wid scope : Nat) (k : Cont) : State :=
  match s.waves[wid]? with
  | none => s
  | some w =>
    if w.pend.isEmpty then (s.releaseDone wid scope).runCont wid k
    else s.setSt wid (.wait (.release scope k))

/-- The last pending store of a boundary has entered: the boundary is complete. -/
def State.settleRelease (s : State) (wid : Nat) : State :=
  match s.waves[wid]? with
  | none => s
  | some w => match w.st with
    | .wait (.release scope k) =>
      if w.pend.isEmpty then (s.releaseDone wid scope).runCont wid k else s
    | _ => s

/-- An acquiring atomic has had all its accesses performed and its values written: the acquire follows (09 R238). -/
def State.settleAcquire (s : State) (wid : Nat) : State :=
  match s.waves[wid]? with
  | none => s
  | some w => match w.st with
    | .wait (.acquire _ ret) =>
      let open_ := w.atoms.any (fun a => a.acquire) || (match ret with
        | .none => false
        | .scalar n => w.outs.any (fun o => o.reg == (0, n))
        | .vector n => w.outs.any (fun o => o.reg == (1, n)))
      if open_ then s else (s.acquire wid).proceed wid
    | _ => s

end Sys2Proof.Machine
end

