-- ==== Sys2Proof/Machine/MemoryForms.lean ====
section
/-! DEFINITION. Loads and stores of waves: scalar, gathers and scatters, lines and blocks, the compressing store; atomics
(09 R228-R239). -/

namespace Sys2Proof.Machine

/-! ### Accesses of a form (09 R228, R229; 05 R153, R155) -/

/-- One access within one sector: the lane that makes it, its address and place, its bytes. -/
structure Touch where
  lane : Option Nat
  va : DWord
  place : Place
  n : Nat
  deriving DecidableEq, Repr

/-- Glint's checks of the accesses of a form, in order: every access is checked, and in trap mode the first that races traps
(05 R153, R155). -/
def State.glintList (s : State) (w : Wave) (atom wr : Bool) (scope : Nat) : List Touch → State × Option TrapInfo
  | [] => (s, none)
  | t :: rest => match t.place with
    | .phys pa ms =>
      let (s1, hit) := s.glintCheck w w.pc t.va pa ms atom wr scope
      let (s2, later) := s1.glintList w atom wr scope rest
      match hit with
      | some e => (s2, some { cause := causeRace, addr := t.va, lane := t.lane, ewave := e })
      | none => (s2, later)
    | _ => s.glintList w atom wr scope rest

/-- Go on with the accesses of a form unless Glint traps; what Glint has noted stays. -/
def State.unlessRace (s : State) (wid : Nat) (w : Wave) (atom wr : Bool) (scope : Nat) (l : List Touch)
    (k : State → State) : State :=
  match s.glintList w atom wr scope l with
  | (s1, some t) => s1.takeTrap wid t false
  | (s1, none) => k s1

/-- The translations that the accesses of a form make, in order (02 R72). -/
def State.walks (s : State) (wid : Nat) (acc : Acc) (l : List Touch) : State := l.foldl (fun t x => t.waveLooks wid acc x.va) s

/-- A form of which an access fails a check after others, `l`: those have made their translations (02 R72), and one of them that races is
reported first (02 R76; 09 R228). -/
def State.faultAfter (s : State) (wid : Nat) (w : Wave) (atom wr : Bool) (scope : Nat) (l : List Touch) (t : TrapInfo) :
    Except TrapInfo State :=
  let s1 := s.walks wid (if wr then .wr else .rd) l
  match s1.glintList w atom wr scope (if wr then l else l.filter (fun x => s1.reachesHome wid w x.place)) with
  | (s2, some race) => .ok (s2.takeTrap wid race false)
  | (_, none) => if l.isEmpty then .error t else .ok ((s1.failedLooks wid t).takeTrap wid t false)

/-- The bytes and side-bands of the reads of a form, in order. -/
def State.readAll (s : State) (wid : Nat) : List Touch → List (List (BitVec 8) × Side) × State
  | [] => ([], s)
  | t :: rest =>
    let (bs, sd, s1) := (s.beforeAccess wid t.place t.n).load wid t.place t.n
    let (xs, s2) := s1.readAll wid rest
    ((bs, sd) :: xs, s2)

/-- The results that a form has added, with what they become where the link to a peer that returns their bytes fails
(19 R407). -/
def Wave.addFar (old : Wave) (l : List Touch) (xs : List (List (BitVec 8) × Side))
    (put : List (List (BitVec 8) × Side) → Wave → Wave) (new : Wave) : Wave :=
  ((l.filterMap (fun t => t.place.peer)).eraseDups).foldl (fun v p =>
    let lost := put ((l.zip xs).map (fun y =>
      if y.1.place.peer = some p then (List.replicate y.1.n 0xFF#8, y.2.2) else y.2)) old
    { v with far := v.far ++ ((new.outs.drop old.outs.length).zip (lost.outs.drop old.outs.length)).map (fun y =>
        (p, y.2, y.1)) }) new

/-- The loads of a form whose places are found: their translations, Glint, poison, then the reads; `put` makes them results. -/
def State.loads (s : State) (wid : Nat) (w : Wave) (l : List Touch)
    (put : List (List (BitVec 8) × Side) → Wave → Wave) : State :=
  (s.walks wid .rd l).unlessRace wid w false false 0 (l.filter (fun t => s.reachesHome wid w t.place)) fun s1 =>
    match l.find? (fun t => s1.meets wid w t.place) with
    | some t => s1.meetPoison wid t.va (s1.placeClass t.place)
    | none =>
      let (xs, s2) := s1.readAll wid l
      s2.modWave wid (fun x => (x.addFar l xs put (put xs x)).advance)

/-- A store of a form: its address and place, its bytes, the part of a side-band that it carries. -/
structure Put where
  va : DWord
  place : Place
  bytes : List (Option (BitVec 8))
  side : Option SideStore
  deriving DecidableEq, Repr

/-- Write present bytes into the register window (04 R119). -/
def Wave.setWin (w : Wave) (off : Nat) (bytes : List (Option (BitVec 8))) : Wave :=
  (presentBytes 0 bytes).foldl (fun x b => x.setWinByte (off + b.1) b.2) (w.deliver (winReg off))

/-- A store becomes pending, or writes the register window (05 R131, 04 R119). -/
def State.putStore (s : State) (wid : Nat) (p : Put) : State :=
  let s1 := s.beforeAccess wid p.place p.bytes.length
  match p.place with
  | .reg off => s1.modWave wid (fun x => x.setWin off p.bytes)
  | .phys pa _ => s1.modWave wid (fun x => { x with
      pend := x.pend ++ [⟨p.va, p.place, p.bytes, p.side, s1.sideAlso pa p.side⟩] })
  | .scratch _ => s1.modWave wid (fun x => { x with pend := x.pend ++ [⟨p.va, p.place, p.bytes, p.side, []⟩] })

/-- The stores of a form whose places are found: their translations, Glint, then the stores in order. -/
def State.stores (s : State) (wid : Nat) (w : Wave) (l : List Touch) (ps : List Put) : State :=
  (s.walks wid .wr l).unlessRace wid w false true 0 l fun s1 => (ps.foldl (fun t p => t.putStore wid p) s1).advance wid

/-- Bytes of a value, all present. -/
def someBytes (n v : Nat) : List (Option (BitVec 8)) := (bytesOfNat n v).map some

/-! ### Scalar forms (09 R230, R231; 02 R77) -/

/-- A prefetch: a fill with no reader, where no copy would serve the wave (09 R230). -/
def State.prefetch (s0 : State) (w : Wave) (va : DWord) : State :=
  match windowOf va with
  | .none => let s := s0.lookUp (some w.core) .rd w.ctx w.gen va
    match s.waveXlat w .rd va with
    | .error _ => s
    | .ok x =>
      let served : Bool := match s.cores[w.core]? with
        | some c => c.l1.any (fun (k : L1Copy) => k.line == x.pa / 128 && stampReached k.fill w.acq)
        | none => true
      if l1Holds x.pa x.ms && !served && !s.linePoisoned (x.pa / 128) then s.l1Fill w.core (x.pa / 128) [] else s
  | _ => s0

def execSld (sw : BitVec 1) (x a : BitVec 6) (i : BitVec 12) (s : State) : Step :=
  s.issue (.sld sw x a i) (formRI sw x a) fun wid w =>
    let va := w.s a.toNat + w.immValue i
    if va.toNat % 8 ≠ 0 then .error (trapAt causeMisalign va)
    else if x = 0#6 then .ok ((s.prefetch w va).advance wid)
    else match s.checkAccess w .rd false 8 va 8 with
      | .error t => .error t
      | .ok p => .ok (s.loads wid w [⟨none, va, p, 8⟩] (fun xs y =>
          y.addOut (.s x.toNat (BitVec.ofNat 64 (natOfBytes ((xs.head?.map (·.1)).getD []))))))

def execSst (sw : BitVec 1) (x a : BitVec 6) (i : BitVec 12) (s : State) : Step :=
  s.issue (.sst sw x a i) { sw := sw, src := [.s x.toNat, .s a.toNat], imm := true } fun wid w =>
    let va := w.s a.toNat + w.immValue i
    match s.checkAccess w .wr false 8 va 8 with
    | .error t => .error t
    | .ok p => .ok (s.stores wid w [⟨none, va, p, 8⟩] [⟨va, p, someBytes 8 (w.s x.toNat).toNat, none⟩])

/-! ### Gathers and scatters (09 R232) -/

/-- The addresses of the active lanes. -/
def Wave.gatherAddrs (w : Wave) (sb vo : Nat) : List (Nat × DWord) :=
  w.activeLanes.map (fun l => (l, w.s sb + (w.v vo l).signExtend 64))

/-- The accesses of lanes whose places are found. -/
def touches (n : Nat) (ps : List (Nat × DWord × Place)) : List Touch := ps.map (fun p => ⟨some p.1, p.2.1, p.2.2, n⟩)

/-- A line made of the values that the lanes of a list read. -/
def lanesLine (ps : List (Nat × DWord × Place)) (xs : List (List (BitVec 8) × Side)) (f : Nat → Word) : Line :=
  (ps.zip xs).foldl (fun d y => setLane d y.1.1 (f (natOfBytes y.2.1))) 0#1024

/-- A gather of elements of `n` bytes; `f` extends an element to a lane. -/
def State.gather (s : State) (i : Instr) (sw : BitVec 1) (v o : BitVec 8) (b : BitVec 5) (n : Nat) (f : Nat → Word) : Step :=
  s.issue i { sw := sw, src := [.s b.toNat, .v o.toNat], dst := [.v v.toNat] } fun wid w =>
    let chk (va : DWord) : Except TrapInfo Place := s.checkAccess w .rd false n va n
    match checkLanes chk (w.gatherAddrs b.toNat o.toNat) with
    | .error t => s.faultAfter wid w false false 0 (touches n (lanesBefore chk (w.gatherAddrs b.toNat o.toNat))) t
    | .ok ps => .ok (s.loads wid w (touches n ps) (fun xs y => y.addOut (.v v.toNat (w.m 0) (lanesLine ps xs f) Side.none)))

/-- A scatter of the low `n` bytes of each lane. -/
def State.scatter (s : State) (i : Instr) (sw : BitVec 1) (v o : BitVec 8) (b : BitVec 5) (n : Nat) : Step :=
  s.issue i { sw := sw, src := [.v v.toNat, .s b.toNat, .v o.toNat] } fun wid w =>
    let chk (va : DWord) : Except TrapInfo Place := s.checkAccess w .wr false n va n
    match checkLanes chk (w.gatherAddrs b.toNat o.toNat) with
    | .error t => s.faultAfter wid w false true 0 (touches n (lanesBefore chk (w.gatherAddrs b.toNat o.toNat))) t
    | .ok ps => .ok (s.stores wid w (touches n ps) (ps.map (fun p =>
        ⟨p.2.1, p.2.2, someBytes n (w.v v.toNat p.1).toNat, none⟩)))

/-- Extensions of an element to a lane. -/
def laneI8 (x : Nat) : Word := (BitVec.ofNat 8 x).signExtend 32
def laneI16 (x : Nat) : Word := (BitVec.ofNat 16 x).signExtend 32
def laneZ (x : Nat) : Word := BitVec.ofNat 32 x

def execVldI8 (sw : BitVec 1) (v o : BitVec 8) (b : BitVec 5) (s : State) : Step :=
  s.gather (.vldI8 sw v o b) sw v o b 1 laneI8
def execVldZ8 (sw : BitVec 1) (v o : BitVec 8) (b : BitVec 5) (s : State) : Step :=
  s.gather (.vldZ8 sw v o b) sw v o b 1 laneZ
def execVldI16 (sw : BitVec 1) (v o : BitVec 8) (b : BitVec 5) (s : State) : Step :=
  s.gather (.vldI16 sw v o b) sw v o b 2 laneI16
def execVldZ16 (sw : BitVec 1) (v o : BitVec 8) (b : BitVec 5) (s : State) : Step :=
  s.gather (.vldZ16 sw v o b) sw v o b 2 laneZ
def execVld32 (sw : BitVec 1) (v o : BitVec 8) (b : BitVec 5) (s : State) : Step :=
  s.gather (.vld32 sw v o b) sw v o b 4 laneZ
def execVst8 (sw : BitVec 1) (v o : BitVec 8) (b : BitVec 5) (s : State) : Step :=
  s.scatter (.vst8 sw v o b) sw v o b 1
def execVst16 (sw : BitVec 1) (v o : BitVec 8) (b : BitVec 5) (s : State) : Step :=
  s.scatter (.vst16 sw v o b) sw v o b 2
def execVst32 (sw : BitVec 1) (v o : BitVec 8) (b : BitVec 5) (s : State) : Step :=
  s.scatter (.vst32 sw v o b) sw v o b 4

/-! ### Lines and blocks (09 R233, R234) -/

/-- The places of the active lanes of a line (09 R233). -/
def State.linePlaces (s : State) (w : Wave) (acc : Acc) (va : DWord) : Except TrapInfo (List (Nat × DWord × Place)) :=
  if va.toNat % 128 ≠ 0 then .error (trapAt causeMisalign va)
  else checkLanes (fun a => s.placeOf w acc false a (List.range 4))
    (w.activeLanes.map (fun l => (l, va + BitVec.ofNat 64 (4 * l))))

/-- The places of the active lanes of a line before the first that fails. -/
def State.lineBefore (s : State) (w : Wave) (acc : Acc) (va : DWord) : List (Nat × DWord × Place) :=
  if va.toNat % 128 ≠ 0 then []
  else lanesBefore (fun a => s.placeOf w acc false a (List.range 4))
    (w.activeLanes.map (fun l => (l, va + BitVec.ofNat 64 (4 * l))))

/-- Load a line, with its side-band (VLDB) or without. -/
def State.loadLine (s : State) (i : Instr) (sw : BitVec 1) (x : BitVec 8) (a : BitVec 6) (block : Bool) : Step :=
  s.issue i { sw := sw, src := [.s a.toNat], dst := [.v x.toNat] } fun wid w =>
    match s.linePlaces w .rd (w.s a.toNat) with
    | .error t => s.faultAfter wid w false false 0 (touches 4 (s.lineBefore w .rd (w.s a.toNat))) t
    | .ok ps => .ok (s.loads wid w (touches 4 ps) (fun xs y =>
        y.addOut (.v x.toNat (w.m 0) (lanesLine ps xs laneZ)
          (if block then (xs.head?.map (·.2)).getD Side.none else Side.none))))

/-- The bytes of a line that lanes of a mask store. -/
def laneBytes (mask : Word) (d : Line) : List (Option (BitVec 8)) :=
  (List.range 128).map (fun k => if mask.getLsbD (k / 4) then some (lineByte d k) else none)

/-- The place of byte 0 of a line from the place of lane `l`. -/
def Place.back (p : Place) (n : Nat) : Place :=
  match p with
  | .phys pa ms => .phys (pa - n) ms
  | .scratch o => .scratch (o - n)
  | .reg o => .reg (o - n)

/-- The whole side-band of a register as a store carries it. -/
def VReg.sideStore (v : VReg) : SideStore := ⟨v.side.band, 0xFFFF#16, v.side.fmt⟩

/-- Store a line, with its side-band (VSTB) or without. -/
def State.storeLine (s : State) (i : Instr) (sw : BitVec 1) (x : BitVec 8) (a : BitVec 6) (block : Bool) : Step :=
  s.issue i { sw := sw, src := [.v x.toNat, .s a.toNat] } fun wid w =>
    match s.linePlaces w .wr (w.s a.toNat) with
    | .error t => s.faultAfter wid w false true 0 (touches 4 (s.lineBefore w .wr (w.s a.toNat))) t
    | .ok ps =>
      let v := w.vreg x.toNat
      let puts : List Put := match ps with
        | [] => []
        | (l, _, p) :: _ => [⟨w.s a.toNat, p.back (4 * l), laneBytes (w.m 0) v.data,
            if block then some v.sideStore else none⟩]
      .ok (s.stores wid w (touches 4 ps) puts)

def execVldl (sw : BitVec 1) (x : BitVec 8) (a : BitVec 6) (s : State) : Step := s.loadLine (.vldl sw x a) sw x a false
def execVstl (sw : BitVec 1) (x : BitVec 8) (a : BitVec 6) (s : State) : Step := s.storeLine (.vstl sw x a) sw x a false
def execVldb (sw : BitVec 1) (x : BitVec 8) (a : BitVec 6) (s : State) : Step := s.loadLine (.vldb sw x a) sw x a true
def execVstb (sw : BitVec 1) (x : BitVec 8) (a : BitVec 6) (s : State) : Step := s.storeLine (.vstb sw x a) sw x a true

/-! ### Atomics (09 R236-R239) -/

/-- Perform one access of an atomic now, after the wave's own earlier accesses to its bytes (09 R238). -/
def State.performNow (s : State) (wid : Nat) (a : Atom) (x : AtomAccess) : DWord × State :=
  let s1 := s.showBytes wid x.place a.size
  match s1.waves[wid]? with
  | none => (0#64, s1)
  | some w => s1.performAccess wid w a x

/-- The elements that VSTC stores: lane and address (09 R235). -/
def vstcElems (lanes : List Nat) (base limit : DWord) : List (Nat × DWord) :=
  ((lanes.zipIdx).map (fun y => (y.1, base + BitVec.ofNat 64 (4 * y.2)))).filter
    (fun e => decide (e.2.toNat < limit.toNat) && decide (base.toNat ≤ e.2.toNat))

def execVstc (sw : BitVec 1) (x : BitVec 8) (a b : BitVec 6) (s : State) : Step :=
  s.issue (.vstc sw x a b) { sw := sw, src := [.v x.toNat, .s a.toNat, .s b.toNat] } fun wid w =>
    let va := w.s a.toNat
    if va.toNat % 8 ≠ 0 then .error (trapAt causeMisalign va)
    else if w.activeLanes.isEmpty then .ok (s.advance wid)
    else match s.checkAccess w .wr true 8 va 8 with
      | .error t => .error t
      | .ok p => .ok ((s.waveLooks wid .wr va).unlessRace wid w true true 4 [⟨none, va, p, 8⟩] fun s1 =>
          if s1.poisoned wid w p then s1.meetPoison wid va (s1.placeClass p)
          else
            let acc : AtomAccess := ⟨0, va, p, BitVec.ofNat 64 (4 * w.activeLanes.length), 0#64⟩
            let (old, s2) := s1.performNow wid ⟨.add, true, 4, false, w.pc, .none, []⟩ acc
            match s2.waves[wid]? with
            | none => s2
            | some w2 =>
              let els := vstcElems w.activeLanes (old &&& 0xFFFFFFFFFFFFFFFC#64) (w.s b.toNat)
              match checkLanes (fun e => s2.checkAccess w2 .wr false 4 e 4) els with
              | .error t =>
                let before := touches 4 (lanesBefore (fun e => s2.checkAccess w2 .wr false 4 e 4) els)
                ((s2.walks wid .wr before).failedLooks wid t).unlessRace wid w2 false true 0 before fun s3 => s3.takeTrap wid t false
              | .ok ps => s2.stores wid w2 (touches 4 ps) (ps.map (fun q =>
                  ⟨q.2.1, q.2.2, someBytes 4 (w.v x.toNat q.1).toNat, none⟩)))

/-- Sources of an atomic in the order of its syntax, the implicit new value of ACAS after the register it follows. -/
def atomSources (cas vec : Bool) (x a : BitVec 6) : List RegRef :=
  if vec then [.v x.toNat, .s a.toNat, .v (x.toNat + 1)] ++ (if cas then [.v (x.toNat + 2)] else [])
  else .s x.toNat :: ((if cas then [.s (x.toNat + 1)] else []) ++ [.s a.toNat])

/-- The addresses of the active lanes of a vector atomic (09 R236). -/
def Wave.atomLanes (w : Wave) (x a : BitVec 6) : List (Nat × DWord) :=
  w.activeLanes.map (fun l => (l, w.s a.toNat + (w.v (x.toNat + 1) l).signExtend 64))

/-- The accesses of an atomic with their places, lane by lane, or the trap of its checks (09 R236, R238 step 1). -/
def State.atomAccesses (s : State) (w : Wave) (vec wide : Bool) (x a : BitVec 6) : Except TrapInfo (List AtomAccess) :=
  if vec then
    match checkLanes (fun va => s.checkAccess w .wr true 4 va 4) (w.atomLanes x a) with
    | .error t => .error t
    | .ok ps => .ok (ps.map (fun p => ⟨p.1, p.2.1, p.2.2, (w.v x.toNat p.1).setWidth 64, (w.v (x.toNat + 2) p.1).setWidth 64⟩))
  else
    let n := if wide then 8 else 4
    match s.checkAccess w .wr true n (w.s a.toNat) n with
    | .error t => .error t
    | .ok p => .ok [⟨0, w.s a.toNat, p, w.s x.toNat, w.s (x.toNat + 1)⟩]

/-- An atomic (09 R236-R239): checks, Glint, then the release of .REL, or the accesses at once. DESIGN CHOICE (log 85):
Glint's check comes when the word issues, and records a write for every atomic, one of ACAS that then fails too. -/
def State.atomic (s : State) (i : Instr) (op : AtomOp) (sw : BitVec 1) (o : BitVec 2) (c : BitVec 3) (v w : BitVec 1)
    (x a : BitVec 6) : Step :=
  let vec := v == 1#1
  let wide := w == 1#1
  let dst : RegRef := if vec then .v x.toNat else .s x.toNat
  s.issue i { sw := sw, src := atomSources (op == .cas) vec x a, dst := [dst] } fun wid y =>
    let n := if wide then 8 else 4
    let lane (k : Nat) : Option Nat := if vec then some k else none
    match s.atomAccesses y vec wide x a with
    | .error t => s.faultAfter wid y true true c.toNat (if vec then
        touches 4 (lanesBefore (fun va => s.checkAccess y .wr true 4 va 4) (y.atomLanes x a)) else []) t
    | .ok l =>
      let ts : List Touch := l.map (fun z => ⟨lane z.lane, z.va, z.place, n⟩)
      .ok ((s.walks wid .wr ts).unlessRace wid y true true c.toNat ts fun s1 =>
        match l.find? (fun z => s1.poisoned wid y z.place) with
        | some z => s1.meetPoison wid z.va (s1.placeClass z.place)
        | none =>
          let ret : AtomRet := if vec then .vector x.toNat else if x = 0#6 then .none else .scalar x.toNat
          let atom : Atom := ⟨op, wide, c.toNat, o.getLsbD 1, y.pc, ret, l⟩
          if o.getLsbD 0 then s1.release wid c.toNat (.atomic atom) else s1.sendAtomic wid atom)

def execAadd (sw : BitVec 1) (o : BitVec 2) (c : BitVec 3) (v w : BitVec 1) (x a : BitVec 6) (s : State) : Step :=
  s.atomic (.aadd sw o c v w x a) .add sw o c v w x a
def execAaddF32 (sw : BitVec 1) (o : BitVec 2) (c : BitVec 3) (v : BitVec 1) (x a : BitVec 6) (s : State) : Step :=
  s.atomic (.aaddF32 sw o c v x a) .addF32 sw o c v 0#1 x a
def execAand (sw : BitVec 1) (o : BitVec 2) (c : BitVec 3) (v w : BitVec 1) (x a : BitVec 6) (s : State) : Step :=
  s.atomic (.aand sw o c v w x a) .and sw o c v w x a
def execAor (sw : BitVec 1) (o : BitVec 2) (c : BitVec 3) (v w : BitVec 1) (x a : BitVec 6) (s : State) : Step :=
  s.atomic (.aor sw o c v w x a) .or sw o c v w x a
def execAxor (sw : BitVec 1) (o : BitVec 2) (c : BitVec 3) (v w : BitVec 1) (x a : BitVec 6) (s : State) : Step :=
  s.atomic (.axor sw o c v w x a) .xor sw o c v w x a
def execAmin (sw : BitVec 1) (o : BitVec 2) (c : BitVec 3) (v w : BitVec 1) (x a : BitVec 6) (s : State) : Step :=
  s.atomic (.amin sw o c v w x a) .min sw o c v w x a
def execAmax (sw : BitVec 1) (o : BitVec 2) (c : BitVec 3) (v w : BitVec 1) (x a : BitVec 6) (s : State) : Step :=
  s.atomic (.amax sw o c v w x a) .max sw o c v w x a
def execAminu (sw : BitVec 1) (o : BitVec 2) (c : BitVec 3) (v w : BitVec 1) (x a : BitVec 6) (s : State) : Step :=
  s.atomic (.aminu sw o c v w x a) .minu sw o c v w x a
def execAmaxu (sw : BitVec 1) (o : BitVec 2) (c : BitVec 3) (v w : BitVec 1) (x a : BitVec 6) (s : State) : Step :=
  s.atomic (.amaxu sw o c v w x a) .maxu sw o c v w x a
def execAxchg (sw : BitVec 1) (o : BitVec 2) (c : BitVec 3) (v w : BitVec 1) (x a : BitVec 6) (s : State) : Step :=
  s.atomic (.axchg sw o c v w x a) .xchg sw o c v w x a
def execAcas (sw : BitVec 1) (o : BitVec 2) (c : BitVec 3) (v w : BitVec 1) (x a : BitVec 6) (s : State) : Step :=
  s.atomic (.acas sw o c v w x a) .cas sw o c v w x a

end Sys2Proof.Machine
end

