-- ==== Sys2Proof/Machine/Sync.lean ====
section
/-! DEFINITION. Phases, barrier forms, copy kicks and queries, publish, the refresh query of the weight store
(09 R240-R248). -/

namespace Sys2Proof.Machine

/-! ### Phases and barriers (09 R240-R244) -/

def execPhase (sw : BitVec 1) (c : BitVec 3) (s : State) : Step :=
  s.issue (.phase sw c) { sw := sw } fun wid _ => .ok (s.release wid c.toNat (.phase c.toNat))

/-- The offset checks of a barrier form (09 R241), which meets an uncorrectable error in the object's line (04 R110). -/
def State.barrierAt (s : State) (w : Wave) (cause : BitVec 6) (off : DWord) : Except TrapInfo Nat :=
  let addr := BitVec.ofNat 64 scratchWindow + off
  if off.toNat % 16 ≠ 0 then .error (trapAt causeMisalign addr)
  else if s.scratchSize w < off.toNat + 16 then .error { cause := cause, kind := kindNotMapped, addr := addr }
  else if s.bad.contains (.groupPool w.group (off.toNat / 128)) then .error (eccAt addr 1)
  else .ok off.toNat

/-- BAR.INIT's step of the object's order (09 R242). -/
def Barrier.init (b : Barrier) (x : DWord) : Barrier :=
  { ovr := false, arr := 0, expArr := (x.extractLsb' 0 13).toNat, phase := b.phase, landed := 0,
    expBytes := (x.extractLsb' 32 32).toNat }

/-- The wave's own earlier accesses to an object are performed before it acts on it. -/
def State.settleObject (s : State) (wid off : Nat) : State := s.showBytes wid (.scratch off) 16

def execBarInit (sw : BitVec 1) (a b : BitVec 6) (s : State) : Step :=
  s.issue (.barInit sw a b) { sw := sw, src := [.s a.toNat, .s b.toNat] } fun wid w =>
    match s.barrierAt w causeXlateWr (w.s a.toNat) with
    | .error t => .error t
    | .ok off => .ok ((((s.settleObject wid off).modGroup w.group (fun g =>
        g.setBarrier off ((g.barrier off).init (w.s b.toNat)))).noteReached w.group).advance wid)

def execBarArrive (sw : BitVec 1) (a : BitVec 6) (s : State) : Step :=
  s.issue (.barArrive sw a) { sw := sw, src := [.s a.toNat] } fun wid w =>
    match s.barrierAt w causeXlateWr (w.s a.toNat) with
    | .error t => .error t
    | .ok off => .ok (s.release wid 1 (.barArrive off))

def execBarWait (sw : BitVec 1) (a b : BitVec 6) (s : State) : Step :=
  s.issue (.barWait sw a b) { sw := sw, src := [.s a.toNat, .s b.toNat] } fun wid w =>
    match s.barrierAt w causeXlateRd (w.s a.toNat) with
    | .error t => .error t
    | .ok off =>
      let p := (w.s b.toNat).extractLsb' 0 32
      if phaseReached (s.phaseOf w.group off) p then .ok (s.release wid 1 .barWait)
      else .ok (s.modWave wid (fun y => { y with st := .blocked off p, reached := false }))

/-! ### Refresh query (09 R248; 02 R65) -/

/-- The word of WSQ for bank group `g` at position `pos` of the cycle. -/
def wsqWord (g pos : Nat) : DWord :=
  let next := (512 * g + 8192 - pos) % 8192
  let wait := if 512 * g ≤ pos ∧ pos ≤ 512 * g + 63 then 512 * g + 64 - pos else 0
  BitVec.ofNat 64 (2 ^ 63 + 2 ^ 48 * next + 2 ^ 32 * wait + 2 ^ 16 * g + pos)

/-- What WSQ returns for an address, by the WSCLK of the quadrant of the weight store that holds it. DESIGN CHOICE (log 78): the query
reaches the weight store at issue. -/
def State.wsQuery (s : State) (w : Wave) (va : DWord) : Except TrapInfo DWord :=
  match windowOf va with
  | .none => match s.waveXlat w .rd va with
    | .error t => .error t
    | .ok x =>
      if (paKind x.pa).isWs then
        let c := match s.quads[memQuad x.pa]? with
          | some q => q.clock
          | none => 0
        .ok (wsqWord (bankGroup x.pa) (c % 8192))
      else .ok 0#64
  | _ => .ok 0#64

def execWsq (sw : BitVec 1) (x a : BitVec 6) (s : State) : Step :=
  s.issue (.wsq sw x a) (formR sw x a) fun wid w =>
    match s.wsQuery w (w.s a.toNat) with
    | .error t => .error t
    | .ok v => .ok ((s.waveLooks wid .rd (w.s a.toNat)).modWave wid (fun y => (y.addOut (.s x.toNat v)).advance))

/-! ### Copy kicks, queries, publish (09 R245-R247) -/

/-- Has the kick queue of a core, or the command queue of one of its arrays, a free entry (03 R80; 10 R258)? -/
def State.hasEntry (s : State) (core : Nat) (array : Option Nat) : Bool :=
  match array with
  | none => decide (s.queueUsed core < 64)
  | some a => !s.queueFull core a

/-- A form that does not issue while an engine's queue is full, after the checks that come before its own (09 R245,
10 R258): the wave waits for an entry at the boundary before it. -/
def State.issueIf (s : State) (i : Instr) (f : Form) (array : Option Nat) (body : Nat → Wave → Except TrapInfo State) :
    Step :=
  match s.waves[s.cur]? with
  | none => .fault .noWave
  | some w =>
    if (s.refuses w i f).isNone && !s.hasEntry w.core array then .next (s.setSt s.cur (.wait (.entry array)))
    else s.issue i f body

/-- A COPY trap at an instruction (09 R245, R247). -/
def copyTrap (detail : Nat) (addr : DWord) : TrapInfo := { cause := causeCopy, detail := BitVec.ofNat 8 detail, addr := addr }

/-- Before COPYK reads its descriptor and the extension block that it names, the wave's own atomics on their bytes are performed
(03 R79). -/
def State.showDescriptor (s : State) (wid : Nat) (w : Wave) (off : DWord) : State :=
  let s1 := s.orderAtoms wid (.scratch off.toNat) 128
  s1.orderAtoms wid (.scratch (CopyDesc.of (quadsOf (s1.scratchBytes w off.toNat 128) 16)).extoff) 128

/-- The bytes of the scratchpad that COPYK reads: its descriptor, and the extension block that it names (03 R79). -/
def State.descriptorRanges (s : State) (w : Wave) (off : DWord) : List (Nat × Nat) :=
  let size := s.scratchSize w
  if size < off.toNat + 8 then []
  else
    let len := if bitsOf (qAt (quadsOf (s.scratchBytes w off.toNat 8) 1) 0) 0 2 = 1 then 128 else 64
    if size < off.toNat + len then [(off.toNat, 8)]
    else
      let d := CopyDesc.of (quadsOf (s.scratchBytes w off.toNat len) (len / 8))
      (off.toNat, len) :: (if d.hasExt && decide (d.extoff + 128 ≤ size) then [(d.extoff, 128)] else [])

/-- An uncorrectable error in a line of them (04 R110). -/
def State.descriptorBad (s : State) (w : Wave) (off : DWord) : Option TrapInfo :=
  ((s.descriptorRanges w off).findSome? (fun r => s.badScratch w.group r.1 r.2)).map (fun o => eccAt (scrAddr o) 1)

def execCopyk (sw : BitVec 1) (a : BitVec 6) (s : State) : Step :=
  s.issueIf (.copyk sw a) { sw := sw, src := [.s a.toNat] } none fun wid w =>
    let s1 := s.showDescriptor wid w (w.s a.toNat)
    match s1.descriptorBad w (w.s a.toNat), s1.readDescriptor w (w.s a.toNat) with
    | some t, _ => .error t
    | none, .error k => .error (copyTrap k (BitVec.ofNat 64 scratchWindow + w.s a.toNat))
    | none, .ok (l, ext) =>
      let q := CopyReq.fresh w.core w.ctx w.group wid none l ext .reserved
      .ok (({ s1 with copies := s1.copies ++ [q] }).release wid 2 (.copyk s1.copies.length))

def execCpq (sw : BitVec 1) (d a : BitVec 6) (s : State) : Step :=
  s.issue (.cpq sw d a) (formR sw d a) fun wid w =>
    .ok (s.modWave wid (fun y => (y.addOut (.s d.toNat (s.copyQuery w ((w.s a.toNat).extractLsb' 0 16)))).advance))

def execPubl (sw : BitVec 1) (n : BitVec 8) (s : State) : Step :=
  s.issue (.publ sw n) { sw := sw } fun wid w =>
    let g0 := s.pbGen w.ctx n.toNat
    match s.pbPoison w.ctx n.toNat with
    | some l => .ok ((s.readPb w.ctx n.toNat).meetPoison wid 0#64 (s.lineClass l))
    | none =>
    if !s.pbEnabled w.ctx n.toNat then .error (copyTrap 0x0F (n.setWidth 64))
    else if w.gen n.toNat ≠ g0 then .error (copyTrap 0x10 (n.setWidth 64))
    else .ok ((s.readPb w.ctx n.toNat).release wid 4 (.publ n.toNat g0))

end Sys2Proof.Machine
end

