-- ==== Sys2Proof/Machine/MatrixForms.lean ====
section
/-! DEFINITION. The matrix instructions: MMA, the accumulator forms, MWAIT (10 R251-R263). -/

namespace Sys2Proof.Machine

/-! ### MMA (10 R256-R258) -/

/-- The feature that format codes of a matrix form belong to (15 R372). -/
def mx4Feature (codes : List (BitVec 4)) : Option Nat := if codes.any (fun f => f == 10#4 || f == 12#4) then some 2 else none

def execMma (sw : BitVec 1) (p q : BitVec 4) (c : BitVec 3) (z : BitVec 1) (a : BitVec 6) (s : State) : Step :=
  s.issueIf (.mma sw p q c z a)
    { sw := sw, src := (List.range 4).map (fun k => .s (a.toNat + k)), feat := mx4Feature [p, q] }
    (some (c.toNat / 2)) fun wid w =>
      let r (k : Nat) : DWord := w.s (a.toNat + k)
      let d := mmaDesc c.toNat (z == 1#1) p.toNat q.toNat (r 0) (r 1) (r 2) (r 3)
      if !s.hasClaim w then .error (matrixTrap 0x01 0#64)
      else if !mmaRegsZero (r 0) (r 1) (r 2) (r 3) then .error (matrixTrap 0x02 0#64)
      else match mmaCheck (s.scratchSize w) d with
        | some (k, addr) => .error (matrixTrap k addr)
        | none =>
          let cmd : MCmd := ⟨w.core, d, .mma, .queued, 0, wid, w.group, w.ctx, false⟩
          .ok (((s.enterRows wid d).enqueueCmd cmd (c.toNat / 2)).advance wid)

/-! ### Accumulator forms (10 R259-R262) -/

/-- The bits of S(B) that a form requires to be 0: all above ROWS, and RM and SAT outside ACCCVT (10 R260). -/
def accBitsZero (cvt : Bool) (b : DWord) : Bool := bitsOf b 44 20 = 0 && (cvt || bitsOf b 41 3 = 0)

/-- The lines of `n` bytes that start at a line address. -/
def rowLines (va : DWord) (n : Nat) : List (DWord × Nat) :=
  (List.range ((n + 127) / 128)).map (fun k => (va + BitVec.ofNat 64 (128 * k), min 128 (n - 128 * k)))

/-- The sectors of a stored line, for Glint. -/
def lineSectors (y : DWord × Nat × Place) : List Touch :=
  (List.range (y.2.1 / 32)).map (fun k => ⟨none, y.1 + BitVec.ofNat 64 (32 * k), y.2.2.plus (32 * k), 32⟩)

/-- The places of the lines of a list. -/
def State.placesOf (s : State) (w : Wave) (acc : Acc) : List (DWord × Nat) → Except TrapInfo (List (DWord × Nat × Place))
  | [] => .ok []
  | (va, n) :: rest => match s.placeOf w acc false va (List.range n) with
    | .error t => .error t
    | .ok p => match s.placesOf w acc rest with
      | .error t => .error t
      | .ok ps => .ok ((va, n, p) :: ps)

/-- The lines of a list before the first that fails a check. -/
def State.linesBefore (s : State) (w : Wave) (acc : Acc) : List (DWord × Nat) → List (DWord × Nat × Place)
  | [] => []
  | (va, n) :: rest => match s.placeOf w acc false va (List.range n) with
    | .error _ => []
    | .ok p => (va, n, p) :: s.linesBefore w acc rest

/-- The places of rows `r` on, each checked as one access whose trap names the row (10 R260). -/
def State.rowPlaces (s : State) (w : Wave) (acc : Acc) (a b : DWord) (bytes : Nat) (r : Nat) :
    Nat → Except TrapInfo (List (List (DWord × Nat × Place)))
  | 0 => .ok []
  | n + 1 =>
    let va := rowAddr a b r
    if va.toNat % 128 ≠ 0 then .error (trapAt causeMisalign va)
    else match s.placesOf w acc (rowLines va bytes) with
      | .error t => .error { t with addr := va }
      | .ok ps => match s.rowPlaces w acc a b bytes (r + 1) n with
        | .error t => .error t
        | .ok rest => .ok (ps :: rest)

/-- The lines of the rows before the first that fails a check, row by row. -/
def State.rowsBefore (s : State) (w : Wave) (acc : Acc) (a b : DWord) (bytes : Nat) (r : Nat) :
    Nat → List (List (DWord × Nat × Place))
  | 0 => []
  | n + 1 =>
    let va := rowAddr a b r
    if va.toNat % 128 ≠ 0 then []
    else match s.placesOf w acc (rowLines va bytes) with
      | .error _ => []
      | .ok ps => ps :: s.rowsBefore w acc a b bytes (r + 1) n

/-- The checks of a form that moves rows (10 R257, R260). -/
def State.accCheck (s : State) (w : Wave) (cvt : Bool) (acc : Acc) (a b : DWord) (bytes : Nat) :
    Except TrapInfo (List (List (DWord × Nat × Place))) :=
  if !s.hasClaim w then .error (matrixTrap 0x01 0#64)
  else if !accBitsZero cvt b then .error (matrixTrap 0x02 0#64)
  else if rowsOf b = 0 ∨ 256 < rowsOf b then .error (matrixTrap 0x03 0#64)
  else s.rowPlaces w acc a b bytes 0 (rowsOf b)

/-- A queued accumulator command. -/
def accCmd (wid : Nat) (w : Wave) (kind : MKind) (acc : Nat) (a b : DWord) : MCmd :=
  ⟨w.core, mmaDesc acc false 0 0 0#64 a b 0#64, kind, .queued, 0, wid, w.group, w.ctx, false⟩

def execAccz (sw : BitVec 1) (c : BitVec 3) (s : State) : Step :=
  s.issueIf (.accz sw c) { sw := sw } (some (c.toNat / 2)) fun wid w =>
    if !s.hasClaim w then .error (matrixTrap 0x01 0#64)
    else .ok ((s.enqueueCmd (accCmd wid w .accz c.toNat 0#64 0#64) (c.toNat / 2)).advance wid)

/-- Source lines are translated, what the wave has stored to them enters, and a register that it reads holds its earlier results (02 R72;
10 R258, R261; 04 R119). -/
def State.enterLines (s : State) (wid : Nat) (l : List (DWord × Nat × Place)) : State :=
  l.foldl (fun t y => (t.waveLooks wid .rd y.1).showBytes wid y.2.2 y.2.1) s

def execAccld (sw : BitVec 1) (c : BitVec 3) (a b : BitVec 6) (s : State) : Step :=
  s.issueIf (.accld sw c a b) { sw := sw, src := [.s a.toNat, .s b.toNat] }
    (some (c.toNat / 2)) fun wid w =>
      match s.accCheck w false .rd (w.s a.toNat) (w.s b.toNat) 512 with
      | .error t =>
        let before := if t.cause = causeMatrix then [] else (s.rowsBefore w .rd (w.s a.toNat) (w.s b.toNat) 512 0 (rowsOf (w.s b.toNat))).flatten
        if before.isEmpty then .error t
        else
          let s1 := before.foldl (fun u y => u.waveLooks wid .rd y.1) s
          .ok ((s1.failedLooks wid t).takeTrap wid t false)
      | .ok rows => .ok (((s.enterLines wid rows.flatten).enqueueCmd
          (accCmd wid w .accld c.toNat (w.s a.toNat) (w.s b.toNat)) (c.toNat / 2)).advance wid)

/-- Row `r` of a tile of the wave's core, as FP32 values. DESIGN CHOICE (log 78): of the values that 05 R147 allows while a command
runs, every element is read as the last completed pass left it. -/
def State.tileRow (s : State) (w : Wave) (acc r : Nat) : List Nat :=
  match s.arrayOf w.core (acc / 2) with
  | some u => (List.range 128).map (rowElem (u.row (acc % 2) r))
  | none => List.replicate 128 0

/-- What a row becomes in memory: its bytes, and the side-band part of its first line (10 R262). -/
structure RowImage where
  bytes : List (BitVec 8)
  side : Option SideStore
  deriving DecidableEq, Repr

/-- A row as FP32 bits. -/
def rowFp32 (xs : List Nat) : RowImage := ⟨xs.flatMap (bytesOfNat 4), none⟩

/-- QuantBlock on each run of 32 columns: elements and scale bytes. -/
def quantRuns (f : ElemFmt) (mode : RoundMode) : Nat → List Num → List Nat × List Nat
  | 0, _ => ([], [])
  | n + 1, xs =>
    let (es, sc, _) := quantBlock f mode (xs.take 32)
    let (es', sc') := quantRuns f mode n (xs.drop 32)
    (es ++ es', sc ++ sc')

/-- A row converted to a format (10 R262). -/
def rowCvt (code : BitVec 4) (b : DWord) (xs : List Nat) : RowImage :=
  let f := (ElemFmt.ofCode code.toNat).getD .fp32
  let mode := RoundMode.ofCode (b.extractLsb' 41 2)
  if f.isBlock then
    let (es, sc) := quantRuns f mode 4 (xs.map (decodeFloat .fp32))
    ⟨bytesOfNat (16 * f.width) (packElems f.width es),
      some ⟨bandOf sc, BitVec.ofNat 16 (2 ^ (4 * f.scaleBytes) - 1), some code⟩⟩
  else match f.float? with
    | some l => ⟨bytesOfNat (16 * f.width) (packElems f.width (xs.map (fun x =>
        (roundTo l mode (b.getLsbD 43) (decodeFloat .fp32 x)).1))), none⟩
    | none => ⟨[], none⟩

/-- The stores of a row. -/
def rowPuts (ps : List (DWord × Nat × Place)) (r : RowImage) : List Put :=
  (ps.zipIdx).map (fun y => ⟨y.1.1, y.1.2.2, ((r.bytes.drop (128 * y.2)).take 128).map some, if y.2 = 0 then r.side else none⟩)

/-- Glint's checks of rows that are stored, in order: a row that races is named by its address (10 R260). -/
def State.glintRows (s : State) (w : Wave) : List (List (DWord × Nat × Place)) → State × Option TrapInfo
  | [] => (s, none)
  | y :: rest =>
    let (s1, hit) := s.glintList w false true 0 (y.flatMap lineSectors)
    let (s2, later) := s1.glintRows w rest
    match hit with
    | some t => (s2, some { t with addr := (y.head?.map (·.1)).getD t.addr })
    | none => (s2, later)

/-- A storing form whose rows fail a check: the rows below the failing one have made their translations (02 R72), and a RACE on one of
them is reported before it (10 R260). -/
def State.rowFault (s : State) (wid : Nat) (w : Wave) (a b : DWord) (bytes : Nat) (t : TrapInfo) : Except TrapInfo State :=
  let rows := s.rowsBefore w .wr a b bytes 0 (rowsOf b)
  if t.cause = causeMatrix ∨ rows = [] then .error t
  else
    let s1 := s.walks wid .wr (rows.flatten.flatMap lineSectors)
    match s1.glintRows w rows with
    | (s2, some race) => .ok (s2.takeTrap wid race false)
    | (_, none) => .ok ((s1.failedLooks wid t).takeTrap wid t false)

/-- Has the tile that a wave's form reads an uncorrectable error (10 R250)? -/
def State.tileBad (s : State) (w : Wave) (acc : Nat) : Bool :=
  (s.groups[w.group]?).any (fun g => s.bad.contains (.tile w.group (g.member w.core) (acc / 2) (acc % 2)))

/-- ACCST and ACCCVT: the rows are read at issue and become pending stores (10 R262), or the ECC of their tile is met (10 R250; 14 R336,
R360). DESIGN CHOICE (log 85): that error comes before a race of the rows. -/
def State.storeRows (s : State) (wid : Nat) (w : Wave) (acc : Nat) (rows : List (List (DWord × Nat × Place)))
    (f : List Nat → RowImage) : State :=
  if s.tileBad w acc then s.meetPoison wid 0#64 6
  else match (s.walks wid .wr (rows.flatten.flatMap lineSectors)).glintRows w rows with
    | (s1, some race) => s1.takeTrap wid race false
    | (s1, none) => (((rows.zipIdx).flatMap (fun y => rowPuts y.1 (f (s.tileRow w acc y.2)))).foldl (fun u p => u.putStore wid p) s1).advance wid

def execAccst (sw : BitVec 1) (c : BitVec 3) (a b : BitVec 6) (s : State) : Step :=
  s.issue (.accst sw c a b) { sw := sw, src := [.s a.toNat, .s b.toNat] } fun wid w =>
    match s.accCheck w false .wr (w.s a.toNat) (w.s b.toNat) 512 with
    | .error t => s.rowFault wid w (w.s a.toNat) (w.s b.toNat) 512 t
    | .ok rows => .ok (s.storeRows wid w c.toNat rows rowFp32)

/-- The bytes of a row in a format of ACCCVT. -/
def cvtBytes (code : BitVec 4) : Nat := 16 * ((ElemFmt.ofCode code.toNat).getD .fp32).width

def execAcccvt (sw : BitVec 1) (c : BitVec 3) (a b : BitVec 6) (f : BitVec 4) (s : State) : Step :=
  s.issue (.acccvt sw c a b f) { sw := sw, src := [.s a.toNat, .s b.toNat], feat := mx4Feature [f] } fun wid w =>
    match s.accCheck w true .wr (w.s a.toNat) (w.s b.toNat) (cvtBytes f) with
    | .error t => s.rowFault wid w (w.s a.toNat) (w.s b.toNat) (cvtBytes f) t
    | .ok rows => .ok (s.storeRows wid w c.toNat rows (rowCvt f (w.s b.toNat)))

/-! ### MWAIT (10 R263) -/

def execMwait (sw : BitVec 1) (c : BitVec 3) (s : State) : Step :=
  s.issue (.mwait sw c) { sw := sw } fun wid w =>
    if !s.hasClaim w then .error (matrixTrap 0x01 0#64)
    else
      let l := s.cmdsOn w.core c.toNat
      if l.isEmpty then .ok (s.advance wid) else .ok (s.setSt wid (.wait (.mwait c.toNat l)))

/-- The commands that an MWAIT waits for have completed. -/
def State.mwaitDone (s : State) (cmds : List Nat) : Bool :=
  cmds.all (fun k => match s.cmds[k]? with
    | some c => c.st == .done
    | none => true)

end Sys2Proof.Machine
end

