-- ==== Sys2Proof/Machine/HyperForms.lean ====
section
/-! DEFINITION. Hypervector forms and Mirror (11 R266-R278). -/

namespace Sys2Proof.Machine

/-! ### The tie-break generator (11 R267) -/

/-- Step(x). -/
def tieStep (x : DWord) : DWord :=
  let a := x ^^^ (x <<< 13)
  let b := a ^^^ (a >>> 7)
  b ^^^ (b <<< 17)

/-! ### Bind, bundle, majority (11 R268-R271) -/

/-- A form of primary 0x78 or 0x79: the feature HVEC covers them all (15 R372). -/
def formH (sw : BitVec 1) (src dst : List RegRef) : Form := { sw := sw, src := src, dst := dst, feat := some 0 }

def execHvxor (sw : BitVec 1) (d a b : BitVec 4) (s : State) : Step :=
  s.onWave (.hvxor sw d a b) (formH sw [.h a.toNat, .h b.toNat] [.h d.toNat])
    (fun w => w.setHv d.toNat (w.hv a.toNat ^^^ w.hv b.toNat))
def execHvnot (sw : BitVec 1) (d a : BitVec 4) (s : State) : Step :=
  s.onWave (.hvnot sw d a) (formH sw [.h a.toNat] [.h d.toNat]) (fun w => w.setHv d.toNat (~~~ w.hv a.toNat))
def execHvmov (sw : BitVec 1) (d a : BitVec 4) (s : State) : Step :=
  s.onWave (.hvmov sw d a) (formH sw [.h a.toNat] [.h d.toNat]) (fun w => w.setHv d.toNat (w.hv a.toNat))

/-- Counter i of an accumulator. -/
def counter (b : Bundle) (i : Nat) : Int := (b.extractLsb' (8 * i) 8).toInt

/-- Bund(i, sign) (11 R269): the new counter. -/
def bund (sign : Int) (bit : Bool) (c : Int) : Int := (clampInt (-127) 127 (c + sign * (if bit then 1 else -1))).1

/-- Bund on the first `n` counters of an accumulator. -/
def bundle (sign : Int) (h : Hyper) (b : Bundle) : Nat → Bundle
  | 0 => b
  | n + 1 => setBits (bundle sign h b n) (8 * n) (BitVec.ofInt 8 (bund sign (h.getLsbD n) (counter b n)))

def execHvbund (sw : BitVec 1) (a : BitVec 4) (k : BitVec 1) (s : State) : Step :=
  s.onWave (.hvbund sw a k) (formH sw [.h a.toNat, .b k.toNat] [.b k.toNat])
    (fun w => w.setBa k.toNat (bundle 1 (w.hv a.toNat) (w.ba k.toNat) 8192))
def execHvbsub (sw : BitVec 1) (a : BitVec 4) (k : BitVec 1) (s : State) : Step :=
  s.onWave (.hvbsub sw a k) (formH sw [.h a.toNat, .b k.toNat] [.b k.toNat])
    (fun w => w.setBa k.toNat (bundle (-1) (w.hv a.toNat) (w.ba k.toNat) 8192))

/-- The majority of the first `n` counters, and the generator after their ties (11 R270). -/
def majority (b : Bundle) (tie : DWord) : Nat → Hyper × DWord
  | 0 => (0#8192, tie)
  | n + 1 =>
    let (h, t) := majority b tie n
    let c := counter b n
    if 0 < c then (setBits h n 1#1, t)
    else if c < 0 then (h, t)
    else (setBits h n ((tieStep t).extractLsb' 0 1), tieStep t)

def execHvmaj (sw : BitVec 1) (d : BitVec 4) (k : BitVec 1) (s : State) : Step :=
  s.onWave (.hvmaj sw d k) (formH sw [.b k.toNat] [.h d.toNat]) (fun w =>
    let r := majority (w.ba k.toNat) w.hvtie 8192
    { w.setHv d.toNat r.1 with hvtie := r.2 })
def execHvbclr (sw k : BitVec 1) (s : State) : Step :=
  s.onWave (.hvbclr sw k) (formH sw [] [.b k.toNat]) (fun w => w.setBa k.toNat 0#65536)

/-- The first `n` quadwords of the generator's stream, and the generator after them (11 R271). -/
def genStream (tie : DWord) : Nat → Hyper × DWord
  | 0 => (0#8192, tie)
  | n + 1 =>
    let (h, t) := genStream tie n
    (setBits h (64 * n) (tieStep t), tieStep t)

def execHvgen (sw : BitVec 1) (d : BitVec 4) (s : State) : Step :=
  s.onWave (.hvgen sw d) (formH sw [] [.h d.toNat]) (fun w =>
    let r := genStream w.hvtie 128
    { w.setHv d.toNat r.1 with hvtie := r.2 })

/-! ### Rotation, distance, the generator registers (11 R272) -/

/-- HamDist. -/
def hamDist (a b : Hyper) : Nat := popBits (a ^^^ b) 8192

def execHvrot (sw : BitVec 1) (a b : BitVec 4) (y : BitVec 6) (s : State) : Step :=
  s.onWave (.hvrot sw a b y) (formH sw [.h b.toNat, .s y.toNat] [.h a.toNat])
    (fun w => w.setHv a.toNat ((w.hv b.toNat).rotateLeft ((w.s y.toNat).toNat % 8192)))
def execHvdist (sw : BitVec 1) (a b : BitVec 4) (x : BitVec 6) (s : State) : Step :=
  s.onWave (.hvdist sw a b x) (formH sw [.h a.toNat, .h b.toNat] [.s x.toNat])
    (fun w => w.setS x.toNat (BitVec.ofNat 64 (hamDist (w.hv a.toNat) (w.hv b.toNat))))
def execHvseed (sw : BitVec 1) (y : BitVec 6) (s : State) : Step :=
  s.onWave (.hvseed sw y) (formH sw [.s y.toNat] [])
    (fun w => { w with hvtie := if w.s y.toNat = 0#64 then tieC0 else w.s y.toNat })
def execHvrdtie (sw : BitVec 1) (x : BitVec 6) (s : State) : Step :=
  s.onWave (.hvrdtie sw x) (formH sw [] [.s x.toNat]) (fun w => w.setS x.toNat w.hvtie)
def execHvbit (sw : BitVec 1) (a : BitVec 4) (x y : BitVec 6) (s : State) : Step :=
  s.onWave (.hvbit sw a x y) (formH sw [.h a.toNat, .s y.toNat] [.s x.toNat])
    (fun w => w.setS x.toNat (bit64 ((w.hv a.toNat).getLsbD ((w.s y.toNat).toNat % 8192))))

/-! ### Loads and stores (11 R273) -/

/-- The places of the eight lines of a hypervector in memory. -/
def State.hyperPlaces (s : State) (w : Wave) (acc : Acc) (va : DWord) : Except TrapInfo (List (DWord × Nat × Place)) :=
  if va.toNat % 128 ≠ 0 then .error (trapAt causeMisalign va) else s.placesOf w acc (rowLines va 1024)

/-- A form whose lines fail a check: a RACE on a line below the failing one is reported before it (11 R273). -/
def State.hyperFault (s : State) (wid : Nat) (w : Wave) (wr : Bool) (va : DWord) (t : TrapInfo) : Except TrapInfo State :=
  if va.toNat % 128 ≠ 0 then .error t
  else s.faultAfter wid w false wr 0 ((s.linesBefore w (if wr then .wr else .rd) (rowLines va 1024)).flatMap lineSectors) t

def execHvld (sw : BitVec 1) (a : BitVec 4) (y : BitVec 6) (s : State) : Step :=
  s.issue (.hvld sw a y) (formH sw [.s y.toNat] [.h a.toNat]) fun wid w =>
    match s.hyperPlaces w .rd (w.s y.toNat) with
    | .error t => s.hyperFault wid w false (w.s y.toNat) t
    | .ok ps => .ok (s.loads wid w (ps.flatMap lineSectors) (fun xs z =>
        z.addOut (.h a.toNat 0xFF#8 (BitVec.ofNat 8192 (natOfBytes (xs.flatMap (·.1)))))))

def execHvst (sw : BitVec 1) (a : BitVec 4) (y : BitVec 6) (s : State) : Step :=
  s.issue (.hvst sw a y) (formH sw [.h a.toNat, .s y.toNat] []) fun wid w =>
    match s.hyperPlaces w .wr (w.s y.toNat) with
    | .error t => s.hyperFault wid w true (w.s y.toNat) t
    | .ok ps => .ok (s.stores wid w (ps.flatMap lineSectors)
        (rowPuts ps ⟨bytesOfNat 1024 (w.hv a.toNat).toNat, none⟩))

/-! ### Mirror (11 R274-R278) -/

def mirrorCount (ctl : DWord) : Nat := bitsOf ctl 0 13
def mirrorStop (ctl : DWord) : Nat := bitsOf ctl 32 14

/-- The record is no longer one of a stopped scan; its other fields stay (11 R278). -/
def Mirror.clear (m : Mirror) : Mirror := { m with valid := false }

/-- The start of a scan: from the record of a stopped one, or from the first entry (11 R276, R278). -/
def Mirror.start (m : Mirror) : Mirror := if m.valid then m.clear else ⟨false, 0, 8193, 0xFFFFFFFFFFFFFFFF⟩

/-- The result of one comparison. -/
def Mirror.take (m : Mirror) (d : Nat) : Mirror :=
  if d < m.bestD then { m with next := m.next + 1, bestD := d, bestI := m.next } else { m with next := m.next + 1 }

/-- The checks of R275 on the bytes of the table, line by line. -/
def State.mirrorCheck (s : State) (w : Wave) (base ctl : DWord) : Option TrapInfo :=
  if 4096 < mirrorCount ctl ∨ bitsOf ctl 13 19 ≠ 0 ∨ bitsOf ctl 46 18 ≠ 0 then some (trapAt causeIllegal ctl)
  else if mirrorCount ctl = 0 then none
  else if base.toNat % 128 ≠ 0 then some (trapAt causeMisalign base)
  else match s.placesOf w .rd (rowLines base (1024 * mirrorCount ctl)) with
    | .error t => some t
    | .ok _ => none

/-- The scan has ended: both results are written, and VALID is 0 (11 R278). -/
def State.mirrorFinish (s : State) (wid x : Nat) (m : Mirror) : State :=
  (s.modWave wid (fun w => { (w.setS x (BitVec.ofNat 64 m.bestI)).setS (x + 1) (BitVec.ofNat 64 m.bestD) with
    mirror := w.mirror.clear })).proceed wid

/-- The bytes of an entry: eight plain loads, which Glint does not check (11 R277). A line that no longer translates reads
free values (log 5), and a line at a peer that is not UP reads all ones (19 R407). -/
def State.entryBytes (s : State) (wid : Nat) (w : Wave) (va : DWord) : Nat → List (BitVec 8) × State
  | 0 => ([], s)
  | n + 1 =>
    let (bs, s0) := s.entryBytes wid w va n
    let s1 := s0.waveLooks wid .rd (va + BitVec.ofNat 64 (128 * n))
    match s1.placeOf w .rd false (va + BitVec.ofNat 64 (128 * n)) (List.range 128) with
    | .error _ =>
      if s1.deadPeer w.ctx w.gen (va + BitVec.ofNat 64 (128 * n)) then (bs ++ List.replicate 128 0xFF#8, s1)
      else
        let (xs, s2) := s1.freeBytes 128
        (bs ++ xs, s2)
    | .ok p =>
      let (xs, _, s2) := (s1.beforeAccess wid p 128).load wid p 128
      (bs ++ xs, s2)

/-- The first poisoned line of an entry that the wave would read from its home. -/
def State.entryPoison (s : State) (wid : Nat) (w : Wave) (va : DWord) : Option (DWord × Nat) :=
  (List.range 8).findSome? (fun n =>
    let a := va + BitVec.ofNat 64 (128 * n)
    match s.placeOf w .rd false a (List.range 128) with
    | .ok p => if s.meets wid w p then some (a, s.placeClass p) else none
    | .error t => if t.cause = causeEcc then some (a, t.detail.toNat) else none)

/-- One entry of a scan under way, or its end (11 R276). DESIGN CHOICE (log 83): of the moments between the issue and the comparison that
11 R277 leaves open, the eight lines of an entry are loaded in the step that compares it. -/
def State.mirrorStep (s : State) (wid : Nat) : State :=
  match s.waves[wid]? with
  | none => s
  | some w => match w.st with
    | .wait (.hvnear x q base ctl scan) =>
      if mirrorCount ctl ≤ scan.next then s.mirrorFinish wid x scan
      else
        let va := base + BitVec.ofNat 64 (1024 * scan.next)
        match s.entryPoison wid w va with
        | some (a, code) =>
          (s.modWave wid (fun y => { y with mirror := { scan with valid := true }, st := .ready })).meetPoison wid a code
        | none =>
          let (bs, s1) := s.entryBytes wid w va 8
          let d := hamDist q (BitVec.ofNat 8192 (natOfBytes bs))
          let m := scan.take d
          if d < mirrorStop ctl ∨ mirrorCount ctl ≤ m.next then s1.mirrorFinish wid x m
          else s1.setSt wid (.wait (.hvnear x q base ctl m))
    | _ => s

/-- The translations of the bytes of a table that a wave names (02 R72). -/
def State.tableLooks (s : State) (w : Wave) (va : DWord) (n : Nat) : State :=
  match windowOf va with
  | .none => s.lookUps (some w.core) .rd w.ctx w.gen va n
  | _ => s

/-- At most `n` entries more. -/
def State.mirrorSteps (s : State) (wid : Nat) : Nat → State
  | 0 => s
  | n + 1 => (s.mirrorStep wid).mirrorSteps wid n

def execHvnear (sw : BitVec 1) (a : BitVec 4) (x y : BitVec 6) (s : State) : Step :=
  s.issue (.hvnear sw a x y)
    (formH sw [.h a.toNat, .s y.toNat, .s (y.toNat + 1)] [.s x.toNat, .s (x.toNat + 1)]) fun wid w =>
    let base := w.s y.toNat
    let ctl := w.s (y.toNat + 1)
    match s.mirrorCheck w base ctl with
    | some t => .ok (((s.failedLooks wid t).modWave wid (fun z => { z with mirror := z.mirror.clear })).takeTrap wid t false)
    | none =>
      let m := w.mirror.start
      let s1 := (s.tableLooks w base (1024 * mirrorCount ctl)).modWave wid (fun z => { z with mirror := z.mirror.clear, st := .wait (.hvnear x.toNat (w.hv a.toNat) base ctl m) })
      if mirrorCount ctl ≤ m.next then .ok (s1.mirrorFinish wid x.toNat m) else .ok s1

end Sys2Proof.Machine
end

