-- ==== Sys2Proof/Machine/WorkForms.lean ====
section
/-! DEFINITION. Records and sample groups: ENQ and the SG forms (13 R317, R322-R329). -/

namespace Sys2Proof.Machine

/-- SAMPLE and ENQ traps: SR_TRAPADDR holds S(A) (14 R336). -/
def workTrap (cause : BitVec 6) (detail : Nat) (a : DWord) : TrapInfo :=
  { cause := cause, detail := BitVec.ofNat 8 detail, addr := a }

/-- Is a bin enabled? -/
def State.binEnabled (s : State) (c b : Nat) : Bool :=
  match s.binOf c b with
  | some x => x.en
  | none => false

/-- The tree of a wave's group. -/
def State.treeOf (s : State) (w : Wave) : Nat :=
  match s.groups[w.group]? with
  | some g => g.tree
  | none => 0

/-- ENQ up to its release (13 R317). -/
def execEnq (sw : BitVec 1) (d a b : BitVec 6) (s : State) : Step :=
  s.issue (.enq sw d a b) (formRR sw d a b) fun wid w =>
    let va := w.s a.toNat
    let bin := bitsOf (w.s b.toNat) 0 12
    if va.toNat % 32 ≠ 0 then .error (trapAt causeMisalign va)
    else if bitsOf (w.s b.toNat) 12 52 ≠ 0 then .error (workTrap causeEnq 0x01 va)
    else if !s.binEnabled w.ctx bin then .error (workTrap causeEnq 0x02 va)
    else match s.checkAccess w .rd false 32 va 32 with
      | .error t => .error t
      | .ok p => .ok ((s.waveLooks wid .rd va).unlessRace wid w false false 0 ([⟨none, va, p, 32⟩].filter (fun t => s.reachesHome wid w t.place))
          fun s1 => (s1.modTree (s1.treeOf w) (fun t => { t with infl := t.infl + 1 })).release wid 4 (.enq d.toNat va p bin))

/-! ### SGFORK (13 R325) -/

/-- The FP32 epsilon of EPSHI. -/
def epsilonOf (x : Nat) : Word := if x = 0 then 0x35800000#32 else BitVec.ofNat 32 (x * 65536)

/-- Is an epsilon negative, infinite or NaN? -/
def epsilonBad (e : Word) : Bool := e.getLsbD 31 || e.extractLsb' 23 8 == 0xFF#8

/-- Siblings of an object, every one WAITING. -/
def freshSibs (n : Nat) : List Sib := List.replicate n ⟨.waiting, 0#32, 0#32, false, false⟩

/-- The sibling records of an object, in ascending order (13 R325). -/
def State.forkRecords (s : State) (c bin num gen tree depth : Nat) (bs : List (BitVec 8)) : Nat → State
  | 0 => s
  | n + 1 =>
    let s1 := s.forkRecords c bin num gen tree depth bs n
    let r : SibRef := ⟨num, gen, n⟩
    match s1.pickSlotOf c with
    | (none, s2) => s2
    | (some slot, s2) => (((s2.takeSlot c slot).feWrite c (s2.slotAddr c slot)
        (bs ++ bytesOfNat 8 r.word.toNat)).addRecord c bin slot tree depth (some r))

/-- The generation of a new object under a number (13 R322): the last one's plus 1. -/
def nextGen (sgos : List Sgo) (num : Nat) : Nat :=
  match sgos.find? (fun o => o.num == num) with
  | some o => (o.gen + 1) % 2 ^ 16
  | none => 0

/-- What follows SGFORK's checks: the status and reference, and the object with its records. DEDUCED (log 11): the object takes the
lowest free number, as the run of 16 R384 shows. -/
def State.fork (s : State) (c : Nat) (g : Group) (n bin timeout : Nat) (eps : Word) (bs : List (BitVec 8)) : DWord × State :=
  let fail (k : Nat) : DWord := BitVec.ofNat 64 (2 ^ 32 - 1 + 2 ^ 56 * k)
  let (sgos, used) := match s.ctxs[c]? with
    | some x => (x.sgos, x.pool.length)
    | none => ([], poolSlots)
  if 24 < g.depth + 1 then (fail 2, s)
  else match firstFrom (fun k => !(sgos.any (fun o => o.num == k && o.live))) 0 65536 with
    | none => (fail 3, s)
    | some num =>
      if poolSlots < used + n then (fail 1, s)
      else
        let gen := nextGen sgos num
        let o : Sgo := { num := num, gen := gen, tree := g.tree, sibs := freshSibs n, eps := eps, timeout := timeout, due := none,
                         expired := false, final := false, live := true }
        let s2 := s.modCtx c (fun x => { x with sgos := o :: x.sgos.filter (fun p => p.num != num) })
        ((⟨num, gen, 0⟩ : SibRef).word, s2.forkRecords c bin num gen g.tree (g.depth + 1) bs n)

/-- The checks of SGFORK on S(B) (13 R325). -/
def State.forkDetail (s : State) (c : Nat) (b : DWord) : Option Nat :=
  let n := bitsOf b 0 9
  let coal := match s.binOf c (bitsOf b 16 12) with
    | some x => x.coal
    | none => 1
  if bitsOf b 9 7 ≠ 0 ∨ bitsOf b 28 4 ≠ 0 then some 0x01
  else if n < 2 ∨ 256 < n then some 0x02
  else if !s.binEnabled c (bitsOf b 16 12) ∨ coal ≠ 1 then some 0x03
  else if epsilonBad (epsilonOf (bitsOf b 48 16)) then some 0x04
  else none

def execSgfork (sw : BitVec 1) (d a b : BitVec 6) (s : State) : Step :=
  s.issue (.sgfork sw d a b) { formRR sw d a b with feat := some 1 } fun wid w =>
    let va := w.s a.toNat
    let x := w.s b.toNat
    if va.toNat % 32 ≠ 0 then .error (trapAt causeMisalign va)
    else match s.forkDetail w.ctx x with
      | some k => .error (workTrap causeSample k va)
      | none => match s.checkAccess w .rd false 32 va 24, s.groups[w.group]? with
        | .error t, _ => .error t
        | .ok p, some g =>
          .ok ((s.waveLooks wid .rd va).unlessRace wid w false false 0 ([⟨none, va, p, 24⟩].filter (fun t => s.reachesHome wid w t.place)) fun s1 =>
            if s1.meets wid w p then s1.meetPoison wid va (s1.placeClass p)
            else
              let (bs, _, s2) := (s1.beforeAccess wid p 24).load wid p 24
              let (v, s3) := s2.fork w.ctx g (bitsOf x 0 9) (bitsOf x 16 12) (bitsOf x 32 16) (epsilonOf (bitsOf x 48 16)) bs
              s3.modWave wid (fun y => (y.addOut (.s d.toNat v)).advance))
        | .ok _, none => .ok (s.advance wid)

/-! ### SGREWARD, SGWAIT (13 R326, R327) -/

/-- The binding of a wave's group. -/
def State.binding (s : State) (w : Wave) : Option SibRef := (s.groups[w.group]?).bind (·.sib)

def execSgreward (sw : BitVec 1) (d a : BitVec 6) (s : State) : Step :=
  s.issue (.sgreward sw d a) { formR sw d a with feat := some 1 } fun wid w =>
    match s.binding w with
    | none => .error (workTrap causeSample 0x05 (w.s a.toNat))
    | some _ => .ok (s.release wid 4 (.sgreward d.toNat (w.s a.toNat)))

/-- SGWAIT at one point of its object's order: it returns, with the acquire of a final object, or it waits. -/
def State.sgWaitLook (s0 : State) (wid d : Nat) (w : Wave) (r : SibRef) : Option State :=
  let s := s0.sgExpire w.ctx r
  let give (t : State) (v : DWord) : State := t.modWave wid (fun y => y.addOut (.s d v))
  match s.sgoOf w.ctx r with
  | none => some (((give s (sgResult 0#32 sgLate true)).acquire wid).proceed wid)
  | some o => match o.sibs[r.idx]? with
    | none => some (((give s (sgResult 0#32 sgLate true)).acquire wid).proceed wid)
    | some b =>
      if o.final then some (((give s (sgResult b.adv b.finalStatus true)).acquire wid).proceed wid)
      else if b.kind = .waiting then some ((give s (sgResult 0#32 sgNoReward false)).proceed wid)
      else none

/-- Clocks of the spin of SGWAIT (13 R327). -/
def sgSpin : Nat := 2048

def execSgwait (sw : BitVec 1) (d : BitVec 6) (s : State) : Step :=
  s.issue (.sgwait sw d) { sw := sw, dst := [.s d.toNat], feat := some 1 } fun wid w =>
    match s.binding w with
    | none => .error (workTrap causeSample 0x05 0#64)
    | some r => match s.sgWaitLook wid d.toNat w r with
      | some s1 => .ok s1
      | none => .ok (s.setSt wid (.wait (.sgspin d.toNat (s.coreClock w.core + sgSpin))))

/-- A wave that spins in SGWAIT looks at its object again. -/
def State.sgWaitPoll (s : State) (wid : Nat) : State :=
  match s.waves[wid]? with
  | none => s
  | some w => match w.st, s.binding w with
    | .wait (.sgspin d _), some r => (s.sgWaitLook wid d w r).getD s
    | _, _ => s

/-! ### SGCANCEL, SGQUERY (13 R328, R329) -/

/-- IDX beyond a live object's siblings. -/
def State.idxBad (s : State) (c : Nat) (r : SibRef) : Bool :=
  match s.sgoOf c r with
  | some o => decide (o.sibs.length ≤ r.idx)
  | none => false

def execSgcancel (sw : BitVec 1) (a : BitVec 6) (s : State) : Step :=
  s.issue (.sgcancel sw a) { sw := sw, src := [.s a.toNat], feat := some 1 } fun wid w =>
    let x := w.s a.toNat
    if bitsOf x 40 24 ≠ 0 then .error (workTrap causeSample 0x01 x)
    else if s.idxBad w.ctx (SibRef.ofWord x) then .error (workTrap causeSample 0x06 x)
    else .ok ((s.advance wid).sgCancel w.ctx (SibRef.ofWord x))

/-- What SGQUERY returns (13 R329). -/
def State.sgQuery (s : State) (c : Nat) (x : DWord) : DWord :=
  let r := SibRef.ofWord x
  match s.sgoOf c r with
  | none => BitVec.ofNat 64 (2 ^ 28)
  | some o => if x.getLsbD 63 then o.sibWord r.idx else o.objWord

def execSgquery (sw : BitVec 1) (d a : BitVec 6) (s : State) : Step :=
  s.issue (.sgquery sw d a) { formR sw d a with feat := some 1 } fun wid w =>
    let x := w.s a.toNat
    if bitsOf x 40 23 ≠ 0 then .error (workTrap causeSample 0x01 x)
    else if s.idxBad w.ctx (SibRef.ofWord x) then .error (workTrap causeSample 0x06 x)
    else
      let s1 := s.sgExpire w.ctx (SibRef.ofWord x)
      .ok (s1.modWave wid (fun y => (y.addOut (.s d.toNat (s1.sgQuery w.ctx x))).advance))

end Sys2Proof.Machine
end

