-- ==== Sys2Proof/Machine/Fetch.lean ====
section
/-! DEFINITION. Which waves may issue, instruction fetch and the instruction caches
(04 R118; 07 R191; 12 R294-R299; 15 R377, R378). -/

namespace Sys2Proof.Machine

/-! ### Who may issue (06 R161, R169; 12 R294-R299; 14 R339, R344; 19 R420) -/

/-- Is the wave parked at a switch marker: results of its earlier instructions are outstanding (06 R161)? -/
def Wave.markerHeld (w : Wave) : Bool := w.marked && (!w.outs.isEmpty || w.atoms.any (fun a => a.ret != .none))

/-- Is a trap due that the wave takes before it issues again (14 R340)? -/
def Wave.dueNow (w : Wave) : Bool := !w.due.isEmpty && !w.handler && w.pfx.isNone

/-- Does the wave's group run, in a context that runs? -/
def State.groupRuns (s : State) (w : Wave) : Bool :=
  s.ctxRuns w.ctx && (match s.groups[w.group]? with
  | some g => g.st == .running
  | none => false)

/-- May the wave issue its next word? -/
def State.mayIssue (s : State) (w : Wave) : Bool :=
  w.st == .ready && !w.markerHeld && w.delayUntil.isNone && !w.killed && !w.stopped && w.held.isNone && !w.dueNow &&
  !s.issueHalt && s.groupRuns w

/-! ### Instruction caches (15 R377, R378) -/

/-- The fetch checks of 02 R75 and 04 R118 at an address. -/
def State.fetchXlat (s : State) (w : Wave) (va : DWord) : Except TrapInfo Xlat :=
  match windowOf va with
  | .none => s.waveXlat w .fetch va
  | _ => .error { cause := causeXlateFetch, kind := kindNotMapped, addr := va }

/-- Does a line serve a wave: of its context, and through a Publish Buffer only at the generation that it has adopted (02 R73)? -/
def ICacheLine.serves (l : ICacheLine) (w : Wave) (va : DWord) : Bool :=
  l.ctx == w.ctx && l.line == va.toNat / 128 && (match l.pb with
    | some (n, g) => w.gen n == g
    | none => true)

/-- The line of a core's instruction cache that holds an address for a wave. -/
def State.icacheHit (s : State) (w : Wave) (va : DWord) : Option Line :=
  match s.cores[w.core]? with
  | some k => (k.icache.find? (fun l => l.serves w va)).map (·.data)
  | none => none

/-- The Publish Buffer and the generation through which a wave fetches at an address. -/
def State.fetchPb (s : State) (w : Wave) (va : DWord) : Option (Nat × Word) :=
  match s.leafOf (some w.core) .fetch w.ctx w.gen (vaBits va) with
  | .ok e => if ptePb e then some (ptePbIdx e, w.gen (ptePbIdx e)) else none
  | .error _ => none

/-- The lines with a new one, in the place of one of the same tag and address; a ninth line of a set of 8 drops the oldest of the set
(log 22). -/
def putICacheLine (all : List ICacheLine) (x : ICacheLine) : List ICacheLine :=
  let l := all.filter (fun y => !(y.ctx == x.ctx && y.line == x.line))
  let same := l.filter (fun y => y.line % 96 == x.line % 96)
  (if same.length < 8 then l else match same with
    | old :: _ => l.erase old
    | [] => l) ++ [x]

/-- The translation that a fetch makes (02 R72). -/
def State.fetchLooks (s : State) (w : Wave) (va : DWord) : State := s.lookUp (some w.core) .fetch w.ctx w.gen va

/-- Fill the line that holds an address for a wave from its coherence point, counted in PR_ICFILL. -/
def State.fillICache (s : State) (w : Wave) (va : DWord) (x : Xlat) : State :=
  let base := x.pa / 128 * 128
  let data := lineOfBytes ((List.range 128).map (fun k => s.agentByte (base + k)))
  (s.homeAccess base x.ms false 128).modCore w.core (fun k => { k with
    icache := putICacheLine k.icache ⟨w.ctx, va.toNat / 128, s.fetchPb w va, data⟩, icFill := k.icFill + 1#64 })

/-- Fill a line by read-ahead or IPREF for a wave: a line that fails its checks, is poisoned, or is present stays as it is. -/
def State.prefetchLine (s : State) (w : Wave) (va : DWord) : State :=
  if (s.icacheHit w va).isSome then s
  else match s.fetchXlat w va with
    | .error _ => s
    | .ok x => if s.linePoisoned (x.pa / 128) then s else (s.fetchLooks w va).fillICache w va x

/-! ### The word at the PC (07 R191) -/

/-- The two addresses that sequential advance past the end of a half reaches. -/
def pastEnd (pc : DWord) : Bool := pc == 0x0100000000000000#64 || pc == 0#64

/-- What the fetch of the word at a wave's PC gives: the word, the trap of a failed check, or a poisoned line. -/
inductive Fetched where
  | word (v : Word) (s : State)
  | trap (t : TrapInfo)
  | poisoned (code : Nat)
  deriving DecidableEq, Repr

/-- Word `va / 4` of a line. -/
def lineWord (l : Line) (va : DWord) : Word := l.extractLsb' (8 * (va.toNat % 128)) 32

/-- The word held for the PC. -/
def Wave.heldWord (w : Wave) : Option Word :=
  match w.fetched with
  | some (pc, v) => if pc = w.pc then some v else none
  | none => none

/-- Fetch the word at the PC of a wave with the checks of 07 R191: the word held, from the instruction cache, or by a demand
fill. -/
def State.fetch (s : State) (w : Wave) : Fetched :=
  if w.ran && pastEnd w.pc then .trap (trapAt causePcRange w.pc)
  else match s.fetchXlat w w.pc with
    | .error t => .trap t
    | .ok x => match w.heldWord with
      | some v => .word v s
      | none => match s.icacheHit w w.pc with
        | some l => .word (lineWord l w.pc) (s.fetchLooks w w.pc)
        | none =>
          if s.linePoisoned (x.pa / 128) then .poisoned (s.lineClass (x.pa / 128))
          else
            let s1 := (s.fetchLooks w w.pc).fillICache w w.pc x
            .word (lineWord ((s1.icacheHit w w.pc).getD 0#1024) w.pc) s1

/-- INSTRUCTION_FETCH (07 R191): the word at the PC is fetched and held, or its checks trap. -/
def execInstructionFetch (w : Nat) (s : State) : Step :=
  match s.waves[w]? with
  | none => .next s
  | some x =>
    if s.mayIssue x then
      match s.fetch x with
      | .trap t => .next ((s.failedLooks w t).takeTrap w t false)
      | .poisoned code => .next (s.meetPoison w x.pc code)
      | .word v s1 => .next (s1.modWave w (fun y => { y with fetched := some (y.pc, v) }))
    else .next s

/-- May the fetch unit of a core fill the line of an address for a wave: the line of its PC, or one of the two after it (15 R377)? -/
def Wave.mayFill (w : Wave) (core c : Nat) (va : DWord) : Bool :=
  w.core == core && w.ctx == c && w.st != .retired &&
  decide (w.pc.toNat / 128 ≤ va.toNat / 128) && decide (va.toNat / 128 ≤ w.pc.toNat / 128 + 2)

/-- The first wave on a core for which the line of an address may be filled. -/
def State.fillFor (s : State) (core c : Nat) (va : DWord) : Option Wave :=
  s.waves.find? (fun w => w.mayFill core c va && (match s.groups[w.group]? with
    | some g => s.onCore core none g
    | none => false))

/-- INSTRUCTION_CACHE_FILL (15 R377): a line at most two ahead of the line of a wave's PC is filled into the core's instruction cache,
where it passes the checks of 02 R75. -/
def execInstructionCacheFill (core c : Nat) (va : DWord) (s : State) : Step :=
  .next (match s.fillFor core c va with
    | some w => s.prefetchLine w va
    | none => s)

end Sys2Proof.Machine
end

