-- ==== Sys2Proof/Machine/System.lean ====
section
/-! DEFINITION. The end of a wave, the privileged forms, IPREF (06 R168; 07 R192, R199-R203). -/

namespace Sys2Proof.Machine

/-! ### END (07 R192) -/

/-- END up to its wait for copies and commands: results, then the releasing boundary of system scope. -/
def execEndWave (sw : BitVec 1) (s : State) : Step :=
  s.issue (.endWave sw) { sw := sw } fun wid _ => .ok (((s.drainAtoms wid).modWave wid Wave.drainOuts).release wid 5 .endWave)

/-! ### Privileged registers (07 R200) -/

/-- A privileged form (07 R199). -/
def formP (sw : BitVec 1) (src dst : List RegRef) : Form := { sw := sw, src := src, dst := dst, priv := true }

/-- The wave in a slot of a core (07 R200, R202). -/
def State.waveInSlot (s : State) (core slot : Nat) : Option Nat :=
  s.waves.findIdx? (fun w => w.core == core && w.slot == slot && w.st != .retired && (match s.groups[w.group]? with
    | some g => s.onCore core none g
    | none => false))

/-- Is the wave in WAIT or BLOCKED (12 R294)? -/
def Wave.parked (w : Wave) : Bool :=
  match w.st with
  | .wait _ => true
  | .blocked _ _ => true
  | .ready => w.markerHeld || w.delayUntil.isSome
  | _ => false

/-- Is a stop of the wave asked for (14 R344): by a park of its group, a cut, or a context fault? -/
def State.stopAsked (s : State) (w : Wave) : Bool :=
  (match s.groups[w.group]? with
  | some g => g.st == .parking
  | none => false) ||
  (match s.ctxs[w.ctx]? with
  | some c => c.agStop || c.st == .faulted
  | none => false)

/-- Is the wave STOPPING, from the request of a stop on (12 R294)? A wave of a FAULTED context is (log 85). -/
def State.stopping (s : State) (w : Wave) : Bool := s.stopAsked w || w.stopped

/-- PR_SLOTINFO: a wave that is STOPPING is in WAIT or BLOCKED no more. -/
def State.slotInfo (s : State) (core slot : Nat) : Nat :=
  match s.waveInSlot core slot with
  | none => 0
  | some wid => match s.waves[wid]? with
    | none => 0
    | some w =>
      let tag := match s.ctxs[w.ctx]? with
        | some c => c.ttag.toNat
        | none => 0
      1 + (if w.st = .halted then 2 else 0) + (if w.handler then 4 else 0) + (if w.parked && !s.stopping w then 8 else 0) + 2 ^ 16 * tag +
        2 ^ 28 * s.domainOf w.ctx

/-- The value of a privileged register of a core; none for a number that is not listed. -/
def State.privReg (s : State) (core : Nat) (i : BitVec 12) : Option DWord :=
  let n (k : Nat) : Option DWord := some (BitVec.ofNat 64 k)
  let field (f : Core → DWord) : Option DWord := some (match s.cores[core]? with
    | some c => f c
    | none => 0#64)
  if i = 0x000#12 then n (core + 2 ^ 8 * (core / 40))
  else if i = 0x001#12 then n ((s.slotWaves core none).length + 2 ^ 8 * (s.groups.filter (s.onCore core none)).length +
    2 ^ 16 * s.freeGranules core)
  else if i = 0x002#12 then n (s.fencedBits (core / 40))
  else if i = 0x010#12 then field (·.csErr)
  else if i = 0x011#12 then field (·.icFill)
  else if i = 0x020#12 then field (fun c => c.prSlot.setWidth 64)
  else if i = 0x021#12 then n (s.slotInfo core (match s.cores[core]? with
    | some c => c.prSlot.toNat
    | none => 0))
  else none

def execSrdp (sw : BitVec 1) (x : BitVec 6) (i : BitVec 12) (s : State) : Step :=
  s.issue (.srdp sw x i) (formP sw [] [.s x.toNat]) fun wid w =>
    match s.privReg w.core i with
    | none => .error (trapAt causeIllegal (wordAddr (.srdp sw x i)))
    | some v => .ok (s.modWave wid (fun y => (y.setS x.toNat v).advance))

def execSwrp (sw : BitVec 1) (x : BitVec 6) (i : BitVec 12) (s : State) : Step :=
  s.issue (.swrp sw x i) (formP sw [.s x.toNat] []) fun wid w =>
    if i = 0x020#12 then
      .ok ((s.modCore w.core (fun c => { c with prSlot := (w.s x.toNat).extractLsb' 0 7 })).advance wid)
    else .error (trapAt causeIllegal (wordAddr (.swrp sw x i)))

/-! ### Invalidation (07 R201; 02 R74) -/

def execIcinv (sw : BitVec 1) (s : State) : Step :=
  s.issue (.icinv sw) (formP sw [] []) fun wid _ =>
    .ok (((s.allCores (fun c => { c with icache := [] })).allWaves (fun w => { w with fetched := none })).advance wid)

/-- Does a context have the translation tag of a selector (07 R201)? -/
def State.tagged (s : State) (sel : DWord) (c : Nat) : Bool :=
  sel.getLsbD 63 || (match s.ctxs[c]? with
    | some x => x.ttag == sel.extractLsb' 0 12
    | none => false)

/-- Has the wave an access whose translation it has found and that is not yet performed: an atomic on its way or before it, or the
read of a record (02 R74)? Pending stores are none. -/
def Wave.accessOpen (w : Wave) : Bool :=
  !w.atoms.isEmpty || (match w.st with
    | .wait (.release _ (.atomic _)) => true
    | .wait (.release _ (.enq _ _ _ _)) => true
    | _ => false)

/-- Are all accesses that used translations of the contexts performed (02 R74)? -/
def State.accessesDone (s : State) (p : Nat → Bool) : Bool := s.waves.all (fun w => !p w.ctx || !w.accessOpen)

/-- TLBINV drops its entries at once, and completes when the second condition of 02 R74 holds (07 R201). -/
def execTlbinv (sw : BitVec 1) (x : BitVec 6) (s : State) : Step :=
  s.issue (.tlbinv sw x) (formP sw [.s x.toNat] []) fun wid w =>
    let sel := w.s x.toNat
    if sel.extractLsb' 12 51 ≠ 0#51 then .error (trapAt causeIllegal (wordAddr (.tlbinv sw x)))
    else
      let s1 := (s.dropXlats (fun t => s.tagged sel t.ctx) (fun e => s.tagged sel e.ctx)).staleKept (fun c _ => s.tagged sel c)
      if s.accessesDone (s.tagged sel) then .ok (s1.advance wid) else .ok (s1.setSt wid (.wait (.tlbinv sel)))

/-! ### Control of waves (07 R202) -/

/-- The slot operand of WKILL and WRESUME. -/
def slotOf (v : DWord) : Option Nat := if v.extractLsb' 7 57 = 0#57 then some (v.extractLsb' 0 7).toNat else none

/-- WKILL: the wave in the slot ends at its next boundary, and WKILL completes once it has. -/
def execWkill (sw : BitVec 1) (x : BitVec 6) (s : State) : Step :=
  s.issue (.wkill sw x) (formP sw [.s x.toNat] []) fun wid w =>
    match slotOf (w.s x.toNat) with
    | none => .error (trapAt causeIllegal (wordAddr (.wkill sw x)))
    | some slot => match s.waveInSlot w.core slot with
      | none => .ok (s.advance wid)
      | some k =>
        let s1 := s.modWave k (fun y => { y with killed := true })
        if k = wid then .ok (s1.advance wid) else .ok (s1.setSt wid (.wait (.wkill k)))

/-- WRESUME: a HALTED wave in the slot becomes ready. -/
def execWresume (sw : BitVec 1) (x : BitVec 6) (s : State) : Step :=
  s.issue (.wresume sw x) (formP sw [.s x.toNat] []) fun wid w =>
    match slotOf (w.s x.toNat) with
    | none => .error (trapAt causeIllegal (wordAddr (.wresume sw x)))
    | some slot => match s.waveInSlot w.core slot with
      | none => .ok (s.advance wid)
      | some k => .ok ((s.modWave k (fun y => { y with st := if y.st = .halted then .ready else y.st })).advance wid)

/-- HALT: results first, then HALTED at the next boundary. -/
def execHalt (sw : BitVec 1) (s : State) : Step :=
  s.issue (.halt sw) (formP sw [] []) fun wid _ =>
    .ok ((((s.drainAtoms wid).modWave wid Wave.drainOuts).advance wid).setSt wid .halted)

/-! ### ACRD (07 R203) -/

/-- Counter `c` of domain `d`. -/
def State.counter (s : State) (d c : Nat) : DWord :=
  match s.domains[d]? with
  | some x => x.cnt.getD c 0#64
  | none => 0#64

def execAcrd (sw : BitVec 1) (x d c : BitVec 6) (s : State) : Step :=
  s.issue (.acrd sw x d c) (formP sw [] [.s x.toNat]) fun wid _ =>
    if 12 ≤ c.toNat then .error (trapAt causeIllegal (wordAddr (.acrd sw x d c)))
    else .ok (s.modWave wid (fun y => (y.setS x.toNat (s.counter d.toNat c.toNat)).advance))

/-! ### IPREF (06 R168; 15 R378) -/

/-- The lines that IPREF names, by an address in each. -/
def iprefLines (w : Wave) (n : BitVec 2) (o : BitVec 18) : List DWord :=
  (List.range (n.toNat + 1)).map (fun k => (w.target o &&& 0xFFFFFFFFFFFFFF80#64) + BitVec.ofNat 64 (128 * k))

def execIpref (sw : BitVec 1) (n : BitVec 2) (o : BitVec 18) (s : State) : Step :=
  s.issue (.ipref sw n o) { sw := sw } fun wid w =>
    .ok (((iprefLines w n o).foldl (fun t va => t.prefetchLine w va) s).advance wid)

end Sys2Proof.Machine
end

