-- ==== Sys2Proof/Machine/MemoryEvents.lean ====
section
/-! DEFINITION. Events of results, atomics, released stores, the LLC, the page walkers, the weight store, and writes of
registers (00 R6; 02 R50-R72; 05 R131; 06 R161-R163; 19 R399). -/

namespace Sys2Proof.Machine

/-! ### Results and accesses of waves -/

/-- RESULT_WRITE (06 R161, R163): units of the k-th outstanding result of a wave are written. -/
def execResultWrite (w k units : Nat) (s : State) : Step := .next ((s.modWave w (fun x => x.writeOut k units)).settleAcquire w)

/-- The first issued atomic of a wave with an access of a lane that may be performed now: no earlier atomic of the wave still has an
access to its peer line to perform (19 R406). -/
def Wave.nextAtom (w : Wave) (lane : Nat) : Option Nat :=
  (List.range w.atoms.length).find? (fun k => (w.atoms[k]?).any (fun a => a.todo.any (fun y => y.lane == lane &&
    (w.atoms.take k).all (fun b => b.todo.all (fun z => !y.place.samePeerLine z.place)))))

/-- ATOMIC_PERFORM (02 R61; 09 R238, R239): of the wave's first issued atomic with an access of that lane that may be performed, the
accesses to its location are performed. DESIGN CHOICE (log 78): a later atomic of a wave may be performed before an earlier one on the
same location of this device, where nothing of R238 orders them. -/
def execAtomicPerform (w lane : Nat) (s : State) : Step :=
  match s.waves[w]? with
  | none => .next s
  | some x => match x.nextAtom lane with
    | none => .next s
    | some k => .next ((s.performAtomic w k lane).settleAcquire w)

/-- STORE_ENTERS_COHERENCE_ORDER (05 R131): the k-th pending store of a wave that is at a releasing boundary enters. -/
def execStoreEntersCoherenceOrder (w k : Nat) (s : State) : Step :=
  match s.waves[w]? with
  | none => .next s
  | some x => match x.st with
    | .wait (.release _ _) => if x.mayRelease k then .next ((s.releaseStore w k).settleRelease w) else .next s
    | _ => .next s

/-! ### The LLC (02 R45, R54, R58) -/

/-- LLC_FILL: a line of HBM enters its slice. -/
def execLlcFill (pa : Nat) (s : State) : Step :=
  .next (if (paKind pa).isHbm then s.llcFill (pa / 128) else s)

/-- LLC_WRITE_BACK: a line leaves its slice, written back when it is dirty. -/
def execLlcWriteBack (pa : Nat) (s : State) : Step :=
  .next (if s.llcHas (pa / 128) then s.llcDrop (pa / 128) else s)

/-! ### Page walks (02 R71-R73) -/

/-- The generations for which a core resolves: those of the wave that acts on it, else the current ones (02 R73). -/
def State.walkGen (s : State) (core c n : Nat) : Word :=
  match s.waves[s.cur]? with
  | some w => if w.ctx = c ∧ w.core = core then w.gen n else s.pbGen c n
  | none => s.pbGen c n

/-- PAGE_WALK: a walk for an address of a context ends, and the TLBs of the core and its quadrant hold the translation it found, a core
its instruction TLB for an executable page and its data TLB for another (log 75). Its table lines are read through their slices. A
walk that fails, or meets a poisoned table line, leaves nothing. -/
def execPageWalk (core c : Nat) (va : DWord) (s : State) : Step :=
  .next (
    let a := vaBits va
    let gen := s.walkGen core c
    if !canonical va || (s.walkPoison (some core) .rd c gen a).isSome then s
    else match s.leafOf (some core) .rd c gen a with
      | .error _ => s
      | .ok e =>
        let log := pageLog (pteSize e)
        let t : TlbEntry := ⟨c, a / 2 ^ log, log, e, if ptePb e then some (gen (ptePbIdx e)) else none⟩
        let start := s.walkStart (some core) c a
        let s1 := (walkLines s.mem a start.1 start.2).foldl (fun u l => u.homeAccess (128 * l) false false 128) s
        s1.fillTlbs core (if pteX e then .fetch else .rd) t a)

/-! ### The weight store's refresh (02 R65) -/

/-- The phase of the refresh cycle at which the window that a phase lies in ends. -/
def windowEnd (phase : Nat) : Option Nat := if phase % 512 ≤ 63 then some (phase / 512 * 512 + 64) else none

/-- Clocks pass in the quadrants and the front end: resident waves and resident contexts count them (07 R203; 13 R315, R332;
19 R421). -/
def State.tick (s : State) (q : List Nat) (fe : Nat) : State :=
  let quads := s.quads.mapIdx (fun k (x : Quad) => { x with clock := x.clock + q.getD k 0 })
  let s1 : State := { s with
    quads := quads, feClock := s.feClock + fe
    ctxs := s.ctxs.map (fun (x : Ctx) => if x.st = .resident ∧ !x.destroyed then { x with resClock := x.resClock + fe } else x) }
  s.waves.foldl (fun t w => match s.groups[w.group]? with
    | some g => if g.st.holds && w.st != .retired then t.account (s.domainOf w.ctx) cntWaveClk (q.getD (w.core / 40) 0) else t
    | none => t) s1

/-- WS_REFRESH_WINDOW_END: the clocks of a quadrant pass to the end of the refresh window it is in. -/
def execWsRefreshWindowEnd (q : Nat) (s : State) : Step :=
  .next (match (s.quads[q]?).bind (fun x => (windowEnd (x.clock % 8192)).map (· - x.clock % 8192)) with
    | some n => s.tick (List.replicate q 0 ++ [n]) 0
    | none => s)

/-! ### Format Region Registers (02 R51, R52, R56) -/

/-- A register with its change under way, if there is one. -/
def State.regionNow (s : State) (q k : Nat) : Option Region :=
  match s.changes.find? (fun c => c.quad == q && c.reg == k) with
  | some c => some c.new
  | none => match s.quads[q]? with
    | some x => x.regions[k]?
    | none => none

/-- Is a change of the register being applied: BUSY? -/
def State.regionBusy (s : State) (q k : Nat) : Bool := s.changes.any (fun c => c.quad == q && c.reg == k)

/-- A write of region register `k`: an enabled region, or one that the write enables, first sets BUSY. -/
def State.writeRegion (s : State) (q k : Nat) (f : Region → Region) : State :=
  match s.regionNow q k with
  | none => s
  | some r =>
    let new := f r
    if r.enabled || new.enabled || s.regionBusy q k then
      { s with changes := s.changes.filter (fun c => !(c.quad == q && c.reg == k)) ++ [⟨q, k, new⟩] }
    else s.modQuad q (fun x => { x with regions := x.regions.set k new })

/-- A write of the BASE, LIMIT or SCALE of a region register. -/
def State.writeBase (s : State) (q r : Nat) (v : DWord) : State :=
  s.writeRegion q r (fun x => { x with base := v &&& 0x0000FFFFFFFFF000#64 })
def State.writeLimit (s : State) (q r : Nat) (v : DWord) : State :=
  s.writeRegion q r (fun x => { x with limit := v &&& 0x0000FFFFFFFFF000#64 })
def State.writeScale (s : State) (q r : Nat) (v : DWord) : State :=
  s.writeRegion q r (fun x => { x with scale := v &&& 0x0000FFFFFFFFFFF0#64 })

/-- A write of REGION_CTL: EN, FMT and LAYOUT; a write that sets EN is checked and leaves its result in ERR.
DESIGN CHOICE (log 85): the check is against the regions that are enabled, not against a change that is still BUSY. -/
def State.writeCtl (s : State) (q r : Nat) (v : DWord) : State :=
  let fields := v &&& 0x3F1#64
  s.writeRegion q r (fun x =>
    if v.getLsbD 0 then
      let err := match s.quads[q]? with
        | some z => regionError q r z.regions { x with ctl := fields }
        | none => 0
      if err = 0 then { x with ctl := fields }
      else { x with ctl := (fields &&& 0x3F0#64) ||| BitVec.ofNat 64 (2 ^ 16 * err) }
    else { x with ctl := fields })

def execRegionBaseWrite (q r : Nat) (v : DWord) (s : State) : Step := .next (s.writeBase q r v)
def execRegionLimitWrite (q r : Nat) (v : DWord) (s : State) : Step := .next (s.writeLimit q r v)
def execRegionScaleWrite (q r : Nat) (v : DWord) (s : State) : Step := .next (s.writeScale q r v)
def execRegionCtlWrite (q r : Nat) (v : DWord) (s : State) : Step := .next (s.writeCtl q r v)

/-- The change of a register takes effect. -/
def State.applyChange (s : State) (c : RegionChange) : State :=
  { s.applyRegion c.quad c.reg c.new with changes := s.changes.erase c }

/-- REGION_CHANGE_APPLY: BUSY clears once the lines are written back and dropped. -/
def execRegionChangeApply (q r : Nat) (s : State) : Step :=
  .next (match s.changes.find? (fun c => c.quad == q && c.reg == r) with
    | some c => s.applyChange c
    | none => s)

/-! ### Other registers (00 R6; 02 R51; 19 R399) -/

/-- A write at an offset of the block of a memory controller (02 R51). -/
def State.mcWrite (s : State) (q off : Nat) (v : DWord) : State :=
  let r := (off - 0x100) / 0x20
  if off = 8 then s.modQuad q (fun x => { x with mcCtl := v &&& 1#64 })
  else if 0x100 ≤ off ∧ off < 0x300 then
    match off % 0x20 with
    | 0x00 => s.writeBase q r v
    | 0x08 => s.writeLimit q r v
    | 0x10 => s.writeScale q r v
    | 0x18 => s.writeCtl q r v
    | _ => s
  else s

/-- REGISTER_WRITE of eight bytes: at an offset of BAR0, or at an address of a memory controller block; what is not listed,
and what is read-only, ignores it. DESIGN CHOICE (log 78): a write into MB_BUF at an offset that is no multiple of 8 writes the
quadword that holds it. DESIGN CHOICE (log 83): a write of ERRBASE drops bits [11:0] of the value, and a write of MB_DOORBELL is a
doorbell when its bit 0 is set, whatever its other bits. -/
def execRegisterWrite (off : Nat) (v : DWord) (s : State) : Step :=
  .next (
    if off = 0x10 then { s with errBase := v &&& 0xFFFFFFFFFFFFF000#64 }
    else if off = 0x18 then { s with errSize := v &&& 0xF#64 }
    else if off = 0x28 then { s with errRptr := v.extractLsb' 0 32 }
    else if 0x100000 ≤ off ∧ off < 0x101000 then
      if s.mbBusy then s else { s with mbBuf := s.mbBuf.write ((off - 0x100000) / 8 * 8) (bytesOfNat 8 v.toNat) }
    else if off = 0x101000 then
      if v.getLsbD 0 && !s.mbBusy then { s with mbBusy := true, spdmBefore := s.spdmIn.length } else s
    else if 0x1000000 ≤ off ∧ off < 0x1000000 + 0x10000 * 240 then
      if off % 0x40 = 0x10 then s.doorbell ((off - 0x1000000) / 0x40) v else s
    else if 0xC000000000 ≤ off ∧ off < 0xC004000000 then
      s.mcWrite ((off - 0xC000000000) / 0x1000000) ((off - 0xC000000000) % 0x1000000) v
    else s)

/-! ### What registers read as (02 R51, R52; 13 R304; 19 R399, R400) -/

/-- DEV_ID of a form (19 R400). -/
def DevForm.devId (f : DevForm) : DWord := BitVec.ofNat 64 (0x701011600 + 2 ^ 20 * f.code)

/-- DEV_STATUS. -/
def State.devStatus (s : State) : DWord :=
  BitVec.ofNat 64 ((if s.ready then 1 else 0) + (if s.recovery then 2 else 0) + (if s.degraded then 4 else 0) +
    (if s.throttle then 8 else 0) + (if s.thermtrip then 16 else 0))

/-- The register at an offset of the block of a ring. -/
def Ring.register (r : Ring) (off : Nat) : DWord :=
  match off with
  | 0x00 => r.base
  | 0x08 => BitVec.ofNat 64 r.logsz
  | 0x10 => r.wptr.setWidth 64
  | 0x18 => r.rptr.setWidth 64
  | 0x20 => BitVec.ofNat 64 (r.st.code + 2 ^ 8 * r.err.toNat)
  | 0x28 => r.errAddr
  | 0x30 => r.done
  | _ => 0#64

/-- The quadword that a read of BAR0 returns. -/
def State.barRead (s : State) (off : Nat) : DWord :=
  if off = 0 then s.form.devId
  else if off = 0x8 then s.devStatus
  else if off = 0x10 then s.errBase
  else if off = 0x18 then s.errSize
  else if off = 0x20 then s.errWptr.setWidth 64
  else if off = 0x28 then s.errRptr.setWidth 64
  else if 0x100000 ≤ off ∧ off < 0x101000 then s.mbBuf.quad (off - 0x100000)
  else if off = 0x101008 then BitVec.ofNat 64 ((if s.mbBusy then 1 else 0) + 2 ^ 8 * s.mbResult.toNat)
  else if 0x1000000 ≤ off ∧ off < 0x1000000 + 0x10000 * 240 then
    match s.ctxInSlot ((off - 0x1000000) / 0x10000) with
    | none => 0#64
    | some c => match (s.lastRingAt c ((off - 0x1000000) % 0x10000 / 0x40)).bind (fun k => s.rings[k]?) with
      | some r => r.register (off % 0x40)
      | none => 0#64
  else 0#64

/-- Does the weight store of a quadrant hold part of an extent of a context? DESIGN CHOICE (log 83): a context is resident in a
weight store when a weight-store extent of its allocation list lies in it. -/
def State.wsHeld (s : State) (x : Ctx) (q : Nat) : Bool :=
  (List.range x.extents).any (fun k => extWs s.mem x k && decide (0 < extSize s.mem x k) &&
    decide (memQuad (extBase s.mem x k) ≤ q) && decide (q ≤ memQuad (extBase s.mem x k + extSize s.mem x k - 1)))

/-- Has a context dispatched a group of a kernel of which not every group has retired with its copies (02 R67)? -/
def State.seals (s : State) (c : Nat) : Bool :=
  s.groups.any (fun g => g.ctx == c && g.st != .retired) || s.launches.any (fun l => l.ctx == c && l.listed && l.next != 0)

/-- Is the weight store of a quadrant sealed, for a context on the device that holds part of it (02 R67)? -/
def State.wsSealed (s : State) (q : Nat) : Bool :=
  (s.ctxs.zipIdx).any (fun x => !x.1.destroyed && x.1.st != .saved && s.wsHeld x.1 q && s.seals x.2)

/-- REGION_CTL as it reads. -/
def State.regionCtl (s : State) (q k : Nat) : DWord :=
  match s.quads[q]? with
  | some x => (x.regions.getD k Region.zero).ctl ||| (if s.regionBusy q k then 0x80000000#64 else 0#64)
  | none => 0#64

/-- The quadword that a read of a memory controller block returns. -/
def State.mcRead (s : State) (q off : Nat) : DWord :=
  match s.quads[q]? with
  | none => 0#64
  | some x =>
    let r := x.regions.getD ((off - 0x100) / 0x20) Region.zero
    if off = 0 then 0x10000#64
    else if off = 0x8 then x.mcCtl
    else if 0x100 ≤ off ∧ off < 0x300 then
      match off % 0x20 with
      | 0x00 => r.base
      | 0x08 => r.limit
      | 0x10 => r.scale
      | 0x18 => s.regionCtl q ((off - 0x100) / 0x20)
      | _ => 0#64
    else if off = 0x400 then (if s.wsSealed q then 1#64 else 0#64)
    else if off = 0x408 then BitVec.ofNat 64 x.clock
    else if off = 0x800 then x.rdBytes
    else if off = 0x808 then x.wrBytes
    else if off = 0x810 then x.llcFills
    else if off = 0x818 then x.cmpSaved
    else 0#64

end Sys2Proof.Machine
end

