-- ==== Sys2Proof/Machine/FrontEvents.lean ====
section
/-! DEFINITION. Events of the front end: doorbells, the dispatch of packets, completion of launches, bins, placement, start and
park of groups, sample groups (03 R103; 12 R282-R298; 13 R304-R332). -/

namespace Sys2Proof.Machine

/-- QWPTR_DOORBELL (13 R304). -/
def execQwptrDoorbell (slot : Nat) (v : DWord) (s : State) : Step := .next (s.doorbell slot v)

/-! ### Packets (13 R306-R312) -/

/-- PAD: skipped. -/
def execPad (c r : Nat) (s : State) : Step :=
  .next (s.serve c r 0 (fun t ring q p => (t.takePacket r ring q 0).completePacket r p stOk 0 0 0#64))

/-- KERNEL: one launch enters dispatch, with a tree of its own (13 R310, R318). -/
def execKernel (c r : Nat) (s : State) : Step :=
  .next (s.serve c r 1 (fun t ring q p =>
    match t.kernelOf c (qAt q 2) with
    | none => t
    | some k => (t.takePacket r ring q t.trees.length).launch c (.packet r p) k (qAt q 3) (pktExtent q)
        ((qAt q 5).getLsbD 32) (qAt q 6, qAt q 7, qAt q 8)))

/-- GRAPH (13 R312). -/
def execGraph (c r : Nat) (s : State) : Step :=
  .next (s.serve c r 2 (fun t ring q p =>
    match t.graphPoison c (bitsOf (qAt q 2) 0 8) with
    | some l => t.unitLost c (t.lineClass l) 0#64
    | none =>
      let table := bitsOf (qAt q 2) 0 8
      t.viaCap 3 (.graph c table 0) c 0 32 false (fun u =>
        u.viaCap 3 (.graph c table 1) c 0 (64 * graphNodes u.mem (u.graphHeader c table)) false (fun v =>
          (v.takePacket r ring q v.runs.length).beginGraph c table r p))))

/-- COPY: the acceptance checks of 03 R105, then a request at the chosen core (03 R103). -/
def execCopy (c r core : Nat) (s : State) : Step :=
  .next (s.serve c r 3 (fun t ring q p =>
    match t.copyDetail c q with
    | some k => (t.takePacket r ring q 0).completePacket r p stCopyFail k 0 0#64
    | none =>
      if t.copyCore c (CopyDesc.of (q.drop 2)) core then
        let s1 := t.takePacket r ring q t.copies.length
        { s1 with copies := s1.copies ++ [CopyReq.fresh core c 0 0 (some (r, p)) (q.drop 2) [] .queued] }
      else t))

/-- WAIT_VALUE at dispatch. -/
def execWaitValue (c r : Nat) (s : State) : Step :=
  .next (s.serve c r 4 (fun t ring q p =>
    (t.takePacket r ring q 0).rereadPacket r p))

/-- WAIT_VALUE_REREAD. -/
def execWaitValueReread (c r : Nat) (s : State) : Step :=
  .next (match s.rings[r]? with
    | some x => if x.ctx = c then (List.range x.pkts.length).foldl (fun t p => t.rereadPacket r p) s else s
    | none => s)

/-- The first open SIGNAL of a ring, with ADD as given, that no earlier packet holds back (13 R306). -/
def State.dueSignal (s : State) (r : Nat) (add : Bool) : Option Nat :=
  match s.rings[r]? with
  | none => none
  | some x => (List.range x.pkts.length).find? (fun p => s.signalDue r p && x.pkts[p]?.any (fun k => signalAdds k.quads == add))

/-- A SIGNAL packet with ADD as given (13 R306, R307): one that waits for no earlier packet any more is carried out; else the next
packet, if it is one, is dispatched, and carried out if every earlier packet has completed. -/
def State.signalPacket (s : State) (c r : Nat) (add : Bool) : State :=
  match s.dueSignal r add with
  | some p => if s.rings[r]?.any (fun x => x.ctx == c) then s.performSignal r p else s
  | none => s.serve c r 5 (fun t ring q p =>
      if signalAdds q != add then t else (t.takePacket r ring q 0).performSignal r p)

def execSignal (c r : Nat) (s : State) : Step := .next (s.signalPacket c r false)
def execSignalAdd (c r : Nat) (s : State) : Step := .next (s.signalPacket c r true)

/-- PUBLISH: it waits for the publish step of its buffer, or fails for a buffer that is not enabled (03 R99). -/
def execPublish (c r : Nat) (s : State) : Step :=
  .next (s.serve c r 6 (fun t ring q p =>
    let n := bitsOf (qAt q 2) 0 8
    match t.pbPoison c n with
    | some l => t.unitLost c (t.lineClass l) 0#64
    | none =>
    let t := t.readPb c n
    if t.pbEnabled c n then t.takePacket r ring q (t.pbGen c n).toNat
    else (t.takePacket r ring q 0).completePacket r p stPubFail 0x0F 0 0#64))

/-- A CHECKPOINT packet of a MODE (14 R347, R356). -/
def State.checkpointPacket (s : State) (c r : Nat) (save : Bool) : State :=
  s.serve c r 7 (fun t ring q p =>
    if (qAt q 2).getLsbD 0 != save then t
    else (t.takePacket r ring q 0).requestClose c ⟨.packet r p, save⟩)

def execCheckpointClose (c r : Nat) (s : State) : Step := .next (s.checkpointPacket c r false)
def execCheckpointStopSave (c r : Nat) (s : State) : Step := .next (s.checkpointPacket c r true)

/-! ### Launches and bins (13 R315, R320) -/

/-- LAUNCH_COMPLETE: a tree that is quiescent closes. -/
def execLaunchComplete (l : Nat) (s : State) : Step := .next (s.closeTree l)

/-- BIN_TIMER_EXPIRY. -/
def execBinTimerExpiry (c b : Nat) (s : State) : Step :=
  .next (s.binExpire c b)

/-! ### Groups (12 R282, R289-R298) -/

/-- The first candidate that can be placed, with its cores. -/
def State.placeable (s : State) : Option (Candidate × List Nat) :=
  s.candidates.findSome? (fun x => (s.coresFor x).map (fun k => (x, k)))

/-- Waves a member of a kernel's division. -/
def Kernel.span (k : Kernel) : Nat := (k.division.map (·.1)).getD 1

/-- A candidate takes its cores; its wait for a quadrant ends (12 R292). -/
def State.place (s0 : State) (c : Candidate) (cores : List Nat) : State :=
  let s : State := { s0 with spanWait := s0.spanWait.filter (fun e => e.1 != c) }
  match c with
  | .group g => match s.groups[g]? with
    | some x =>
      let t := s.homeLooks x.ctx x.home (((s.launches[x.launch]?).map (·.stride)).getD (0#64, 0#64, 0#64)) x.coord
      ({ t.seatGroup g x.kernel.span cores with wakeQueue := s.wakeQueue.filter (· != g) }).settleRestore x.ctx
    | none => s
  | .launch l => match s.launches[l]? with
    | some x => (s.homeLooks x.ctx x.home x.stride (coordOf x.extent x.next)).placeNew l x x.kernel.span cores
    | none => s

/-- The context of a candidate. -/
def State.candidateCtx (s : State) : Candidate → Nat
  | .group g => ((s.groups[g]?).map (·.ctx)).getD 0
  | .launch l => ((s.launches[l]?).map (·.ctx)).getD 0

/-- GROUP_PLACE: bin launches without a table look for one, span groups that find no quadrant begin to wait, and the dispatcher
places one group (12 R289-R292; 13 R314). -/
def execGroupPlace (s : State) : Step :=
  let t := s.seekTables.noteSpanWait
  .next (match t.placeable with
    | none => t
    | some (c, cores) => t.charging (t.candidateCtx c) (fun u => u.place c cores))

/-- GROUP_START: the group's granules are zeroed, and its waves start as one gang. -/
def execGroupStart (g : Nat) (s : State) : Step :=
  .next (match s.groups[g]? with
    | some x => if x.st = .starting then s.startGroup g else s
    | none => s)

/-- GROUP_PARK: every wave of a PARKING group has stopped. -/
def execGroupPark (g : Nat) (s : State) : Step := .next (s.parkGroup g)

/-! ### Sample groups (13 R324, R327) -/

/-- SGWAIT_SPIN_EXPIRY: the wave reads its object once more, and returns when it is final; else, once the spin has run out, it
stops before its SGWAIT and its group is to park. -/
def execSgwaitSpinExpiry (w : Nat) (s0 : State) : Step :=
  let s := match s0.waves[w]? with
    | some x => if s0.groupRuns x then s0.sgWaitPoll w else s0
    | none => s0
  .next (match s.waves[w]? with
    | some x => match x.st with
      | .wait (.sgspin _ t) =>
        if t ≤ s.coreClock x.core ∧ s.groupRuns x then (s.setSt w .ready).requestPark x.group else s
      | _ => s
    | none => s)

/-- SGO_TIMEOUT: an object's timeout expires. -/
def execSgoTimeout (c o : Nat) (s : State) : Step :=
  .next (match s.ctxs[c]? with
    | some x => match x.sgos.find? (fun y => y.num == o && y.live) with
      | some y => if s.ctxRuns c then s.sgTimeout c y x.resClock else s
      | none => s
    | none => s)

end Sys2Proof.Machine
end

