-- ==== Sys2Proof/Machine/WaveEvents.lean ====
section
/-! DEFINITION. Events of waves and of their engines: traps held or due, kills, stops, barrier completion, copy requests, publish
steps, matrix arrays (03 R78-R108; 07 R202; 09 R244, R247; 10 R258-R261; 14 R334-R345). -/

namespace Sys2Proof.Machine

/-! ### Traps, kills, stops -/

/-- TRAP_ENTRY: a trap held while the context was FAULTED is taken (14 R334, R339). -/
def execTrapEntry (w : Nat) (s : State) : Step :=
  .next (match s.waves[w]? with
    | some x => if s.groupRuns x && !x.stopped && !x.killed then s.takeHeld w else s
    | none => s)

/-- BOUNDARY_TRAP (14 R340). -/
def execBoundaryTrap (w : Nat) (s : State) : Step :=
  .next (match s.waves[w]? with
    | some x => if s.groupRuns x && !x.stopped && !x.killed then s.boundaryTrap w else s
    | none => s)

/-- WAVE_KILL (07 R202). -/
def execWaveKill (w : Nat) (s : State) : Step :=
  .next (match s.waves[w]? with
    | some x => if x.killed && x.killable then (s.killWave w).settleFaulted x.group else s
    | none => s)

/-- May the wave stop where it is: it is inside no boundary that must complete, and no WKILL (07 R202)? -/
def Wave.stoppable (w : Wave) : Bool :=
  !w.stopped && (match w.st with
  | .unstarted => false
  | .retired => false
  | .wait (.release _ _) => false
  | .wait (.acquire _ _) => false
  | .wait (.wkill _) => false
  | _ => true)

/-- What a stop leaves of a wave's wait and of an open group of words (06 R165; 14 R345). -/
def Wave.atStop (w : Wave) : Wave :=
  let st : WaveSt := match w.st with
    | .wait (.publ n g) => .wait (.publ n g)
    | .wait _ => .ready
    | .blocked _ _ => .ready
    | x => x
  let pc := match w.pfx with
    | some p => p.pc
    | none => w.pc
  let mirror := match w.st with
    | .wait (.hvnear _ _ _ _ scan) => { scan with valid := true }
    | _ => w.mirror
  { w with st := st, pc := pc, pfx := none, delayUntil := none, marked := false, fetched := none, mirror := mirror, stopped := true }

/-- WAVE_STOP (14 R344, R345): results first; an HVNEAR scans at most `k` entries more. The last wave to stop makes the group of a
faulted context FAULTED (12 R295). -/
def execWaveStop (w k : Nat) (s : State) : Step :=
  .next (match s.waves[w]? with
    | none => s
    | some x =>
      if s.stopAsked x && x.stoppable then
        ((((s.drainAtoms w).modWave w Wave.drainOuts).mirrorSteps w k).modWave w (fun y => { y.drainOuts.atStop with
          stopped := y.st != .retired })).settleFaulted x.group
      else s)

/-- BAR_WAIT_COMPLETE (09 R244): the phase has been reached at some point of the wait (04 R126). A trap that is due comes first, except
in a handler (14 R340). A wait on an object whose line has an uncorrectable error meets it (04 R110). -/
def execBarWaitComplete (w : Nat) (s : State) : Step :=
  .next (match s.waves[w]? with
    | none => s
    | some x => match x.st with
      | .blocked off _ =>
        if !s.groupRuns x || x.dueNow || x.killed then s
        else if x.reached then (s.setSt w .ready).release w 1 .barWait
        else if s.barBad x.group off then (s.setSt w .ready).meetPoison w (BitVec.ofNat 64 (scratchWindow + off)) 1
        else s
      | _ => s)

/-! ### Copy requests (03 R78-R108) -/

/-- A host copy has ended: its packet completes (03 R103), and nodes that waited for it may be launched (02 R67). -/
def State.endHostCopy (s : State) (q : CopyReq) (status detail : Nat) (addr : DWord) : State :=
  match q.host with
  | some (r, p) => (s.completePacket r p status detail q.counted addr).retryNodes q.ctx
  | none => s.tryEnd q.group

/-- COPY_REQUEST_START. -/
def execCopyRequestStart (core : Nat) (s : State) : Step := .next (if s.coreHeld core then s else s.startCopy core)

/-- May a running request go on now: it holds an active slot, its group runs, and no test or kill holds it (03 R78; 14 R361)? -/
def State.copyGoes (s : State) (k : Nat) (q : CopyReq) : Bool :=
  s.copyActive k && s.copyMay q && !s.copyKilled q && !s.coreHeld q.core

/-- May a request that waits on a barrier find that its line is lost? -/
def State.phaseFails (s : State) (q : CopyReq) : Bool :=
  s.phaseBad q && s.copyMay q && !s.copyKilled q && !s.coreHeld q.core

/-- COPY_PIECE_LAND: a piece of at most `n` elements lands. -/
def execCopyPieceLand (q n : Nat) (s : State) : Step :=
  .next (match s.copies[q]? with
    | none => s
    | some x =>
      if s.copyGoes q x then
        let s1 := (s.landPiece q n).workDone (.copyEngine x.core) (if x.host.isSome then none else some x.wave)
        match s1.copies[q]? with
        | some y => if y.st = .done then s1.endHostCopy y stOk 0 0#64 else s1
        | none => s1
      else s)

/-- COPY_REQUEST_FAIL: the unit at LOW faults, or a barrier of the request is lost. Lost data rolls the context back when it has an image (14 R362); the
detail of a host copy that fails so is a free value (log 5). -/
def execCopyRequestFail (q : Nat) (s : State) : Step :=
  .next (match s.copies[q]?, s.copyFault q with
    | some x, some t =>
      if s.copyGoes q x || s.phaseFails x then
        if t.cause = causeEcc ∧ s.hasImage x.ctx then s.rollbackFor x.ctx t.detail.toNat
        else
          let (v, s1) := s.draw
          let s2 := if t.cause = causeEcc ∧ x.host.isSome then s1 else s
          (s2.failCopy q t).endHostCopy x stCopyFail
            (if t.cause = causeEcc then v.toNat % 2 ^ 16 else t.detail.toNat) t.addr
      else s
    | _, _ => s)

/-- COPY_REQUEST_CANCEL (03 R108). -/
def execCopyRequestCancel (q : Nat) (s : State) : Step :=
  .next (match s.copies[q]? with
    | some x =>
      if s.copyKilled x && !x.st.ended && x.st != .reserved then
        let s1 := s.modCopy q (fun y => { y with st := .cancelled })
        if x.host.isSome then s1.retryNodes x.ctx else s1.tryEnd x.group
      else s
    | none => s)

/-- FOLLOW_ON_ISSUE (03 R95). -/
def execFollowOnIssue (q : Nat) (s : State) : Step :=
  .next (match s.copies[q]? with
    | some x => if s.copyMay x && !s.copyKilled x && !s.coreHeld x.core then (s.issueFollow q).tryEnd x.group else s
    | none => s)

/-! ### Publish steps (03 R99; 09 R247) -/

/-- The waves in step 4 of a PUBL of a buffer whose generation is no longer the one they read go on. -/
def State.endPubls (s : State) (c n : Nat) : State :=
  ((List.range s.waves.length).filter (fun w => match s.waves[w]? with
    | some x => x.ctx == c && !x.stopped && (match x.st with
      | .wait (.publ m g) => m == n && s.pbGen c n != g
      | _ => false)
    | none => false)).foldl (fun t w => t.proceed w) s

/-- The open PUBLISH packets of a buffer whose generation is no longer the one they found, as (ring, packet). -/
def State.donePublishes (s : State) (c n : Nat) : List (Nat × Nat) :=
  (List.range s.rings.length).flatMap (fun r => match s.rings[r]? with
    | some x => if x.ctx = c then ((List.range x.pkts.length).filter (fun p => match x.pkts[p]? with
        | some k => !k.done && pktType k.quads == 6 && bitsOf (qAt k.quads 2) 0 8 == n && k.ref != (s.pbGen c n).toNat
        | none => false)).map (fun p => (r, p)) else []
    | none => [])

/-- PUBLISH_STEP: when a PUBL or a PUBLISH of the current generation has begun and nothing bound to the next one is under
way, the generation advances; those that waited complete. -/
def execPublishStep (c n : Nat) (s : State) : Step :=
  .next (
    if s.ctxRuns c then
      let g := s.pbGen c n
      let s1 := if s.publishWaits c n && !s.boundUnder c n (g + 1#32) then s.publishStep c n g else s
      (s1.donePublishes c n).foldl (fun t k => t.completePacket k.1 k.2 stOk 0 0 0#64) (s1.endPubls c n)
    else s)

/-! ### Matrix arrays (10 R256-R261) -/

/-- After the head command of an array, of one of some kinds, has run or has met lost data: its group may end, and the unit has done its work. Lost data
reaches the wave that issued the command, which is abandoned (14 R340, R362). DESIGN CHOICE (log 83): a command that meets lost data
without a committed image ends at once, and still makes its arrival on MBAR. -/
def State.afterArray (s : State) (core a : Nat) (kinds : List MKind) (r : Except TrapInfo State) : State :=
  match s.headCmd core a with
  | some (k, c) =>
    if s.coreHeld core || !kinds.contains c.kind then s
    else match r with
      | .ok s1 => (s1.workDone (.array core a) (some c.wave)).tryEnd c.group
      | .error t =>
        if s.hasImage c.ctx then s.rollbackFor c.ctx t.detail.toNat
        else ((s.finishCmd k c).enginePoison c.ctx (some c.wave) t.detail.toNat).tryEnd c.group
  | none => s

/-- ARRAY_PASS. -/
def execArrayPass (core a : Nat) (s : State) : Step := .next (s.afterArray core a [.mma, .follow] (s.arrayPass core a))

/-- ACCZ_RUN. -/
def execAcczRun (core a : Nat) (s : State) : Step := .next (s.afterArray core a [.accz] (.ok (s.acczRun core a)))

/-- ACCLD_RUN. -/
def execAccldRun (core a : Nat) (s : State) : Step := .next (s.afterArray core a [.accld] (s.accldRun core a))

end Sys2Proof.Machine
end

