-- ==== Sys2Proof/Machine/AgEvents.lean ====
section
/-! DEFINITION. Events of Afterglow and of hardware errors (14 R346-R365). -/

namespace Sys2Proof.Machine

/-! ### Afterglow -/

/-- INTERVAL_CLOSE: the next requested close of a context begins its stop (14 R347, R348). -/
def execIntervalClose (c : Nat) (s : State) : Step := .next (s.beginClose c)

/-- CUT_CAPTURE (14 R348). -/
def execCutCapture (c : Nat) (s : State) : Step := .next (s.cut c)

/-- The period of CKPTINTV in clocks (14 R342). -/
def Ctx.ckptPeriod (x : Ctx) : Nat := 65536 * (x.act.ckptIntv.extractLsb' 0 16).toNat

/-- CKPTINTV_EXPIRY (14 R347). -/
def execCkptintvExpiry (c : Nat) (s : State) : Step :=
  .next (match s.ctxs[c]? with
    | some x =>
      if x.st = .resident ∧ x.ckptPeriod ≠ 0 ∧ x.act.ckptSize ≠ 0#64 ∧ x.ckptPeriod ≤ x.resClock - x.ckptStart then
        (s.requestClose c ⟨.device, false⟩).modCtx c (fun y => { y with ckptStart := y.resClock })
      else s
    | none => s)

/-- AG_STREAM_ITEM (14 R349). -/
def execAgStreamItem (c k : Nat) (s : State) : Step := .next (s.streamItem c k)

/-- AG_COMMIT (14 R352, R353). -/
def execAgCommit (c : Nat) (s : State) : Step := .next (s.commit c)

/-- AG_PEND_UPDATE (14 R355). -/
def execAgPendUpdate (c : Nat) (s : State) : Step :=
  .next (match s.ctxs[c]? with
    | some x => if x.st = .resident then s.updatePend c else s
    | none => s)

/-! ### Errors (14 R360-R365) -/

/-- A core counts a correctable error of its Core Store: of a pool line, or of an L1 line (04 R108, R110; 07 R200). -/
def State.countCs (s : State) (c : Nat) : State := s.modCore c (fun k => { k with csErr := k.csErr + 1#64 })

/-- ECC_CORRECTABLE: corrected in place and counted (14 R360; 07 R200). -/
def execEccCorrectable (u : HwUnit) (s : State) : Step :=
  .next (match s.correctableCode u with
    | none => s
    | some code =>
      let s1 := s.lifeAdd (ltCe code)
      match u with
      | .coreStore c _ => s1.countCs c
      | .cacheLine c line => if (s.cores[c]?).any (fun k => k.l1.any (fun y => y.line == line)) then s1.countCs c else s1
      | _ => s1)

/-- A line with a clean copy elsewhere is dropped (14 R360). -/
def State.dropClean (s : State) (u : HwUnit) : State :=
  match u with
  | .line pa => s.llcDrop (pa / 128)
  | .cacheLine c line =>
    let lost := match s.cores[c]? with
      | some k => k.l1.filter (fun y => y.line == line)
      | none => []
    (s.loseCopies lost).modCore c (fun k => { k with
      l1 := k.l1.filter (fun y => y.line != line), icache := k.icache.filter (fun y => y.line != line) })
  | _ => s

/-- Data that exists nowhere else is poisoned (02 R49; 04 R110; 10 R250; 14 R360). -/
def State.poisonUnit (s : State) (u : HwUnit) : State :=
  match u with
  | .line pa => { s with poison := addMark s.poison (pa / 128) }
  | _ => match s.unitItem u with
    | some i => { s with bad := addMark s.bad i }
    | none => s

/-- ECC_UNCORRECTABLE. -/
def execEccUncorrectable (u : HwUnit) (s : State) : Step :=
  .next (match s.errorClass u with
    | none => s
    | some (code, .clean) => ((s.countError u code).dropClean u).beginTest u code .clean
    | some (code, cls) => ((s.countError u code).poisonUnit u).beginTest u code cls)

/-- Units with parity and internal checks (14 R360). -/
def logicUnit : HwUnit → Bool
  | .core _ => true
  | .array _ _ => true
  | .copyEngine _ => true
  | .frontEnd => true
  | _ => false

/-- LOGIC_ERROR: a self-test, after which the work is replayed (14 R360-R362). -/
def execLogicError (u : HwUnit) (s : State) : Step :=
  .next (if logicUnit u then (s.countError u 8).beginTest u 8 .logic else s)

/-- LINK_FLIT_RETRY: 16 retries on a lane within 2^20 clocks start its self-test (14 R360). -/
def execLinkFlitRetry (link : Nat) (s : State) : Step :=
  .next (
    let now := s.feClock
    let recent := s.retries.filter (fun r => r.1 == link && decide (now < r.2 + 2 ^ 20))
    let others := s.retries.filter (fun r => r.1 != link)
    if 16 ≤ recent.length + 1 then ({ s with retries := others }).beginTest (.link link) 0 .lane
    else { s with retries := others ++ recent ++ [(link, now)] })

/-- SELF_TEST_VERDICT (14 R361-R364). -/
def execSelfTestVerdict (k : Nat) (ok : Bool) (s : State) : Step := .next (s.verdict k ok)

/-- POWERED_ON_HOUR (14 R365). -/
def execPoweredOnHour (s : State) : Step := .next ({ s with hours := s.hours + 1#64 }.lifeAdd ltHours)

end Sys2Proof.Machine
end

