-- ==== Sys2Proof/Machine/Migrate.lean ====
section
/-! DEFINITION. A committed image in the checkpoint tier that this device has not written itself, or has written before a reset:
its parts get positions in the tables of this device, and a context takes it as its own (14 R357; 17 R387; log 73). -/

namespace Sys2Proof.Machine

/-! ### Positions -/

/-- Where the entries of an image stand in the tables of this device. `dead` is a retired wave, which stands for the waves that the
image no longer has. -/
structure Shift where
  ctx : Nat
  waves : List (Nat × Nat)
  groups : List (Nat × Nat)
  copies : List (Nat × Nat)
  cmds : List (Nat × Nat)
  rings : List (Nat × Nat)
  launches : List (Nat × Nat)
  trees : List (Nat × Nat)
  runs : List (Nat × Nat)
  dead : Nat
  deriving DecidableEq, Repr

/-- A position that no table reaches. -/
def nowhere : Nat := 2 ^ 64

/-- The entries of a part of an image stand one after the other from a position on. -/
def placesFrom {α : Type} (base : Nat) (es : List (Nat × α)) : List (Nat × Nat) := (es.zipIdx).map (fun e => (e.1.1, base + e.2))

/-- The new position of an entry. -/
def movedTo (l : List (Nat × Nat)) (other k : Nat) : Nat := ((l.find? (fun e => e.1 == k)).map (·.2)).getD other

/-- The ring of a context with a number, if it has not been destroyed. -/
def State.ringOf (s : State) (c num : Nat) : Option Nat := s.rings.findIdx? (fun r => r.ctx == c && r.num == num && r.st != .free)

/-- The rings of an image that the context does not have on this device. -/
def State.newRings (s : State) (c : Nat) (img : Image) : List (Nat × Ring) :=
  img.rings.filter (fun e => (s.ringOf c e.2.num).isNone)

/-- New positions for the parts of an image; a ring that the context has keeps its place. -/
def State.shiftFor (s : State) (c : Nat) (img : Image) : Shift :=
  { ctx := c, waves := placesFrom s.waves.length img.waves, groups := placesFrom s.groups.length img.groups
    copies := placesFrom s.copies.length img.copies, cmds := placesFrom s.cmds.length img.cmds
    rings := placesFrom s.rings.length (s.newRings c img) ++
      img.rings.filterMap (fun e => (s.ringOf c e.2.num).map (fun k => (e.1, k)))
    launches := placesFrom s.launches.length img.launches, trees := placesFrom s.trees.length img.trees
    runs := placesFrom s.runs.length img.runs, dead := s.waves.length + img.waves.length }

/-! ### Entries -/

def Shift.origin (h : Shift) : Origin → Origin
  | .packet r p => .packet (movedTo h.rings nowhere r) p
  | .node r n => .node (movedTo h.runs nowhere r) n
  | .bin b => .bin b

def Shift.cont (h : Shift) : Cont → Cont
  | .copyk q => .copyk (movedTo h.copies nowhere q)
  | k => k

def Shift.wait (h : Shift) : WaitFor → WaitFor
  | .release scope k => .release scope (h.cont k)
  | .mwait acc cmds => .mwait acc (cmds.map (movedTo h.cmds nowhere))
  | .wkill w => .wkill (movedTo h.waves h.dead w)
  | f => f

def Shift.wave (h : Shift) (w : Wave) : Wave :=
  { w with
    group := movedTo h.groups nowhere w.group, ctx := h.ctx
    st := match w.st with
      | .wait f => .wait (h.wait f)
      | st => st }

def Shift.array (h : Shift) (a : ArrayUnit) : ArrayUnit := { a with queue := a.queue.map (movedTo h.cmds nowhere) }

def Shift.group (h : Shift) (g : Group) : Group :=
  { g with
    ctx := h.ctx, launch := movedTo h.launches nowhere g.launch, waves := g.waves.map (movedTo h.waves h.dead)
    tree := movedTo h.trees nowhere g.tree, saved := g.saved.map (fun m => m.map h.array) }

def Shift.copy (h : Shift) (q : CopyReq) : CopyReq :=
  { q with
    ctx := h.ctx, group := movedTo h.groups nowhere q.group, wave := movedTo h.waves h.dead q.wave
    host := q.host.map (fun p => (movedTo h.rings nowhere p.1, p.2)) }

def Shift.cmd (h : Shift) (k : MCmd) : MCmd :=
  { k with ctx := h.ctx, group := movedTo h.groups nowhere k.group, wave := movedTo h.waves h.dead k.wave }

def Shift.launch (h : Shift) (l : Launch) : Launch :=
  { l with ctx := h.ctx, tree := movedTo h.trees nowhere l.tree, origin := h.origin l.origin }

def Shift.tree (h : Shift) (t : Tree) : Tree := { t with ctx := h.ctx, origin := h.origin t.origin }

def Shift.run (h : Shift) (r : GraphRun) : GraphRun := { r with ctx := h.ctx, ring := movedTo h.rings nowhere r.ring }

def Shift.item (h : Shift) : AgItem → AgItem
  | .wavePool w l => .wavePool (movedTo h.waves h.dead w) l
  | .waveState w => .waveState (movedTo h.waves h.dead w)
  | .groupPool g l => .groupPool (movedTo h.groups nowhere g) l
  | .groupState g => .groupState (movedTo h.groups nowhere g)
  | .tile g m a t => .tile (movedTo h.groups nowhere g) m a t
  | .wbuf g m a l => .wbuf (movedTo h.groups nowhere g) m a l
  | .copyRec q => .copyRec (movedTo h.copies nowhere q)
  | .cmdRec k => .cmdRec (movedTo h.cmds nowhere k)
  | .free g => .free (movedTo h.groups nowhere g)
  | i => i

/-- Entries of a part of an image at their new positions. -/
def Shift.part {α : Type} (pos : List (Nat × Nat)) (f : α → α) (es : List (Nat × α)) : List (Nat × α) :=
  es.map (fun e => (movedTo pos nowhere e.1, f e.2))

/-- An image with the positions of this device. -/
def Shift.image (h : Shift) (img : Image) : Image :=
  { img with
    waves := Shift.part h.waves h.wave img.waves, groups := Shift.part h.groups h.group img.groups
    copies := Shift.part h.copies h.copy img.copies, cmds := Shift.part h.cmds h.cmd img.cmds
    rings := Shift.part h.rings (fun r => { r with ctx := h.ctx }) img.rings
    launches := Shift.part h.launches h.launch img.launches, trees := Shift.part h.trees h.tree img.trees
    runs := Shift.part h.runs h.run img.runs, wakes := img.wakes.map (movedTo h.groups nowhere)
    bins := img.bins.map (fun b => (b.1, { b.2 with tree := movedTo h.trees nowhere b.2.tree }))
    sgos := img.sgos.map (fun o => { o with tree := movedTo h.trees nowhere o.tree }) }

/-! ### Taking an image (14 R357) -/

/-- Room for the entries of an image: they stand in the tables as ended ones until they are put back; rings that the context does not
have come with the front-end state. -/
def State.makeRoom (s : State) (c : Nat) (img : Image) : State :=
  let h := s.shiftFor c img
  let i := h.image img
  let dead : Wave := Wave.fresh nowhere c 0 0 0 0 ⟨0#64, 0, 0, 0, 0⟩ 0#64 []
  { s with
    waves := s.waves ++ i.waves.map (fun e => e.2.gone) ++ [dead.gone]
    groups := s.groups ++ i.groups.map (fun e => e.2.gone), copies := s.copies ++ i.copies.map (fun e => e.2.gone)
    cmds := s.cmds ++ i.cmds.map (fun e => e.2.gone), launches := s.launches ++ i.launches.map (fun e => e.2.gone)
    trees := s.trees ++ i.trees.map (fun e => e.2.gone), runs := s.runs ++ i.runs.map (fun e => e.2.gone)
    rings := s.rings ++ (s.newRings c img).map (fun e => { e.2 with ctx := c }) }

/-- The rings that come with an image get their entries in the capability table (19 R408). -/
def State.holdRings (s : State) (c first : Nat) : State :=
  ((s.rings.zipIdx).drop first).foldl (fun t e => t.grant (.ring e.2) e.1.base (16 * 2 ^ e.1.logsz) true false (s.ownerOf c)) s

/-- A context takes the number of an image, which it keeps across devices, unless another context here has it (14 R342; log 73). What
Lantern holds for the context goes with the number. -/
def State.renumber (s : State) (c : Nat) (num : BitVec 32) : State :=
  let old := s.ownerOf c
  if (s.ctxs.zipIdx).any (fun x => x.2 != c && x.1.id == num && !x.1.destroyed) then s
  else { s.modCtx c (fun x => { x with id := num }) with
    caps := s.caps.map (fun k => if k.live ∧ k.owner = old then { k with owner := num } else k) }

/-- A context takes an image of the tier as its committed image. -/
def State.adopt (s0 : State) (c : Nat) (t : TierImage) : State :=
  let s := s0.renumber c t.num
  let h := s.shiftFor c t.image
  let s1 := ((s.makeRoom c t.image).holdRings c s.rings.length).modCtx c (fun x => { x with
    image := some (h.image t.image), agChain := t.chain, agOpen := t.image.ivl + 1, agFirst := false
    agRecs := t.recs.map (fun r => (h.item r.1, r.2)), agPtr := t.ptr, agBad := t.bad })
  { s1 with tier := s1.tier.filter (fun u => u.base != t.base) }

/-- The image of the tier from which a context resumes that has none of its own: the one at its CKPTBASE (log 73). -/
def State.tierFor (s : State) (x : Ctx) : Option TierImage :=
  if x.image.isSome || x.regs.ckptSize == 0#64 then none else s.tier.find? (fun t => t.base == x.regs.ckptBase)

/-- The images of this device's contexts, as a reset leaves them in the tier. -/
def State.tierImages (s : State) : List TierImage :=
  s.ctxs.filterMap (fun x => if x.destroyed then none else x.image.map (fun i =>
    { num := x.id, base := x.act.ckptBase, image := i, chain := x.agChain, recs := x.agRecs, ptr := x.agPtr, bad := x.agBad }))

end Sys2Proof.Machine
end

