-- ==== Sys2Proof/Machine/DeviceEvents.lean ====
section
/-! DEFINITION. Events of the host, of peers, of the checkpoint ports, of power and heat; reset and bring-up
(14 R364; 19 R402-R407, R413, R415, R419-R422). -/

namespace Sys2Proof.Machine

/-! ### Accesses from outside (19 R402, R406) -/

/-- Is an address of HBM in a memory-side page of a table: `n` levels from a table on (02 R60, R69, R70)? -/
def mapsMs (m : Mem) (pa : Nat) : Nat → Nat → Bool
  | 0, _ => false
  | n + 1, table =>
    (paKind table).isHbm && (List.range 512).any (fun i =>
      let e := m.quad (table + 8 * i)
      pteValid e && (if pteTable e then mapsMs m pa n (ptePa e)
        else pteMs e && !ptePb e && decide (ptePa e ≤ pa) && decide (pa < ptePa e + 2 ^ pageLog (pteSize e))))

/-- Is a line memory-side: does a page of a context on the device hold it so, and no format region cover it (02 R60)? -/
def State.memorySide (s : State) (pa : Nat) : Bool :=
  !s.regionCovers pa && s.ctxs.any (fun x => !x.destroyed && x.st != .saved &&
    mapsMs s.mem pa 5 ((x.act.ptroot.extractLsb' 12 36).toNat * 4096))

/-- An access of an outside agent to the device's HBM, performed at the home of its lines, or at the base die for memory-side lines; `die`
has every atomic performed there, after the slice has given up its line (19 R402, R406). -/
def State.outsideAccess (s : State) (die : Bool) (op : HostOp) : State :=
  match op with
  | .read pa n =>
    if (paKind pa).isHbm ∧ 0 < n then
      (linesOf pa n).foldl (fun t l =>
        let lo := max pa (128 * l)
        t.homeAccess lo (t.memorySide lo) false (min (pa + n) (128 * l + 128) - lo)) s
    else s
  | .write pa bs =>
    if (paKind pa).isHbm then s.agentWrites ((bs.zipIdx).map (fun b => (⟨pa + b.2, s.memorySide (pa + b.2)⟩, b.1))) none else s
  | .atomic op wide pa v r =>
    let n := if wide then 8 else 4
    if (paKind pa).isHbm ∧ pa % n = 0 then
      let ms := die || s.memorySide pa
      let x : AtomAccess := ⟨0, 0#64, .phys pa ms, v, r⟩
      let old := BitVec.ofNat 64 (s.mem.num pa n)
      let s1 := s.homeAccess pa ms false n
      if atomWrites op wide old x then s1.enterPhys none pa ms ((bytesOfNat n (atomResult op wide old x).toNat).map some) none
      else s1
    else s

/-- The address of an access, and the one after its last byte. -/
def opAddr : HostOp → Nat
  | .read pa _ => pa
  | .write pa _ => pa
  | .atomic _ _ pa _ _ => pa
def opEnd : HostOp → Nat
  | .read pa n => pa + n
  | .write pa bs => pa + bs.length
  | .atomic _ wide pa _ _ => pa + (if wide then 8 else 4)

/-- HOST_HDM_ACCESS: BAR2 reaches the HBM, below 512 GiB; another access ends with an unsupported-request error and is logged
(19 R402; log 80). -/
def execHostHdmAccess (op : HostOp) (s : State) : Step :=
  .next (if opEnd op ≤ 0x8000000000 then s.outsideAccess false op else { s with refusedHost := s.refusedHost ++ [opAddr op] })

/-- PEER_REQUEST: an access from a peer that is UP (19 R406). -/
def execPeerRequest (p : Nat) (op : HostOp) (s : State) : Step :=
  .next (if s.peerUp p && decide (opEnd op ≤ 0x8000000000) then s.outsideAccess true op else s)

/-- The first access of a wave's issued atomics that is to be performed at a peer: the atomic and the lane. -/
def Wave.peerAtom (w : Wave) (p : Nat) : Option (Nat × Nat) :=
  (w.atoms.zipIdx).findSome? (fun a => (a.1.todo.find? (fun x => x.place.peer == some p)).map (fun x => (a.2, x.lane)))

/-- The accesses of a wave's atomics at a peer are performed, at most `fuel` of them. -/
def State.endPeerAtoms (s : State) (p wid : Nat) : Nat → State
  | 0 => s
  | n + 1 => match (s.waves[wid]?).bind (fun w => w.peerAtom p) with
    | some (k, lane) => (s.performAtomic wid k lane).endPeerAtoms p wid n
    | none => s

/-- What a wave has outstanding at a peer whose links have failed ends: loads give 0xFF in every byte, atomics give all ones and change
nothing, and stores that are being released are discarded (19 R407). -/
def State.losePeer (s : State) (p wid : Nat) : State :=
  match s.waves[wid]? with
  | none => s
  | some w =>
    let s1 := ((s.modWave wid (fun x => x.loseFar p)).endPeerAtoms p wid (w.atoms.foldl (fun n a => n + a.todo.length) 0)).modWave wid
      (fun x => match x.st with
        | .wait (.release _ _) => { x with pend := x.pend.filter (fun q => q.place.peer != some p) }
        | _ => x)
    (s1.settleAcquire wid).settleRelease wid

/-- The ports that reach a peer (19 R405). -/
def State.peerPorts (s : State) (p : Nat) : BitVec 16 := ((s.peers[p]?).map (·.ports)).getD 0#16

/-- Has no port to a peer that is UP trained? -/
def State.cutOff (s : State) (p : Nat) : Bool := s.peerUp p && s.peerPorts p &&& s.linkPorts == 0#16

/-- A peer to which every port has failed is DOWN, the host is told, and what waves have outstanding there ends (19 R407). -/
def State.peerLost (s : State) (p : Nat) : State :=
  let s1 := ({ s with peers := s.peers.modify p (fun x => { x with st := .down }) }).report errPeerDown p noContext 0#64 0 0
  (List.range s1.waves.length).foldl (fun t w => t.losePeer p w) s1

/-- PEER_LINK_DOWN: every port to the peer has failed; another peer that they alone reach is lost with it (19 R407). -/
def execPeerLinkDown (p : Nat) (s : State) : Step :=
  .next (if s.peerUp p then
      let s1 := { s with linkPorts := s.linkPorts &&& ~~~(s.peerPorts p) }
      ((List.range 64).filter (fun k => k == p || s1.cutOff k)).foldl State.peerLost s1
    else s)

/-- The ports to a peer that can train: a port that failed to train at a reset stays down until the next (19 R422). -/
def State.trainable (s : State) (p : Nat) : BitVec 16 := s.peerPorts p &&& ~~~s.deadPorts

/-- PEER_LINK_RETRAIN: its ports have trained again, and its identity is confirmed (19 R407). A peer none of whose ports can train
stays DOWN. -/
def execPeerLinkRetrain (p : Nat) (s : State) : Step :=
  .next (if s.peers[p]?.any (·.st == .down) && s.trainable p != 0#16 then
      { s with
        linkPorts := s.linkPorts ||| s.trainable p, peers := s.peers.modify p (fun x => { x with st := .up }) }
    else s)

/-! ### Checkpoint ports (19 R404) -/

/-- CKPT_PORT_DOWN: the intervals that are being streamed do not commit. -/
def execCkptPortDown (p : Nat) (s : State) : Step :=
  .next { s with
    ports := s.ports.set p false
    ctxs := s.ctxs.map (fun x => if x.agCut.isSome ∧ p < s.ports.length then { x with agDown := some (x.agDown.getD p) } else x) }
def execCheckpointPortUp (p : Nat) (s : State) : Step := .next { s with ports := s.ports.set p true }

/-! ### Power and heat (19 R419, R420) -/

/-- An estimate of the energy of a window for each domain with a resident context (07 R203): free values below 2^16
(log 23). -/
def State.addEnergy (s : State) : State :=
  (List.range 64).foldl (fun t d =>
    if t.ctxs.any (fun c => c.st == .resident && (c.act.ctl.extractLsb' 0 6).toNat == d && !c.destroyed) then
      let (x, t1) := t.draw
      t1.account d cntEnergy (x.toNat % 65536)
    else t) s

/-- POWER_THROTTLE_WINDOW: a window of 4096 clocks with a mean power of `mw` milliwatts ends; over the limit, or with a hot
junction, a number of sixty-fourths that the spec does not give is withheld (log 23). -/
def execPowerThrottleWindow (mw : Nat) (s : State) : Step :=
  .next (
    let s1 := s.addEnergy
    if s1.powerCap * 1000 < mw ∨ s1.hot then
      let (x, s2) := s1.draw
      { s2 with withheld := x.toNat % 64 + 1, throttle := true }
    else { s1 with withheld := 0, throttle := false })

/-- THERMAL_THROTTLE: a junction reaches 100 degrees, or falls below. -/
def execThermalThrottle (on : Bool) (s : State) : Step :=
  .next { s with hot := on, throttle := on || s.withheld != 0 }

/-- Is the context one that a stop of the device concerns: neither saved nor killed? A save that is under way may fail (14 R356). -/
def Ctx.onDevice (x : Ctx) : Bool := !x.destroyed && x.st != .saved && (x.st != .stopping || x.agBy.any (·.save))

/-- Is a save of the device still to come or under way? -/
def Ctx.savePending (x : Ctx) : Bool :=
  !x.destroyed && x.st != .saved && (x.agQueue.any (fun r => r.origin == .device && r.save) || x.agBy.any (fun r => r.origin == .device && r.save))

/-- After THERMTRIP, when every context is saved or FAULTED, issue on all cores halts and the host is told (19 R420). -/
def State.settleThermal (s : State) : State :=
  if s.thermtrip && !s.issueHalt && !(s.ctxs.any Ctx.savePending) then
    ({ s with issueHalt := true }).report errThermal 0 noContext 0#64 0 0
  else s

/-- THERMTRIP: every context is stopped and saved, or FAULTED where it cannot be (19 R420). A second one changes nothing. -/
def execThermtrip (s : State) : Step :=
  .next (
    if s.thermtrip then s
    else
      let l := (List.range s.ctxs.length).filter (fun c => match s.ctxs[c]? with
        | some x => x.onDevice
        | none => false)
      (l.foldl (fun (t : State) c => t.requestClose c ⟨.device, true⟩) { s with thermtrip := true }).settleThermal)

/-! ### Reset and bring-up (19 R413, R415, R422) -/

/-- Does the ROM accept the stored image (19 R415)? -/
def State.imageOk (s : State) (image : List (BitVec 8)) : Bool :=
  Config.imageSigned image && decide (s.fusedVersion ≤ Config.imageVersion image)

/-- The board configuration that measurement 5 hashes (19 R413): FORM, the eight HBM stacks, the two checkpoint ports and the sixteen
Peer Link ports that every form has (00 R1, R2; log 9). -/
def State.boardConfig (s : State) : List (BitVec 8) :=
  bytesOfNat 8 s.form.code ++ bytesOfNat 8 0xFF ++ bytesOfNat 8 0x3 ++ bytesOfNat 8 0xFFFF

/-- Measurements 1, 2, 3 and 5 (19 R413; log 9). -/
def State.measureBoot (s : State) : State :=
  { s with measurements := [Config.sha3 Config.romCode,
      Config.sha3 (bytesOfNat 8 s.fusedVersion ++ bytesOfNat 8 (0x0100 + s.form.code) ++ bytesOfNat 32 Config.identityDigest.toNat),
      Config.sha3 s.firmware, s.measurements.getD 3 0#256, Config.sha3 s.boardConfig] }

/-- A failure that step 2 or 3 of the bring-up answers with a fence, and what a step 4 failure leaves down (19 R422; 14 R364). -/
def State.bootFail (s : State) : BootFailure → State
  | .channel pa => if (paKind pa).isHbm then
      { s with fencedUnits := addMark s.fencedUnits (.line pa), degraded := true } else s
  | .bankGroup pa => if (paKind pa).isWs then
      { s with fencedUnits := addMark s.fencedUnits (.line pa), degraded := true } else s
  | .llcSet pa => if (paKind pa).isHbm then { s.fenceWay (pa / 128) with degraded := true } else s
  | .core k => if k < 160 then
      { s.modCore k (fun c => { c with fenced := true }) with fencedUnits := addMark s.fencedUnits (.core k), degraded := true } else s
  | .hostLink => s
  | .ckptPort p => { s with ports := s.ports.set p false }
  | .peerPort p => { s with linkPorts := s.linkPorts &&& ~~~(1#16 <<< p), deadPorts := s.deadPorts ||| (1#16 <<< p) }

/-- Does a failure belong to step 4, which names no fence (19 R422)? -/
def BootFailure.inTraining : BootFailure → Bool
  | .hostLink => true
  | .ckptPort p => decide (p < 2)
  | .peerPort p => decide (p < 16)
  | _ => false

/-- Steps 2 to 5 of the bring-up, with what fails in them. READY stays clear when step 4 fails (19 R422). -/
def State.bringUp (s : State) (fails : List BootFailure) : State :=
  let s1 := fails.foldl State.bootFail s
  if fails.any BootFailure.inTraining then s1 else { s1.measureFeatures with ready := true }

/-- DEVICE_RESET: the state of reset, with what the device keeps across resets: the lifetime record, the stored image, the
count of resets, its form; the memory of the host and of peers is not the device's, and the checkpoint tier keeps the images that have
been committed (14 R357; log 73). -/
def execDeviceReset (fails : List BootFailure) (s : State) : Step :=
  .next (
    let r : State := { State.reset with
      agenda := s.agenda, draws := s.draws, epoch := s.epoch + 1#32, snapSeq := s.snapSeq, hours := s.hours, life := s.life,
      lastErr := s.lastErr, firmware := s.firmware, fusedVersion := s.fusedVersion, form := s.form
      powerCap := s.form.maxPower, tier := s.tier ++ s.tierImages
      mem := ⟨s.mem.cells.filter (fun c => match paKind c.1 with
        | .host => true
        | .peer _ => true
        | _ => false), []⟩ }
    let m := r.measureBoot
    if m.imageOk m.firmware then m.bringUp fails else { m with recovery := true })

end Sys2Proof.Machine
end

