-- ==== Sys2Proof/Machine/Services.lean ====
section
/-! DEFINITION. The host mailbox and Lantern's services that act on contexts, rings, bins and tables (19 R409-R412; 14 R342,
R347, R356, R357; 13 R304, R311, R313, R321; 03 R96; 02 R74). -/

namespace Sys2Proof.Machine

/-! ### The mailbox (19 R409, R410) -/

def resOk : Nat := 0
def resBadImage : Nat := 1
def resBadService : Nat := 2
def resBadLength : Nat := 3
def resBadField : Nat := 4
def resNoCtx : Nat := 5
def resState : Nat := 6
def resNoResource : Nat := 7
def resRefused : Nat := 8
def resRecovery : Nat := 9
def resCkptFail : Nat := 0x0A

/-- The fields of the request in MB_BUF (19 R409). -/
def State.mbService (s : State) : Nat := s.mbBuf.num 0 2
def State.mbLength (s : State) : Nat := s.mbBuf.num 4 4
def State.mbTag (s : State) : DWord := s.mbBuf.quad 8
def State.mbCtx (s : State) : BitVec 32 := BitVec.ofNat 32 (s.mbBuf.num 16 4)
/-- Body qword n. -/
def State.mbB (s : State) (n : Nat) : DWord := s.mbBuf.quad (32 + 8 * n)

/-- The reserved fields of the request header are zero. -/
def State.mbHeaderOk (s : State) : Bool :=
  s.mbBuf.num 2 2 == 0 && s.mbBuf.num 20 4 == 0 && s.mbBuf.num 24 8 == 0

/-- What a service answers: the state it leaves, the result and its detail, the context number and the body of the response. -/
structure Answer where
  state : State
  result : Nat
  detail : Nat
  ctx : BitVec 32
  body : List (BitVec 8)

/-- A refusal: nothing has changed (19 R410). -/
def State.refuse (s : State) (result detail : Nat) : Answer := ⟨s, result, detail, s.mbCtx, []⟩

/-- A service carried out or begun. -/
def State.answer (s : State) (t : State) (body : List (BitVec 8)) : Answer := ⟨t, resOk, 0, s.mbCtx, body⟩

/-- Step 4 of R409: an error response for a result other than 0 (R410), the response over MB_BUF, RESULT and BUSY, vector 1. -/
def State.respond (s : State) (a : Answer) : State :=
  let t := if a.result = 0 then a.state else a.state.report errRefused a.result s.mbCtx 0#64 0 0
  let header := bytesOfNat 2 s.mbService ++ bytesOfNat 2 (a.result % 256) ++ bytesOfNat 4 a.body.length ++
    bytesOfNat 8 s.mbTag.toNat ++ bytesOfNat 4 a.ctx.toNat ++ bytesOfNat 4 a.detail ++ bytesOfNat 8 0
  ({ t with
    mbBuf := t.mbBuf.write 0 (header ++ a.body.take 4064), mbBusy := false
    mbResult := BitVec.ofNat 8 a.result }).raise 1

/-- The context that a request names. -/
def State.ctxNamed (s : State) (n : BitVec 32) : Option Nat := s.ctxs.findIdx? (fun c => c.id == n && !c.destroyed)

/-- The service codes of 19 R411. -/
def serviceCodes : List Nat :=
  [0x01, 0x02, 0x03, 0x04, 0x05, 0x06, 0x07, 0x08, 0x10, 0x11, 0x20, 0x21, 0x30, 0x31, 0x32, 0x40, 0x41, 0x42, 0x50, 0x51, 0x52,
    0x60, 0x70]

/-- Is the request in the mailbox the next to be served: have the SPDM requests that reached Lantern before it been served (19 R409)? -/
def State.mbNext (s : State) : Bool := s.mbBusy && s.spdmBefore == 0

/-- Is a request with this service code the next to be served? -/
def State.asked (s : State) (code : Nat) : Bool := s.mbNext && s.mbService == code

/-- The checks before a service's own: RECOVERY, BADLENGTH, BADFIELD of the header (19 R409, R410; log 24). -/
def State.mbCheck (s : State) (marked served : Bool) (lenOk : Nat → Bool) : Nat :=
  if s.recovery && !served then resRecovery
  else if 4064 < s.mbLength || s.mbLength % 8 ≠ 0 || !lenOk s.mbLength then resBadLength
  else if !s.mbHeaderOk then resBadField
  else if marked then (if (s.ctxNamed s.mbCtx).isNone then resNoCtx else resOk)
  else if s.mbCtx = noContext then resOk else resBadField

/-- A service that acts on no context. -/
def State.serve0 (s : State) (code : Nat) (lenOk : Nat → Bool) (f : State → Answer) : State :=
  if s.asked code then
    s.respond (match s.mbCheck false (code == 0x60 || code == 0x70) lenOk with
      | 0 => f s
      | r => s.refuse r 0)
  else s

/-- What a service that acts on the context of CTX answers. -/
def State.answerCtx (s : State) (lenOk : Nat → Bool) (f : State → Nat → Ctx → Answer) : Answer :=
  match s.mbCheck true false lenOk with
  | 0 => match s.ctxNamed s.mbCtx with
    | none => s.refuse resNoCtx 0
    | some c => match s.ctxs[c]? with
      | none => s.refuse resNoCtx 0
      | some x => f s c x
  | r => s.refuse r 0

/-- A service that acts on the context of CTX. -/
def State.serveCtx (s : State) (code : Nat) (lenOk : Nat → Bool) (f : State → Nat → Ctx → Answer) : State :=
  if s.asked code then s.respond (s.answerCtx lenOk f) else s

/-- A service that invalidates translations: it has dropped them, and answers when every access that used them has been performed
(02 R74). Until then the mailbox stays busy. -/
def State.serveInval (s : State) (code : Nat) (lenOk : Nat → Bool) (f : State → Nat → Ctx → Answer) : State :=
  if s.asked code then
    let a := s.answerCtx lenOk f
    if a.result = resOk && !a.state.accessesDone (fun k => s.ctxNamed s.mbCtx == some k) then a.state else s.respond a
  else s

/-- A service that acts at a moment at which every access of its context that has used a translation has been performed (02 R74): until
then a request that can be carried out waits in the mailbox. -/
def State.serveQuiet (s : State) (code : Nat) (lenOk : Nat → Bool) (f : State → Nat → Ctx → Answer) : State :=
  if s.asked code then
    let a := s.answerCtx lenOk f
    if a.result = resOk && !s.accessesDone (fun k => s.ctxNamed s.mbCtx == some k) then s else s.respond a
  else s

/-- An address of a body reaches HBM or host memory (19 R411). -/
def reachesMemory (a : DWord) : Bool :=
  match paKind a.toNat with
  | .hbm _ => true
  | .host => true
  | _ => false

/-- A completion address: 0, or 32-byte aligned (19 R412). -/
def completionOk (a : DWord) : Bool := a == 0#64 || (decide (a.toNat % 32 = 0) && reachesMemory a)

/-- The bits of a qword outside a field of `len` bits at `lo` are zero. -/
def onlyBits (v : DWord) (len : Nat) : Bool := decide (v.toNat < 2 ^ len)

/-- A service with a completion record has begun (19 R412): its position is the number that its end names. -/
def State.begin_ (s : State) (code c arg : Nat) (counts : List Nat) : State :=
  { s with begun := s.begun ++ [
      { code := code, ctx := c, tag := s.mbTag, addr := s.mbB 0, arg := arg, result := 0, value := 0#64, counts := counts,
        ready := false, ended := false }] }

/-- A number that is not in use: the one that an open value proposes, else the lowest (log 11). -/
def State.freshNumber (s : State) (w : Nat) (used : Nat → Bool) (most : Nat) : Nat × State :=
  let (v, t) := s.draw
  let n := v.toNat % 2 ^ w
  if used n then (((List.range (most + 1)).find? (fun k => !used k)).getD most, t) else (n, t)

/-! ### Creating, reading and writing a context record (14 R342; 19 R411) -/

/-- The features available to a context of a domain now (15 R373). -/
def State.availableTo (s : State) (dom : Nat) : Nat :=
  let m := match s.domains[dom]? with
    | some d => d.fmask
    | none => 0#64
  (0x7#64 &&& ~~~m).toNat

/-- A new context record (14 R342, R347; 15 R373). -/
def Ctx.fresh (id : BitVec 32) (ctl : DWord) (features : Nat) : Ctx :=
  { id := id, regs := { CtxRegs.zero with ctl := ctl }, act := { CtxRegs.zero with ctl := ctl }, st := .saved, faultKind := 0#4,
    faultFrame := Frame.zero, faultWho := 0#64, faultWave := 0#64, ttag := 0#12, logErr := false, glintSeq := 0#32,
    features := features, resClock := 0, slot := none, lastRing := 1023, graphs := [], bins := [], pool := [], tables := [],
    sgos := [], gids := [], glintOff := false, agOpen := 0, agDirty := [], agStop := false, agFrom := .saved, agCut := none,
    agPend := [], agDone := [], agPort := false, agDown := none, agBy := [], agQueue := [], agFirst := true, image := none,
    agPtr := 0, agRecs := [], agNew := [], agChain := [], agPendReg := 0#64, agEstReg := 0#64, agSeen := 0, ckptStart := 0,
    agBad := false, rollBy := none, declRegs := [], destroyed := false }

/-- CTX_CREATE. -/
def execCtxCreate (s : State) : Step :=
  .next (s.serve0 0x01 (· == 8) fun s =>
    if !onlyBits (s.mbB 0) 8 then s.refuse resBadField 0
    else
      let used (n : Nat) : Bool := n == 0xFFFFFFFF || s.ctxs.any (fun c => c.id.toNat == n && !c.destroyed)
      let (n, t) := s.freshNumber 32 used s.ctxs.length
      let x := Ctx.fresh (BitVec.ofNat 32 n) (s.mbB 0) (s.availableTo (bitsOf (s.mbB 0) 0 6))
      ⟨({ t with ctxs := t.ctxs ++ [x] } : State).grantCtx t.ctxs.length, resOk, 0, BitVec.ofNat 32 n, []⟩)

/-- CR_STATE's code of a state (14 R342). -/
def CtxSt.code : CtxSt → Nat
  | .resident => 0
  | .saved => 1
  | .faulted => 2
  | .restoring => 3
  | .stopping => 4

/-- What the context record reads as at an offset (14 R342): the written registers, and what the device keeps. -/
def Ctx.record (x : Ctx) (off : Nat) : DWord :=
  match off with
  | 0x000 => BitVec.ofNat 64 (x.id.toNat + 2 ^ 32)
  | 0x008 => x.regs.ctl
  | 0x010 => BitVec.ofNat 64 (x.st.code + 256 * x.faultKind.toNat)
  | 0x018 => x.regs.trapvec
  | 0x020 => x.regs.ptroot
  | 0x028 => x.ttag.setWidth 64
  | 0x030 => x.regs.glintCtl ||| (if x.logErr then 0x100#64 else 0#64)
  | 0x038 => x.regs.glintLog
  | 0x040 => x.regs.declBase
  | 0x048 => x.regs.declN
  | 0x050 => x.regs.pbTable
  | 0x058 => x.regs.allocBase
  | 0x060 => x.regs.allocN
  | 0x068 => x.regs.saveBase
  | 0x070 => x.regs.saveSize
  | 0x078 => x.regs.ckptBase
  | 0x080 => x.regs.ckptSize
  | 0x088 => x.regs.ckptIntv
  | 0x090 => x.agPendReg
  | 0x098 => x.agEstReg
  | 0x0A0 => BitVec.ofNat 64 (x.agOpen % 2 ^ 32 + 2 ^ 32 * ((match x.image with
    | some i => i.ivl
    | none => 0) % 2 ^ 32))
  | 0x0A8 => x.regs.recBase
  | 0x140 => x.faultWho
  | 0x148 => x.faultWave
  | _ => if 0x100 ≤ off ∧ off < 0x140 then x.faultFrame.quads.getD ((off - 0x100) / 8) 0#64 else 0#64

/-- Bytes of the context record. -/
def recordSize : Nat := 0x150

/-- A service that Lantern carries out on an object of a context through its entry; a check that fails is an error of the front end, and
the service is refused (19 R408; log 84). -/
def State.answerVia (s : State) (o : CapObj) (c off n : Nat) (write : Bool) (f : State → Answer) : Answer :=
  match s.capFor 4 o c off n write with
  | some t => f t
  | none => { s.refuse resRefused 0 with state := s.frontError }

/-- CTX_READ. -/
def execCtxRead (s : State) : Step :=
  .next (s.serveCtx 0x03 (· == 16) fun s c x =>
    let off := (s.mbB 0).toNat
    let len := (s.mbB 1).toNat
    if off % 8 ≠ 0 || len % 8 ≠ 0 || recordSize < off + len then s.refuse resBadField 0
    else s.answerVia (.record c) c off len false (fun t =>
      t.answer t ((List.range (len / 8)).flatMap (fun k => bytesOfNat 8 (x.record (off + 8 * k)).toNat))))

/-- Offsets of the read-only fields of the context record. -/
def recordRo (off : Nat) : Bool :=
  [0x000, 0x010, 0x028, 0x090, 0x098, 0x0A0, 0x140, 0x148].contains off || (decide (0x100 ≤ off) && decide (off < 0x140))

/-- The largest width and the alignment of a field that is written, with its own limits (05 R151; 14 R342, R343). -/
def recordFieldOk (off : Nat) (v : DWord) : Bool :=
  let a (m : Nat) : Bool := decide (v.toNat % m = 0)
  match off with
  | 0x008 => onlyBits v 8
  | 0x018 => a 4
  | 0x020 => a 4096 && onlyBits v 48
  | 0x030 => (v &&& ~~~0x1F3#64) == 0#64 && bitsOf v 0 2 != 3 && decide (bitsOf v 4 4 ≤ 10)
  | 0x038 => a 4096
  | 0x040 => a 32
  | 0x048 => decide (v.toNat ≤ 64)
  | 0x060 => onlyBits v 16
  | 0x068 => a 65536
  | 0x070 => a 65536
  | 0x078 => a 65536
  | 0x080 => a 65536
  | 0x088 => onlyBits v 16
  | 0x0A8 => a 67108864
  | _ => true

/-- A field of the written registers takes a value. -/
def CtxRegs.put (r : CtxRegs) (off : Nat) (v : DWord) : CtxRegs :=
  match off with
  | 0x008 => { r with ctl := v }
  | 0x018 => { r with trapvec := v }
  | 0x020 => { r with ptroot := v }
  | 0x030 => { r with glintCtl := v &&& 0xF3#64 }
  | 0x038 => { r with glintLog := v }
  | 0x040 => { r with declBase := v }
  | 0x048 => { r with declN := v }
  | 0x050 => { r with pbTable := v }
  | 0x058 => { r with allocBase := v }
  | 0x060 => { r with allocN := v }
  | 0x068 => { r with saveBase := v }
  | 0x070 => { r with saveSize := v }
  | 0x078 => { r with ckptBase := v }
  | 0x080 => { r with ckptSize := v }
  | 0x088 => { r with ckptIntv := v }
  | 0x0A8 => { r with recBase := v }
  | _ => r

/-- Does the context hold a record or a group launched from a bin (14 R342)? -/
def State.holdsRecords (s : State) (c : Nat) (x : Ctx) : Bool :=
  !x.pool.isEmpty || s.groups.any (fun g => g.ctx == c && g.st != .retired && !g.slots.isEmpty) ||
  s.launches.any (fun l => l.ctx == c && l.listed && !l.slots.isEmpty)

/-- Every granule of the extents from `lo` to `hi`, for extents that are appended (14 R343). -/
def granulesOf (m : Mem) (x : Ctx) (lo hi : Nat) : List AgItem :=
  (List.range (hi - lo)).flatMap (fun k => (List.range (extSize m x (lo + k) / 65536)).map (.granule (lo + k)))

/-- ALLOCN is raised while the context is resident: the new extents are tracked at once (14 R343). -/
def State.appendExtents (s : State) (c : Nat) : State :=
  match s.ctxs[c]? with
  | none => s
  | some x =>
    let n := x.regs.allocN
    if x.st = .resident ∧ x.regs.allocBase = x.act.allocBase ∧ x.act.allocN.toNat < n.toNat then
      s.modCtx c (fun y => { y with
        act := { y.act with allocN := n }
        agDirty := (granulesOf s.mem y x.act.allocN.toNat n.toNat).foldl addMark y.agDirty })
    else s

/-- CTX_WRITE (14 R342): RW fields only, in effect from the next resume on; offsets that are not listed ignore writes. -/
def execCtxWrite (s : State) : Step :=
  .next (s.serveCtx 0x04 (fun n => decide (16 ≤ n)) fun s c x =>
    let off := (s.mbB 0).toNat
    let n := s.mbLength / 8 - 1
    let ws := (List.range n).map (fun k => (off + 8 * k, s.mbB (1 + k)))
    if off % 8 ≠ 0 || recordSize < off + 8 * n then s.refuse resBadField 0
    else if ws.any (fun w => recordRo w.1 || !recordFieldOk w.1 w.2) then s.refuse resBadField 0
    else if ws.any (fun w => w.1 == 0x0A8) && s.holdsRecords c x then s.refuse resState 0
    else s.answerVia (.record c) c off (8 * n) true (fun s =>
      let t := s.modCtx c (fun y => { y with
        regs := ws.foldl (fun r w => r.put w.1 w.2) y.regs
        logErr := y.logErr && !ws.any (fun w => w.1 == 0x030) })
      s.answer (if ws.any (fun w => w.1 == 0x060) then t.appendExtents c else t) []))

/-! ### Stopping a context (14 R347, R356) -/

/-- CTX_STOP (19 R411). -/
def State.ctxStop (s : State) (save : Bool) : State :=
  if s.asked 0x05 && (s.mbB 1).getLsbD 0 != save then s
  else s.serveCtx 0x05 (· == 16) fun s c x =>
    if !completionOk (s.mbB 0) || !onlyBits (s.mbB 1) 1 then s.refuse resBadField 0
    else if !(x.st == .resident || (save && x.st == .faulted)) then s.refuse resState 0
    else
      let k := s.begun.length
      s.answer ((s.begin_ 0x05 c (if save then 1 else 0) []).requestClose c ⟨.service k, save⟩) []

def execCtxStopClose (s : State) : Step := .next (s.ctxStop false)
def execCtxStopSave (s : State) : Step := .next (s.ctxStop true)

/-! ### Resuming a context (14 R339, R357) -/

/-- A translation tag that no context on the device holds (02 R69; log 11). -/
def State.giveTag (s : State) (c : Nat) : Option State :=
  let others := (s.ctxs.mapIdx (fun k x => (k, x))).filter (fun y => y.1 != c && !y.2.destroyed && y.2.st != .saved)
  match s.pick (fun n => !(others.any (fun y => y.2.ttag.toNat == n))) 4096 with
  | (some n, t) => some (t.modCtx c (fun y => { y with ttag := BitVec.ofNat 12 n }))
  | (none, _) => none

/-- What the driver wrote takes effect (14 R342; 15 R373), and no translation of the context is held. -/
def State.putRegs (s : State) (c : Nat) (x : Ctx) : State :=
  (((s.modCtx c (fun y => { y with
    act := x.regs, features := s.availableTo (bitsOf x.regs.ctl 0 6) })).grantRegs c x.regs).allCores (fun k => { k with
      icache := k.icache.filter (fun l => l.ctx != c) })).dropXlats (fun t => t.ctx == c) (fun e => e.ctx == c)

/-- A resume is refused: an error response of KIND 3 that names the place, and nothing else changes (14 R357). -/
def State.refuseResume (s : State) (x : Ctx) (r : Refused) : Answer :=
  { s.refuse resRefused r.place with state := s.report errResume resRefused x.id r.addr r.place r.launch }

/-- A context with no image starts with no groups, as it stands on this device (14 R357). -/
def State.startBare (s : State) (c : Nat) (x : Ctx) : Except Refused State :=
  match s.readyLists c { x with act := x.regs } [] with
  | .error e => .error e
  | .ok t => .ok (t.modCtx c (fun y => { y with st := .resident, agFirst := true }))

/-- A context without an image of its own takes the one that the tier holds in the region at its CKPTBASE, if there is one
(14 R357; 17 R387; log 73). -/
def State.takeTier (s : State) (c : Nat) (x : Ctx) : State :=
  match s.tierFor x with
  | some t => s.adopt c t
  | none => s

/-- From SAVED (14 R357): from the committed image, else with no groups. -/
def State.resumeSaved (s : State) (c : Nat) (x : Ctx) : Answer :=
  match s.giveTag c with
  | none => s.refuse resNoResource 0
  | some t =>
    let t1 := (t.takeTier c x).putRegs c x
    let r := match t1.ctxs[c]? with
      | some y => match y.image with
        | some img => if t1.imageReadable y then t1.restore c img else .error ⟨0, 0, 0#64⟩
        | none => t1.startBare c x
      | none => t1.startBare c x
    match r with
    | .error e => s.refuseResume x e
    | .ok u => s.answer (u.modCtx c (fun y => { y with ckptStart := y.resClock })) []

/-- The place of a pending store that does not translate: the context stays FAULTED of kind BADRESUME (14 R357 step 4). -/
def State.badResume (s : State) (c w : Nat) : State :=
  let who := match s.waves[w]? with
    | some y => s.whoOf y
    | none => (0, 0)
  let idx := match s.waves[w]? with
    | some y => y.index
    | none => 0
  (s.modCtx c (fun y => { y with st := .resident })).contextFault c faultBadResume Frame.zero who (BitVec.ofNat 64 idx)

/-- The resume action (14 R339): every wave goes on. Groups of an image that the fault kept from starting enter dispatch, after
the check of their pending stores (14 R357 steps 4 and 5, R363). -/
def State.unfault (s : State) (c : Nat) (x : Ctx) : State :=
  let bad := if x.faultKind = faultBadResume then s.badPending c else none
  match bad with
  | some w => s.badResume c w
  | none =>
    let s1 := if x.faultKind = faultBadResume then s.replacePending c else s
    let s2 := (s1.allGroups (fun g => if g.ctx = c ∧ g.st = .faulted then { g with st := .running } else g)).goOn c
    ((s2.modCtx c (fun y => { y with st := .restoring })).enterGroups c ((x.image.map (·.wakes)).getD [])).settleRestore c

/-- The granules of the allocation list that a resume in place begins to track: of extents that the list in force did not hold
(14 R343). -/
def newGranules (m : Mem) (old new : Ctx) : List AgItem :=
  let had := (List.range old.extents).map (fun k => (extBase m old k, extSize m old k))
  (List.range new.extents).flatMap (fun k =>
    (List.range (extSize m new k / 65536)).filterMap (fun j =>
      if had.getD k (0, 0) = (extBase m new k, extSize m new k) then none else some (.granule k j)))

/-- From FAULTED (14 R339, R342, R343). -/
def State.resumeFaulted (s : State) (c : Nat) (x : Ctx) : Answer :=
  match s.giveTag c with
  | none => s.refuse resNoResource 0
  | some t =>
    match ((t.dropDecls c).putRegs c x).readyLists c { x with act := x.regs } [] with
    | .error e => s.refuseResume x e
    | .ok t2 =>
      let t3 := t2.modCtx c (fun y => { y with
        agDirty := (newGranules s.mem x { x with act := x.regs }).foldl addMark y.agDirty })
      s.answer ((t3.unfault c x).modCtx c (fun y => { y with ckptStart := y.resClock })) []

/-- CTX_RESUME. -/
def execCtxResume (s : State) : Step :=
  .next (s.serveCtx 0x06 (· == 0) fun s c x =>
    match x.st with
    | .saved => s.resumeSaved c x
    | .faulted => s.resumeFaulted c x
    | _ => s.refuse resState 0)

/-! ### Killing and destroying a context (14 R339; 19 R411) -/

/-- The trees that the packets of some rings opened, of nodes too (13 R310, R312). -/
def State.treeOfRings (s : State) (ring : Nat → Bool) (t : Nat) : Bool :=
  match s.trees[t]? with
  | none => false
  | some x => match x.origin with
    | .packet r _ => ring r
    | .node run _ => match s.runs[run]? with
      | some y => ring y.ring
      | none => false
    | .bin _ => false

/-- The packets of some rings that are in progress and are not launches, as (ring, packet) (13 R321 step 5). -/
def State.openPackets (s : State) (ring : Nat → Bool) : List (Nat × Nat) :=
  (List.range s.rings.length).flatMap (fun r => match s.rings[r]? with
    | some x => if ring r then ((List.range x.pkts.length).filter (fun p => match x.pkts[p]? with
        | some y => !y.done && pktType y.quads != 1 && pktType y.quads != 2
        | none => false)).map (fun p => (r, p)) else []
    | none => [])

/-- Graph runs of some rings start no further node, and those that have none running end (13 R321; 14 R339). -/
def State.endRuns (s : State) (ring : Nat → Bool) : State :=
  (List.range s.runs.length).foldl (fun t k => match t.runs[k]? with
    | some r => if ring r.ring && r.live then (t.modRun k (fun y => { y with waiting := [] })).settleRun k stAbandoned else t
    | none => t) s

/-- Steps 2 to 5 of R321 for some rings: the trees end, and packets in progress that are not launches are abandoned. Answers
also the killed and discarded groups, the cancelled requests, the discarded records and the abandoned packets. -/
def State.endWork (s : State) (ring : Nat → Bool) : List Nat × State :=
  let pk := s.openPackets ring
  let host := (List.range s.copies.length).filter (fun q => match s.copies[q]? with
    | some y => !y.st.ended && (match y.host with
      | some (r, _) => ring r
      | none => false)
    | none => false)
  let (e, s1) := s.endTrees (s.treeOfRings ring)
  let s2 := (host.map (fun q => ((s1.copies[q]?).map (·.ctx)).getD 0)).eraseDups.foldl State.retryNodes
    ((host.foldl (fun t q => t.modCopy q (fun y => { y with st := .cancelled })) s1).endRuns ring)
  let s3 := pk.foldl (fun t p => t.completePacket p.1 p.2 stAbandoned 0 0 0#64) s2
  ([e.killed, e.discarded, e.cancelled + host.length, e.records, pk.length], s3)

/-- Afterglow gives up what it was doing for a context; its images are discarded (14 R339). -/
def Ctx.forget (x : Ctx) : Ctx :=
  { x with
    agStop := false, agCut := none, agPend := [], agDone := [], agNew := [], agBy := [], agQueue := [], agDirty := []
    image := none, agRecs := [], agChain := [], agDown := none, agPtr := 0, agFirst := true, agBad := false, rollBy := none }

/-- The images that the checkpoint tier keeps at the base of a context are discarded with it (14 R339; log 73). -/
def State.dropTier (s : State) (c : Nat) : State :=
  match s.ctxs[c]? with
  | some x => { s with tier := s.tier.filter (fun t => t.base != x.act.ckptBase && t.base != x.regs.ckptBase) }
  | none => s

/-- The kill of a context begins: no work of it starts again, and its trees end (14 R339). -/
def State.killCtx (s : State) (c : Nat) : Nat × State :=
  let ring (r : Nat) : Bool := match s.rings[r]? with
    | some x => x.ctx == c
    | none => false
  let groups := (s.groups.filter (fun g => g.ctx == c && g.st != .retired)).length
  let (_, s1) := ((s.dropTier c).modCtx c (fun y => { y.forget with st := .stopping })).endWork ring
  (groups, s1)

/-- CTX_KILL. -/
def execCtxKill (s : State) : Step :=
  .next (s.serveCtx 0x07 (· == 8) fun s c _ =>
    if !completionOk (s.mbB 0) then s.refuse resBadField 0
    else
      let (n, t) := s.killCtx c
      s.answer { t with begun := (s.begin_ 0x07 c 0 [n]).begun } [])

/-- CTX_DESTROY: as the kill, and its rings enter DESTROYING (19 R411; 13 R321). -/
def execCtxDestroy (s : State) : Step :=
  .next (s.serveCtx 0x02 (· == 8) fun s c _ =>
    if !completionOk (s.mbB 0) then s.refuse resBadField 0
    else
      let (n, t) := s.killCtx c
      s.answer { t with
        begun := (s.begin_ 0x02 c 0 [n]).begun
        rings := t.rings.map (fun (r : Ring) => if r.ctx = c ∧ r.st ≠ .free then { r with st := .destroying } else r) } [])

/-! ### Invalidation (02 R74) -/

/-- Drop the translations of a virtual range of a context; the translations of the range that the front end keeps are found again
(13 R306). -/
def State.dropRange (s : State) (c base len : Nat) : State :=
  let meets (lo n : Nat) : Bool := decide (lo < base + len) && decide (base < lo + n)
  (s.dropXlats (fun t => t.ctx == c && meets (t.page * 2 ^ t.sizeLog) (2 ^ t.sizeLog)) (fun e => e.ctx == c && meets
    (e.page * 2 ^ (12 + 9 * e.level)) (2 ^ (12 + 9 * e.level)))).staleKept (fun k va => k == c && meets (vaBits va) 8)

/-- CTX_INVAL. -/
def execCtxInval (s : State) : Step :=
  .next (s.serveCtx 0x08 (· == 24) fun s c _ =>
    if !completionOk (s.mbB 0) || (s.mbB 1).toNat % 4096 ≠ 0 || (s.mbB 2).toNat % 4096 ≠ 0 then s.refuse resBadField 0
    else s.answer ((s.dropRange c (vaBits (s.mbB 1)) (s.mbB 2).toNat).begin_ 0x08 c 0 []) [])

/-! ### Rings (13 R304, R321; 19 R399) -/

/-- A ring after its creation (13 R304). -/
def Ring.fresh (c num : Nat) (base : DWord) (logsz : Nat) : Ring :=
  { ctx := c, num := num, base := base, logsz := logsz, wptr := 0#32, rptr := 0#32, st := .run, err := 0#8, errAddr := 0#64,
    done := 0#64, pkts := [] }

/-- RING_CREATE: a ring number and, for the first ring of a context, a queue-window slot (log 11). The ring lies in host memory or HBM
(13 R304; 19 R411). -/
def execRingCreate (s : State) : Step :=
  .next (s.serveCtx 0x10 (· == 16) fun s c x =>
    let base := s.mbB 0
    let lz := (s.mbB 1).toNat
    if base.toNat % 16 ≠ 0 || lz < 4 || 20 < lz || !reachesMemory base ||
        !reachesMemory (base + BitVec.ofNat 64 (16 * 2 ^ lz - 1)) then s.refuse resBadField 0
    else
      let (slot, s1) := match x.slot with
        | some k => (some k, s)
        | none => s.pick (fun k => (s.ctxInSlot k).isNone) 240
      let (num, s2) := s1.pick (fun k => (s.ringAt c k).isNone) 1024
      match slot, num with
      | some k, some n => s.answer
          (({ s2 with rings := s2.rings ++ [Ring.fresh c n base lz] }.modCtx c (fun y => { y with slot := some k })).grant
            (.ring s2.rings.length) base (16 * 2 ^ lz) true false x.id)
          (bytesOfNat 8 (n + 2 ^ 32 * k))
      | _, _ => s.refuse resNoResource 0)

/-- RING_DESTROY (13 R321). A number that names no ring is a ring in state FREE. -/
def execRingDestroy (s : State) : Step :=
  .next (s.serveCtx 0x11 (· == 16) fun s c _ =>
    if !completionOk (s.mbB 0) || !onlyBits (s.mbB 1) 10 then s.refuse resBadField 0
    else match s.ringAt c (s.mbB 1).toNat with
      | none => s.refuse resState 0
      | some k => match s.rings[k]? with
        | none => s.refuse resState 0
        | some r =>
          if r.st = .destroying then s.refuse resState 0
          else
            let (counts, t) := (s.modRing k (fun y => { y with st := .destroying })).endWork (· == k)
            s.answer { t with begun := (s.begin_ 0x11 c k counts).begun } [])

/-! ### Graph tables, bins, Publish Buffers (13 R311, R313; 03 R96) -/

/-- One pass of taking away nodes with no predecessor left, in fuel; a graph without cycle loses all of them. -/
def acyclic (succs : Nat → List Nat) : Nat → List Nat → List Nat → Bool
  | 0, _, left => left.isEmpty
  | n + 1, counts, left =>
    match left.find? (fun j => counts.getD j 0 == 0) with
    | none => left.isEmpty
    | some j => acyclic succs n ((succs j).foldl (fun l k => l.modify k (· - 1)) counts) (left.filter (· != j))

/-- Does a table describe a graph: every successor a node, every PREDN its number of predecessors, no cycle (13 R311)? -/
def graphOk (m : Mem) (h : Nat) : Bool :=
  let n := graphNodes m h
  let nodes := List.range n
  let all := nodes.flatMap (nodeSuccs m h)
  all.all (fun k => decide (k < n)) && nodes.all (fun j => decide (nodePreds m h j = all.count j)) &&
  acyclic (nodeSuccs m h) n (nodes.map (nodePreds m h)) nodes

/-- The fields of a node (13 R311; 19 R411). -/
def nodeOk (m : Mem) (h j : Nat) : Bool :=
  decide (bitsOf (nodeQuad m h j 0) 48 16 = 0) && argsOk (nodeQuad m h j 1) && decide (bitsOf (nodeQuad m h j 2) 0 32 ≠ 0) &&
  decide (bitsOf (nodeQuad m h j 2) 32 32 ≠ 0) && decide (bitsOf (nodeQuad m h j 3) 0 32 ≠ 0) &&
  decide (bitsOf (nodeQuad m h j 3) 50 14 = 0) && decide (bitsOf (nodeQuad m h j 4) 49 15 = 0)

/-- Do `n` bytes from an address lie in HBM? -/
def inHbm (a n : Nat) : Bool := (paKind a).isHbm && (decide (n = 0) || (paKind (a + n - 1)).isHbm)

/-- The bytes of a table's successor array: up to the last entry that a node uses. -/
def succBytes (m : Mem) (h : Nat) : Nat :=
  (List.range (graphNodes m h)).foldl (fun n j =>
    let count := bitsOf (nodeQuad m h j 4) 32 17
    if count = 0 then n else max n (2 * (bitsOf (nodeQuad m h j 4) 0 32 + count))) 0

/-- A table's header: its node count and reserved bits, and that the header, the nodes and the successors lie in HBM (13 R311). -/
def headerOk (m : Mem) (h : Nat) : Bool :=
  let nb := (m.quad (h + 8)).toNat
  let sb := (m.quad (h + 16)).toNat
  inHbm h 32 && decide (h % 8 = 0) && decide ((m.quad h).toNat ≤ 65536) && decide (graphNodes m h ≠ 0) &&
  m.quad (h + 24) == 0#64 && inHbm nb (64 * graphNodes m h) && decide (nb % 8 = 0) && inHbm sb (succBytes m h) && decide (sb % 2 = 0)

/-- Lantern gives up a graph table of a context, and holds the one that is registered now (19 R408). -/
def State.dropTable (s : State) (c t : Nat) : State :=
  s.revoke (fun k => k.obj == .graph c t 0 || k.obj == .graph c t 1 || k.obj == .graph c t 2)
def State.holdTable (s : State) (c t : Nat) : State :=
  let h := s.graphHeader c t
  let grant (u : State) (part base n : Nat) : State := u.grant (.graph c t part) (BitVec.ofNat 64 base) n true false (s.ownerOf c)
  grant (grant (grant (s.dropTable c t) 0 h 32) 1 (s.mem.quad (h + 8)).toNat (64 * graphNodes s.mem h)) 2 (succBase s.mem h) (succBytes s.mem h)

/-- GRAPH_SET: the table is read at the homes of its lines (02 R45). The detail of a graph with a cycle or a wrong PREDN is open. -/
def execGraphSet (s : State) : Step :=
  .next (s.serveCtx 0x30 (· == 16) fun s0 c _ =>
    let table := bitsOf (s0.mbB 0) 0 8
    let h := (s0.mbB 1).toNat
    let s := if onlyBits (s0.mbB 0) 9 && !s0.tableRuns c table && (s0.mbB 0).getLsbD 8 && headerOk s0.mem h then
      s0.readTable c (graphRanges s0.mem h ++ [(succBase s0.mem h, succBytes s0.mem h)]) else s0
    let without (y : Ctx) : Ctx := { y with graphs := y.graphs.filter (fun g => g.1 != table) }
    if !onlyBits (s.mbB 0) 9 then s.refuse resBadField 0
    else if s.tableRuns c table then s.refuse resState 0
    else if !(s.mbB 0).getLsbD 8 then s.answer ((s.modCtx c without).dropTable c table) []
    else if !headerOk s.mem h then s.refuse resBadField 0
    else if !(List.range (graphNodes s.mem h)).all (nodeOk s.mem h) then s.refuse resBadField 0
    else match (List.range (graphNodes s.mem h)).find? (fun j => (s.kernelOf c (nodeQuad s.mem h j 0)).isNone) with
      | some j => s.refuse resRefused j
      | none =>
        if graphOk s.mem h then
          s.answer ((s.modCtx c (fun y => { without y with graphs := (without y).graphs ++ [(table, s.mbB 1)] })).holdTable c table) []
        else
          let (v, t) := s.draw
          { s.refuse resRefused (v.toNat % 2 ^ 32) with state := t })

/-- The reserved bits of a bin entry are zero (13 R313). -/
def binEntryOk (q : List DWord) : Bool :=
  (qAt q 0 &&& ~~~0x0000FFFF007FF003#64) == 0#64 && qAt q 3 == 0#64

/-- BIN_SET (13 R313, R315): a set whose timer has run out has fired before. -/
def execBinSet (s : State) : Step :=
  .next (s.serveCtx 0x31 (· == 40) fun s0 c _ =>
    let b := (s0.mbB 0).toNat
    let s := s0.binExpire c b
    let q := [s.mbB 1, s.mbB 2, s.mbB 3, s.mbB 4]
    let en := (qAt q 0).getLsbD 0
    let old := s.binOf c b
    let holds := match old with
      | some x => !x.slots.isEmpty
      | none => false
    if !onlyBits (s.mbB 0) 12 || !binEntryOk q then s.refuse resBadField 0
    else if en && (decide (bitsOf (qAt q 1) 48 16 ≠ 0) || !argsOk (qAt q 2)) then s.refuse resBadField 0
    else if !en && holds then s.refuse resState 0
    else if en && (s.kernelOf c (qAt q 1)).isNone then s.refuse resRefused 1
    else
      let same := match old with
        | some x => x.quads == q
        | none => false
      let s1 := if holds && !same then s.fireDue c b 0 else s
      s1.answerVia (.bins c) c (32 * b) 32 true (fun t => match t.binOf c b with
      | some _ => s.answer (t.modBin c b (fun y => { y with quads := q })) []
      | none => s.answer (t.modCtx c (fun y => { y with
          bins := y.bins ++ [(b, { quads := q, slots := [], tree := 0, depth := 0, sib := none, due := 0 })] })) []))

/-- The physical base of the Publish Buffer table: of the context on the device, else as the driver last wrote it. -/
def Ctx.pbBase (x : Ctx) : Nat := (if x.st = .saved then x.regs.pbTable else x.act.pbTable).toNat

/-- Lantern holds the table that the driver has written for a saved context (19 R408). -/
def State.holdPb (s : State) (c : Nat) (x : Ctx) : State :=
  if x.st = .saved then (s.revokeObj (.pbTable c)).grant (.pbTable c) x.regs.pbTable 8192 true true (s.ownerOf c) else s

/-- PB_SET: the entry of R96 with GEN kept, and the invalidation of R73, at whose end it answers (02 R74). -/
def execPbSet (s : State) : Step :=
  .next (s.serveInval 0x32 (· == 40) fun s c x =>
    let n := (s.mbB 0).toNat
    let q0 := s.mbB 1
    let q1 := s.mbB 2
    let q2 := s.mbB 3
    let size := 65536 * bitsOf (s.mbB 4) 0 32
    let at_ := x.pbBase + 32 * n
    if !onlyBits (s.mbB 0) 8 || (q0 &&& ~~~0x01FFFFFFFFFF0001#64) != 0#64 || (q1 &&& ~~~0x0000FFFFFFFF0000#64) != 0#64 ||
        (q2 &&& ~~~0x0000FFFFFFFF0000#64) != 0#64 then s.refuse resBadField 0
    else if x.pbBase = 0 then s.refuse resState 0
    else if !inHbm q1.toNat size || !inHbm q2.toNat size ||
        (decide (q1.toNat < q2.toNat + size) && decide (q2.toNat < q1.toNat + size)) then s.refuse resRefused 0
    else (s.holdPb c x).answerVia (.pbTable c) c (32 * n) 28 true (fun u =>
      let t := u.agentStore at_ (bytesOfNat 8 q0.toNat ++ bytesOfNat 8 q1.toNat ++ bytesOfNat 8 q2.toNat ++
        bytesOfNat 4 (bitsOf (s.mbB 4) 0 32))
      let old := s.pbBase c n
      let oldSize := s.pbSize c n
      s.answer ((t.dropXlats (fun t => t.ctx == c && ptePb t.leaf && decide (ptePbIdx t.leaf = n))
        (fun _ => false)).dropRange c old oldSize) []))

end Sys2Proof.Machine
end

