-- ==== Sys2Proof/Machine/Loader.lean ====
section
/-! DEFINITION. Loading and unloading of Ixquin objects (15 R366-R376; 06 R179). The object is read at its physical address. -/

namespace Sys2Proof.Machine

/-- Why a load is refused: the class of 19 R411 and the index it gives. -/
structure LoadErr where
  cls : Nat
  index : Nat
  deriving DecidableEq, Repr

/-! ### The file (15 R366) -/

/-- `len` bytes at `off` lie within `size` bytes. -/
def fits (off len size : Nat) : Bool := decide (off + len ≤ size)

def fileSize (m : Mem) (f : Nat) : Nat := (m.quad (f + 16)).toNat
def fileImages (m : Mem) (f : Nat) : Nat := bitsOf (m.quad f) 48 16

/-- Quadword `j` of entry `k` of the image table. -/
def imgQuad (m : Mem) (f k j : Nat) : DWord := m.quad (f + (m.quad (f + 8)).toNat + 32 * k + 8 * j)

/-- Where image `k` begins, and its bytes. -/
def imgAt (m : Mem) (f k : Nat) : Nat := f + (imgQuad m f k 2).toNat
def imgSize (m : Mem) (f k : Nat) : Nat := (imgQuad m f k 3).toNat

/-- The bytes of the file from image `k` on: tables and strings lie within FILESIZE (15 R374 step 1). -/
def imgRoom (m : Mem) (f k : Nat) : Nat := fileSize m f - (imgQuad m f k 2).toNat

/-- The header and the image table of a file of at most `size` bytes. -/
def fileOk (m : Mem) (f size : Nat) : Bool :=
  let q0 := m.quad f
  let n := fileImages m f
  let off := (m.quad (f + 8)).toNat
  fits 0 64 size && decide (bitsOf q0 0 32 = 0x4E515849) && decide (bitsOf q0 32 16 = 1) && decide (1 ≤ n) && decide (n ≤ 16) &&
  decide (off % 32 = 0) && decide (fileSize m f ≤ size) && fits off (32 * n) (fileSize m f) &&
  (List.range 5).all (fun k => m.quad (f + 24 + 8 * k) == 0#64) &&
  (List.range n).all (fun k => decide (bitsOf (imgQuad m f k 0) 8 56 = 0) && decide ((imgQuad m f k 2).toNat % 64 = 0) &&
    fits (imgQuad m f k 2).toNat (imgSize m f k) (fileSize m f) && fits (imgQuad m f k 2).toNat 64 (fileSize m f))

/-! ### An image (15 R367-R371), at `h` -/

def imNsec (m : Mem) (h : Nat) : Nat := bitsOf (m.quad h) 0 16
def imNkern (m : Mem) (h : Nat) : Nat := bitsOf (m.quad h) 16 16
def imNsym (m : Mem) (h : Nat) : Nat := bitsOf (m.quad h) 32 32
def imNrel (m : Mem) (h : Nat) : Nat := bitsOf (m.quad (h + 8)) 0 32
def imNgot (m : Mem) (h : Nat) : Nat := bitsOf (m.quad (h + 8)) 32 9

/-- Offset field `k` of the header: 0 sections, 1 symbols, 2 relocations, 3 kernels, 4 strings. -/
def imOff (m : Mem) (h k : Nat) : Nat := (m.quad (h + 16 + 8 * k)).toNat

def secQuad (m : Mem) (h k j : Nat) : DWord := m.quad (h + imOff m h 0 + 32 * k + 8 * j)
def symQuad (m : Mem) (h k j : Nat) : DWord := m.quad (h + imOff m h 1 + 16 * k + 8 * j)
def relQuad (m : Mem) (h k j : Nat) : DWord := m.quad (h + imOff m h 2 + 32 * k + 8 * j)
def kernQuad (m : Mem) (h k j : Nat) : DWord := m.quad (h + imOff m h 3 + 64 * k + 8 * j)

def secX (m : Mem) (h k : Nat) : Bool := (secQuad m h k 0).getLsbD 32
def secW (m : Mem) (h k : Nat) : Bool := (secQuad m h k 0).getLsbD 33
def secFilled (m : Mem) (h k : Nat) : Bool := (secQuad m h k 0).getLsbD 34
def secVoff (m : Mem) (h k : Nat) : Nat := (secQuad m h k 1).toNat
def secFsize (m : Mem) (h k : Nat) : Nat := bitsOf (secQuad m h k 2) 0 32
def secMsize (m : Mem) (h k : Nat) : Nat := bitsOf (secQuad m h k 2) 32 32
def secFoff (m : Mem) (h k : Nat) : Nat := (secQuad m h k 3).toNat

/-- A zero-terminated string of at most `n` bytes. -/
def strAt (m : Mem) (a : Nat) : Nat → Option (List (BitVec 8))
  | 0 => none
  | n + 1 => if m.byte a = 0#8 then some [] else (strAt m (a + 1) n).map (m.byte a :: ·)

/-- The string at an offset of the string table of an image of `size` bytes. -/
def imStr (m : Mem) (h size off : Nat) : Option (List (BitVec 8)) :=
  strAt m (h + imOff m h 4 + off) (size - (imOff m h 4 + off))

/-- A section entry (15 R368). A text section ends in a zero word. -/
def secOk (m : Mem) (h size k : Nat) : Bool :=
  (imStr m h size (bitsOf (secQuad m h k 0) 0 32)).isSome && decide (bitsOf (secQuad m h k 0) 35 29 = 0) &&
  decide (secVoff m h k % 4096 = 0) && decide (secFsize m h k ≤ secMsize m h k) &&
  (!secFilled m h k || fits (secFoff m h k) (secFsize m h k) size) &&
  (!secX m h k || (!secW m h k && decide (secMsize m h k % 4096 = 0) && decide (4 ≤ secMsize m h k) &&
    (!secFilled m h k || decide (secFsize m h k + 4 ≤ secMsize m h k) ||
      m.num (h + secFoff m h k + secMsize m h k - 4) (secFsize m h k + 4 - secMsize m h k) == 0)))

/-- The sections do not overlap in memory. -/
def secsApart (m : Mem) (h : Nat) : Bool :=
  (List.range (imNsec m h)).all (fun a => (List.range a).all (fun b =>
    !rangesMeet (secVoff m h a) (secVoff m h a + secMsize m h a) (secVoff m h b) (secVoff m h b + secMsize m h b)))

def symSec (m : Mem) (h k : Nat) : Nat := bitsOf (symQuad m h k 0) 32 16
def symGlobal (m : Mem) (h k : Nat) : Bool := (symQuad m h k 0).getLsbD 48
def symValue (m : Mem) (h k : Nat) : Nat := (symQuad m h k 1).toNat
def symExtern (m : Mem) (h k : Nat) : Bool := symSec m h k == 0xFFFF

/-- A symbol entry (15 R369). -/
def symOk (m : Mem) (h size k : Nat) : Bool :=
  (imStr m h size (bitsOf (symQuad m h k 0) 0 32)).isSome && decide (bitsOf (symQuad m h k 0) 49 15 = 0) &&
  (if symExtern m h k then decide (symValue m h k = 0) else decide (symSec m h k < imNsec m h))

def relSec (m : Mem) (h k : Nat) : Nat := bitsOf (relQuad m h k 0) 0 16
def relKind (m : Mem) (h k : Nat) : Nat := bitsOf (relQuad m h k 0) 16 8
def relSym (m : Mem) (h k : Nat) : Nat := bitsOf (relQuad m h k 0) 32 32
def relOffset (m : Mem) (h k : Nat) : Nat := (relQuad m h k 1).toNat
def relSize (kind : Nat) : Nat := if kind = 4 ∨ kind = 5 then 8 else 4

/-- A relocation record (15 R370); its KIND and its place within the section are looked at when it is applied. -/
def relOk (m : Mem) (h k : Nat) : Bool :=
  let kind := relKind m h k
  decide (bitsOf (relQuad m h k 0) 24 8 = 0) && relQuad m h k 3 == 0#64 && decide (relSym m h k < imNsym m h) &&
  (relSec m h k == 0xFFFE || decide (relSec m h k < imNsec m h)) &&
  (kind = 0 || decide (6 < kind) || (decide (relOffset m h k % relSize kind = 0) && ((relSec m h k == 0xFFFE) == (kind == 4))))

def roleWord (m : Mem) (h k s : Nat) : DWord := kernQuad m h k (2 + s)
def kernRoles (m : Mem) (h k : Nat) : Nat := bitsOf (kernQuad m h k 0) 32 3

/-- A kernel entry (15 R371): the ranges of 06 R180 and the rules of 12 R281. -/
def kernOk (m : Mem) (h size k : Nat) : Bool :=
  let q0 := kernQuad m h k 0
  let q1 := kernQuad m h k 1
  let n := kernRoles m h k
  let inText (e : Nat) : Bool := (List.range (imNsec m h)).any (fun j => secX m h j && decide (secVoff m h j ≤ e) &&
    decide (e < secVoff m h j + secMsize m h j))
  (imStr m h size (bitsOf q0 0 32)).isSome && decide (1 ≤ n) && decide (n ≤ 4) && decide (bitsOf q0 41 23 = 0) &&
  decide (bitsOf q1 0 21 ≤ 1572864) && decide (bitsOf q1 21 9 ≤ 256) && decide (bitsOf q1 30 34 = 0) &&
  kernQuad m h k 6 == 0#64 && kernQuad m h k 7 == 0#64 &&
  (List.range 4).all (fun s =>
    let r := roleWord m h k s
    if s < n then decide (bitsOf r 0 32 % 4 = 0) && inText (bitsOf r 0 32) && decide (bitsOf r 40 5 ≤ 16) &&
      decide (bitsOf r 45 2 ≤ 2) && decide (bitsOf r 58 6 = 0)
    else r == 0#64) &&
  decide (((List.range n).map (fun s => bitsOf (roleWord m h k s) 47 11 + 1)).foldl (· + ·) 0 ≤ 2048)

/-- An image with `size` bytes of the file from its header on (15 R367-R371). -/
def imageTablesOk (m : Mem) (h size : Nat) : Bool :=
  decide (1 ≤ imNsec m h) && decide (imNsec m h ≤ 64) && decide (1 ≤ imNkern m h) && decide (imNkern m h ≤ 1024) &&
  decide (imNgot m h ≤ 256) && decide (bitsOf (m.quad (h + 8)) 41 23 = 0) && decide ((m.quad (h + 56)).toNat % 65536 = 0) &&
  fits (imOff m h 0) (32 * imNsec m h) size && fits (imOff m h 1) (16 * imNsym m h) size &&
  fits (imOff m h 2) (32 * imNrel m h) size && fits (imOff m h 3) (64 * imNkern m h) size && fits (imOff m h 4) 0 size &&
  (List.range (imNsec m h)).all (secOk m h size) && secsApart m h && (List.range (imNsym m h)).all (symOk m h size) &&
  (List.range (imNrel m h)).all (relOk m h) && (List.range (imNkern m h)).all (kernOk m h size)

/-- The kernel names of an image in order (15 R372). -/
def kernNames (m : Mem) (h size : Nat) : List (Option (List (BitVec 8))) :=
  (List.range (imNkern m h)).map (fun k => imStr m h size (bitsOf (kernQuad m h k 0) 0 32))

/-- Step 1 of R374, without the choice of the image. -/
def objectOk (m : Mem) (f size : Nat) : Bool :=
  fileOk m f size && (List.range (fileImages m f)).all (fun k => imageTablesOk m (imgAt m f k) (imgRoom m f k)) &&
  (List.range (fileImages m f)).all (fun k =>
    kernNames m (imgAt m f k) (imgRoom m f k) == kernNames m (imgAt m f 0) (imgRoom m f 0))

/-! ### Choosing an image (15 R373) -/

/-- The ones among the 64 bits of a feature set. -/
def featCount (x : DWord) : Nat := ((List.range 64).filter (fun k => x.getLsbD k)).length

/-- A better image comes first: higher REV, then more features, then the lower index. -/
def betterImage (m : Mem) (f a b : Nat) : Bool :=
  let ra := bitsOf (imgQuad m f a 0) 0 8
  let rb := bitsOf (imgQuad m f b 0) 0 8
  let ca := featCount (imgQuad m f a 1)
  let cb := featCount (imgQuad m f b 1)
  decide (rb < ra) || (decide (ra = rb) && (decide (cb < ca) || (decide (ca = cb) && decide (a < b))))

/-- The image that a context with a set of features loads on a device of revision 1. -/
def selectImage (m : Mem) (f features : Nat) : Option Nat :=
  let left := (List.range (fileImages m f)).filter (fun k =>
    (imgQuad m f k 1 &&& ~~~(BitVec.ofNat 64 features)) == 0#64 && decide (bitsOf (imgQuad m f k 0) 0 8 ≤ 1))
  left.find? (fun a => left.all (fun b => decide (a = b) || betterImage m f a b))

/-! ### Linking (15 R374 steps 2 to 5; 06 R179), in memory addressed by the offset from the load base -/

/-- The bytes of a section as loaded. -/
def secBytes (m : Mem) (h k : Nat) : List (BitVec 8) :=
  let n := if secFilled m h k then secFsize m h k else 0
  m.read (h + secFoff m h k) n ++ List.replicate (secMsize m h k - n) 0#8

/-- The end of the highest section, and of the global offset table's place, from the load base. -/
def imTop (m : Mem) (h : Nat) : Nat := ((List.range (imNsec m h)).map (fun k => secVoff m h k + secMsize m h k)).foldl max 0
def imGot (m : Mem) (h : Nat) : Nat := (imTop m h + 4095) / 4096 * 4096
def imEnd (m : Mem) (h : Nat) : Nat := imGot m h + (8 * imNgot m h + 4095) / 4096 * 4096

/-- Sections and table before relocation. -/
def placed (m : Mem) (h : Nat) : Mem :=
  (List.range (imNsec m h)).foldl (fun t k => t.write (secVoff m h k) (secBytes m h k)) Mem.empty

/-- The value of a global symbol among the objects loaded into a context, the earliest first (15 R374 step 4). -/
def State.globalValue (s : State) (c : Nat) (name : List (BitVec 8)) : Option DWord :=
  (s.objs.filter (fun o => o.ctx == c && !o.unloaded)).findSome? (fun o =>
    (o.globals.find? (fun g => g.1 == name)).map (·.2))

/-- The value of every symbol, or the first external one that does not resolve. -/
def State.symValues (s : State) (c h size : Nat) (base : DWord) : Except LoadErr (List DWord) :=
  (List.range (imNsym s.mem h)).mapM (fun k =>
    if symExtern s.mem h k then
      match (imStr s.mem h size (bitsOf (symQuad s.mem h k 0) 0 32)).bind (s.globalValue c) with
      | some v => .ok v
      | none => .error ⟨3, k⟩
    else .ok (base + BitVec.ofNat 64 (secVoff s.mem h (symSec s.mem h k) + symValue s.mem h k)))

/-- The signed value of a 64-bit sum lies in the range of `n` bits (06 R179). -/
def inSigned (n : Nat) (v : DWord) : Bool := decide (-(2 ^ (n - 1) : Int) ≤ v.toInt) && decide (v.toInt < 2 ^ (n - 1))

/-- A word of the image with its low `n` bits replaced. -/
def patchLow (b : Mem) (a n v : Nat) : Mem :=
  let old := b.num a 4
  b.write a (bytesOfNat 4 (old / 2 ^ n * 2 ^ n + v % 2 ^ n))

/-- One relocation record (15 R374 step 5; 06 R179), or none when it is rejected. -/
def relocate (m : Mem) (h : Nat) (base : DWord) (values : List DWord) (b : Mem) (j : Nat) : Option Mem :=
  let kind := relKind m h j
  let off := relOffset m h j
  let got := relSec m h j == 0xFFFE
  let room := if got then 8 * imNgot m h else secMsize m h (relSec m h j)
  let at_ := (if got then imGot m h else secVoff m h (relSec m h j)) + off
  let v := values.getD (relSym m h j) 0#64 + relQuad m h j 2
  let d := v - (base + BitVec.ofNat 64 at_)
  if kind = 0 ∨ 6 < kind ∨ room < off + relSize kind then none
  else match kind with
    | 1 => if inSigned 32 v then some (patchLow b at_ 20 ((v + 0x800#64).sshiftRight 12).toNat) else none
    | 2 => some (patchLow b at_ 12 v.toNat)
    | 3 => if d.toNat % 4 = 0 && inSigned 20 d then some (patchLow b at_ 18 (d.sshiftRight 2).toNat) else none
    | 6 => if inSigned 32 d then some (b.write at_ (bytesOfNat 4 d.toNat)) else none
    | _ => some (b.write at_ (bytesOfNat 8 v.toNat))

/-- All records in ascending index, or the first that is rejected. -/
def relocateAll (m : Mem) (h : Nat) (base : DWord) (values : List DWord) : Nat → Nat → Mem → Except LoadErr Mem
  | 0, _, b => .ok b
  | n + 1, j, b => match relocate m h base values b j with
    | some b1 => relocateAll m h base values n (j + 1) b1
    | none => .error ⟨4, j⟩

/-! ### Placing and mapping (15 R374 step 6, R375) -/

/-- Where the context's page tables begin: in force on the device, else as the driver last wrote them. -/
def Ctx.tables4 (x : Ctx) : Nat := ((if x.st = .saved then x.regs.ptroot else x.act.ptroot).extractLsb' 12 36).toNat * 4096

/-- Is a page of the context unmapped? -/
def State.pageFree (s : State) (x : Ctx) (va : DWord) : Bool :=
  canonical va && (match walk s.mem (vaBits va) 5 x.tables4 with
  | .error k => k == kindNotMapped
  | .ok _ => false)

/-- Is a range of the context free of mapped pages and of its loaded objects? -/
def State.rangeFree (s : State) (c : Nat) (x : Ctx) (base : DWord) (bytes : Nat) : Bool :=
  decide (base.toNat + bytes ≤ 2 ^ 64) &&
  (List.range ((bytes + 4095) / 4096)).all (fun k => s.pageFree x (base + BitVec.ofNat 64 (4096 * k))) &&
  s.objs.all (fun o => o.ctx != c || o.unloaded || !rangesMeet base.toNat (base.toNat + bytes) o.base.toNat o.limit.toNat)

/-- The pages of the tables from a table on, `n` levels deep: a valid entry has a listed byte. -/
def tablePagesOf (m : Mem) : Nat → Nat → List Nat
  | 0, table => [table]
  | n + 1, table => table :: ((m.cells.filter (fun c => decide (table ≤ c.1) && decide (c.1 < table + 4096) && decide (c.1 % 8 = 0) &&
      pteTable (m.quad c.1) && pteValid (m.quad c.1))).flatMap (fun c => tablePagesOf m n (ptePa (m.quad c.1))))

/-- The pages that a page of tables maps, as (base, bytes). -/
def leavesOf (m : Mem) (table : Nat) : List (Nat × Nat) :=
  (m.cells.filter (fun c => decide (table ≤ c.1) && decide (c.1 < table + 4096) && decide (c.1 % 8 = 0) &&
    pteValid (m.quad c.1) && !pteTable (m.quad c.1))).map (fun c => (ptePa (m.quad c.1), 2 ^ pageLog (pteSize (m.quad c.1))))

/-- The memory that the registers of a context name: its page tables, the pages that they map, its lists and its Publish Buffers. -/
def CtxRegs.inUse (m : Mem) (r : CtxRegs) : List (Nat × Nat) :=
  let root := (r.ptroot.extractLsb' 12 36).toNat * 4096
  let tables := tablePagesOf m 4 root
  tables.map (fun p => (p, 4096)) ++ tables.flatMap (leavesOf m) ++
  [(r.declBase.toNat, 32 * (r.declN.extractLsb' 0 7).toNat), (r.allocBase.toNat, 32 * (r.allocN.extractLsb' 0 16).toNat)] ++
  (if r.pbTable = 0#64 then [] else (r.pbTable.toNat, 8192) :: (List.range 256).flatMap (fun n =>
    let e := r.pbTable.toNat + 32 * n
    let size := 65536 * m.num (e + 24) 4
    if (m.quad e).getLsbD 0 then [((m.quad (e + 8)).toNat, size), ((m.quad (e + 16)).toNat, size)] else []))

/-- The memory that is in use: what contexts name, their extents and graph tables, rings, loaded objects and the page tables made here
(15 R374, R375; log 11). -/
def State.inUse (s : State) : List (Nat × Nat) :=
  (s.ctxs.zipIdx).flatMap (fun x => if x.1.destroyed then [] else
    x.1.regs.inUse s.mem ++ x.1.act.inUse s.mem ++
    (s.extentsHeld x.2 x.1).map (fun k => (extBase s.mem x.1 k, extSize s.mem x.1 k)) ++
    x.1.graphs.flatMap (fun g => graphRanges s.mem g.2.toNat ++
      (List.range (graphNodes s.mem g.2.toNat)).map (succRange s.mem g.2.toNat))) ++
  (s.rings.filter (fun r => r.st != .free)).map (fun r => (r.base.toNat, 16 * 2 ^ r.logsz)) ++
  (s.objs.filter (fun o => !o.unloaded)).flatMap (fun o => [(o.ro, o.blockSize), (o.rw, o.blockSize)]) ++
  s.tablePages.map (fun p => (p, 4096))

/-- Is a block of HBM in none of some blocks? -/
def blockFree (busy : List (Nat × Nat)) (base size : Nat) : Bool :=
  inHbm base size && busy.all (fun b => !rangesMeet base (base + size) b.1 (b.1 + b.2))

/-- A free block of HBM, outside what is in use and some blocks beside: the one that an open value proposes if it is free, else the
first that is; none when the memory has none (log 11). A block that is free at all is free at 0 or where one in use ends. -/
def State.takeBlock (s : State) (more : List (Nat × Nat)) (align size : Nat) : Option Nat × State :=
  let (v, t) := s.draw
  let a := v.toNat % 2 ^ 39 / align * align
  let busy := more ++ s.inUse
  if blockFree busy a size then (some a, t)
  else ((0 :: busy.map (fun b => (b.1 + b.2 + align - 1) / align * align)).find? (fun b => blockFree busy b size), t)

/-- Enter a leaf at level 0 for a virtual page, with new tables where the walk finds none. -/
def State.mapPage (busy : List (Nat × Nat)) (leaf : DWord) (va : Nat) : Nat → Nat → State → Option State
  | 0, table, s => some (s.agentStore (table + 8 * (va / 4096 % 512)) (bytesOfNat 8 leaf.toNat))
  | n + 1, table, s =>
    let at_ := table + 8 * (va / 2 ^ (12 + 9 * (n + 1)) % 512)
    let e := s.mem.quad at_
    if pteValid e then (if pteTable e then State.mapPage busy leaf va n (ptePa e) s else none)
    else match s.takeBlock busy 4096 4096 with
      | (none, _) => none
      | (some a, t) => State.mapPage busy leaf va n a
          { (t.agentStore a (List.replicate 4096 0#8)).agentStore at_ (bytesOfNat 8 (a + 0x101)) with tablePages := t.tablePages ++ [a] }

/-- Clear the leaf of a virtual page. -/
def State.unmapPage (va : Nat) : Nat → Nat → State → State
  | 0, table, s => s.agentStore (table + 8 * (va / 4096 % 512)) (bytesOfNat 8 0)
  | n + 1, table, s =>
    let e := s.mem.quad (table + 8 * (va / 2 ^ (12 + 9 * (n + 1)) % 512))
    if pteValid e && pteTable e then State.unmapPage va n (ptePa e) s else s

/-- The ranges to be mapped, from the load base: offset, bytes, X, W; the table is read-only. -/
def imRanges (m : Mem) (h : Nat) : List (Nat × Nat × Bool × Bool) :=
  (List.range (imNsec m h)).map (fun k => (secVoff m h k, secMsize m h k, secX m h k, secW m h k)) ++
  (if imNgot m h = 0 then [] else [(imGot m h, 8 * imNgot m h, false, false)])

/-- Map the pages of one range whose first byte is at a physical address. -/
def State.mapRange (s : State) (busy : List (Nat × Nat)) (root : Nat) (va : DWord) (pa bytes : Nat) (x w : Bool) : Option State :=
  (List.range ((bytes + 4095) / 4096)).foldl (fun o k => o.bind (fun t =>
    State.mapPage busy (BitVec.ofNat 64 (pa + 4096 * k + (if w then 2 else 0) + (if x then 4 else 0) + 1))
      (vaBits (va + BitVec.ofNat 64 (4096 * k))) 4 root t)) (some s)

/-- The allocation list to which the loader appends, with its length: the one in force, else the one that the driver has written. -/
def Ctx.listBase (x : Ctx) : DWord := if x.st != .saved then x.act.allocBase else x.regs.allocBase
def Ctx.listEnd (x : Ctx) : Nat :=
  if x.st != .saved then max x.act.allocN.toNat (if x.regs.allocBase == x.listBase then x.regs.allocN.toNat else 0)
  else x.regs.allocN.toNat

/-- Has it room for some more extents (14 R342)? -/
def Ctx.listRoom (x : Ctx) (k : Nat) : Bool := x.listBase == 0#64 || decide (x.listEnd + k ≤ 65535)

/-- Append an extent to the context's allocation list, where there is one (14 R343). -/
def State.appendExtent (s : State) (c pa : Nat) (va : DWord) (size : Nat) (shared : Bool) : State :=
  match s.ctxs[c]? with
  | none => s
  | some x =>
    let on := x.st != .saved
    let base := x.listBase
    let both := x.regs.allocBase == base
    let n := x.listEnd
    if base = 0#64 then s
    else
      let s1 := s.agentStore (base.toNat + 32 * n) (bytesOfNat 8 pa ++ bytesOfNat 8 va.toNat ++ bytesOfNat 8 size ++
        bytesOfNat 8 (if shared then 2 else 0))
      let up (r : CtxRegs) : CtxRegs := { r with allocN := BitVec.ofNat 64 (n + 1) }
      s1.modCtx c (fun y => { y with
        regs := if both then up y.regs else y.regs
        act := if on then up y.act else y.act
        agDirty := if on then ((List.range (size / 65536)).map (AgItem.granule n)).foldl addMark y.agDirty else y.agDirty })

/-- A kernel of a loaded image (15 R371, R374). -/
def kernelAt (m : Mem) (h : Nat) (base : DWord) (num k : Nat) : Kernel :=
  let q0 := kernQuad m h k 0
  { roles := (List.range (kernRoles m h k)).map (fun s =>
      let r := roleWord m h k s
      { entry := base + BitVec.ofNat 64 (bitsOf r 0 32), numV := bitsOf r 32 8 + 1, numH := bitsOf r 40 5, numB := bitsOf r 45 2,
        waves := bitsOf r 47 11 + 1 })
    scratch := bitsOf (kernQuad m h k 1) 0 21
    home := if q0.getLsbD 35 then some (8 * bitsOf q0 36 5) else none
    got := base + BitVec.ofNat 64 (imGot m h), obj := num }

/-- The key of 15 R375. -/
def State.objectKey (s : State) (f h : Nat) (base : DWord) (values : List DWord) : ObjKey :=
  ⟨Config.sha3 (s.mem.read f (fileSize s.mem f)), base,
    ((List.range (imNsym s.mem h)).filter (symExtern s.mem h)).map (fun k => values.getD k 0#64)⟩

/-- The bytes of a range of the linked image go to physical memory. -/
def State.putRange (s : State) (b : Mem) (pa off bytes : Nat) : State := s.agentStore pa (b.read off bytes)

/-- The read-only part and the private part are placed, mapped and entered into the allocation list (15 R374, R375). -/
def State.install (s : State) (c : Nat) (x : Ctx) (h img : Nat) (base : DWord) (values : List DWord) (b : Mem) (key : ObjKey) :
    Except LoadErr (Nat × State) :=
  let size := (imEnd s.mem h + 65535) / 65536 * 65536
  let ranges := imRanges s.mem h
  let twin := s.objs.find? (fun o => o.key == key && !o.unloaded)
  let (ro, s1) := match twin with
    | some o => (some o.ro, s)
    | none => s.takeBlock [] 65536 size
  match ro with
  | none => .error ⟨6, 0⟩
  | some ro =>
    let some_ := ranges.any (fun r => r.2.2.2)
    let (rw, s2) := if some_ then s1.takeBlock [(ro, size)] 65536 size else (some ro, s1)
    match rw with
    | none => .error ⟨6, 0⟩
    | some rw =>
      let at_ (r : Nat × Nat × Bool × Bool) : Nat := (if r.2.2.2 then rw else ro) + r.1
      let s3 := ranges.foldl (fun t r => if r.2.2.2 || twin.isNone then t.putRange b (at_ r) r.1 r.2.1 else t) s2
      let mapped := ranges.foldl (fun o r => o.bind (fun t =>
        State.mapRange t [(ro, size), (rw, size)] x.tables4 (base + BitVec.ofNat 64 r.1) (at_ r) r.2.1 r.2.2.1 r.2.2.2)) (some s3)
      match mapped.filter (fun _ => x.listRoom (if some_ then 2 else 1)) with
      | none => .error ⟨6, 0⟩
      | some s4 =>
        let (num, s5) := match twin with
          | some o => (o.num, s4)
          | none => s4.freshNumber 32 (fun n => s4.objs.any (fun o => o.num == n && !o.unloaded)) s4.objs.length
        let globals := (List.range (imNsym s.mem h)).filterMap (fun k =>
          if symGlobal s.mem h k && !symExtern s.mem h k then
            (imStr s.mem h img (bitsOf (symQuad s.mem h k 0) 0 32)).map (fun n => (n, values.getD k 0#64))
          else none)
        let o : Obj :=
          { num := num, ctx := c, key := key, base := base, gotb := base + BitVec.ofNat 64 (imGot s.mem h),
            limit := base + BitVec.ofNat 64 (imEnd s.mem h), ro := ro, rw := rw,
            pages := ranges.map (fun r => ((base + BitVec.ofNat 64 r.1).toNat, r.2.1, !r.2.2.2)),
            kernels := (List.range (imNkern s.mem h)).map (kernelAt s.mem h base num), globals := globals, revoked := false,
            unloaded := false }
        let s6 := (({ s5 with objs := s5.objs ++ [o] } : State).grant (.object s5.objs.length) (Config.tableBase 2 s5.objs.length)
          (64 * imNkern s.mem h) true false x.id).appendExtent c ro base size true
        .ok (num, if some_ then s6.appendExtent c rw base size false else s6)

/-- Drop the instruction-cache lines and the translations of a range of a context, and the words of it that waves have fetched
(02 R74; 07 R201). -/
def State.dropCode (s : State) (c base len : Nat) : State :=
  ((s.dropRange c base len).allCores (fun k => { k with
    icache := k.icache.filter (fun l => l.ctx != c ||
      !rangesMeet (vaBits (BitVec.ofNat 64 (128 * l.line))) (vaBits (BitVec.ofNat 64 (128 * l.line)) + 128) base (base + len)) })).allWaves
    (fun w => if w.ctx = c ∧ w.fetched.any (fun f => rangesMeet (vaBits f.1) (vaBits f.1 + 4) base (base + len)) then
      { w with fetched := none } else w)

/-- A load (15 R374, R375): the loaded-object number, the index of the image and its header, and the machine with the object. -/
def State.load_ (s0 : State) (c : Nat) (x : Ctx) (f size : Nat) (base : DWord) : Except LoadErr (Nat × Nat × State) :=
  if !objectOk s0.mem f size then .error ⟨1, 0⟩
  else
  let s := s0.readTable c [(f, fileSize s0.mem f)]
  match selectImage s.mem f x.features with
    | none => .error ⟨2, 0⟩
    | some k =>
      let h := imgAt s.mem f k
      if base.toNat % 65536 ≠ 0 then .error ⟨5, 0⟩
      else match s.symValues c h (imgRoom s.mem f k) base with
        | .error e => .error e
        | .ok values => match relocateAll s.mem h base values (imNrel s.mem h) 0 (placed s.mem h) with
          | .error e => .error e
          | .ok b =>
            if !s.rangeFree c x base (imEnd s.mem h) then .error ⟨5, 0⟩
            else match s.install c x h (imgRoom s.mem f k) base values b (s.objectKey f h base values) with
              | .error e => .error e
              | .ok (num, t) => .ok (num, k, t.dropCode c (vaBits base) (imEnd s.mem h))

/-- OBJ_LOAD (19 R411). The invalidation of R374 ends with it (02 R74). -/
def execObjLoad (s : State) : Step :=
  .next (s.serveQuiet 0x20 (· == 24) fun s c x =>
    let f := (s.mbB 0).toNat
    let size := (s.mbB 1).toNat
    if !reachesMemory (s.mbB 0) || decide (size ≠ 0) && !reachesMemory (s.mbB 0 + BitVec.ofNat 64 (size - 1)) then
      s.refuse resBadField 0
    else match s.load_ c x f size (s.mbB 2) with
      | .error e => s.refuse resRefused (e.cls * 2 ^ 24 + e.index % 2 ^ 24)
      | .ok (num, k, t) =>
        let h := imgAt s.mem f k
        s.answer t (bytesOfNat 8 num ++ bytesOfNat 8 (s.mbB 2 + BitVec.ofNat 64 (imGot s.mem h)).toNat ++
          bytesOfNat 8 (imNkern s.mem h % 2 ^ 16 + 2 ^ 16 * k)))

/-! ### Unloading (15 R376) -/

/-- The lowest registered table of a context with a node that names an object. -/
def State.tableNaming (s : State) (x : Ctx) (num : Nat) : Option Nat :=
  let named := x.graphs.filter (fun g => (List.range (graphNodes s.mem g.2.toNat)).any (fun j =>
    bitsOf (nodeQuad s.mem g.2.toNat j 0) 16 32 == num))
  named.foldl (fun o g => match o with
    | some k => some (min k g.1)
    | none => some g.1) none

/-- The lowest enabled bin of a context that names an object. -/
def Ctx.binNaming (x : Ctx) (num : Nat) : Option Nat :=
  let named := x.bins.filter (fun b => b.2.en && bitsOf (qAt b.2.quads 1) 16 32 == num)
  named.foldl (fun o b => match o with
    | some k => some (min k b.1)
    | none => some b.1) none

/-- OBJ_UNLOAD: the handles are revoked at once. -/
def execObjUnload (s : State) : Step :=
  .next (s.serveCtx 0x21 (· == 16) fun s c x =>
    let num := (s.mbB 1).toNat
    if !completionOk (s.mbB 0) then s.refuse resBadField 0
    else match s.objs.findIdx? (fun o => o.ctx == c && o.num == num && !o.unloaded) with
      | none => s.refuse resBadField 0
      | some k => match s.objs[k]? with
        | none => s.refuse resBadField 0
        | some o =>
          if o.revoked then s.refuse resState 0
          else match s.tableNaming x num, x.binNaming num with
            | some t, _ => s.refuse resState t
            | none, some b => s.refuse resState (0x1000 + b)
            | none, none =>
              s.answer (((s.modObj k (fun y => { y with revoked := true })).revokeObj (.object k)).begin_ 0x21 c k []) [])

/-- Does the context have a group, placed or not, that runs a kernel of an object? -/
def State.runsObject (s : State) (c num : Nat) : Bool :=
  s.groups.any (fun g => g.ctx == c && g.st != .retired && g.kernel.obj == num) ||
  s.launches.any (fun l => l.ctx == c && l.listed && l.kernel.obj == num)

/-- Step 3: the range is unmapped and its translations are dropped. -/
def State.unloadObj (s : State) (k : Nat) : State :=
  match s.objs[k]? with
  | none => s
  | some o =>
    let root := match s.ctxs[o.ctx]? with
      | some x => x.tables4
      | none => 0
    let s1 := o.pages.foldl (fun t p => (List.range ((p.2.1 + 4095) / 4096)).foldl (fun u j =>
      State.unmapPage (vaBits (BitVec.ofNat 64 (p.1 + 4096 * j))) 4 root u) t) s
    ((s1.modObj k (fun y => { y with unloaded := true, revoked := true })).revokeObj (.object k)).dropCode o.ctx (vaBits o.base)
      (o.limit - o.base).toNat

end Sys2Proof.Machine
end

