-- ==== Sys2Proof/Machine/Lantern.lean ====
section
/-! DEFINITION. Lantern's services that act on no context, the completion of begun services, and the SPDM responder
(19 R405, R410-R419; 14 R365). -/

namespace Sys2Proof.Machine

/-! ### Domains and snapshots (19 R416-R418) -/

/-- DOM_SET: quotas above their limits are stored clamped. -/
def execDomSet (s : State) : Step :=
  .next (s.serve0 0x40 (· == 1296) fun s =>
    let qs := (List.range 160).map (fun c => (c, s.mbB (2 + c)))
    if !onlyBits (s.mbB 0) 6 || qs.any (fun q => (q.2 &&& ~~~0x1FF00FF#64) != 0#64) then s.refuse resBadField 0
    else s.answer (s.modDomain (s.mbB 0).toNat (fun d => { d with
      fmask := s.mbB 1
      quotas := qs.filterMap (fun q =>
        let x := (min (bitsOf q.2 0 8) 128, min (bitsOf q.2 16 9) 416)
        if x = (128, 416) then none else some (q.1, x)) })) [])

/-- The register block of a domain, offsets 0x000 to 0x65F (19 R416). -/
def State.domBlock (s : State) (d : Nat) : List (BitVec 8) :=
  let fmask := match s.domains[d]? with
    | some x => x.fmask
    | none => 0#64
  bytesOfNat 8 fmask.toNat ++ bytesOfNat 8 s.epoch.toNat ++ List.replicate 0xF0 0#8 ++
  (List.range 160).flatMap (fun c => bytesOfNat 8 ((s.quota d c).1 + 65536 * (s.quota d c).2)) ++
  (List.range 12).flatMap (fun k => bytesOfNat 8 (s.counter d k).toNat)

/-- DOM_GET. -/
def execDomGet (s : State) : Step :=
  .next (s.serve0 0x41 (· == 8) fun s =>
    if !onlyBits (s.mbB 0) 6 then s.refuse resBadField 0 else s.answer s (s.domBlock (s.mbB 0).toNat))

/-- The record of a snapshot and its signature (19 R418). -/
def State.snapshotBytes (s : State) (d nonce : Nat) : List (BitVec 8) :=
  let rec_ := bytesOfNat 8 s.form.devId.toNat ++ bytesOfNat 4 d ++ bytesOfNat 4 s.epoch.toNat ++ bytesOfNat 8 s.snapSeq.toNat ++
    bytesOfNat 32 nonce ++ (List.range 12).flatMap (fun k => bytesOfNat 8 (s.counter d k).toNat) ++
    bytesOfNat 8 s.hours.toNat ++ bytesOfNat 32 (s.measurements.getD 2 0#256).toNat
  rec_ ++ bytesOfNat 2420 (Config.sign (bytesOfNat 32 (Config.sha3 rec_).toNat))

/-- A snapshot takes the next sequence number. -/
def State.nextSnapshot (s : State) : State := { s with snapSeq := s.snapSeq + 1#64 }

/-- SNAPSHOT. -/
def execSnapshot (s : State) : Step :=
  .next (s.serve0 0x42 (· == 40) fun s =>
    if !onlyBits (s.mbB 0) 6 then s.refuse resBadField 0
    else s.answer s.nextSnapshot (s.snapshotBytes (s.mbB 0).toNat (s.mbBuf.num 40 32)))

/-! ### Power, lifetime record, peers, image (19 R405, R415, R419; 14 R365) -/

/-- POWER: the request body names a limit and whether to write it; the form of the device bounds it (00 R2; 19 R419). -/
def State.power (s : State) (write : Bool) : State :=
  if s.asked 0x50 && (s.mbB 0).getLsbD 0 != write then s
  else s.serve0 0x50 (· == 8) fun s =>
    let limit := bitsOf (s.mbB 0) 16 12
    if (s.mbB 0 &&& ~~~0xFFF0001#64) != 0#64 || (write && !(decide (600 ≤ limit) && decide (limit ≤ s.form.maxPower))) then
      s.refuse resBadField 0
    else
      let t := if write then { s with powerCap := limit } else s
      s.answer t (bytesOfNat 8 t.powerCap)

def execPowerRead (s : State) : Step := .next (s.power false)
def execPowerWrite (s : State) : Step := .next (s.power true)

/-- LIFE_GET: the record runs to LT_HOURS (14 R365). -/
def execLifeGet (s : State) : Step :=
  .next (s.serve0 0x51 (· == 16) fun s =>
    let off := (s.mbB 0).toNat
    let len := (s.mbB 1).toNat
    if off % 8 ≠ 0 || len % 8 ≠ 0 || 0xD10 < off + len then s.refuse resBadField 0
    else s.answer s ((List.range (len / 8)).flatMap (fun k => bytesOfNat 8 (s.lifeAt (off + 8 * k)).toNat)))

/-- The code of a peer's state (19 R411). -/
def PeerSt.code : PeerSt → Nat
  | .absent => 0
  | .up => 1
  | .down => 2

/-- PEER_SET. Whether the identity of a peer to which a port has trained is confirmed is open (log 67). -/
def execPeerSet (s : State) : Step :=
  .next (s.serve0 0x52 (· == 48) fun s =>
    let p := bitsOf (s.mbB 0) 0 6
    let en := (s.mbB 0).getLsbD 16
    let mask := (s.mbB 1).extractLsb' 0 16
    if (s.mbB 0 &&& ~~~0x1003F#64) != 0#64 || !onlyBits (s.mbB 1) 16 then s.refuse resBadField 0
    else
      let (v, t) := s.draw
      let st : PeerSt := if !en then .absent else if mask &&& s.linkPorts ≠ 0#16 && v.getLsbD 0 then .up else .down
      s.answer { t with peers := t.peers.set p ⟨mask, BitVec.ofNat 256 (s.mbBuf.num 48 32), st⟩ } (bytesOfNat 8 st.code))

/-- IMAGE_PUSH (19 R415): in RECOVERY the image runs, and what of the rest of the bring-up fails is open; else it is stored.
DESIGN CHOICE (log 83): an image that runs in RECOVERY is stored too, for later resets. -/
def execImagePush (s : State) : Step :=
  .next (s.serve0 0x60 (· == 16) fun s =>
    let a := s.mbB 0
    let n := (s.mbB 1).toNat
    if !reachesMemory a || decide (n ≠ 0) && !reachesMemory (a + BitVec.ofNat 64 (n - 1)) then s.refuse resBadField 0
    else
      let image := s.mem.read a.toNat n
      if !s.imageOk image then s.refuse resBadImage 0
      else
        let t := { s.homeRange a.toNat n false with firmware := image }
        if s.recovery then
          s.answer (({ t with recovery := false, draws := t.draws + 1 } : State).measureBoot.bringUp (Config.bootFailures t.draws)) []
        else s.answer t [])

/-! ### The end of begun services (19 R412) -/

/-- All groups of a context have ended, with their trees and copies (14 R339). -/
def State.ctxOver (s : State) (c : Nat) : Bool :=
  s.groups.all (fun g => g.ctx != c || g.st == .retired) && s.trees.all (fun t => t.ctx != c || !t.isOpen) &&
  s.copies.all (fun q => q.ctx != c || q.st.ended)

/-- A killed context is SAVED with no groups and no image (14 R339). -/
def State.finishKill (s : State) (c : Nat) : State :=
  (s.dropDecls c).modCtx c (fun x => { x.forget with
    st := .saved, sgos := x.sgos.map (fun (o : Sgo) => { o with live := false }) })

/-- A destroyed context: its rings are FREE, its objects unloaded, its record and number free (19 R411). -/
def State.finishDestroy (s : State) (c : Nat) : State :=
  let mine := (List.range s.objs.length).filter (fun k => match s.objs[k]? with
    | some o => o.ctx == c && !o.unloaded
    | none => false)
  let s1 := mine.foldl State.unloadObj (s.finishKill c)
  (({ s1 with rings := s1.rings.map (fun (r : Ring) => if r.ctx = c then { r with st := .free } else r) } : State).revoke
    (fun k => k.owner == s.ownerOf c)).modCtx c
    (fun x => { x with destroyed := true, slot := none })

/-- No group of the ring's trees is live and no copy of theirs is running (13 R321). -/
def State.ringOver (s : State) (k : Nat) : Bool :=
  let mine := s.treeOfRings (· == k)
  s.groups.all (fun g => !mine g.tree || g.st == .retired) &&
  (List.range s.trees.length).all (fun t => !mine t || (match s.trees[t]? with
    | some x => !x.isOpen
    | none => true)) &&
  s.copies.all (fun q => q.st.ended || (match q.host with
    | some (r, _) => r != k
    | none => match s.groups[q.group]? with
      | some g => !mine g.tree
      | none => true))

/-- The ring is FREE, the sample group objects of its trees are freed, and the queue-window slot with the last ring
(13 R321; 19 R399). -/
def State.finishRing (s : State) (c k : Nat) : State :=
  let s1 := (s.modRing k (fun r => { r with st := .free })).revokeObj (.ring k)
  let last := s1.rings.all (fun r => r.ctx != c || r.st == .free)
  s1.modCtx c (fun x => { x with
    sgos := x.sgos.map (fun (o : Sgo) => if s.treeOfRings (· == k) o.tree then { o with live := false } else o)
    slot := if last then none else x.slot })

/-- A requested close is no longer possible: the context has left the state it needs (19 R412). -/
def Ctx.closeLost (x : Ctx) (k mode : Nat) : Bool :=
  !(x.agBy.any (fun r => r.origin == .service k)) &&
  (!(x.agQueue.any (fun r => r.origin == .service k)) ||
    !(x.st == .resident || x.st == .stopping || (mode == 1 && x.st == .faulted)))

/-- The machine after the effect that ends a begun service, with its result, once it can end. -/
def State.serviceEnd (s : State) (k : Nat) (b : Begun) : Option (Nat × State) :=
  match b.code with
  | 0x05 =>
    if b.ready then some (b.result, s)
    else match s.ctxs[b.ctx]? with
      | none => some (resState, s)
      | some x =>
        if x.closeLost k b.arg then
          some (resState, s.modCtx b.ctx (fun y => { y with agQueue := y.agQueue.filter (fun r => r.origin != .service k) }))
        else none
  | 0x07 => if s.ctxOver b.ctx then some (0, s.finishKill b.ctx) else none
  | 0x02 => if s.ctxOver b.ctx then some (0, s.finishDestroy b.ctx) else none
  | 0x08 => if s.accessesDone (· == b.ctx) then some (0, s) else none
  | 0x11 => if s.ringOver b.arg then some (0, s.finishRing b.ctx b.arg) else none
  | _ => match s.objs[b.arg]? with
    | none => some (0, s)
    | some o => if s.runsObject b.ctx o.num || !s.accessesDone (· == b.ctx) then none else some (0, s.unloadObj b.arg)

/-- The completion record of a begun service (19 R412; 13 R321). -/
def Begun.record (b : Begun) (result : Nat) : List (BitVec 8) :=
  if b.code = 0x11 then bytesOfNat 8 0 ++ (List.range 4).flatMap (fun k => bytesOfNat 4 (b.counts.getD k 0)) ++
    bytesOfNat 8 (b.counts.getD 4 0 % 2 ^ 32)
  else
    let value := if b.code = 0x07 ∨ b.code = 0x02 then b.counts.getD 0 0 else b.value.toNat
    bytesOfNat 2 b.code ++ bytesOfNat 6 (result % 256) ++ bytesOfNat 8 b.tag.toNat ++ bytesOfNat 8 value ++ bytesOfNat 8 0

/-- Have the services of the same context that were begun before ended? -/
def State.firstBegun (s : State) (k c : Nat) : Bool := (s.begun.take k).all (fun b => b.ctx != c || b.ended)

/-- SERVICE_COMPLETION: the record is written and vector 2 raised, or nothing for address 0. -/
def execServiceCompletion (k : Nat) (s : State) : Step :=
  .next (match s.begun[k]? with
    | none => s
    | some b =>
      if b.ended || !s.firstBegun k b.ctx then s
      else match s.serviceEnd k b with
        | none => s
        | some (result, t) =>
          let u := t.modBegun k (fun y => { y with ended := true })
          if b.addr = 0#64 then u
          else (u.enterPhys none b.addr.toNat false ((b.record result).map some) none).raise 2)

/-! ### SPDM (19 R414; log 25) -/

/-- The code of an SPDM message. -/
def spdmCode (msg : List (BitVec 8)) : Nat := (msg.getD 1 0#8).toNat

/-- The SPDM request over MCTP that is the next to be served: none while a request in the mailbox is (19 R409, R414). -/
def State.mctpNext (s : State) : Option (SpdmVia × List (BitVec 8)) := if s.mbNext then none else s.spdmIn.head?

/-- The first request over MCTP is served: its response is sent over the transport on which it came. -/
def State.spdmReply (s : State) (resp : Nat) (content : State → List (BitVec 8) → List (BitVec 8)) (after : State → State) : State :=
  match s.spdmIn with
  | [] => s
  | (via, r) :: rest =>
    let t := after { s with spdmIn := rest, spdmBefore := s.spdmBefore - 1 }
    { t with spdmOut := t.spdmOut ++ [(via, Config.spdmMessage resp s.spdmReady r (content s r))] }

/-- An SPDM request with a code: in the mailbox, or over MCTP, one at a time and in the order in which they reached Lantern. -/
def State.spdm (s : State) (req resp : Nat) (content : State → List (BitVec 8) → List (BitVec 8)) (after : State → State) : State :=
  if s.asked 0x70 then
    if s.mbBuf.num 33 1 = req then
      s.serve0 0x70 (fun n => decide (8 ≤ n)) (fun s =>
        let r := s.mbBuf.read 32 s.mbLength
        s.answer (after s) (Config.spdmMessage resp s.spdmReady r (content s r)))
    else s
  else match s.mctpNext with
    | none => s
    | some m => if spdmCode m.2 = req then s.spdmReply resp content after else s

/-- What is offered: ML-DSA-44 as the only signature algorithm and SHA3-256 as the only hash (19 R414; log 25). -/
def algorithmsOffered : List (BitVec 8) := ("ML-DSA-44, SHA3-256".toList).map (fun c => BitVec.ofNat 8 c.toNat)

def execGetVersion (s : State) : Step := .next (s.spdm 0x84 0x04 (fun _ _ => []) (fun s => { s with spdmReady := false }))
def execGetCapabilities (s : State) : Step := .next (s.spdm 0xE1 0x61 (fun _ _ => []) id)
/-- ML-DSA-44 and SHA3-256 are the only algorithms offered. -/
def execNegotiateAlgorithms (s : State) : Step :=
  .next (s.spdm 0xE3 0x63 (fun _ _ => algorithmsOffered) (fun s => { s with spdmReady := true }))
def execGetDigests (s : State) : Step := .next (s.spdm 0x81 0x01 (fun _ _ => bytesOfNat 32 Config.identityDigest.toNat) id)
def execGetCertificate (s : State) : Step := .next (s.spdm 0x82 0x02 (fun _ _ => Config.certificate) id)

/-- The measurements of 19 R413 as bytes. -/
def State.measured (s : State) : List (BitVec 8) := s.measurements.flatMap (fun m => bytesOfNat 32 m.toNat)

/-- CHALLENGE: a signature over the request and the measurements. -/
def execChallenge (_nonce : Nat) (s : State) : Step :=
  .next (s.spdm 0x83 0x03 (fun s r => bytesOfNat 2420 (Config.sign (bytesOfNat 32 (Config.sha3 (r ++ s.measured)).toNat))) id)

/-- GET_MEASUREMENTS returns the indices of 19 R413, with a signature over them and the request. -/
def execGetMeasurements (_nonce : Nat) (s : State) : Step :=
  .next (s.spdm 0xE0 0x60 (fun s r => s.measured ++
    bytesOfNat 2420 (Config.sign (bytesOfNat 32 (Config.sha3 (r ++ s.measured)).toNat))) id)

/-- VENDOR_DEFINED_REQUEST carries the snapshots of 19 R418. -/
def execVendorDefinedRequest (_dom _nonce : Nat) (s : State) : Step :=
  .next (s.spdm 0xFE 0x7E (fun s r => s.snapshotBytes (Config.spdmDomain r % 64) (Config.spdmNonce r)) State.nextSnapshot)

/-- The messages of 19 R414. -/
def spdmCodes : List Nat := [0x81, 0x82, 0x83, 0x84, 0xE0, 0xE1, 0xE3, 0xFE]

/-- BADSERVICE: a code that R411 does not list (19 R410). An SPDM request with a message that R414 does not list is answered with
an SPDM message, whose bytes are open (log 25). -/
def execBadservice (s : State) : Step :=
  .next (
    if s.mbNext && !serviceCodes.contains s.mbService then s.respond (s.refuse resBadService 0)
    else if s.asked 0x70 then
      if spdmCodes.contains (s.mbBuf.num 33 1) then s else s.spdm (s.mbBuf.num 33 1) 0x7F (fun _ _ => []) id
    else match s.mctpNext with
      | none => s
      | some m => if spdmCodes.contains (spdmCode m.2) then s else s.spdmReply 0x7F (fun _ _ => []) id)

/-- The SPDM request that is the next to be served, by its code. -/
def State.serveSpdm (s : State) : Step :=
  match (if s.asked 0x70 then s.mbBuf.num 33 1 else s.mctpNext.elim 0 (fun m => spdmCode m.2)) with
  | 0x84 => execGetVersion s
  | 0xE1 => execGetCapabilities s
  | 0xE3 => execNegotiateAlgorithms s
  | 0x81 => execGetDigests s
  | 0x82 => execGetCertificate s
  | 0x83 => execChallenge 0 s
  | 0xE0 => execGetMeasurements 0 s
  | 0xFE => execVendorDefinedRequest 0 0 s
  | _ => execBadservice s

/-- The request in the mailbox is served (19 R409). -/
def State.serveMailbox (s : State) : Step :=
  match s.mbService with
  | 0x01 => execCtxCreate s
  | 0x02 => execCtxDestroy s
  | 0x03 => execCtxRead s
  | 0x04 => execCtxWrite s
  | 0x05 => if (s.mbB 1).getLsbD 0 then execCtxStopSave s else execCtxStopClose s
  | 0x06 => execCtxResume s
  | 0x07 => execCtxKill s
  | 0x08 => execCtxInval s
  | 0x10 => execRingCreate s
  | 0x11 => execRingDestroy s
  | 0x20 => execObjLoad s
  | 0x21 => execObjUnload s
  | 0x30 => execGraphSet s
  | 0x31 => execBinSet s
  | 0x32 => execPbSet s
  | 0x40 => execDomSet s
  | 0x41 => execDomGet s
  | 0x42 => execSnapshot s
  | 0x50 => if (s.mbB 0).getLsbD 0 then execPowerWrite s else execPowerRead s
  | 0x51 => execLifeGet s
  | 0x52 => execPeerSet s
  | 0x60 => execImagePush s
  | 0x70 => s.serveSpdm
  | _ => execBadservice s

end Sys2Proof.Machine
end

