-- ==== Sys2Proof/Machine/Masks.lean ====
section
/-! DEFINITION. Comparisons into masks, whole-mask forms, cross-lane forms, lane moves (08 R221-R227). -/

namespace Sys2Proof.Machine

/-! ### Comparisons (08 R221) -/

/-- The bits of a mask over the active lanes; the other bits keep what `old` holds. -/
def cmpBits (active old : Word) (c : Nat → Bool) : Nat → Word
  | 0 => old
  | n + 1 =>
    let r := cmpBits active old c n
    if active.getLsbD n then (if c n then r ||| (1#32 <<< n) else r &&& ~~~(1#32 <<< n)) else r

/-- VCMP (08 R221). -/
def compare (m : BitVec 3) (a b : BitVec 8) (c : Word → Word → Bool) (w : Wave) : Wave :=
  w.setM m.toNat (cmpBits (w.m 0) (w.m m.toNat) (fun l => c (w.v a.toNat l) (w.v b.toNat l)) 32)

/-- The registers a VCMP names. -/
def formCmp (sw : BitVec 1) (a b : BitVec 8) : Form := { sw := sw, src := [.v a.toNat, .v b.toNat] }

def execVcmpEqI32 (sw : BitVec 1) (m : BitVec 3) (a b : BitVec 8) (s : State) : Step :=
  s.onWave (.vcmpEqI32 sw m a b) (formCmp sw a b) (compare m a b (· == ·))
def execVcmpNeI32 (sw : BitVec 1) (m : BitVec 3) (a b : BitVec 8) (s : State) : Step :=
  s.onWave (.vcmpNeI32 sw m a b) (formCmp sw a b) (compare m a b (· != ·))
def execVcmpLtI32 (sw : BitVec 1) (m : BitVec 3) (a b : BitVec 8) (s : State) : Step :=
  s.onWave (.vcmpLtI32 sw m a b) (formCmp sw a b) (compare m a b BitVec.slt)
def execVcmpLeI32 (sw : BitVec 1) (m : BitVec 3) (a b : BitVec 8) (s : State) : Step :=
  s.onWave (.vcmpLeI32 sw m a b) (formCmp sw a b) (compare m a b BitVec.sle)
def execVcmpLtuI32 (sw : BitVec 1) (m : BitVec 3) (a b : BitVec 8) (s : State) : Step :=
  s.onWave (.vcmpLtuI32 sw m a b) (formCmp sw a b) (compare m a b BitVec.ult)
def execVcmpLeuI32 (sw : BitVec 1) (m : BitVec 3) (a b : BitVec 8) (s : State) : Step :=
  s.onWave (.vcmpLeuI32 sw m a b) (formCmp sw a b) (compare m a b BitVec.ule)
def execVcmpEqF32 (sw : BitVec 1) (m : BitVec 3) (a b : BitVec 8) (s : State) : Step :=
  s.onWave (.vcmpEqF32 sw m a b) (formCmp sw a b) (compare m a b fpEq)
def execVcmpNeF32 (sw : BitVec 1) (m : BitVec 3) (a b : BitVec 8) (s : State) : Step :=
  s.onWave (.vcmpNeF32 sw m a b) (formCmp sw a b) (compare m a b (fun x y => !fpEq x y))
def execVcmpLtF32 (sw : BitVec 1) (m : BitVec 3) (a b : BitVec 8) (s : State) : Step :=
  s.onWave (.vcmpLtF32 sw m a b) (formCmp sw a b) (compare m a b fpLt)
def execVcmpLeF32 (sw : BitVec 1) (m : BitVec 3) (a b : BitVec 8) (s : State) : Step :=
  s.onWave (.vcmpLeF32 sw m a b) (formCmp sw a b) (compare m a b fpLe)
def execVcmpUnF32 (sw : BitVec 1) (m : BitVec 3) (a b : BitVec 8) (s : State) : Step :=
  s.onWave (.vcmpUnF32 sw m a b) (formCmp sw a b) (compare m a b fpUnordered)

/-! ### Whole masks (08 R222) -/

def execMand (sw : BitVec 1) (d a b : BitVec 3) (s : State) : Step :=
  s.onWave (.mand sw d a b) { sw := sw } (fun w => w.setM d.toNat (w.m a.toNat &&& w.m b.toNat))
def execMor (sw : BitVec 1) (d a b : BitVec 3) (s : State) : Step :=
  s.onWave (.mor sw d a b) { sw := sw } (fun w => w.setM d.toNat (w.m a.toNat ||| w.m b.toNat))
def execMxor (sw : BitVec 1) (d a b : BitVec 3) (s : State) : Step :=
  s.onWave (.mxor sw d a b) { sw := sw } (fun w => w.setM d.toNat (w.m a.toNat ^^^ w.m b.toNat))
def execMandn (sw : BitVec 1) (d a b : BitVec 3) (s : State) : Step :=
  s.onWave (.mandn sw d a b) { sw := sw } (fun w => w.setM d.toNat (w.m a.toNat &&& ~~~(w.m b.toNat)))
def execMnot (sw : BitVec 1) (d a : BitVec 3) (s : State) : Step :=
  s.onWave (.mnot sw d a) { sw := sw } (fun w => w.setM d.toNat (~~~(w.m a.toNat)))
def execMfroms (sw : BitVec 1) (d : BitVec 3) (r : BitVec 6) (s : State) : Step :=
  s.onWave (.mfroms sw d r) { sw := sw, src := [.s r.toNat] } (fun w => w.setM d.toNat ((w.s r.toNat).setWidth 32))
def execMtos (sw : BitVec 1) (a : BitVec 3) (r : BitVec 6) (s : State) : Step :=
  s.onWave (.mtos sw a r) { sw := sw, dst := [.s r.toNat] } (fun w => w.setS r.toNat ((w.m a.toNat).setWidth 64))
def execMpopc (sw : BitVec 1) (a : BitVec 3) (r : BitVec 6) (s : State) : Step :=
  s.onWave (.mpopc sw a r) { sw := sw, dst := [.s r.toNat] }
    (fun w => w.setS r.toNat (BitVec.ofNat 64 (popBits (w.m a.toNat) 32)))
def execMffs (sw : BitVec 1) (a : BitVec 3) (r : BitVec 6) (s : State) : Step :=
  s.onWave (.mffs sw a r) { sw := sw, dst := [.s r.toNat] }
    (fun w => w.setS r.toNat (BitVec.ofNat 64 (lowestOne (w.m a.toNat) 0 32)))

/-! ### Cross-lane forms (08 R223-R225) -/

def execVshfl (sw : BitVec 1) (d a : BitVec 8) (k : BitVec 3) (s : State) : Step :=
  s.onWave (.vshfl sw d a k) { sw := sw, src := [.v d.toNat, .v a.toNat], dst := [.v d.toNat] } (fun w =>
    w.laneResult d.toNat (fun l =>
      let j := (w.v d.toNat l).toNat
      (if decide (j < 32) && (w.m k.toNat).getLsbD j then w.v a.toNat j else w.v a.toNat l, flagNone)))

def execVmatch (sw : BitVec 1) (d a : BitVec 8) (s : State) : Step :=
  s.onWave (.vmatch sw d a) (formV sw d a none) (fun w =>
    w.laneResult d.toNat (fun l => (cmpBits (w.m 0) 0#32 (fun j => w.v a.toNat j == w.v a.toNat l) 32, flagNone)))
def execVmatchF (sw : BitVec 1) (d a : BitVec 8) (s : State) : Step :=
  s.onWave (.vmatchF sw d a) (formV sw d a none) (fun w =>
    w.laneResult d.toNat (fun l =>
      (cmpBits (w.m 0) 0#32 (fun j => j == l || fpEq (w.v a.toNat j) (w.v a.toNat l)) 32, flagNone)))

/-- One FP32 addition of a reduction (08 R225). -/
def addStep (x y : Word) : Word × Flags :=
  let (n, f) := Num.add .rne (decodeFloat .fp32 x.toNat) (decodeFloat .fp32 y.toNat)
  let r := roundTo .fp32 .rne false n
  (BitVec.ofNat 32 r.1, f ||| r.2)

/-- An operation without flags as a step of a reduction. -/
def plainStep (f : Word → Word → Word) (x y : Word) : Word × Flags := (f x y, flagNone)

/-- The values of an accumulation after each of the lanes, the first lane's own value first (08 R225). -/
def scanVals (op : Word → Word → Word × Flags) (v : Nat → Word) : List Nat → Word → List (Nat × Word) × Flags
  | [], _ => ([], flagNone)
  | l :: rest, acc =>
    let (a, f) := op acc (v l)
    let (r, g) := scanVals op v rest a
    ((l, a) :: r, f ||| g)

/-- The accumulation over the active lanes in ascending order. -/
def Wave.accumulate (w : Wave) (a : Nat) (op : Word → Word → Word × Flags) : List (Nat × Word) × Flags :=
  match w.activeLanes with
  | [] => ([], flagNone)
  | l :: rest =>
    let (r, f) := scanVals op (w.v a) rest (w.v a l)
    ((l, w.v a l) :: r, f)

/-- VREDUCE: every active lane takes the last value (08 R225). -/
def reduce (d a : BitVec 8) (op : Word → Word → Word × Flags) (w : Wave) : Wave :=
  let (vals, f) := w.accumulate a.toNat op
  let last := match vals.getLast? with
    | some (_, x) => x
    | none => 0#32
  (w.writeLanes d.toNat (w.m 0) Side.none (fun _ => last)).orFlags f

/-- VSCAN: every active lane takes the value at its place (08 R225). -/
def scan (d a : BitVec 8) (op : Word → Word → Word × Flags) (w : Wave) : Wave :=
  let (vals, f) := w.accumulate a.toNat op
  (w.writeLanes d.toNat (w.m 0) Side.none (fun l => (lookupSorted l vals).getD 0#32)).orFlags f

def execVreduceAddF32 (sw : BitVec 1) (d a : BitVec 8) (s : State) : Step :=
  s.onWave (.vreduceAddF32 sw d a) (formV sw d a none) (reduce d a addStep)
def execVreduceAddI32 (sw : BitVec 1) (d a : BitVec 8) (s : State) : Step :=
  s.onWave (.vreduceAddI32 sw d a) (formV sw d a none) (reduce d a (plainStep (· + ·)))
def execVreduceMinF32 (sw : BitVec 1) (d a : BitVec 8) (s : State) : Step :=
  s.onWave (.vreduceMinF32 sw d a) (formV sw d a none) (reduce d a (plainStep fpMin))
def execVreduceMaxF32 (sw : BitVec 1) (d a : BitVec 8) (s : State) : Step :=
  s.onWave (.vreduceMaxF32 sw d a) (formV sw d a none) (reduce d a (plainStep fpMax))
def execVreduceMinI32 (sw : BitVec 1) (d a : BitVec 8) (s : State) : Step :=
  s.onWave (.vreduceMinI32 sw d a) (formV sw d a none) (reduce d a (plainStep minS))
def execVreduceMaxI32 (sw : BitVec 1) (d a : BitVec 8) (s : State) : Step :=
  s.onWave (.vreduceMaxI32 sw d a) (formV sw d a none) (reduce d a (plainStep maxS))
def execVscanAddF32 (sw : BitVec 1) (d a : BitVec 8) (s : State) : Step :=
  s.onWave (.vscanAddF32 sw d a) (formV sw d a none) (scan d a addStep)
def execVscanAddI32 (sw : BitVec 1) (d a : BitVec 8) (s : State) : Step :=
  s.onWave (.vscanAddI32 sw d a) (formV sw d a none) (scan d a (plainStep (· + ·)))

/-! ### Lane moves (08 R226) -/

def execVmovs (sw : BitVec 1) (v : BitVec 8) (a : BitVec 6) (s : State) : Step :=
  s.onWave (.vmovs sw v a) { sw := sw, src := [.s a.toNat], dst := [.v v.toNat] }
    (fun w => w.laneResult v.toNat (fun _ => ((w.s a.toNat).setWidth 32, flagNone)))
def execVrdlane (sw : BitVec 1) (v : BitVec 8) (a b : BitVec 6) (s : State) : Step :=
  s.onWave (.vrdlane sw v a b) { sw := sw, src := [.v v.toNat, .s b.toNat], dst := [.s a.toNat] }
    (fun w => w.setS a.toNat ((w.v v.toNat ((w.s b.toNat).toNat % 32)).setWidth 64))

/-- VWRLANE (08 R206). DESIGN CHOICE (log 78): when lane k is not active, the side-band of the register stays as it is. -/
def execVwrlane (sw : BitVec 1) (v : BitVec 8) (a b : BitVec 6) (s : State) : Step :=
  s.onWave (.vwrlane sw v a b) { sw := sw, src := [.s a.toNat, .s b.toNat], dst := [.v v.toNat] }
    (fun w =>
      let k := (w.s b.toNat).toNat % 32
      if w.active k then w.writeLanes v.toNat (1#32 <<< k) Side.none (fun _ => (w.s a.toNat).setWidth 32) else w)
def execVlaneid (sw : BitVec 1) (v : BitVec 8) (s : State) : Step :=
  s.onWave (.vlaneid sw v) { sw := sw, dst := [.v v.toNat] }
    (fun w => w.laneResult v.toNat (fun l => (BitVec.ofNat 32 l, flagNone)))

end Sys2Proof.Machine
end

