-- ==== Sys2Proof/Machine/Dispatch.lean ====
section
/-! DEFINITION. The dispatch of instructions and events to their meanings. -/

namespace Sys2Proof.Machine

def exec (i : Instr) (s : State) : Host.Outcome State Fault Refusal :=
  match i with
  | .vaddI32 sw d a b => Sys2Proof.Machine.execVaddI32 sw d a b s
  | .vsubI32 sw d a b => Sys2Proof.Machine.execVsubI32 sw d a b s
  | .vmulI32 sw d a b => Sys2Proof.Machine.execVmulI32 sw d a b s
  | .vmulhI32 sw d a b => Sys2Proof.Machine.execVmulhI32 sw d a b s
  | .vmulhuI32 sw d a b => Sys2Proof.Machine.execVmulhuI32 sw d a b s
  | .vminI32 sw d a b => Sys2Proof.Machine.execVminI32 sw d a b s
  | .vmaxI32 sw d a b => Sys2Proof.Machine.execVmaxI32 sw d a b s
  | .vminuI32 sw d a b => Sys2Proof.Machine.execVminuI32 sw d a b s
  | .vmaxuI32 sw d a b => Sys2Proof.Machine.execVmaxuI32 sw d a b s
  | .vand sw d a b => Sys2Proof.Machine.execVand sw d a b s
  | .vor sw d a b => Sys2Proof.Machine.execVor sw d a b s
  | .vxor sw d a b => Sys2Proof.Machine.execVxor sw d a b s
  | .vshl sw d a b => Sys2Proof.Machine.execVshl sw d a b s
  | .vshr sw d a b => Sys2Proof.Machine.execVshr sw d a b s
  | .vsar sw d a b => Sys2Proof.Machine.execVsar sw d a b s
  | .vmov sw d a => Sys2Proof.Machine.execVmov sw d a s
  | .vpopc sw d a => Sys2Proof.Machine.execVpopc sw d a s
  | .vclz sw d a => Sys2Proof.Machine.execVclz sw d a s
  | .vsel sw d a b => Sys2Proof.Machine.execVsel sw d a b s
  | .vaddF32 sw d a b => Sys2Proof.Machine.execVaddF32 sw d a b s
  | .vsubF32 sw d a b => Sys2Proof.Machine.execVsubF32 sw d a b s
  | .vmulF32 sw d a b => Sys2Proof.Machine.execVmulF32 sw d a b s
  | .vfmaF32 sw d a b => Sys2Proof.Machine.execVfmaF32 sw d a b s
  | .vminF32 sw d a b => Sys2Proof.Machine.execVminF32 sw d a b s
  | .vmaxF32 sw d a b => Sys2Proof.Machine.execVmaxF32 sw d a b s
  | .vabsF32 sw d a => Sys2Proof.Machine.execVabsF32 sw d a s
  | .vnegF32 sw d a => Sys2Proof.Machine.execVnegF32 sw d a s
  | .vaddBf16x2 sw d a b => Sys2Proof.Machine.execVaddBf16x2 sw d a b s
  | .vmulBf16x2 sw d a b => Sys2Proof.Machine.execVmulBf16x2 sw d a b s
  | .vfmaBf16x2 sw d a b => Sys2Proof.Machine.execVfmaBf16x2 sw d a b s
  | .vaddFp16x2 sw d a b => Sys2Proof.Machine.execVaddFp16x2 sw d a b s
  | .vmulFp16x2 sw d a b => Sys2Proof.Machine.execVmulFp16x2 sw d a b s
  | .vfmaFp16x2 sw d a b => Sys2Proof.Machine.execVfmaFp16x2 sw d a b s
  | .vaddE4m3x4 sw d a b => Sys2Proof.Machine.execVaddE4m3x4 sw d a b s
  | .vmulE4m3x4 sw d a b => Sys2Proof.Machine.execVmulE4m3x4 sw d a b s
  | .vaddInt8x4 sw d a b => Sys2Proof.Machine.execVaddInt8x4 sw d a b s
  | .vsubInt8x4 sw d a b => Sys2Proof.Machine.execVsubInt8x4 sw d a b s
  | .vaddUint8x4 sw d a b => Sys2Proof.Machine.execVaddUint8x4 sw d a b s
  | .vsubUint8x4 sw d a b => Sys2Proof.Machine.execVsubUint8x4 sw d a b s
  | .vdot2Bf16 sw d a b => Sys2Proof.Machine.execVdot2Bf16 sw d a b s
  | .vdot2Fp16 sw d a b => Sys2Proof.Machine.execVdot2Fp16 sw d a b s
  | .vdot4E4m3 sw d a b => Sys2Proof.Machine.execVdot4E4m3 sw d a b s
  | .vdot4Int8 sw d a b => Sys2Proof.Machine.execVdot4Int8 sw d a b s
  | .vcvt sw d a f g => Sys2Proof.Machine.execVcvt sw d a f g s
  | .vcvtpk sw d a f g => Sys2Proof.Machine.execVcvtpk sw d a f g s
  | .vcvtxp sw d a f g => Sys2Proof.Machine.execVcvtxp sw d a f g s
  | .vqblk sw d a f => Sys2Proof.Machine.execVqblk sw d a f s
  | .vdqblk sw d a f => Sys2Proof.Machine.execVdqblk sw d a f s
  | .vrcp sw d a => Sys2Proof.Machine.execVrcp sw d a s
  | .vrsq sw d a => Sys2Proof.Machine.execVrsq sw d a s
  | .vsqrt sw d a => Sys2Proof.Machine.execVsqrt sw d a s
  | .vexp2 sw d a => Sys2Proof.Machine.execVexp2 sw d a s
  | .vlog2 sw d a => Sys2Proof.Machine.execVlog2 sw d a s
  | .vsinpi sw d a => Sys2Proof.Machine.execVsinpi sw d a s
  | .vcospi sw d a => Sys2Proof.Machine.execVcospi sw d a s
  | .add sw d a b => Sys2Proof.Machine.execAdd sw d a b s
  | .sub sw d a b => Sys2Proof.Machine.execSub sw d a b s
  | .mul sw d a b => Sys2Proof.Machine.execMul sw d a b s
  | .mulh sw d a b => Sys2Proof.Machine.execMulh sw d a b s
  | .mulhu sw d a b => Sys2Proof.Machine.execMulhu sw d a b s
  | .and sw d a b => Sys2Proof.Machine.execAnd sw d a b s
  | .or sw d a b => Sys2Proof.Machine.execOr sw d a b s
  | .xor sw d a b => Sys2Proof.Machine.execXor sw d a b s
  | .andn sw d a b => Sys2Proof.Machine.execAndn sw d a b s
  | .shl sw d a b => Sys2Proof.Machine.execShl sw d a b s
  | .shr sw d a b => Sys2Proof.Machine.execShr sw d a b s
  | .sar sw d a b => Sys2Proof.Machine.execSar sw d a b s
  | .shli sw d a n => Sys2Proof.Machine.execShli sw d a n s
  | .shri sw d a n => Sys2Proof.Machine.execShri sw d a n s
  | .sari sw d a n => Sys2Proof.Machine.execSari sw d a n s
  | .slt sw d a b => Sys2Proof.Machine.execSlt sw d a b s
  | .sltu sw d a b => Sys2Proof.Machine.execSltu sw d a b s
  | .min sw d a b => Sys2Proof.Machine.execMin sw d a b s
  | .max sw d a b => Sys2Proof.Machine.execMax sw d a b s
  | .minu sw d a b => Sys2Proof.Machine.execMinu sw d a b s
  | .maxu sw d a b => Sys2Proof.Machine.execMaxu sw d a b s
  | .popc sw d a => Sys2Proof.Machine.execPopc sw d a s
  | .clz sw d a => Sys2Proof.Machine.execClz sw d a s
  | .ctz sw d a => Sys2Proof.Machine.execCtz sw d a s
  | .addi sw x a imm => Sys2Proof.Machine.execAddi sw x a imm s
  | .andi sw x a imm => Sys2Proof.Machine.execAndi sw x a imm s
  | .ori sw x a imm => Sys2Proof.Machine.execOri sw x a imm s
  | .xori sw x a imm => Sys2Proof.Machine.execXori sw x a imm s
  | .slti sw x a imm => Sys2Proof.Machine.execSlti sw x a imm s
  | .sltiu sw x a imm => Sys2Proof.Machine.execSltiu sw x a imm s
  | .grd sw d g => Sys2Proof.Machine.execGrd sw d g s
  | .gwr sw a g => Sys2Proof.Machine.execGwr sw a g s
  | .gadd sw d a g => Sys2Proof.Machine.execGadd sw d a g s
  | .bez sw a o => Sys2Proof.Machine.execBez sw a o s
  | .bnez sw a o => Sys2Proof.Machine.execBnez sw a o s
  | .bra sw o => Sys2Proof.Machine.execBra sw o s
  | .bany sw k o => Sys2Proof.Machine.execBany sw k o s
  | .ball sw k o => Sys2Proof.Machine.execBall sw k o s
  | .bnone sw k o => Sys2Proof.Machine.execBnone sw k o s
  | .call sw o => Sys2Proof.Machine.execCall sw o s
  | .jmpr sw x imm => Sys2Proof.Machine.execJmpr sw x imm s
  | .callr sw x imm => Sys2Proof.Machine.execCallr sw x imm s
  | .ret sw => Sys2Proof.Machine.execRet sw s
  | .endWave sw => Sys2Proof.Machine.execEndWave sw s
  | .yield sw => Sys2Proof.Machine.execYield sw s
  | .trap sw imm => Sys2Proof.Machine.execTrap sw imm s
  | .tret sw => Sys2Proof.Machine.execTret sw s
  | .srd sw x imm => Sys2Proof.Machine.execSrd sw x imm s
  | .swr sw x imm => Sys2Proof.Machine.execSwr sw x imm s
  | .fenceI sw => Sys2Proof.Machine.execFenceI sw s
  | .sld sw x a imm => Sys2Proof.Machine.execSld sw x a imm s
  | .sst sw x a imm => Sys2Proof.Machine.execSst sw x a imm s
  | .vldI8 sw v o b => Sys2Proof.Machine.execVldI8 sw v o b s
  | .vldZ8 sw v o b => Sys2Proof.Machine.execVldZ8 sw v o b s
  | .vldI16 sw v o b => Sys2Proof.Machine.execVldI16 sw v o b s
  | .vldZ16 sw v o b => Sys2Proof.Machine.execVldZ16 sw v o b s
  | .vld32 sw v o b => Sys2Proof.Machine.execVld32 sw v o b s
  | .vst8 sw v o b => Sys2Proof.Machine.execVst8 sw v o b s
  | .vst16 sw v o b => Sys2Proof.Machine.execVst16 sw v o b s
  | .vst32 sw v o b => Sys2Proof.Machine.execVst32 sw v o b s
  | .vldl sw x a => Sys2Proof.Machine.execVldl sw x a s
  | .vstl sw x a => Sys2Proof.Machine.execVstl sw x a s
  | .vldb sw x a => Sys2Proof.Machine.execVldb sw x a s
  | .vstb sw x a => Sys2Proof.Machine.execVstb sw x a s
  | .vstc sw x a b => Sys2Proof.Machine.execVstc sw x a b s
  | .phase sw c => Sys2Proof.Machine.execPhase sw c s
  | .barInit sw a b => Sys2Proof.Machine.execBarInit sw a b s
  | .barArrive sw a => Sys2Proof.Machine.execBarArrive sw a s
  | .barWait sw a b => Sys2Proof.Machine.execBarWait sw a b s
  | .wsq sw x a => Sys2Proof.Machine.execWsq sw x a s
  | .aadd sw o c v w x a => Sys2Proof.Machine.execAadd sw o c v w x a s
  | .aaddF32 sw o c v x a => Sys2Proof.Machine.execAaddF32 sw o c v x a s
  | .aand sw o c v w x a => Sys2Proof.Machine.execAand sw o c v w x a s
  | .aor sw o c v w x a => Sys2Proof.Machine.execAor sw o c v w x a s
  | .axor sw o c v w x a => Sys2Proof.Machine.execAxor sw o c v w x a s
  | .amin sw o c v w x a => Sys2Proof.Machine.execAmin sw o c v w x a s
  | .amax sw o c v w x a => Sys2Proof.Machine.execAmax sw o c v w x a s
  | .aminu sw o c v w x a => Sys2Proof.Machine.execAminu sw o c v w x a s
  | .amaxu sw o c v w x a => Sys2Proof.Machine.execAmaxu sw o c v w x a s
  | .axchg sw o c v w x a => Sys2Proof.Machine.execAxchg sw o c v w x a s
  | .acas sw o c v w x a => Sys2Proof.Machine.execAcas sw o c v w x a s
  | .vcmpEqI32 sw m a b => Sys2Proof.Machine.execVcmpEqI32 sw m a b s
  | .vcmpNeI32 sw m a b => Sys2Proof.Machine.execVcmpNeI32 sw m a b s
  | .vcmpLtI32 sw m a b => Sys2Proof.Machine.execVcmpLtI32 sw m a b s
  | .vcmpLeI32 sw m a b => Sys2Proof.Machine.execVcmpLeI32 sw m a b s
  | .vcmpLtuI32 sw m a b => Sys2Proof.Machine.execVcmpLtuI32 sw m a b s
  | .vcmpLeuI32 sw m a b => Sys2Proof.Machine.execVcmpLeuI32 sw m a b s
  | .vcmpEqF32 sw m a b => Sys2Proof.Machine.execVcmpEqF32 sw m a b s
  | .vcmpNeF32 sw m a b => Sys2Proof.Machine.execVcmpNeF32 sw m a b s
  | .vcmpLtF32 sw m a b => Sys2Proof.Machine.execVcmpLtF32 sw m a b s
  | .vcmpLeF32 sw m a b => Sys2Proof.Machine.execVcmpLeF32 sw m a b s
  | .vcmpUnF32 sw m a b => Sys2Proof.Machine.execVcmpUnF32 sw m a b s
  | .mand sw d a b => Sys2Proof.Machine.execMand sw d a b s
  | .mor sw d a b => Sys2Proof.Machine.execMor sw d a b s
  | .mxor sw d a b => Sys2Proof.Machine.execMxor sw d a b s
  | .mandn sw d a b => Sys2Proof.Machine.execMandn sw d a b s
  | .mnot sw d a => Sys2Proof.Machine.execMnot sw d a s
  | .mfroms sw d r => Sys2Proof.Machine.execMfroms sw d r s
  | .mtos sw a r => Sys2Proof.Machine.execMtos sw a r s
  | .mpopc sw a r => Sys2Proof.Machine.execMpopc sw a r s
  | .mffs sw a r => Sys2Proof.Machine.execMffs sw a r s
  | .vshfl sw d a k => Sys2Proof.Machine.execVshfl sw d a k s
  | .vmatch sw d a => Sys2Proof.Machine.execVmatch sw d a s
  | .vmatchF sw d a => Sys2Proof.Machine.execVmatchF sw d a s
  | .vreduceAddF32 sw d a => Sys2Proof.Machine.execVreduceAddF32 sw d a s
  | .vreduceAddI32 sw d a => Sys2Proof.Machine.execVreduceAddI32 sw d a s
  | .vreduceMinF32 sw d a => Sys2Proof.Machine.execVreduceMinF32 sw d a s
  | .vreduceMaxF32 sw d a => Sys2Proof.Machine.execVreduceMaxF32 sw d a s
  | .vreduceMinI32 sw d a => Sys2Proof.Machine.execVreduceMinI32 sw d a s
  | .vreduceMaxI32 sw d a => Sys2Proof.Machine.execVreduceMaxI32 sw d a s
  | .vscanAddF32 sw d a => Sys2Proof.Machine.execVscanAddF32 sw d a s
  | .vscanAddI32 sw d a => Sys2Proof.Machine.execVscanAddI32 sw d a s
  | .vmovs sw v a => Sys2Proof.Machine.execVmovs sw v a s
  | .vrdlane sw v a b => Sys2Proof.Machine.execVrdlane sw v a b s
  | .vwrlane sw v a b => Sys2Proof.Machine.execVwrlane sw v a b s
  | .vlaneid sw v => Sys2Proof.Machine.execVlaneid sw v s
  | .mma sw p q c z a => Sys2Proof.Machine.execMma sw p q c z a s
  | .accz sw c => Sys2Proof.Machine.execAccz sw c s
  | .accld sw c a b => Sys2Proof.Machine.execAccld sw c a b s
  | .accst sw c a b => Sys2Proof.Machine.execAccst sw c a b s
  | .acccvt sw c a b f => Sys2Proof.Machine.execAcccvt sw c a b f s
  | .mwait sw c => Sys2Proof.Machine.execMwait sw c s
  | .copyk sw a => Sys2Proof.Machine.execCopyk sw a s
  | .cpq sw d a => Sys2Proof.Machine.execCpq sw d a s
  | .publ sw n => Sys2Proof.Machine.execPubl sw n s
  | .hvxor sw d a b => Sys2Proof.Machine.execHvxor sw d a b s
  | .hvnot sw d a => Sys2Proof.Machine.execHvnot sw d a s
  | .hvmov sw d a => Sys2Proof.Machine.execHvmov sw d a s
  | .hvbund sw a k => Sys2Proof.Machine.execHvbund sw a k s
  | .hvbsub sw a k => Sys2Proof.Machine.execHvbsub sw a k s
  | .hvmaj sw d k => Sys2Proof.Machine.execHvmaj sw d k s
  | .hvbclr sw k => Sys2Proof.Machine.execHvbclr sw k s
  | .hvgen sw d => Sys2Proof.Machine.execHvgen sw d s
  | .hvrot sw a b y => Sys2Proof.Machine.execHvrot sw a b y s
  | .hvdist sw a b x => Sys2Proof.Machine.execHvdist sw a b x s
  | .hvseed sw y => Sys2Proof.Machine.execHvseed sw y s
  | .hvrdtie sw x => Sys2Proof.Machine.execHvrdtie sw x s
  | .hvld sw a y => Sys2Proof.Machine.execHvld sw a y s
  | .hvst sw a y => Sys2Proof.Machine.execHvst sw a y s
  | .hvnear sw a x y => Sys2Proof.Machine.execHvnear sw a x y s
  | .hvbit sw a x y => Sys2Proof.Machine.execHvbit sw a x y s
  | .enq sw d a b => Sys2Proof.Machine.execEnq sw d a b s
  | .sgfork sw d a b => Sys2Proof.Machine.execSgfork sw d a b s
  | .sgreward sw d a => Sys2Proof.Machine.execSgreward sw d a s
  | .sgwait sw d => Sys2Proof.Machine.execSgwait sw d s
  | .sgcancel sw a => Sys2Proof.Machine.execSgcancel sw a s
  | .sgquery sw d a => Sys2Proof.Machine.execSgquery sw d a s
  | .srdp sw x imm => Sys2Proof.Machine.execSrdp sw x imm s
  | .swrp sw x imm => Sys2Proof.Machine.execSwrp sw x imm s
  | .icinv sw => Sys2Proof.Machine.execIcinv sw s
  | .tlbinv sw x => Sys2Proof.Machine.execTlbinv sw x s
  | .wkill sw x => Sys2Proof.Machine.execWkill sw x s
  | .wresume sw x => Sys2Proof.Machine.execWresume sw x s
  | .acrd sw x d c => Sys2Proof.Machine.execAcrd sw x d c s
  | .halt sw => Sys2Proof.Machine.execHalt sw s
  | .hintImm p => Sys2Proof.Machine.execHintImm p s
  | .hintMod v m t z e w c => Sys2Proof.Machine.execHintMod v m t z e w c s
  | .ipref sw n o => Sys2Proof.Machine.execIpref sw n o s
  | .hintSched sw n => Sys2Proof.Machine.execHintSched sw n s
  | .hintSchedDelayEnd w => Sys2Proof.Machine.execHintSchedDelayEnd w s
  | .resultWrite w k units => Sys2Proof.Machine.execResultWrite w k units s
  | .atomicPerform w lane => Sys2Proof.Machine.execAtomicPerform w lane s
  | .llcFill pa => Sys2Proof.Machine.execLlcFill pa s
  | .llcWriteBack pa => Sys2Proof.Machine.execLlcWriteBack pa s
  | .pageWalk core c va => Sys2Proof.Machine.execPageWalk core c va s
  | .wsRefreshWindowEnd q => Sys2Proof.Machine.execWsRefreshWindowEnd q s
  | .regionBaseWrite q r v => Sys2Proof.Machine.execRegionBaseWrite q r v s
  | .regionLimitWrite q r v => Sys2Proof.Machine.execRegionLimitWrite q r v s
  | .regionScaleWrite q r v => Sys2Proof.Machine.execRegionScaleWrite q r v s
  | .regionCtlWrite q r v => Sys2Proof.Machine.execRegionCtlWrite q r v s
  | .regionChangeApply q r => Sys2Proof.Machine.execRegionChangeApply q r s
  | .registerWrite off v => Sys2Proof.Machine.execRegisterWrite off v s
  | .qwptrDoorbell slot v => Sys2Proof.Machine.execQwptrDoorbell slot v s
  | .pad c r => Sys2Proof.Machine.execPad c r s
  | .kernel c r => Sys2Proof.Machine.execKernel c r s
  | .graph c r => Sys2Proof.Machine.execGraph c r s
  | .copy c r core => Sys2Proof.Machine.execCopy c r core s
  | .waitValue c r => Sys2Proof.Machine.execWaitValue c r s
  | .waitValueReread c r => Sys2Proof.Machine.execWaitValueReread c r s
  | .signal c r => Sys2Proof.Machine.execSignal c r s
  | .signalAdd c r => Sys2Proof.Machine.execSignalAdd c r s
  | .publish c r => Sys2Proof.Machine.execPublish c r s
  | .checkpointClose c r => Sys2Proof.Machine.execCheckpointClose c r s
  | .checkpointStopSave c r => Sys2Proof.Machine.execCheckpointStopSave c r s
  | .launchComplete l => Sys2Proof.Machine.execLaunchComplete l s
  | .binTimerExpiry c b => Sys2Proof.Machine.execBinTimerExpiry c b s
  | .groupPlace => Sys2Proof.Machine.execGroupPlace s
  | .groupStart g => Sys2Proof.Machine.execGroupStart g s
  | .groupPark g => Sys2Proof.Machine.execGroupPark g s
  | .sgwaitSpinExpiry w => Sys2Proof.Machine.execSgwaitSpinExpiry w s
  | .sgoTimeout c o => Sys2Proof.Machine.execSgoTimeout c o s
  | .trapEntry w => Sys2Proof.Machine.execTrapEntry w s
  | .boundaryTrap w => Sys2Proof.Machine.execBoundaryTrap w s
  | .waveKill w => Sys2Proof.Machine.execWaveKill w s
  | .waveStop w k => Sys2Proof.Machine.execWaveStop w k s
  | .copyRequestStart core => Sys2Proof.Machine.execCopyRequestStart core s
  | .copyPieceLand q n => Sys2Proof.Machine.execCopyPieceLand q n s
  | .copyRequestFail q => Sys2Proof.Machine.execCopyRequestFail q s
  | .copyRequestCancel q => Sys2Proof.Machine.execCopyRequestCancel q s
  | .followOnIssue q => Sys2Proof.Machine.execFollowOnIssue q s
  | .publishStep c n => Sys2Proof.Machine.execPublishStep c n s
  | .arrayPass core a => Sys2Proof.Machine.execArrayPass core a s
  | .acczRun core a => Sys2Proof.Machine.execAcczRun core a s
  | .accldRun core a => Sys2Proof.Machine.execAccldRun core a s
  | .barWaitComplete w => Sys2Proof.Machine.execBarWaitComplete w s
  | .intervalClose c => Sys2Proof.Machine.execIntervalClose c s
  | .cutCapture c => Sys2Proof.Machine.execCutCapture c s
  | .ckptintvExpiry c => Sys2Proof.Machine.execCkptintvExpiry c s
  | .agStreamItem c k => Sys2Proof.Machine.execAgStreamItem c k s
  | .agCommit c => Sys2Proof.Machine.execAgCommit c s
  | .agPendUpdate c => Sys2Proof.Machine.execAgPendUpdate c s
  | .eccCorrectable u => Sys2Proof.Machine.execEccCorrectable u s
  | .eccUncorrectable u => Sys2Proof.Machine.execEccUncorrectable u s
  | .logicError u => Sys2Proof.Machine.execLogicError u s
  | .linkFlitRetry link => Sys2Proof.Machine.execLinkFlitRetry link s
  | .selfTestVerdict k ok => Sys2Proof.Machine.execSelfTestVerdict k ok s
  | .hostHdmAccess op => Sys2Proof.Machine.execHostHdmAccess op s
  | .peerRequest p op => Sys2Proof.Machine.execPeerRequest p op s
  | .peerLinkDown p => Sys2Proof.Machine.execPeerLinkDown p s
  | .ckptPortDown p => Sys2Proof.Machine.execCkptPortDown p s
  | .powerThrottleWindow mw => Sys2Proof.Machine.execPowerThrottleWindow mw s
  | .thermalThrottle on => Sys2Proof.Machine.execThermalThrottle on s
  | .thermtrip => Sys2Proof.Machine.execThermtrip s
  | .deviceReset fails => Sys2Proof.Machine.execDeviceReset fails s
  | .ctxCreate => Sys2Proof.Machine.execCtxCreate s
  | .ctxDestroy => Sys2Proof.Machine.execCtxDestroy s
  | .ctxRead => Sys2Proof.Machine.execCtxRead s
  | .ctxWrite => Sys2Proof.Machine.execCtxWrite s
  | .ctxStopClose => Sys2Proof.Machine.execCtxStopClose s
  | .ctxStopSave => Sys2Proof.Machine.execCtxStopSave s
  | .ctxResume => Sys2Proof.Machine.execCtxResume s
  | .ctxKill => Sys2Proof.Machine.execCtxKill s
  | .ctxInval => Sys2Proof.Machine.execCtxInval s
  | .ringCreate => Sys2Proof.Machine.execRingCreate s
  | .ringDestroy => Sys2Proof.Machine.execRingDestroy s
  | .objLoad => Sys2Proof.Machine.execObjLoad s
  | .objUnload => Sys2Proof.Machine.execObjUnload s
  | .graphSet => Sys2Proof.Machine.execGraphSet s
  | .binSet => Sys2Proof.Machine.execBinSet s
  | .pbSet => Sys2Proof.Machine.execPbSet s
  | .domSet => Sys2Proof.Machine.execDomSet s
  | .domGet => Sys2Proof.Machine.execDomGet s
  | .snapshot => Sys2Proof.Machine.execSnapshot s
  | .powerRead => Sys2Proof.Machine.execPowerRead s
  | .powerWrite => Sys2Proof.Machine.execPowerWrite s
  | .lifeGet => Sys2Proof.Machine.execLifeGet s
  | .peerSet => Sys2Proof.Machine.execPeerSet s
  | .imagePush => Sys2Proof.Machine.execImagePush s
  | .serviceCompletion k => Sys2Proof.Machine.execServiceCompletion k s
  | .getVersion => Sys2Proof.Machine.execGetVersion s
  | .getCapabilities => Sys2Proof.Machine.execGetCapabilities s
  | .negotiateAlgorithms => Sys2Proof.Machine.execNegotiateAlgorithms s
  | .getDigests => Sys2Proof.Machine.execGetDigests s
  | .getCertificate => Sys2Proof.Machine.execGetCertificate s
  | .challenge nonce => Sys2Proof.Machine.execChallenge nonce s
  | .getMeasurements nonce => Sys2Proof.Machine.execGetMeasurements nonce s
  | .vendorDefinedRequest dom nonce => Sys2Proof.Machine.execVendorDefinedRequest dom nonce s
  | .storeEntersCoherenceOrder w k => Sys2Proof.Machine.execStoreEntersCoherenceOrder w k s
  | .instructionFetch w => Sys2Proof.Machine.execInstructionFetch w s
  | .instructionCacheFill core c va => Sys2Proof.Machine.execInstructionCacheFill core c va s
  | .badservice => Sys2Proof.Machine.execBadservice s
  | .checkpointPortUp p => Sys2Proof.Machine.execCheckpointPortUp p s
  | .peerLinkRetrain p => Sys2Proof.Machine.execPeerLinkRetrain p s
  | .poweredOnHour => Sys2Proof.Machine.execPoweredOnHour s

end Sys2Proof.Machine
end

