-- ==== Sys2Proof/Machine/Turns.lean ====
section
/-! DEFINITION. What one step does: the turn of a wave, of an event, or of the device's own choice, the clocks that pass, and
the accounting of what the turn moved (07 R191, R203; 12 R294, R299; 19 R417, R421; log 1, log 4). -/

namespace Sys2Proof.Machine

/-! ### What waits for a turn -/

/-- Changes of region registers that wait for their lines are applied before any access of a turn (02 R56). -/
def State.settleChanges (s : State) : State := s.changes.foldl State.applyChange s

/-! ### The end of a step -/

/-- At the end of a step the pending pool lines that it has written have been streamed first (14 R349), and a context that has met lost
data rolls back (14 R362, R363), each for the domain of its context (19 R417) and with no wait for a self-test (log 86); after
THERMTRIP, issue halts once every context is saved or FAULTED (19 R420). -/
def State.settle (s : State) : State :=
  let t := (List.range s.ctxs.length).foldl (fun t c => t.charging c (fun u => (u.hasten c).settleRollback c)) s
  { t.settleThermal with stall := false }

/-- A step's end. A turn that has come to an access which waits for a self-test is put off, with none of its effect (14 R361; log 86). -/
def settleAfter (s : State) (c : Option Nat) (o : Step) : Step :=
  match o with
  | .next t => if t.stall then .next s else .next (t.accountFrom s.totals c).settle
  | x => x

/-! ### The turn of a wave (07 R191; 12 R294) -/

/-- The wave is the one that runs; its word leaves its buffer, and its issue slot is counted. -/
def State.atWord (s : State) (wid : Nat) (w : Wave) : State :=
  (({ s with cur := wid }.modWave wid (fun x => { x with fetched := none })).account (s.domainOf w.ctx) cntIssue 1).workDone
    (.core w.core) (some wid)

/-- A word that finds no entry of its queue has not issued: it stays fetched, and the wave waits (03 R80; 10 R258; 12 R294). -/
def State.ifIssued (s : State) (wid : Nat) (v : Word) (o : Step) : Step :=
  match o with
  | .next t => match (t.waves[wid]?).map (fun (x : Wave) => x.st) with
    | some (.wait (.entry a)) => .next (s.modWave wid (fun x => { x with fetched := some (x.pc, v), st := .wait (.entry a) }))
    | _ => o
  | _ => o

/-- A word that was fetched is decoded and runs; the zero word and a word that is no instruction trap (06 R170). -/
def State.runWord (s : State) (wid : Nat) (w : Wave) (v : Word) : Step :=
  let s1 := s.atWord wid w
  if v = 0#32 then .next (s1.takeTrap wid (trapAt causeZeroWord w.trapPoint) false)
  else match decode v with
    | none => .next (s1.takeTrap wid (trapAt causeIllegal (v.setWidth 64)) false)
    | some i => s.ifIssued wid v (exec i s1)

/-- A wave that may issue fetches its next word and runs it. -/
def State.issueTurn (s : State) (wid : Nat) (w : Wave) : Step :=
  match s.fetch w with
  | .trap t => .next ((s.failedLooks wid t).takeTrap wid t false)
  | .poisoned code => .next (s.meetPoison wid w.pc code)
  | .word v s1 => s1.runWord wid w v

/-- A wave that may not issue looks at what it waits for; a trap that is due at its boundary comes first (14 R340). -/
def State.lookTurn (s : State) (wid : Nat) (w : Wave) : Step :=
  if w.stopped then .next s
  else if w.dueNow && w.atBoundary && w.held.isNone then execBoundaryTrap wid s
  else match w.st with
    | .ready => if w.held.isSome then execTrapEntry wid s else execHintSchedDelayEnd wid s
    | .wait (.entry a) => .next (if s.hasEntry w.core a && s.groupRuns w then s.setSt wid .ready else s)
    | .wait (.release _ _) => .next (s.settleRelease wid)
    | .wait (.acquire _ _) => .next (s.settleAcquire wid)
    | .wait (.mwait _ cmds) => .next (if s.mwaitDone cmds && s.groupRuns w then s.proceed wid else s)
    | .wait (.hvnear _ _ _ _ _) => .next (if s.groupRuns w then s.mirrorStep wid else s)
    | .wait (.sgspin _ _) => .next (if s.groupRuns w then s.sgWaitPoll wid else s)
    | .wait .ending => .next (if s.waveDone wid then (s.retireWave wid).settleFaulted w.group else s)
    | .wait (.wkill k) => .next (match s.waves[k]? with
      | some x => if x.st = .retired then s.proceed wid else s
      | none => s.proceed wid)
    | .wait (.tlbinv sel) => .next (if s.accessesDone (s.tagged sel) then s.proceed wid else s)
    | .wait (.publ _ _) => .next s
    | .blocked _ _ => execBarWaitComplete wid s
    | .unstarted => .next s
    | .halted => .next s
    | .retired => .next s

/-- The turn of a wave. -/
def State.waveTurn (s : State) (wid : Nat) : Step :=
  match s.waves[wid]? with
  | none => .next s
  | some w => if s.mayIssue w then s.issueTurn wid w else s.lookTurn wid w

/-! ### The device's own choice (12 R293, R299; log 1) -/

/-- The partition of a wave, numbered over the device. -/
def Wave.part (w : Wave) : Nat := 8 * w.core + w.slot / 16

/-- Does the word of a wave that may issue find no entry of its queue? -/
def State.stalls (s : State) (wid : Nat) (w : Wave) : Bool :=
  match s.issueTurn wid w with
  | .next t => match (t.waves[wid]?).map (fun (x : Wave) => x.st) with
    | some (.wait (.entry _)) => true
    | _ => false
  | _ => false

/-- The waves that may issue, by number. -/
def State.issuable (s : State) : List (Nat × Wave) :=
  (s.waves.mapIdx (fun k w => (k, w))).filter (fun y => s.mayIssue y.2)

/-- The oldest of some waves. -/
def oldest : List (Nat × Wave) → Option (Nat × Wave)
  | [] => none
  | y :: rest => match oldest rest with
    | none => some y
    | some z => some (if z.2.age < y.2.age then z else y)

/-- `first` of a partition's candidates (12 R299), and whether it continues a group of words. -/
def firstOf (l : List (Nat × Wave)) : Option (Nat × Bool) :=
  match l.find? (fun y => y.2.pfx.isSome) with
  | some y => some (y.1, true)
  | none => match oldest (l.filter (fun y => decide (48 ≤ y.2.pass))) with
    | some y => some (y.1, false)
    | none => (oldest l).map (fun y => (y.1, false))

/-- The next wave to issue: of the first partition after the last one served that has a candidate. -/
def State.chooseWave (s : State) : Option (Nat × State) :=
  let l := s.issuable
  match circleFrom 1280 s.lastPart (fun p => l.any (fun y => y.2.part == p)) with
  | none => none
  | some p =>
    let here := l.filter (fun y => y.2.part == p)
    match firstOf here with
    | none => none
    | some (w, inside) =>
      let s1 := { s with lastPart := p }
      if inside then some (w, s1)
      else some (w, here.foldl (fun t y => t.modWave y.1 (fun x => { x with pass := if y.1 = w then 0 else x.pass + 1 })) s1)

/-- An attempt: what would act, and the context it acts for. -/
abbrev Attempt := Option Nat × (State → Step)

/-- Attempts for a wave that is not retired. -/
def Wave.attempts (w : Wave) (k : Nat) : List Attempt :=
  if w.st = .retired ∨ w.st = .unstarted && !w.killed then []
  else
    let for_ (f : State → Step) : Attempt := (some w.ctx, f)
    [for_ (execWaveKill k), for_ (execWaveStop k 0), for_ (execSgwaitSpinExpiry k)] ++
    (if w.outs.isEmpty then [] else [for_ (execResultWrite k 0 allUnits)]) ++
    (match w.atoms with
    | [] => []
    | a :: _ => (a.todo.take 1).map (fun x => for_ (execAtomicPerform k x.lane))) ++
    (List.range w.pend.length).map (fun j => for_ (execStoreEntersCoherenceOrder k j)) ++
    (if w.st = .ready && w.held.isNone && !w.dueNow && w.delayUntil.isNone then []
     else [for_ (fun s => match s.waves[k]? with
       | some x => s.lookTurn k x
       | none => .next s)])

/-- Attempts of the copy engines and the arrays. -/
def State.engineAttempts (s : State) : List Attempt :=
  (s.copies.mapIdx (fun k q => (k, q))).flatMap (fun y =>
    if y.2.st.ended then []
    else
      let for_ (f : State → Step) : Attempt := (some y.2.ctx, f)
      [for_ (execCopyRequestCancel y.1), for_ (execCopyRequestStart y.2.core), for_ (execCopyRequestFail y.1),
        for_ (execCopyPieceLand y.1 8192), for_ (execFollowOnIssue y.1)]) ++
  (s.cmds.filter (fun c => c.st != .done)).flatMap (fun c =>
    let for_ (f : State → Step) : Attempt := (some c.ctx, f)
    [for_ (execArrayPass c.core c.arr), for_ (execAcczRun c.core c.arr), for_ (execAccldRun c.core c.arr)])

/-- Attempts of Afterglow and the front end for a context; bins whose timers have run out fire in ascending number (13 R310). -/
def Ctx.attempts (x : Ctx) (c : Nat) : List Attempt :=
  if x.destroyed then []
  else
    let for_ (f : State → Step) : Attempt := (some c, f)
    [for_ (execIntervalClose c), for_ (execCutCapture c), for_ (execAgStreamItem c 0), for_ (execAgCommit c),
      for_ (execCkptintvExpiry c)] ++
    (sortBy (fun a b => decide (a < b)) ((x.bins.filter (fun b => !b.2.slots.isEmpty)).map (·.1))).map (fun b =>
      for_ (execBinTimerExpiry c b)) ++
    (x.sgos.filter (·.live)).map (fun o => for_ (execSgoTimeout c o.num)) ++
    [for_ (fun s => if x.agSeen + 4095 ≤ s.feClock then execAgPendUpdate c s else .next s)] ++
    (List.range 256).map (fun n => for_ (execPublishStep c n))

/-- The event that looks at the next packet of a ring. -/
def packetAttempt (c r type : Nat) (q : List DWord) (core : Nat) : State → Step :=
  match type with
  | 0 => execPad c r
  | 1 => execKernel c r
  | 2 => execGraph c r
  | 3 => execCopy c r core
  | 4 => execWaitValue c r
  | 5 => if pktFlags q / 2 % 2 = 1 then execSignalAdd c r else execSignal c r
  | 6 => execPublish c r
  | _ => if (qAt q 2).getLsbD 0 then execCheckpointStopSave c r else execCheckpointClose c r

/-- The front end reads the WAIT_VALUE addresses of a ring again: when a packet completes by it, and every 4096 clocks (13 R306). -/
def State.rereadTurn (s : State) (c r : Nat) : Step :=
  match execWaitValueReread c r s with
  | .next t => if t.rings = s.rings ∧ t.ctxs = s.ctxs ∧ s.feClock % 4096 ≠ 0 then .next s else .next t
  | o => o

/-- Attempts of the front end (13 R305-R320; 12 R289). A host copy is given to the first core that takes it. -/
def State.frontAttempts (s : State) : List Attempt :=
  (s.groups.mapIdx (fun k g => (k, g))).flatMap (fun y => match y.2.st with
    | .starting => [(some y.2.ctx, execGroupStart y.1)]
    | .parking => [(some y.2.ctx, execGroupPark y.1)]
    | _ => []) ++
  (s.trees.mapIdx (fun k t => (k, t))).flatMap (fun y => if y.2.isOpen then [(some y.2.ctx, execLaunchComplete y.1)] else []) ++
  [(none, execGroupPlace)] ++
  (match s.nextRing with
  | none => []
  | some k => match s.rings[k]? with
    | none => []
    | some r =>
      let q := s.packetQuads r 16
      let core := ((List.range 160).find? (s.copyCore r.ctx (CopyDesc.of (q.drop 2)))).getD 0
      [(some r.ctx, packetAttempt r.ctx k (pktType q) q core)]) ++
  (s.rings.mapIdx (fun k r => (k, r))).flatMap (fun y =>
    (if y.2.waiting then [(some y.2.ctx, fun s => s.rereadTurn y.2.ctx y.1)] else []) ++
    (if (s.dueSignal y.1 false).isSome then [(some y.2.ctx, execSignal y.2.ctx y.1)] else []) ++
    (if (s.dueSignal y.1 true).isSome then [(some y.2.ctx, execSignalAdd y.2.ctx y.1)] else [])) ++
  (s.begun.mapIdx (fun k b => (k, b))).flatMap (fun y => if y.2.ended then [] else [(some y.2.ctx, execServiceCompletion y.1)])

/-- The verdict of a self-test that is under way, once it can be given: open. -/
def State.testTurn (s : State) (k : Nat) : Step :=
  let (v, t) := s.draw
  match execSelfTestVerdict k (v.getLsbD 0) t with
  | .next u => if u = t then .next s else .next u
  | o => o

def State.testAttempts (s : State) : List Attempt :=
  (s.tests.mapIdx (fun k t => (k, t))).flatMap (fun y => if y.2.verdict then [] else [(none, fun s => s.testTurn y.1)])

/-- Everything that may act now, the waves' own words last. -/
def State.attempts (s : State) : List Attempt :=
  (if s.mbBusy then [(s.ctxNamed s.mbCtx, State.serveMailbox)] else []) ++
  (if s.spdmIn.isEmpty then [] else [(none, State.serveSpdm)]) ++ s.testAttempts ++
  (s.waves.mapIdx (fun k w => (k, w))).flatMap (fun y => y.2.attempts y.1) ++ s.engineAttempts ++ s.frontAttempts ++
  (s.ctxs.mapIdx (fun k x => (k, x))).flatMap (fun y => y.2.attempts y.1)

/-- The first attempt that changes anything, and waits for no self-test. -/
def firstChange (s : State) : List Attempt → Option (Option Nat × Step)
  | [] => none
  | (c, f) :: rest => match f s with
    | .next t => if t.stall ∨ t = s then firstChange s rest else some (c, .next t)
    | x => some (c, x)

/-- The device's own choice of what acts next; a wave whose word finds no entry of its queue is no candidate, and begins to wait. -/
def State.ownTurn (s : State) : Step :=
  match firstChange s s.attempts with
  | some (c, o) => settleAfter s c o
  | none => match s.issuable.find? (fun y => s.stalls y.1 y.2) with
    | some (w, x) => settleAfter s (some x.ctx) (s.waveTurn w)
    | none => match s.chooseWave with
      | none => .next s
      | some (w, s1) => settleAfter s ((s.waves[w]?).map (·.ctx)) (s1.waveTurn w)

/-! ### A step -/

/-- The context that an event acts for, where its arguments name one (19 R417). -/
def State.eventCtx (s : State) (i : Instr) : Option Nat :=
  let wave (w : Nat) : Option Nat := (s.waves[w]?).map (·.ctx)
  match i with
  | .resultWrite w _ _ => wave w
  | .atomicPerform w _ => wave w
  | .storeEntersCoherenceOrder w _ => wave w
  | .instructionFetch w => wave w
  | .instructionCacheFill _ c _ => some c
  | .barWaitComplete w => wave w
  | .trapEntry w => wave w
  | .boundaryTrap w => wave w
  | .waveKill w => wave w
  | .waveStop w _ => wave w
  | .hintSchedDelayEnd w => wave w
  | .sgwaitSpinExpiry w => wave w
  | .groupStart g => (s.groups[g]?).map (·.ctx)
  | .groupPark g => (s.groups[g]?).map (·.ctx)
  | .copyPieceLand q _ => (s.copies[q]?).map (·.ctx)
  | .copyRequestFail q => (s.copies[q]?).map (·.ctx)
  | .copyRequestCancel q => (s.copies[q]?).map (·.ctx)
  | .followOnIssue q => (s.copies[q]?).map (·.ctx)
  | .publishStep c _ => some c
  | .publish c _ => some c
  | .pad c _ => some c
  | .checkpointClose c _ => some c
  | .checkpointStopSave c _ => some c
  | .sgoTimeout c _ => some c
  | .intervalClose c => some c
  | .cutCapture c => some c
  | .ckptintvExpiry c => some c
  | .agStreamItem c _ => some c
  | .agCommit c => some c
  | .agPendUpdate c => some c
  | .serviceCompletion k => (s.begun[k]?).map (·.ctx)
  | .ctxDestroy => s.ctxNamed s.mbCtx
  | .ctxRead => s.ctxNamed s.mbCtx
  | .ctxWrite => s.ctxNamed s.mbCtx
  | .ctxStopClose => s.ctxNamed s.mbCtx
  | .ctxStopSave => s.ctxNamed s.mbCtx
  | .ctxResume => s.ctxNamed s.mbCtx
  | .ctxKill => s.ctxNamed s.mbCtx
  | .ctxInval => s.ctxNamed s.mbCtx
  | .ringCreate => s.ctxNamed s.mbCtx
  | .ringDestroy => s.ctxNamed s.mbCtx
  | .objLoad => s.ctxNamed s.mbCtx
  | .objUnload => s.ctxNamed s.mbCtx
  | .graphSet => s.ctxNamed s.mbCtx
  | .binSet => s.ctxNamed s.mbCtx
  | .pbSet => s.ctxNamed s.mbCtx
  | .acczRun core a => (s.headCmd core a).map (·.2.ctx)
  | .arrayPass core a => (s.headCmd core a).map (·.2.ctx)
  | .accldRun core a => (s.headCmd core a).map (·.2.ctx)
  | .pageWalk _ c _ => some c
  | .kernel c _ => some c
  | .graph c _ => some c
  | .copy c _ _ => some c
  | .waitValue c _ => some c
  | .waitValueReread c _ => some c
  | .signal c _ => some c
  | .signalAdd c _ => some c
  | .binTimerExpiry c _ => some c
  | .launchComplete t => (s.trees[t]?).map (·.ctx)
  | _ => none

/-- Changes of region registers wait, and their accesses with them; the events of these changes see them waiting. -/
def isRegionEvent : Instr → Bool
  | .regionBaseWrite _ _ _ => true
  | .regionLimitWrite _ _ _ => true
  | .regionScaleWrite _ _ _ => true
  | .regionCtlWrite _ _ _ => true
  | .regionChangeApply _ _ => true
  | .registerWrite off _ => decide (0xC000000000 ≤ off) && decide (off < 0xC004000000)
  | _ => false

/-- The host writes its own memory. -/
def State.hostStores (s : State) (pa : Nat) (bytes : List (BitVec 8)) : State :=
  { s with mem := (bytes.zipIdx).foldl (fun m b => match paKind (pa + b.2) with
    | .host => m.setByte (pa + b.2) b.1
    | _ => m) s.mem }

/-- One clock passes everywhere, and no turn is put off yet. -/
def State.oneClock (s : State) : State := { s.tick [1, 1, 1, 1] 1 with stall := false }

/-- A turn. -/
def State.runTurn (s : State) (t : Turn) : Step :=
  match t with
  | .wave w =>
    let s1 := s.oneClock.settleChanges
    settleAfter s1 ((s1.waves[w]?).map (·.ctx)) (s1.waveTurn w)
  | .event i =>
    let s1 := if isRegionEvent i then s.oneClock else s.oneClock.settleChanges
    settleAfter s1 (s1.eventCtx i) (exec i s1)
  | .pass q0 q1 q2 q3 fe => .next (s.tick [q0, q1, q2, q3] fe)
  | .hostStore pa bytes => .next (s.hostStores pa bytes)
  | .expander c => .next (s.modCtx c (fun x => { x with agBad := x.image.isSome || x.agBad }))
  | .spdm via msg => .next { s with spdmIn := s.spdmIn ++ [(via, msg)] }
  | .tier t => .next { s with tier := s.tier.filter (fun u => u.base != t.base) ++ [t] }

end Sys2Proof.Machine
end

