-- ==== Sys2Proof/Machine/Boot.lean ====
section
/-! DEFINITION. Putting an instruction where the next step fetches: into the memory that holds the word at the program counter
of the wave whose turn is next, or into a context with one running wave, which stands for what the driver and the loader do
before a program runs (log 13). -/

namespace Sys2Proof.Machine

/-- The wave whose turn is next, if it may issue and its program counter translates: its number and the physical address. -/
def State.nextFetch (s : State) : Option (Nat × Wave × Nat) :=
  match s.agenda with
  | .wave w :: _ =>
    let t := s.oneClock.settleChanges
    match t.waves[w]? with
    | none => none
    | some x =>
      if t.mayIssue x && !(x.ran && pastEnd x.pc) then match t.fetchXlat x x.pc with
        | .ok y => some (w, x, y.pa)
        | .error _ => none
      else none
  | _ => none

/-- The word in memory at a physical address, and no older copy of it with the wave. -/
def State.putWord (s : State) (wid : Nat) (w : Wave) (pa : Nat) (v : Word) : State :=
  ({ s with
    mem := s.mem.write pa (bytesOfNat 4 v.toNat), poison := s.poison.filter (· != pa / 128) }.modWave wid (fun x => { x with
      fetched := none })).modCore w.core (fun k => { k with
        icache := k.icache.filter (fun l => !(l.ctx == w.ctx && l.line == w.pc.toNat / 128)) })

/-- The page tables of the boot context: from the root at 0x10000 to one executable page at virtual 0x20000000, physical
0x20000. -/
def bootTables (m : Mem) : Mem :=
  ((((m.write 0x10000 (bytesOfNat 8 0x11101)).write 0x11000 (bytesOfNat 8 0x12101)).write 0x12000
    (bytesOfNat 8 0x13101)).write 0x13800 (bytesOfNat 8 0x14101)).write 0x14000 (bytesOfNat 8 0x20005)

/-- The virtual address of the boot program. -/
def bootPc : DWord := 0x20000000#64

/-- One role with every register (12 R281). -/
def bootRole : Role := ⟨bootPc, 256, 16, 2, 1⟩

def bootKernel : Kernel := { roles := [bootRole], scratch := 1024, home := none, got := 0#64, obj := 0 }

/-- A privileged context with every feature, a handler address and the boot tables. -/
def bootCtx (s : State) : Ctx :=
  let r : CtxRegs := { CtxRegs.zero with ctl := 0x40#64, trapvec := bootPc + 0x800#64, ptroot := 0x10000#64 }
  let x := Ctx.fresh (BitVec.ofNat 32 (0x10000 + s.ctxs.length)) 0x40#64 7
  { x with regs := r, act := r, st := .resident }

/-- A running group of one wave on core 0, with a matrix claim. -/
def bootGroup (s : State) : Group :=
  { ctx := s.ctxs.length, launch := s.launches.length, index := 0, coord := (0, 0, 0), extent := (1, 1, 1), st := .running,
    waves := [s.waves.length], scratchSize := 1024, scratch := Mem.empty, gregs := List.replicate 256 0#64, claim := true,
    cores := [0], spanQ := 1, gid := 0, gphase := 0, got := 0#64, args := 0#64, entryRegs := [], kernel := bootKernel,
    tree := s.trees.length, depth := 0, sib := none, slots := [], table := none, home := none, wake := false, fresh := false,
    started := true, saved := [], dirty := [] }

/-- The machine with the boot context, what Lantern holds for it, its group and its wave, whose turn is next. -/
def State.boot (s : State) : State :=
  let w := Wave.fresh s.groups.length s.ctxs.length 0 0 0 0 bootRole 0#64 []
  let t := (({ s with ctxs := s.ctxs ++ [bootCtx s] } : State).grantCtx s.ctxs.length).grantRegs s.ctxs.length (bootCtx s).act
  { t with
    agenda := .wave s.waves.length :: s.agenda, thermtrip := false, issueHalt := false, mem := bootTables s.mem
    groups := s.groups ++ [bootGroup s], waves := s.waves ++ [{ w with st := .ready }] }

end Sys2Proof.Machine
end

