-- ==== Sys2Proof/Machine/Step.lean ====
section
/-! DEFINITION. One step of the machine, and the placing of an instruction where a step fetches (log 1, log 13). -/

namespace Sys2Proof.Machine

/-- One step: the turn at the head of the agenda, or the device's own choice. -/
def step (s : State) : Host.Outcome State Fault Refusal :=
  match s.agenda with
  | t :: rest => { s with agenda := rest }.runTurn t
  | [] => s.oneClock.settleChanges.ownTurn

/-- The machine with an instruction of the opcode table where the next step fetches it. -/
def State.withFetchWord (s : State) (nbits w : Nat) : State :=
  let v := BitVec.ofNat 32 (w % 2 ^ nbits)
  match s.nextFetch with
  | some (wid, x, pa) => s.putWord wid x pa v
  | none =>
    let t := s.boot
    match t.nextFetch with
    | some (wid, x, pa) => t.putWord wid x pa v
    | none => t

end Sys2Proof.Machine
end

