-- ==== Sys2Proof/Machine/Forms.lean ====
section
/-! DEFINITION. The table of what each instruction word names before its own checks: its switch marker, its sources and
destinations in the order of 14 R336, the prefixes it accepts, privilege, the optional feature it belongs to
(06 R158-R167; 07 R199; 15 R372). Statements are made with it. -/

namespace Sys2Proof.Machine

/-- An atomic names its operand, its address and, for ACAS, the new value after the operand (09 R236). -/
def formAtomic (sw : BitVec 1) (cas : Bool) (v : BitVec 1) (x a : BitVec 6) : Form :=
  { sw := sw, src := atomSources cas (v == 1#1) x a, dst := [if v == 1#1 then .v x.toNat else .s x.toNat] }

/-- The form of an instruction word; none for the prefix words, which have checks of their own (06 R165), and for events. -/
def issueForm : Instr → Option Form
  | .vaddI32 sw d a b => some (formVV sw d a b accSat)
  | .vsubI32 sw d a b => some (formVV sw d a b accSat)
  | .vmulI32 sw d a b => some (formVV sw d a b accSat)
  | .vmulhI32 sw d a b => some (formVV sw d a b none)
  | .vmulhuI32 sw d a b => some (formVV sw d a b none)
  | .vminI32 sw d a b => some (formVV sw d a b none)
  | .vmaxI32 sw d a b => some (formVV sw d a b none)
  | .vminuI32 sw d a b => some (formVV sw d a b none)
  | .vmaxuI32 sw d a b => some (formVV sw d a b none)
  | .vand sw d a b => some (formVV sw d a b none)
  | .vor sw d a b => some (formVV sw d a b none)
  | .vxor sw d a b => some (formVV sw d a b none)
  | .vshl sw d a b => some (formVV sw d a b none)
  | .vshr sw d a b => some (formVV sw d a b none)
  | .vsar sw d a b => some (formVV sw d a b none)
  | .vmov sw d a => some (formV sw d a none)
  | .vpopc sw d a => some (formV sw d a none)
  | .vclz sw d a => some (formV sw d a none)
  | .vsel sw d a b => some (formVV sw d a b none)
  | .vaddF32 sw d a b => some (formVV sw d a b accFp)
  | .vsubF32 sw d a b => some (formVV sw d a b accFp)
  | .vmulF32 sw d a b => some (formVV sw d a b accFp)
  | .vfmaF32 sw d a b => some (formVVC sw d a b accFma)
  | .vminF32 sw d a b => some (formVV sw d a b accFtz)
  | .vmaxF32 sw d a b => some (formVV sw d a b accFtz)
  | .vabsF32 sw d a => some (formV sw d a accFtz)
  | .vnegF32 sw d a => some (formV sw d a accFtz)
  | .vaddBf16x2 sw d a b => some (formVV sw d a b accFp)
  | .vmulBf16x2 sw d a b => some (formVV sw d a b accFp)
  | .vfmaBf16x2 sw d a b => some (formVVC sw d a b accFma)
  | .vaddFp16x2 sw d a b => some (formVV sw d a b accFp)
  | .vmulFp16x2 sw d a b => some (formVV sw d a b accFp)
  | .vfmaFp16x2 sw d a b => some (formVVC sw d a b accFma)
  | .vaddE4m3x4 sw d a b => some (formVV sw d a b accF8)
  | .vmulE4m3x4 sw d a b => some (formVV sw d a b accF8)
  | .vaddInt8x4 sw d a b => some (formVV sw d a b accSat)
  | .vsubInt8x4 sw d a b => some (formVV sw d a b accSat)
  | .vaddUint8x4 sw d a b => some (formVV sw d a b accSat)
  | .vsubUint8x4 sw d a b => some (formVV sw d a b accSat)
  | .vdot2Bf16 sw d a b => some (formVVC sw d a b accDot)
  | .vdot2Fp16 sw d a b => some (formVVC sw d a b accDot)
  | .vdot4E4m3 sw d a b => some (formVVC sw d a b accDot8)
  | .vdot4Int8 sw d a b => some (formVVC sw d a b accDotI)
  | .vcvt sw d a _ _ => some (formV sw d a accFp)
  | .vcvtpk sw d a f g => some { sw := sw, src := vregs a (packCount f g), dst := [.v d.toNat], mods := some accFp }
  | .vcvtxp sw d a f g => some { sw := sw, src := [.v a.toNat], dst := vregs d (unpackCount f g), mods := some accFp }
  | .vqblk sw d a f =>
    some { sw := sw, src := vregs a (blockRegs f), dst := [.v d.toNat], mods := some accRm, feat := if f = 10#4 ∨ f = 12#4 then some 2 else none }
  | .vdqblk sw d a f =>
    some { sw := sw, src := [.v a.toNat], dst := vregs d (blockRegs f), feat := if f = 10#4 ∨ f = 12#4 then some 2 else none }
  | .vrcp sw d a => some (formV sw d a accFp)
  | .vrsq sw d a => some (formV sw d a accFp)
  | .vsqrt sw d a => some (formV sw d a accFp)
  | .vexp2 sw d a => some (formV sw d a accFp)
  | .vlog2 sw d a => some (formV sw d a accFp)
  | .vsinpi sw d a => some (formV sw d a accFp)
  | .vcospi sw d a => some (formV sw d a accFp)
  | .add sw d a b => some (formRR sw d a b)
  | .sub sw d a b => some (formRR sw d a b)
  | .mul sw d a b => some (formRR sw d a b)
  | .mulh sw d a b => some (formRR sw d a b)
  | .mulhu sw d a b => some (formRR sw d a b)
  | .and sw d a b => some (formRR sw d a b)
  | .or sw d a b => some (formRR sw d a b)
  | .xor sw d a b => some (formRR sw d a b)
  | .andn sw d a b => some (formRR sw d a b)
  | .shl sw d a b => some (formRR sw d a b)
  | .shr sw d a b => some (formRR sw d a b)
  | .sar sw d a b => some (formRR sw d a b)
  | .shli sw d a _ => some (formR sw d a)
  | .shri sw d a _ => some (formR sw d a)
  | .sari sw d a _ => some (formR sw d a)
  | .slt sw d a b => some (formRR sw d a b)
  | .sltu sw d a b => some (formRR sw d a b)
  | .min sw d a b => some (formRR sw d a b)
  | .max sw d a b => some (formRR sw d a b)
  | .minu sw d a b => some (formRR sw d a b)
  | .maxu sw d a b => some (formRR sw d a b)
  | .popc sw d a => some (formR sw d a)
  | .clz sw d a => some (formR sw d a)
  | .ctz sw d a => some (formR sw d a)
  | .addi sw x a _ => some (formRI sw x a)
  | .andi sw x a _ => some (formRI sw x a)
  | .ori sw x a _ => some (formRI sw x a)
  | .xori sw x a _ => some (formRI sw x a)
  | .slti sw x a _ => some (formRI sw x a)
  | .sltiu sw x a _ => some (formRI sw x a)
  | .grd sw d g => some { sw := sw, dst := [.s d.toNat], greg := some g.toNat }
  | .gwr sw a _ => some { sw := sw, src := [.s a.toNat] }
  | .gadd sw d a g => some { sw := sw, src := [.s a.toNat], dst := [.s d.toNat], greg := some g.toNat }
  | .bez sw a _ => some { sw := sw, src := [.s a.toNat] }
  | .bnez sw a _ => some { sw := sw, src := [.s a.toNat] }
  | .bra sw _ => some { sw := sw }
  | .bany sw _ _ => some { sw := sw }
  | .ball sw _ _ => some { sw := sw }
  | .bnone sw _ _ => some { sw := sw }
  | .call sw _ => some { sw := sw, dst := [.s 63] }
  | .jmpr sw x _ => some { sw := sw, src := [.s x.toNat], imm := true }
  | .callr sw x _ => some { sw := sw, src := [.s x.toNat], dst := [.s 63], imm := true }
  | .ret sw => some { sw := sw, src := [.s 63] }
  | .yield sw => some { sw := sw }
  | .trap sw _ => some { sw := sw }
  | .tret sw => some (formTret sw)
  | .srd sw x _ => some { sw := sw, dst := [.s x.toNat] }
  | .swr sw x _ => some { sw := sw, src := [.s x.toNat] }
  | .fenceI sw => some { sw := sw }
  | .hintSched sw _ => some { sw := sw }
  | .vcmpEqI32 sw _ a b => some (formCmp sw a b)
  | .vcmpNeI32 sw _ a b => some (formCmp sw a b)
  | .vcmpLtI32 sw _ a b => some (formCmp sw a b)
  | .vcmpLeI32 sw _ a b => some (formCmp sw a b)
  | .vcmpLtuI32 sw _ a b => some (formCmp sw a b)
  | .vcmpLeuI32 sw _ a b => some (formCmp sw a b)
  | .vcmpEqF32 sw _ a b => some (formCmp sw a b)
  | .vcmpNeF32 sw _ a b => some (formCmp sw a b)
  | .vcmpLtF32 sw _ a b => some (formCmp sw a b)
  | .vcmpLeF32 sw _ a b => some (formCmp sw a b)
  | .vcmpUnF32 sw _ a b => some (formCmp sw a b)
  | .mand sw _ _ _ => some { sw := sw }
  | .mor sw _ _ _ => some { sw := sw }
  | .mxor sw _ _ _ => some { sw := sw }
  | .mandn sw _ _ _ => some { sw := sw }
  | .mnot sw _ _ => some { sw := sw }
  | .mfroms sw _ r => some { sw := sw, src := [.s r.toNat] }
  | .mtos sw _ r => some { sw := sw, dst := [.s r.toNat] }
  | .mpopc sw _ r => some { sw := sw, dst := [.s r.toNat] }
  | .mffs sw _ r => some { sw := sw, dst := [.s r.toNat] }
  | .vshfl sw d a _ => some { sw := sw, src := [.v d.toNat, .v a.toNat], dst := [.v d.toNat] }
  | .vmatch sw d a => some (formV sw d a none)
  | .vmatchF sw d a => some (formV sw d a none)
  | .vreduceAddF32 sw d a => some (formV sw d a none)
  | .vreduceAddI32 sw d a => some (formV sw d a none)
  | .vreduceMinF32 sw d a => some (formV sw d a none)
  | .vreduceMaxF32 sw d a => some (formV sw d a none)
  | .vreduceMinI32 sw d a => some (formV sw d a none)
  | .vreduceMaxI32 sw d a => some (formV sw d a none)
  | .vscanAddF32 sw d a => some (formV sw d a none)
  | .vscanAddI32 sw d a => some (formV sw d a none)
  | .vmovs sw v a => some { sw := sw, src := [.s a.toNat], dst := [.v v.toNat] }
  | .vrdlane sw v a b => some { sw := sw, src := [.v v.toNat, .s b.toNat], dst := [.s a.toNat] }
  | .vwrlane sw v a b => some { sw := sw, src := [.s a.toNat, .s b.toNat], dst := [.v v.toNat] }
  | .vlaneid sw v => some { sw := sw, dst := [.v v.toNat] }
  | .endWave sw => some { sw := sw }
  | .srdp sw x _ => some (formP sw [] [.s x.toNat])
  | .swrp sw x _ => some (formP sw [.s x.toNat] [])
  | .icinv sw => some (formP sw [] [])
  | .tlbinv sw x => some (formP sw [.s x.toNat] [])
  | .wkill sw x => some (formP sw [.s x.toNat] [])
  | .wresume sw x => some (formP sw [.s x.toNat] [])
  | .halt sw => some (formP sw [] [])
  | .acrd sw x _ _ => some (formP sw [] [.s x.toNat])
  | .ipref sw _ _ => some { sw := sw }
  | .sld sw x a _ => some (formRI sw x a)
  | .sst sw x a _ => some { sw := sw, src := [.s x.toNat, .s a.toNat], imm := true }
  | .vstc sw x a b => some { sw := sw, src := [.v x.toNat, .s a.toNat, .s b.toNat] }
  | .phase sw _ => some { sw := sw }
  | .barInit sw a b => some { sw := sw, src := [.s a.toNat, .s b.toNat] }
  | .barArrive sw a => some { sw := sw, src := [.s a.toNat] }
  | .barWait sw a b => some { sw := sw, src := [.s a.toNat, .s b.toNat] }
  | .wsq sw x a => some (formR sw x a)
  | .copyk sw a => some { sw := sw, src := [.s a.toNat] }
  | .cpq sw d a => some (formR sw d a)
  | .publ sw _ => some { sw := sw }
  | .mma sw p q _ _ a => some { sw := sw, src := (List.range 4).map (fun k => .s (a.toNat + k)), feat := mx4Feature [p, q] }
  | .accz sw _ => some { sw := sw }
  | .accld sw _ a b => some { sw := sw, src := [.s a.toNat, .s b.toNat] }
  | .accst sw _ a b => some { sw := sw, src := [.s a.toNat, .s b.toNat] }
  | .acccvt sw _ a b f => some { sw := sw, src := [.s a.toNat, .s b.toNat], feat := mx4Feature [f] }
  | .mwait sw _ => some { sw := sw }
  | .hvxor sw d a b => some (formH sw [.h a.toNat, .h b.toNat] [.h d.toNat])
  | .hvnot sw d a => some (formH sw [.h a.toNat] [.h d.toNat])
  | .hvmov sw d a => some (formH sw [.h a.toNat] [.h d.toNat])
  | .hvbund sw a k => some (formH sw [.h a.toNat, .b k.toNat] [.b k.toNat])
  | .hvbsub sw a k => some (formH sw [.h a.toNat, .b k.toNat] [.b k.toNat])
  | .hvmaj sw d k => some (formH sw [.b k.toNat] [.h d.toNat])
  | .hvbclr sw k => some (formH sw [] [.b k.toNat])
  | .hvgen sw d => some (formH sw [] [.h d.toNat])
  | .hvrot sw a b y => some (formH sw [.h b.toNat, .s y.toNat] [.h a.toNat])
  | .hvdist sw a b x => some (formH sw [.h a.toNat, .h b.toNat] [.s x.toNat])
  | .hvseed sw y => some (formH sw [.s y.toNat] [])
  | .hvrdtie sw x => some (formH sw [] [.s x.toNat])
  | .hvbit sw a x y => some (formH sw [.h a.toNat, .s y.toNat] [.s x.toNat])
  | .hvld sw a y => some (formH sw [.s y.toNat] [.h a.toNat])
  | .hvst sw a y => some (formH sw [.h a.toNat, .s y.toNat] [])
  | .hvnear sw a x y => some (formH sw [.h a.toNat, .s y.toNat, .s (y.toNat + 1)] [.s x.toNat, .s (x.toNat + 1)])
  | .enq sw d a b => some (formRR sw d a b)
  | .sgfork sw d a b => some { formRR sw d a b with feat := some 1 }
  | .sgreward sw d a => some { formR sw d a with feat := some 1 }
  | .sgwait sw d => some { sw := sw, dst := [.s d.toNat], feat := some 1 }
  | .sgcancel sw a => some { sw := sw, src := [.s a.toNat], feat := some 1 }
  | .sgquery sw d a => some { formR sw d a with feat := some 1 }
  | .vldI8 sw v o b => some { sw := sw, src := [.s b.toNat, .v o.toNat], dst := [.v v.toNat] }
  | .vldZ8 sw v o b => some { sw := sw, src := [.s b.toNat, .v o.toNat], dst := [.v v.toNat] }
  | .vldI16 sw v o b => some { sw := sw, src := [.s b.toNat, .v o.toNat], dst := [.v v.toNat] }
  | .vldZ16 sw v o b => some { sw := sw, src := [.s b.toNat, .v o.toNat], dst := [.v v.toNat] }
  | .vld32 sw v o b => some { sw := sw, src := [.s b.toNat, .v o.toNat], dst := [.v v.toNat] }
  | .vst8 sw v o b => some { sw := sw, src := [.v v.toNat, .s b.toNat, .v o.toNat] }
  | .vst16 sw v o b => some { sw := sw, src := [.v v.toNat, .s b.toNat, .v o.toNat] }
  | .vst32 sw v o b => some { sw := sw, src := [.v v.toNat, .s b.toNat, .v o.toNat] }
  | .vldl sw x a => some { sw := sw, src := [.s a.toNat], dst := [.v x.toNat] }
  | .vldb sw x a => some { sw := sw, src := [.s a.toNat], dst := [.v x.toNat] }
  | .vstl sw x a => some { sw := sw, src := [.v x.toNat, .s a.toNat] }
  | .vstb sw x a => some { sw := sw, src := [.v x.toNat, .s a.toNat] }
  | .aadd sw _ _ v _ x a => some (formAtomic sw false v x a)
  | .aand sw _ _ v _ x a => some (formAtomic sw false v x a)
  | .aor sw _ _ v _ x a => some (formAtomic sw false v x a)
  | .axor sw _ _ v _ x a => some (formAtomic sw false v x a)
  | .amin sw _ _ v _ x a => some (formAtomic sw false v x a)
  | .amax sw _ _ v _ x a => some (formAtomic sw false v x a)
  | .aminu sw _ _ v _ x a => some (formAtomic sw false v x a)
  | .amaxu sw _ _ v _ x a => some (formAtomic sw false v x a)
  | .axchg sw _ _ v _ x a => some (formAtomic sw false v x a)
  | .acas sw _ _ v _ x a => some (formAtomic sw true v x a)
  | .aaddF32 sw _ _ v x a => some (formAtomic sw false v x a)
  | _ => none

end Sys2Proof.Machine
end

