-- ==== Sys2Proof/Safety.lean ====
section
/-! DEFINITION. What statements about the machine are said in terms of: when an instruction word has passed the checks before
its own, where it leads, what it leaves alone, and what every step keeps. -/

namespace Sys2Proof.Machine

/-! ### Running one instruction word -/

/-- The wave of the step's own word is `w`, and the word has passed steps 3 to 5 of 06 R170: registers that exist, accepted
prefixes, an available feature, privilege, no uncovered access in strict mode; no line of a register that it reads has an
uncorrectable error (04 R110). -/
def State.Ready (s : State) (w : Wave) (i : Instr) : Prop :=
  s.waves[s.cur]? = some w ∧ (issueForm i).map (fun f => (s.refuses w i f, s.badSource s.cur w f)) = some (none, none)

/-- The wave is `w`, the word has passed those checks, and a register that it reads has an uncorrectable error in the line at an
address of the register window, or in the line of a group register, which has the address 0 (04 R110; log 76). -/
def State.MeetsBadRegister (s : State) (w : Wave) (i : Instr) (va : DWord) : Prop :=
  s.waves[s.cur]? = some w ∧ (issueForm i).map (fun f => (s.refuses w i f, s.badSource s.cur w f)) = some (none, some va)

/-- The wave is `w`, and the first of those checks that fails gives the trap `t`. -/
def State.TurnedAway (s : State) (w : Wave) (i : Instr) (t : TrapInfo) : Prop :=
  s.waves[s.cur]? = some w ∧ (issueForm i).map (s.refuses w i) = some (some t)

/-- Once it has passed those checks, the instruction word leads to `t`. -/
def State.Gives (s : State) (w : Wave) (i : Instr) (t : State) : Prop := s.Ready w i → exec i s = .next t

/-- The current wave has become `w'` with the PC after it, its group of words closed and its marker noted. -/
def State.became (s : State) (sw : BitVec 1) (w' : Wave) : State := s.modWave s.cur (fun _ => w'.advance.issued sw)

/-- The machine `t` once the word of the current wave has issued. -/
def State.afterWord (s : State) (sw : BitVec 1) (t : State) : State := t.modWave s.cur (Wave.issued sw)

/-- Nothing outside the program meets the accesses of a wave: Glint is off for its context and no line is poisoned
(02 R49; 04 R110; 05 R151). -/
def State.Calm (s : State) (w : Wave) : Prop :=
  s.poison = [] ∧ s.bad = [] ∧ ∃ c, s.ctxs[w.ctx]? = some c ∧ c.glintMode = 0

/-- The wave `k` of `s`, at a releasing boundary of the scope that `c` follows, has no store pending any more (05 R130, R131). -/
def State.AllEntered (s : State) (k scope : Nat) (c : Cont) : Prop :=
  ∃ w, s.waves[k]? = some w ∧ w.st = .wait (.release scope c) ∧ w.pend = []

/-! ### What an instruction leaves alone -/

/-- The wave `x` is `w` but for the registers of `dst`, the masks of `ms` and flags that were raised: the other registers
and masks, the special registers, the trap state, the stores and atomics under way, its place. The PC may differ, and the
tie-break generator if `tie`. -/
structure Wave.KeptBut (w x : Wave) (dst : List RegRef) (ms : List Nat) (tie : Bool) : Prop where
  scalar : ∀ n, RegRef.s n ∉ dst → x.s n = w.s n
  vector : ∀ n, RegRef.v n ∉ dst → x.vreg n = w.vreg n
  hyper : ∀ n, RegRef.h n ∉ dst → x.hv n = w.hv n
  bundle : ∀ n, RegRef.b n ∉ dst → x.ba n = w.ba n
  mask : ∀ n, n ∉ ms → x.m n = w.m n
  generator : tie = false → x.hvtie = w.hvtie
  raised : ∃ f, x.fpflags = w.fpflags ||| f
  special : (x.snapCur, x.snapOvf, x.acqCnt, x.relCnt, x.trapCause, x.trapPc, x.trapAddr) =
    (w.snapCur, w.snapOvf, w.acqCnt, w.relCnt, w.trapCause, w.trapPc, w.trapAddr)
  handler : x.frame = w.frame ∧ x.handler = w.handler
  memory : x.pend = w.pend ∧ x.atoms = w.atoms ∧ x.own = w.own ∧ x.due = w.due
  mirror : x.mirror = w.mirror
  place : (x.group, x.ctx, x.index, x.stage, x.core, x.slot) = (w.group, w.ctx, w.index, w.stage, w.core, w.slot)

/-- Only the current wave differs: every other wave, group, context, core, queue and every byte of memory is as before. -/
structure State.OnlyWave (s t : State) : Prop where
  rest : t = { s with waves := t.waves }
  others : ∀ k, k ≠ s.cur → t.waves[k]? = s.waves[k]?
  bytes : ∀ a, t.mem.byte a = s.mem.byte a

/-- The masks an instruction word writes (07 R189; 08 R221, R222). -/
def maskDst : Instr → List Nat
  | .vcmpEqI32 _ m _ _ => [m.toNat]
  | .vcmpNeI32 _ m _ _ => [m.toNat]
  | .vcmpLtI32 _ m _ _ => [m.toNat]
  | .vcmpLeI32 _ m _ _ => [m.toNat]
  | .vcmpLtuI32 _ m _ _ => [m.toNat]
  | .vcmpLeuI32 _ m _ _ => [m.toNat]
  | .vcmpEqF32 _ m _ _ => [m.toNat]
  | .vcmpNeF32 _ m _ _ => [m.toNat]
  | .vcmpLtF32 _ m _ _ => [m.toNat]
  | .vcmpLeF32 _ m _ _ => [m.toNat]
  | .vcmpUnF32 _ m _ _ => [m.toNat]
  | .mand _ d _ _ => [d.toNat]
  | .mor _ d _ _ => [d.toNat]
  | .mxor _ d _ _ => [d.toNat]
  | .mandn _ d _ _ => [d.toNat]
  | .mnot _ d _ => [d.toNat]
  | .mfroms _ d _ => [d.toNat]
  | _ => []

/-- The destination registers that the table of forms gives an instruction word. -/
def regDst (i : Instr) : List RegRef := match issueForm i with
  | some f => f.dst
  | none => []

/-- The words that advance the tie-break generator (11 R270-R272). -/
def tieDst : Instr → Bool
  | .hvmaj _ _ _ => true
  | .hvgen _ _ => true
  | .hvseed _ _ => true
  | _ => false

/-- The frame of a word whose whole effect is on registers of its own wave. -/
def State.RegisterFrame (s : State) (w : Wave) (i : Instr) : Prop :=
  s.Ready w i → ∃ t, exec i s = .next t ∧ s.OnlyWave t ∧
    ∃ x, t.waves[s.cur]? = some x ∧ w.KeptBut x (regDst i) (maskDst i) (tieDst i)

/-! ### Packets and requests -/

/-- Ring `k` of context `c` is the ring that the front end serves next, and its next packet, `q`, is of the type and passes the
checks of 13 R309. -/
def State.Dispatches (s : State) (c k : Nat) (r : Ring) (q : List DWord) (type : Nat) : Prop :=
  s.rings[k]? = some r ∧ r.ctx = c ∧ s.nextRing = some k ∧ s.look r = .go q ∧ pktType q = type

/-- So it is, and Lantern's entry of the ring holds the granules of the packet: `t` is the machine with its register loaded
(19 R408; log 84). -/
def State.Serves (s : State) (c k : Nat) (r : Ring) (q : List DWord) (type : Nat) (t : State) : Prop :=
  s.Dispatches c k r q type ∧ s.capFor 0 (.ring k) c (16 * (r.rptr.toNat % 2 ^ r.logsz)) (16 * pktLen q) false = some t

/-- A request for a service is the next to be served in the mailbox of a device that is not in recovery, with a body of `len` bytes, a
header as 19 R409 asks, and a context number. -/
def State.Request (s : State) (code len : Nat) (ctx : BitVec 32) : Prop :=
  s.mbBusy = true ∧ s.spdmBefore = 0 ∧ s.mbService = code ∧ s.mbLength = len ∧ s.mbHeaderOk = true ∧ s.recovery = false ∧ s.mbCtx = ctx

/-- The request names the context `x` at position `c`. -/
def State.RequestFor (s : State) (code len c : Nat) (x : Ctx) : Prop :=
  s.Request code len s.mbCtx ∧ s.ctxNamed s.mbCtx = some c ∧ s.ctxs[c]? = some x

/-- The service is carried out or begun: the machine `t`, with the response of result 0 that 19 R409 describes. -/
def State.Answers (s : State) (i : Instr) (t : State) (ctx : BitVec 32) (body : List (BitVec 8)) : Prop :=
  exec i s = .next (s.respond ⟨t, 0, 0, ctx, body⟩)

/-! ### What every step keeps -/

/-- Main memory is in canonical form: addresses strictly rising, no entry that an unlisted address would read as (log 2). -/
def State.MemCanonical (s : State) : Prop := s.mem.wf = true

end Sys2Proof.Machine
end

