-- ==== Sys2Proof/Certificates/Slice0/Obligations.lean ====
section
/-! DEFINITION. The statements for the provers. -/

open Sys2Proof Sys2Proof.Machine

/-! ### Results of scalar words -/

/-- 07 R183: what each form of primary 0x60 writes with SetS, and that nothing else of the machine follows from it but the
advance to the next word. The unassigned sub-codes, and POPC, CLZ and CTZ with B not 0, are no instruction. -/
def Obligations.ScalarRegisterResults : Prop :=
  ∀ (s : State) (w : Wave) (sw : BitVec 1) (d a b : BitVec 6),
    let x := w.s a.toNat
    let y := w.s b.toNat
    let r (v : DWord) : State := s.became sw (w.setS d.toNat v)
    s.Gives w (.add sw d a b) (r (x + y)) ∧
    s.Gives w (.sub sw d a b) (r (x - y)) ∧
    s.Gives w (.mul sw d a b) (r (x * y)) ∧
    s.Gives w (.mulh sw d a b) (r (BitVec.ofInt 64 (x.toInt * y.toInt / 2 ^ 64))) ∧
    s.Gives w (.mulhu sw d a b) (r (BitVec.ofNat 64 (x.toNat * y.toNat / 2 ^ 64))) ∧
    s.Gives w (.and sw d a b) (r (x &&& y)) ∧
    s.Gives w (.or sw d a b) (r (x ||| y)) ∧
    s.Gives w (.xor sw d a b) (r (x ^^^ y)) ∧
    s.Gives w (.andn sw d a b) (r (x &&& ~~~y)) ∧
    s.Gives w (.shl sw d a b) (r (x <<< (y.toNat % 64))) ∧
    s.Gives w (.shr sw d a b) (r (x >>> (y.toNat % 64))) ∧
    s.Gives w (.sar sw d a b) (r (x.sshiftRight (y.toNat % 64))) ∧
    s.Gives w (.shli sw d a b) (r (x <<< b.toNat)) ∧
    s.Gives w (.shri sw d a b) (r (x >>> b.toNat)) ∧
    s.Gives w (.sari sw d a b) (r (x.sshiftRight b.toNat)) ∧
    s.Gives w (.slt sw d a b) (r (if x.toInt < y.toInt then 1#64 else 0#64)) ∧
    s.Gives w (.sltu sw d a b) (r (if x.toNat < y.toNat then 1#64 else 0#64)) ∧
    s.Gives w (.min sw d a b) (r (if y.toInt < x.toInt then y else x)) ∧
    s.Gives w (.max sw d a b) (r (if x.toInt < y.toInt then y else x)) ∧
    s.Gives w (.minu sw d a b) (r (if y.toNat < x.toNat then y else x)) ∧
    s.Gives w (.maxu sw d a b) (r (if x.toNat < y.toNat then y else x)) ∧
    s.Gives w (.popc sw d a) (r (BitVec.ofNat 64 ((List.range 64).countP (fun k => x.getLsbD k)))) ∧
    (∃ n, n ≤ 64 ∧ (∀ k, 64 - n ≤ k → k < 64 → x.getLsbD k = false) ∧ (n < 64 → x.getLsbD (63 - n) = true) ∧
      s.Gives w (.clz sw d a) (r (BitVec.ofNat 64 n))) ∧
    (∃ n, n ≤ 64 ∧ (∀ k, k < n → x.getLsbD k = false) ∧ (n < 64 → x.getLsbD n = true) ∧
      s.Gives w (.ctz sw d a) (r (BitVec.ofNat 64 n))) ∧
    (∀ sub : BitVec 6, 0x18 ≤ sub.toNat ∨ (0x15 ≤ sub.toNat ∧ b ≠ 0#6) →
      decode (sw ++ 0x60#7 ++ sub ++ d ++ a ++ b) = none)

/-- 07 R184; 06 R165: what the immediate forms write, with the immediate of 06 R166. Each accepts a HINT.IMM: alone in its group, the word
passes the checks before its own. None accepts a HINT.MOD. -/
def Obligations.ScalarImmediateResults : Prop :=
  ∀ (s : State) (w : Wave) (sw : BitVec 1) (x a : BitVec 6) (i : BitVec 12),
    let p := w.s a.toNat
    let q := w.immValue i
    let r (v : DWord) : State := s.became sw (w.setS x.toNat v)
    s.Gives w (.addi sw x a i) (r (p + q)) ∧
    s.Gives w (.andi sw x a i) (r (p &&& q)) ∧
    s.Gives w (.ori sw x a i) (r (p ||| q)) ∧
    s.Gives w (.xori sw x a i) (r (p ^^^ q)) ∧
    s.Gives w (.slti sw x a i) (r (if p.toInt < q.toInt then 1#64 else 0#64)) ∧
    s.Gives w (.sltiu sw x a i) (r (if p.toNat < q.toNat then 1#64 else 0#64)) ∧
    (∀ j, j ∈ [Instr.addi sw x a i, .andi sw x a i, .ori sw x a i, .xori sw x a i, .slti sw x a i, .sltiu sw x a i] →
      s.waves[s.cur]? = some w →
      ((w.pfx = none ∨ ∃ pc h, w.pfx = some ⟨pc, some h, none⟩) → s.strict w = false → s.bad = [] → s.Ready w j) ∧
      (∀ pc h m, w.pfx = some ⟨pc, h, some m⟩ → s.TurnedAway w j (trapAt causeIllegal (wordAddr j))))

/-- 06 R166: ImmValue() with and without HINT.IMM in the group of words, and that every 32-bit value is reached by its split. -/
def Obligations.ImmediateValue : Prop :=
  ∀ (w : Wave) (i : BitVec 12),
    (∀ (pc : DWord) (h : BitVec 20) (m : Option (BitVec 20)), w.pfx = some ⟨pc, some h, m⟩ →
      w.immValue i = (BitVec.ofInt 32 (h.toNat * 2 ^ 12 + i.toInt)).signExtend 64) ∧
    (∀ (pc : DWord) (m : Option (BitVec 20)), w.pfx = some ⟨pc, none, m⟩ → w.immValue i = BitVec.ofInt 64 i.toInt) ∧
    (w.pfx = none → w.immValue i = BitVec.ofInt 64 i.toInt) ∧
    (∀ (v : Word) (pc : DWord) (m : Option (BitVec 20)),
      w.pfx = some ⟨pc, some (BitVec.ofNat 20 ((v.toNat + 0x800) / 2 ^ 12)), m⟩ →
      w.immValue (BitVec.ofNat 12 v.toNat) = v.signExtend 64)

/-- 06 R158: s0 reads zero and discards writes, m7 reads all ones and discards writes; any other scalar register or mask of
the wave holds what is written to it, and no other changes. -/
def Obligations.ScalarAndMaskRegisters : Prop :=
  ∀ (w : Wave) (n k : Nat) (v : DWord) (m : Word), w.sregs.length = 64 → w.masks.length = 8 →
    w.s 0 = 0#64 ∧ w.setS 0 v = w ∧ w.m 7 = 0xFFFFFFFF#32 ∧ w.setM 7 m = w ∧
    (n ≠ 0 → n < 64 → (w.setS n v).s n = v) ∧ (k ≠ n → (w.setS n v).s k = w.s k) ∧
    (n < 7 → (w.setM n m).m n = m) ∧ (k ≠ n → (w.setM n m).m k = w.m k)

/-! ### Branches, jumps, group registers -/

/-- 07 R187, R188, R189: where the branches and CALL go, and the link. The unassigned conditions, and BRA and CALL with MK not 0, are
no instruction. -/
def Obligations.BranchResults : Prop :=
  ∀ (s : State) (w : Wave) (sw : BitVec 1) (a : BitVec 6) (k : BitVec 3) (o : BitVec 18),
    let target := w.pc + BitVec.ofInt 64 (4 * o.toInt)
    let t := w.m k.toNat &&& w.m 0
    let r (taken : Bool) : State := s.afterWord sw (s.modWave s.cur (fun x =>
      if taken then { x with pc := target } else x.advance))
    s.Gives w (.bez sw a o) (r (w.s a.toNat == 0#64)) ∧
    s.Gives w (.bnez sw a o) (r (w.s a.toNat != 0#64)) ∧
    s.Gives w (.bra sw o) (r true) ∧
    s.Gives w (.bany sw k o) (r (t != 0#32)) ∧
    s.Gives w (.ball sw k o) (r (t == w.m 0)) ∧
    s.Gives w (.bnone sw k o) (r (t == 0#32)) ∧
    s.Gives w (.call sw o) (s.afterWord sw (s.modWave s.cur (fun _ => { w.setS 63 (w.pc + 4#64) with pc := target }))) ∧
    (∀ cond : BitVec 3, 5 ≤ cond.toNat ∨ ((cond = 0#3 ∨ cond = 4#3) ∧ k ≠ 0#3) → decode (sw ++ 0x6E#7 ++ k ++ cond ++ o) = none)

/-- 07 R190: JMPR, CALLR and RET go to the address in the register, computed before the link is written; a target that is not
a multiple of 4 traps MISALIGN with SR_TRAPADDR the target. RET with X or IMM12 not 0 is no instruction. -/
def Obligations.JumpResults : Prop :=
  ∀ (s : State) (w : Wave) (sw : BitVec 1) (x : BitVec 6) (i : BitVec 12),
    let target := w.s x.toNat + w.immValue i
    let go (y : Wave) (t : DWord) : State := s.afterWord sw (s.modWave s.cur (fun _ => { y with pc := t }))
    (target.toNat % 4 = 0 → s.Gives w (.jmpr sw x i) (go w target)) ∧
    (target.toNat % 4 = 0 → s.Gives w (.callr sw x i) (go (w.setS 63 (w.pc + 4#64)) target)) ∧
    ((w.s 63).toNat % 4 = 0 → s.Gives w (.ret sw) (go w (w.s 63))) ∧
    (target.toNat % 4 ≠ 0 → s.Gives w (.jmpr sw x i) (s.takeTrap s.cur (trapAt causeMisalign target) false)) ∧
    (target.toNat % 4 ≠ 0 → s.Gives w (.callr sw x i) (s.takeTrap s.cur (trapAt causeMisalign target) false)) ∧
    ((w.s 63).toNat % 4 ≠ 0 → s.Gives w (.ret sw) (s.takeTrap s.cur (trapAt causeMisalign (w.s 63)) false)) ∧
    (x ≠ 0#6 ∨ i ≠ 0#12 → decode (sw ++ 0x6F#7 ++ 2#6 ++ x ++ i) = none)

/-- 07 R185, R186: GRD returns the group register as a variable-latency result, GWR writes it at once, GADD adds to it and
returns what it held. -/
def Obligations.GroupRegisterResults : Prop :=
  ∀ (s : State) (w : Wave) (g : Group) (sw : BitVec 1) (d a : BitVec 6) (n : BitVec 8),
    s.groups[w.group]? = some g →
    let old := g.gregs.getD n.toNat 0#64
    s.Gives w (.grd sw d n) (s.became sw (w.addOut (.s d.toNat old))) ∧
    s.Gives w (.gwr sw a n) ((s.became sw w).modGroup w.group (fun x => x.setGreg n.toNat (w.s a.toNat))) ∧
    s.Gives w (.gadd sw d a n)
      ((s.became sw (w.addOut (.s d.toNat old))).modGroup w.group (fun x => x.setGreg n.toNat (old + w.s a.toNat)))

/-! ### Special registers, yielding, hints -/

/-- 07 R196, R197; 06 R160: SRD and SWR, and the value of every special register: the wave's index, its group's coordinates, extents
and size, the clock of the core that reads and its number, the accounting domain that CTX_CTL gives, SR_SNAP with SNAP_CUR in bit 1 and
SNAP_OVF in bit 0, SR_GOT of the running kernel's object. SR_TRAPPC takes bits [63:2], the W1C registers lose the bits that are 1. -/
def Obligations.SpecialRegisterResults : Prop :=
  ∀ (s : State) (w : Wave) (g : Group) (c : Ctx) (sw : BitVec 1) (x : BitVec 6) (i : BitVec 12),
    s.groups[w.group]? = some g → s.ctxs[w.ctx]? = some c →
    let v := w.s x.toNat
    s.Gives w (.srd sw x i) (s.became sw (w.setS x.toNat (s.specialReg w i))) ∧
    s.specialReg w 0x000#12 = (BitVec.ofNat 11 w.index).setWidth 64 ∧
    s.specialReg w 0x001#12 = (BitVec.ofNat 32 g.coord.1).setWidth 64 ∧
    s.specialReg w 0x002#12 = (BitVec.ofNat 32 g.coord.2.1).setWidth 64 ∧
    s.specialReg w 0x003#12 = (BitVec.ofNat 32 g.coord.2.2).setWidth 64 ∧
    s.specialReg w 0x004#12 = (BitVec.ofNat 32 g.extent.1).setWidth 64 ∧
    s.specialReg w 0x005#12 = (BitVec.ofNat 32 g.extent.2.1).setWidth 64 ∧
    s.specialReg w 0x006#12 = (BitVec.ofNat 32 g.extent.2.2).setWidth 64 ∧
    s.specialReg w 0x007#12 = (BitVec.ofNat 2 w.stage).setWidth 64 ∧
    s.specialReg w 0x008#12 = (BitVec.ofNat 12 g.waves.length).setWidth 64 ∧
    s.specialReg w 0x010#12 = BitVec.ofNat 64 (s.coreClock w.core) ∧
    s.specialReg w 0x011#12 = (BitVec.ofNat 8 w.core).setWidth 64 ∧
    s.specialReg w 0x012#12 = (c.act.ctl.extractLsb' 0 6).setWidth 64 ∧
    s.specialReg w 0x020#12 = w.acqCnt ++ w.relCnt ∧
    (∀ k, (s.specialReg w 0x021#12).getLsbD k = (k == 1 && w.snapCur || k == 0 && w.snapOvf)) ∧
    s.specialReg w 0x022#12 = w.fpflags.setWidth 64 ∧
    s.specialReg w 0x030#12 = w.trapCause.setWidth 64 ∧
    s.specialReg w 0x031#12 = w.trapPc ∧
    s.specialReg w 0x032#12 = w.trapAddr ∧
    s.specialReg w 0x040#12 = 0xFF00000000000000#64 ∧
    s.specialReg w 0x041#12 = 0xFF00000000200000#64 ∧
    s.specialReg w 0x042#12 = g.got ∧
    s.Gives w (.swr sw x 0x021#12) (s.became sw { w with snapOvf := w.snapOvf && !v.getLsbD 0 }) ∧
    s.Gives w (.swr sw x 0x022#12) (s.became sw { w with fpflags := w.fpflags &&& ~~~(v.extractLsb' 0 6) }) ∧
    s.Gives w (.swr sw x 0x031#12) (s.became sw { w with trapPc := v &&& 0xFFFFFFFFFFFFFFFC#64 })

/-- 07 R193, R198; 06 R168, R169: YIELD makes the wave the youngest of its core, FENCE.I drops the context's lines of the
core's instruction cache, HINT.SCHED delays the wave, IPREF fills the lines it names; each goes on to the next word. -/
def Obligations.SchedulingResults : Prop :=
  ∀ (s : State) (w : Wave) (c : Core) (sw : BitVec 1) (n : BitVec 4) (m : BitVec 2) (o : BitVec 18),
    s.cores[w.core]? = some c →
    s.Gives w (.yield sw) ((s.became sw { w with age := c.ageSeq }).modCore w.core (fun k => { k with ageSeq := k.ageSeq + 1 })) ∧
    s.Gives w (.fenceI sw) ((s.became sw w).modCore w.core (fun k => { k with
      icache := k.icache.filter (fun l => l.ctx != w.ctx) })) ∧
    s.Gives w (.hintSched sw n) (s.became sw { w with
      delayUntil := if n = 0#4 then none else some (s.coreClock w.core + n.toNat) }) ∧
    s.Gives w (.ipref sw m o) (s.afterWord sw (((iprefLines w m o).foldl (fun t va => t.prefetchLine w va) s).advance s.cur))

/-- 06 R165: a prefix word opens a group of words at its own address or joins the group that is open, and only moves on; a
second prefix of one kind traps ILLEGAL with that word in SR_TRAPADDR, and so does any prefix word in a group that holds one of each kind. -/
def Obligations.PrefixResults : Prop :=
  ∀ (s : State) (w : Wave) (p : BitVec 20) (v : BitVec 1) (m : BitVec 2) (t z e cv : BitVec 1) (c : BitVec 8),
    s.waves[s.cur]? = some w →
    let q : BitVec 20 := v ++ m ++ t ++ z ++ e ++ cv ++ c ++ 0#5
    let imm : Instr := .hintImm p
    let mod : Instr := .hintMod v m t z e cv c
    let on (x : Pfx) (k : Bool) : State := s.modWave s.cur (fun _ => { w.advance with pfx := some x, marked := k })
    (w.pfx = none → exec imm s = .next (on ⟨w.pc, some p, none⟩ false) ∧ exec mod s = .next (on ⟨w.pc, none, some q⟩ false)) ∧
    (∀ pc y, w.pfx = some ⟨pc, none, some y⟩ → exec imm s = .next (on ⟨pc, some p, some y⟩ w.marked) ∧
      exec mod s = .next (s.takeTrap s.cur (trapAt causeIllegal (wordAddr mod)) false)) ∧
    (∀ pc y, w.pfx = some ⟨pc, some y, none⟩ → exec mod s = .next (on ⟨pc, some y, some q⟩ w.marked) ∧
      exec imm s = .next (s.takeTrap s.cur (trapAt causeIllegal (wordAddr imm)) false)) ∧
    (∀ pc y x, w.pfx = some ⟨pc, some y, some x⟩ →
      exec imm s = .next (s.takeTrap s.cur (trapAt causeIllegal (wordAddr imm)) false) ∧
      exec mod s = .next (s.takeTrap s.cur (trapAt causeIllegal (wordAddr mod)) false))

/-! ### Results of vector words -/

/-- 08 R205, R206: what a lane function leaves of its destination and of the rest of the wave. An inactive lane keeps its
bits, an active lane takes its result, the side-band and the format become none when a lane is active, with an empty mask
nothing at all is written. -/
def Obligations.LaneRule : Prop :=
  ∀ (w : Wave) (d : Nat) (g : Nat → Word × Flags), d < w.vregs.length →
    let x := w.laneResult d g
    (∀ l, l < 32 → x.v d l = if w.active l then (g l).1 else w.v d l) ∧
    (∀ n, n ≠ d → x.vreg n = w.vreg n) ∧
    (w.m 0 ≠ 0#32 → (x.vreg d).side = Side.none) ∧
    (w.m 0 = 0#32 → x.vreg d = w.vreg d ∧ x.fpflags = w.fpflags) ∧
    (∀ k, x.fpflags.getLsbD k = true ↔
      w.fpflags.getLsbD k = true ∨ ∃ l, l < 32 ∧ w.active l = true ∧ (g l).2.getLsbD k = true)

/-- 08 R208: the 32-bit integer and bit forms, lane by lane. The signed sums, differences and products are the exact whole
numbers, narrowed by 01 R16 as the group of words asks (SAT or not). -/
def Obligations.VectorIntegerResults : Prop :=
  ∀ (s : State) (w : Wave) (sw : BitVec 1) (d a b : BitVec 8),
    let x (l : Nat) : Word := w.v a.toNat l
    let y (l : Nat) : Word := w.v b.toNat l
    let r (g : Nat → Word) : State := s.became sw (w.laneResult d.toNat (fun l => (g l, flagNone)))
    let ri (g : Nat → Int) : State := s.became sw (w.laneResult d.toNat (fun l => signedResult 32 w.modes.sat (g l)))
    s.Gives w (.vaddI32 sw d a b) (ri (fun l => (x l).toInt + (y l).toInt)) ∧
    s.Gives w (.vsubI32 sw d a b) (ri (fun l => (x l).toInt - (y l).toInt)) ∧
    s.Gives w (.vmulI32 sw d a b) (ri (fun l => (x l).toInt * (y l).toInt)) ∧
    s.Gives w (.vmulhI32 sw d a b) (r (fun l => BitVec.ofInt 32 ((x l).toInt * (y l).toInt / 2 ^ 32))) ∧
    s.Gives w (.vmulhuI32 sw d a b) (r (fun l => BitVec.ofNat 32 ((x l).toNat * (y l).toNat / 2 ^ 32))) ∧
    s.Gives w (.vminI32 sw d a b) (r (fun l => if (y l).toInt < (x l).toInt then y l else x l)) ∧
    s.Gives w (.vmaxI32 sw d a b) (r (fun l => if (x l).toInt < (y l).toInt then y l else x l)) ∧
    s.Gives w (.vminuI32 sw d a b) (r (fun l => if (y l).toNat < (x l).toNat then y l else x l)) ∧
    s.Gives w (.vmaxuI32 sw d a b) (r (fun l => if (x l).toNat < (y l).toNat then y l else x l)) ∧
    s.Gives w (.vand sw d a b) (r (fun l => x l &&& y l)) ∧
    s.Gives w (.vor sw d a b) (r (fun l => x l ||| y l)) ∧
    s.Gives w (.vxor sw d a b) (r (fun l => x l ^^^ y l)) ∧
    s.Gives w (.vshl sw d a b) (r (fun l => x l <<< ((y l).toNat % 32))) ∧
    s.Gives w (.vshr sw d a b) (r (fun l => x l >>> ((y l).toNat % 32))) ∧
    s.Gives w (.vsar sw d a b) (r (fun l => (x l).sshiftRight ((y l).toNat % 32))) ∧
    s.Gives w (.vpopc sw d a) (r (fun l => BitVec.ofNat 32 ((List.range 32).countP (fun k => (x l).getLsbD k)))) ∧
    s.Gives w (.vclz sw d a) (r (fun l => BitVec.ofNat 32 (leadZeros (x l) 32))) ∧
    s.Gives w (.vsel sw d a b) (r (fun l => if (w.m 1).getLsbD l then x l else y l)) ∧
    s.Gives w (.vmov sw d a) (s.became sw (w.writeLanes d.toNat (w.m 0) (w.vreg a.toNat).side x))

/-- 08 R209, R210: the FP32 forms, lane by lane: one exact operation of 01 on the sources after flushing, one rounding to
FP32; the fused form takes its addend from C with CV and from the destination without. The first clauses say what the rounding is (01 R21 to
R27; 08 R207): a non-zero value becomes the multiple of the step of its place that the mode names, read back exactly by the encoding, with NX
when it differs, and UF when it was below the smallest normal; beyond the largest finite value, what R24 or, under SAT, R25 gives; the rows of
zeros, infinities and NaN; and FTZ's flush of a source and of a result. -/
def Obligations.VectorFloatResults : Prop :=
  (∀ (f : FloatFmt) (mode : RoundMode) (sat neg : Bool) (m : Nat) (e : Int),
    f ∈ [FloatFmt.fp32, .bf16, .fp16, .e4m3, .e5m2, .e2m1, .fp64] →
    let low : Int := 1 - (f.bias : Int) - f.frac
    let top : Int := (Nat.log2 m : Int) + e
    let q : Int := max (top - f.frac) low
    let num : Nat := m * 2 ^ (e - q).toNat
    let den : Nat := 2 ^ (q - e).toNat
    let rest := num % den
    let up : Bool := match mode with
      | .rne => decide (den < 2 * rest) || (decide (2 * rest = den) && decide (num / den % 2 = 1))
      | .rtz => false
      | .rdn => neg && decide (rest ≠ 0)
      | .rup => !neg && decide (rest ≠ 0)
    let n := if up then num / den + 1 else num / den
    let tooBig : Prop := f.maxMag < n + (q - low).toNat * 2 ^ f.frac
    let r := roundTo f mode sat (.fin neg m e)
    let max := f.signed neg f.maxMag
    (0 < m → ¬ tooBig →
      decodeFloat f r.1 = (if n = 2 ^ (f.frac + 1) then .fin neg (2 ^ f.frac) (q + 1) else .fin neg n q) ∧
      r.2 = (if rest = 0 then flagNone else if top < 1 - (f.bias : Int) then flagNX ||| flagUF else flagNX)) ∧
    (0 < m → tooBig → sat = true → r = (max, flagSA ||| flagNX)) ∧
    (0 < m → tooBig → sat = false → r.2 = flagOF ||| flagNX ∧
      r.1 = (if mode = .rtz ∨ (mode = .rdn ∧ neg = false) ∨ (mode = .rup ∧ neg = true) then max
        else if f.hasInf then f.signed neg (f.maxMag + 1) else f.canonNaN.getD max)) ∧
    roundTo f mode sat (.fin neg 0 e) = (f.signed neg 0, flagNone) ∧
    roundTo f mode sat (.inf neg) = (if sat then (max, flagSA) else if f.hasInf then (f.signed neg (f.maxMag + 1), flagNone)
      else match f.canonNaN with
        | some c => (c, flagNone)
        | none => (max, flagNV)) ∧
    roundTo f mode sat .nan = (match f.canonNaN with
      | some c => (c, flagNone)
      | none => (0, flagNV))) ∧
  (∀ (f : ElemFmt) (l : FloatFmt) (md : Modes) (x : Machine.Num) (fl : Flags) (b : Nat), f.float? = some l →
    let flushes : Bool := md.ftz && (f == .fp32 || f == .bf16 || f == .fp16)
    let small (c : Nat) : Bool := decide (0 < c % l.signBit) && decide (c % l.signBit < 2 ^ l.frac)
    let zero (c : Nat) : Nat := l.signed (decide (c / l.signBit % 2 = 1)) 0
    let r := roundTo l (md.mode.getD .rne) md.sat x
    srcNum f md b = decodeFloat l (if flushes && small b then zero b else b) ∧
    fpResult f md (x, fl) = if flushes && small r.1 then (zero r.1, fl ||| (r.2 ||| flagUF ||| flagNX)) else (r.1, fl ||| r.2)) ∧
  ∀ (s : State) (w : Wave) (sw : BitVec 1) (d a b : BitVec 8),
    let x (l : Nat) : Machine.Num := srcNum .fp32 w.modes (w.v a.toNat l).toNat
    let y (l : Nat) : Machine.Num := srcNum .fp32 w.modes (w.v b.toNat l).toNat
    let z (l : Nat) : Machine.Num := srcNum .fp32 w.modes (w.v (if w.cv then w.cReg else d.toNat) l).toNat
    let p (l : Nat) : Word := BitVec.ofNat 32 (flushSource .fp32 w.modes.ftz (w.v a.toNat l).toNat)
    let q (l : Nat) : Word := BitVec.ofNat 32 (flushSource .fp32 w.modes.ftz (w.v b.toNat l).toNat)
    let lanes (g : Nat → Word × Flags) : State := s.became sw (w.laneResult d.toNat g)
    let r (g : Nat → Machine.Num × Flags) : State := lanes (fun l =>
      (BitVec.ofNat 32 (fpResult .fp32 w.modes (g l)).1, (fpResult .fp32 w.modes (g l)).2))
    s.Gives w (.vaddF32 sw d a b) (r (fun l => Machine.Num.add w.modes.round (x l) (y l))) ∧
    s.Gives w (.vsubF32 sw d a b) (r (fun l => Machine.Num.add w.modes.round (x l) (y l).negate)) ∧
    s.Gives w (.vmulF32 sw d a b) (r (fun l => Machine.Num.mul (x l) (y l))) ∧
    s.Gives w (.vfmaF32 sw d a b) (r (fun l => Machine.Num.fma w.modes.round (x l) (y l) (z l))) ∧
    s.Gives w (.vminF32 sw d a b) (lanes (fun l => (fpMin (p l) (q l), flagNone))) ∧
    s.Gives w (.vmaxF32 sw d a b) (lanes (fun l => (fpMax (p l) (q l), flagNone))) ∧
    s.Gives w (.vabsF32 sw d a) (lanes (fun l => (p l &&& 0x7FFFFFFF#32, flagNone))) ∧
    s.Gives w (.vnegF32 sw d a) (lanes (fun l => (p l ^^^ 0x80000000#32, flagNone)))

/-- 08 R211, R212, R213; 01 R31, R36: the packed forms work on each sub-element of a lane alone, and raise the flags of each; the dot products
sum the products of a lane onto an FP32 or integer addend, in ascending order, each product and sum rounded once. -/
def Obligations.VectorPackedResults : Prop :=
  (∀ (w : Wave) (f : ElemFmt) (g : RoundMode → Machine.Num → Machine.Num → Machine.Num × Flags) (x y z : Word) (j : Nat),
    f ∈ [ElemFmt.bf16, .fp16, .e4m3, .e5m2] → j < 32 / f.width →
    let part (v : Word) (k : Nat) : Nat := v.toNat / 2 ^ (f.width * k) % 2 ^ f.width
    let src (v : Word) (k : Nat) : Machine.Num := srcNum f w.modes (part v k)
    let two (k : Nat) : Nat × Flags := fpResult f w.modes (g w.modes.round (src x k) (src y k))
    let three (k : Nat) : Nat × Flags := fpResult f w.modes (Machine.Num.fma w.modes.round (src x k) (src y k) (src z k))
    let raised (h : Nat → Nat × Flags) : Flags := (List.range (32 / f.width)).foldl (fun a k => a ||| (h k).2) flagNone
    part (packFp f w g x y).1 j = (two j).1 ∧ (packFp f w g x y).2 = raised two ∧
    part (packFma f w x y z).1 j = (three j).1 ∧ (packFma f w x y z).2 = raised three) ∧
  (∀ (w : Wave) (signed : Bool) (g : Int → Int → Int) (x y : Word) (j : Nat), j < 4 →
    let part (v : Word) (k : Nat) : Nat := v.toNat / 2 ^ (8 * k) % 256
    let value (n : Nat) : Int := if signed ∧ 128 ≤ n then (n : Int) - 256 else n
    let exact (k : Nat) : Int := g (value (part x k)) (value (part y k))
    let lo : Int := if signed then -128 else 0
    let hi : Int := if signed then 127 else 255
    let r : Int := if w.modes.sat then max lo (min hi (exact j)) else exact j
    part (packInt signed w g x y).1 j = (r % 256).toNat ∧
    (w.modes.sat = false ∨ (∀ k, k < 4 → lo ≤ exact k ∧ exact k ≤ hi) → (packInt signed w g x y).2 = flagNone) ∧
    (w.modes.sat = true → (∃ k, k < 4 ∧ (exact k < lo ∨ hi < exact k)) → (packInt signed w g x y).2 = flagSA)) ∧
  (∀ (f : ElemFmt) (x y c : Word),
    let at_ (v : Word) (k : Nat) : Machine.Num := srcNum f Modes.default (v.toNat / 2 ^ (f.width * k) % 2 ^ f.width)
    let step (a : Nat × Flags) (k : Nat) : Nat × Flags :=
      let n := Machine.Num.fma .rne (at_ x k) (at_ y k) (decodeFloat .fp32 a.1)
      let r := roundTo .fp32 .rne false n.1
      (r.1, a.2 ||| (n.2 ||| r.2))
    let total := (List.range (32 / f.width)).foldl step (c.toNat, flagNone)
    dotLane f x y c = (BitVec.ofNat 32 total.1, total.2)) ∧
  ∀ (s : State) (w : Wave) (sw : BitVec 1) (d a b : BitVec 8),
    let r (g : Word → Word → Word × Flags) : State := s.became sw (w.laneResult d.toNat (fun l => g (w.v a.toNat l) (w.v b.toNat l)))
    let rc (g : Word → Word → Word → Word × Flags) : State := s.became sw (w.laneResult d.toNat (fun l =>
      g (w.v a.toNat l) (w.v b.toNat l) (w.v (if w.cv then w.cReg else d.toNat) l)))
    let f8 : ElemFmt := if w.f8sel then .e5m2 else .e4m3
    s.Gives w (.vaddBf16x2 sw d a b) (r (packFp .bf16 w Machine.Num.add)) ∧
    s.Gives w (.vmulBf16x2 sw d a b) (r (packFp .bf16 w (fun _ => Machine.Num.mul))) ∧
    s.Gives w (.vfmaBf16x2 sw d a b) (rc (packFma .bf16 w)) ∧
    s.Gives w (.vaddFp16x2 sw d a b) (r (packFp .fp16 w Machine.Num.add)) ∧
    s.Gives w (.vmulFp16x2 sw d a b) (r (packFp .fp16 w (fun _ => Machine.Num.mul))) ∧
    s.Gives w (.vfmaFp16x2 sw d a b) (rc (packFma .fp16 w)) ∧
    s.Gives w (.vaddE4m3x4 sw d a b) (r (packFp f8 w Machine.Num.add)) ∧
    s.Gives w (.vmulE4m3x4 sw d a b) (r (packFp f8 w (fun _ => Machine.Num.mul))) ∧
    s.Gives w (.vaddInt8x4 sw d a b) (r (packInt true w (· + ·))) ∧
    s.Gives w (.vsubInt8x4 sw d a b) (r (packInt true w (· - ·))) ∧
    s.Gives w (.vaddUint8x4 sw d a b) (r (packInt false w (· + ·))) ∧
    s.Gives w (.vsubUint8x4 sw d a b) (r (packInt false w (· - ·))) ∧
    s.Gives w (.vdot2Bf16 sw d a b) (rc (dotLane .bf16)) ∧
    s.Gives w (.vdot2Fp16 sw d a b) (rc (dotLane .fp16)) ∧
    s.Gives w (.vdot4E4m3 sw d a b) (rc (dotLane f8)) ∧
    s.Gives w (.vdot4Int8 sw d a b) (rc (fun x y z => signedResult 32 w.modes.sat
      (z.toInt + decodeInt .int8 (x.toNat % 256) * decodeInt .int8 (y.toNat % 256) +
        decodeInt .int8 (x.toNat / 256 % 256) * decodeInt .int8 (y.toNat / 256 % 256) +
        decodeInt .int8 (x.toNat / 65536 % 256) * decodeInt .int8 (y.toNat / 65536 % 256) +
        decodeInt .int8 (x.toNat / 16777216 % 256) * decodeInt .int8 (y.toNat / 16777216 % 256))))

/-- 08 R214 to R220: the conversions, the block forms, and the special functions, whose lanes are a variable-latency result. The clauses rest
on choices of the model: a special function's flags enter SR_FPFLAGS when it issues (log 78), its exact value is a numeral of 512 fraction
bits (log 16), a pair of integer formats of one width converts by log 14, SAT and the flags of widening and integer results are those
of log 15, and UF of an element of a block is that of log 28. The first clauses say what a conversion gives (01 R32 to R34) and what a
block of 32 values becomes (01 R35). -/
def Obligations.VectorConversionResults : Prop :=
  (∀ (d f : ElemFmt) (md : Modes) (b : Nat),
    let r := convert d f md b
    let v := decodeInt f b
    let low : Int := 2 ^ d.width
    (f.isInt = true → d.isInt = true →
      (f.width < d.width ∨ md.sat = false → r = ((v % low).toNat, flagNone)) ∧
      (d.width ≤ f.width → md.sat = true →
        r = ((max d.intLo (min d.intHi v) % low).toNat, if d.intLo ≤ v ∧ v ≤ d.intHi then flagNone else flagSA))) ∧
    (f.isInt = true → d.isInt = false → r = fpResult d md (.fin (decide (v < 0)) v.natAbs 0, flagNone)) ∧
    (f.isInt = false → d.isInt = true →
      (srcNum f md b = .nan → r = (0, flagNV)) ∧
      (∀ neg, srcNum f md b = .inf neg → r = (((if neg then d.intLo else d.intHi) % low).toNat, flagNV)) ∧
      (∀ neg m e, srcNum f md b = .fin neg m e →
        let num : Nat := m * 2 ^ e.toNat
        let den : Nat := 2 ^ (-e).toNat
        let up : Bool := match md.mode.getD .rtz with
          | .rne => decide (den < 2 * (num % den)) || (decide (2 * (num % den) = den) && decide (num / den % 2 = 1))
          | .rtz => false
          | .rdn => neg && decide (num % den ≠ 0)
          | .rup => !neg && decide (num % den ≠ 0)
        let k : Nat := if up then num / den + 1 else num / den
        let y : Int := if neg then -(k : Int) else k
        r = if y < d.intLo then ((d.intLo % low).toNat, flagNV) else if d.intHi < y then ((d.intHi % low).toNat, flagNV)
          else ((y % low).toNat, if num % den = 0 then flagNone else flagNX))) ∧
    (f.isInt = false → d.isInt = false →
      let wider : Prop := (d = .fp32 ∧ (f = .bf16 ∨ f = .fp16)) ∨ ((d = .fp32 ∨ d = .fp16 ∨ d = .bf16) ∧ (f = .e4m3 ∨ f = .e5m2))
      (wider → r = fpResult d { md with sat := false } (srcNum f md b, flagNone)) ∧
      (¬ wider → r = fpResult d md (srcNum f md b, flagNone)))) ∧
  (∀ (f : ElemFmt) (mode : RoundMode) (xs : List Machine.Num),
    let q := quantBlock f mode xs
    let clamp (v : Int) : Int := max 0 (min 254 v)
    ((∃ x ∈ xs, x.isFin = false) → q.2.1 = List.replicate f.scaleBytes 0xFF ∧ q.2.2 = flagNone ∧
      q.1 = xs.map (fun x => if x.neg then (match f with | .dx8 => 0x40 | .dx4 => 0x4 | .mxfp4 => 0x8 | _ => 0x80) else 0)) ∧
    ((∀ x ∈ xs, x.isFin = true) →
      (∀ l : FloatFmt, (f, l) ∈ [(ElemFmt.mxe4m3, FloatFmt.e4m3), (.mxe5m2, .e5m2), (.mxfp4, .e2m1)] →
        let emax : Int := if f = .mxe4m3 then 8 else if f = .mxe5m2 then 15 else 2
        ∃ sc : Nat, q.2.1 = [sc] ∧ q.1 = xs.map (fun x => (roundTo l mode true (x.scale (127 - (sc : Int)))).1) ∧
          q.2.2 = xs.foldl (fun a x => a ||| (roundTo l mode true (x.scale (127 - (sc : Int)))).2) flagNone ∧
          ((∀ x ∈ xs, x.log2? = none) → sc = 0) ∧
          (∀ t : Int, (∃ x ∈ xs, x.log2? = some t) → (∀ x ∈ xs, ∀ u, x.log2? = some u → u ≤ t) → (sc : Int) = clamp (t - emax + 127))) ∧
      (f = .dx8 ∨ f = .dx4 →
        ∃ ea : Nat,
          let one (x : Machine.Num) : Nat × Flags := quantDx (decide (f = .dx8)) mode ea (ea - (if f = .dx8 then 5 else 2)) x
          q.2.1 = [ea, ea - (if f = .dx8 then 5 else 2)] ∧ q.1 = xs.map (fun x => (one x).1) ∧
          q.2.2 = xs.foldl (fun a x => a ||| (one x).2) flagNone ∧
          ((∀ x ∈ xs, x.log2? = none) → ea = 0) ∧
          (∀ t : Int, (∃ x ∈ xs, x.log2? = some t) → (∀ x ∈ xs, ∀ u, x.log2? = some u → u ≤ t) → (ea : Int) = clamp (t + 127))))) ∧
  (∀ (dx8 neg : Bool) (mode : RoundMode) (ea eb m : Nat) (e : Int),
    let top : Nat := if dx8 then 63 else 3
    let sel : Nat := if dx8 then 128 else 8
    let sign : Nat := if neg then sel / 2 else 0
    let rounded (sc : Nat) : Nat × Bool := roundMag mode.near (decide (mode = .rup)) m (e + (if dx8 then 5 else 1) - ((sc : Int) - 127)) 0
    let z := quantDx dx8 mode ea eb (.fin neg m e)
    ((rounded eb).1 ≤ top → z = (sel + sign + (rounded eb).1, if (rounded eb).2 then flagNX else flagNone)) ∧
    (top < (rounded eb).1 → (rounded ea).1 ≤ top → z = (sign + (rounded ea).1, if (rounded ea).2 then flagNX else flagNone)) ∧
    (top < (rounded eb).1 → top < (rounded ea).1 → z = (sign + top, flagSA ||| flagNX))) ∧
  ∀ (s : State) (w : Wave) (sw : BitVec 1) (d a : BitVec 8) (f g : BitVec 4),
    let one (l : Nat) : Word × Flags :=
      let c := convert (fmtOf f) (fmtOf g) w.modes ((w.v a.toNat l).toNat % 2 ^ (fmtOf g).width)
      (BitVec.ofNat 32 c.1, c.2)
    let blocks := quantLine (fmtOf f) w.modes.round ((List.range (blockRegs f)).map (fun b => (List.range 32).map (fun l =>
      decodeFloat .fp32 (w.v (a.toNat + b) l).toNat)))
    let special (h : Machine.Num → Machine.Num × Flags) : State :=
      let v (l : Nat) : Nat × Flags := fpResult .fp32 w.modes (h (srcNum .fp32 w.modes (w.v a.toNat l).toNat))
      s.became sw ((w.addOut (.v d.toNat (w.m 0) (mergeLanes (w.m 0) 0#1024 (fun l => BitVec.ofNat 32 (v l).1) 32)
        Side.none)).orFlags (laneFlags (w.m 0) (fun l => (v l).2) 32))
    s.Gives w (.vcvt sw d a f g) (s.became sw (w.laneResult d.toNat one)) ∧
    s.Gives w (.vcvtpk sw d a f g) (s.became sw (w.laneResult d.toNat (fun l =>
      packWord (fmtOf f).width (32 / (fmtOf f).width) (fun j =>
        convert (fmtOf f) (fmtOf g) w.modes (subElem (w.v (a.toNat + j / (32 / (fmtOf g).width)) l) (fmtOf g).width
          (j % (32 / (fmtOf g).width))))))) ∧
    s.Gives w (.vcvtxp sw d a f g) (s.became sw (unpackRegs w d a (fmtOf f) (fmtOf g) (unpackCount f g) w)) ∧
    (w.m 0 = 0#32 → s.Gives w (.vqblk sw d a f) (s.became sw w)) ∧
    (w.m 0 ≠ 0#32 → s.Gives w (.vqblk sw d a f) (s.became sw
      ((w.writeLanes d.toNat (w.m 0) ⟨bandOf blocks.2.1, some f⟩
        (laneOf (BitVec.ofNat 1024 (packElems (fmtOf f).width blocks.1)))).orFlags blocks.2.2))) ∧
    s.Gives w (.vdqblk sw d a f) (s.became sw (dequantRegs (w.vreg a.toNat) (fmtOf f) d (blockRegs f) w)) ∧
    s.Gives w (.vrcp sw d a) (special rcpNum) ∧
    s.Gives w (.vrsq sw d a) (special rsqNum) ∧
    s.Gives w (.vsqrt sw d a) (special sqrtNum) ∧
    s.Gives w (.vexp2 sw d a) (special exp2Num) ∧
    s.Gives w (.vlog2 sw d a) (special log2Num) ∧
    s.Gives w (.vsinpi sw d a) (special sinpiNum) ∧
    s.Gives w (.vcospi sw d a) (special cospiNum)

/-! ### Results of mask and cross-lane words -/

/-- 08 R221: a comparison leaves in its mask, at each active lane, whether the condition holds there, and at every other lane
what the mask held; a comparison into m7 writes nothing. -/
def Obligations.CompareResults : Prop :=
  ∀ (s : State) (w : Wave) (sw : BitVec 1) (m : BitVec 3) (a b : BitVec 8),
    let x (l : Nat) : Word := w.v a.toNat l
    let y (l : Nat) : Word := w.v b.toNat l
    let writes (i : Instr) (c : Nat → Bool) : Prop := ∃ v : Word,
      (∀ l, l < 32 → v.getLsbD l = if w.active l then c l else (w.m m.toNat).getLsbD l) ∧
      s.Gives w i (s.became sw (w.setM m.toNat v))
    writes (.vcmpEqI32 sw m a b) (fun l => x l == y l) ∧
    writes (.vcmpNeI32 sw m a b) (fun l => x l != y l) ∧
    writes (.vcmpLtI32 sw m a b) (fun l => decide ((x l).toInt < (y l).toInt)) ∧
    writes (.vcmpLeI32 sw m a b) (fun l => decide ((x l).toInt ≤ (y l).toInt)) ∧
    writes (.vcmpLtuI32 sw m a b) (fun l => decide ((x l).toNat < (y l).toNat)) ∧
    writes (.vcmpLeuI32 sw m a b) (fun l => decide ((x l).toNat ≤ (y l).toNat)) ∧
    writes (.vcmpEqF32 sw m a b) (fun l => fpEq (x l) (y l)) ∧
    writes (.vcmpNeF32 sw m a b) (fun l => !fpEq (x l) (y l)) ∧
    writes (.vcmpLtF32 sw m a b) (fun l => fpLt (x l) (y l)) ∧
    writes (.vcmpLeF32 sw m a b) (fun l => fpLe (x l) (y l)) ∧
    writes (.vcmpUnF32 sw m a b) (fun l => fpUnordered (x l) (y l))

/-- 08 R222: the whole-mask forms act on all 32 bits whatever m0 holds. The unassigned sub-codes, and a field that must be zero and is
not, are no instruction. -/
def Obligations.MaskResults : Prop :=
  ∀ (s : State) (w : Wave) (sw : BitVec 1) (d a b : BitVec 3) (n : BitVec 6),
    let x := w.m a.toNat
    let y := w.m b.toNat
    let r (v : Word) : State := s.became sw (w.setM d.toNat v)
    let rs (v : DWord) : State := s.became sw (w.setS n.toNat v)
    s.Gives w (.mand sw d a b) (r (x &&& y)) ∧
    s.Gives w (.mor sw d a b) (r (x ||| y)) ∧
    s.Gives w (.mxor sw d a b) (r (x ^^^ y)) ∧
    s.Gives w (.mandn sw d a b) (r (x &&& ~~~y)) ∧
    s.Gives w (.mnot sw d a) (r (~~~x)) ∧
    s.Gives w (.mfroms sw d n) (r ((w.s n.toNat).setWidth 32)) ∧
    s.Gives w (.mtos sw a n) (rs (x.setWidth 64)) ∧
    s.Gives w (.mpopc sw a n) (rs (BitVec.ofNat 64 ((List.range 32).countP (fun k => x.getLsbD k)))) ∧
    (∃ k, k ≤ 32 ∧ (∀ j, j < k → x.getLsbD j = false) ∧ (k < 32 → x.getLsbD k = true) ∧
      s.Gives w (.mffs sw a n) (rs (BitVec.ofNat 64 k))) ∧
    (∀ (sub : BitVec 5) (z : BitVec 4),
      9 ≤ sub.toNat ∨ z ≠ 0#4 ∨ (sub.toNat ≤ 4 ∧ n ≠ 0#6) ∨ ((sub = 4#5 ∨ sub = 5#5) ∧ b ≠ 0#3) ∨ (sub = 5#5 ∧ a ≠ 0#3) ∨
        (6 ≤ sub.toNat ∧ (d ≠ 0#3 ∨ b ≠ 0#3)) →
      decode (sw ++ 0x71#7 ++ sub ++ d ++ a ++ b ++ n ++ z) = none)

/-- 08 R223 to R226: shuffles, matches, reductions, scans and lane moves. A reduction gives every active lane the last value
of the accumulation over the active lanes in ascending order, a scan the value at its place: for the integer sums, the sum modulo
2^32 of the active source lanes, of all of them and of those up to the lane. It is so for each operation of these forms: the accumulation begins
with the first active lane's own value and takes in the others one by one. That VWRLANE to an inactive lane leaves the side-band as it was
is the model's choice (log 78; 08 R206 leaves it open). -/
def Obligations.CrossLaneResults : Prop :=
  ∀ (s : State) (w : Wave) (sw : BitVec 1) (d a : BitVec 8) (k : BitVec 3) (p q : BitVec 6),
    let r (g : Nat → Word) : State := s.became sw (w.laneResult d.toNat (fun l => (g l, flagNone)))
    let n := (w.s q.toNat).toNat % 32
    let red (op : Word → Word → Word × Flags) : State := s.became sw (reduce d a op w)
    let scn (op : Word → Word → Word × Flags) : State := s.became sw (scan d a op w)
    s.Gives w (.vshfl sw d a k) (r (fun l =>
      if (w.v d.toNat l).toNat < 32 ∧ (w.m k.toNat).getLsbD (w.v d.toNat l).toNat = true then
        w.v a.toNat (w.v d.toNat l).toNat else w.v a.toNat l)) ∧
    s.Gives w (.vmatch sw d a) (r (fun l => cmpBits (w.m 0) 0#32 (fun j => w.v a.toNat j == w.v a.toNat l) 32)) ∧
    s.Gives w (.vmatchF sw d a) (r (fun l =>
      cmpBits (w.m 0) 0#32 (fun j => j == l || fpEq (w.v a.toNat j) (w.v a.toNat l)) 32)) ∧
    s.Gives w (.vreduceAddF32 sw d a) (red addStep) ∧
    s.Gives w (.vreduceAddI32 sw d a) (red (plainStep (· + ·))) ∧
    s.Gives w (.vreduceMinF32 sw d a) (red (plainStep fpMin)) ∧
    s.Gives w (.vreduceMaxF32 sw d a) (red (plainStep fpMax)) ∧
    s.Gives w (.vreduceMinI32 sw d a) (red (plainStep minS)) ∧
    s.Gives w (.vreduceMaxI32 sw d a) (red (plainStep maxS)) ∧
    s.Gives w (.vscanAddF32 sw d a) (scn addStep) ∧
    s.Gives w (.vscanAddI32 sw d a) (scn (plainStep (· + ·))) ∧
    s.Gives w (.vmovs sw d p) (r (fun _ => (w.s p.toNat).setWidth 32)) ∧
    s.Gives w (.vrdlane sw d p q) (s.became sw (w.setS p.toNat ((w.v d.toNat n).setWidth 64))) ∧
    s.Gives w (.vwrlane sw d p q) (s.became sw
      (if w.active n then w.writeLanes d.toNat (1#32 <<< n) Side.none (fun _ => (w.s p.toNat).setWidth 32) else w)) ∧
    s.Gives w (.vlaneid sw d) (r (fun l => BitVec.ofNat 32 l)) ∧
    (∀ l, d.toNat < w.vregs.length → l < 32 → w.active l = true →
      let sum (ls : List Nat) : Word := (ls.map (w.v a.toNat)).foldl (· + ·) 0#32
      (reduce d a (plainStep (· + ·)) w).v d.toNat l = sum w.activeLanes ∧
      (scan d a (plainStep (· + ·)) w).v d.toNat l = sum (w.activeLanes.filter (fun j => decide (j ≤ l)))) ∧
    (∀ (op : Word → Word → Word × Flags) (first : Nat) (rest : List Nat), d.toNat < w.vregs.length → w.activeLanes = first :: rest →
      let go (ls : List Nat) : Word × Flags := ls.foldl (fun y j => ((op y.1 (w.v a.toNat j)).1, y.2 ||| (op y.1 (w.v a.toNat j)).2))
        (w.v a.toNat first, flagNone)
      (∀ l ∈ w.activeLanes, (reduce d a op w).v d.toNat l = (go rest).1) ∧
      (∀ j l, w.activeLanes[j]? = some l → (scan d a op w).v d.toNat l = (go (rest.take j)).1) ∧
      (∀ l, l < 32 → w.active l = false → (reduce d a op w).v d.toNat l = w.v d.toNat l ∧
        (scan d a op w).v d.toNat l = w.v d.toNat l) ∧
      (reduce d a op w).fpflags = w.fpflags ||| (go rest).2 ∧ (scan d a op w).fpflags = w.fpflags ||| (go rest).2) ∧
    (w.activeLanes = (List.range 32).filter (fun l => (w.m 0).getLsbD l)) ∧
    (∀ x y : Word, addStep x y =
      let n := Machine.Num.add .rne (decodeFloat .fp32 x.toNat) (decodeFloat .fp32 y.toNat)
      let r := roundTo .fp32 .rne false n.1
      (BitVec.ofNat 32 r.1, n.2 ||| r.2))

/-! ### Results of hypervector words -/

/-- 11 R267, R268, R270, R271, R272: the hypervector forms other than the loads, the stores and the scan. -/
def Obligations.HyperResults : Prop :=
  ∀ (s : State) (w : Wave) (sw : BitVec 1) (d a b : BitVec 4) (k : BitVec 1) (x y : BitVec 6),
    let h (n : BitVec 4) : Hyper := w.hv n.toNat
    let r (w' : Wave) : State := s.became sw w'
    s.Gives w (.hvxor sw d a b) (r (w.setHv d.toNat (h a ^^^ h b))) ∧
    s.Gives w (.hvnot sw d a) (r (w.setHv d.toNat (~~~ h a))) ∧
    s.Gives w (.hvmov sw d a) (r (w.setHv d.toNat (h a))) ∧
    s.Gives w (.hvbund sw a k) (r (w.setBa k.toNat (bundle 1 (h a) (w.ba k.toNat) 8192))) ∧
    s.Gives w (.hvbsub sw a k) (r (w.setBa k.toNat (bundle (-1) (h a) (w.ba k.toNat) 8192))) ∧
    s.Gives w (.hvmaj sw d k) (r { w.setHv d.toNat (majority (w.ba k.toNat) w.hvtie 8192).1 with
      hvtie := (majority (w.ba k.toNat) w.hvtie 8192).2 }) ∧
    s.Gives w (.hvbclr sw k) (r (w.setBa k.toNat 0#65536)) ∧
    s.Gives w (.hvgen sw d) (r { w.setHv d.toNat (genStream w.hvtie 128).1 with hvtie := (genStream w.hvtie 128).2 }) ∧
    s.Gives w (.hvrot sw a b y) (r (w.setHv a.toNat ((h b).rotateLeft ((w.s y.toNat).toNat % 8192)))) ∧
    s.Gives w (.hvdist sw a b x) (r (w.setS x.toNat (BitVec.ofNat 64 ((List.range 8192).countP (fun i =>
      (h a).getLsbD i != (h b).getLsbD i))))) ∧
    s.Gives w (.hvseed sw y) (r { w with hvtie := if w.s y.toNat = 0#64 then 0x9E3779B97F4A7C15#64 else w.s y.toNat }) ∧
    s.Gives w (.hvrdtie sw x) (r (w.setS x.toNat w.hvtie)) ∧
    s.Gives w (.hvbit sw a x y) (r (w.setS x.toNat (if (h a).getLsbD ((w.s y.toNat).toNat % 8192) then 1#64 else 0#64)))

/-- 11 R267, R269, R270: the generator, a bundle step on each counter, and the majority of an accumulator bit by bit with the
generator after it: one step for each counter of zero. -/
def Obligations.AccumulatorRules : Prop :=
  (∀ x : DWord,
    tieStep x = (let a := x ^^^ (x <<< 13); let b := a ^^^ (a >>> 7); b ^^^ (b <<< 17)) ∧
    (x ≠ 0#64 → tieStep x ≠ 0#64) ∧
    (tieStep x).getLsbD 0 = (x.getLsbD 0 != x.getLsbD 7) ∧
    (tieStep (tieStep x)).getLsbD 0 = ((x.getLsbD 0 != x.getLsbD 1) != x.getLsbD 14)) ∧
  ∀ (h : Hyper) (b : Bundle) (tie : DWord) (i : Nat), i < 8192 →
    let c (x : Bundle) (j : Nat) : Int := (x.extractLsb' (8 * j) 8).toInt
    let clamp (v : Int) : Int := if v < -127 then -127 else if 127 < v then 127 else v
    let ties (n : Nat) : Nat := (List.range n).countP (fun j => c b j == 0)
    c (bundle 1 h b 8192) i = clamp (c b i + (if h.getLsbD i then 1 else -1)) ∧
    c (bundle (-1) h b 8192) i = clamp (c b i - (if h.getLsbD i then 1 else -1)) ∧
    (0 < c b i → (majority b tie 8192).1.getLsbD i = true) ∧
    (c b i < 0 → (majority b tie 8192).1.getLsbD i = false) ∧
    (c b i = 0 → (majority b tie 8192).1.getLsbD i = (Nat.repeat tieStep (ties i + 1) tie).getLsbD 0) ∧
    (majority b tie 8192).2 = Nat.repeat tieStep (ties 8192) tie
/-! ### Loads and stores -/

/-- 02 R75, R76, R60; 04 R118; 05 R132, R138, R142, R144, R153 to R155; 09 R228 to R234; 11 R273: what an access finds and what a load reads.
The checks: MISALIGN first, then the translation of an address that lies in no window, or the bounds of the scratchpad; the lowest lane that
fails is named. The bytes: those of the wave's own pending store, of its scratchpad, of the place where the L1 holds no line, or of the copy in
the L1 that serves it, with what the wave has stored itself; without such a copy those of memory, which a new copy then holds. Glint's check of
one access, the sector it leaves, and a record of its log.
A load whose address and place pass their checks reads the bytes, makes them its variable-latency result, and goes on; `va` and the places are
those the checks found. An access that races in trap mode traps RACE, and one that meets a poisoned line traps ECC; then no byte is read. The
prefetch form writes no register. What the form read at a peer is noted with its result, for the case that the link fails before the result is
written (19 R407); a form that reads at no peer notes nothing. The translations are made first, and fill the TLBs and the slices as they read
their tables (02 R45, R72). The model's choices: the value is read when the word issues (log 27; 05 R138 and R144 allow others), a lost
copy and an own byte are those of logs 19 and 83, and a report that is suppressed while LOGERR is set leaves SEQ as it is (log 78). -/
def Obligations.LoadResults : Prop :=
  (∀ (u : State) (y : Wave) (acc : Acc) (atom : Bool) (al n : Nat) (va : DWord), 0 < n →
    let chk := u.checkAccess y acc atom al va n
    let found := u.waveXlat y acc va
    let fault (kind : BitVec 4) : TrapInfo := { cause := acc.cause, kind := kind, addr := va }
    (va.toNat % al ≠ 0 → chk = .error (trapAt causeMisalign va)) ∧
    (va.toNat % al = 0 → windowOf va = .none → (∀ x, found = .ok x → chk = .ok (.phys x.pa x.ms)) ∧
      (∀ t, found = .error t → chk = .error t)) ∧
    (∀ off, va.toNat % al = 0 → windowOf va = .scratch off →
      (off + n ≤ u.scratchSize y → chk = .ok (.scratch off)) ∧
      (u.scratchSize y < off + n →
        chk = .error { fault kindNotMapped with addr := va + BitVec.ofNat 64 (u.scratchSize y - off) })) ∧
    (canonical va = false → found = .error (fault kindNonCanon)) ∧
    (canonical va = true →
      (∀ line, u.walkPoison (some y.core) acc y.ctx y.gen (vaBits va) = some line →
        found = .error { cause := causeEcc, detail := BitVec.ofNat 8 (u.lineClass line), addr := va &&& ~~~0x7F#64 }) ∧
      (u.walkPoison (some y.core) acc y.ctx y.gen (vaBits va) = none →
        (∀ kind, u.leafOf (some y.core) acc y.ctx y.gen (vaBits va) = .error kind → found = .error (fault kind)) ∧
        (∀ e, u.leafOf (some y.core) acc y.ctx y.gen (vaBits va) = .ok e →
          (∀ kind, u.resolveLeaf y.ctx y.gen (vaBits va) e = .error kind → found = .error (fault kind)) ∧
          (∀ pa, u.resolveLeaf y.ctx y.gen (vaBits va) e = .ok pa →
            let ok : Xlat := ⟨pa, pteMs e && (paKind pa).isHbm && !u.regionCovers pa⟩
            (acc = .rd → found = .ok ok) ∧
            (acc = .wr → pteW e = false → found = .error { cause := causeProt, kind := kindNoWrite, addr := va }) ∧
            (acc = .wr → pteW e = true → (paKind pa).isWs = true →
              found = .error { cause := causeProt, kind := kindWStore, addr := va }) ∧
            (acc = .wr → pteW e = true → (paKind pa).isWs = false → found = .ok ok)))))) ∧
  (∀ (chk : DWord → Except TrapInfo Place) (pre rest : List (Nat × DWord)) (l : Nat) (va : DWord) (t : TrapInfo), chk va = .error t →
    (∀ e ∈ pre, ∃ p, chk e.2 = .ok p) →
    checkLanes chk (pre ++ (l, va) :: rest) = .error { t with lane := some l } ∧
    (lanesBefore chk (pre ++ (l, va) :: rest)).map (fun e => (e.1, e.2.1)) = pre) ∧
  (∀ (u : State) (k n j a o : Nat) (ms : Bool) (y : Wave) (g : Group) (c : Core), u.waves[k]? = some y → u.groups[y.group]? = some g →
    u.cores[y.core]? = some c → j < n →
    let shown (p : Place) : Option (BitVec 8) := (u.load k p n).1[j]?
    let own := lookupSorted (a + j) y.own
    let line := a / 128
    let mayUse (z : L1Copy) : Prop := z.line = line ∧ (k ∈ z.readers ∨
      (stampReached z.fill y.acq = true ∧ y.floorOf line ≤ z.seq))
    (∀ p b, (∀ r, p ≠ .reg r) → pendingByte y.pend (p.plus j) = some b → shown p = some b) ∧
    (pendingByte y.pend (.scratch (o + j)) = none → shown (.scratch o) = some (g.scratch.byte (o + j))) ∧
    (pendingByte y.pend (.phys (a + j) ms) = none → l1Holds a ms = false → l1Holds (a + j) ms = false →
      shown (.phys a ms) = some (match paKind (a + j) with
        | .peer q => if u.peerUp q then u.mem.byte (a + j) else 0xFF#8
        | _ => u.mem.byte (a + j))) ∧
    (pendingByte y.pend (.phys (a + j) ms) = none → l1Holds a ms = true → l1Holds (a + j) ms = true → a % 128 + n ≤ 128 →
      (∀ z, chooseCopy c.l1 k y line = some z → z ∈ c.l1 ∧ mayUse z ∧
        shown (.phys a ms) = some (own.getD (lineByte z.data ((a + j) % 128)))) ∧
      (chooseCopy c.l1 k y line = none → (∀ z ∈ c.l1, ¬ mayUse z) ∧ shown (.phys a ms) = some (own.getD (u.mem.byte (a + j))) ∧
        ∃ d z, (u.load k (.phys a ms) n).2.2.cores[y.core]? = some d ∧ z ∈ d.l1 ∧ z.line = line ∧ z.data = u.mem.line line ∧
          z.readers = [k]))) ∧
  (∀ (u : State) (y : Wave) (c : Ctx) (g : Group) (pc va : DWord) (pa scope : Nat) (ms atom wr : Bool) (l : List Touch),
    u.ctxs[y.ctx]? = some c → u.groups[y.group]? = some g →
    let got := u.glintCheck y pc va pa ms atom wr scope
    let seen := (u.llcFill (pa / 128)).sectorOf (pa / 128) (pa / 32 % 4)
    let acc : Sector := ⟨g.gid, y.gphase, y.index, scope, atom, wr⟩
    (c.glintMode = 0 → u.glintList y atom wr scope l = (u, none)) ∧
    (∀ s2 t, u.glintList y atom wr scope l = (s2, some t) →
      ∃ e ∈ l, t.cause = causeRace ∧ t.addr = e.va ∧ t.lane = e.lane) ∧
    (c.glintMode = 0 ∨ c.glintOff = true ∨ ms = true ∨ (paKind pa).isHbm = false → got = (u, none)) ∧
    (c.glintMode ≠ 0 → c.glintOff = false → ms = false → (paKind pa).isHbm = true →
      (seen = none → got.2 = none) ∧
      (∀ r, seen = some r →
        let same : Prop := r.gid = g.gid ∧ r.gphase = y.gphase
        let race : Prop := same ∧ r.wave ≠ y.index ∧ ((r.wr = true ∧ r.atom = false) ∨ (wr = true ∧ atom = false) ∨
          (r.atom = true ∧ atom = true ∧ (r.scope = 0 ∨ scope = 0)))
        let keep : Prop := same ∧ r.wr = true ∧ r.atom = false ∧ ¬ (wr = true ∧ atom = false)
        (race → c.glintMode ≠ 1 → got.2 = some r.wave) ∧ (¬ race ∨ c.glintMode = 1 → got.2 = none) ∧
        (¬ race ∨ c.glintMode ≠ 1 → (keep → got.1.sectorOf (pa / 128) (pa / 32 % 4) = some r) ∧
          (¬ keep → got.1.sectorOf (pa / 128) (pa / 32 % 4) = some acc)) ∧
        (race → c.glintMode = 1 → ∃ v : State, got.1 = v.glintLog y pc va r acc ∧
          (keep → v.sectorOf (pa / 128) (pa / 32 % 4) = some r) ∧ (¬ keep → v.sectorOf (pa / 128) (pa / 32 % 4) = some acc)))) ∧
    (∀ r later : Sector, c.logErr = true → u.glintLog y pc va r later = u) ∧
    (∀ r later : Sector, c.logErr = false →
      let t := u.glintLog y pc va r later
      let s1 := u.modCtx y.ctx (fun x => { x with glintSeq := x.glintSeq + 1 })
      let record := c.act.glintLog +
        BitVec.ofNat 64 (32 * (c.glintSeq.toNat % 2 ^ ((c.act.glintCtl.extractLsb' 4 4).toNat + 6)))
      (∃ z, t.ctxs[y.ctx]? = some z ∧ z.glintSeq = c.glintSeq + 1) ∧
      (∀ f, s1.agentXlat y.ctx .wr record = .error f → t = ((s1.agentLooks y.ctx .wr record 32).modCtx y.ctx
        (fun x => { x with logErr := true })).report errGlintLog 0 c.id record 0 0) ∧
      (∀ x, s1.agentXlat y.ctx .wr record = .ok x → u.mem.wf = true →
        t.mem.read x.pa 32 = bytesOfNat 8 va.toNat ++ bytesOfNat 8 pc.toNat ++
          bytesOfNat 8 (later.gid % 8192 + 2 ^ 13 * (later.wave % 2048) + 2 ^ 24 * (r.wave % 2048) + (if later.wr then 2 ^ 35 else 0) +
            (if later.atom then 2 ^ 36 else 0) + (if r.wr then 2 ^ 37 else 0) + (if r.atom then 2 ^ 38 else 0) +
            2 ^ 39 * (later.scope % 8) + 2 ^ 42 * (r.scope % 8)) ++ bytesOfNat 8 c.glintSeq.toNat ∧
        (∀ b, b < x.pa ∨ x.pa + 32 ≤ b → t.mem.byte b = u.mem.byte b)))) ∧
  ∀ (s : State) (w : Wave) (sw : BitVec 1) (x a : BitVec 6) (i : BitVec 12) (v o : BitVec 8) (b : BitVec 5) (h : BitVec 4),
    (∀ (old new : Wave) (l : List Touch) xs put, (∀ t ∈ l, t.place.peer = none) → old.addFar l xs put new = new) ∧
    let read (j : Instr) (l : List Touch) (put : List (List (BitVec 8) × Side) → Wave → Wave) : Prop :=
      let s1 := s.walks s.cur .rd l
      let noted := s1.glintList w false false 0 (l.filter (fun e => s1.reachesHome s.cur w e.place))
      let r := noted.1.readAll s.cur l
      (∀ t, noted.2 = some t → s.Gives w j (s.afterWord sw (noted.1.takeTrap s.cur t false))) ∧
      (∀ e, noted.2 = none → l.find? (fun e => noted.1.meets s.cur w e.place) = some e →
        s.Gives w j (s.afterWord sw (noted.1.takeTrap s.cur (eccAt e.va (noted.1.placeClass e.place)) false))) ∧
      (noted.2 = none → (∀ e ∈ l, noted.1.meets s.cur w e.place = false) →
        s.Gives w j (s.afterWord sw (r.2.modWave s.cur (fun y => (y.addFar l r.1 put (put r.1 y)).advance))))
    let stops (j : Instr) (before : List Touch) (t : TrapInfo) : Prop :=
      (before = [] → s.Gives w j ((s.failedLooks s.cur t).takeTrap s.cur t false)) ∧
      (∀ c, before ≠ [] → s.ctxs[w.ctx]? = some c → c.glintMode = 0 →
        s.Gives w j (s.afterWord sw (((s.walks s.cur .rd before).failedLooks s.cur t).takeTrap s.cur t false)))
    let va := w.s a.toNat + w.immValue i
    let gather (j : Instr) (n : Nat) (f : Nat → Word) : Prop :=
      let chk (e : DWord) : Except TrapInfo Place := s.checkAccess w .rd false n e n
      (∀ ps, checkLanes chk (w.gatherAddrs b.toNat o.toNat) = .ok ps →
        read j (touches n ps) (fun xs y => y.addOut (.v v.toNat (w.m 0) (lanesLine ps xs f) Side.none))) ∧
      (∀ t, checkLanes chk (w.gatherAddrs b.toNat o.toNat) = .error t →
        stops j (touches n (lanesBefore chk (w.gatherAddrs b.toNat o.toNat))) t)
    (∀ p, va.toNat % 8 = 0 → x ≠ 0#6 → s.checkAccess w .rd false 8 va 8 = .ok p →
      read (.sld sw x a i) [⟨none, va, p, 8⟩] (fun xs y =>
        y.addOut (.s x.toNat (BitVec.ofNat 64 (natOfBytes ((xs.head?.map (·.1)).getD [])))))) ∧
    (∀ t, va.toNat % 8 ≠ 0 ∨ x ≠ 0#6 → s.checkAccess w .rd false 8 va 8 = .error t → stops (.sld sw x a i) [] t) ∧
    (va.toNat % 8 = 0 → s.Gives w (.sld sw 0#6 a i) (s.afterWord sw ((s.prefetch w va).advance s.cur))) ∧
    gather (.vldI8 sw v o b) 1 (fun n => (BitVec.ofNat 8 n).signExtend 32) ∧
    gather (.vldZ8 sw v o b) 1 (BitVec.ofNat 32) ∧
    gather (.vldI16 sw v o b) 2 (fun n => (BitVec.ofNat 16 n).signExtend 32) ∧
    gather (.vldZ16 sw v o b) 2 (BitVec.ofNat 32) ∧
    gather (.vld32 sw v o b) 4 (BitVec.ofNat 32) ∧
    (∀ ps, s.linePlaces w .rd (w.s a.toNat) = .ok ps →
      read (.vldl sw v a) (touches 4 ps) (fun xs y =>
        y.addOut (.v v.toNat (w.m 0) (lanesLine ps xs (BitVec.ofNat 32)) Side.none)) ∧
      read (.vldb sw v a) (touches 4 ps) (fun xs y =>
        y.addOut (.v v.toNat (w.m 0) (lanesLine ps xs (BitVec.ofNat 32)) ((xs.head?.map (·.2)).getD Side.none)))) ∧
    (∀ t, s.linePlaces w .rd (w.s a.toNat) = .error t → ∀ j, j ∈ [Instr.vldl sw v a, .vldb sw v a] →
      stops j (touches 4 (s.lineBefore w .rd (w.s a.toNat))) t) ∧
    (∀ ps, s.hyperPlaces w .rd (w.s a.toNat) = .ok ps →
      read (.hvld sw h a) (ps.flatMap lineSectors) (fun xs y =>
        y.addOut (.h h.toNat 0xFF#8 (BitVec.ofNat 8192 (natOfBytes (xs.flatMap (·.1))))))) ∧
    (∀ t, s.hyperPlaces w .rd (w.s a.toNat) = .error t → stops (.hvld sw h a) (if (w.s a.toNat).toNat % 128 ≠ 0 then []
      else (s.linesBefore w .rd (rowLines (w.s a.toNat) 1024)).flatMap lineSectors) t)

/-- 02 R76; 05 R153, R155; 09 R228, R230 to R235; 10 R262; 11 R273: a store whose address and places pass their checks hands its bytes to
the list of pending stores of its wave (or to the register window), and goes on; one that fails a check traps, and one that races in trap mode
traps RACE: then nothing is stored. ACCST and ACCCVT of a tile with an uncorrectable error meet it, before Glint's check of their rows (log 85). VSTC with no active lane only goes on; otherwise it adds the
bytes it will store to the pointer word with one atomic, and stores the active lanes, packed, from the old pointer on, below the
limit. The model's choices here: ACCST and ACCCVT store the tile as its last completed pass has left it when the word issues (log 78; 10 R262
and 05 R147 allow other values), and VSTC with no active lane checks its alignment alone (log 46). -/
def Obligations.StoreResults : Prop :=
  ∀ (s : State) (w : Wave) (sw : BitVec 1) (x a e : BitVec 6) (i : BitVec 12) (v o : BitVec 8) (b : BitVec 5) (h f : BitVec 4)
    (c : BitVec 3),
    let done (t : State) (ps : List Put) : State := s.afterWord sw ((ps.foldl (fun t p => t.putStore s.cur p) t).advance s.cur)
    let put (j : Instr) (l : List Touch) (ps : List Put) : Prop :=
      let noted := (s.walks s.cur .wr l).glintList w false true 0 l
      (∀ t, noted.2 = some t → s.Gives w j (s.afterWord sw (noted.1.takeTrap s.cur t false))) ∧
      (noted.2 = none → s.Gives w j (done noted.1 ps))
    let stops (j : Instr) (before : List Touch) (t : TrapInfo) : Prop :=
      (before = [] → s.Gives w j ((s.failedLooks s.cur t).takeTrap s.cur t false)) ∧
      (∀ c, before ≠ [] → s.ctxs[w.ctx]? = some c → c.glintMode = 0 →
        s.Gives w j (s.afterWord sw (((s.walks s.cur .wr before).failedLooks s.cur t).takeTrap s.cur t false)))
    let va := w.s a.toNat + w.immValue i
    let scatter (j : Instr) (n : Nat) : Prop :=
      let chk (z : DWord) : Except TrapInfo Place := s.checkAccess w .wr false n z n
      (∀ ps, checkLanes chk (w.gatherAddrs b.toNat o.toNat) = .ok ps →
        put j (touches n ps) (ps.map (fun p => ⟨p.2.1, p.2.2, someBytes n (w.v v.toNat p.1).toNat, none⟩))) ∧
      (∀ t, checkLanes chk (w.gatherAddrs b.toNat o.toNat) = .error t →
        stops j (touches n (lanesBefore chk (w.gatherAddrs b.toNat o.toNat))) t)
    let line (j : Instr) (side : Option SideStore) (p : Nat × DWord × Place) (ps : List (Nat × DWord × Place)) : Prop :=
      put j (touches 4 (p :: ps)) [⟨w.s a.toNat, p.2.2.back (4 * p.1), laneBytes (w.m 0) (w.vreg v.toNat).data, side⟩]
    (∀ p, s.checkAccess w .wr false 8 va 8 = .ok p →
      put (.sst sw x a i) [⟨none, va, p, 8⟩] [⟨va, p, someBytes 8 (w.s x.toNat).toNat, none⟩]) ∧
    (∀ t, s.checkAccess w .wr false 8 va 8 = .error t → stops (.sst sw x a i) [] t) ∧
    scatter (.vst8 sw v o b) 1 ∧
    scatter (.vst16 sw v o b) 2 ∧
    scatter (.vst32 sw v o b) 4 ∧
    (∀ p ps, s.linePlaces w .wr (w.s a.toNat) = .ok (p :: ps) →
      line (.vstl sw v a) none p ps ∧
      line (.vstb sw v a) (some ⟨(w.vreg v.toNat).side.band, 0xFFFF#16, (w.vreg v.toNat).side.fmt⟩) p ps) ∧
    (s.linePlaces w .wr (w.s a.toNat) = .ok [] → put (.vstl sw v a) [] [] ∧ put (.vstb sw v a) [] []) ∧
    (∀ t, s.linePlaces w .wr (w.s a.toNat) = .error t → ∀ j, j ∈ [Instr.vstl sw v a, .vstb sw v a] →
      stops j (touches 4 (s.lineBefore w .wr (w.s a.toNat))) t) ∧
    (∀ ps, s.hyperPlaces w .wr (w.s a.toNat) = .ok ps →
      put (.hvst sw h a) (ps.flatMap lineSectors) (rowPuts ps ⟨bytesOfNat 1024 (w.hv h.toNat).toNat, none⟩)) ∧
    (∀ t, s.hyperPlaces w .wr (w.s a.toNat) = .error t → stops (.hvst sw h a) (if (w.s a.toNat).toNat % 128 ≠ 0 then []
      else (s.linesBefore w .wr (rowLines (w.s a.toNat) 1024)).flatMap lineSectors) t) ∧
    (let rowsOut (j : Instr) (rows : List (List (DWord × Nat × Place))) (f : List Nat → RowImage) : Prop :=
      let noted := (s.walks s.cur .wr (rows.flatten.flatMap lineSectors)).glintRows w rows
      (s.tileBad w c.toNat = true → s.Gives w j (s.afterWord sw (s.takeTrap s.cur (eccAt 0#64 6) false))) ∧
      (∀ t, s.tileBad w c.toNat = false → noted.2 = some t → s.Gives w j (s.afterWord sw (noted.1.takeTrap s.cur t false))) ∧
      (s.tileBad w c.toNat = false → noted.2 = none →
        s.Gives w j (done noted.1 ((rows.zipIdx).flatMap (fun y => rowPuts y.1 (f (s.tileRow w c.toNat y.2))))))
     (∀ rows, s.accCheck w false .wr (w.s a.toNat) (w.s e.toNat) 512 = .ok rows → rowsOut (.accst sw c a e) rows rowFp32) ∧
     (∀ rows, s.accCheck w true .wr (w.s a.toNat) (w.s e.toNat) (cvtBytes f) = .ok rows →
      rowsOut (.acccvt sw c a e f) rows (rowCvt f (w.s e.toNat)))) ∧
    (∀ (g : Ctx) rows, s.ctxs[w.ctx]? = some g → g.glintMode = 0 → s.glintRows w rows = (s, none)) ∧
    (s.Calm w →
    (let va := w.s a.toNat
     (va.toNat % 8 ≠ 0 → stops (.vstc sw v a e) [] (trapAt causeMisalign va)) ∧
     (va.toNat % 8 = 0 → w.m 0 = 0#32 → s.Gives w (.vstc sw v a e) (s.afterWord sw (s.advance s.cur))) ∧
     (∀ t, va.toNat % 8 = 0 → w.m 0 ≠ 0#32 → s.checkAccess w .wr true 8 va 8 = .error t → stops (.vstc sw v a e) [] t) ∧
     (∀ p old s2 w2 ps, va.toNat % 8 = 0 → w.m 0 ≠ 0#32 → s.checkAccess w .wr true 8 va 8 = .ok p →
      (s.waveLooks s.cur .wr va).performNow s.cur ⟨.add, true, 4, false, w.pc, .none, []⟩
        ⟨0, va, p, BitVec.ofNat 64 (4 * w.activeLanes.length), 0#64⟩ = (old, s2) →
      s2.waves[s.cur]? = some w2 → s2.Calm w2 →
      checkLanes (fun z => s2.checkAccess w2 .wr false 4 z 4)
        (vstcElems w.activeLanes (old &&& 0xFFFFFFFFFFFFFFFC#64) (w.s e.toNat)) = .ok ps →
      s.Gives w (.vstc sw v a e) (s.afterWord sw ((ps.foldl (fun t q => t.putStore s.cur
        ⟨q.2.1, q.2.2, someBytes 4 (w.v v.toNat q.1).toNat, none⟩) (s2.walks s.cur .wr (touches 4 ps))).advance s.cur)))))

/-- 05 R131: a pending store lies with its wave alone. The words of stores to HBM, to the scratchpad and to the other
memories leave every byte of memory, of every scratchpad and of every cache as it was, and put the store at the end of the
wave's pending stores. -/
def Obligations.PendingStoresAreNotVisible : Prop :=
  ∀ (s : State) (w : Wave) (ps : List Put), s.waves[s.cur]? = some w → w.atoms = [] →
    (∀ p, p ∈ ps → ∀ off, p.place ≠ .reg off) →
    let t := (ps.foldl (fun t p => t.putStore s.cur p) s).advance s.cur
    (∀ a, t.mem.byte a = s.mem.byte a) ∧ t.groups = s.groups ∧ t.cores = s.cores ∧ t.llc = s.llc ∧ t.quads = s.quads ∧
    (∀ k, k ≠ s.cur → t.waves[k]? = s.waves[k]?) ∧
    ∃ x, t.waves[s.cur]? = some x ∧
      x.pend.map (fun q => (q.va, q.place, q.bytes, q.side)) =
        w.pend.map (fun q => (q.va, q.place, q.bytes, q.side)) ++ ps.map (fun p => (p.va, p.place, p.bytes, p.side)) ∧
      x.sregs = w.sregs ∧ x.masks = w.masks ∧ x.vregs = w.vregs ∧ x.hvs = w.hvs ∧ x.bas = w.bas ∧ x.fpflags = w.fpflags ∧
      x.pc = w.pc + 4#64

/-- 05 R132: a wave's own load returns the bytes of its own latest pending store to them: a scratchpad or memory quadword
stored and then loaded reads as stored, before any release. -/
def Obligations.LoadSeesOwnStore : Prop :=
  ∀ (s : State) (k : Nat) (w : Wave) (va v : DWord) (p : Place), s.waves[k]? = some w → w.atoms = [] →
    (∀ off, p ≠ .reg off) →
    ((s.putStore k ⟨va, p, someBytes 8 v.toNat, none⟩).load k p 8).1 = bytesOfNat 8 v.toNat

/-- 05 R130, R131: at its release point a store to physical memory, with no side-band, enters its coherence order: each byte of it
lies in memory from then on, and every other byte of memory, every scratchpad and every group register stays as it was. The
bytes lie at the address of the store's place. A store to a peer that is not UP is discarded: no byte of memory changes (19 R407). It is pending
no more either way, and with the last one the boundary is complete, so that the wave goes on with what the boundary was for. -/
def Obligations.ReleasedStoreWrites : Prop :=
  ∀ (s : State) (k n : Nat) (w : Wave) (p : PStore) (scope : Nat) (c : Cont) (pa : Nat) (ms : Bool),
    s.MemCanonical → s.waves[k]? = some w → w.st = .wait (.release scope c) → w.mayRelease n = true →
    w.pend[n]? = some p → p.place = .phys pa ms → p.side = none →
    ∃ t, exec (.storeEntersCoherenceOrder k n) s =
        .next (if w.pend.length = 1 then (t.releaseDone k scope).runCont k c else t) ∧
      ((∀ q, paKind pa = .peer q → s.peerUp q = true) →
        (∀ j b, p.bytes[j]? = some (some b) → t.mem.byte (pa + j) = b) ∧
        (∀ j, p.bytes[j]? = some none → t.mem.byte (pa + j) = s.mem.byte (pa + j)) ∧
        (∀ a, a < pa ∨ pa + p.bytes.length ≤ a → t.mem.byte a = s.mem.byte a)) ∧
      (∀ q, paKind pa = .peer q → s.peerUp q = false → t.mem = s.mem) ∧
      t.groups = s.groups ∧
      (∀ x, t.waves[k]? = some x → x.pend = w.pend.eraseIdx n ∧ x.sregs = w.sregs ∧ x.vregs = w.vregs ∧ x.masks = w.masks ∧
        x.pc = w.pc)

/-! ### Atomics -/

/-- 09 R236 to R239; 05 R130, R131: an atomic whose accesses pass their checks goes to its units: at once, or with REL once no store of its
wave is pending any more: with a store pending, the wave is at a releasing boundary, which is complete when the last has entered. -/
def Obligations.AtomicResults : Prop :=
  ∀ (s : State) (w : Wave) (sw : BitVec 1) (o : BitVec 2) (c : BitVec 3) (v d : BitVec 1) (x a : BitVec 6), s.Calm w →
    let issues (i : Instr) (op : AtomOp) (wide : BitVec 1) : Prop := ∀ l,
      s.atomAccesses w (v == 1#1) (wide == 1#1) x a = .ok l →
      let ret : AtomRet := if v = 1#1 then .vector x.toNat else if x = 0#6 then .none else .scalar x.toNat
      let atom : Atom := ⟨op, wide == 1#1, c.toNat, o.getLsbD 1, w.pc, ret, l⟩
      let s1 := l.foldl (fun t z => t.waveLooks s.cur .wr z.va) s
      (o.getLsbD 0 = false → s.Gives w i (s.afterWord sw (s1.sendAtomic s.cur atom))) ∧
      (o.getLsbD 0 = true → w.pend = [] →
        s.Gives w i (s.afterWord sw ((s1.releaseDone s.cur c.toNat).sendAtomic s.cur atom))) ∧
      (o.getLsbD 0 = true → w.pend ≠ [] →
        s.Gives w i (s.afterWord sw (s1.setSt s.cur (.wait (.release c.toNat (.atomic atom)))))) ∧
      (∀ u : State, u.AllEntered s.cur c.toNat (.atomic atom) →
        u.settleRelease s.cur = (u.releaseDone s.cur c.toNat).sendAtomic s.cur atom)
    issues (.aadd sw o c v d x a) .add d ∧
    issues (.aaddF32 sw o c v x a) .addF32 0#1 ∧
    issues (.aand sw o c v d x a) .and d ∧
    issues (.aor sw o c v d x a) .or d ∧
    issues (.axor sw o c v d x a) .xor d ∧
    issues (.amin sw o c v d x a) .min d ∧
    issues (.amax sw o c v d x a) .max d ∧
    issues (.aminu sw o c v d x a) .minu d ∧
    issues (.amaxu sw o c v d x a) .maxu d ∧
    issues (.axchg sw o c v d x a) .xchg d ∧
    issues (.acas sw o c v d x a) .cas d

/-- 09 R237: the new value of each operation on a 32- or 64-bit location, and when the location is written. AADD.F32 is of 32 bits alone: it
is the exact FP32 sum, rounded once to nearest even. -/
def Obligations.AtomicNewValues : Prop :=
  ∀ (old : DWord) (x : AtomAccess),
    let m32 := old.setWidth 32
    let v32 := x.operand.setWidth 32
    let r32 := x.repl.setWidth 32
    let narrow (n : Word) : DWord := n.setWidth 64
    atomResult .add true old x = old + x.operand ∧
    atomResult .add false old x = narrow (m32 + v32) ∧
    atomResult .addF32 false old x = narrow (BitVec.ofNat 32 (roundTo .fp32 .rne false
      (Machine.Num.add .rne (decodeFloat .fp32 m32.toNat) (decodeFloat .fp32 v32.toNat)).1).1) ∧
    atomResult .and true old x = old &&& x.operand ∧
    atomResult .and false old x = narrow (m32 &&& v32) ∧
    atomResult .or true old x = old ||| x.operand ∧
    atomResult .or false old x = narrow (m32 ||| v32) ∧
    atomResult .xor true old x = old ^^^ x.operand ∧
    atomResult .xor false old x = narrow (m32 ^^^ v32) ∧
    atomResult .min true old x = (if x.operand.toInt < old.toInt then x.operand else old) ∧
    atomResult .min false old x = narrow (if v32.toInt < m32.toInt then v32 else m32) ∧
    atomResult .max true old x = (if old.toInt < x.operand.toInt then x.operand else old) ∧
    atomResult .max false old x = narrow (if m32.toInt < v32.toInt then v32 else m32) ∧
    atomResult .minu true old x = (if x.operand.toNat < old.toNat then x.operand else old) ∧
    atomResult .minu false old x = narrow (if v32.toNat < m32.toNat then v32 else m32) ∧
    atomResult .maxu true old x = (if old.toNat < x.operand.toNat then x.operand else old) ∧
    atomResult .maxu false old x = narrow (if m32.toNat < v32.toNat then v32 else m32) ∧
    atomResult .xchg true old x = x.operand ∧
    atomResult .xchg false old x = narrow v32 ∧
    atomResult .cas true old x = (if old = x.operand then x.repl else old) ∧
    atomResult .cas false old x = narrow (if m32 = v32 then r32 else m32) ∧
    (∀ op wide, op ≠ .cas → atomWrites op wide old x = true) ∧
    (atomWrites .cas true old x = true ↔ old = x.operand) ∧
    (atomWrites .cas false old x = true ↔ m32 = v32)

/-! ### Phases, barrier objects -/

/-- 09 R240; 05 R130, R131, R140, R141: a PHASE with no store pending is one releasing and one acquiring boundary: both counts of
SR_PHASE rise by one, SNAP_CUR clears, and the wave goes on. With a store pending, the wave is at its releasing boundary, and once the last
store has entered the release is done, the acquire follows, and the wave goes on. -/
def Obligations.PhaseResults : Prop :=
  ∀ (s : State) (w : Wave) (sw : BitVec 1) (c : BitVec 3),
    (w.pend = [] → s.Ready w (.phase sw c) →
      ∃ t x, exec (.phase sw c) s = .next t ∧ t.waves[s.cur]? = some x ∧
        x.acqCnt = w.acqCnt + 1#32 ∧ x.relCnt = w.relCnt + 1#32 ∧ x.snapCur = false ∧ x.st = .ready ∧ x.pc = w.pc + 4#64 ∧
        x.pend = [] ∧ x.sregs = w.sregs ∧ x.vregs = w.vregs ∧ x.masks = w.masks ∧ (∀ a, t.mem.byte a = s.mem.byte a)) ∧
    (w.pend ≠ [] → s.Gives w (.phase sw c) (s.afterWord sw (s.setSt s.cur (.wait (.release c.toNat (.phase c.toNat)))))) ∧
    (∀ u : State, u.AllEntered s.cur c.toNat (.phase c.toNat) →
      u.settleRelease s.cur = ((u.releaseDone s.cur c.toNat).acquire s.cur).proceed s.cur)

/-- 09 R241 to R244; 04 R126: BAR.INIT sets the counts and keeps PHASE; BAR.ARRIVE with nothing pending makes one arrival, and traps
BARRIER behind itself when that overruns; BAR.WAIT on a phase that is reached is a release and an acquire, and blocks the wave
otherwise, with its wait not satisfied yet. What the object's change satisfies is noted at once. With stores pending, BAR.ARRIVE and BAR.WAIT
wait at their releasing boundary (05 R130, R131) and do the same once the last store has entered. -/
def Obligations.BarrierWordResults : Prop :=
  ∀ (s : State) (w : Wave) (g : Group) (sw : BitVec 1) (a b : BitVec 6) (off : Nat), s.groups[w.group]? = some g →
    let p := (w.s b.toNat).extractLsb' 0 32
    let arrived := (s.releaseDone s.cur 1).arriveAt w.group off
    (s.barrierAt w causeXlateWr (w.s a.toNat) = .ok off →
      s.Gives w (.barInit sw a b) (s.afterWord sw ((((s.settleObject s.cur off).modGroup w.group (fun y =>
        y.setBarrier off { y.barrier off with
          ovr := false, arr := 0, landed := 0, expArr := (w.s b.toNat).toNat % 2 ^ 13
          expBytes := (w.s b.toNat).toNat / 2 ^ 32 })).noteReached w.group).advance s.cur))) ∧
    (s.barrierAt w causeXlateWr (w.s a.toNat) = .ok off → w.pend = [] → arrived.1 = false →
      s.Gives w (.barArrive sw a) (s.afterWord sw (arrived.2.proceed s.cur))) ∧
    (s.barrierAt w causeXlateWr (w.s a.toNat) = .ok off → w.pend = [] → arrived.1 = true →
      s.Gives w (.barArrive sw a) (s.afterWord sw ((arrived.2.setSt s.cur .ready).takeTrap s.cur
        (trapAt causeBarrier (BitVec.ofNat 64 (scratchWindow + off))) true))) ∧
    (s.barrierAt w causeXlateRd (w.s a.toNat) = .ok off → w.pend = [] → phaseReached (s.phaseOf w.group off) p = true →
      s.Gives w (.barWait sw a b) (s.afterWord sw (((s.releaseDone s.cur 1).acquire s.cur).proceed s.cur))) ∧
    (s.barrierAt w causeXlateWr (w.s a.toNat) = .ok off → w.pend ≠ [] →
      s.Gives w (.barArrive sw a) (s.afterWord sw (s.setSt s.cur (.wait (.release 1 (.barArrive off)))))) ∧
    (s.barrierAt w causeXlateRd (w.s a.toNat) = .ok off → w.pend ≠ [] → phaseReached (s.phaseOf w.group off) p = true →
      s.Gives w (.barWait sw a b) (s.afterWord sw (s.setSt s.cur (.wait (.release 1 .barWait))))) ∧
    (∀ (u : State) (y : Wave), u.AllEntered s.cur 1 (.barArrive off) → u.waves[s.cur]? = some y →
      u.bad.contains (.groupPool y.group (off / 128)) = false →
      let made := (u.releaseDone s.cur 1).arriveAt y.group off
      u.settleRelease s.cur = if made.1 then (made.2.setSt s.cur .ready).takeTrap s.cur
        (trapAt causeBarrier (BitVec.ofNat 64 (scratchWindow + off))) true else made.2.proceed s.cur) ∧
    (∀ u : State, u.AllEntered s.cur 1 .barWait →
      u.settleRelease s.cur = ((u.releaseDone s.cur 1).acquire s.cur).proceed s.cur) ∧
    (s.barrierAt w causeXlateRd (w.s a.toNat) = .ok off → phaseReached (s.phaseOf w.group off) p = false →
      s.Gives w (.barWait sw a b) (s.afterWord sw (s.modWave s.cur (fun y => { y with st := .blocked off p, reached := false }))))

/-- 04 R123, R124: an arrival and a byte increment with their completion check: the count rises, or an overrun sets it to the
expected value and sets OVR; a phase completes when both counts are met and not both expected counts are 0. An object whose fields fit reads back from its two
quadwords (R122). -/
def Obligations.BarrierObjectRule : Prop :=
  ∀ (b : Barrier) (n : Nat),
    let check (arr landed : Nat) (ovr : Bool) : Barrier :=
      if arr = b.expArr ∧ landed = b.expBytes ∧ ¬ (b.expArr = 0 ∧ b.expBytes = 0) then
        ⟨ovr, 0, b.expArr, b.phase + 1#32, 0, b.expBytes⟩
      else ⟨ovr, arr, b.expArr, b.phase, landed, b.expBytes⟩
    b.arrive.1 = (if b.arr + 1 ≤ b.expArr then check (b.arr + 1) b.landed b.ovr else check b.expArr b.landed true) ∧
    (b.arrive.2 = true ↔ b.expArr < b.arr + 1) ∧
    b.land n = (if b.landed + n ≤ b.expBytes then check b.arr (b.landed + n) b.ovr else check b.arr b.expBytes true) ∧
    (b.arr < 2 ^ 13 → b.expArr < 2 ^ 13 → b.landed < 2 ^ 32 → b.expBytes < 2 ^ 32 → Barrier.ofQuads b.q0 b.q1 = b)

/-! ### Copies, publishing, the weight store -/

/-- 09 R245 to R248; 03 R79: COPYK reads its descriptor as the wave sees it, traps by what fails of it, and otherwise hands a request
to the core's engine; with the kick queue full its wave waits for an entry (R80). CPQ and WSQ return their words as variable-latency
results, PUBL waits in its step 4 for the generation to advance, or traps COPY: 0x0F for an entry that is not enabled, 0x10 for a generation
that is not the wave's. With stores pending, COPYK and PUBL wait at their releasing boundary, of device and of system scope, and do the same
once the last has entered (05 R130, R131). A line of the descriptor with an uncorrectable error is met before the acceptance (04 R110). CPQ counts the group's requests of the tag that are not done, those that are
held and those that run, and the free entries of the core's queue. WSQ of an address in the weight store of a quadrant is made of its bank
group, bits [15:12] of its offset there (02 R64), and of the quadrant's WSCLK modulo 8192, with the fields of R248; of any other address it is 0.
The model's choices here: WSQ and CPQ take their values when the word issues, and counts are modulo 128 (log 78; 06 R423 leaves the moment
open); a request holds its entry of the queue until it has ended (log 37). -/
def Obligations.CopyWordResults : Prop :=
  ∀ (s : State) (w : Wave) (sw : BitVec 1) (d a : BitVec 6) (n : BitVec 8) (l ext : List DWord) (v : DWord),
    (s.queueUsed w.core < 64 →
      let s1 := s.showDescriptor s.cur w (w.s a.toNat)
      let q := CopyReq.fresh w.core w.ctx w.group s.cur none l ext .reserved
      let s2 := { s1 with copies := s1.copies ++ [q] }
      (∀ w1, s1.waves[s.cur]? = some w1 → s1.descriptorBad w (w.s a.toNat) = none →
        s1.readDescriptor w (w.s a.toNat) = .ok (l, ext) →
        (w1.pend = [] → s.Gives w (.copyk sw a) (s.afterWord sw ((((s2.releaseDone s.cur 2).modCopy
          s1.copies.length (fun y => { y with st := .queued })).noteReached w.group).proceed s.cur))) ∧
        (w1.pend ≠ [] → s.Gives w (.copyk sw a) (s.afterWord sw (s2.setSt s.cur
          (.wait (.release 2 (.copyk s1.copies.length))))))) ∧
      (∀ detail, s1.descriptorBad w (w.s a.toNat) = none → s1.readDescriptor w (w.s a.toNat) = .error detail →
        s.Gives w (.copyk sw a) (s.takeTrap s.cur
          { cause := causeCopy, detail := BitVec.ofNat 8 detail, addr := BitVec.ofNat 64 scratchWindow + w.s a.toNat } false)) ∧
      (∀ t, s1.descriptorBad w (w.s a.toNat) = some t → s.Gives w (.copyk sw a) (s.takeTrap s.cur t false))) ∧
    (∀ (u : State) (k : Nat) (y : CopyReq), u.AllEntered s.cur 2 (.copyk k) → (u.releaseDone s.cur 2).copies[k]? = some y →
      u.settleRelease s.cur = (((u.releaseDone s.cur 2).modCopy k (fun z => { z with st := .queued })).noteReached
        y.group).proceed s.cur) ∧
    (64 ≤ s.queueUsed w.core → s.Gives w (.copyk sw a) (s.setSt s.cur (.wait (.entry none)))) ∧
    s.Gives w (.cpq sw d a) (s.became sw (w.addOut (.s d.toNat (s.copyQuery w ((w.s a.toNat).extractLsb' 0 16))))) ∧
    (∀ tag : BitVec 16,
      let mine := s.copies.filter (fun q => q.host.isNone && q.group == w.group && q.d.tag == tag && !q.st.ended &&
        q.st != .reserved)
      let held := mine.filter (fun q => q.st == .ringwait || q.st == .pubhold || q.st == .followwait)
      let c := s.copyQuery w tag
      (c.extractLsb' 0 7).toNat = mine.length % 128 ∧ (c.extractLsb' 8 7).toNat = (mine.filter (fun q => q.st == .running)).length % 128 ∧
      (c.extractLsb' 16 7).toNat = held.length % 128 ∧ (c.extractLsb' 24 7).toNat = 64 - s.queueUsed w.core ∧
      c.getLsbD 7 = false ∧ c.getLsbD 15 = false ∧ c.getLsbD 23 = false ∧ c.extractLsb' 31 33 = 0#33) ∧
    (s.wsQuery w (w.s a.toNat) = .ok v → s.Gives w (.wsq sw d a)
      (s.afterWord sw ((s.waveLooks s.cur .rd (w.s a.toNat)).modWave s.cur (fun y => (y.addOut (.s d.toNat v)).advance)))) ∧
    (∀ (va : DWord) (x : Xlat), windowOf va = .none → s.waveXlat w .rd va = .ok x →
      (∀ (q off : Nat) (y : Quad), q < 4 → off < 0x80000000 → x.pa = 0x8000000000 + 0x80000000 * q + off → s.quads[q]? = some y →
        s.wsQuery w va = .ok (wsqWord (off / 4096 % 16) (y.clock % 8192))) ∧
      ((paKind x.pa).isWs = false → s.wsQuery w va = .ok 0#64)) ∧
    (∀ va, windowOf va ≠ .none → s.wsQuery w va = .ok 0#64) ∧
    (w.pend = [] → s.pbPoison w.ctx n.toNat = none → s.pbEnabled w.ctx n.toNat = true → w.gen n.toNat = s.pbGen w.ctx n.toNat →
      s.Gives w (.publ sw n) (s.afterWord sw (((s.readPb w.ctx n.toNat).releaseDone s.cur 4).setSt s.cur
        (.wait (.publ n.toNat (s.pbGen w.ctx n.toNat)))))) ∧
    (w.pend ≠ [] → s.pbPoison w.ctx n.toNat = none →
      s.pbEnabled w.ctx n.toNat = true → w.gen n.toNat = s.pbGen w.ctx n.toNat →
      s.Gives w (.publ sw n) (s.afterWord sw ((s.readPb w.ctx n.toNat).setSt s.cur
        (.wait (.release 4 (.publ n.toNat (s.pbGen w.ctx n.toNat))))))) ∧
    (∀ (u : State) (k : Nat) (g0 : Word), u.AllEntered s.cur 4 (.publ k g0) →
      u.settleRelease s.cur = (u.releaseDone s.cur 4).setSt s.cur (.wait (.publ k g0))) ∧
    (∀ detail : BitVec 8, s.pbPoison w.ctx n.toNat = none →
      (s.pbEnabled w.ctx n.toNat = false ∧ detail = 0x0F#8 ∨
       s.pbEnabled w.ctx n.toNat = true ∧ w.gen n.toNat ≠ s.pbGen w.ctx n.toNat ∧ detail = 0x10#8) →
      s.Gives w (.publ sw n) (s.takeTrap s.cur { cause := causeCopy, detail := detail, addr := n.setWidth 64 } false)) ∧
    (∀ g pos : Nat, g < 16 → pos < 8192 →
      let v := wsqWord g pos
      v.getLsbD 63 = true ∧ (v.extractLsb' 48 13).toNat = (512 * g + 8192 - pos) % 8192 ∧
      (v.extractLsb' 32 13).toNat = (if 512 * g ≤ pos ∧ pos ≤ 512 * g + 63 then 512 * g + 64 - pos else 0) ∧
      (v.extractLsb' 16 4).toNat = g ∧ (v.extractLsb' 0 13).toNat = pos ∧
      v.extractLsb' 61 2 = 0#2 ∧ v.extractLsb' 45 3 = 0#3 ∧ v.extractLsb' 20 12 = 0#12 ∧ v.extractLsb' 13 3 = 0#3)

/-! ### Matrix words -/

/-- 10 R256 to R263: with the claim, room in the queue and operands that pass their checks, MMA, ACCZ and ACCLD put one command
at the end of their array's queue; with the queue full their wave waits for an entry. MWAIT goes on when no command on its tile is
left, and waits for those that are. -/
def Obligations.MatrixWordResults : Prop :=
  ∀ (s : State) (w : Wave) (sw : BitVec 1) (p q : BitVec 4) (c : BitVec 3) (z : BitVec 1) (a b : BitVec 6),
    s.hasClaim w = true →
    let r (k : Nat) : DWord := w.s (a.toNat + k)
    let d := mmaDesc c.toNat (z == 1#1) p.toNat q.toNat (r 0) (r 1) (r 2) (r 3)
    (s.queueFull w.core (c.toNat / 2) = false → mmaRegsZero (r 0) (r 1) (r 2) (r 3) = true →
      mmaCheck (s.scratchSize w) d = none →
      s.Gives w (.mma sw p q c z a) (s.afterWord sw (((s.enterRows s.cur d).enqueueCmd
        ⟨w.core, d, .mma, .queued, 0, s.cur, w.group, w.ctx, false⟩ (c.toNat / 2)).advance s.cur))) ∧
    (s.queueFull w.core (c.toNat / 2) = false →
      s.Gives w (.accz sw c) (s.afterWord sw ((s.enqueueCmd (accCmd s.cur w .accz c.toNat 0#64 0#64) (c.toNat / 2)).advance
        s.cur))) ∧
    (∀ rows, s.queueFull w.core (c.toNat / 2) = false →
      s.accCheck w false .rd (w.s a.toNat) (w.s b.toNat) 512 = .ok rows →
      s.Gives w (.accld sw c a b) (s.afterWord sw (((s.enterLines s.cur rows.flatten).enqueueCmd
        (accCmd s.cur w .accld c.toNat (w.s a.toNat) (w.s b.toNat)) (c.toNat / 2)).advance s.cur))) ∧
    (s.queueFull w.core (c.toNat / 2) = true → ∀ i, i ∈ [Instr.mma sw p q c z a, .accz sw c, .accld sw c a b] →
      s.Gives w i (s.setSt s.cur (.wait (.entry (some (c.toNat / 2)))))) ∧
    (s.cmdsOn w.core c.toNat = [] → s.Gives w (.mwait sw c) (s.afterWord sw (s.advance s.cur))) ∧
    (s.cmdsOn w.core c.toNat ≠ [] →
      s.Gives w (.mwait sw c) (s.afterWord sw (s.setSt s.cur (.wait (.mwait c.toNat (s.cmdsOn w.core c.toNat))))))

/-! ### Mirror -/

/-- 11 R275 to R278: HVNEAR whose checks pass starts its scan at the first entry, or at NEXT of a valid record, which it clears;
a scan of no entries writes its results at once; where a check fails, the record is cleared and the trap taken. A step of a scan under way
compares the entry that is next: its distance to the query is the number of bits that differ; a smaller one than the best takes its place;
below STOP, or with the last entry, the scan ends; else the next entry is next. A scan that ends writes the index and the distance, leaves a
record with VALID = 0 and the other fields as they were, and its wave goes on. A poisoned line stops the scan before the entry, with a valid record of how far it came. When a line of an entry is loaded is the
model's choice (log 83; 11 R277 leaves the moment open). -/
def Obligations.MirrorResults : Prop :=
  ∀ (s : State) (w : Wave) (sw : BitVec 1) (a : BitVec 4) (x y : BitVec 6),
    let base := w.s y.toNat
    let ctl := w.s (y.toNat + 1)
    let m : Mirror := if w.mirror.valid then { w.mirror with valid := false } else ⟨false, 0, 8193, 0xFFFFFFFFFFFFFFFF⟩
    let s1 := (s.tableLooks w base (1024 * (ctl.toNat % 2 ^ 13))).modWave s.cur (fun z => { z with
      mirror := { z.mirror with valid := false }, st := .wait (.hvnear x.toNat (w.hv a.toNat) base ctl m) })
    (s.mirrorCheck w base ctl = none →
      (ctl.toNat % 2 ^ 13 ≤ m.next → s.Gives w (.hvnear sw a x y) (s.afterWord sw (s1.mirrorFinish s.cur x.toNat m))) ∧
      (m.next < ctl.toNat % 2 ^ 13 → s.Gives w (.hvnear sw a x y) (s.afterWord sw s1))) ∧
    (∀ t, s.mirrorCheck w base ctl = some t → s.Gives w (.hvnear sw a x y) (s.afterWord sw
      (((s.failedLooks s.cur t).modWave s.cur (fun z => { z with mirror := { z.mirror with valid := false } })).takeTrap s.cur t
        false))) ∧
    (∀ (k d : Nat) (v : Wave) (q : Hyper) (tb tc : DWord) (scan : Mirror), s.waves[k]? = some v →
      v.st = .wait (.hvnear d q tb tc scan) →
      let count := tc.toNat % 2 ^ 13
      let j := scan.next
      let va := tb + BitVec.ofNat 64 (1024 * j)
      (count ≤ j → s.mirrorStep k = s.mirrorFinish k d scan) ∧
      (j < count → s.entryPoison k v va = none →
        let e := s.entryBytes k v va 8
        let dist := (List.range 8192).countP (fun i => q.getLsbD i != (BitVec.ofNat 8192 (natOfBytes e.1)).getLsbD i)
        let best : Mirror := if dist < scan.bestD then { scan with next := j + 1, bestD := dist, bestI := j }
          else { scan with next := j + 1 }
        s.mirrorStep k = if dist < tc.toNat / 2 ^ 32 % 2 ^ 14 ∨ count ≤ j + 1 then e.2.mirrorFinish k d best
          else e.2.setSt k (.wait (.hvnear d q tb tc best))) ∧
      (∀ at_ code, j < count → s.entryPoison k v va = some (at_, code) → s.mirrorStep k =
        (s.modWave k (fun z => { z with mirror := { scan with valid := true }, st := .ready })).meetPoison k at_ code) ∧
      (∀ best : Mirror, v.sregs.length = 64 → d + 1 < 64 → ∃ z, (s.mirrorFinish k d best).waves[k]? = some z ∧
        (d ≠ 0 → z.s d = BitVec.ofNat 64 best.bestI) ∧ z.s (d + 1) = BitVec.ofNat 64 best.bestD ∧
        (∀ n, n ≠ d → n ≠ d + 1 → z.s n = v.s n) ∧ z.mirror = { v.mirror with valid := false } ∧ z.st = .ready ∧
        z.pc = v.pc + 4#64))

/-! ### Records and sample groups -/

/-- 13 R317, R325 to R329: with their operands as the rules ask, ENQ and SGREWARD pass a release of system or device scope and
return their status, SGFORK makes its object and its records, SGWAIT returns, or spins, SGCANCEL cancels, SGQUERY reports, after a timeout that is due has
expired (R324). With stores pending, ENQ and SGREWARD wait at their releasing boundary and do the same once the last has entered (05 R130, R131).
The first clauses say what these leave: the status of ENQ and the record that joins its bin (R314, R315, R317), the object, the records and the
reference of SGFORK (R322, R325), what SGREWARD finds of its sibling and returns (R323, R326), the return of SGWAIT (R327), whom SGCANCEL
ends (R328), the words of SGQUERY (R329), and finalisation, which follows at once when no sibling is WAITING (R324, R330). A group whose tree has
been ended adds no record (R321). The choices of the model: which free slot of the pool a record takes, and the lowest free number for an object
(log 11), and that of what SGCANCEL ends the groups come first, then the launches, then the records in bins (log 85). -/
def Obligations.WorkWordResults : Prop :=
  (∀ (u : State) (k d bin : Nat) (va : DWord) (p : Place) (y : Wave) (h : Group) (t : Tree),
    u.waves[k]? = some y → u.groups[y.group]? = some h → u.trees[h.tree]? = some t →
    let u1 := u.modTree h.tree (fun x => { x with infl := x.infl - 1 })
    let status (v : State) (n : DWord) : State := (v.modWave k (fun x => x.addOut (.s d n))).proceed k
    let picked := u1.pickSlotOf y.ctx
    (t.abandoned = true → u.enqRest k d va p bin = u1.proceed k) ∧
    (t.abandoned = false → u1.meets k y p = false →
      (24 ≤ h.depth → u.enqRest k d va p bin = status u1 2#64) ∧
      (h.depth < 24 → picked.1 = none → u.enqRest k d va p bin = status picked.2 1#64) ∧
      (∀ slot, h.depth < 24 → picked.1 = some slot →
        let r := picked.2.recordOf k p
        u.enqRest k d va p bin = status (((r.2.takeSlot y.ctx slot).feWrite y.ctx (r.2.slotAddr y.ctx slot) r.1).addRecord y.ctx bin slot
          h.tree (h.depth + 1) none) 0#64)) ∧
    (∀ z, u1.ctxs[y.ctx]? = some z → (picked.1 = none ↔ ∀ i, i < 1048576 → i ∈ z.pool) ∧
      (∀ slot, picked.1 = some slot → slot < 1048576 ∧ slot ∉ z.pool))) ∧
  (∀ (u : State) (c bin slot tree depth : Nat) (sib : Option SibRef) (x : Bin) (z : Ctx),
    u.ctxs[c]? = some z → u.binOf c bin = some x → (x.slots ≠ [] → u.ctxRuns c = true → z.resClock < x.due) →
    let other : Prop := x.slots ≠ [] ∧ (x.tree ≠ tree ∨ sib.isSome = true ∨ x.sib.isSome = true)
    let joined (v : State) (clock : Nat) : State := (v.modBin c bin (fun y => { y with
      slots := y.slots ++ [slot], tree := tree, sib := sib
      depth := if y.slots = [] then depth else max y.depth depth
      due := if y.slots = [] then clock + max 1 (256 * y.timer) else y.due })).modTree tree (fun t => { t with pend := t.pend + 1 })
    (¬ other → x.coal ≤ x.slots.length + 1 ∨ sib.isSome = true →
      u.addRecord c bin slot tree depth sib = (joined u z.resClock).fireDue c bin 0) ∧
    (¬ other → x.slots.length + 1 < x.coal → sib = none → u.addRecord c bin slot tree depth sib = joined u z.resClock) ∧
    (other → ∀ y, (joined (u.fireDue c bin 0) z.resClock).binOf c bin = some y →
      u.addRecord c bin slot tree depth sib = if y.coal ≤ y.slots.length ∨ sib.isSome = true then
        (joined (u.fireDue c bin 0) z.resClock).fireDue c bin 0 else joined (u.fireDue c bin 0) z.resClock)) ∧
  (∀ (u : State) (c n bin timeout : Nat) (z : Ctx) (h : Group) (eps : Word) (bs : List (BitVec 8)), u.ctxs[c]? = some z →
    let live (num : Nat) : Prop := ∃ o ∈ z.sgos, o.num = num ∧ o.live = true
    (24 ≤ h.depth → u.fork c h n bin timeout eps bs = (0x02000000FFFFFFFF#64, u)) ∧
    (h.depth < 24 → (∀ num, num < 65536 → live num) → u.fork c h n bin timeout eps bs = (0x03000000FFFFFFFF#64, u)) ∧
    (∀ num, h.depth < 24 → num < 65536 → ¬ live num → (∀ m, m < num → live m) →
      (1048576 < z.pool.length + n → u.fork c h n bin timeout eps bs = (0x01000000FFFFFFFF#64, u)) ∧
      (z.pool.length + n ≤ 1048576 →
        let gen := nextGen z.sgos num
        let o : Sgo :=
          { num := num, gen := gen, tree := h.tree, sibs := List.replicate n ⟨.waiting, 0#32, 0#32, false, false⟩,
            eps := eps, timeout := timeout, due := none, expired := false, final := false, live := true }
        let made := u.modCtx c (fun x => { x with sgos := o :: x.sgos.filter (fun p => p.num != num) })
        u.fork c h n bin timeout eps bs = (BitVec.ofNat 64 (num + 65536 * (gen % 65536)),
          made.forkRecords c bin num gen h.tree (h.depth + 1) bs n))) ∧
    (∀ num, (∀ o ∈ z.sgos, o.num ≠ num) → nextGen z.sgos num = 0) ∧
    (∀ o l, nextGen (o :: l) o.num = (o.gen + 1) % 65536) ∧
    (∀ num gen tree depth i slot, num < 65536 → gen < 65536 → i < 256 →
      let v := u.forkRecords c bin num gen tree depth bs i
      u.forkRecords c bin num gen tree depth bs 0 = u ∧
      ((v.pickSlotOf c).1 = some slot → u.forkRecords c bin num gen tree depth bs (i + 1) =
        ((((v.pickSlotOf c).2.takeSlot c slot).feWrite c ((v.pickSlotOf c).2.slotAddr c slot)
          (bs ++ bytesOfNat 8 (num + 65536 * gen + 4294967296 * i))).addRecord c bin slot tree depth (some ⟨num, gen, i⟩))))) ∧
  (∀ (u : State) (c : Nat) (r : SibRef) (rew : Word) (o : Sgo) (b : Sib) (z : Ctx),
    let e := u.sgExpire c r
    (e.sgoOf c r = none → u.sgReward c r rew = (0x0000010200000000#64, e)) ∧
    (e.sgoOf c r = some o → o.sibs[r.idx]? = some b → e.ctxs[c]? = some z →
      let finite := decide (rew.toNat % 2 ^ 31 < 0x7F800000)
      let e1 := (e.modSgo c r (fun p => { p with
        sibs := p.sibs.modify r.idx (fun y => { y with kind := if finite then .reported else .nonfin, reward := rew })
        due := some (p.due.getD (z.resClock + 256 * p.timeout)) })).settleSgo c r
      (b.kind = .waiting → ∀ p, e1.sgoOf c r = some p →
        u.sgReward c r rew = (sgResult 0#32 (if finite then 1 else 4) p.final, e1)) ∧
      (b.kind = .waiting → e1.sgoOf c r = none → u.sgReward c r rew = (sgResult 0#32 (if finite then 1 else 4) true, e1)) ∧
      (b.kind ≠ .waiting → u.sgReward c r rew =
        (sgResult 0#32 (if b.kind = .cancelled then 5 else if b.kind = .timedout then 2 else 6) o.final, e))) ∧
    (∀ (adv : Word) (st : Nat) (f : Bool), st < 256 → let v := sgResult adv st f
      v.extractLsb' 0 32 = adv ∧ (v.extractLsb' 32 8).toNat = st ∧ v.getLsbD 40 = f ∧ v.extractLsb' 41 23 = 0#23) ∧
    (∀ (k d : Nat) (a : DWord) (y : Wave) (h : Group), u.waves[k]? = some y → u.groups[y.group]? = some h → h.sib = some r →
      let v := u.sgReward y.ctx r (a.extractLsb' 0 32)
      u.rewardRest k d a = (v.2.modWave k (fun x => x.addOut (.s d v.1))).proceed k) ∧
    (∀ (k d : Nat) (y : Wave), y.ctx = c →
      let give (v : DWord) : State := e.modWave k (fun x => x.addOut (.s d v))
      (e.sgoOf c r = none → u.sgWaitLook k d y r = some (((give 0x0000010200000000#64).acquire k).proceed k)) ∧
      (e.sgoOf c r = some o → o.sibs[r.idx]? = some b →
        (o.final = true → u.sgWaitLook k d y r = some (((give (sgResult b.adv b.finalStatus true)).acquire k).proceed k)) ∧
        (o.final = false → b.kind = .waiting → u.sgWaitLook k d y r = some ((give 0x0000000700000000#64).proceed k)) ∧
        (o.final = false → b.kind ≠ .waiting → u.sgWaitLook k d y r = none))) ∧
    (e.sgoOf c r = none → u.sgCancel c r = e) ∧
    (e.sgoOf c r = some o →
      let e1 := if o.final then e else
        (e.modSgo c r (fun p => { p with sibs := p.sibs.modify r.idx (fun y => { y with kind := .cancelled }) })).settleSgo c r
      ∃ (gs ls : List Nat) (bs : List (Nat × Bin)),
        (∀ g, g ∈ gs ↔ ∃ x, e1.groups[g]? = some x ∧ x.ctx = c ∧ x.sib = some r) ∧
        (∀ l, l ∈ ls ↔ ∃ x, e1.launches[l]? = some x ∧ x.ctx = c ∧ x.sib = some r ∧ x.listed = true) ∧
        (∀ q, q ∈ bs ↔ ∃ x, e1.ctxs[c]? = some x ∧ q ∈ x.bins ∧ q.2.sib = some r ∧ q.2.slots ≠ []) ∧
        u.sgCancel c r = bs.foldl (fun t q => t.dropSet c q.1 q.2)
          (ls.foldl (fun t l => t.modLaunch l (fun x => { x with dead := true })) (gs.foldl State.killGroup e1))) ∧
    (∀ x : DWord, SibRef.ofWord x = r →
      (u.sgoOf c r = none → u.sgQuery c x = 0x10000000#64) ∧
      (u.sgoOf c r = some o → x.getLsbD 63 = false → u.sgQuery c x = o.objWord) ∧
      (u.sgoOf c r = some o → o.sibs[r.idx]? = some b → x.getLsbD 63 = true → u.sgQuery c x =
        if o.final then sgResult b.adv b.finalStatus true else sgResult 0#32 b.openStatus false)) ∧
    b.finalStatus = (match b.kind with
      | .reported => if b.degenerate then 3 else 0
      | .nonfin => 4
      | .cancelled => 5
      | .timedout => 2
      | .waiting => 7) ∧
    b.openStatus = (match b.kind with
      | .reported => 1
      | .nonfin => 4
      | .cancelled => 5
      | .timedout => 2
      | .waiting => 7) ∧
    (o.sibs.length ≤ 256 →
      let v := o.objWord
      (v.extractLsb' 0 9).toNat = o.sibs.length ∧
      (v.extractLsb' 9 9).toNat = (o.sibs.filter (fun y => y.kind == .reported || y.kind == .nonfin)).length ∧
      (v.extractLsb' 18 9).toNat = (o.sibs.filter (fun y => y.kind != .waiting)).length ∧
      v.getLsbD 27 = o.final ∧ v.getLsbD 28 = false ∧ v.getLsbD 29 = o.expired ∧ v.getLsbD 30 = o.due.isSome ∧
      v.extractLsb' 31 33 = 0#33)) ∧
  (∀ (u : State) (c : Nat) (r : SibRef) (o : Sgo) (eps : Word) (l : List Machine.Num), u.sgoOf c r = some o →
    (o.final = false → (∃ b ∈ o.sibs, b.kind = .waiting) → u.settleSgo c r = u) ∧
    (o.final = false → (∀ b ∈ o.sibs, b.kind ≠ .waiting) →
      let f := (u.boundTo c o).foldl State.wakeGroup (u.modSgo c r Sgo.finalise)
      u.settleSgo c r = if o.sibs.all (·.gone) then f.modSgo c r (fun y => { y with live := false }) else f) ∧
    (let p := o.finalise
     let given (i : Nat) : List Sib := (o.sibs.take i).filter (fun b => b.kind == .reported)
     let rewards := (o.sibs.filter (fun b => b.kind == .reported)).map (fun b => decodeFloat .fp32 b.reward.toNat)
     p.final = true ∧ p.sibs.length = o.sibs.length ∧
     (∀ (i : Nat) (b : Sib), o.sibs[i]? = some b → b.kind ≠ .reported → p.sibs[i]? = some { b with adv := 0#32, degenerate := false }) ∧
     (∀ (i : Nat) (b : Sib), o.sibs[i]? = some b → b.kind = .reported → rewards.length < 2 →
       p.sibs[i]? = some { b with adv := 0#32, degenerate := true }) ∧
     (∀ (i : Nat) (b : Sib), o.sibs[i]? = some b → b.kind = .reported → 2 ≤ rewards.length →
       ∃ a, (advantages o.eps rewards)[(given i).length]? = some a ∧ p.sibs[i]? = some { b with adv := a, degenerate := false })) ∧
    (let n := Machine.Num.ofInt l.length
     let less (x : Machine.Num) (m : Nat) : Nat := f64 (Machine.Num.add .rne x (dec64 m).negate).1
     let mu := f64 (divNum (dec64 (l.foldl (fun a x => f64 (Machine.Num.add .rne (dec64 a) x).1) 0)) n)
     let q := l.foldl (fun a x =>
       f64 (Machine.Num.add .rne (dec64 a) (dec64 (f64 (Machine.Num.mul (dec64 (less x mu)) (dec64 (less x mu))).1))).1) 0
     let sigma := f64 (sqrtNum (dec64 (f64 (divNum (dec64 q) n)))).1
     let den := f64 (Machine.Num.add .rne (dec64 sigma) (decodeFloat .fp32 eps.toNat)).1
     advantages eps l = l.map (fun x =>
       let a := (roundTo .fp32 .rne false (divNum (dec64 (less x mu)) (dec64 den))).1
       if a % 2 ^ 31 = 0 then 0#32 else BitVec.ofNat 32 a)) ∧
    advantages 0x35800000#32 ([0x3F800000, 0x40800000, 0x3F800000].map (decodeFloat .fp32)) =
      [0xBF3504EB#32, 0x3FB504EB#32, 0xBF3504EB#32]) ∧
  ∀ (s : State) (w : Wave) (g : Group) (sw : BitVec 1) (d a b : BitVec 6) (p : Place) (r : SibRef),
    s.Calm w → s.groups[w.group]? = some g →
    let va := w.s a.toNat
    let x := w.s b.toNat
    let looked := s.waveLooks s.cur .rd va
    let sent := looked.modTree g.tree (fun t => { t with infl := t.infl + 1 })
    (va.toNat % 32 = 0 → x.toNat < 2 ^ 12 → s.binEnabled w.ctx x.toNat = true → s.checkAccess w .rd false 32 va 32 = .ok p →
      (w.pend = [] → s.Gives w (.enq sw d a b) (s.afterWord sw ((sent.releaseDone s.cur 4).enqRest s.cur d.toNat va p x.toNat))) ∧
      (w.pend ≠ [] → s.Gives w (.enq sw d a b) (s.afterWord sw (sent.setSt s.cur (.wait (.release 4
        (.enq d.toNat va p x.toNat))))))) ∧
    (∀ u : State, u.AllEntered s.cur 4 (.enq d.toNat va p x.toNat) →
      u.settleRelease s.cur = (u.releaseDone s.cur 4).enqRest s.cur d.toNat va p x.toNat) ∧
    (va.toNat % 32 = 0 → s.forkDetail w.ctx x = none → s.checkAccess w .rd false 32 va 24 = .ok p →
      s.Gives w (.sgfork sw d a b) (s.afterWord sw (
        let rd := (looked.beforeAccess s.cur p 24).load s.cur p 24
        let f := rd.2.2.fork w.ctx g (bitsOf x 0 9) (bitsOf x 16 12) (bitsOf x 32 16) (epsilonOf (bitsOf x 48 16)) rd.1
        f.2.modWave s.cur (fun y => (y.addOut (.s d.toNat f.1)).advance)))) ∧
    (g.sib = some r → w.pend = [] →
      s.Gives w (.sgreward sw d a) (s.afterWord sw (
        let v := (s.releaseDone s.cur 4).sgReward w.ctx r (va.extractLsb' 0 32)
        (v.2.modWave s.cur (fun y => y.addOut (.s d.toNat v.1))).proceed s.cur))) ∧
    (g.sib = some r → w.pend ≠ [] →
      s.Gives w (.sgreward sw d a) (s.afterWord sw (s.setSt s.cur (.wait (.release 4 (.sgreward d.toNat va)))))) ∧
    (∀ u : State, u.AllEntered s.cur 4 (.sgreward d.toNat va) →
      u.settleRelease s.cur = (u.releaseDone s.cur 4).rewardRest s.cur d.toNat va) ∧
    (∀ t, g.sib = some r → s.sgWaitLook s.cur d.toNat w r = some t → s.Gives w (.sgwait sw d) (s.afterWord sw t)) ∧
    (g.sib = some r → s.sgWaitLook s.cur d.toNat w r = none →
      s.Gives w (.sgwait sw d) (s.afterWord sw (s.setSt s.cur (.wait (.sgspin d.toNat (s.coreClock w.core + 2048)))))) ∧
    (va.toNat < 2 ^ 40 → s.idxBad w.ctx (SibRef.ofWord va) = false →
      s.Gives w (.sgcancel sw a) (s.afterWord sw ((s.advance s.cur).sgCancel w.ctx (SibRef.ofWord va)))) ∧
    (bitsOf va 40 23 = 0 → s.idxBad w.ctx (SibRef.ofWord va) = false →
      let e := s.sgExpire w.ctx (SibRef.ofWord va)
      s.Gives w (.sgquery sw d a) (s.afterWord sw (e.modWave s.cur (fun y => (y.addOut (.s d.toNat (e.sgQuery w.ctx va))).advance))))
/-! ### Encodings -/

/-- Words of the spec's own listings decode to the instructions that stand beside them (07 R191; 08 R222, R225; 09 R248). -/
def Obligations.WordsDecode : Prop :=
  decode 0x6F1C2000#32 = some (.srd 0#1 2#6 0x000#12) ∧ decode 0x6E100008#32 = some (.call 0#1 8#18) ∧
  decode 0x66200400#32 = some (.gadd 0#1 0#6 4#6 0#8) ∧ decode 0x61140001#32 = some (.addi 0#1 5#6 0#6 1#12) ∧
  decode 0xE6218501#32 = some (.gadd 1#1 6#6 5#6 1#8) ∧ decode 0x6D1C0002#32 = some (.bnez 0#1 7#6 2#18) ∧
  decode 0x6F0C0000#32 = some (.endWave 0#1) ∧ decode 0x60304081#32 = some (.shli 0#1 4#6 2#6 1#6) ∧
  decode 0x6F080000#32 = some (.ret 0#1) ∧ decode 0x73300000#32 = some (.vlaneid 0#1 0#8) ∧
  decode 0x38010007#32 = some (.vcvt 0#1 1#8 0#8 0#4 7#4) ∧ decode 0x7F041000#32 = some (.hintImm 0x41000#20) ∧
  decode 0x700A0201#32 = some (.vcmpLtF32 0#1 0#3 2#8 1#8) ∧ decode 0x71280030#32 = some (.mfroms 0#1 0#3 3#6) ∧
  decode 0x72030103#32 = some (.vreduceAddF32 0#1 3#8 1#8) ∧ decode 0x73103100#32 = some (.vrdlane 0#1 3#8 4#6 0#6) ∧
  decode 0x6B903100#32 = some (.wsq 0#1 3#6 4#6) ∧ decode 0x80000000#32 = none

/-- 06 R156, R157, R171, R172: every instruction with a form, and both hint words, have a word; that word decodes to the
instruction with every operand; and a word that decodes is the word of what it decodes to, so that no bit of it is ignored. -/
def Obligations.EncodingRoundTrip : Prop :=
  (∀ i f, issueForm i = some f → ∃ w, encode i = some w) ∧
  (∀ p, ∃ w, encode (.hintImm p) = some w) ∧ (∀ v m t z e cv c, ∃ w, encode (.hintMod v m t z e cv c) = some w) ∧
  (∀ i w, encode i = some w → decode w = some i) ∧ (∀ i w, decode w = some i → encode i = some w)

/-! ### A step -/

/-- A step takes the turn at the head of the agenda, after one clock and the changes of region registers that were waiting.
On a wave's turn, the word at its PC, once fetched and decoded, runs; a word that finds no entry of its queue has not issued, and stays
fetched. On an event's turn, the event acts. With an empty agenda and nothing else to act, a wave whose word finds no entry begins to
wait; where there is none, a wave's own word runs (log 1). What the turn moved is accounted to the context it acted for. -/
def Obligations.StepRunsDecoded : Prop :=
  ∀ (s : State) (k : Nat) (rest : List Turn) (w : Wave) (v : Word) (s1 s2 : State) (i : Instr),
    let t := State.settleChanges (State.oneClock { s with agenda := rest })
    let u := State.settleChanges (State.oneClock s)
    (s.agenda = .wave k :: rest → t.waves[k]? = some w → t.mayIssue w = true → t.fetch w = .word v s1 → v ≠ 0#32 →
      decode v = some i → step s = settleAfter t (some w.ctx) (s1.ifIssued k v (exec i (s1.atWord k w)))) ∧
    (∀ r : State, (∀ x a, r.waves[k]? = some x → x.st ≠ .wait (.entry a)) → s1.ifIssued k v (.next r) = .next r) ∧
    (∀ (r : State) x a, r.waves[k]? = some x → x.st = .wait (.entry a) → s1.ifIssued k v (.next r) =
      .next (s1.modWave k (fun y => { y with fetched := some (y.pc, v), st := .wait (.entry a) }))) ∧
    (s.agenda = .event i :: rest → isRegionEvent i = false → step s = settleAfter t (t.eventCtx i) (exec i t)) ∧
    (s.agenda = .event i :: rest → isRegionEvent i = true →
      step s = settleAfter (State.oneClock { s with agenda := rest }) ((State.oneClock { s with agenda := rest }).eventCtx i)
        (exec i (State.oneClock { s with agenda := rest }))) ∧
    (s.agenda = [] → firstChange u u.attempts = none → u.issuable.find? (fun y => u.stalls y.1 y.2) = some (k, w) →
      step s = settleAfter u (some w.ctx) (u.waveTurn k)) ∧
    (s.agenda = [] → firstChange u u.attempts = none → u.issuable.find? (fun y => u.stalls y.1 y.2) = none →
      u.chooseWave = some (k, s2) → u.waves[k]? = some w →
      s2.waves[k]? = some w → s2.mayIssue w = true → s2.fetch w = .word v s1 → v ≠ 0#32 → decode v = some i →
      step s = settleAfter u (some w.ctx) (s1.ifIssued k v (exec i (s1.atWord k w))))

/-- 07 R191; 06 R170 steps 1 to 3; 00 R5; 02 R49: the fetch of a word. Its checks fail in their order, and each traps with the address of
the word; a word that is not held already is the four bytes at its place, lowest address first; a poisoned line is met; the zero
word traps ZERO_WORD, a word that is no instruction ILLEGAL with the word. -/
def Obligations.FetchRule : Prop :=
  ∀ (s s1 : State) (k : Nat) (w : Wave) (c : Core) (x : Xlat) (t : TrapInfo) (v : Word),
    s.waves[k]? = some w → s.mayIssue w = true → s.cores[w.core]? = some c →
    let past := w.ran && pastEnd w.pc
    (past = true → s.waveTurn k = .next (s.takeTrap k (trapAt causePcRange w.pc) false)) ∧
    (past = false → s.fetchXlat w w.pc = .error t → s.waveTurn k = .next ((s.failedLooks k t).takeTrap k t false)) ∧
    (past = false → s.fetchXlat w w.pc = .ok x → w.heldWord = none → s.icacheHit w w.pc = none →
      s.linePoisoned (x.pa / 128) = true → s.waveTurn k = .next (s.meetPoison k w.pc (s.lineClass (x.pa / 128)))) ∧
    (past = false → s.fetchXlat w w.pc = .ok x → w.heldWord = none → s.icacheHit w w.pc = none →
      s.linePoisoned (x.pa / 128) = false → w.pc.toNat % 4 = 0 →
      ∃ s1, s.fetch w = .word (BitVec.ofNat 32 (natOfBytes ((List.range 4).map (fun j =>
        s.agentByte (x.pa / 128 * 128 + w.pc.toNat % 128 + j))))) s1 ∧ s1.waves = s.waves ∧ s1.mem = s.mem) ∧
    (s.fetch w = .word 0#32 s1 →
      s.waveTurn k = .next ((s1.atWord k w).takeTrap k (trapAt causeZeroWord w.trapPoint) false)) ∧
    (s.fetch w = .word v s1 → v ≠ 0#32 → decode v = none →
      s.waveTurn k = .next ((s1.atWord k w).takeTrap k (trapAt causeIllegal (v.setWidth 64)) false))

/-! ### Checks before a word's own, privilege -/

/-- 06 R170; 04 R110: an instruction word that fails one of the checks before its own takes that trap, and has no other effect. It is so
for every word. One that passes them and reads a register with an uncorrectable error takes ECC with the address of the line, in the
register window (0 for a group register, which has none: log 76). Of the words that pass them, only COPYK, whose queue is its core's kick
queue, and MMA, ACCZ and ACCLD, whose queue is that of the array of their tile, wait for an entry where that queue is full: they have not
issued (09 R245; 10 R258). Which check fails is said for every word that has a form: ILLEGAL for fields that are not well formed, a number of a
special register that does not exist or cannot be written, a register beyond the role's budget, a prefix field that the word does not accept,
a feature that the context lacks (06 R158 to R160, R165 to R167; 15 R373); then PRIV; then, in strict mode, MARKER for the first register with
an outstanding result, sources before destinations (06 R163; 14 R336). The word that fails none of them passes. -/
def Obligations.ChecksComeFirst : Prop :=
  ∀ (s : State) (w : Wave) (i : Instr) (t : TrapInfo) (va : DWord),
    let queue : Option (Option Nat) := match i with
      | .copyk _ _ => some none
      | .mma _ _ _ c _ _ => some (some (c.toNat / 2))
      | .accz _ c => some (some (c.toNat / 2))
      | .accld _ c _ _ => some (some (c.toNat / 2))
      | _ => none
    (s.TurnedAway w i t → exec i s = .next (s.takeTrap s.cur t false)) ∧
    (s.MeetsBadRegister w i va → exec i s = .next (s.takeTrap s.cur (eccAt va 1) false)) ∧
    (∀ a, queue = some a → s.hasEntry w.core a = false → s.Ready w i → exec i s = .next (s.setSt s.cur (.wait (.entry a)))) ∧
    (∀ f, issueForm i = some f → s.waves[s.cur]? = some w →
      let named := f.sources w ++ f.dst
      let known : Prop := i.wf = true ∧ f.accepts w = true ∧ (∀ r ∈ named, r.inBudget w = true) ∧
        (∀ k, f.feat = some k → s.hasFeature w k = true)
      let allowed : Prop := f.priv = true → s.privileged w = true
      (¬ known → s.TurnedAway w i (trapAt causeIllegal (wordAddr i))) ∧
      (known → ¬ allowed → s.TurnedAway w i (trapAt causePriv (wordAddr i))) ∧
      (∀ l r m, known → allowed → s.strict w = true → named = l ++ r :: m → w.outstanding r = true →
        (∀ x ∈ l, w.outstanding x = false) → s.TurnedAway w i (trapAt causeMarker r.markerAddr)) ∧
      (known → allowed → (s.strict w = true → ∀ r ∈ named, w.outstanding r = false) → s.bad = [] → s.Ready w i) ∧
      (f.accepts w = true ↔ (∀ pc h m, w.pfx = some ⟨pc, some h, m⟩ → f.imm = true) ∧
        (∀ pc h m, w.pfx = some ⟨pc, h, some m⟩ → ∃ a, f.mods = some a ∧ (a.rm = false → m.extractLsb' 17 3 = 0#3) ∧
          (a.sat = false → m.getLsbD 16 = false) ∧ (a.ftz = false → m.getLsbD 15 = false) ∧
          (a.f8 = false → m.getLsbD 14 = false) ∧ (a.c = false → m.extractLsb' 5 9 = 0#9))) ∧
      f.imm = (match i with
        | .addi _ _ _ _ | .andi _ _ _ _ | .ori _ _ _ _ | .xori _ _ _ _ | .slti _ _ _ _ | .sltiu _ _ _ _ | .sld _ _ _ _
        | .sst _ _ _ _ | .jmpr _ _ _ | .callr _ _ _ => true
        | _ => false) ∧
      f.mods = (match i with
        | .vaddI32 _ _ _ _ | .vsubI32 _ _ _ _ | .vmulI32 _ _ _ _ | .vaddInt8x4 _ _ _ _ | .vsubInt8x4 _ _ _ _
        | .vaddUint8x4 _ _ _ _ | .vsubUint8x4 _ _ _ _ => some { sat := true }
        | .vaddF32 _ _ _ _ | .vsubF32 _ _ _ _ | .vmulF32 _ _ _ _ | .vaddBf16x2 _ _ _ _ | .vmulBf16x2 _ _ _ _
        | .vaddFp16x2 _ _ _ _ | .vmulFp16x2 _ _ _ _ | .vcvt _ _ _ _ _ | .vcvtpk _ _ _ _ _ | .vcvtxp _ _ _ _ _ | .vrcp _ _ _
        | .vrsq _ _ _ | .vsqrt _ _ _ | .vexp2 _ _ _ | .vlog2 _ _ _ | .vsinpi _ _ _ | .vcospi _ _ _ =>
          some { rm := true, sat := true, ftz := true }
        | .vfmaF32 _ _ _ _ | .vfmaBf16x2 _ _ _ _ | .vfmaFp16x2 _ _ _ _ => some { rm := true, sat := true, ftz := true, c := true }
        | .vminF32 _ _ _ _ | .vmaxF32 _ _ _ _ | .vabsF32 _ _ _ | .vnegF32 _ _ _ => some { ftz := true }
        | .vaddE4m3x4 _ _ _ _ | .vmulE4m3x4 _ _ _ _ => some { rm := true, sat := true, f8 := true }
        | .vdot2Bf16 _ _ _ _ | .vdot2Fp16 _ _ _ _ => some { c := true }
        | .vdot4E4m3 _ _ _ _ => some { f8 := true, c := true }
        | .vdot4Int8 _ _ _ _ => some { sat := true, c := true }
        | .vqblk _ _ _ _ => some { rm := true }
        | _ => none)) ∧
    (∀ n, ((RegRef.v n).inBudget w = true ↔ n < w.numV) ∧ ((RegRef.h n).inBudget w = true ↔ n < w.numH) ∧
      ((RegRef.b n).inBudget w = true ↔ n < w.numB) ∧ ((RegRef.s n).inBudget w = true ↔ n < 64)) ∧
    (∀ sw x n, ((Instr.srd sw x n).wf = true ↔ n.toNat ≤ 8 ∨ (0x10 ≤ n.toNat ∧ n.toNat ≤ 0x12) ∨ (0x20 ≤ n.toNat ∧ n.toNat ≤ 0x22) ∨
        (0x30 ≤ n.toNat ∧ n.toNat ≤ 0x32) ∨ (0x40 ≤ n.toNat ∧ n.toNat ≤ 0x42)) ∧
      ((Instr.swr sw x n).wf = true ↔ n = 0x021#12 ∨ n = 0x022#12 ∨ n = 0x031#12)) ∧
    (∀ c k, s.ctxs[w.ctx]? = some c → s.hasFeature w k = c.features.testBit k)

/-- 07 R199; 06 R163, R170 steps 3 to 5; 14 R341: outside privileged mode every form of primary 0x7C, with no prefix before it, traps
PRIV with its word, whatever its operand holds; in privileged mode it is not turned away. In strict mode a word that names a register
with an outstanding result traps MARKER with the register, here the scalar and the vector sum, sources before the destination. -/
def Obligations.ModeRules : Prop :=
  ∀ (s : State) (w : Wave) (sw : BitVec 1) (x d c a b : BitVec 6) (n : BitVec 12) (vd va vb : BitVec 8),
    s.waves[s.cur]? = some w → w.pfx = none →
    (∀ i, i ∈ [Instr.srdp sw x n, .swrp sw x n, .icinv sw, .tlbinv sw x, .wkill sw x, .wresume sw x, .halt sw, .acrd sw x d c] →
      (s.privileged w = false → exec i s = .next (s.takeTrap s.cur (trapAt causePriv (wordAddr i)) false)) ∧
      (s.privileged w = true → s.strict w = false → s.Ready w i)) ∧
    (s.strict w = true → vd.toNat < w.numV → va.toNat < w.numV → vb.toNat < w.numV →
      let marker (i : Instr) (r : RegRef) : Prop := exec i s = .next (s.takeTrap s.cur (trapAt causeMarker r.markerAddr) false)
      let out (r : RegRef) : Prop := w.outstanding r = true
      let free (r : RegRef) : Prop := w.outstanding r = false
      (out (.s a.toNat) → marker (.add sw d a b) (.s a.toNat)) ∧
      (free (.s a.toNat) → out (.s b.toNat) → marker (.add sw d a b) (.s b.toNat)) ∧
      (free (.s a.toNat) → free (.s b.toNat) → out (.s d.toNat) → marker (.add sw d a b) (.s d.toNat)) ∧
      (out (.v va.toNat) → marker (.vaddI32 sw vd va vb) (.v va.toNat)) ∧
      (free (.v va.toNat) → out (.v vb.toNat) → marker (.vaddI32 sw vd va vb) (.v vb.toNat)) ∧
      (free (.v va.toNat) → free (.v vb.toNat) → out (.v vd.toNat) → marker (.vaddI32 sw vd va vb) (.v vd.toNat)))

/-! ### Traps -/

/-- 14 R334, R335, R362: taking a trap (lost data of a context with an image takes none). With its results written, the wave's frame and special registers describe the trap, m0, s60, s61
and s62 are saved, m0 is all ones, the wave is in handler mode at TRAPVEC; its other registers, its pending stores, every other
wave and the rest of the machine are as they were. -/
def Obligations.TrapEntry : Prop :=
  ∀ (s : State) (k : Nat) (w : Wave) (c : Ctx) (t : TrapInfo) (after : Bool),
    s.waves[k]? = some w → s.ctxs[w.ctx]? = some c → w.atoms = [] → w.handler = false → w.masks.length = 8 →
    c.st ≠ .faulted → c.act.trapvec ≠ 0#64 →
    (t.cause = causeEcc → s.hasImage w.ctx = false) →
    let y := w.drainOuts
    let u := s.takeTrap k t after
    u = { s with waves := u.waves } ∧ (∀ j, j ≠ k → u.waves[j]? = s.waves[j]?) ∧
    ∃ x, u.waves[k]? = some x ∧ x.pc = c.act.trapvec ∧ x.handler = true ∧ x.st = .ready ∧ x.pfx = none ∧
      x.trapCause = t.cause ∧ x.trapAddr = t.addr ∧ x.trapPc = (if after then w.trapPoint + 4#64 else w.trapPoint) ∧
      x.frame.cause = t.cause ∧ x.frame.detail = t.detail ∧ x.frame.kind = t.kind ∧ x.frame.xcause = t.xcause ∧
      x.frame.addr = t.addr ∧ x.frame.tag = t.tag ∧ x.frame.low = t.low ∧ x.frame.lanev = t.lane.isSome ∧
      x.frame.tpc = w.trapPoint ∧ x.frame.sm0 = y.m 0 ∧ x.frame.s60 = y.s 60 ∧ x.frame.s61 = y.s 61 ∧ x.frame.s62 = y.s 62 ∧
      x.m 0 = 0xFFFFFFFF#32 ∧ (∀ n, n ≠ 0 → x.m n = y.m n) ∧ x.sregs = y.sregs ∧ x.vregs = y.vregs ∧ x.hvs = y.hvs ∧
      x.bas = y.bas ∧ x.hvtie = y.hvtie ∧ x.fpflags = y.fpflags ∧ x.pend = w.pend ∧ x.outs = [] ∧ x.adopted = w.adopted ∧
      (x.acqCnt, x.relCnt, x.snapCur, x.snapOvf) = (w.acqCnt, w.relCnt, w.snapCur, w.snapOvf)

/-- 07 R194, R195; 14 R338: TRAP takes TRAP_INSN with its immediate, and resumes after itself; TRET in handler mode restores m0, s60,
s61 and s62 from the frame as it stands, goes to SR_TRAPPC and leaves handler mode, once the results of earlier words are written;
outside it traps ILLEGAL. -/
def Obligations.TrapWordResults : Prop :=
  ∀ (s : State) (w : Wave) (sw : BitVec 1) (n : BitVec 12),
    s.Gives w (.trap sw n) (s.afterWord sw (s.takeTrap s.cur (trapAt causeTrapInsn (BitVec.ofNat 64 n.toNat)) true)) ∧
    (w.handler = true → w.atoms = [] → s.Gives w (.tret sw) (s.afterWord sw (s.modWave s.cur (fun _ =>
      let y := w.drainOuts
      { ((((y.setM 0 w.frame.sm0).setS 60 w.frame.s60).setS 61 w.frame.s61).setS 62 w.frame.s62) with
        pc := w.trapPc, handler := false })))) ∧
    (w.handler = true → s.Gives w (.tret sw) (s.afterWord sw
      (((s.drainAtoms s.cur).modWave s.cur Wave.drainOuts).modWave s.cur Wave.trapReturn))) ∧
    (w.handler = false → s.Gives w (.tret sw) (s.takeTrap s.cur (trapAt causeIllegal (wordAddr (.tret sw))) false))

/-- 14 R334 step 3, R339, R362; 12 R295: a trap with TRAPVEC = 0 is a context fault of kind UNHANDLED (LOST for ECC), a trap in handler
mode one of kind DOUBLE. The context is FAULTED with the frame of the fault; the wave has stopped, and keeps its own frame, its
special registers, m0 and handler mode; its running group is FAULTED when it was the last wave of the group to stop. While the context
is FAULTED already, nothing of it changes. Lost data of a context with an image takes no trap: the context rolls back. -/
def Obligations.ContextFaults : Prop :=
  ∀ (s : State) (k : Nat) (w : Wave) (c : Ctx) (t : TrapInfo) (after : Bool),
    s.waves[k]? = some w → s.ctxs[w.ctx]? = some c → w.atoms = [] → w.outs = [] →
    let u := s.takeTrap k t after
    let kept (x : Wave) : Prop := x.frame = w.frame ∧ x.trapCause = w.trapCause ∧ x.trapPc = w.trapPc ∧ x.trapAddr = w.trapAddr ∧
      x.masks = w.masks ∧ x.sregs = w.sregs ∧ x.handler = w.handler ∧ x.pend = w.pend
    let rolls : Prop := t.cause = causeEcc ∧ s.hasImage w.ctx = true
    (¬ rolls → c.st ≠ .faulted → (w.handler = true ∨ c.act.trapvec = 0#64) →
      (∃ x, u.waves[k]? = some x ∧ kept x ∧ x.stopped = true ∧
        x.pc = (if after then w.trapPoint + 4#64 else w.trapPoint)) ∧
      ∃ d, u.ctxs[w.ctx]? = some d ∧ d.st = .faulted ∧ d.faultFrame = w.frameFor t ∧
        d.faultKind = (if w.handler then 2#4 else if t.cause = causeEcc then 4#4 else 1#4) ∧
        (∀ y : Group, s.groups[w.group]? = some y → y.ctx = w.ctx → y.st = .running →
          ∃ z : Group, u.groups[w.group]? = some z ∧
            ((∀ v ∈ y.waves, v ≠ k → ∀ q, s.waves[v]? = some q → q.stopped = true ∨ q.st = .retired) → z.st = .faulted) ∧
            (∀ v q, v ∈ y.waves → v ≠ k → s.waves[v]? = some q → q.stopped = false → q.st ≠ .retired → z.st = .running))) ∧
    (rolls → (∃ d, u.ctxs[w.ctx]? = some d ∧ d.rollBy = some t.detail.toNat ∧ d.st = c.st) ∧ u.groups = s.groups ∧ u.mem = s.mem ∧
      ∃ x, u.waves[k]? = some x ∧ kept x ∧ x.pc = w.pc) ∧
    (¬ rolls → c.st = .faulted → u.ctxs = s.ctxs ∧ u.groups = s.groups ∧ u.mem = s.mem ∧
      ∃ x, u.waves[k]? = some x ∧ kept x ∧ x.held = some (w.frameFor t, after) ∧ x.pc = w.trapPoint)

/-! ### System words -/

/-- 07 R192, R200 to R203; 12 R303: END waits for its results and releases, then until the requests that its wave kicked have ended and its
commands are done, and retires the wave; with the last wave of its group, once the group's engine work has ended, the group retires, and
its slots, blocks and tables count no more; SRDP and SWRP read and write the listed registers and trap
ILLEGAL for others; ICINV and TLBINV drop their entries, TLBINV those of every TLB and page-walk cache, and what the front end has
kept (02 R74); WKILL, WRESUME and HALT act on the slot's wave; ACRD reads a counter. END with stores pending waits at its releasing boundary
(05 R130, R131). The model's choices here: TLBINV drops its entries when it issues and waits while an access under a tag that it names is open
(log 56), and what the front end has kept is marked to be found again (log 79). -/
def Obligations.SystemWordResults : Prop :=
  ∀ (s : State) (w : Wave) (sw : BitVec 1) (x d c : BitVec 6) (n : BitVec 12),
    let v := w.s x.toNat
    let illegal (i : Instr) : State := s.takeTrap s.cur (trapAt causeIllegal (wordAddr i)) false
    let on (t : State) : State := s.afterWord sw (t.advance s.cur)
    let dropped := (s.dropXlats (fun e => s.tagged v e.ctx) (fun e => s.tagged v e.ctx)).staleKept (fun c _ => s.tagged v c)
    (w.outs = [] → w.atoms = [] → w.pend = [] →
      s.Gives w (.endWave sw) (s.afterWord sw ((s.releaseDone s.cur 5).setSt s.cur (.wait .ending)))) ∧
    (w.outs = [] → w.atoms = [] → w.pend ≠ [] →
      s.Gives w (.endWave sw) (s.afterWord sw (s.setSt s.cur (.wait (.release 5 .endWave))))) ∧
    (∀ u : State, u.AllEntered s.cur 5 .endWave → u.settleRelease s.cur = (u.releaseDone s.cur 5).setSt s.cur (.wait .ending)) ∧
    (∀ (k : Nat) (y : Wave), s.waves[k]? = some y → y.stopped = false → y.due = [] → y.st = .wait .ending →
      s.lookTurn k y = .next (if s.waveDone k then (s.retireWave k).settleFaulted y.group else s)) ∧
    (∀ k : Nat, s.waveDone k = true ↔ (∀ q ∈ s.copies, q.host = none → q.wave = k → q.st.ended = true) ∧
      (∀ m ∈ s.cmds, m.wave = k → m.st = .done)) ∧
    (∀ (k : Nat) (y : Wave) (g : Group), s.waves[k]? = some y → s.groups[y.group]? = some g → g.st ≠ .retired →
      let t := s.retireWave k
      let last : Prop := ∀ j ∈ g.waves, j ≠ k → ∀ z, s.waves[j]? = some z → z.st = .retired
      (∃ z, t.waves[k]? = some z ∧ z.st = .retired ∧ z.pend = [] ∧ z.outs = [] ∧ z.atoms = []) ∧ t.mem = s.mem ∧
      (¬ last ∨ s.engineBusy y.group = true → t.groups = s.groups ∧ t.trees = s.trees ∧ t.ctxs = s.ctxs) ∧
      (last → s.engineBusy y.group = false →
        (g.sib = none → ∃ z, t.groups[y.group]? = some z ∧ z.st = .retired ∧ z.saved = []) ∧
        (g.sib = none → ∀ r, s.trees[g.tree]? = some r → t.trees[g.tree]? = some { r with
          live := r.live - 1, done := r.done + 1
          ended := if r.abandoned || g.waves.any (fun j => (s.waves[j]?).any (·.killed)) then r.ended else r.ended + 1 }) ∧
        (g.sib = none → ∀ r, s.ctxs[g.ctx]? = some r → ∃ z, t.ctxs[g.ctx]? = some z ∧
          z.pool = r.pool.filter (fun i => !(g.slots.contains i)) ∧ z.tables = r.tables.filter (fun i => g.table != some i)))) ∧
    (∀ (core : Nat) (dom : Option Nat), (∀ g : Group, g.st = .retired → s.onCore core dom g = false) ∧
      (∀ y ∈ s.slotWaves core dom, y.st ≠ .retired)) ∧
    (∀ r, s.privReg w.core n = some r → s.Gives w (.srdp sw x n) (s.became sw (w.setS x.toNat r))) ∧
    (s.privReg w.core n = none → s.Gives w (.srdp sw x n) (illegal (.srdp sw x n))) ∧
    s.Gives w (.swrp sw x 0x020#12) (on (s.modCore w.core (fun k => { k with prSlot := v.extractLsb' 0 7 }))) ∧
    (n ≠ 0x020#12 → s.Gives w (.swrp sw x n) (illegal (.swrp sw x n))) ∧
    s.Gives w (.icinv sw) (on ((s.allCores (fun k => { k with icache := [] })).allWaves (fun y => { y with fetched := none }))) ∧
    (v.extractLsb' 12 51 = 0#51 → s.accessesDone (s.tagged v) = true → s.Gives w (.tlbinv sw x) (on dropped)) ∧
    (v.extractLsb' 12 51 = 0#51 → s.accessesDone (s.tagged v) = false → s.Gives w (.tlbinv sw x)
      (s.afterWord sw (dropped.setSt s.cur (.wait (.tlbinv v))))) ∧
    (∀ (k : Nat) (y : Wave), y.stopped = false → y.st = .wait (.tlbinv v) →
      s.lookTurn k y = .next (if s.accessesDone (s.tagged v) then s.proceed k else s)) ∧
    (v.extractLsb' 12 51 ≠ 0#51 → s.Gives w (.tlbinv sw x) (illegal (.tlbinv sw x))) ∧
    (v.toNat < 128 → s.waveInSlot w.core v.toNat = none → s.Gives w (.wkill sw x) (on s) ∧ s.Gives w (.wresume sw x) (on s)) ∧
    (∀ k, v.toNat < 128 → s.waveInSlot w.core v.toNat = some k →
      let marked := s.modWave k (fun y => { y with killed := true })
      (k = s.cur → s.Gives w (.wkill sw x) (on marked)) ∧
      (k ≠ s.cur → s.Gives w (.wkill sw x) (s.afterWord sw (marked.setSt s.cur (.wait (.wkill k))))) ∧
      s.Gives w (.wresume sw x) (on (s.modWave k (fun y => { y with st := if y.st = .halted then .ready else y.st })))) ∧
    (128 ≤ v.toNat → s.Gives w (.wkill sw x) (illegal (.wkill sw x)) ∧ s.Gives w (.wresume sw x) (illegal (.wresume sw x))) ∧
    (w.outs = [] → w.atoms = [] → s.Gives w (.halt sw) (s.afterWord sw ((s.advance s.cur).setSt s.cur .halted))) ∧
    (c.toNat < 12 → s.Gives w (.acrd sw x d c) (s.became sw (w.setS x.toNat (s.counter d.toNat c.toNat)))) ∧
    (12 ≤ c.toNat → s.Gives w (.acrd sw x d c) (illegal (.acrd sw x d c)))

/-! ### Frames -/

/-- The scalar forms of primaries 0x60 to 0x65 and 0x67, the branches, SRD, HINT.SCHED and the whole-mask forms change, of the whole
machine, only their destination register or mask, the PC, and what belongs to issuing a word. No flag and no byte of memory changes. -/
def Obligations.ScalarFrame : Prop :=
  ∀ (s : State) (w : Wave) (sw : BitVec 1) (d a b : BitVec 6) (n : BitVec 12) (o : BitVec 18) (k m p : BitVec 3) (h : BitVec 4),
    ∀ i, i ∈ [Instr.add sw d a b, .sub sw d a b, .mul sw d a b, .mulh sw d a b, .mulhu sw d a b, .and sw d a b, .or sw d a b,
        .xor sw d a b, .andn sw d a b, .shl sw d a b, .shr sw d a b, .sar sw d a b, .shli sw d a b, .shri sw d a b, .sari sw d a b,
        .slt sw d a b, .sltu sw d a b, .min sw d a b, .max sw d a b, .minu sw d a b, .maxu sw d a b, .popc sw d a, .clz sw d a,
        .ctz sw d a, .addi sw d a n, .andi sw d a n, .ori sw d a n, .xori sw d a n, .slti sw d a n, .sltiu sw d a n,
        .bez sw a o, .bnez sw a o, .bra sw o, .bany sw k o, .ball sw k o, .bnone sw k o, .call sw o, .srd sw d n,
        .hintSched sw h, .mand sw k m p, .mor sw k m p, .mxor sw k m p, .mandn sw k m p, .mnot sw k m, .mfroms sw k a,
        .mtos sw k d, .mpopc sw k d, .mffs sw k d] → s.RegisterFrame w i ∧
      (s.Ready w i → ∃ t x, exec i s = .next t ∧ t.waves[s.cur]? = some x ∧ x.fpflags = w.fpflags)

/-- The vector, cross-lane and hypervector forms other than loads and stores change, of the whole machine, only their destination
registers or mask (the tie-break generator for HVMAJ, HVGEN and HVSEED), flags that they raise, the PC, and what belongs to issuing
a word. -/
def Obligations.VectorFrame : Prop :=
  ∀ (s : State) (w : Wave) (sw : BitVec 1) (d a b : BitVec 8) (k : BitVec 3) (p q : BitVec 6) (f g : BitVec 4)
    (u x y : BitVec 4) (z : BitVec 1),
    ∀ i, i ∈ [Instr.vaddI32 sw d a b, .vsubI32 sw d a b, .vmulI32 sw d a b, .vmulhI32 sw d a b, .vmulhuI32 sw d a b,
        .vminI32 sw d a b, .vmaxI32 sw d a b, .vminuI32 sw d a b, .vmaxuI32 sw d a b, .vand sw d a b, .vor sw d a b,
        .vxor sw d a b, .vshl sw d a b, .vshr sw d a b, .vsar sw d a b, .vmov sw d a, .vpopc sw d a, .vclz sw d a,
        .vsel sw d a b, .vaddF32 sw d a b, .vsubF32 sw d a b, .vmulF32 sw d a b, .vfmaF32 sw d a b, .vminF32 sw d a b,
        .vmaxF32 sw d a b, .vabsF32 sw d a, .vnegF32 sw d a, .vaddBf16x2 sw d a b, .vmulBf16x2 sw d a b, .vfmaBf16x2 sw d a b,
        .vaddFp16x2 sw d a b, .vmulFp16x2 sw d a b, .vfmaFp16x2 sw d a b, .vaddE4m3x4 sw d a b, .vmulE4m3x4 sw d a b,
        .vaddInt8x4 sw d a b, .vsubInt8x4 sw d a b, .vaddUint8x4 sw d a b, .vsubUint8x4 sw d a b, .vdot2Bf16 sw d a b,
        .vdot2Fp16 sw d a b, .vdot4E4m3 sw d a b, .vdot4Int8 sw d a b, .vcvt sw d a f g, .vcvtpk sw d a f g, .vcvtxp sw d a f g,
        .vqblk sw d a f, .vdqblk sw d a f, .vrcp sw d a, .vrsq sw d a, .vsqrt sw d a, .vexp2 sw d a, .vlog2 sw d a,
        .vsinpi sw d a, .vcospi sw d a, .vcmpEqI32 sw k a b, .vcmpNeI32 sw k a b, .vcmpLtI32 sw k a b, .vcmpLeI32 sw k a b,
        .vcmpLtuI32 sw k a b, .vcmpLeuI32 sw k a b, .vcmpEqF32 sw k a b, .vcmpNeF32 sw k a b, .vcmpLtF32 sw k a b,
        .vcmpLeF32 sw k a b, .vcmpUnF32 sw k a b, .vshfl sw d a k, .vmatch sw d a, .vmatchF sw d a, .vreduceAddF32 sw d a,
        .vreduceAddI32 sw d a, .vreduceMinF32 sw d a, .vreduceMaxF32 sw d a, .vreduceMinI32 sw d a, .vreduceMaxI32 sw d a,
        .vscanAddF32 sw d a, .vscanAddI32 sw d a, .vmovs sw d p, .vrdlane sw d p q, .vwrlane sw d p q, .vlaneid sw d,
        .hvxor sw u x y, .hvnot sw u x, .hvmov sw u x, .hvbund sw x z, .hvbsub sw x z, .hvmaj sw u z, .hvbclr sw z, .hvgen sw u,
        .hvrot sw u x p, .hvdist sw u x p, .hvseed sw p, .hvrdtie sw p, .hvbit sw u p q] → s.RegisterFrame w i

/-- 09 R230 to R233: reading changes no byte. The reads of a form leave every byte of memory, every scratchpad and group register, and
every register, mask, flag and pending store of every wave as they were. -/
def Obligations.ReadsChangeNoData : Prop :=
  ∀ (s : State) (k : Nat) (w : Wave) (l : List Touch), s.waves[k]? = some w → w.outs = [] → w.atoms = [] →
    let t := (s.readAll k l).2
    (∀ a, t.mem.byte a = s.mem.byte a) ∧ t.groups = s.groups ∧ t.ctxs = s.ctxs ∧
    ∀ (j : Nat) (y : Wave), s.waves[j]? = some y → ∃ x : Wave, t.waves[j]? = some x ∧
      (x.sregs, x.masks, x.vregs, x.hvs, x.bas, x.hvtie, x.fpflags, x.pend, x.pc) =
        (y.sregs, y.masks, y.vregs, y.hvs, y.bas, y.hvtie, y.fpflags, y.pend, y.pc) ∧
      (x.frame, x.handler, x.trapCause, x.trapPc, x.trapAddr, x.acqCnt, x.relCnt, x.own, x.mirror, x.adopted) =
        (y.frame, y.handler, y.trapCause, y.trapPc, y.trapAddr, y.acqCnt, y.relCnt, y.own, y.mirror, y.adopted)

/-- 09 R237, R238; 02 R61: one access of an atomic to physical memory returns the old value, stores the new one where the operation
writes, and changes no other byte of memory; to a scratchpad likewise. A peer that is not UP returns all ones (19 R407). -/
def Obligations.AtomicEffect : Prop :=
  ∀ (s : State) (k : Nat) (w : Wave) (a : Atom) (x : AtomAccess), s.mem.wf = true →
    let r := s.performAccess k w a x
    (∀ pa ms, x.place = .phys pa ms → (∀ p, paKind pa = .peer p → s.peerUp p = true) →
      let old := BitVec.ofNat 64 (s.mem.num pa a.size)
      r.1 = old ∧
      (∀ b, b < pa ∨ pa + a.size ≤ b → r.2.mem.byte b = s.mem.byte b) ∧
      r.2.mem.num pa a.size = (if atomWrites a.op a.wide old x then
        (atomResult a.op a.wide old x).toNat % 2 ^ (8 * a.size) else s.mem.num pa a.size) ∧ r.2.groups = s.groups) ∧
    (∀ pa ms p, x.place = .phys pa ms → paKind pa = .peer p → s.peerUp p = false →
      r = (BitVec.ofNat 64 (2 ^ (8 * a.size) - 1), s)) ∧
    (∀ o g, x.place = .scratch o → s.groups[w.group]? = some g → g.scratch.wf = true →
      let old := BitVec.ofNat 64 (g.scratch.num o a.size)
      r.1 = old ∧ r.2.mem = s.mem ∧ ∃ h, r.2.groups[w.group]? = some h ∧
      (∀ b, b < o ∨ o + a.size ≤ b → h.scratch.byte b = g.scratch.byte b) ∧
      h.scratch.num o a.size = (if atomWrites a.op a.wide old x then
        (atomResult a.op a.wide old x).toNat % 2 ^ (8 * a.size) else g.scratch.num o a.size) ∧ h.gregs = g.gregs)

/-! ### Reset, and what every step keeps -/

/-- 02 R51, R52; 19 R399, R405, R416: registers of the memory controllers, of BAR0 and of the domain blocks read as their Reset
columns say right after reset. What no Reset column gives is the model's choice: every peer ABSENT, no wave, context or ring (log 3), and
memory with nothing listed, in its canonical form (log 2). -/
def Obligations.ResetValues : Prop :=
  ∀ q i d c : Nat, q < 4 → i < 16 → d < 64 → c < 160 →
    let s := State.reset
    s.mcRead q 0x0 = 0x10000#64 ∧ s.mcRead q 0x8 = 1#64 ∧
    (∀ k, k ∈ [0x0, 0x8, 0x10, 0x18] → s.mcRead q (0x100 + 0x20 * i + k) = 0#64) ∧
    (∀ o, o ∈ [0x400, 0x408, 0x800, 0x808, 0x810, 0x818] → s.mcRead q o = 0#64) ∧
    (∀ o, o ∈ [0x8, 0x10, 0x18, 0x20, 0x28, 0x101008] → s.barRead o = 0#64) ∧
    (∀ o, 0x100000 ≤ o → o < 0x101000 → s.barRead o = 0#64) ∧
    (∀ p, p < 64 → ∃ e, s.peers[p]? = some e ∧ e.st = .absent) ∧
    s.quota d c = (128, 416) ∧ (∃ x, s.domains[d]? = some x ∧ x.fmask = 0#64) ∧ (∀ k, k < 12 → s.counter d k = 0#64) ∧
    s.waves = [] ∧ s.ctxs = [] ∧ s.rings = [] ∧ s.mem.wf = true

/-- Main memory of the machine right after reset is in canonical form (log 2). -/
def Obligations.ResetMemoryCanonical : Prop := State.reset.MemCanonical

/-- Every step, whoever acts in it, keeps main memory in canonical form (log 2). -/
def Obligations.StepKeepsMemoryCanonical : Prop :=
  ∀ s t : State, s.MemCanonical → step s = .next t → t.MemCanonical
/-! ### Events -/

/-- 02 R45, R51, R52, R56, R58, R65, R71, R72; 06 R161, R163, R169; 09 R239; 13 R304; 15 R377; 07 R191: what each event of results, memory,
registers and fetch does where it is enabled. An atomic access behind an earlier one of its wave to the same peer line waits for it (19 R406).
The clauses rest on choices of the model: which lines make a set of a slice, which one leaves it, and that each fenced verdict takes a way from its set
(log 74), that the page's X bit says which TLB of the core PAGE_WALK fills (log 75), that the walk of this event reads its tables
anew (log 7), that a write-back cleans the four lines of a unit (log 10), what the registers do with other values (log 83), that a later atomic of a wave,
with other lanes open, may be performed before an earlier one (log 78), and that the fill of any line of HBM may come (log 53). -/
def Obligations.MemoryEventResults : Prop :=
  ∀ (s : State) (n k units lane pa core c q r slot : Nat) (va v : DWord) (w : Wave) (o : Out) (d : Quad) (g new : Region),
    s.waves[n]? = some w → (∀ sc ret, w.st ≠ .wait (.acquire sc ret)) → s.quads[q]? = some d → q < 4 → r < 16 →
    d.regions[r]? = some g → s.changes = [] →
    let lines (l : List LlcLine) : List Nat := l.map (fun x => x.line)
    let set := s.llc.filter (fun l => llcSet l.line == llcSet (pa / 128))
    let ways := max 1 (16 - s.llcFences.count (llcSet (pa / 128)))
    (w.outs[k]? = some o → exec (.resultWrite n k units) s =
      .next (s.modWave n (fun _ => { w.applyOut o units with
        outs := putAt w.outs k (o.rest units), far := farRest w.far o units }))) ∧
    (∀ a rest, w.atoms = a :: rest → (∃ y ∈ a.todo, y.lane = lane) →
      exec (.atomicPerform n lane) s = .next ((s.performAtomic n 0 lane).settleAcquire n)) ∧
    (∀ j a y, w.atoms[j]? = some a → y ∈ a.todo → y.lane = lane →
      (∀ i b z, i < j → w.atoms[i]? = some b → z ∈ b.todo → z.lane ≠ lane ∧ ∀ x ∈ a.todo, x.place.samePeerLine z.place = false) →
      exec (.atomicPerform n lane) s = .next ((s.performAtomic n j lane).settleAcquire n)) ∧
    ((∀ j a y, w.atoms[j]? = some a → y ∈ a.todo → y.lane = lane →
        ∃ (i : Nat) (b : Atom) (z : AtomAccess), i < j ∧ w.atoms[i]? = some b ∧ z ∈ b.todo ∧ y.place.samePeerLine z.place = true) →
      exec (.atomicPerform n lane) s = .next s) ∧
    (∀ t, w.delayUntil = some t → t ≤ s.coreClock w.core →
      exec (.hintSchedDelayEnd n) s = .next (s.modWave n (fun _ => { w with delayUntil := none }))) ∧
    ((paKind pa).isHbm = true → s.llcHas (pa / 128) = false → ∃ t, exec (.llcFill pa) s = .next t ∧ t.mem = s.mem ∧
      (set.length < ways → t.llc = s.llc ++ [⟨pa / 128, false, [none, none, none, none]⟩]) ∧
      (ways ≤ set.length → ∃ old, old ∈ lines set ∧ lines t.llc = (lines s.llc).filter (· != old) ++ [pa / 128])) ∧
    (s.llcHas (pa / 128) = true → ∃ t, exec (.llcWriteBack pa) s = .next t ∧ t.mem = s.mem ∧
      lines t.llc = (lines s.llc).filter (· != pa / 128) ∧
      ((∀ l ∈ s.llc, l.line = pa / 128 → l.dirty = false) → t = { s with llc := s.llc.filter (fun l => l.line != pa / 128) }) ∧
      ((∃ l ∈ s.llc, l.line = pa / 128 ∧ l.dirty = true) → ∀ l ∈ t.llc, l.line / 4 = pa / 128 / 4 → l.dirty = false)) ∧
    (let gen := s.walkGen core c
     let a := vaBits va
     canonical va = true → s.walkPoison (some core) .rd c gen a = none →
      (∀ f, s.leafOf (some core) .rd c gen a = .error f → exec (.pageWalk core c va) s = .next s) ∧
      (∀ e, s.leafOf (some core) .rd c gen a = .ok e →
        let held : TlbEntry := ⟨c, a / 2 ^ pageLog (pteSize e), pageLog (pteSize e), e,
          if ptePb e then some (gen (ptePbIdx e)) else none⟩
        ∃ t, exec (.pageWalk core c va) s = .next t ∧ t.mem = s.mem ∧ t.waves = s.waves ∧
          (∀ y, s.cores[core]? = some y → ∃ draw, t.cores[core]? = some (if pteX e then { y with itlb := putTlb draw 32 y.itlb held }
            else { y with tlb := putTlb draw 256 y.tlb held })) ∧
          (∀ y, s.quads[coreQuad core]? = some y → ∃ z, t.quads[coreQuad core]? = some z ∧ held ∈ z.stlb))) ∧
    (d.clock % 512 ≤ 63 → ∃ t, exec (.wsRefreshWindowEnd q) s = .next t ∧
      t.quads[q]? = some { d with clock := d.clock + 64 - d.clock % 512 } ∧
      (∀ j, j ≠ q → t.quads[j]? = s.quads[j]?) ∧ t.mem = s.mem ∧ t.waves = s.waves ∧ t.ctxs = s.ctxs ∧ t.feClock = s.feClock) ∧
    (g.enabled = false →
      exec (.regionBaseWrite q r v) s = .next (s.modQuad q (fun y => { y with
        regions := y.regions.set r { g with base := v &&& 0x0000FFFFFFFFF000#64 } })) ∧
      exec (.regionLimitWrite q r v) s = .next (s.modQuad q (fun y => { y with
        regions := y.regions.set r { g with limit := v &&& 0x0000FFFFFFFFF000#64 } })) ∧
      exec (.regionScaleWrite q r v) s = .next (s.modQuad q (fun y => { y with
        regions := y.regions.set r { g with scale := v &&& 0x0000FFFFFFFFFFF0#64 } }))) ∧
    (v.getLsbD 0 = true → regionError q r d.regions { g with ctl := v &&& 0x3F1#64 } = 0 →
      exec (.regionCtlWrite q r v) s = .next { s with changes := [⟨q, r, { g with ctl := v &&& 0x3F1#64 }⟩] }) ∧
    (∀ s1, s1 = { s with changes := [⟨q, r, new⟩] } →
      exec (.regionChangeApply q r) s1 = .next { s1.applyRegion q r new with changes := [] }) ∧
    exec (.registerWrite 0x10 v) s = .next { s with errBase := v &&& 0xFFFFFFFFFFFFF000#64 } ∧
    exec (.registerWrite 0x18 v) s = .next { s with errSize := v &&& 0xF#64 } ∧
    exec (.registerWrite 0x28 v) s = .next { s with errRptr := v.extractLsb' 0 32 } ∧
    (v.getLsbD 0 = true → s.mbBusy = false →
      exec (.registerWrite 0x101000 v) s = .next { s with mbBusy := true, spdmBefore := s.spdmIn.length }) ∧
    (v.getLsbD 0 = false ∨ s.mbBusy = true → exec (.registerWrite 0x101000 v) s = .next s) ∧
    (slot < 240 * 1024 → exec (.registerWrite (0x1000010 + 0x40 * slot) v) s = exec (.qwptrDoorbell slot v) s) ∧
    (let block := 0xC000000000 + 0x1000000 * q
     exec (.registerWrite (block + 8) v) s = .next (s.modQuad q (fun y => { y with mcCtl := v &&& 1#64 })) ∧
     exec (.registerWrite (block + 0x100 + 0x20 * r) v) s = exec (.regionBaseWrite q r v) s ∧
     exec (.registerWrite (block + 0x108 + 0x20 * r) v) s = exec (.regionLimitWrite q r v) s ∧
     exec (.registerWrite (block + 0x110 + 0x20 * r) v) s = exec (.regionScaleWrite q r v) s ∧
     exec (.registerWrite (block + 0x118 + 0x20 * r) v) s = exec (.regionCtlWrite q r v) s) ∧
    (∀ y s1, s.mayIssue w = true → s.fetch w = .word y s1 →
      exec (.instructionFetch n) s = .next (s1.modWave n (fun z => { z with fetched := some (z.pc, y) }))) ∧
    (∀ z y, s.fillFor core c va = some z → s.icacheHit z va = none → s.fetchXlat z va = .ok y →
      s.linePoisoned (y.pa / 128) = false →
      exec (.instructionCacheFill core c va) s = .next ((s.fetchLooks z va).fillICache z va y)) ∧
    (s.fillFor core c va = none → exec (.instructionCacheFill core c va) s = .next s)

/-- 13 R304, R306, R310, R312, R315, R318, R320; 12 R282, R290, R296; 03 R99, R103; 13 R327, R332; 14 R347: what each event of the
front end does where it is enabled. A packet enters its ring's table at its end; what follows is its own effect, and what the functions named here
leave in the state is said by EventEffects. Lantern reads a ring, a graph table and a packet's address through its entry of the object, and a
check that fails there is an error of the front end (19 R408; log 84). A set whose timer runs out fires behind those that were due before it
(13 R310). A doorbell reaches the ring whose registers its block shows, one that is destroyed too. A SIGNAL and
a WAIT_VALUE act on the translation that the packet kept, found again where an invalidation or a new generation asks for it: the
model's choice (log 79; 13 R306 keeps the address until the packet completes). What a placement moves counts to its context (19 R417). -/
def Obligations.FrontEventResults : Prop :=
  ∀ (s : State) (c k core slot n g o : Nat) (v : DWord) (r : Ring) (q : List DWord) (x : Ctx) (w : Wave),
    let p := r.pkts.length
    let b := bitsOf (qAt q 2) 0 8
    (∀ z y t, s.ctxInSlot (slot / 1024) = some z → s.rings[y]? = some t → t.ctx = z → t.num = slot % 1024 →
      (∀ (j : Nat) (u : Ring), y < j → s.rings[j]? = some u → u.ctx = z → u.num ≠ slot % 1024) →
      exec (.qwptrDoorbell slot v) s = .next (s.modRing y (fun z => { z with wptr := v.extractLsb' 0 32 }))) ∧
    (s.ctxInSlot (slot / 1024) = none → exec (.qwptrDoorbell slot v) s = .next s) ∧
    (∀ t, s.Serves c k r q 0 t →
      exec (.pad c k) s = .next ((t.takePacket k r q 0).completePacket k p stOk 0 0 0#64)) ∧
    (∀ t y, s.Serves c k r q 1 t → t.kernelOf c (qAt q 2) = some y →
      exec (.kernel c k) s = .next ((t.takePacket k r q t.trees.length).launch c (.packet k p) y (qAt q 3) (pktExtent q)
        ((qAt q 5).getLsbD 32) (qAt q 6, qAt q 7, qAt q 8))) ∧
    (∀ t u l, s.Serves c k r q 2 t → t.graphPoison c b = none → t.capFor 3 (.graph c b 0) c 0 32 false = some u →
      u.capFor 3 (.graph c b 1) c 0 (64 * graphNodes u.mem (u.graphHeader c b)) false = some l →
      exec (.graph c k) s = .next ((l.takePacket k r q l.runs.length).beginGraph c b k p)) ∧
    (∀ t y, s.Serves c k r q 3 t → t.ctxs[c]? = some y →
      (acceptDetail y.features 0 false true (q.drop 2) [] = none → t.copyCore c (CopyDesc.of (q.drop 2)) core = true →
        exec (.copy c k core) s = .next { t.takePacket k r q t.copies.length with
          copies := (t.takePacket k r q t.copies.length).copies ++ [CopyReq.fresh core c 0 0 (some (k, p)) (q.drop 2) [] .queued] }) ∧
      ∀ d, acceptDetail y.features 0 false true (q.drop 2) [] = some d →
        exec (.copy c k core) s = .next ((t.takePacket k r q 0).completePacket k p stCopyFail d 0 0#64)) ∧
    (∀ t, s.Serves c k r q 4 t → exec (.waitValue c k) s = .next ((t.takePacket k r q 0).rereadPacket k p)) ∧
    (∀ type, s.Dispatches c k r q type → s.capFor 0 (.ring k) c (16 * (r.rptr.toNat % 2 ^ r.logsz)) (16 * pktLen q) false = none →
      ∀ i, (type, i) ∈ [(0, Instr.pad c k), (1, .kernel c k), (2, .graph c k), (3, .copy c k core), (4, .waitValue c k), (6, .publish c k),
        (7, .checkpointClose c k), (7, .checkpointStopSave c k)] → exec i s = .next s.frontError) ∧
    (∀ y z l u, s.packetOf k n = some (y, z) → z.done = false → pktType z.quads = 4 → s.ctxRuns y.ctx = true → s.frontStopped = false →
      z.found.bind (s.refind y.ctx .rd) = some l →
      (z.found.elim s (s.keptLooks y.ctx .rd)).capFor 5 (.field k n 1) y.ctx 0 (waitBytes z.quads) false = some u →
      let t := (u.modPacket k n (fun x => { x with found := some l })).homeAccess l.pa l.ms false (waitBytes z.quads)
      t.linePoisoned (l.pa / 128) = false →
      s.rereadPacket k n = if t.waitHolds z.quads l.pa then t.completePacket k n stOk 0 0 0#64 else t) ∧
    (∀ y, s.rings[k]? = some r → r.ctx = c → r.pkts = [y] →
      exec (.waitValueReread c k) s = .next (s.rereadPacket k 0)) ∧
    (let signal (add : Bool) : Instr := if add then .signalAdd c k else .signal c k
     let signals (t : State) (j : Nat) (i : Instr) : Prop := ∀ y z l u, t.packetOf k j = some (y, z) → t.signalDue k j = true →
      z.found.bind (t.refind y.ctx .wr) = some l →
      (z.found.elim t (t.keptLooks y.ctx .wr)).capFor 5 (.field k j 1) y.ctx 0 (signalBytes z.quads) true = some u →
      (signalAdds z.quads = true → u.linePoisoned (l.pa / 128) = false) →
      exec i s = .next (((u.signalWrite z.quads l).completePacket k j stOk 0 0 0#64).rereadAll)
     (∀ add j, s.rings[k]? = some r → r.ctx = c → s.dueSignal k add = some j → signals s j (signal add)) ∧
     (∀ add t, s.Serves c k r q 5 t → signalAdds q = add → s.dueSignal k add = none →
      signals (t.takePacket k r q 0) p (signal add) ∧
      ((t.takePacket k r q 0).signalDue k p = false → exec (signal add) s = .next (t.takePacket k r q 0)))) ∧
    (∀ t, s.Serves c k r q 6 t → t.pbPoison c b = none →
      ((t.readPb c b).pbEnabled c b = true →
        exec (.publish c k) s = .next ((t.readPb c b).takePacket k r q ((t.readPb c b).pbGen c b).toNat)) ∧
      ((t.readPb c b).pbEnabled c b = false → exec (.publish c k) s =
        .next (((t.readPb c b).takePacket k r q 0).completePacket k p stPubFail 0x0F 0 0#64))) ∧
    (∀ t, s.Serves c k r q 7 t →
      ((qAt q 2).getLsbD 0 = false →
        exec (.checkpointClose c k) s = .next ((t.takePacket k r q 0).requestClose c ⟨.packet k p, false⟩)) ∧
      ((qAt q 2).getLsbD 0 = true →
        exec (.checkpointStopSave c k) s = .next ((t.takePacket k r q 0).requestClose c ⟨.packet k p, true⟩))) ∧
    (∀ t, s.trees[n]? = some t → t.isOpen = true → t.quiet = true → t.failed = false → t.abandoned = false →
      t.origin = .packet k p → exec (.launchComplete n) s = .next ((((s.modTree n (fun y => { y with isOpen := false })).completePacket
        k p stOk 0 t.done 0#64)).retryNodes t.ctx)) ∧
    (∀ y, s.binOf c n = some y → s.ctxs[c]? = some x → y.slots ≠ [] → y.due ≤ x.resClock → s.ctxRuns c = true →
      exec (.binTimerExpiry c n) s = .next (s.fireDue c n (x.resClock - y.due))) ∧
    (∀ late, (∀ d ∈ s.dueBins, d.before ⟨late, (s.ownerOf c).toNat, n, c⟩ = false) → s.fireDue c n late = s.fireBin c n) ∧
    (let t := s.seekTables.noteSpanWait
     let got (x : Candidate) (u : State) : State := { u with spanWait := u.spanWait.filter (fun e => e.1 != x) }
     (t.placeable = none → exec .groupPlace s = .next t) ∧
     (∀ l y cores, t.placeable = some (.launch l, cores) → t.launches[l]? = some y →
      exec .groupPlace s = .next (t.charging y.ctx (fun u =>
        ((got (.launch l) u).homeLooks y.ctx y.home y.stride (coordOf y.extent y.next)).placeNew l y y.kernel.span cores))) ∧
     (∀ z y cores, t.placeable = some (.group z, cores) → t.groups[z]? = some y →
      exec .groupPlace s = .next (t.charging y.ctx (fun u =>
        let v := (got (.group z) u).homeLooks y.ctx y.home (((t.launches[y.launch]?).map (·.stride)).getD (0#64, 0#64, 0#64)) y.coord
        State.settleRestore { v.seatGroup z y.kernel.span cores with wakeQueue := t.wakeQueue.filter (· != z) } y.ctx)))) ∧
    (∀ y, s.groups[g]? = some y → y.st = .starting → exec (.groupStart g) s = .next (s.startGroup g)) ∧
    (∀ y, s.groups[g]? = some y → y.st = .parking → s.allStopped y = true → y.wake = false →
      exec (.groupPark g) s = .next ((s.leaveCores g .parked).modGroup g (fun z => { z with wake := false }))) ∧
    (∀ d t b, s.waves[n]? = some w → w.st = .wait (.sgspin d t) → s.groupRuns w = true → s.binding w = some b →
      (∀ u x, s.sgWaitLook n d w b = some u → u.waves[n]? = some x → x.st = .ready → exec (.sgwaitSpinExpiry n) s = .next u) ∧
      (s.sgWaitLook n d w b = none → t ≤ s.coreClock w.core →
        exec (.sgwaitSpinExpiry n) s = .next ((s.setSt n .ready).modGroup w.group (fun z => { z with st := .parking })))) ∧
    (∀ y d, s.ctxs[c]? = some x → x.sgos.find? (fun z => z.num == o && z.live) = some y → s.ctxRuns c = true → y.due = some d →
      y.final = false → y.timeout ≠ 0 → d ≤ x.resClock →
      exec (.sgoTimeout c o) s = .next ((s.modSgo c ⟨y.num, y.gen, 0⟩ (fun z => { z with
        expired := true, sibs := z.sibs.map (fun b => if b.kind = .waiting then { b with kind := .timedout } else b) })).settleSgo c
          ⟨y.num, y.gen, 0⟩))

/-- 14 R339, R340, R344, R345, R362; 04 R126; 12 R295; 07 R202; 09 R244, R247; 03 R78, R90, R95, R104, R108; 10 R256 to R261: what each event of a wave's trap, kill,
stop and barrier, of the copy engines, of a publish step and of the matrix arrays does where it is enabled. A wave that stops inside a
group of words goes back to the group's first word: the model's choice (log 51; 06 R165 and 14 R344 leave it open). So are these: an array
reads every byte of A as it lies at the pass, and ACCLD its rows at its run (log 83), and a kill takes effect inside an open group of words
(log 44). What the functions named here leave in the state is said by EventEffects. -/
def Obligations.EngineEventResults : Prop :=
  ∀ (s : State) (n m c core a q : Nat) (w : Wave) (x : CopyReq) (k : MCmd) (j : Nat) (u : ArrayUnit),
    (∀ f after, s.waves[n]? = some w → s.groupRuns w = true → w.stopped = false → w.killed = false → w.held = some (f, after) →
      s.ctxState w ≠ .faulted → exec (.trapEntry n) s = .next (s.enterTrap n f after)) ∧
    (∀ d, s.waves[n]? = some w → s.groupRuns w = true → w.stopped = false → w.killed = false → w.held = none →
      w.atBoundary = true → firstDue w.due = some d → exec (.boundaryTrap n) s =
        .next ((s.modWave n (fun y => { y with due := y.due.erase d, st := .ready })).takeTrap n d.info false)) ∧
    (s.waves[n]? = some w → w.killed = true → w.killable = true → w.atoms = [] →
      exec (.waveKill n) s = .next ((s.retireWave n).settleFaulted w.group)) ∧
    (s.waves[n]? = some w → s.stopAsked w = true → w.stopped = false → w.st = .ready → w.outs = [] → w.atoms = [] →
      exec (.waveStop n 0) s = .next ((s.modWave n (fun _ => { w with
        pc := (match w.pfx with
          | some p => p.pc
          | none => w.pc), pfx := none, delayUntil := none, marked := false, fetched := none, far := [], stopped := true
        })).settleFaulted w.group)) ∧
    (∀ g y off ph, s.groups[g]? = some y → s.waves[n]? = some w → w.st = .blocked off ph → w.group = g →
      (s.noteReached g).waves[n]? =
        some (if s.barBad g off = false ∧ phaseReached (s.phaseOf g off) ph then { w with reached := true } else w)) ∧
    (∀ off ph, s.waves[n]? = some w → w.st = .blocked off ph → w.reached = false → s.barBad w.group off = true →
      s.groupRuns w = true → w.dueNow = false → w.killed = false →
      exec (.barWaitComplete n) s = .next ((s.setSt n .ready).meetPoison n (BitVec.ofNat 64 (scratchWindow + off)) 1)) ∧
    (∀ off ph, s.waves[n]? = some w → w.st = .blocked off ph → w.reached = true →
      s.groupRuns w = true → w.dueNow = false → w.killed = false → w.pend = [] →
      exec (.barWaitComplete n) s = .next (((((s.setSt n .ready).releaseDone n 1).acquire n).proceed n))) ∧
    (∀ z rest, s.coreHeld core = false → s.activeUsed core < 8 → s.waiting core = z :: rest → s.copies[z]? = some x →
      (s.prepare x).st = .running → exec (.copyRequestStart core) s = .next (s.modCopy z (fun _ => s.prepare x))) ∧
    (s.copies[q]? = some x → s.copyGoes q x = true →
      let t := (s.landPiece q m).workDone (.copyEngine x.core) (if x.host.isSome then none else some x.wave)
      ∀ y, t.copies[q]? = some y →
        (y.st ≠ .done → exec (.copyPieceLand q m) s = .next t) ∧
        (y.st = .done → exec (.copyPieceLand q m) s = .next (t.endHostCopy y stOk 0 0#64))) ∧
    (∀ t, s.copies[q]? = some x → s.copyGoes q x = true ∨ s.phaseFails x = true → s.copyFault q = some t →
      (t.cause ≠ causeEcc → exec (.copyRequestFail q) s =
        .next ((s.failCopy q t).endHostCopy x stCopyFail t.detail.toNat t.addr)) ∧
      (t.cause = causeEcc → s.hasImage x.ctx = true →
        exec (.copyRequestFail q) s = .next (s.rollbackFor x.ctx t.detail.toNat))) ∧
    (s.copies[q]? = some x → s.copyKilled x = true → x.st.ended = false → x.st ≠ .reserved →
      let t := s.modCopy q (fun y => { y with st := .cancelled })
      exec (.copyRequestCancel q) s = .next (if x.host.isSome then t.retryNodes x.ctx else t.tryEnd x.group)) ∧
    (s.copies[q]? = some x → s.copyMay x = true → s.copyKilled x = false → s.coreHeld x.core = false → s.followReady x = true →
      let f := followQuads x.ext
      (∃ d, s.ctxs[x.ctx]? = some d ∧ codeOk d.features (mmaAcode f) = true ∧ codeOk d.features (mmaBcode f) = true) →
      mmaCode (mmaAcode f) = true → mmaCode (mmaBcode f) = true →
      (∃ g, s.groups[x.group]? = some g ∧ mmaCheck g.scratchSize f = none) → s.queueFull x.core (mmaArr f) = false →
      exec (.followOnIssue q) s = .next ((((s.enterRows x.wave f).enqueueCmd ⟨x.core, f, .follow, .queued, 0, x.wave, x.group, x.ctx, true⟩
        (mmaArr f)).modCopy q (fun y => { y with st := .done })).tryEnd x.group)) ∧
    (s.ctxRuns c = true → s.publishWaits c m = true → s.pbPoison c m = none → s.boundUnder c m (s.pbGen c m + 1#32) = false →
      let t := s.setPbGen c m (s.pbGen c m + 1#32)
      exec (.publishStep c m) s = .next ((t.donePublishes c m).foldl
        (fun y z => y.completePacket z.1 z.2 stOk 0 0 0#64) (t.endPubls c m))) ∧
    (s.headCmd core a = some (j, k) → s.arrayOf core a = some u → s.coreHeld core = false →
      let ends (t : State) : State := (t.workDone (.array core a) (some k.wave)).tryEnd k.group
      (∀ g, (k.kind = .mma ∨ k.kind = .follow) → s.groups[k.group]? = some g →
        let rows := chunkTile k.desc g.scratch u.wbuf k.nextc (u.tileRows k.tile)
        let len := chunkLen k.desc
        let t := ((s.writeTile k rows).account (s.domainOf k.ctx) (macCounter k.desc)
          (mmaM k.desc * mmaN k.desc * min len (mmaK k.desc - k.nextc * len))).modCmd j
          (fun y => { y with st := .running, nextc := k.nextc + 1 })
        (s.passPoison g k = none → exec (.arrayPass core a) s =
          .next (ends (if mmaK k.desc ≤ (k.nextc + 1) * len then t.finishCmd j k else t))) ∧
        (∀ code, s.passPoison g k = some code → s.hasImage k.ctx = true →
          exec (.arrayPass core a) s = .next (s.rollbackFor k.ctx (code % 2 ^ 8)))) ∧
      (k.kind = .accz → exec (.acczRun core a) s =
        .next (ends ((s.writeTile k (List.replicate 256 0#4096)).finishCmd j k))) ∧
      (∀ rows t, k.kind = .accld → s.accldRows k (u.tileRows k.tile) (rowsOf (qAt k.desc 2)) = .ok (rows, t) →
        exec (.accldRun core a) s = .next (ends ((t.writeTile k rows).finishCmd j k))))

/-- 14 R347 to R349, R352, R355, R360 to R365: what each event of Afterglow and of hardware errors does where it is enabled. What a record
holds and its size (log 12), and that the verdict on a unit of a core waits until every group but FAULTED ones has left the core
(log 49), that lost data in a granule spoils its interval (log 76), and that what a verdict brings about waits for no other test (log 86), are
the model's choices. What the functions named here leave in the state is said by
EventEffects. -/
def Obligations.AfterglowEventResults : Prop :=
  ∀ (s : State) (c k link code : Nat) (x : Ctx) (r : CloseReq) (rest : List CloseReq) (i : AgItem) (u : HwUnit) (ok : Bool)
    (cls : ErrClass) (st : SelfTest), s.ctxs[c]? = some x →
    (∀ held, x.agQueue = held ++ r :: rest → x.closing = false → (x.st = .resident ∨ x.st = .faulted ∧ r.save = true) →
      (∀ y ∈ held, ¬ (x.st = .resident ∨ x.st = .faulted ∧ y.save = true)) →
      exec (.intervalClose c) s =
        .next (s.modCtx c (fun y => { y with agStop := true, agFrom := x.st, agBy := [r], agQueue := held ++ rest }))) ∧
    (x.agStop = true → x.agCut = none → s.ctxStopped c = true →
      ∃ t y, exec (.cutCapture c) s = .next t ∧ t.ctxs[c]? = some y ∧ y.agCut.isSome = true ∧ y.agOpen = x.agOpen + 1 ∧
        y.agDirty = [] ∧ y.agStop = x.agBy.any (·.save) ∧ t.mem = s.mem ∧
        y.st = (if x.agBy.any (·.save) then .stopping else x.st)) ∧
    (x.st = .resident → x.ckptPeriod ≠ 0 → x.act.ckptSize ≠ 0#64 → x.ckptPeriod ≤ x.resClock - x.ckptStart →
      exec (.ckptintvExpiry c) s = .next (s.modCtx c (fun y => { y with
        agQueue := y.agQueue ++ [⟨.device, false⟩], ckptStart := y.resClock }))) ∧
    (∀ img, x.agPend[k]? = some i → x.agCut = some img →
      ((∀ j ∈ x.agPend.take k, s.itemQuad x j ≠ s.itemQuad x i) →
        exec (.agStreamItem c k) s = .next (State.layRecords (s.modCtx c (fun y => { y with
          agPend := y.agPend.eraseIdx k, agDone := y.agDone ++ [i] })) c)) ∧
      ((∃ j ∈ x.agPend.take k, s.itemQuad x j = s.itemQuad x i) → exec (.agStreamItem c k) s = .next s)) ∧
    (∀ img, x.agCut = some img → x.agPort = false → x.agDone = x.agNew.map (·.1) ++ [i] → s.granulePoison x [i] = none →
      ∃ y, (s.layRecords c).ctxs[c]? = some y ∧ y.agNew = x.agNew ++ [(i, x.agPtr % x.act.ckptSize.toNat, i.span img.pieces)] ∧
        y.agPtr = (x.agPtr + i.span img.pieces) % x.act.ckptSize.toNat ∧ y.image = x.image ∧
        y.agDown = (x.agDown <|> s.downPort)) ∧
    (∀ j : Nat, s.ports[j]? = some false → s.downPort.isSome = true) ∧
    ((∀ j : Nat, s.ports.getD j true = true) → s.downPort = none) ∧
    (∀ img line, x.agCut = some img → x.agPort = false → s.granulePoison x (x.agDone.drop x.agNew.length) = some line →
      ∃ y, (s.layRecords c).ctxs[c]? = some y ∧ y.agPort = true) ∧
    (∀ img y, x.agCut = some img → x.agPend = [] → (s.layRecords c).ctxs[c]? = some y → y.agBy.any (·.save) = false →
      let down : Bool := y.agPort || y.agDown.isSome || (s.layRecords c).downPort.isSome
      (down = false →
        ∃ t z, exec (.agCommit c) s = .next (y.agBy.foldl (fun u r => u.answerClose r img.ivl true) t) ∧ t.ctxs[c]? = some z ∧
          z.image = some img ∧ z.agCut = none ∧ z.agFirst = false ∧ z.agPtr = (y.agPtr + commitBytes) % y.act.ckptSize.toNat) ∧
      (down = true → ∃ t z, exec (.agCommit c) s = .next t ∧ t.ctxs[c]? = some z ∧ z.image = x.image ∧ z.agCut = none ∧
        z.agDone = [] ∧ z.agNew = [])) ∧
    (x.st = .resident → exec (.agPendUpdate c) s = .next (s.modCtx c (fun y => { y with
      agPendReg := BitVec.ofNat 64 (s.saveCost c x)
      agEstReg := BitVec.ofNat 64 ((s.saveCost c x + 319) / 320 + 2560), agSeen := s.feClock }))) ∧
    (s.correctableCode u = some code →
      let counted (d : Nat) : State := (s.lifeAdd (ltCe code)).modCore d (fun y => { y with csErr := y.csErr + 1#64 })
      ((∀ d l m, u ≠ .coreStore d l ∧ u ≠ .cacheLine d m) → exec (.eccCorrectable u) s = .next (s.lifeAdd (ltCe code))) ∧
      (∀ d l, u = .coreStore d l → exec (.eccCorrectable u) s = .next (counted d)) ∧
      (∀ d l y, u = .cacheLine d l → s.cores[d]? = some y → exec (.eccCorrectable u) s =
        .next (if y.l1.any (fun z => z.line == l) then counted d else s.lifeAdd (ltCe code)))) ∧
    (s.errorClass u = some (code, .lost) →
      exec (.eccUncorrectable u) s = .next (((s.countError u code).poisonUnit u).beginTest u code .lost)) ∧
    (s.errorClass u = some (code, .clean) →
      exec (.eccUncorrectable u) s = .next (((s.countError u code).dropClean u).beginTest u code .clean)) ∧
    (logicUnit u = true → exec (.logicError u) s = .next ((s.countError u 8).beginTest u 8 .logic)) ∧
    (let recent := s.retries.filter (fun y => y.1 == link && decide (s.feClock < y.2 + 2 ^ 20))
     let others := s.retries.filter (fun y => y.1 != link)
     (recent.length < 15 → exec (.linkFlitRetry link) s = .next { s with retries := others ++ recent ++ [(link, s.feClock)] }) ∧
     (15 ≤ recent.length → exec (.linkFlitRetry link) s =
      .next (State.beginTest { s with retries := others } (.link link) 0 .lane))) ∧
    (s.tests[k]? = some st → st.verdict = false → st.cls = cls →
      (∀ d g y, unitCore st.unit = some d → g ∈ s.groupsOn d → s.groups[g]? = some y → y.st = .faulted) →
      let s1 := State.countVerdict { s with tests := s.tests.set k { st with verdict := true } } st ok
      let s2 := st.parked.foldl State.wakeGroup (if ok then s1 else (s1.fence st).measureFeatures)
      exec (.selfTestVerdict k ok) s = .next { (match cls with
        | .lane => s2
        | .lost => s2.lostData st
        | _ => s2.replay st) with stall := false }) ∧
    (∀ d g y, s.tests[k]? = some st → unitCore st.unit = some d → g ∈ s.groupsOn d → s.groups[g]? = some y → y.st ≠ .faulted →
      exec (.selfTestVerdict k ok) s = .next s) ∧
    exec .poweredOnHour s = .next (State.lifeAdd { s with hours := s.hours + 1#64 } ltHours)

/-- 19 R402, R404, R406, R407, R413, R415, R419, R420, R422: what each event of the host, of peers, of the checkpoint ports, of power,
heat and reset does where it is enabled. How an access that reaches no HBM is refused and logged (log 80), the fields of the PEERDOWN
response (log 54), what a reset keeps (log 55) and that the part withheld lies from 1 to 64 (log 23) are the model's choices. -/
def Obligations.DeviceEventResults : Prop :=
  ∀ (s : State) (p pa mw : Nat) (fails : List BootFailure) (bs : List (BitVec 8)) (on : Bool) (e : Peer) (op : HostOp),
    (let written := s.agentWrites ((bs.zipIdx).map (fun b => (⟨pa + b.2, s.memorySide (pa + b.2)⟩, b.1))) none
     pa < 0x8000000000 → pa + bs.length ≤ 0x8000000000 →
      exec (.hostHdmAccess (.write pa bs)) s = .next written ∧
      (s.peerUp p = true → exec (.peerRequest p (.write pa bs)) s = .next written)) ∧
    (∀ n, 0 < n → pa + n ≤ 0x8000000000 → ∃ t, exec (.hostHdmAccess (.read pa n)) s = .next t ∧
      (s.peerUp p = true → exec (.peerRequest p (.read pa n)) s = .next t) ∧ t.mem = s.mem ∧ t.waves = s.waves ∧ t.ctxs = s.ctxs ∧
      ((pa + n - 1) / 128 = pa / 128 → t = s.homeAccess pa (s.memorySide pa) false n)) ∧
    (∀ (at_ : AtomOp) (wide : Bool) (x r : DWord),
      let n := if wide then 8 else 4
      let old := BitVec.ofNat 64 (s.mem.num pa n)
      let y : AtomAccess := ⟨0, 0#64, .phys pa true, x, r⟩
      s.MemCanonical → pa % n = 0 → pa + n ≤ 0x8000000000 → ∀ i, (i = .hostHdmAccess (.atomic at_ wide pa x r) ∨
          s.peerUp p = true ∧ i = .peerRequest p (.atomic at_ wide pa x r)) →
        ∃ t, exec i s = .next t ∧ t.waves = s.waves ∧
          (∀ a, a < pa ∨ pa + n ≤ a → t.mem.byte a = s.mem.byte a) ∧
          (atomWrites at_ wide old y = true → ∀ j, j < n →
            t.mem.byte (pa + j) = (bytesOfNat n (atomResult at_ wide old y).toNat).getD j 0#8) ∧
          (atomWrites at_ wide old y = false → t.mem = s.mem)) ∧
    (0x8000000000 < opEnd op → exec (.hostHdmAccess op) s = .next { s with refusedHost := s.refusedHost ++ [opAddr op] } ∧
      exec (.peerRequest p op) s = .next s) ∧
    (s.peerUp p = false → exec (.peerRequest p op) s = .next s ∧ exec (.peerLinkDown p) s = .next s) ∧
    (s.peers[p]? = some e → e.st = .up →
      let t : State := { s with linkPorts := s.linkPorts &&& ~~~e.ports }
      exec (.peerLinkDown p) s = .next (((List.range 64).filter (fun k => k == p ||
        (t.peers[k]?).any (fun y => y.st == .up && (y.ports &&& t.linkPorts) == 0#16))).foldl State.peerLost t)) ∧
    (s.peers[p]? = some e →
      let t := State.report { s with peers := s.peers.set p { e with st := .down } } errPeerDown p noContext 0#64 0 0
      s.peerLost p = (List.range t.waves.length).foldl (fun u k => u.losePeer p k) t) ∧
    (s.peers[p]? = some e → e.st = .down →
      let trained := e.ports &&& ~~~s.deadPorts
      (trained ≠ 0#16 → exec (.peerLinkRetrain p) s = .next { s with
        peers := s.peers.set p { e with st := .up }, linkPorts := s.linkPorts ||| trained }) ∧
      (trained = 0#16 → exec (.peerLinkRetrain p) s = .next s)) ∧
    (p < s.ports.length → ∃ t, exec (.ckptPortDown p) s = .next t ∧ t.ports = s.ports.set p false ∧ t.mem = s.mem ∧ t.waves = s.waves ∧
      ∀ (c : Nat) (x : Ctx), s.ctxs[c]? = some x → ∃ y, t.ctxs[c]? = some y ∧ y.image = x.image ∧
        y.agDown = (if x.agCut.isSome then some (x.agDown.getD p) else x.agDown)) ∧
    exec (.checkpointPortUp p) s = .next { s with ports := s.ports.set p true } ∧
    (mw ≤ s.addEnergy.powerCap * 1000 → s.addEnergy.hot = false → exec (.powerThrottleWindow mw) s =
      .next { s.addEnergy with withheld := 0, throttle := false }) ∧
    (s.addEnergy.powerCap * 1000 < mw → ∃ n t, 1 ≤ n ∧ n ≤ 64 ∧ t.withheld = n ∧ t.throttle = true ∧
      exec (.powerThrottleWindow mw) s = .next t ∧ t.waves = s.waves ∧ t.mem = s.mem) ∧
    exec (.thermalThrottle on) s = .next { s with hot := on, throttle := on || s.withheld != 0 } ∧
    (s.thermtrip = true → exec .thermtrip s = .next s) ∧
    (s.thermtrip = false → ∃ t : State, exec .thermtrip s = .next t.settleThermal ∧ t.thermtrip = true ∧ t.issueHalt = s.issueHalt ∧
      ∀ (c : Nat) (x : Ctx), s.ctxs[c]? = some x → x.onDevice = true → ∃ y : Ctx, t.ctxs[c]? = some y ∧
        (x.act.ckptSize ≠ 0#64 → y.agQueue = x.agQueue ++ [⟨.device, true⟩]) ∧ (x.act.ckptSize = 0#64 → y.st = .faulted)) ∧
    (s.thermtrip = true → s.issueHalt = false →
      ((∀ x ∈ s.ctxs, x.savePending = false) →
        s.settleThermal = State.report { s with issueHalt := true } errThermal 0 noContext 0#64 0 0) ∧
      ((∃ x ∈ s.ctxs, x.savePending = true) → s.settleThermal = s)) ∧
    (s.issueHalt = true → ∀ (w : Wave) (n : Nat), s.waves[n]? = some w → s.mayIssue w = false) ∧
    (∃ t, exec (.deviceReset fails) s = .next t ∧ t.waves = [] ∧ t.groups = [] ∧ t.ctxs = [] ∧ t.rings = [] ∧ t.copies = [] ∧
      t.thermtrip = false ∧ t.epoch = s.epoch + 1#32 ∧ t.snapSeq = s.snapSeq ∧ t.hours = s.hours ∧ t.life = s.life ∧
      t.firmware = s.firmware ∧ t.form = s.form ∧ t.powerCap = s.form.maxPower ∧ t.tier = s.tier ++ s.tierImages ∧
      t.measurements.length = 5 ∧
      t.recovery = !s.imageOk s.firmware ∧ t.ready = (s.imageOk s.firmware && !fails.any BootFailure.inTraining) ∧
      (t.recovery = false → (∀ k, .core k ∈ fails → k < 160 → ∃ y, t.cores[k]? = some y ∧ y.fenced = true) ∧
        (∀ k, .ckptPort k ∈ fails → k < 2 → t.ports[k]? = some false) ∧
        (∀ k, .peerPort k ∈ fails → k < 16 → t.linkPorts.getLsbD k = false ∧ t.deadPorts.getLsbD k = true)))

/-! ### Services -/

/-- 19 R409 to R412; 14 R339, R342, R343, R347, R356, R357; 02 R74: what each service that acts on a context does with a request that
passes its checks, and the response. Choices of the model: which accesses of a record are refused (log 59); a resume from SAVED without an
image of its own takes the tier's image at CKPTBASE, as it is after a move to this device (17 R387; log 73); one from FAULTED programs the
declarations of the registers then written (log 62), and takes every granule of an extent that the list in force did not hold as
dirty (log 60). -/
def Obligations.ContextServiceResults : Prop :=
  ∀ (s : State) (c : Nat) (x : Ctx),
    let b := s.mbB
    let begun (t : State) (code arg : Nat) (counts : List Nat) : State := { t with begun := (s.begin_ code c arg counts).begun }
    (s.Request 0x01 8 noContext → (b 0).toNat < 2 ^ 8 →
      let used (n : Nat) : Bool := n == 0xFFFFFFFF || s.ctxs.any (fun y => y.id.toNat == n && !y.destroyed)
      let f := s.freshNumber 32 used s.ctxs.length
      s.Answers .ctxCreate (State.grantCtx { f.2 with ctxs := f.2.ctxs ++ [Ctx.fresh (BitVec.ofNat 32 f.1) (b 0)
        (s.availableTo (bitsOf (b 0) 0 6))] } f.2.ctxs.length) (BitVec.ofNat 32 f.1) []) ∧
    (s.RequestFor 0x02 8 c x → completionOk (b 0) = true →
      let k := s.killCtx c
      s.Answers .ctxDestroy { begun k.2 0x02 0 [k.1] with
        rings := k.2.rings.map (fun (r : Ring) => if r.ctx = c ∧ r.st ≠ .free then { r with st := .destroying } else r) } s.mbCtx []) ∧
    (∀ t, s.RequestFor 0x03 16 c x → (b 0).toNat % 8 = 0 → (b 1).toNat % 8 = 0 → (b 0).toNat + (b 1).toNat ≤ recordSize →
      (s.capFor 4 (.record c) c (b 0).toNat (b 1).toNat false = none →
        exec .ctxRead s = .next (s.respond { s.refuse resRefused 0 with state := s.frontError })) ∧
      (s.capFor 4 (.record c) c (b 0).toNat (b 1).toNat false = some t → s.Answers .ctxRead t s.mbCtx ((List.range ((b 1).toNat / 8)).flatMap (fun k =>
        bytesOfNat 8 (x.record ((b 0).toNat + 8 * k)).toNat)))) ∧
    (∀ t, s.RequestFor 0x04 16 c x → (b 0).toNat % 8 = 0 → (b 0).toNat + 8 ≤ recordSize → recordRo (b 0).toNat = false →
      recordFieldOk (b 0).toNat (b 1) = true → (b 0).toNat ∉ [0x030, 0x060, 0x0A8] →
      s.capFor 4 (.record c) c (b 0).toNat 8 true = some t →
      s.Answers .ctxWrite (t.modCtx c (fun y => { y with regs := y.regs.put (b 0).toNat (b 1) })) s.mbCtx []) ∧
    (s.RequestFor 0x05 16 c x → completionOk (b 0) = true →
      let stop (save : Bool) : State :=
        (s.begin_ 0x05 c (if save then 1 else 0) []).requestClose c ⟨.service s.begun.length, save⟩
      (b 1 = 0#64 → x.st = .resident → s.Answers .ctxStopClose (stop false) s.mbCtx []) ∧
      (b 1 = 1#64 → (x.st = .resident ∨ x.st = .faulted) → s.Answers .ctxStopSave (stop true) s.mbCtx [])) ∧
    (∀ t y u, s.RequestFor 0x06 0 c x → x.st = .saved → s.giveTag c = some t →
      let t1 := (t.takeTier c x).putRegs c x
      t1.ctxs[c]? = some y →
      (∀ img, y.image = some img → t1.imageReadable y = true ∧ t1.restore c img = .ok u) →
      (y.image = none → t1.startBare c x = .ok u) →
      s.Answers .ctxResume (u.modCtx c (fun y => { y with ckptStart := y.resClock })) s.mbCtx []) ∧
    (∀ t : State, (t.tierFor x = none → t.takeTier c x = t) ∧
      (∀ r, t.tierFor x = some r → t.ctxs[c]? = some x → ∃ y img, (t.takeTier c x).ctxs[c]? = some y ∧ y.image = some img ∧
        img.ivl = r.image.ivl ∧ y.regs = x.regs)) ∧
    (∀ t u, s.RequestFor 0x06 0 c x → x.st = .faulted → s.giveTag c = some t →
      ((t.dropDecls c).putRegs c x).readyLists c { x with act := x.regs } [] = .ok u →
      s.Answers .ctxResume (((u.modCtx c (fun y => { y with
        agDirty := (newGranules s.mem x { x with act := x.regs }).foldl addMark y.agDirty })).unfault c x).modCtx c
          (fun y => { y with ckptStart := y.resClock })) s.mbCtx []) ∧
    (s.RequestFor 0x07 8 c x → completionOk (b 0) = true →
      s.Answers .ctxKill (begun (s.killCtx c).2 0x07 0 [(s.killCtx c).1]) s.mbCtx []) ∧
    (s.RequestFor 0x08 24 c x → completionOk (b 0) = true → (b 1).toNat % 4096 = 0 → (b 2).toNat % 4096 = 0 →
      s.Answers .ctxInval ((s.dropRange c (vaBits (b 1)) (b 2).toNat).begin_ 0x08 c 0 []) s.mbCtx [])

/-- 19 R409 to R412; 13 R304, R311, R313, R321; 03 R96; 15 R374, R376; 02 R74: what each service on rings, tables, bins, buffers and objects
does with a request that passes its checks. The services that invalidate translations answer only when no access of the context is open:
PB_SET drops them at once and answers later, OBJ_LOAD is carried out later (the model's choice, log 79). -/
def Obligations.QueueServiceResults : Prop :=
  ∀ (s : State) (c k n : Nat) (x : Ctx) (r : Ring) (o : Obj),
    let b := s.mbB
    let idle : Prop := ∀ w ∈ s.waves, w.ctx = c → w.accessOpen = false
    (s.RequestFor 0x10 16 c x → (b 0).toNat % 16 = 0 → 4 ≤ (b 1).toNat → (b 1).toNat ≤ 20 → x.slot = some k →
      reachesMemory (b 0) = true → reachesMemory (b 0 + BitVec.ofNat 64 (16 * 2 ^ (b 1).toNat - 1)) = true →
      ∀ num t, s.pick (fun y => (s.ringAt c y).isNone) 1024 = (some num, t) →
      s.Answers .ringCreate ((State.modCtx { t with rings := t.rings ++ [Ring.fresh c num (b 0) (b 1).toNat] } c
        (fun y => { y with slot := some k })).grant (.ring t.rings.length) (b 0) (16 * 2 ^ (b 1).toNat) true false x.id) s.mbCtx
        (bytesOfNat 8 (num + 2 ^ 32 * k))) ∧
    (s.RequestFor 0x11 16 c x → completionOk (b 0) = true → (b 1).toNat < 2 ^ 10 → s.ringAt c (b 1).toNat = some k →
      s.rings[k]? = some r → r.st ≠ .destroying →
      let e := (s.modRing k (fun y => { y with st := .destroying })).endWork (· == k)
      s.Answers .ringDestroy { e.2 with begun := (s.begin_ 0x11 c k e.1).begun } s.mbCtx []) ∧
    (s.RequestFor 0x10 16 c x → reachesMemory (b 0) = false ∨ reachesMemory (b 0 + BitVec.ofNat 64 (16 * 2 ^ (b 1).toNat - 1)) = false →
      exec .ringCreate s = .next (s.respond (s.refuse resBadField 0))) ∧
    (s.RequestFor 0x30 16 c x → (b 0).toNat < 2 ^ 8 → s.tableRuns c (b 0).toNat = false →
      s.Answers .graphSet ((s.modCtx c (fun y => { y with graphs := y.graphs.filter (fun g => g.1 != (b 0).toNat) })).dropTable c (b 0).toNat)
        s.mbCtx []) ∧
    (s.RequestFor 0x30 16 c x → (b 0).toNat < 2 ^ 9 → 2 ^ 8 ≤ (b 0).toNat → s.tableRuns c ((b 0).toNat % 2 ^ 8) = false →
      headerOk s.mem (b 1).toNat = true →
      let t := s.readTable c (graphRanges s.mem (b 1).toNat ++ [(succBase s.mem (b 1).toNat, succBytes s.mem (b 1).toNat)])
      headerOk t.mem (b 1).toNat = true → (∀ j, j < graphNodes t.mem (b 1).toNat → nodeOk t.mem (b 1).toNat j = true ∧
        (t.kernelOf c (nodeQuad t.mem (b 1).toNat j 0)).isSome = true) → graphOk t.mem (b 1).toNat = true →
      s.Answers .graphSet ((t.modCtx c (fun y => { y with
        graphs := y.graphs.filter (fun g => g.1 != (b 0).toNat % 2 ^ 8) ++ [((b 0).toNat % 2 ^ 8, b 1)] })).holdTable c
          ((b 0).toNat % 2 ^ 8)) s.mbCtx []) ∧
    (∀ t, s.RequestFor 0x31 40 c x → (b 0).toNat < 2 ^ 12 → binEntryOk [b 1, b 2, b 3, b 4] = true → (b 1).getLsbD 0 = true →
      bitsOf (b 2) 48 16 = 0 → argsOk (b 3) = true → (s.kernelOf c (b 2)).isSome = true → s.binOf c (b 0).toNat = none →
      s.capFor 4 (.bins c) c (32 * (b 0).toNat) 32 true = some t → s.Answers .binSet (t.modCtx c (fun y => { y with bins := y.bins ++ [((b 0).toNat,
        { quads := [b 1, b 2, b 3, b 4], slots := [], tree := 0, depth := 0, sib := none, due := 0 })] })) s.mbCtx []) ∧
    (∀ u, s.RequestFor 0x32 40 c x → (b 0).toNat < 2 ^ 8 → b 1 &&& ~~~0x01FFFFFFFFFF0001#64 = 0#64 →
      b 2 &&& ~~~0x0000FFFFFFFF0000#64 = 0#64 → b 3 &&& ~~~0x0000FFFFFFFF0000#64 = 0#64 → x.pbBase ≠ 0 →
      (let size := 65536 * bitsOf (b 4) 0 32
       let lies : Prop := inHbm (b 2).toNat size = true ∧ inHbm (b 3).toNat size = true ∧
         ((b 2).toNat + size ≤ (b 3).toNat ∨ (b 3).toNat + size ≤ (b 2).toNat)
       let m := u.agentStore (x.pbBase + 32 * (b 0).toNat) (bytesOfNat 8 (b 1).toNat ++ bytesOfNat 8 (b 2).toNat ++
         bytesOfNat 8 (b 3).toNat ++ bytesOfNat 4 (bitsOf (b 4) 0 32))
       let t := (m.dropXlats (fun e => e.ctx == c && ptePb e.leaf && decide (ptePbIdx e.leaf = (b 0).toNat))
         (fun _ => false)).dropRange c (s.pbBase c (b 0).toNat) (s.pbSize c (b 0).toNat)
       let through : Prop := (s.holdPb c x).capFor 4 (.pbTable c) c (32 * (b 0).toNat) 28 true = some u
       (lies → through → idle → s.Answers .pbSet t s.mbCtx []) ∧
       (lies → through → ¬ idle → exec .pbSet s = .next t) ∧
       (¬ lies → exec .pbSet s = .next (s.respond (s.refuse resRefused 0))))) ∧
    (∀ num img t, s.RequestFor 0x20 24 c x → reachesMemory (b 0) = true →
      ((b 1).toNat ≠ 0 → reachesMemory (b 0 + BitVec.ofNat 64 ((b 1).toNat - 1)) = true) →
      s.load_ c x (b 0).toNat (b 1).toNat (b 2) = .ok (num, img, t) →
      let h := imgAt s.mem (b 0).toNat img
      (¬ idle → exec .objLoad s = .next s) ∧
      (idle → s.Answers .objLoad t s.mbCtx (bytesOfNat 8 num ++ bytesOfNat 8 (b 2 + BitVec.ofNat 64 (imGot s.mem h)).toNat ++
        bytesOfNat 8 (imNkern s.mem h % 2 ^ 16 + 2 ^ 16 * img)))) ∧
    (s.RequestFor 0x21 16 c x → completionOk (b 0) = true →
      s.objs.findIdx? (fun y => y.ctx == c && y.num == (b 1).toNat && !y.unloaded) = some n → s.objs[n]? = some o →
      o.revoked = false → s.tableNaming x (b 1).toNat = none → x.binNaming (b 1).toNat = none →
      s.Answers .objUnload ((s.modObj n (fun y => { y with revoked := true })).begin_ 0x21 c n []) s.mbCtx [])

/-- 19 R405, R410 to R419; 14 R365: what the services that act on no context, the end of a begun service and the SPDM responder do. The codes
of the SPDM messages and the bytes of what is offered are presumed (log 25). Choices of the model: the number that a snapshot takes
and where the lifetime record ends (log 65), what comes of a peer's training and the order of the completions (log 67), and that an image
pushed in RECOVERY is kept (log 83). -/
def Obligations.DeviceServiceResults : Prop :=
  ∀ (s : State) (k n : Nat) (t : State) (g : Begun),
    let b := s.mbB
    let quotas := ((List.range 160).map (fun c => (c, b (2 + c)))).filterMap (fun q =>
      let y := (min (bitsOf q.2 0 8) 128, min (bitsOf q.2 16 9) 416)
      if y = (128, 416) then none else some (q.1, y))
    (s.mbBusy = true → s.spdmBefore = 0 → s.mbService ∉ serviceCodes →
      exec .badservice s = .next (s.respond (s.refuse resBadService 0))) ∧
    (s.Request 0x40 1296 noContext → (b 0).toNat < 2 ^ 6 → (∀ c, c < 160 → b (2 + c) &&& ~~~0x1FF00FF#64 = 0#64) →
      s.Answers .domSet (s.modDomain (b 0).toNat (fun d => { d with fmask := b 1, quotas := quotas })) noContext []) ∧
    (s.Request 0x41 8 noContext → (b 0).toNat < 2 ^ 6 → s.Answers .domGet s noContext (s.domBlock (b 0).toNat)) ∧
    (s.Request 0x42 40 noContext → (b 0).toNat < 2 ^ 6 → s.Answers .snapshot { s with snapSeq := s.snapSeq + 1#64 } noContext
      (s.snapshotBytes (b 0).toNat (s.mbBuf.num 40 32))) ∧
    (s.Request 0x50 8 noContext → (b 0) &&& ~~~0xFFF0001#64 = 0#64 →
      ((b 0).getLsbD 0 = false → s.Answers .powerRead s noContext (bytesOfNat 8 s.powerCap)) ∧
      ((b 0).getLsbD 0 = true → 600 ≤ bitsOf (b 0) 16 12 → bitsOf (b 0) 16 12 ≤ s.form.maxPower →
        s.Answers .powerWrite { s with powerCap := bitsOf (b 0) 16 12 } noContext (bytesOfNat 8 (bitsOf (b 0) 16 12)))) ∧
    (s.Request 0x51 16 noContext → (b 0).toNat % 8 = 0 → (b 1).toNat % 8 = 0 → (b 0).toNat + (b 1).toNat ≤ 0xD10 →
      s.Answers .lifeGet s noContext ((List.range ((b 1).toNat / 8)).flatMap (fun j =>
        bytesOfNat 8 (s.lifeAt ((b 0).toNat + 8 * j)).toNat))) ∧
    (s.Request 0x52 48 noContext → (b 0) &&& ~~~0x1003F#64 = 0#64 → (b 1).toNat < 2 ^ 16 →
      ∃ st : PeerSt, (st = .absent ↔ (b 0).getLsbD 16 = false) ∧ (st = .up → (b 1).extractLsb' 0 16 &&& s.linkPorts ≠ 0#16) ∧
        s.Answers .peerSet { s with
          draws := s.draws + 1, peers := s.peers.set (bitsOf (b 0) 0 6) ⟨(b 1).extractLsb' 0 16, BitVec.ofNat 256 (s.mbBuf.num 48 32), st⟩ } noContext (bytesOfNat 8 st.code)) ∧
    (s.Request 0x60 16 noContext → reachesMemory (b 0) = true →
      ((b 1).toNat ≠ 0 → reachesMemory (b 0 + BitVec.ofNat 64 ((b 1).toNat - 1)) = true) →
      let img := s.mem.read (b 0).toNat (b 1).toNat
      exec .imagePush s = .next (s.respond (if s.imageOk img then
          ⟨{ s.homeRange (b 0).toNat (b 1).toNat false with firmware := img }, 0, 0, noContext, []⟩
        else s.refuse resBadImage 0))) ∧
    (s.recovery = true → State.Request { s with recovery := false } 0x60 16 noContext → reachesMemory (b 0) = true →
      ((b 1).toNat ≠ 0 → reachesMemory (b 0 + BitVec.ofNat 64 ((b 1).toNat - 1)) = true) →
      let img := s.mem.read (b 0).toNat (b 1).toNat
      ∃ u : State, exec .imagePush s = .next u ∧ u.recovery = !s.imageOk img ∧
        (s.imageOk img = true → u.firmware = img ∧ u.ready = !(Config.bootFailures
          (s.homeRange (b 0).toNat (b 1).toNat false).draws).any BootFailure.inTraining)) ∧
    (s.recovery = true → s.mbBusy = true → s.spdmBefore = 0 →
      ∀ q, q ∈ [(Instr.ctxCreate, 0x01), (.ctxDestroy, 0x02), (.ctxRead, 0x03), (.ctxWrite, 0x04), (.ctxResume, 0x06), (.ctxKill, 0x07),
          (.ctxInval, 0x08), (.ringCreate, 0x10), (.ringDestroy, 0x11), (.objLoad, 0x20), (.objUnload, 0x21), (.graphSet, 0x30),
          (.binSet, 0x31), (.pbSet, 0x32), (.domSet, 0x40), (.domGet, 0x41), (.snapshot, 0x42), (.lifeGet, 0x51), (.peerSet, 0x52)] →
        s.mbService = q.2 → exec q.1 s = .next (s.respond (s.refuse resRecovery 0))) ∧
    (∀ res, s.begun[k]? = some g → g.ended = false → s.firstBegun k g.ctx = true → s.serviceEnd k g = some (res, t) →
      let u := t.modBegun k (fun y => { y with ended := true })
      (g.addr = 0#64 → exec (.serviceCompletion k) s = .next u) ∧
      (g.addr ≠ 0#64 → exec (.serviceCompletion k) s =
        .next ((u.enterPhys none g.addr.toNat false ((g.record res).map some) none).raise 2))) ∧
    (s.Request 0x70 n noContext → 8 ≤ n → n ≤ 4064 → n % 8 = 0 →
      let m := s.mbBuf.num 33 1
      let req := s.mbBuf.read 32 n
      let reply (i : Instr) (u : State) (resp : Nat) (content : List (BitVec 8)) : Prop :=
        s.Answers i u noContext (Config.spdmMessage resp s.spdmReady req content)
      let signed := bytesOfNat 2420 (Config.sign (bytesOfNat 32 (Config.sha3 (req ++ s.measured)).toNat))
      (m = 0x84 → reply .getVersion { s with spdmReady := false } 0x04 []) ∧
      (m = 0xE1 → reply .getCapabilities s 0x61 []) ∧
      (m = 0xE3 → reply .negotiateAlgorithms { s with spdmReady := true } 0x63 algorithmsOffered) ∧
      (m = 0x81 → reply .getDigests s 0x01 (bytesOfNat 32 Config.identityDigest.toNat)) ∧
      (m = 0x82 → reply .getCertificate s 0x02 Config.certificate) ∧
      (m = 0x83 → reply (.challenge k) s 0x03 signed) ∧
      (m = 0xE0 → reply (.getMeasurements k) s 0x60 (s.measured ++ signed)) ∧
      (m = 0xFE → reply (.vendorDefinedRequest k n) { s with snapSeq := s.snapSeq + 1#64 } 0x7E
        (s.snapshotBytes (Config.spdmDomain req % 64) (Config.spdmNonce req)))) ∧
    (s.mbBusy = true → s.spdmBefore ≠ 0 → ∀ q, q ∈ [(Instr.ctxCreate, 0x01), (.ctxDestroy, 0x02), (.ctxRead, 0x03), (.ctxWrite, 0x04), (.ctxStopClose, 0x05),
        (.ctxStopSave, 0x05), (.ctxResume, 0x06), (.ctxKill, 0x07), (.ctxInval, 0x08), (.ringCreate, 0x10), (.ringDestroy, 0x11), (.objLoad, 0x20),
        (.objUnload, 0x21), (.graphSet, 0x30), (.binSet, 0x31), (.pbSet, 0x32), (.domSet, 0x40), (.domGet, 0x41), (.snapshot, 0x42), (.powerRead, 0x50),
        (.powerWrite, 0x50), (.lifeGet, 0x51), (.peerSet, 0x52), (.imagePush, 0x60)] → exec q.1 s = .next s) ∧
    (∀ via req rest, s.mbBusy = false ∨ s.spdmBefore ≠ 0 → s.spdmIn = (via, req) :: rest →
      let u : State := { s with spdmIn := rest, spdmBefore := s.spdmBefore - 1 }
      let sent (i : Instr) (u : State) (resp : Nat) (content : List (BitVec 8)) : Prop :=
        exec i s = .next { u with spdmOut := u.spdmOut ++ [(via, Config.spdmMessage resp s.spdmReady req content)] }
      let signed := bytesOfNat 2420 (Config.sign (bytesOfNat 32 (Config.sha3 (req ++ s.measured)).toNat))
      (spdmCode req = 0x84 → sent .getVersion { u with spdmReady := false } 0x04 []) ∧
      (spdmCode req = 0xE1 → sent .getCapabilities u 0x61 []) ∧
      (spdmCode req = 0xE3 → sent .negotiateAlgorithms { u with spdmReady := true } 0x63 algorithmsOffered) ∧
      (spdmCode req = 0x81 → sent .getDigests u 0x01 (bytesOfNat 32 Config.identityDigest.toNat)) ∧
      (spdmCode req = 0x82 → sent .getCertificate u 0x02 Config.certificate) ∧
      (spdmCode req = 0x83 → sent (.challenge k) u 0x03 signed) ∧
      (spdmCode req = 0xE0 → sent (.getMeasurements k) u 0x60 (s.measured ++ signed)) ∧
      (spdmCode req = 0xFE → sent (.vendorDefinedRequest k n) { u with snapSeq := s.snapSeq + 1#64 } 0x7E
        (s.snapshotBytes (Config.spdmDomain req % 64) (Config.spdmNonce req))))


/-- 10 R251; 12 R281, R282, R285, R297; 13 R310, R312, R314, R316, R318, R319; 14 R334, R339, R347, R356, R361, R362; 03 R78, R90, R98, R103:
what the shared effects of the events leave in the state. A group that is placed, its waves with the entry registers and PCs of their
roles; waves and groups that start; the launch of a bin that fires, with its table; a launch and its tree; a graph that begins and a
node that becomes ready; a trap that enters its handler or faults its context; a close that is requested; a request that looks for
an active slot, and a piece of one that lands; a self-test that begins, and a replay. Choices of the model: the place of an
indirection table (log 11), the bytes of a group's save (log 12), the numbers of launches (log 21), that a bin's set whose kernel
fits on no core fails its tree (log 40), how work that met three errors ends (log 76). -/
def Obligations.EventEffects : Prop :=
  ∀ (s : State) (c g n q b j : Nat) (x : Launch) (cores : List Nat) (w : Wave) (y : Group) (z : Ctx) (k : Kernel) (v : CopyReq),
    (let t := s.placeNew g x q cores
     s.launches[g]? = some x →
      (∃ h, t.groups[s.groups.length]? = some h ∧ h.st = .starting ∧ h.ctx = x.ctx ∧ h.launch = g ∧ h.index = x.next ∧
        h.coord = coordOf x.extent x.next ∧ h.extent = x.extent ∧ h.gregs = List.replicate 256 0#64 ∧ h.scratch = Mem.empty ∧
        h.depth = x.depth ∧ h.sib = x.sib ∧ h.slots = x.slots ∧ h.tree = x.tree ∧ h.claim = x.mclaim ∧ h.cores = cores ∧
        h.waves = (List.range x.kernel.waveRoles.length).map (· + s.waves.length)) ∧
      (∃ l, t.launches[g]? = some l ∧ l.next = x.next + 1 ∧
        l.listed = !decide (x.extent.1 * x.extent.2.1 * x.extent.2.2 ≤ x.next + 1)) ∧
      (∀ i p, x.kernel.waveRoles[i]? = some p → ∃ u, t.waves[s.waves.length + i]? = some u ∧ u.group = s.groups.length ∧ u.ctx = x.ctx ∧
        u.index = i ∧ u.stage = p.1 ∧ u.core = cores.getD (i / q) 0 ∧ u.st = .unstarted ∧ u.handler = false ∧ u.pc = p.2.entry ∧
        u.s 1 = x.args ∧ (∀ m, 2 ≤ m → m ≤ 5 → u.s m = x.regs.getD (m - 2) 0#64) ∧ (∀ m, m = 0 ∨ 6 ≤ m → u.s m = 0#64) ∧
        u.m 0 = 0xFFFFFFFF#32 ∧ (∀ m, 1 ≤ m → m ≤ 6 → u.m m = 0#32) ∧ u.vregs = List.replicate p.2.numV VReg.zero ∧
        u.hvs = List.replicate p.2.numH 0#8192 ∧ u.bas = List.replicate p.2.numB 0#65536 ∧ u.hvtie = 0x9E3779B97F4A7C15#64 ∧
        u.fpflags = flagNone ∧ u.snapCur = false ∧ u.snapOvf = false ∧ u.mirror.valid = false) ∧
      (∀ i, i < s.waves.length → t.waves[i]? = s.waves[i]?)) ∧
    (s.waves[n]? = some w → w.st ≠ .retired → ∀ fresh wake, ∃ u, (s.startWave fresh wake n).waves[n]? = some u ∧
      u.st = (if w.st = .unstarted then .ready else w.st) ∧ u.stopped = false ∧ u.pc = w.pc ∧ u.sregs = w.sregs ∧ u.masks = w.masks ∧
      u.vregs = w.vregs ∧ u.snapCur = (!fresh && !wake) ∧ (fresh = true → u.acqCnt = 0#32) ∧
      (fresh = false → wake = true → u.acqCnt = w.acqCnt + 1#32) ∧
      (fresh = true ∨ wake = true → u.adopted = s.allGens w.ctx)) ∧
    (s.groups[g]? = some y → ∃ h, (s.startGroup g).groups[g]? = some h ∧ h.started = true ∧ h.fresh = false ∧ h.wake = false ∧
      h.st = (if (s.ctxs[y.ctx]?).any (fun e => e.st == .faulted) then .faulted else .running) ∧ h.gregs = y.gregs ∧
      (s.startGroup g).waves = (y.waves.foldl (fun t i => t.startWave y.fresh y.wake i) (if y.claim then s.setArrays y (if y.fresh then
        List.replicate y.cores.length (List.replicate 4 ArrayUnit.zero) else y.saved) else s)).waves ∧
      (y.claim = true → y.fresh = true → ∀ i e, i ∈ y.cores → (s.startGroup g).cores[i]? = some e →
        e.arrays = List.replicate 4 ArrayUnit.zero)) ∧
    (∀ e, s.binOf c b = some e → e.slots ≠ [] → s.kernelOf c (qAt e.quads 1) = some k →
      let t := s.fireBin c b
      (s.couldPlace (s.domainOf c) (k.needs (fun _ => true)) = true →
        (∃ l, t.launches[s.launches.length]? = some l ∧ l.ctx = c ∧ l.tree = e.tree ∧ l.origin = .bin b ∧ l.kernel = k ∧
          l.args = qAt e.quads 2 ∧ l.extent = (1, 1, 1) ∧ l.mclaim = (qAt e.quads 0).getLsbD 1 ∧
          l.home = (s.readHome c k (qAt e.quads 2)).1 ∧ l.stride = (0#64, 0#64, 0#64) ∧ l.next = 0 ∧ l.depth = e.depth ∧
          l.sib = e.sib ∧ l.slots = e.slots ∧ l.listed = true ∧
          (l.table = none ∧ l.regs = [] ∨ ∃ off, l.table = some (off, 8 * e.slots.length) ∧
            l.regs = [s.recBase c + BitVec.ofNat 64 (tableArea + off), BitVec.ofNat 64 e.slots.length, BitVec.ofNat 64 e.depth,
              (e.sib.map SibRef.word).getD (BitVec.ofNat 64 b)])) ∧
        ∃ e', t.binOf c b = some e' ∧ e'.slots = [] ∧ e'.sib = none ∧ e'.quads = e.quads) ∧
      (s.couldPlace (s.domainOf c) (k.needs (fun _ => true)) = false → e.tree < s.trees.length →
        ∃ u, t.trees[e.tree]? = some u ∧ u.failed = true)) ∧
    (∀ o args e claim stride,
      let h := s.readHome c k args
      let fits := h.2.couldPlace (h.2.domainOf c) (k.needs (fun _ => true))
      let t := s.launch c o k args e claim stride
      (∃ l, t.launches[s.launches.length]? = some l ∧ l.ctx = c ∧ l.tree = s.trees.length ∧ l.origin = o ∧ l.kernel = k ∧ l.args = args ∧
        l.extent = e ∧ l.mclaim = claim ∧ l.home = h.1 ∧ l.stride = stride ∧ l.next = 0 ∧ l.regs = [] ∧ l.depth = 0 ∧
        l.sib = none ∧ l.listed = fits) ∧
      ∃ u, t.trees[s.trees.length]? = some u ∧ u.ctx = c ∧ u.origin = o ∧ u.isOpen = true ∧ u.failed = !fits ∧ u.live = 0 ∧ u.done = 0 ∧
        u.unplaced = (if fits then e.1 * e.2.1 * e.2.2 else 0)) ∧
    (∀ ring pkt,
      let h := s.graphHeader c b
      let l := List.range (graphNodes s.mem h)
      s.beginGraph c b ring pkt = (l.filter (fun i => nodePreds s.mem h i == 0)).foldl (fun t i => t.startNode s.runs.length i)
        (State.tableReads { s with runs := s.runs ++ [{ ctx := c, table := b, ring := ring, pkt := pkt
                                                        counts := l.map (nodePreds s.mem h), waiting := [], running := 0
                                                        retired := 0, ended := 0, failed := none, live := true }] } (graphRanges s.mem h))) ∧
    (∀ r, s.runs[n]? = some r →
      let h := s.graphHeader r.ctx r.table
      let cap := s.capFor 3 (.graph r.ctx r.table 1) r.ctx (64 * j) 64 false
      let t := s.startNode n j
      (4096 ≤ s.openTrees r.ctx ∨ s.sealing r.ctx = true → t = s.modRun n (fun e => { e with waiting := e.waiting ++ [j] })) ∧
      (s.openTrees r.ctx < 4096 → s.sealing r.ctx = false → cap = none →
        ∃ f, t.trees[s.trees.length]? = some f ∧ f.origin = .node n j ∧ f.failed = true) ∧
      (∀ v, s.openTrees r.ctx < 4096 → s.sealing r.ctx = false → cap = some v →
        let u := v.readTable r.ctx [nodeRange v.mem h j]
        let quad (i : Nat) : DWord := nodeQuad u.mem h j i
        ∃ e f, t.runs[n]? = some e ∧ t.trees[s.trees.length]? = some f ∧ e.running = r.running + 1 ∧ f.origin = .node n j ∧ f.ctx = r.ctx ∧
          e.failed = (if f.failed then some ((r.failed.map (min j)).getD j) else r.failed) ∧
          (u.kernelOf r.ctx (quad 0) = none → f.failed = true) ∧
          ∀ i, u.kernelOf r.ctx (quad 0) = some i → ∃ l, t.launches[s.launches.length]? = some l ∧ l.tree = s.trees.length ∧ l.kernel = i ∧
            l.args = quad 1 ∧ l.extent = (bitsOf (quad 2) 0 32, bitsOf (quad 2) 32 32, bitsOf (quad 3) 0 32) ∧
            l.mclaim = (quad 3).getLsbD 32 ∧ l.stride = (quad 5, quad 6, quad 7) ∧ l.listed = !f.failed)) ∧
    (∀ f after, s.waves[n]? = some w →
      let t := s.enterTrap n f after
      (w.handler = false → s.trapVec w ≠ 0#64 → w.masks ≠ [] → ∃ u, t.waves[n]? = some u ∧ u.frame = f ∧ u.handler = true ∧
        u.pc = s.trapVec w ∧ u.trapCause = f.cause ∧ u.trapAddr = f.addr ∧ u.trapPc = (if after then f.tpc + 4#64 else f.tpc) ∧
        u.m 0 = 0xFFFFFFFF#32 ∧ u.sregs = w.sregs ∧ u.vregs = w.vregs ∧ u.pend = w.pend ∧ u.st = .ready ∧ t.ctxs = s.ctxs ∧ t.mem = s.mem) ∧
      (s.ctxs[w.ctx]? = some z → z.st ≠ .faulted → w.handler = true ∨ s.trapVec w = 0#64 →
        ∃ e, t.ctxs[w.ctx]? = some e ∧ e.st = .faulted ∧ e.faultFrame = f ∧ e.faultWave = BitVec.ofNat 64 w.index ∧
          e.faultKind = (if w.handler then faultDouble else if f.cause = causeEcc then faultLost else faultUnhandled))) ∧
    (s.ctxs[c]? = some z →
      (∀ r, z.act.ckptSize ≠ 0#64 → s.requestClose c r = s.modCtx c (fun e => { e with agQueue := e.agQueue ++ [r] })) ∧
      (∀ i p save, z.act.ckptSize = 0#64 →
        s.requestClose c ⟨.packet i p, save⟩ = s.completePacket i p stCkptFail 0 0 0#64 ∧
        s.requestClose c ⟨.service i, save⟩ = s.modBegun i (fun e => { e with ready := true, result := 0x0A, value := 0#64 }) ∧
        s.requestClose c ⟨.device, false⟩ = s ∧
        ∃ e, (s.requestClose c ⟨.device, true⟩).ctxs[c]? = some e ∧ e.st = .faulted ∧ (z.st ≠ .faulted → e.faultKind = faultFence))) ∧
    ((s.toWeightStore v = true ∧ s.liveKernel v.ctx = true → s.prepare v = v) ∧
     (s.toWeightStore v = false ∨ s.liveKernel v.ctx = false →
      (v.d.ring = true → v.reached = false → s.prepare v = { v with st := .ringwait }) ∧
      (v.d.ring = false ∨ v.reached = true → (s.bind v = none → s.prepare v = { v with st := .pubhold }) ∧
        ∀ e, s.bind v = some e → s.prepare v =
          if e.pbv && s.held e then { e with st := .pubhold } else { e with st := .running, reached := false }))) ∧
    (s.copies[c]? = some v → ∃ e u, (s.landPiece c n).copies[c]? = some e ∧ e.low = v.low + u * v.d.unit ∧ u * v.d.unit * v.d.dstNibs ≤ 8192 ∧
      (s.barrierBad v = true → u = 0) ∧ e.counted = v.counted + u * v.d.unit * v.d.dstNibs / 2 ∧
      (v.d.count ≤ e.low → e.st = if v.d.follow then .followwait else .done) ∧
      (e.low < v.d.count → e.st = .running ∨ e.st = .pubhold)) ∧
    (∀ u code cls, ∃ e, (s.beginTest u code cls).tests = s.tests ++ [e] ∧ e.unit = u ∧ e.code = code ∧ e.cls = cls ∧ e.verdict = false ∧
      e.parked = ((unitCore u).map s.groupsToPark).getD [] ∧
      s.beginTest u code cls = e.parked.foldl State.parkForTest { s with tests := s.tests ++ [e] }) ∧
    (s.groups[g]? = some y → s.ctxs[y.ctx]? = some z →
      (y.st = .running ∨ y.st = .starting → s.savedBytes y.ctx + s.groupBytes g y ≤ z.act.saveSize.toNat →
        s.parkForTest g = s.modGroup g (fun e => { e with st := .parking, wake := false })) ∧
      (z.act.saveSize.toNat < s.savedBytes y.ctx + s.groupBytes g y → z.agQueue.any (·.save) = false → z.agBy.any (·.save) = false →
        s.parkForTest g = s.requestClose y.ctx ⟨.device, true⟩)) ∧
    (∀ t : SelfTest,
      let u := workUnit t.unit
      let s0 : State := { s with replays := s.replays.filter (fun r => !r.isOf u t.wave) }
      (s.replayCount u t.wave < 3 → s.replay t = { s with
        replays := ⟨u, t.wave, t.code, s.replayCount u t.wave + 1⟩ :: s.replays.filter (fun r => !r.isOf u t.wave) }) ∧
      (3 ≤ s.replayCount u t.wave → s.workCtx t = some c → s.hasImage c = true →
        s.replay t = s0.charging c (fun e => e.rollbackFor c t.code)) ∧
      (3 ≤ s.replayCount u t.wave → s.workCtx t = some c → s.hasImage c = false → t.wave = some n → s.waves[n]? = some w →
        s.replay t = (((s0.charging c (fun e => e.dropWork t.unit t.wave)).lifeAdd (ltAbort t.code)).errorTrap n t.boundary
          causeReplayAbort 0).tryEnd w.group)) ∧
    (∀ engine cause code, s.waves[n]? = some w → w.st ≠ .retired → w.handler = false ∨ engine = true →
      s.errorTrap n engine cause code = s.modWave n (fun e => { e with
        due := e.due ++ [⟨cause, BitVec.ofNat 8 code, 0#4, 0#6, 0#64, 0#16, 0#40⟩] }))
end

