-- ==== Sys2Proof/Laws/Issue.lean ====
section
/-! SUPPORT. What issuing a word can do: it traps before its own checks, it traps by one of its own checks, or it has its
effect; said once for each shared operation. -/

namespace Sys2Proof.Laws

open Sys2Proof Sys2Proof.Machine

/-! ### Updates of one wave -/

theorem modify_congr {α : Type} (l : List α) (k : Nat) (f g : α → α) (h : ∀ x, l[k]? = some x → f x = g x) :
    l.modify k f = l.modify k g := by
  apply List.ext_getElem?
  intro j
  simp only [List.getElem?_modify]
  by_cases hj : k = j
  · subst hj
    cases hx : l[k]? with
    | none => rfl
    | some x => simp [h x hx]
  · simp [hj]

theorem modify_modify {α : Type} (l : List α) (k : Nat) (f g : α → α) : (l.modify k f).modify k g = l.modify k (g ∘ f) := by
  apply List.ext_getElem?
  intro j
  simp only [List.getElem?_modify]
  cases l[j]? <;> by_cases hj : k = j <;> simp [hj]

theorem modWave_congr (s : State) (k : Nat) (w : Wave) (f g : Wave → Wave) (h : s.waves[k]? = some w) (e : f w = g w) :
    s.modWave k f = s.modWave k g := by
  unfold State.modWave
  rw [modify_congr s.waves k f g (by intro x hx; rw [h] at hx; cases hx; exact e)]

theorem modWave_modWave (s : State) (k : Nat) (f g : Wave → Wave) : (s.modWave k f).modWave k g = s.modWave k (g ∘ f) := by
  unfold State.modWave
  simp only [modify_modify]

theorem modWave_get (s : State) (k : Nat) (f : Wave → Wave) : (s.modWave k f).waves[k]? = (s.waves[k]?).map f := by
  simp [State.modWave]

theorem modWave_get_other (s : State) (k j : Nat) (f : Wave → Wave) (h : k ≠ j) : (s.modWave k f).waves[j]? = s.waves[j]? := by
  simp [State.modWave, h]

/-! ### Issue -/

/-- A word that fails a check before its own traps, and nothing else happens. -/
theorem issue_refused (s : State) (w : Wave) (i : Instr) (f : Form) (body : Nat → Wave → Except TrapInfo State) (t : TrapInfo)
    (hw : s.waves[s.cur]? = some w) (hr : s.refuses w i f = some t) : s.issue i f body = .next (s.takeTrap s.cur t false) := by
  simp [State.issue, hw, hr]

/-- A word that fails one of its own checks traps; its translation has read its tables, and nothing else happens. -/
theorem issue_error (s : State) (w : Wave) (i : Instr) (f : Form) (body : Nat → Wave → Except TrapInfo State) (t : TrapInfo)
    (hw : s.waves[s.cur]? = some w) (hr : s.refuses w i f = none) (hg : s.badSource s.cur w f = none)
    (hb : body s.cur w = .error t) : s.issue i f body = .next ((s.failedLooks s.cur t).takeTrap s.cur t false) := by
  simp [State.issue, hw, hr, hg, hb]

/-- A word that reads a register with an uncorrectable error meets it (04 R110). -/
theorem issue_bad (s : State) (w : Wave) (i : Instr) (f : Form) (body : Nat → Wave → Except TrapInfo State) (va : DWord)
    (hw : s.waves[s.cur]? = some w) (hr : s.refuses w i f = none) (hg : s.badSource s.cur w f = some va) :
    s.issue i f body = .next (s.takeTrap s.cur (eccAt va 1) false) := by
  simp [State.issue, hw, hr, hg]

/-- A word that passes its checks has its effect, closes its group of words and leaves its marker. -/
theorem issue_ok (s : State) (w : Wave) (i : Instr) (f : Form) (body : Nat → Wave → Except TrapInfo State) (s' : State)
    (hw : s.waves[s.cur]? = some w) (hr : s.refuses w i f = none) (hg : s.badSource s.cur w f = none)
    (hb : body s.cur w = .ok s') : s.issue i f body = .next (s.afterWord f.sw s') := by
  simp [State.issue, hw, hr, hg, hb, State.afterWord]

/-- A form that acts on its own wave alone. -/
theorem onWave_ok (s : State) (w : Wave) (i : Instr) (f : Form) (g : Wave → Wave)
    (hw : s.waves[s.cur]? = some w) (hr : s.refuses w i f = none) (hg : s.badSource s.cur w f = none) :
    s.onWave i f g = .next (s.became f.sw (g w)) := by
  unfold State.onWave
  rw [issue_ok s w i f _ _ hw hr hg rfl]
  unfold State.afterWord State.became
  rw [modWave_modWave]
  congr 1
  exact modWave_congr s s.cur w _ _ hw rfl

/-- What a ready word has passed. -/
theorem ready_parts {s : State} {w : Wave} {i : Instr} {f : Form} (hf : issueForm i = some f) (h : s.Ready w i) :
    s.waves[s.cur]? = some w ∧ s.refuses w i f = none ∧ s.badSource s.cur w f = none := by
  refine ⟨h.1, ?_⟩
  have := h.2
  rw [hf] at this
  simpa using this

/-- What a word that is turned away has met. -/
theorem turned_parts {s : State} {w : Wave} {i : Instr} {f : Form} {t : TrapInfo} (hf : issueForm i = some f)
    (h : s.TurnedAway w i t) : s.waves[s.cur]? = some w ∧ s.refuses w i f = some t := by
  refine ⟨h.1, ?_⟩
  have := h.2
  rw [hf] at this
  simpa using this

/-- A ready word whose meaning acts on its own wave alone. -/
theorem gives_onWave {s : State} {w : Wave} {i : Instr} {f : Form} {g : Wave → Wave} (hf : issueForm i = some f)
    (he : exec i s = s.onWave i f g) : s.Gives w i (s.became f.sw (g w)) := by
  intro h
  obtain ⟨hw, hr, hg⟩ := ready_parts hf h
  rw [he]
  exact onWave_ok s w i f g hw hr hg

/-- The same, with the marker of the form and the wave that results named. -/
theorem givesWave {s : State} {w w' : Wave} {i : Instr} {f : Form} {g : Wave → Wave} {sw : BitVec 1} (hf : issueForm i = some f)
    (he : exec i s = s.onWave i f g) (hs : f.sw = sw) (hg : g w = w') : s.Gives w i (s.became sw w') := by
  subst hs
  subst hg
  exact gives_onWave hf he

/-- A ready word whose own checks pass. -/
theorem gives_issue {s s' : State} {w : Wave} {i : Instr} {f : Form} {body : Nat → Wave → Except TrapInfo State}
    (hf : issueForm i = some f) (he : exec i s = s.issue i f body) (hb : s.waves[s.cur]? = some w → body s.cur w = .ok s') :
    s.Gives w i (s.afterWord f.sw s') := by
  intro h
  obtain ⟨hw, hr, hg⟩ := ready_parts hf h
  rw [he]
  exact issue_ok s w i f body s' hw hr hg (hb hw)

/-- A cause that no translation raises leaves no trace of one. -/
theorem failedLooks_other (s : State) (wid : Nat) (t : TrapInfo)
    (h : t.cause ∉ [causeXlateRd, causeXlateWr, causeXlateFetch, causeProt]) : s.failedLooks wid t = s := by
  simp only [List.mem_cons, List.not_mem_nil, or_false, not_or] at h
  simp [State.failedLooks, h]

/-- A ready word one of whose own checks fails. -/
theorem gives_error {s : State} {w : Wave} {i : Instr} {f : Form} {body : Nat → Wave → Except TrapInfo State} {t : TrapInfo}
    (hf : issueForm i = some f) (he : exec i s = s.issue i f body) (hb : s.waves[s.cur]? = some w → body s.cur w = .error t) :
    s.Gives w i ((s.failedLooks s.cur t).takeTrap s.cur t false) := by
  intro h
  obtain ⟨hw, hr, hg⟩ := ready_parts hf h
  rw [he]
  exact issue_error s w i f body t hw hr hg (hb hw)

/-- A word of an engine whose queue has an entry issues as any word. -/
theorem issueIf_room (s : State) (w : Wave) (i : Instr) (f : Form) (array : Option Nat)
    (body : Nat → Wave → Except TrapInfo State) (hw : s.waves[s.cur]? = some w) (hroom : s.hasEntry w.core array = true) :
    s.issueIf i f array body = s.issue i f body := by
  simp [State.issueIf, hw, hroom]

/-- A word of an engine whose queue is full does not issue: its wave waits for an entry. -/
theorem issueIf_full (s : State) (w : Wave) (i : Instr) (f : Form) (array : Option Nat)
    (body : Nat → Wave → Except TrapInfo State) (hw : s.waves[s.cur]? = some w) (hr : s.refuses w i f = none)
    (hroom : s.hasEntry w.core array = false) : s.issueIf i f array body = .next (s.setSt s.cur (.wait (.entry array))) := by
  simp [State.issueIf, hw, hr, hroom]

end Sys2Proof.Laws
end

