-- ==== Sys2Proof/Laws/Access.lean ====
section
/-! SUPPORT. The accesses of a wave in a context with Glint off, with no line poisoned: Glint and poison let them pass. -/

namespace Sys2Proof.Laws

open Sys2Proof Sys2Proof.Machine

/-- Glint with MODE 0 checks nothing (05 R151). -/
theorem glintCheck_calm {s : State} {w : Wave} (h : s.Calm w) (pc va : DWord) (pa : Nat) (ms atom wr : Bool) (scope : Nat) :
    s.glintCheck w pc va pa ms atom wr scope = (s, none) := by
  obtain ⟨-, -, c, hc, hm⟩ := h
  unfold State.glintCheck
  rw [hc]
  cases s.groups[w.group]? <;> simp [hm]

theorem glintList_calm {s : State} {w : Wave} (h : s.Calm w) (atom wr : Bool) (scope : Nat) (l : List Touch) :
    s.glintList w atom wr scope l = (s, none) := by
  induction l with
  | nil => rfl
  | cons t l ih => cases hp : t.place <;> simp [State.glintList, hp, glintCheck_calm h, ih]

theorem unlessRace_calm {s : State} {w : Wave} (h : s.Calm w) (wid : Nat) (atom wr : Bool) (scope : Nat) (l : List Touch)
    (k : State → State) : s.unlessRace wid w atom wr scope l k = k s := by
  simp [State.unlessRace, glintList_calm h]

/-! ### What accesses at the homes of lines and translations change: caches, their counts and draws -/

/-- Two states differ at most in the memory controllers, the slices, the units' states, the draws, the cores, and in whether the turn
waits for a self-test. -/
def CacheOnly (s t : State) : Prop :=
  t = { s with quads := t.quads, llc := t.llc, unitStates := t.unitStates, draws := t.draws, cores := t.cores, stall := t.stall }

theorem CacheOnly.refl (s : State) : CacheOnly s s := rfl

theorem CacheOnly.trans {s t u : State} (h1 : CacheOnly s t) (h2 : CacheOnly t u) : CacheOnly s u := by
  unfold CacheOnly at *
  generalize t.quads = a, t.llc = b, t.unitStates = c, t.draws = d, t.cores = e, t.stall = f at h1
  subst h1
  exact h2

theorem CacheOnly.foldl {α : Type} (f : State → α → State) (hf : ∀ s x, CacheOnly s (f s x)) (l : List α) (s : State) :
    CacheOnly s (l.foldl f s) := by
  induction l generalizing s with
  | nil => exact .refl s
  | cons x l ih => exact (hf s x).trans (ih _)

theorem cacheOnly_writeUnit (s : State) (line : Nat) : CacheOnly s (s.writeUnit line) := by
  unfold State.writeUnit
  dsimp only
  split
  · rfl
  · split <;> rfl

theorem cacheOnly_llcDrop (s : State) (line : Nat) : CacheOnly s (s.llcDrop line) := by
  unfold State.llcDrop
  dsimp only
  split
  · exact (cacheOnly_writeUnit s line).trans rfl
  · rfl

theorem cacheOnly_llcRoom (s : State) (line : Nat) : CacheOnly s (s.llcRoom line) := by
  unfold State.llcRoom
  dsimp only
  split
  · exact .refl s
  · exact CacheOnly.trans (t := { s with draws := s.draws + 1 }) rfl (cacheOnly_llcDrop _ _)

theorem cacheOnly_lookMeta (s : State) (line : Nat) : CacheOnly s (s.lookMeta line) := by
  unfold State.lookMeta
  dsimp only
  split
  · exact .refl s
  · split
    · exact .refl s
    · rfl

theorem cacheOnly_llcFill (s : State) (line : Nat) : CacheOnly s (s.llcFill line) := by
  unfold State.llcFill
  split
  · exact .refl s
  · have h := (cacheOnly_llcRoom s line).trans (cacheOnly_lookMeta _ line)
    dsimp only
    generalize (s.llcRoom line).lookMeta line = u at h ⊢
    exact h.trans rfl

theorem cacheOnly_countHbm (s : State) (line rd wr saved : Nat) : CacheOnly s (s.countHbm line rd wr saved) := rfl

theorem cacheOnly_leaveSlice (s : State) (line : Nat) : CacheOnly s (s.leaveSlice line) := by
  unfold State.leaveSlice
  have h := cacheOnly_llcDrop s line
  dsimp only
  generalize s.llcDrop line = u at h ⊢
  split
  · exact h
  · exact h.trans rfl

theorem cacheOnly_homeAccess (s : State) (pa : Nat) (ms write : Bool) (n : Nat) : CacheOnly s (s.homeAccess pa ms write n) := by
  have h0 : CacheOnly s (s.noteHeld (pa / 128) ms) := rfl
  unfold State.homeAccess
  dsimp only
  generalize s.noteHeld (pa / 128) ms = v at h0 ⊢
  have h := h0.trans (cacheOnly_llcFill v (pa / 128))
  split
  · split
    · exact (h0.trans (cacheOnly_leaveSlice v _)).trans (cacheOnly_countHbm _ _ _ _ _)
    · generalize v.llcFill (pa / 128) = u at h ⊢
      split
      · exact h.trans rfl
      · exact h
  · exact h0

theorem cacheOnly_homeRange (s : State) (pa n : Nat) (write : Bool) : CacheOnly s (s.homeRange pa n write) :=
  .foldl _ (fun _ _ => cacheOnly_homeAccess _ _ _ _ _) _ _

theorem cacheOnly_lookUp (s : State) (core : Option Nat) (acc : Acc) (c : Nat) (gen : Nat → Word) (va : DWord) :
    CacheOnly s (s.lookUp core acc c gen va) := by
  unfold State.lookUp
  dsimp only
  split
  · exact .refl s
  · have h := CacheOnly.foldl (fun (t : State) l => t.homeAccess (128 * l) false false 128)
      (fun _ _ => cacheOnly_homeAccess _ _ _ _ _) (s.xlatLines core acc c gen (vaBits va)) s
    split
    · exact h.trans rfl
    · exact h

theorem cacheOnly_waveLooks (s : State) (wid : Nat) (acc : Acc) (va : DWord) : CacheOnly s (s.waveLooks wid acc va) := by
  unfold State.waveLooks
  split
  · exact cacheOnly_lookUp _ _ _ _ _ _
  · exact .refl s

theorem cacheOnly_walks (s : State) (wid : Nat) (acc : Acc) (l : List Touch) : CacheOnly s (s.walks wid acc l) :=
  .foldl _ (fun _ _ => cacheOnly_waveLooks _ _ _ _) _ _

/-- A calm wave stays calm when caches change. -/
theorem CacheOnly.calm {s t : State} {w : Wave} (h : CacheOnly s t) (hc : s.Calm w) : t.Calm w := by
  rw [h]
  exact hc

/-- The waves, the groups and the contexts stay when caches change. -/
theorem CacheOnly.waves {s t : State} (h : CacheOnly s t) : t.waves = s.waves := by rw [h]
theorem CacheOnly.groups {s t : State} (h : CacheOnly s t) : t.groups = s.groups := by rw [h]
theorem CacheOnly.ctxs {s t : State} (h : CacheOnly s t) : t.ctxs = s.ctxs := by rw [h]
theorem CacheOnly.mem {s t : State} (h : CacheOnly s t) : t.mem = s.mem := by rw [h]

/-- With no line poisoned no place is poisoned (02 R49; 04 R110). -/
theorem poisoned_calm {s : State} {w : Wave} (h : s.Calm w) (wid : Nat) (x : Wave) (p : Place) : s.poisoned wid x p = false := by
  cases p <;> simp [State.poisoned, State.linePoisoned, h.1, h.2.1]
  rename_i pa ms
  cases s.scaleLine (pa / 128) <;> simp

theorem meets_calm {s : State} {w x : Wave} (h : s.Calm w) (wid : Nat) (p : Place) : s.meets wid x p = false := by
  simp [State.meets, poisoned_calm h]

/-- The loads of a form whose places are found. -/
theorem loads_calm {s : State} {w : Wave} (h : s.Calm w) (wid : Nat) (l : List Touch)
    (put : List (List (BitVec 8) × Side) → Wave → Wave) :
    s.loads wid w l put = ((s.walks wid .rd l).readAll wid l).2.modWave wid (fun x =>
      (x.addFar l ((s.walks wid .rd l).readAll wid l).1 put (put ((s.walks wid .rd l).readAll wid l).1 x)).advance) := by
  have h1 := (cacheOnly_walks s wid .rd l).calm h
  have hf : l.find? (fun t => (s.walks wid .rd l).meets wid w t.place) = none := by
    simp [List.find?_eq_none, meets_calm h1]
  simp [State.loads, unlessRace_calm h1, hf]

/-- A form that reads nothing at a peer adds nothing that a peer returns (19 R407). -/
theorem addFar_near (old new : Wave) (l : List Touch) (xs : List (List (BitVec 8) × Side))
    (put : List (List (BitVec 8) × Side) → Wave → Wave) (h : ∀ t ∈ l, t.place.peer = none) : old.addFar l xs put new = new := by
  have e : l.filterMap (fun t => t.place.peer) = [] := by simpa using h
  simp [Wave.addFar, e]

/-- The stores of a form whose places are found. -/
theorem stores_calm {s : State} {w : Wave} (h : s.Calm w) (wid : Nat) (l : List Touch) (ps : List Put) :
    s.stores wid w l ps = (ps.foldl (fun t p => t.putStore wid p) (s.walks wid .wr l)).advance wid := by
  simp [State.stores, unlessRace_calm ((cacheOnly_walks s wid .wr l).calm h)]

/-- An atomic whose accesses are found goes to its units, with REL after a release of its scope. -/
theorem release_empty {s : State} {wid : Nat} {w : Wave} (h : s.waves[wid]? = some w) (hp : w.pend = []) (scope : Nat) (k : Cont) :
    s.release wid scope k = (s.releaseDone wid scope).runCont wid k := by
  simp [State.release, h, hp]

/-- With stores pending a release waits for them. -/
theorem release_pending {s : State} {wid : Nat} {w : Wave} (h : s.waves[wid]? = some w) (hp : w.pend ≠ []) (scope : Nat) (k : Cont) :
    s.release wid scope k = s.setSt wid (.wait (.release scope k)) := by
  simp [State.release, h, hp]

end Sys2Proof.Laws
end

