-- ==== Sys2Proof/Laws/Arith.lean ====
section
/-! SUPPORT. The scalar arithmetic of 07 R183 in whole numbers. -/

namespace Sys2Proof.Laws

open Sys2Proof Sys2Proof.Machine

/-- MULHU is the high half of the unsigned product. -/
theorem mulHighU_eq (a b : DWord) : mulHighU a b = BitVec.ofNat 64 (a.toNat * b.toNat / 2 ^ 64) := by
  apply BitVec.eq_of_toNat_eq
  have ha := a.isLt
  have hb := b.isLt
  have h : a.toNat * b.toNat < 2 ^ 128 := Nat.lt_of_lt_of_le (Nat.mul_lt_mul'' ha hb) (by decide)
  simp only [mulHighU, BitVec.extractLsb'_toNat, BitVec.toNat_mul, BitVec.toNat_setWidth, BitVec.toNat_ofNat, Nat.shiftRight_eq_div_pow]
  rw [Nat.mod_eq_of_lt (show a.toNat < 2 ^ 128 by omega), Nat.mod_eq_of_lt (show b.toNat < 2 ^ 128 by omega), Nat.mod_eq_of_lt h]

/-- MULH is the high half of the signed product. -/
theorem mulHigh_eq (a b : DWord) : mulHigh a b = BitVec.ofInt 64 (a.toInt * b.toInt / 2 ^ 64) := by
  apply BitVec.eq_of_toNat_eq
  have e : a.signExtend 128 * b.signExtend 128 = BitVec.ofInt 128 (a.toInt * b.toInt) := by
    rw [BitVec.signExtend, BitVec.signExtend, BitVec.ofInt_mul]
  rw [mulHigh, e]
  generalize a.toInt * b.toInt = z
  rw [BitVec.extractLsb'_toNat, BitVec.toNat_ofInt, BitVec.toNat_ofInt, Nat.shiftRight_eq_div_pow]
  generalize h1 : ((2 ^ 128 : Nat) : Int) = A
  generalize h2 : ((2 ^ 64 : Nat) : Int) = B
  have hA : A = 340282366920938463463374607431768211456 := by rw [← h1]; rfl
  have hB : B = 18446744073709551616 := by rw [← h2]; rfl
  have h3 : (2 : Nat) ^ 64 = 18446744073709551616 := by rfl
  have h4 : (2 : Int) ^ 64 = 18446744073709551616 := by rfl
  rw [h3, h4, hA, hB]
  omega

/-- A signed comparison, and an unsigned one, on whole numbers. -/
theorem slt_toInt (a b : DWord) : a.slt b = decide (a.toInt < b.toInt) := rfl
theorem ult_toNat (a b : DWord) : a.ult b = decide (a.toNat < b.toNat) := rfl

/-- The number of 1 bits that POPC counts. -/
theorem popBits_countP {n : Nat} (x : BitVec n) (k : Nat) : popBits x k = (List.range k).countP (fun j => x.getLsbD j) := by
  induction k with
  | zero => rfl
  | succ k ih => rw [popBits, ih, List.range_succ, List.countP_append]; simp [List.countP_cons, List.countP_nil]

/-- The zero bits above the highest 1 bit that CLZ counts. -/
theorem leadZeros_spec {n : Nat} (x : BitVec n) (k : Nat) :
    leadZeros x k ≤ k ∧ (∀ j, k - leadZeros x k ≤ j → j < k → x.getLsbD j = false) ∧
      (leadZeros x k < k → x.getLsbD (k - 1 - leadZeros x k) = true) := by
  induction k with
  | zero => simp [leadZeros]
  | succ k ih =>
    simp only [leadZeros]
    by_cases h : x.getLsbD k = true
    · simp [h]; omega
    · simp only [h, Bool.false_eq_true, if_false]
      obtain ⟨h1, h2, h3⟩ := ih
      refine ⟨by omega, ?_, ?_⟩
      · intro j hj hj'
        by_cases e : j = k
        · subst e; simpa using h
        · exact h2 j (by omega) (by omega)
      · intro hl
        have := h3 (by omega)
        have e : k + 1 - 1 - (leadZeros x k + 1) = k - 1 - leadZeros x k := by omega
        rw [e]; exact this

/-- The lowest 1 bit that CTZ and MFFS find. -/
theorem lowestOne_spec {n : Nat} (x : BitVec n) (m : Nat) : ∀ k,
    k ≤ lowestOne x k m ∧ lowestOne x k m ≤ k + m ∧ (∀ j, k ≤ j → j < lowestOne x k m → x.getLsbD j = false) ∧
      (lowestOne x k m < k + m → x.getLsbD (lowestOne x k m) = true) := by
  induction m with
  | zero => intro k; simp [lowestOne]; intro j h1 h2; omega
  | succ m ih =>
    intro k
    simp only [lowestOne]
    by_cases h : x.getLsbD k = true
    · simp only [h, if_true]; exact ⟨by omega, by omega, by intro j _ _; omega, fun _ => trivial⟩
    · simp only [h, Bool.false_eq_true, if_false]
      obtain ⟨h1, h2, h3, h4⟩ := ih (k + 1)
      refine ⟨by omega, by omega, ?_, ?_⟩
      · intro j hj hj'
        by_cases e : j = k
        · subst e; simpa using h
        · exact h3 j (by omega) hj'
      · intro hl; exact h4 (by omega)

end Sys2Proof.Laws
end

