-- ==== Sys2Proof/Laws/Memory.lean ====
section
/-! SUPPORT. Byte memory: every operation keeps the canonical form (log 2), a byte that is written reads back, and no other byte
changes. -/

namespace Sys2Proof.Laws

open Sys2Proof Sys2Proof.Machine

/-! ### Sorted tables -/

/-- Every key of a table is above `a`. -/
def Above {α : Type} (a : Nat) (l : List (Nat × α)) : Prop := ∀ e ∈ l, a < e.1

theorem above_trans {α : Type} {a b : Nat} {l : List (Nat × α)} (h : a < b) (hl : Above b l) : Above a l :=
  fun e he => Nat.lt_trans h (hl e he)

/-- Keys rise strictly: each lies below all that follow. -/
theorem rising_cons {α : Type} (a : Nat) (x : α) (l : List (Nat × α)) :
    risingKeys ((a, x) :: l) = true ↔ Above a l ∧ risingKeys l = true := by
  induction l generalizing a x with
  | nil => simp [risingKeys, Above]
  | cons e l ih =>
    obtain ⟨b, y⟩ := e
    simp only [risingKeys, Bool.and_eq_true, decide_eq_true_eq]
    rw [ih b y]
    constructor
    · rintro ⟨h, hb, hr⟩
      refine ⟨?_, hb, hr⟩
      intro e he
      rcases List.mem_cons.mp he with rfl | he
      · exact h
      · exact Nat.lt_trans h (hb e he)
    · rintro ⟨h, hb, hr⟩
      exact ⟨h (b, y) List.mem_cons_self, hb, hr⟩

theorem above_update {α : Type} {a k : Nat} (v : Option α) {l : List (Nat × α)} (hk : a < k) (h : Above a l) :
    Above a (updateSorted k v l) := by
  induction l with
  | nil => cases v <;> simp [updateSorted, Above, hk]
  | cons e l ih =>
    obtain ⟨b, y⟩ := e
    have hb : a < b := h (b, y) List.mem_cons_self
    have hl : Above a l := fun e he => h e (List.mem_cons_of_mem _ he)
    have hc : ∀ (c : Nat) (z : α) (t : List (Nat × α)), a < c → Above a t → Above a ((c, z) :: t) := by
      intro c z t h1 h2 e he
      rcases List.mem_cons.mp he with rfl | he
      · exact h1
      · exact h2 e he
    simp only [updateSorted]
    split
    · cases v with
      | none => exact hl
      | some x => exact hc k x l hk hl
    · split
      · cases v with
        | none => exact h
        | some x => exact hc k x _ hk h
      · exact hc b y _ hb (ih hl)

/-- Setting or removing an entry keeps the keys strictly rising. -/
theorem rising_update {α : Type} (k : Nat) (v : Option α) (l : List (Nat × α)) (h : risingKeys l = true) :
    risingKeys (updateSorted k v l) = true := by
  induction l with
  | nil => cases v <;> simp [updateSorted, risingKeys]
  | cons e l ih =>
    obtain ⟨b, y⟩ := e
    obtain ⟨ha, hr⟩ := (rising_cons b y l).mp h
    simp only [updateSorted]
    split
    · rename_i hb
      subst hb
      cases v with
      | none => exact hr
      | some x => exact (rising_cons b x l).mpr ⟨ha, hr⟩
    · split
      · rename_i hk
        cases v with
        | none => exact h
        | some x =>
          refine (rising_cons k x _).mpr ⟨?_, h⟩
          intro e he
          rcases List.mem_cons.mp he with rfl | he
          · exact hk
          · exact Nat.lt_trans hk (ha e he)
      · rename_i h1 h2
        exact (rising_cons b y _).mpr ⟨above_update v (by omega) ha, ih hr⟩

/-- The entries of an updated table are the new one and old ones. -/
theorem mem_update {α : Type} (k : Nat) (v : Option α) (l : List (Nat × α)) (e : Nat × α) (h : e ∈ updateSorted k v l) :
    v = some e.2 ∨ e ∈ l := by
  induction l with
  | nil => cases v <;> simp_all [updateSorted]
  | cons c l ih =>
    obtain ⟨b, y⟩ := c
    simp only [updateSorted] at h
    split at h
    · cases v with
      | none => exact .inr (List.mem_cons_of_mem _ h)
      | some x =>
        rcases List.mem_cons.mp h with rfl | h
        · exact .inl rfl
        · exact .inr (List.mem_cons_of_mem _ h)
    · split at h
      · cases v with
        | none => exact .inr h
        | some x =>
          rcases List.mem_cons.mp h with rfl | h
          · exact .inl rfl
          · exact .inr h
      · rcases List.mem_cons.mp h with rfl | h
        · exact .inr List.mem_cons_self
        · rcases ih h with h | h
          · exact .inl h
          · exact .inr (List.mem_cons_of_mem _ h)

theorem lookup_above {α : Type} {k : Nat} {l : List (Nat × α)} (h : Above k l) : lookupSorted k l = none := by
  cases l with
  | nil => rfl
  | cons e l =>
    obtain ⟨b, y⟩ := e
    have hb : k < b := h (b, y) List.mem_cons_self
    simp [lookupSorted, Nat.ne_of_gt hb, hb]

/-- The entry of the key that was set is what was set. -/
theorem lookup_update_same {α : Type} (k : Nat) (v : Option α) (l : List (Nat × α)) (h : risingKeys l = true) :
    lookupSorted k (updateSorted k v l) = v := by
  induction l with
  | nil => cases v <;> simp [updateSorted, lookupSorted]
  | cons e l ih =>
    obtain ⟨b, y⟩ := e
    obtain ⟨ha, hr⟩ := (rising_cons b y l).mp h
    simp only [updateSorted]
    split
    · rename_i hb
      subst hb
      cases v with
      | none => exact lookup_above ha
      | some x => simp [lookupSorted]
    · split
      · rename_i h1 h2
        cases v with
        | none => simp [lookupSorted, h1, h2]
        | some x => simp [lookupSorted]
      · rename_i h1 h2
        simp [lookupSorted, h1, h2, ih hr]

/-- The entries of all other keys are as they were. -/
theorem lookup_update_other {α : Type} (k j : Nat) (v : Option α) (l : List (Nat × α)) (h : risingKeys l = true) (hj : j ≠ k) :
    lookupSorted j (updateSorted k v l) = lookupSorted j l := by
  induction l with
  | nil => cases v <;> simp [updateSorted, lookupSorted, Ne.symm hj]
  | cons e l ih =>
    obtain ⟨b, y⟩ := e
    obtain ⟨ha, hr⟩ := (rising_cons b y l).mp h
    simp only [updateSorted]
    split
    · rename_i hb
      subst hb
      by_cases hlt : j < b
      · have hl : lookupSorted j l = none := lookup_above (above_trans hlt ha)
        cases v <;> simp [lookupSorted, Ne.symm hj, hlt, hl]
      · cases v <;> simp [lookupSorted, Ne.symm hj, hlt]
    · split
      · rename_i h1 h2
        cases v with
        | none => rfl
        | some x =>
          by_cases hlt : j < k
          · have : j < b := Nat.lt_trans hlt h2
            simp [lookupSorted, Ne.symm hj, hlt, Nat.ne_of_gt this, this]
          · simp [lookupSorted, Ne.symm hj, hlt]
      · simp only [lookupSorted, ih hr]

/-! ### One byte, one side-band -/

theorem wf_parts (m : Mem) : m.wf = true ↔ risingKeys m.cells = true ∧ (∀ c ∈ m.cells, c.2 ≠ Mem.blank) ∧
    risingKeys m.sides = true ∧ (∀ d ∈ m.sides, d.2 ≠ Side.none) := by
  simp [Mem.wf, and_assoc]

theorem wf_setByte (m : Mem) (a : Nat) (b : BitVec 8) (h : m.wf = true) : (m.setByte a b).wf = true := by
  obtain ⟨h1, h2, h3, h4⟩ := (wf_parts m).mp h
  refine (wf_parts _).mpr ⟨rising_update _ _ _ h1, ?_, h3, h4⟩
  intro c hc
  rcases mem_update _ _ _ _ hc with he | he
  · intro hb
    split at he <;> simp_all
  · exact h2 c he

theorem wf_setSide (m : Mem) (l : Nat) (d : Side) (h : m.wf = true) : (m.setSide l d).wf = true := by
  obtain ⟨h1, h2, h3, h4⟩ := (wf_parts m).mp h
  refine (wf_parts _).mpr ⟨h1, h2, rising_update _ _ _ h3, ?_⟩
  intro c hc
  rcases mem_update _ _ _ _ hc with he | he
  · intro hb
    split at he <;> simp_all
  · exact h4 c he

/-- A byte that is written reads back. -/
theorem byte_setByte_same (m : Mem) (a : Nat) (b : BitVec 8) (h : m.wf = true) : (m.setByte a b).byte a = b := by
  obtain ⟨h1, -⟩ := (wf_parts m).mp h
  simp only [Mem.byte, Mem.setByte, lookup_update_same _ _ _ h1]
  split
  · rename_i hb; simp [hb]
  · rfl

/-- Every other byte is as it was. -/
theorem byte_setByte_other (m : Mem) (a j : Nat) (b : BitVec 8) (h : m.wf = true) (hj : j ≠ a) : (m.setByte a b).byte j = m.byte j := by
  obtain ⟨h1, -⟩ := (wf_parts m).mp h
  simp only [Mem.byte, Mem.setByte, lookup_update_other _ _ _ _ h1 hj]

theorem byte_setSide (m : Mem) (l a : Nat) (d : Side) : (m.setSide l d).byte a = m.byte a := rfl

theorem side_setByte (m : Mem) (a l : Nat) (b : BitVec 8) : (m.setByte a b).side l = m.side l := rfl

theorem side_setSide_same (m : Mem) (l : Nat) (d : Side) (h : m.wf = true) : (m.setSide l d).side l = d := by
  obtain ⟨-, -, h3, -⟩ := (wf_parts m).mp h
  simp only [Mem.side, Mem.setSide, lookup_update_same _ _ _ h3]
  split
  · rename_i hb; simp [hb]
  · rfl

theorem side_setSide_other (m : Mem) (l j : Nat) (d : Side) (h : m.wf = true) (hj : j ≠ l) : (m.setSide l d).side j = m.side j := by
  obtain ⟨-, -, h3, -⟩ := (wf_parts m).mp h
  simp only [Mem.side, Mem.setSide, lookup_update_other _ _ _ _ h3 hj]

/-! ### Several bytes -/

theorem wf_write (m : Mem) (a : Nat) (bs : List (BitVec 8)) (h : m.wf = true) : (m.write a bs).wf = true := by
  induction bs generalizing m a with
  | nil => exact h
  | cons b bs ih => exact ih _ _ (wf_setByte m a b h)

theorem wf_writeSome (m : Mem) (a : Nat) (bs : List (Option (BitVec 8))) (h : m.wf = true) : (m.writeSome a bs).wf = true := by
  induction bs generalizing m a with
  | nil => exact h
  | cons b bs ih =>
    cases b with
    | none => exact ih _ _ h
    | some b => exact ih _ _ (wf_setByte m a b h)

theorem byte_write_outside (m : Mem) (a j : Nat) (bs : List (BitVec 8)) (h : m.wf = true) (hj : j < a ∨ a + bs.length ≤ j) :
    (m.write a bs).byte j = m.byte j := by
  induction bs generalizing m a with
  | nil => rfl
  | cons b bs ih =>
    simp only [List.length_cons] at hj
    rw [Mem.write, ih _ _ (wf_setByte m a b h) (by omega), byte_setByte_other m a j b h (by omega)]

theorem byte_write_inside (m : Mem) (a k : Nat) (bs : List (BitVec 8)) (h : m.wf = true) (hk : k < bs.length) :
    (m.write a bs).byte (a + k) = bs[k] := by
  induction bs generalizing m a k with
  | nil => simp at hk
  | cons b bs ih =>
    cases k with
    | zero =>
      rw [Mem.write, byte_write_outside _ _ _ _ (wf_setByte m a b h) (by omega)]
      simpa using byte_setByte_same m a b h
    | succ k =>
      have := ih (m.setByte a b) (a + 1) k (wf_setByte m a b h) (by simpa using hk)
      rw [Mem.write, show a + (k + 1) = a + 1 + k by omega, this]
      rfl

theorem byte_writeSome_outside (m : Mem) (a j : Nat) (bs : List (Option (BitVec 8))) (h : m.wf = true)
    (hj : j < a ∨ a + bs.length ≤ j) : (m.writeSome a bs).byte j = m.byte j := by
  induction bs generalizing m a with
  | nil => rfl
  | cons b bs ih =>
    simp only [List.length_cons] at hj
    cases b with
    | none => rw [Mem.writeSome, ih _ _ h (by omega)]
    | some b => rw [Mem.writeSome, ih _ _ (wf_setByte m a b h) (by omega), byte_setByte_other m a j b h (by omega)]

/-- A byte of a partial store that is present is written, one that is absent leaves its byte as it was. -/
theorem byte_writeSome_inside (m : Mem) (a k : Nat) (bs : List (Option (BitVec 8))) (h : m.wf = true) (hk : k < bs.length) :
    (m.writeSome a bs).byte (a + k) = (bs[k]).getD (m.byte (a + k)) := by
  induction bs generalizing m a k with
  | nil => simp at hk
  | cons b bs ih =>
    cases k with
    | zero =>
      cases b with
      | none => rw [Mem.writeSome, byte_writeSome_outside _ _ _ _ h (by omega)]; rfl
      | some b =>
        rw [Mem.writeSome, byte_writeSome_outside _ _ _ _ (wf_setByte m a b h) (by omega)]
        simpa using byte_setByte_same m a b h
    | succ k =>
      have e : a + (k + 1) = a + 1 + k := by omega
      cases b with
      | none => rw [Mem.writeSome, e, ih _ _ _ h (by simpa using hk)]; rfl
      | some b =>
        rw [Mem.writeSome, e, ih _ _ _ (wf_setByte m a b h) (by simpa using hk), byte_setByte_other m a _ b h (by omega)]
        rfl

theorem read_length (m : Mem) (a n : Nat) : (m.read a n).length = n := by
  induction n generalizing a with
  | zero => rfl
  | succ n ih => simp [Mem.read, ih]

theorem read_get (m : Mem) (a n k : Nat) (h : k < n) : (m.read a n)[k]? = some (m.byte (a + k)) := by
  induction n generalizing a k with
  | zero => omega
  | succ n ih =>
    cases k with
    | zero => rfl
    | succ k =>
      have := ih (a + 1) k (by omega)
      rw [Mem.read, List.getElem?_cons_succ, this, show a + 1 + k = a + (k + 1) by omega]

/-- What was written reads back whole. -/
theorem read_write (m : Mem) (a : Nat) (bs : List (BitVec 8)) (h : m.wf = true) : (m.write a bs).read a bs.length = bs := by
  apply List.ext_getElem?
  intro k
  by_cases hk : k < bs.length
  · rw [read_get _ _ _ _ hk, byte_write_inside m a k bs h hk, List.getElem?_eq_getElem hk]
  · rw [List.getElem?_eq_none (by rw [read_length]; omega), List.getElem?_eq_none (by omega)]

theorem bytesOfNat_length (n x : Nat) : (bytesOfNat n x).length = n := by
  induction n generalizing x with
  | zero => rfl
  | succ n ih => simp [bytesOfNat, ih]

/-- A number written in little-endian bytes reads back modulo its size (00 R5). -/
theorem natOfBytes_bytesOfNat (n x : Nat) : natOfBytes (bytesOfNat n x) = x % 256 ^ n := by
  induction n generalizing x with
  | zero => simp [bytesOfNat, natOfBytes, Nat.mod_one]
  | succ n ih =>
    have e : 256 ^ (n + 1) = 256 * 256 ^ n := by rw [Nat.pow_succ, Nat.mul_comm]
    rw [bytesOfNat, natOfBytes, ih, BitVec.toNat_ofNat, e, Nat.mod_mul]

theorem num_write (m : Mem) (a n x : Nat) (h : m.wf = true) : (m.write a (bytesOfNat n x)).num a n = x % 256 ^ n := by
  have := read_write m a (bytesOfNat n x) h
  rw [bytesOfNat_length] at this
  rw [Mem.num, this, natOfBytes_bytesOfNat]

/-! ### The other operations on main memory -/

theorem wf_empty : Mem.empty.wf = true := rfl

theorem wf_writeScales (m : Mem) (base : Nat) (d : SideStore) (n : Nat) (h : m.wf = true) : (writeScales m base d n).wf = true := by
  induction n with
  | zero => exact h
  | succ n ih =>
    simp only [writeScales]
    split
    · exact wf_setByte _ _ _ ih
    · exact ih

theorem wf_foldl {α : Type} (f : Mem → α → Mem) (hf : ∀ m x, m.wf = true → (f m x).wf = true) (l : List α) (m : Mem)
    (h : m.wf = true) : (l.foldl f m).wf = true := by
  induction l generalizing m with
  | nil => exact h
  | cons x l ih => exact ih _ (hf m x h)

theorem rising_filter {α : Type} (p : Nat × α → Bool) (l : List (Nat × α)) (h : risingKeys l = true) : risingKeys (l.filter p) = true := by
  induction l with
  | nil => rfl
  | cons e l ih =>
    obtain ⟨a, x⟩ := e
    obtain ⟨ha, hr⟩ := (rising_cons a x l).mp h
    rw [List.filter_cons]
    split
    · exact (rising_cons a x _).mpr ⟨fun e he => ha e (List.mem_filter.mp he).1, ih hr⟩
    · exact ih hr

/-- Leaving out entries keeps the canonical form. -/
theorem wf_filter (m : Mem) (p : Host.Cell → Bool) (q : Nat × Side → Bool) (h : m.wf = true) :
    (Mem.mk (m.cells.filter p) (m.sides.filter q)).wf = true := by
  obtain ⟨h1, h2, h3, h4⟩ := (wf_parts m).mp h
  exact (wf_parts _).mpr ⟨rising_filter p _ h1, fun c hc => h2 c (List.mem_filter.mp hc).1, rising_filter q _ h3,
    fun d hd => h4 d (List.mem_filter.mp hd).1⟩

/-- The side-bands that a reset of the device leaves are none. -/
theorem wf_filter_bare (m : Mem) (p : Host.Cell → Bool) (h : m.wf = true) : (Mem.mk (m.cells.filter p) []).wf = true := by
  obtain ⟨h1, h2, -, -⟩ := (wf_parts m).mp h
  exact (wf_parts _).mpr ⟨rising_filter p _ h1, fun c hc => h2 c (List.mem_filter.mp hc).1, rfl, by simp⟩

theorem wf_restoreExts (m : Mem) (x : Ctx) (img : Image) (held : List Nat) (h : m.wf = true) : (m.restoreExts x img held).wf = true := by
  unfold Mem.restoreExts
  refine wf_foldl _ (fun m x h => wf_setSide _ _ _ h) _ _ (wf_foldl _ (fun m x h => wf_setByte _ _ _ h) _ _ ?_)
  exact wf_filter m _ _ h

theorem wf_mergeSide (m : Mem) (l : Nat) (d : SideStore) (h : m.wf = true) : (m.mergeSide l d).wf = true := by
  unfold Mem.mergeSide
  exact wf_setSide _ _ _ h

theorem wf_hostStores (s : State) (pa : Nat) (bs : List (BitVec 8)) (h : s.mem.wf = true) : (s.hostStores pa bs).mem.wf = true := by
  unfold State.hostStores
  refine wf_foldl _ (fun m x h => ?_) _ _ h
  split
  · exact wf_setByte _ _ _ h
  · exact h

theorem wf_placed (m : Mem) (h : Nat) : (placed m h).wf = true := by
  unfold placed
  exact wf_foldl _ (fun m x h => wf_write _ _ _ h) _ _ wf_empty

theorem wf_patchLow (b : Mem) (a n v : Nat) (h : b.wf = true) : (patchLow b a n v).wf = true := by
  unfold patchLow
  exact wf_write _ _ _ h

theorem wf_bootTables (m : Mem) (h : m.wf = true) : (bootTables m).wf = true := by
  unfold bootTables
  exact wf_write _ _ _ (wf_write _ _ _ (wf_write _ _ _ (wf_write _ _ _ (wf_write _ _ _ h))))

theorem wf_reset : State.reset.mem.wf = true := rfl

end Sys2Proof.Laws
end

