-- ==== Sys2Proof/Laws/PerInstr.lean ====
section
/-! SUPPORT. Decoding what was encoded, one lemma for each constructor (06 R156, R157, R171, R172). -/

namespace Sys2Proof.Laws

set_option Elab.async false

/-- A field above the low part of a word. -/
theorem fieldHi {n m k : Nat} (x : BitVec n) (y : BitVec m) (lo : Nat) (h : m ≤ lo) :
    (x ++ y).extractLsb' lo k = x.extractLsb' (lo - m) k := by
  rw [BitVec.extractLsb'_append_eq_of_le h]

/-- A field within the low part of a word. -/
theorem fieldLo {n m k : Nat} (x : BitVec n) (y : BitVec m) (lo : Nat) (h : lo + k ≤ m) :
    (x ++ y).extractLsb' lo k = y.extractLsb' lo k := by
  rw [BitVec.extractLsb'_append_eq_of_add_le h]

/-- A field that is the whole. -/
theorem fieldAll {n : Nat} (x : BitVec n) : x.extractLsb' 0 n = x := by simp

/-- The word of an instruction decodes to the instruction. -/
def Encoding.Statement (i : Instr) : Prop := ∀ w : Word, encode i = some w → decode w = some i

/-- An event has no word. -/
theorem Encoding.event {i : Instr} (h : encode i = none) : Encoding.Statement i := by
  intro w hw
  rw [h] at hw
  cases hw

theorem Encoding.vaddI32 (sw : BitVec 1) (d a b : BitVec 8) : Encoding.Statement (.vaddI32 sw d a b) := by
  intro wd h
  have hw : sw ++ 0x01#7 ++ d ++ a ++ b = wd := Option.some.inj h
  have h0 : fieldOf wd 24 7 = 0x1#7 := by rw [← hw, fieldOf, fieldHi _ _ _ (by decide), fieldHi _ _ _ (by decide), fieldHi _ _ _ (by decide), fieldLo _ _ _ (by decide)]; rfl
  have h1 : fieldOf wd 31 1 = sw := by rw [← hw, fieldOf, fieldHi _ _ _ (by decide), fieldHi _ _ _ (by decide), fieldHi _ _ _ (by decide), fieldHi _ _ _ (by decide), fieldAll]
  have h2 : fieldOf wd 16 8 = d := by rw [← hw, fieldOf, fieldHi _ _ _ (by decide), fieldHi _ _ _ (by decide), fieldLo _ _ _ (by decide), fieldAll]
  have h3 : fieldOf wd 8 8 = a := by rw [← hw, fieldOf, fieldHi _ _ _ (by decide), fieldLo _ _ _ (by decide), fieldAll]
  have h4 : fieldOf wd 0 8 = b := by rw [← hw, fieldOf, fieldLo _ _ _ (by decide), fieldAll]
  simp [decode, decodeV, h0, h1, h2, h3, h4]

theorem Encoding.vsubI32 (sw : BitVec 1) (d a b : BitVec 8) : Encoding.Statement (.vsubI32 sw d a b) := by
  intro wd h
  have hw : sw ++ 0x02#7 ++ d ++ a ++ b = wd := Option.some.inj h
  have h0 : fieldOf wd 24 7 = 0x2#7 := by rw [← hw, fieldOf, fieldHi _ _ _ (by decide), fieldHi _ _ _ (by decide), fieldHi _ _ _ (by decide), fieldLo _ _ _ (by decide)]; rfl
  have h1 : fieldOf wd 31 1 = sw := by rw [← hw, fieldOf, fieldHi _ _ _ (by decide), fieldHi _ _ _ (by decide), fieldHi _ _ _ (by decide), fieldHi _ _ _ (by decide), fieldAll]
  have h2 : fieldOf wd 16 8 = d := by rw [← hw, fieldOf, fieldHi _ _ _ (by decide), fieldHi _ _ _ (by decide), fieldLo _ _ _ (by decide), fieldAll]
  have h3 : fieldOf wd 8 8 = a := by rw [← hw, fieldOf, fieldHi _ _ _ (by decide), fieldLo _ _ _ (by decide), fieldAll]
  have h4 : fieldOf wd 0 8 = b := by rw [← hw, fieldOf, fieldLo _ _ _ (by decide), fieldAll]
  simp [decode, decodeV, h0, h1, h2, h3, h4]

theorem Encoding.vmulI32 (sw : BitVec 1) (d a b : BitVec 8) : Encoding.Statement (.vmulI32 sw d a b) := by
  intro wd h
  have hw : sw ++ 0x03#7 ++ d ++ a ++ b = wd := Option.some.inj h
  have h0 : fieldOf wd 24 7 = 0x3#7 := by rw [← hw, fieldOf, fieldHi _ _ _ (by decide), fieldHi _ _ _ (by decide), fieldHi _ _ _ (by decide), fieldLo _ _ _ (by decide)]; rfl
  have h1 : fieldOf wd 31 1 = sw := by rw [← hw, fieldOf, fieldHi _ _ _ (by decide), fieldHi _ _ _ (by decide), fieldHi _ _ _ (by decide), fieldHi _ _ _ (by decide), fieldAll]
  have h2 : fieldOf wd 16 8 = d := by rw [← hw, fieldOf, fieldHi _ _ _ (by decide), fieldHi _ _ _ (by decide), fieldLo _ _ _ (by decide), fieldAll]
  have h3 : fieldOf wd 8 8 = a := by rw [← hw, fieldOf, fieldHi _ _ _ (by decide), fieldLo _ _ _ (by decide), fieldAll]
  have h4 : fieldOf wd 0 8 = b := by rw [← hw, fieldOf, fieldLo _ _ _ (by decide), fieldAll]
  simp [decode, decodeV, h0, h1, h2, h3, h4]

theorem Encoding.vmulhI32 (sw : BitVec 1) (d a b : BitVec 8) : Encoding.Statement (.vmulhI32 sw d a b) := by
  intro wd h
  have hw : sw ++ 0x04#7 ++ d ++ a ++ b = wd := Option.some.inj h
  have h0 : fieldOf wd 24 7 = 0x4#7 := by rw [← hw, fieldOf, fieldHi _ _ _ (by decide), fieldHi _ _ _ (by decide), fieldHi _ _ _ (by decide), fieldLo _ _ _ (by decide)]; rfl
  have h1 : fieldOf wd 31 1 = sw := by rw [← hw, fieldOf, fieldHi _ _ _ (by decide), fieldHi _ _ _ (by decide), fieldHi _ _ _ (by decide), fieldHi _ _ _ (by decide), fieldAll]
  have h2 : fieldOf wd 16 8 = d := by rw [← hw, fieldOf, fieldHi _ _ _ (by decide), fieldHi _ _ _ (by decide), fieldLo _ _ _ (by decide), fieldAll]
  have h3 : fieldOf wd 8 8 = a := by rw [← hw, fieldOf, fieldHi _ _ _ (by decide), fieldLo _ _ _ (by decide), fieldAll]
  have h4 : fieldOf wd 0 8 = b := by rw [← hw, fieldOf, fieldLo _ _ _ (by decide), fieldAll]
  simp [decode, decodeV, h0, h1, h2, h3, h4]

theorem Encoding.vmulhuI32 (sw : BitVec 1) (d a b : BitVec 8) : Encoding.Statement (.vmulhuI32 sw d a b) := by
  intro wd h
  have hw : sw ++ 0x05#7 ++ d ++ a ++ b = wd := Option.some.inj h
  have h0 : fieldOf wd 24 7 = 0x5#7 := by rw [← hw, fieldOf, fieldHi _ _ _ (by decide), fieldHi _ _ _ (by decide), fieldHi _ _ _ (by decide), fieldLo _ _ _ (by decide)]; rfl
  have h1 : fieldOf wd 31 1 = sw := by rw [← hw, fieldOf, fieldHi _ _ _ (by decide), fieldHi _ _ _ (by decide), fieldHi _ _ _ (by decide), fieldHi _ _ _ (by decide), fieldAll]
  have h2 : fieldOf wd 16 8 = d := by rw [← hw, fieldOf, fieldHi _ _ _ (by decide), fieldHi _ _ _ (by decide), fieldLo _ _ _ (by decide), fieldAll]
  have h3 : fieldOf wd 8 8 = a := by rw [← hw, fieldOf, fieldHi _ _ _ (by decide), fieldLo _ _ _ (by decide), fieldAll]
  have h4 : fieldOf wd 0 8 = b := by rw [← hw, fieldOf, fieldLo _ _ _ (by decide), fieldAll]
  simp [decode, decodeV, h0, h1, h2, h3, h4]

theorem Encoding.vminI32 (sw : BitVec 1) (d a b : BitVec 8) : Encoding.Statement (.vminI32 sw d a b) := by
  intro wd h
  have hw : sw ++ 0x06#7 ++ d ++ a ++ b = wd := Option.some.inj h
  have h0 : fieldOf wd 24 7 = 0x6#7 := by rw [← hw, fieldOf, fieldHi _ _ _ (by decide), fieldHi _ _ _ (by decide), fieldHi _ _ _ (by decide), fieldLo _ _ _ (by decide)]; rfl
  have h1 : fieldOf wd 31 1 = sw := by rw [← hw, fieldOf, fieldHi _ _ _ (by decide), fieldHi _ _ _ (by decide), fieldHi _ _ _ (by decide), fieldHi _ _ _ (by decide), fieldAll]
  have h2 : fieldOf wd 16 8 = d := by rw [← hw, fieldOf, fieldHi _ _ _ (by decide), fieldHi _ _ _ (by decide), fieldLo _ _ _ (by decide), fieldAll]
  have h3 : fieldOf wd 8 8 = a := by rw [← hw, fieldOf, fieldHi _ _ _ (by decide), fieldLo _ _ _ (by decide), fieldAll]
  have h4 : fieldOf wd 0 8 = b := by rw [← hw, fieldOf, fieldLo _ _ _ (by decide), fieldAll]
  simp [decode, decodeV, h0, h1, h2, h3, h4]

theorem Encoding.vmaxI32 (sw : BitVec 1) (d a b : BitVec 8) : Encoding.Statement (.vmaxI32 sw d a b) := by
  intro wd h
  have hw : sw ++ 0x07#7 ++ d ++ a ++ b = wd := Option.some.inj h
  have h0 : fieldOf wd 24 7 = 0x7#7 := by rw [← hw, fieldOf, fieldHi _ _ _ (by decide), fieldHi _ _ _ (by decide), fieldHi _ _ _ (by decide), fieldLo _ _ _ (by decide)]; rfl
  have h1 : fieldOf wd 31 1 = sw := by rw [← hw, fieldOf, fieldHi _ _ _ (by decide), fieldHi _ _ _ (by decide), fieldHi _ _ _ (by decide), fieldHi _ _ _ (by decide), fieldAll]
  have h2 : fieldOf wd 16 8 = d := by rw [← hw, fieldOf, fieldHi _ _ _ (by decide), fieldHi _ _ _ (by decide), fieldLo _ _ _ (by decide), fieldAll]
  have h3 : fieldOf wd 8 8 = a := by rw [← hw, fieldOf, fieldHi _ _ _ (by decide), fieldLo _ _ _ (by decide), fieldAll]
  have h4 : fieldOf wd 0 8 = b := by rw [← hw, fieldOf, fieldLo _ _ _ (by decide), fieldAll]
  simp [decode, decodeV, h0, h1, h2, h3, h4]

theorem Encoding.vminuI32 (sw : BitVec 1) (d a b : BitVec 8) : Encoding.Statement (.vminuI32 sw d a b) := by
  intro wd h
  have hw : sw ++ 0x08#7 ++ d ++ a ++ b = wd := Option.some.inj h
  have h0 : fieldOf wd 24 7 = 0x8#7 := by rw [← hw, fieldOf, fieldHi _ _ _ (by decide), fieldHi _ _ _ (by decide), fieldHi _ _ _ (by decide), fieldLo _ _ _ (by decide)]; rfl
  have h1 : fieldOf wd 31 1 = sw := by rw [← hw, fieldOf, fieldHi _ _ _ (by decide), fieldHi _ _ _ (by decide), fieldHi _ _ _ (by decide), fieldHi _ _ _ (by decide), fieldAll]
  have h2 : fieldOf wd 16 8 = d := by rw [← hw, fieldOf, fieldHi _ _ _ (by decide), fieldHi _ _ _ (by decide), fieldLo _ _ _ (by decide), fieldAll]
  have h3 : fieldOf wd 8 8 = a := by rw [← hw, fieldOf, fieldHi _ _ _ (by decide), fieldLo _ _ _ (by decide), fieldAll]
  have h4 : fieldOf wd 0 8 = b := by rw [← hw, fieldOf, fieldLo _ _ _ (by decide), fieldAll]
  simp [decode, decodeV, h0, h1, h2, h3, h4]

theorem Encoding.vmaxuI32 (sw : BitVec 1) (d a b : BitVec 8) : Encoding.Statement (.vmaxuI32 sw d a b) := by
  intro wd h
  have hw : sw ++ 0x09#7 ++ d ++ a ++ b = wd := Option.some.inj h
  have h0 : fieldOf wd 24 7 = 0x9#7 := by rw [← hw, fieldOf, fieldHi _ _ _ (by decide), fieldHi _ _ _ (by decide), fieldHi _ _ _ (by decide), fieldLo _ _ _ (by decide)]; rfl
  have h1 : fieldOf wd 31 1 = sw := by rw [← hw, fieldOf, fieldHi _ _ _ (by decide), fieldHi _ _ _ (by decide), fieldHi _ _ _ (by decide), fieldHi _ _ _ (by decide), fieldAll]
  have h2 : fieldOf wd 16 8 = d := by rw [← hw, fieldOf, fieldHi _ _ _ (by decide), fieldHi _ _ _ (by decide), fieldLo _ _ _ (by decide), fieldAll]
  have h3 : fieldOf wd 8 8 = a := by rw [← hw, fieldOf, fieldHi _ _ _ (by decide), fieldLo _ _ _ (by decide), fieldAll]
  have h4 : fieldOf wd 0 8 = b := by rw [← hw, fieldOf, fieldLo _ _ _ (by decide), fieldAll]
  simp [decode, decodeV, h0, h1, h2, h3, h4]

theorem Encoding.vand (sw : BitVec 1) (d a b : BitVec 8) : Encoding.Statement (.vand sw d a b) := by
  intro wd h
  have hw : sw ++ 0x0A#7 ++ d ++ a ++ b = wd := Option.some.inj h
  have h0 : fieldOf wd 24 7 = 0xA#7 := by rw [← hw, fieldOf, fieldHi _ _ _ (by decide), fieldHi _ _ _ (by decide), fieldHi _ _ _ (by decide), fieldLo _ _ _ (by decide)]; rfl
  have h1 : fieldOf wd 31 1 = sw := by rw [← hw, fieldOf, fieldHi _ _ _ (by decide), fieldHi _ _ _ (by decide), fieldHi _ _ _ (by decide), fieldHi _ _ _ (by decide), fieldAll]
  have h2 : fieldOf wd 16 8 = d := by rw [← hw, fieldOf, fieldHi _ _ _ (by decide), fieldHi _ _ _ (by decide), fieldLo _ _ _ (by decide), fieldAll]
  have h3 : fieldOf wd 8 8 = a := by rw [← hw, fieldOf, fieldHi _ _ _ (by decide), fieldLo _ _ _ (by decide), fieldAll]
  have h4 : fieldOf wd 0 8 = b := by rw [← hw, fieldOf, fieldLo _ _ _ (by decide), fieldAll]
  simp [decode, decodeV, h0, h1, h2, h3, h4]

theorem Encoding.vor (sw : BitVec 1) (d a b : BitVec 8) : Encoding.Statement (.vor sw d a b) := by
  intro wd h
  have hw : sw ++ 0x0B#7 ++ d ++ a ++ b = wd := Option.some.inj h
  have h0 : fieldOf wd 24 7 = 0xB#7 := by rw [← hw, fieldOf, fieldHi _ _ _ (by decide), fieldHi _ _ _ (by decide), fieldHi _ _ _ (by decide), fieldLo _ _ _ (by decide)]; rfl
  have h1 : fieldOf wd 31 1 = sw := by rw [← hw, fieldOf, fieldHi _ _ _ (by decide), fieldHi _ _ _ (by decide), fieldHi _ _ _ (by decide), fieldHi _ _ _ (by decide), fieldAll]
  have h2 : fieldOf wd 16 8 = d := by rw [← hw, fieldOf, fieldHi _ _ _ (by decide), fieldHi _ _ _ (by decide), fieldLo _ _ _ (by decide), fieldAll]
  have h3 : fieldOf wd 8 8 = a := by rw [← hw, fieldOf, fieldHi _ _ _ (by decide), fieldLo _ _ _ (by decide), fieldAll]
  have h4 : fieldOf wd 0 8 = b := by rw [← hw, fieldOf, fieldLo _ _ _ (by decide), fieldAll]
  simp [decode, decodeV, h0, h1, h2, h3, h4]

theorem Encoding.vxor (sw : BitVec 1) (d a b : BitVec 8) : Encoding.Statement (.vxor sw d a b) := by
  intro wd h
  have hw : sw ++ 0x0C#7 ++ d ++ a ++ b = wd := Option.some.inj h
  have h0 : fieldOf wd 24 7 = 0xC#7 := by rw [← hw, fieldOf, fieldHi _ _ _ (by decide), fieldHi _ _ _ (by decide), fieldHi _ _ _ (by decide), fieldLo _ _ _ (by decide)]; rfl
  have h1 : fieldOf wd 31 1 = sw := by rw [← hw, fieldOf, fieldHi _ _ _ (by decide), fieldHi _ _ _ (by decide), fieldHi _ _ _ (by decide), fieldHi _ _ _ (by decide), fieldAll]
  have h2 : fieldOf wd 16 8 = d := by rw [← hw, fieldOf, fieldHi _ _ _ (by decide), fieldHi _ _ _ (by decide), fieldLo _ _ _ (by decide), fieldAll]
  have h3 : fieldOf wd 8 8 = a := by rw [← hw, fieldOf, fieldHi _ _ _ (by decide), fieldLo _ _ _ (by decide), fieldAll]
  have h4 : fieldOf wd 0 8 = b := by rw [← hw, fieldOf, fieldLo _ _ _ (by decide), fieldAll]
  simp [decode, decodeV, h0, h1, h2, h3, h4]

theorem Encoding.vshl (sw : BitVec 1) (d a b : BitVec 8) : Encoding.Statement (.vshl sw d a b) := by
  intro wd h
  have hw : sw ++ 0x0D#7 ++ d ++ a ++ b = wd := Option.some.inj h
  have h0 : fieldOf wd 24 7 = 0xD#7 := by rw [← hw, fieldOf, fieldHi _ _ _ (by decide), fieldHi _ _ _ (by decide), fieldHi _ _ _ (by decide), fieldLo _ _ _ (by decide)]; rfl
  have h1 : fieldOf wd 31 1 = sw := by rw [← hw, fieldOf, fieldHi _ _ _ (by decide), fieldHi _ _ _ (by decide), fieldHi _ _ _ (by decide), fieldHi _ _ _ (by decide), fieldAll]
  have h2 : fieldOf wd 16 8 = d := by rw [← hw, fieldOf, fieldHi _ _ _ (by decide), fieldHi _ _ _ (by decide), fieldLo _ _ _ (by decide), fieldAll]
  have h3 : fieldOf wd 8 8 = a := by rw [← hw, fieldOf, fieldHi _ _ _ (by decide), fieldLo _ _ _ (by decide), fieldAll]
  have h4 : fieldOf wd 0 8 = b := by rw [← hw, fieldOf, fieldLo _ _ _ (by decide), fieldAll]
  simp [decode, decodeV, h0, h1, h2, h3, h4]

theorem Encoding.vshr (sw : BitVec 1) (d a b : BitVec 8) : Encoding.Statement (.vshr sw d a b) := by
  intro wd h
  have hw : sw ++ 0x0E#7 ++ d ++ a ++ b = wd := Option.some.inj h
  have h0 : fieldOf wd 24 7 = 0xE#7 := by rw [← hw, fieldOf, fieldHi _ _ _ (by decide), fieldHi _ _ _ (by decide), fieldHi _ _ _ (by decide), fieldLo _ _ _ (by decide)]; rfl
  have h1 : fieldOf wd 31 1 = sw := by rw [← hw, fieldOf, fieldHi _ _ _ (by decide), fieldHi _ _ _ (by decide), fieldHi _ _ _ (by decide), fieldHi _ _ _ (by decide), fieldAll]
  have h2 : fieldOf wd 16 8 = d := by rw [← hw, fieldOf, fieldHi _ _ _ (by decide), fieldHi _ _ _ (by decide), fieldLo _ _ _ (by decide), fieldAll]
  have h3 : fieldOf wd 8 8 = a := by rw [← hw, fieldOf, fieldHi _ _ _ (by decide), fieldLo _ _ _ (by decide), fieldAll]
  have h4 : fieldOf wd 0 8 = b := by rw [← hw, fieldOf, fieldLo _ _ _ (by decide), fieldAll]
  simp [decode, decodeV, h0, h1, h2, h3, h4]

theorem Encoding.vsar (sw : BitVec 1) (d a b : BitVec 8) : Encoding.Statement (.vsar sw d a b) := by
  intro wd h
  have hw : sw ++ 0x0F#7 ++ d ++ a ++ b = wd := Option.some.inj h
  have h0 : fieldOf wd 24 7 = 0xF#7 := by rw [← hw, fieldOf, fieldHi _ _ _ (by decide), fieldHi _ _ _ (by decide), fieldHi _ _ _ (by decide), fieldLo _ _ _ (by decide)]; rfl
  have h1 : fieldOf wd 31 1 = sw := by rw [← hw, fieldOf, fieldHi _ _ _ (by decide), fieldHi _ _ _ (by decide), fieldHi _ _ _ (by decide), fieldHi _ _ _ (by decide), fieldAll]
  have h2 : fieldOf wd 16 8 = d := by rw [← hw, fieldOf, fieldHi _ _ _ (by decide), fieldHi _ _ _ (by decide), fieldLo _ _ _ (by decide), fieldAll]
  have h3 : fieldOf wd 8 8 = a := by rw [← hw, fieldOf, fieldHi _ _ _ (by decide), fieldLo _ _ _ (by decide), fieldAll]
  have h4 : fieldOf wd 0 8 = b := by rw [← hw, fieldOf, fieldLo _ _ _ (by decide), fieldAll]
  simp [decode, decodeV, h0, h1, h2, h3, h4]

theorem Encoding.vmov (sw : BitVec 1) (d a : BitVec 8) : Encoding.Statement (.vmov sw d a) := by
  intro wd h
  have hw : sw ++ 0x10#7 ++ d ++ a ++ 0x0#8 = wd := Option.some.inj h
  have h0 : fieldOf wd 24 7 = 0x10#7 := by rw [← hw, fieldOf, fieldHi _ _ _ (by decide), fieldHi _ _ _ (by decide), fieldHi _ _ _ (by decide), fieldLo _ _ _ (by decide)]; rfl
  have h1 : fieldOf wd 0 8 = 0x0#8 := by rw [← hw, fieldOf, fieldLo _ _ _ (by decide)]; rfl
  have h2 : fieldOf wd 31 1 = sw := by rw [← hw, fieldOf, fieldHi _ _ _ (by decide), fieldHi _ _ _ (by decide), fieldHi _ _ _ (by decide), fieldHi _ _ _ (by decide), fieldAll]
  have h3 : fieldOf wd 16 8 = d := by rw [← hw, fieldOf, fieldHi _ _ _ (by decide), fieldHi _ _ _ (by decide), fieldLo _ _ _ (by decide), fieldAll]
  have h4 : fieldOf wd 8 8 = a := by rw [← hw, fieldOf, fieldHi _ _ _ (by decide), fieldLo _ _ _ (by decide), fieldAll]
  simp [decode, decodeV, h0, h1, h2, h3, h4]

theorem Encoding.vpopc (sw : BitVec 1) (d a : BitVec 8) : Encoding.Statement (.vpopc sw d a) := by
  intro wd h
  have hw : sw ++ 0x11#7 ++ d ++ a ++ 0x0#8 = wd := Option.some.inj h
  have h0 : fieldOf wd 24 7 = 0x11#7 := by rw [← hw, fieldOf, fieldHi _ _ _ (by decide), fieldHi _ _ _ (by decide), fieldHi _ _ _ (by decide), fieldLo _ _ _ (by decide)]; rfl
  have h1 : fieldOf wd 0 8 = 0x0#8 := by rw [← hw, fieldOf, fieldLo _ _ _ (by decide)]; rfl
  have h2 : fieldOf wd 31 1 = sw := by rw [← hw, fieldOf, fieldHi _ _ _ (by decide), fieldHi _ _ _ (by decide), fieldHi _ _ _ (by decide), fieldHi _ _ _ (by decide), fieldAll]
  have h3 : fieldOf wd 16 8 = d := by rw [← hw, fieldOf, fieldHi _ _ _ (by decide), fieldHi _ _ _ (by decide), fieldLo _ _ _ (by decide), fieldAll]
  have h4 : fieldOf wd 8 8 = a := by rw [← hw, fieldOf, fieldHi _ _ _ (by decide), fieldLo _ _ _ (by decide), fieldAll]
  simp [decode, decodeV, h0, h1, h2, h3, h4]

theorem Encoding.vclz (sw : BitVec 1) (d a : BitVec 8) : Encoding.Statement (.vclz sw d a) := by
  intro wd h
  have hw : sw ++ 0x12#7 ++ d ++ a ++ 0x0#8 = wd := Option.some.inj h
  have h0 : fieldOf wd 24 7 = 0x12#7 := by rw [← hw, fieldOf, fieldHi _ _ _ (by decide), fieldHi _ _ _ (by decide), fieldHi _ _ _ (by decide), fieldLo _ _ _ (by decide)]; rfl
  have h1 : fieldOf wd 0 8 = 0x0#8 := by rw [← hw, fieldOf, fieldLo _ _ _ (by decide)]; rfl
  have h2 : fieldOf wd 31 1 = sw := by rw [← hw, fieldOf, fieldHi _ _ _ (by decide), fieldHi _ _ _ (by decide), fieldHi _ _ _ (by decide), fieldHi _ _ _ (by decide), fieldAll]
  have h3 : fieldOf wd 16 8 = d := by rw [← hw, fieldOf, fieldHi _ _ _ (by decide), fieldHi _ _ _ (by decide), fieldLo _ _ _ (by decide), fieldAll]
  have h4 : fieldOf wd 8 8 = a := by rw [← hw, fieldOf, fieldHi _ _ _ (by decide), fieldLo _ _ _ (by decide), fieldAll]
  simp [decode, decodeV, h0, h1, h2, h3, h4]

theorem Encoding.vsel (sw : BitVec 1) (d a b : BitVec 8) : Encoding.Statement (.vsel sw d a b) := by
  intro wd h
  have hw : sw ++ 0x13#7 ++ d ++ a ++ b = wd := Option.some.inj h
  have h0 : fieldOf wd 24 7 = 0x13#7 := by rw [← hw, fieldOf, fieldHi _ _ _ (by decide), fieldHi _ _ _ (by decide), fieldHi _ _ _ (by decide), fieldLo _ _ _ (by decide)]; rfl
  have h1 : fieldOf wd 31 1 = sw := by rw [← hw, fieldOf, fieldHi _ _ _ (by decide), fieldHi _ _ _ (by decide), fieldHi _ _ _ (by decide), fieldHi _ _ _ (by decide), fieldAll]
  have h2 : fieldOf wd 16 8 = d := by rw [← hw, fieldOf, fieldHi _ _ _ (by decide), fieldHi _ _ _ (by decide), fieldLo _ _ _ (by decide), fieldAll]
  have h3 : fieldOf wd 8 8 = a := by rw [← hw, fieldOf, fieldHi _ _ _ (by decide), fieldLo _ _ _ (by decide), fieldAll]
  have h4 : fieldOf wd 0 8 = b := by rw [← hw, fieldOf, fieldLo _ _ _ (by decide), fieldAll]
  simp [decode, decodeV, h0, h1, h2, h3, h4]

theorem Encoding.vaddF32 (sw : BitVec 1) (d a b : BitVec 8) : Encoding.Statement (.vaddF32 sw d a b) := by
  intro wd h
  have hw : sw ++ 0x18#7 ++ d ++ a ++ b = wd := Option.some.inj h
  have h0 : fieldOf wd 24 7 = 0x18#7 := by rw [← hw, fieldOf, fieldHi _ _ _ (by decide), fieldHi _ _ _ (by decide), fieldHi _ _ _ (by decide), fieldLo _ _ _ (by decide)]; rfl
  have h1 : fieldOf wd 31 1 = sw := by rw [← hw, fieldOf, fieldHi _ _ _ (by decide), fieldHi _ _ _ (by decide), fieldHi _ _ _ (by decide), fieldHi _ _ _ (by decide), fieldAll]
  have h2 : fieldOf wd 16 8 = d := by rw [← hw, fieldOf, fieldHi _ _ _ (by decide), fieldHi _ _ _ (by decide), fieldLo _ _ _ (by decide), fieldAll]
  have h3 : fieldOf wd 8 8 = a := by rw [← hw, fieldOf, fieldHi _ _ _ (by decide), fieldLo _ _ _ (by decide), fieldAll]
  have h4 : fieldOf wd 0 8 = b := by rw [← hw, fieldOf, fieldLo _ _ _ (by decide), fieldAll]
  simp [decode, decodeV, h0, h1, h2, h3, h4]

theorem Encoding.vsubF32 (sw : BitVec 1) (d a b : BitVec 8) : Encoding.Statement (.vsubF32 sw d a b) := by
  intro wd h
  have hw : sw ++ 0x19#7 ++ d ++ a ++ b = wd := Option.some.inj h
  have h0 : fieldOf wd 24 7 = 0x19#7 := by rw [← hw, fieldOf, fieldHi _ _ _ (by decide), fieldHi _ _ _ (by decide), fieldHi _ _ _ (by decide), fieldLo _ _ _ (by decide)]; rfl
  have h1 : fieldOf wd 31 1 = sw := by rw [← hw, fieldOf, fieldHi _ _ _ (by decide), fieldHi _ _ _ (by decide), fieldHi _ _ _ (by decide), fieldHi _ _ _ (by decide), fieldAll]
  have h2 : fieldOf wd 16 8 = d := by rw [← hw, fieldOf, fieldHi _ _ _ (by decide), fieldHi _ _ _ (by decide), fieldLo _ _ _ (by decide), fieldAll]
  have h3 : fieldOf wd 8 8 = a := by rw [← hw, fieldOf, fieldHi _ _ _ (by decide), fieldLo _ _ _ (by decide), fieldAll]
  have h4 : fieldOf wd 0 8 = b := by rw [← hw, fieldOf, fieldLo _ _ _ (by decide), fieldAll]
  simp [decode, decodeV, h0, h1, h2, h3, h4]

theorem Encoding.vmulF32 (sw : BitVec 1) (d a b : BitVec 8) : Encoding.Statement (.vmulF32 sw d a b) := by
  intro wd h
  have hw : sw ++ 0x1A#7 ++ d ++ a ++ b = wd := Option.some.inj h
  have h0 : fieldOf wd 24 7 = 0x1A#7 := by rw [← hw, fieldOf, fieldHi _ _ _ (by decide), fieldHi _ _ _ (by decide), fieldHi _ _ _ (by decide), fieldLo _ _ _ (by decide)]; rfl
  have h1 : fieldOf wd 31 1 = sw := by rw [← hw, fieldOf, fieldHi _ _ _ (by decide), fieldHi _ _ _ (by decide), fieldHi _ _ _ (by decide), fieldHi _ _ _ (by decide), fieldAll]
  have h2 : fieldOf wd 16 8 = d := by rw [← hw, fieldOf, fieldHi _ _ _ (by decide), fieldHi _ _ _ (by decide), fieldLo _ _ _ (by decide), fieldAll]
  have h3 : fieldOf wd 8 8 = a := by rw [← hw, fieldOf, fieldHi _ _ _ (by decide), fieldLo _ _ _ (by decide), fieldAll]
  have h4 : fieldOf wd 0 8 = b := by rw [← hw, fieldOf, fieldLo _ _ _ (by decide), fieldAll]
  simp [decode, decodeV, h0, h1, h2, h3, h4]

theorem Encoding.vfmaF32 (sw : BitVec 1) (d a b : BitVec 8) : Encoding.Statement (.vfmaF32 sw d a b) := by
  intro wd h
  have hw : sw ++ 0x1B#7 ++ d ++ a ++ b = wd := Option.some.inj h
  have h0 : fieldOf wd 24 7 = 0x1B#7 := by rw [← hw, fieldOf, fieldHi _ _ _ (by decide), fieldHi _ _ _ (by decide), fieldHi _ _ _ (by decide), fieldLo _ _ _ (by decide)]; rfl
  have h1 : fieldOf wd 31 1 = sw := by rw [← hw, fieldOf, fieldHi _ _ _ (by decide), fieldHi _ _ _ (by decide), fieldHi _ _ _ (by decide), fieldHi _ _ _ (by decide), fieldAll]
  have h2 : fieldOf wd 16 8 = d := by rw [← hw, fieldOf, fieldHi _ _ _ (by decide), fieldHi _ _ _ (by decide), fieldLo _ _ _ (by decide), fieldAll]
  have h3 : fieldOf wd 8 8 = a := by rw [← hw, fieldOf, fieldHi _ _ _ (by decide), fieldLo _ _ _ (by decide), fieldAll]
  have h4 : fieldOf wd 0 8 = b := by rw [← hw, fieldOf, fieldLo _ _ _ (by decide), fieldAll]
  simp [decode, decodeV, h0, h1, h2, h3, h4]

theorem Encoding.vminF32 (sw : BitVec 1) (d a b : BitVec 8) : Encoding.Statement (.vminF32 sw d a b) := by
  intro wd h
  have hw : sw ++ 0x1C#7 ++ d ++ a ++ b = wd := Option.some.inj h
  have h0 : fieldOf wd 24 7 = 0x1C#7 := by rw [← hw, fieldOf, fieldHi _ _ _ (by decide), fieldHi _ _ _ (by decide), fieldHi _ _ _ (by decide), fieldLo _ _ _ (by decide)]; rfl
  have h1 : fieldOf wd 31 1 = sw := by rw [← hw, fieldOf, fieldHi _ _ _ (by decide), fieldHi _ _ _ (by decide), fieldHi _ _ _ (by decide), fieldHi _ _ _ (by decide), fieldAll]
  have h2 : fieldOf wd 16 8 = d := by rw [← hw, fieldOf, fieldHi _ _ _ (by decide), fieldHi _ _ _ (by decide), fieldLo _ _ _ (by decide), fieldAll]
  have h3 : fieldOf wd 8 8 = a := by rw [← hw, fieldOf, fieldHi _ _ _ (by decide), fieldLo _ _ _ (by decide), fieldAll]
  have h4 : fieldOf wd 0 8 = b := by rw [← hw, fieldOf, fieldLo _ _ _ (by decide), fieldAll]
  simp [decode, decodeV, h0, h1, h2, h3, h4]

theorem Encoding.vmaxF32 (sw : BitVec 1) (d a b : BitVec 8) : Encoding.Statement (.vmaxF32 sw d a b) := by
  intro wd h
  have hw : sw ++ 0x1D#7 ++ d ++ a ++ b = wd := Option.some.inj h
  have h0 : fieldOf wd 24 7 = 0x1D#7 := by rw [← hw, fieldOf, fieldHi _ _ _ (by decide), fieldHi _ _ _ (by decide), fieldHi _ _ _ (by decide), fieldLo _ _ _ (by decide)]; rfl
  have h1 : fieldOf wd 31 1 = sw := by rw [← hw, fieldOf, fieldHi _ _ _ (by decide), fieldHi _ _ _ (by decide), fieldHi _ _ _ (by decide), fieldHi _ _ _ (by decide), fieldAll]
  have h2 : fieldOf wd 16 8 = d := by rw [← hw, fieldOf, fieldHi _ _ _ (by decide), fieldHi _ _ _ (by decide), fieldLo _ _ _ (by decide), fieldAll]
  have h3 : fieldOf wd 8 8 = a := by rw [← hw, fieldOf, fieldHi _ _ _ (by decide), fieldLo _ _ _ (by decide), fieldAll]
  have h4 : fieldOf wd 0 8 = b := by rw [← hw, fieldOf, fieldLo _ _ _ (by decide), fieldAll]
  simp [decode, decodeV, h0, h1, h2, h3, h4]

theorem Encoding.vabsF32 (sw : BitVec 1) (d a : BitVec 8) : Encoding.Statement (.vabsF32 sw d a) := by
  intro wd h
  have hw : sw ++ 0x1E#7 ++ d ++ a ++ 0x0#8 = wd := Option.some.inj h
  have h0 : fieldOf wd 24 7 = 0x1E#7 := by rw [← hw, fieldOf, fieldHi _ _ _ (by decide), fieldHi _ _ _ (by decide), fieldHi _ _ _ (by decide), fieldLo _ _ _ (by decide)]; rfl
  have h1 : fieldOf wd 0 8 = 0x0#8 := by rw [← hw, fieldOf, fieldLo _ _ _ (by decide)]; rfl
  have h2 : fieldOf wd 31 1 = sw := by rw [← hw, fieldOf, fieldHi _ _ _ (by decide), fieldHi _ _ _ (by decide), fieldHi _ _ _ (by decide), fieldHi _ _ _ (by decide), fieldAll]
  have h3 : fieldOf wd 16 8 = d := by rw [← hw, fieldOf, fieldHi _ _ _ (by decide), fieldHi _ _ _ (by decide), fieldLo _ _ _ (by decide), fieldAll]
  have h4 : fieldOf wd 8 8 = a := by rw [← hw, fieldOf, fieldHi _ _ _ (by decide), fieldLo _ _ _ (by decide), fieldAll]
  simp [decode, decodeV, h0, h1, h2, h3, h4]

theorem Encoding.vnegF32 (sw : BitVec 1) (d a : BitVec 8) : Encoding.Statement (.vnegF32 sw d a) := by
  intro wd h
  have hw : sw ++ 0x1F#7 ++ d ++ a ++ 0x0#8 = wd := Option.some.inj h
  have h0 : fieldOf wd 24 7 = 0x1F#7 := by rw [← hw, fieldOf, fieldHi _ _ _ (by decide), fieldHi _ _ _ (by decide), fieldHi _ _ _ (by decide), fieldLo _ _ _ (by decide)]; rfl
  have h1 : fieldOf wd 0 8 = 0x0#8 := by rw [← hw, fieldOf, fieldLo _ _ _ (by decide)]; rfl
  have h2 : fieldOf wd 31 1 = sw := by rw [← hw, fieldOf, fieldHi _ _ _ (by decide), fieldHi _ _ _ (by decide), fieldHi _ _ _ (by decide), fieldHi _ _ _ (by decide), fieldAll]
  have h3 : fieldOf wd 16 8 = d := by rw [← hw, fieldOf, fieldHi _ _ _ (by decide), fieldHi _ _ _ (by decide), fieldLo _ _ _ (by decide), fieldAll]
  have h4 : fieldOf wd 8 8 = a := by rw [← hw, fieldOf, fieldHi _ _ _ (by decide), fieldLo _ _ _ (by decide), fieldAll]
  simp [decode, decodeV, h0, h1, h2, h3, h4]

theorem Encoding.vaddBf16x2 (sw : BitVec 1) (d a b : BitVec 8) : Encoding.Statement (.vaddBf16x2 sw d a b) := by
  intro wd h
  have hw : sw ++ 0x20#7 ++ d ++ a ++ b = wd := Option.some.inj h
  have h0 : fieldOf wd 24 7 = 0x20#7 := by rw [← hw, fieldOf, fieldHi _ _ _ (by decide), fieldHi _ _ _ (by decide), fieldHi _ _ _ (by decide), fieldLo _ _ _ (by decide)]; rfl
  have h1 : fieldOf wd 31 1 = sw := by rw [← hw, fieldOf, fieldHi _ _ _ (by decide), fieldHi _ _ _ (by decide), fieldHi _ _ _ (by decide), fieldHi _ _ _ (by decide), fieldAll]
  have h2 : fieldOf wd 16 8 = d := by rw [← hw, fieldOf, fieldHi _ _ _ (by decide), fieldHi _ _ _ (by decide), fieldLo _ _ _ (by decide), fieldAll]
  have h3 : fieldOf wd 8 8 = a := by rw [← hw, fieldOf, fieldHi _ _ _ (by decide), fieldLo _ _ _ (by decide), fieldAll]
  have h4 : fieldOf wd 0 8 = b := by rw [← hw, fieldOf, fieldLo _ _ _ (by decide), fieldAll]
  simp [decode, decodeV, h0, h1, h2, h3, h4]

theorem Encoding.vmulBf16x2 (sw : BitVec 1) (d a b : BitVec 8) : Encoding.Statement (.vmulBf16x2 sw d a b) := by
  intro wd h
  have hw : sw ++ 0x21#7 ++ d ++ a ++ b = wd := Option.some.inj h
  have h0 : fieldOf wd 24 7 = 0x21#7 := by rw [← hw, fieldOf, fieldHi _ _ _ (by decide), fieldHi _ _ _ (by decide), fieldHi _ _ _ (by decide), fieldLo _ _ _ (by decide)]; rfl
  have h1 : fieldOf wd 31 1 = sw := by rw [← hw, fieldOf, fieldHi _ _ _ (by decide), fieldHi _ _ _ (by decide), fieldHi _ _ _ (by decide), fieldHi _ _ _ (by decide), fieldAll]
  have h2 : fieldOf wd 16 8 = d := by rw [← hw, fieldOf, fieldHi _ _ _ (by decide), fieldHi _ _ _ (by decide), fieldLo _ _ _ (by decide), fieldAll]
  have h3 : fieldOf wd 8 8 = a := by rw [← hw, fieldOf, fieldHi _ _ _ (by decide), fieldLo _ _ _ (by decide), fieldAll]
  have h4 : fieldOf wd 0 8 = b := by rw [← hw, fieldOf, fieldLo _ _ _ (by decide), fieldAll]
  simp [decode, decodeV, h0, h1, h2, h3, h4]

theorem Encoding.vfmaBf16x2 (sw : BitVec 1) (d a b : BitVec 8) : Encoding.Statement (.vfmaBf16x2 sw d a b) := by
  intro wd h
  have hw : sw ++ 0x22#7 ++ d ++ a ++ b = wd := Option.some.inj h
  have h0 : fieldOf wd 24 7 = 0x22#7 := by rw [← hw, fieldOf, fieldHi _ _ _ (by decide), fieldHi _ _ _ (by decide), fieldHi _ _ _ (by decide), fieldLo _ _ _ (by decide)]; rfl
  have h1 : fieldOf wd 31 1 = sw := by rw [← hw, fieldOf, fieldHi _ _ _ (by decide), fieldHi _ _ _ (by decide), fieldHi _ _ _ (by decide), fieldHi _ _ _ (by decide), fieldAll]
  have h2 : fieldOf wd 16 8 = d := by rw [← hw, fieldOf, fieldHi _ _ _ (by decide), fieldHi _ _ _ (by decide), fieldLo _ _ _ (by decide), fieldAll]
  have h3 : fieldOf wd 8 8 = a := by rw [← hw, fieldOf, fieldHi _ _ _ (by decide), fieldLo _ _ _ (by decide), fieldAll]
  have h4 : fieldOf wd 0 8 = b := by rw [← hw, fieldOf, fieldLo _ _ _ (by decide), fieldAll]
  simp [decode, decodeV, h0, h1, h2, h3, h4]

theorem Encoding.vaddFp16x2 (sw : BitVec 1) (d a b : BitVec 8) : Encoding.Statement (.vaddFp16x2 sw d a b) := by
  intro wd h
  have hw : sw ++ 0x24#7 ++ d ++ a ++ b = wd := Option.some.inj h
  have h0 : fieldOf wd 24 7 = 0x24#7 := by rw [← hw, fieldOf, fieldHi _ _ _ (by decide), fieldHi _ _ _ (by decide), fieldHi _ _ _ (by decide), fieldLo _ _ _ (by decide)]; rfl
  have h1 : fieldOf wd 31 1 = sw := by rw [← hw, fieldOf, fieldHi _ _ _ (by decide), fieldHi _ _ _ (by decide), fieldHi _ _ _ (by decide), fieldHi _ _ _ (by decide), fieldAll]
  have h2 : fieldOf wd 16 8 = d := by rw [← hw, fieldOf, fieldHi _ _ _ (by decide), fieldHi _ _ _ (by decide), fieldLo _ _ _ (by decide), fieldAll]
  have h3 : fieldOf wd 8 8 = a := by rw [← hw, fieldOf, fieldHi _ _ _ (by decide), fieldLo _ _ _ (by decide), fieldAll]
  have h4 : fieldOf wd 0 8 = b := by rw [← hw, fieldOf, fieldLo _ _ _ (by decide), fieldAll]
  simp [decode, decodeV, h0, h1, h2, h3, h4]

theorem Encoding.vmulFp16x2 (sw : BitVec 1) (d a b : BitVec 8) : Encoding.Statement (.vmulFp16x2 sw d a b) := by
  intro wd h
  have hw : sw ++ 0x25#7 ++ d ++ a ++ b = wd := Option.some.inj h
  have h0 : fieldOf wd 24 7 = 0x25#7 := by rw [← hw, fieldOf, fieldHi _ _ _ (by decide), fieldHi _ _ _ (by decide), fieldHi _ _ _ (by decide), fieldLo _ _ _ (by decide)]; rfl
  have h1 : fieldOf wd 31 1 = sw := by rw [← hw, fieldOf, fieldHi _ _ _ (by decide), fieldHi _ _ _ (by decide), fieldHi _ _ _ (by decide), fieldHi _ _ _ (by decide), fieldAll]
  have h2 : fieldOf wd 16 8 = d := by rw [← hw, fieldOf, fieldHi _ _ _ (by decide), fieldHi _ _ _ (by decide), fieldLo _ _ _ (by decide), fieldAll]
  have h3 : fieldOf wd 8 8 = a := by rw [← hw, fieldOf, fieldHi _ _ _ (by decide), fieldLo _ _ _ (by decide), fieldAll]
  have h4 : fieldOf wd 0 8 = b := by rw [← hw, fieldOf, fieldLo _ _ _ (by decide), fieldAll]
  simp [decode, decodeV, h0, h1, h2, h3, h4]

theorem Encoding.vfmaFp16x2 (sw : BitVec 1) (d a b : BitVec 8) : Encoding.Statement (.vfmaFp16x2 sw d a b) := by
  intro wd h
  have hw : sw ++ 0x26#7 ++ d ++ a ++ b = wd := Option.some.inj h
  have h0 : fieldOf wd 24 7 = 0x26#7 := by rw [← hw, fieldOf, fieldHi _ _ _ (by decide), fieldHi _ _ _ (by decide), fieldHi _ _ _ (by decide), fieldLo _ _ _ (by decide)]; rfl
  have h1 : fieldOf wd 31 1 = sw := by rw [← hw, fieldOf, fieldHi _ _ _ (by decide), fieldHi _ _ _ (by decide), fieldHi _ _ _ (by decide), fieldHi _ _ _ (by decide), fieldAll]
  have h2 : fieldOf wd 16 8 = d := by rw [← hw, fieldOf, fieldHi _ _ _ (by decide), fieldHi _ _ _ (by decide), fieldLo _ _ _ (by decide), fieldAll]
  have h3 : fieldOf wd 8 8 = a := by rw [← hw, fieldOf, fieldHi _ _ _ (by decide), fieldLo _ _ _ (by decide), fieldAll]
  have h4 : fieldOf wd 0 8 = b := by rw [← hw, fieldOf, fieldLo _ _ _ (by decide), fieldAll]
  simp [decode, decodeV, h0, h1, h2, h3, h4]

theorem Encoding.vaddE4m3x4 (sw : BitVec 1) (d a b : BitVec 8) : Encoding.Statement (.vaddE4m3x4 sw d a b) := by
  intro wd h
  have hw : sw ++ 0x28#7 ++ d ++ a ++ b = wd := Option.some.inj h
  have h0 : fieldOf wd 24 7 = 0x28#7 := by rw [← hw, fieldOf, fieldHi _ _ _ (by decide), fieldHi _ _ _ (by decide), fieldHi _ _ _ (by decide), fieldLo _ _ _ (by decide)]; rfl
  have h1 : fieldOf wd 31 1 = sw := by rw [← hw, fieldOf, fieldHi _ _ _ (by decide), fieldHi _ _ _ (by decide), fieldHi _ _ _ (by decide), fieldHi _ _ _ (by decide), fieldAll]
  have h2 : fieldOf wd 16 8 = d := by rw [← hw, fieldOf, fieldHi _ _ _ (by decide), fieldHi _ _ _ (by decide), fieldLo _ _ _ (by decide), fieldAll]
  have h3 : fieldOf wd 8 8 = a := by rw [← hw, fieldOf, fieldHi _ _ _ (by decide), fieldLo _ _ _ (by decide), fieldAll]
  have h4 : fieldOf wd 0 8 = b := by rw [← hw, fieldOf, fieldLo _ _ _ (by decide), fieldAll]
  simp [decode, decodeV, h0, h1, h2, h3, h4]

theorem Encoding.vmulE4m3x4 (sw : BitVec 1) (d a b : BitVec 8) : Encoding.Statement (.vmulE4m3x4 sw d a b) := by
  intro wd h
  have hw : sw ++ 0x29#7 ++ d ++ a ++ b = wd := Option.some.inj h
  have h0 : fieldOf wd 24 7 = 0x29#7 := by rw [← hw, fieldOf, fieldHi _ _ _ (by decide), fieldHi _ _ _ (by decide), fieldHi _ _ _ (by decide), fieldLo _ _ _ (by decide)]; rfl
  have h1 : fieldOf wd 31 1 = sw := by rw [← hw, fieldOf, fieldHi _ _ _ (by decide), fieldHi _ _ _ (by decide), fieldHi _ _ _ (by decide), fieldHi _ _ _ (by decide), fieldAll]
  have h2 : fieldOf wd 16 8 = d := by rw [← hw, fieldOf, fieldHi _ _ _ (by decide), fieldHi _ _ _ (by decide), fieldLo _ _ _ (by decide), fieldAll]
  have h3 : fieldOf wd 8 8 = a := by rw [← hw, fieldOf, fieldHi _ _ _ (by decide), fieldLo _ _ _ (by decide), fieldAll]
  have h4 : fieldOf wd 0 8 = b := by rw [← hw, fieldOf, fieldLo _ _ _ (by decide), fieldAll]
  simp [decode, decodeV, h0, h1, h2, h3, h4]

theorem Encoding.vaddInt8x4 (sw : BitVec 1) (d a b : BitVec 8) : Encoding.Statement (.vaddInt8x4 sw d a b) := by
  intro wd h
  have hw : sw ++ 0x2C#7 ++ d ++ a ++ b = wd := Option.some.inj h
  have h0 : fieldOf wd 24 7 = 0x2C#7 := by rw [← hw, fieldOf, fieldHi _ _ _ (by decide), fieldHi _ _ _ (by decide), fieldHi _ _ _ (by decide), fieldLo _ _ _ (by decide)]; rfl
  have h1 : fieldOf wd 31 1 = sw := by rw [← hw, fieldOf, fieldHi _ _ _ (by decide), fieldHi _ _ _ (by decide), fieldHi _ _ _ (by decide), fieldHi _ _ _ (by decide), fieldAll]
  have h2 : fieldOf wd 16 8 = d := by rw [← hw, fieldOf, fieldHi _ _ _ (by decide), fieldHi _ _ _ (by decide), fieldLo _ _ _ (by decide), fieldAll]
  have h3 : fieldOf wd 8 8 = a := by rw [← hw, fieldOf, fieldHi _ _ _ (by decide), fieldLo _ _ _ (by decide), fieldAll]
  have h4 : fieldOf wd 0 8 = b := by rw [← hw, fieldOf, fieldLo _ _ _ (by decide), fieldAll]
  simp [decode, decodeV, h0, h1, h2, h3, h4]

theorem Encoding.vsubInt8x4 (sw : BitVec 1) (d a b : BitVec 8) : Encoding.Statement (.vsubInt8x4 sw d a b) := by
  intro wd h
  have hw : sw ++ 0x2D#7 ++ d ++ a ++ b = wd := Option.some.inj h
  have h0 : fieldOf wd 24 7 = 0x2D#7 := by rw [← hw, fieldOf, fieldHi _ _ _ (by decide), fieldHi _ _ _ (by decide), fieldHi _ _ _ (by decide), fieldLo _ _ _ (by decide)]; rfl
  have h1 : fieldOf wd 31 1 = sw := by rw [← hw, fieldOf, fieldHi _ _ _ (by decide), fieldHi _ _ _ (by decide), fieldHi _ _ _ (by decide), fieldHi _ _ _ (by decide), fieldAll]
  have h2 : fieldOf wd 16 8 = d := by rw [← hw, fieldOf, fieldHi _ _ _ (by decide), fieldHi _ _ _ (by decide), fieldLo _ _ _ (by decide), fieldAll]
  have h3 : fieldOf wd 8 8 = a := by rw [← hw, fieldOf, fieldHi _ _ _ (by decide), fieldLo _ _ _ (by decide), fieldAll]
  have h4 : fieldOf wd 0 8 = b := by rw [← hw, fieldOf, fieldLo _ _ _ (by decide), fieldAll]
  simp [decode, decodeV, h0, h1, h2, h3, h4]

theorem Encoding.vaddUint8x4 (sw : BitVec 1) (d a b : BitVec 8) : Encoding.Statement (.vaddUint8x4 sw d a b) := by
  intro wd h
  have hw : sw ++ 0x2E#7 ++ d ++ a ++ b = wd := Option.some.inj h
  have h0 : fieldOf wd 24 7 = 0x2E#7 := by rw [← hw, fieldOf, fieldHi _ _ _ (by decide), fieldHi _ _ _ (by decide), fieldHi _ _ _ (by decide), fieldLo _ _ _ (by decide)]; rfl
  have h1 : fieldOf wd 31 1 = sw := by rw [← hw, fieldOf, fieldHi _ _ _ (by decide), fieldHi _ _ _ (by decide), fieldHi _ _ _ (by decide), fieldHi _ _ _ (by decide), fieldAll]
  have h2 : fieldOf wd 16 8 = d := by rw [← hw, fieldOf, fieldHi _ _ _ (by decide), fieldHi _ _ _ (by decide), fieldLo _ _ _ (by decide), fieldAll]
  have h3 : fieldOf wd 8 8 = a := by rw [← hw, fieldOf, fieldHi _ _ _ (by decide), fieldLo _ _ _ (by decide), fieldAll]
  have h4 : fieldOf wd 0 8 = b := by rw [← hw, fieldOf, fieldLo _ _ _ (by decide), fieldAll]
  simp [decode, decodeV, h0, h1, h2, h3, h4]

theorem Encoding.vsubUint8x4 (sw : BitVec 1) (d a b : BitVec 8) : Encoding.Statement (.vsubUint8x4 sw d a b) := by
  intro wd h
  have hw : sw ++ 0x2F#7 ++ d ++ a ++ b = wd := Option.some.inj h
  have h0 : fieldOf wd 24 7 = 0x2F#7 := by rw [← hw, fieldOf, fieldHi _ _ _ (by decide), fieldHi _ _ _ (by decide), fieldHi _ _ _ (by decide), fieldLo _ _ _ (by decide)]; rfl
  have h1 : fieldOf wd 31 1 = sw := by rw [← hw, fieldOf, fieldHi _ _ _ (by decide), fieldHi _ _ _ (by decide), fieldHi _ _ _ (by decide), fieldHi _ _ _ (by decide), fieldAll]
  have h2 : fieldOf wd 16 8 = d := by rw [← hw, fieldOf, fieldHi _ _ _ (by decide), fieldHi _ _ _ (by decide), fieldLo _ _ _ (by decide), fieldAll]
  have h3 : fieldOf wd 8 8 = a := by rw [← hw, fieldOf, fieldHi _ _ _ (by decide), fieldLo _ _ _ (by decide), fieldAll]
  have h4 : fieldOf wd 0 8 = b := by rw [← hw, fieldOf, fieldLo _ _ _ (by decide), fieldAll]
  simp [decode, decodeV, h0, h1, h2, h3, h4]

theorem Encoding.vdot2Bf16 (sw : BitVec 1) (d a b : BitVec 8) : Encoding.Statement (.vdot2Bf16 sw d a b) := by
  intro wd h
  have hw : sw ++ 0x30#7 ++ d ++ a ++ b = wd := Option.some.inj h
  have h0 : fieldOf wd 24 7 = 0x30#7 := by rw [← hw, fieldOf, fieldHi _ _ _ (by decide), fieldHi _ _ _ (by decide), fieldHi _ _ _ (by decide), fieldLo _ _ _ (by decide)]; rfl
  have h1 : fieldOf wd 31 1 = sw := by rw [← hw, fieldOf, fieldHi _ _ _ (by decide), fieldHi _ _ _ (by decide), fieldHi _ _ _ (by decide), fieldHi _ _ _ (by decide), fieldAll]
  have h2 : fieldOf wd 16 8 = d := by rw [← hw, fieldOf, fieldHi _ _ _ (by decide), fieldHi _ _ _ (by decide), fieldLo _ _ _ (by decide), fieldAll]
  have h3 : fieldOf wd 8 8 = a := by rw [← hw, fieldOf, fieldHi _ _ _ (by decide), fieldLo _ _ _ (by decide), fieldAll]
  have h4 : fieldOf wd 0 8 = b := by rw [← hw, fieldOf, fieldLo _ _ _ (by decide), fieldAll]
  simp [decode, decodeV, h0, h1, h2, h3, h4]

theorem Encoding.vdot2Fp16 (sw : BitVec 1) (d a b : BitVec 8) : Encoding.Statement (.vdot2Fp16 sw d a b) := by
  intro wd h
  have hw : sw ++ 0x31#7 ++ d ++ a ++ b = wd := Option.some.inj h
  have h0 : fieldOf wd 24 7 = 0x31#7 := by rw [← hw, fieldOf, fieldHi _ _ _ (by decide), fieldHi _ _ _ (by decide), fieldHi _ _ _ (by decide), fieldLo _ _ _ (by decide)]; rfl
  have h1 : fieldOf wd 31 1 = sw := by rw [← hw, fieldOf, fieldHi _ _ _ (by decide), fieldHi _ _ _ (by decide), fieldHi _ _ _ (by decide), fieldHi _ _ _ (by decide), fieldAll]
  have h2 : fieldOf wd 16 8 = d := by rw [← hw, fieldOf, fieldHi _ _ _ (by decide), fieldHi _ _ _ (by decide), fieldLo _ _ _ (by decide), fieldAll]
  have h3 : fieldOf wd 8 8 = a := by rw [← hw, fieldOf, fieldHi _ _ _ (by decide), fieldLo _ _ _ (by decide), fieldAll]
  have h4 : fieldOf wd 0 8 = b := by rw [← hw, fieldOf, fieldLo _ _ _ (by decide), fieldAll]
  simp [decode, decodeV, h0, h1, h2, h3, h4]

theorem Encoding.vdot4E4m3 (sw : BitVec 1) (d a b : BitVec 8) : Encoding.Statement (.vdot4E4m3 sw d a b) := by
  intro wd h
  have hw : sw ++ 0x32#7 ++ d ++ a ++ b = wd := Option.some.inj h
  have h0 : fieldOf wd 24 7 = 0x32#7 := by rw [← hw, fieldOf, fieldHi _ _ _ (by decide), fieldHi _ _ _ (by decide), fieldHi _ _ _ (by decide), fieldLo _ _ _ (by decide)]; rfl
  have h1 : fieldOf wd 31 1 = sw := by rw [← hw, fieldOf, fieldHi _ _ _ (by decide), fieldHi _ _ _ (by decide), fieldHi _ _ _ (by decide), fieldHi _ _ _ (by decide), fieldAll]
  have h2 : fieldOf wd 16 8 = d := by rw [← hw, fieldOf, fieldHi _ _ _ (by decide), fieldHi _ _ _ (by decide), fieldLo _ _ _ (by decide), fieldAll]
  have h3 : fieldOf wd 8 8 = a := by rw [← hw, fieldOf, fieldHi _ _ _ (by decide), fieldLo _ _ _ (by decide), fieldAll]
  have h4 : fieldOf wd 0 8 = b := by rw [← hw, fieldOf, fieldLo _ _ _ (by decide), fieldAll]
  simp [decode, decodeV, h0, h1, h2, h3, h4]

theorem Encoding.vdot4Int8 (sw : BitVec 1) (d a b : BitVec 8) : Encoding.Statement (.vdot4Int8 sw d a b) := by
  intro wd h
  have hw : sw ++ 0x33#7 ++ d ++ a ++ b = wd := Option.some.inj h
  have h0 : fieldOf wd 24 7 = 0x33#7 := by rw [← hw, fieldOf, fieldHi _ _ _ (by decide), fieldHi _ _ _ (by decide), fieldHi _ _ _ (by decide), fieldLo _ _ _ (by decide)]; rfl
  have h1 : fieldOf wd 31 1 = sw := by rw [← hw, fieldOf, fieldHi _ _ _ (by decide), fieldHi _ _ _ (by decide), fieldHi _ _ _ (by decide), fieldHi _ _ _ (by decide), fieldAll]
  have h2 : fieldOf wd 16 8 = d := by rw [← hw, fieldOf, fieldHi _ _ _ (by decide), fieldHi _ _ _ (by decide), fieldLo _ _ _ (by decide), fieldAll]
  have h3 : fieldOf wd 8 8 = a := by rw [← hw, fieldOf, fieldHi _ _ _ (by decide), fieldLo _ _ _ (by decide), fieldAll]
  have h4 : fieldOf wd 0 8 = b := by rw [← hw, fieldOf, fieldLo _ _ _ (by decide), fieldAll]
  simp [decode, decodeV, h0, h1, h2, h3, h4]

theorem Encoding.vcvt (sw : BitVec 1) (d a : BitVec 8) (f g : BitVec 4) : Encoding.Statement (.vcvt sw d a f g) := by
  intro wd h
  have hw : sw ++ 0x38#7 ++ d ++ a ++ f ++ g = wd := Option.some.inj h
  have h0 : fieldOf wd 24 7 = 0x38#7 := by rw [← hw, fieldOf, fieldHi _ _ _ (by decide), fieldHi _ _ _ (by decide), fieldHi _ _ _ (by decide), fieldHi _ _ _ (by decide), fieldLo _ _ _ (by decide)]; rfl
  have h1 : fieldOf wd 31 1 = sw := by rw [← hw, fieldOf, fieldHi _ _ _ (by decide), fieldHi _ _ _ (by decide), fieldHi _ _ _ (by decide), fieldHi _ _ _ (by decide), fieldHi _ _ _ (by decide), fieldAll]
  have h2 : fieldOf wd 16 8 = d := by rw [← hw, fieldOf, fieldHi _ _ _ (by decide), fieldHi _ _ _ (by decide), fieldHi _ _ _ (by decide), fieldLo _ _ _ (by decide), fieldAll]
  have h3 : fieldOf wd 8 8 = a := by rw [← hw, fieldOf, fieldHi _ _ _ (by decide), fieldHi _ _ _ (by decide), fieldLo _ _ _ (by decide), fieldAll]
  have h4 : fieldOf wd 4 4 = f := by rw [← hw, fieldOf, fieldHi _ _ _ (by decide), fieldLo _ _ _ (by decide), fieldAll]
  have h5 : fieldOf wd 0 4 = g := by rw [← hw, fieldOf, fieldLo _ _ _ (by decide), fieldAll]
  simp [decode, decodeV, h0, h1, h2, h3, h4, h5]

theorem Encoding.vcvtpk (sw : BitVec 1) (d a : BitVec 8) (f g : BitVec 4) : Encoding.Statement (.vcvtpk sw d a f g) := by
  intro wd h
  have hw : sw ++ 0x39#7 ++ d ++ a ++ f ++ g = wd := Option.some.inj h
  have h0 : fieldOf wd 24 7 = 0x39#7 := by rw [← hw, fieldOf, fieldHi _ _ _ (by decide), fieldHi _ _ _ (by decide), fieldHi _ _ _ (by decide), fieldHi _ _ _ (by decide), fieldLo _ _ _ (by decide)]; rfl
  have h1 : fieldOf wd 31 1 = sw := by rw [← hw, fieldOf, fieldHi _ _ _ (by decide), fieldHi _ _ _ (by decide), fieldHi _ _ _ (by decide), fieldHi _ _ _ (by decide), fieldHi _ _ _ (by decide), fieldAll]
  have h2 : fieldOf wd 16 8 = d := by rw [← hw, fieldOf, fieldHi _ _ _ (by decide), fieldHi _ _ _ (by decide), fieldHi _ _ _ (by decide), fieldLo _ _ _ (by decide), fieldAll]
  have h3 : fieldOf wd 8 8 = a := by rw [← hw, fieldOf, fieldHi _ _ _ (by decide), fieldHi _ _ _ (by decide), fieldLo _ _ _ (by decide), fieldAll]
  have h4 : fieldOf wd 4 4 = f := by rw [← hw, fieldOf, fieldHi _ _ _ (by decide), fieldLo _ _ _ (by decide), fieldAll]
  have h5 : fieldOf wd 0 4 = g := by rw [← hw, fieldOf, fieldLo _ _ _ (by decide), fieldAll]
  simp [decode, decodeV, h0, h1, h2, h3, h4, h5]

theorem Encoding.vcvtxp (sw : BitVec 1) (d a : BitVec 8) (f g : BitVec 4) : Encoding.Statement (.vcvtxp sw d a f g) := by
  intro wd h
  have hw : sw ++ 0x3A#7 ++ d ++ a ++ f ++ g = wd := Option.some.inj h
  have h0 : fieldOf wd 24 7 = 0x3A#7 := by rw [← hw, fieldOf, fieldHi _ _ _ (by decide), fieldHi _ _ _ (by decide), fieldHi _ _ _ (by decide), fieldHi _ _ _ (by decide), fieldLo _ _ _ (by decide)]; rfl
  have h1 : fieldOf wd 31 1 = sw := by rw [← hw, fieldOf, fieldHi _ _ _ (by decide), fieldHi _ _ _ (by decide), fieldHi _ _ _ (by decide), fieldHi _ _ _ (by decide), fieldHi _ _ _ (by decide), fieldAll]
  have h2 : fieldOf wd 16 8 = d := by rw [← hw, fieldOf, fieldHi _ _ _ (by decide), fieldHi _ _ _ (by decide), fieldHi _ _ _ (by decide), fieldLo _ _ _ (by decide), fieldAll]
  have h3 : fieldOf wd 8 8 = a := by rw [← hw, fieldOf, fieldHi _ _ _ (by decide), fieldHi _ _ _ (by decide), fieldLo _ _ _ (by decide), fieldAll]
  have h4 : fieldOf wd 4 4 = f := by rw [← hw, fieldOf, fieldHi _ _ _ (by decide), fieldLo _ _ _ (by decide), fieldAll]
  have h5 : fieldOf wd 0 4 = g := by rw [← hw, fieldOf, fieldLo _ _ _ (by decide), fieldAll]
  simp [decode, decodeV, h0, h1, h2, h3, h4, h5]

theorem Encoding.vqblk (sw : BitVec 1) (d a : BitVec 8) (f : BitVec 4) : Encoding.Statement (.vqblk sw d a f) := by
  intro wd h
  have hw : sw ++ 0x3B#7 ++ d ++ a ++ 0x0#4 ++ f = wd := Option.some.inj h
  have h0 : fieldOf wd 24 7 = 0x3B#7 := by rw [← hw, fieldOf, fieldHi _ _ _ (by decide), fieldHi _ _ _ (by decide), fieldHi _ _ _ (by decide), fieldHi _ _ _ (by decide), fieldLo _ _ _ (by decide)]; rfl
  have h1 : fieldOf wd 4 4 = 0x0#4 := by rw [← hw, fieldOf, fieldHi _ _ _ (by decide), fieldLo _ _ _ (by decide)]; rfl
  have h2 : fieldOf wd 31 1 = sw := by rw [← hw, fieldOf, fieldHi _ _ _ (by decide), fieldHi _ _ _ (by decide), fieldHi _ _ _ (by decide), fieldHi _ _ _ (by decide), fieldHi _ _ _ (by decide), fieldAll]
  have h3 : fieldOf wd 16 8 = d := by rw [← hw, fieldOf, fieldHi _ _ _ (by decide), fieldHi _ _ _ (by decide), fieldHi _ _ _ (by decide), fieldLo _ _ _ (by decide), fieldAll]
  have h4 : fieldOf wd 8 8 = a := by rw [← hw, fieldOf, fieldHi _ _ _ (by decide), fieldHi _ _ _ (by decide), fieldLo _ _ _ (by decide), fieldAll]
  have h5 : fieldOf wd 0 4 = f := by rw [← hw, fieldOf, fieldLo _ _ _ (by decide), fieldAll]
  simp [decode, decodeV, h0, h1, h2, h3, h4, h5]

theorem Encoding.vdqblk (sw : BitVec 1) (d a : BitVec 8) (f : BitVec 4) : Encoding.Statement (.vdqblk sw d a f) := by
  intro wd h
  have hw : sw ++ 0x3C#7 ++ d ++ a ++ 0x0#4 ++ f = wd := Option.some.inj h
  have h0 : fieldOf wd 24 7 = 0x3C#7 := by rw [← hw, fieldOf, fieldHi _ _ _ (by decide), fieldHi _ _ _ (by decide), fieldHi _ _ _ (by decide), fieldHi _ _ _ (by decide), fieldLo _ _ _ (by decide)]; rfl
  have h1 : fieldOf wd 4 4 = 0x0#4 := by rw [← hw, fieldOf, fieldHi _ _ _ (by decide), fieldLo _ _ _ (by decide)]; rfl
  have h2 : fieldOf wd 31 1 = sw := by rw [← hw, fieldOf, fieldHi _ _ _ (by decide), fieldHi _ _ _ (by decide), fieldHi _ _ _ (by decide), fieldHi _ _ _ (by decide), fieldHi _ _ _ (by decide), fieldAll]
  have h3 : fieldOf wd 16 8 = d := by rw [← hw, fieldOf, fieldHi _ _ _ (by decide), fieldHi _ _ _ (by decide), fieldHi _ _ _ (by decide), fieldLo _ _ _ (by decide), fieldAll]
  have h4 : fieldOf wd 8 8 = a := by rw [← hw, fieldOf, fieldHi _ _ _ (by decide), fieldHi _ _ _ (by decide), fieldLo _ _ _ (by decide), fieldAll]
  have h5 : fieldOf wd 0 4 = f := by rw [← hw, fieldOf, fieldLo _ _ _ (by decide), fieldAll]
  simp [decode, decodeV, h0, h1, h2, h3, h4, h5]

theorem Encoding.vrcp (sw : BitVec 1) (d a : BitVec 8) : Encoding.Statement (.vrcp sw d a) := by
  intro wd h
  have hw : sw ++ 0x40#7 ++ d ++ a ++ 0x0#8 = wd := Option.some.inj h
  have h0 : fieldOf wd 24 7 = 0x40#7 := by rw [← hw, fieldOf, fieldHi _ _ _ (by decide), fieldHi _ _ _ (by decide), fieldHi _ _ _ (by decide), fieldLo _ _ _ (by decide)]; rfl
  have h1 : fieldOf wd 0 8 = 0x0#8 := by rw [← hw, fieldOf, fieldLo _ _ _ (by decide)]; rfl
  have h2 : fieldOf wd 31 1 = sw := by rw [← hw, fieldOf, fieldHi _ _ _ (by decide), fieldHi _ _ _ (by decide), fieldHi _ _ _ (by decide), fieldHi _ _ _ (by decide), fieldAll]
  have h3 : fieldOf wd 16 8 = d := by rw [← hw, fieldOf, fieldHi _ _ _ (by decide), fieldHi _ _ _ (by decide), fieldLo _ _ _ (by decide), fieldAll]
  have h4 : fieldOf wd 8 8 = a := by rw [← hw, fieldOf, fieldHi _ _ _ (by decide), fieldLo _ _ _ (by decide), fieldAll]
  simp [decode, decodeV, h0, h1, h2, h3, h4]

theorem Encoding.vrsq (sw : BitVec 1) (d a : BitVec 8) : Encoding.Statement (.vrsq sw d a) := by
  intro wd h
  have hw : sw ++ 0x41#7 ++ d ++ a ++ 0x0#8 = wd := Option.some.inj h
  have h0 : fieldOf wd 24 7 = 0x41#7 := by rw [← hw, fieldOf, fieldHi _ _ _ (by decide), fieldHi _ _ _ (by decide), fieldHi _ _ _ (by decide), fieldLo _ _ _ (by decide)]; rfl
  have h1 : fieldOf wd 0 8 = 0x0#8 := by rw [← hw, fieldOf, fieldLo _ _ _ (by decide)]; rfl
  have h2 : fieldOf wd 31 1 = sw := by rw [← hw, fieldOf, fieldHi _ _ _ (by decide), fieldHi _ _ _ (by decide), fieldHi _ _ _ (by decide), fieldHi _ _ _ (by decide), fieldAll]
  have h3 : fieldOf wd 16 8 = d := by rw [← hw, fieldOf, fieldHi _ _ _ (by decide), fieldHi _ _ _ (by decide), fieldLo _ _ _ (by decide), fieldAll]
  have h4 : fieldOf wd 8 8 = a := by rw [← hw, fieldOf, fieldHi _ _ _ (by decide), fieldLo _ _ _ (by decide), fieldAll]
  simp [decode, decodeV, h0, h1, h2, h3, h4]

theorem Encoding.vsqrt (sw : BitVec 1) (d a : BitVec 8) : Encoding.Statement (.vsqrt sw d a) := by
  intro wd h
  have hw : sw ++ 0x42#7 ++ d ++ a ++ 0x0#8 = wd := Option.some.inj h
  have h0 : fieldOf wd 24 7 = 0x42#7 := by rw [← hw, fieldOf, fieldHi _ _ _ (by decide), fieldHi _ _ _ (by decide), fieldHi _ _ _ (by decide), fieldLo _ _ _ (by decide)]; rfl
  have h1 : fieldOf wd 0 8 = 0x0#8 := by rw [← hw, fieldOf, fieldLo _ _ _ (by decide)]; rfl
  have h2 : fieldOf wd 31 1 = sw := by rw [← hw, fieldOf, fieldHi _ _ _ (by decide), fieldHi _ _ _ (by decide), fieldHi _ _ _ (by decide), fieldHi _ _ _ (by decide), fieldAll]
  have h3 : fieldOf wd 16 8 = d := by rw [← hw, fieldOf, fieldHi _ _ _ (by decide), fieldHi _ _ _ (by decide), fieldLo _ _ _ (by decide), fieldAll]
  have h4 : fieldOf wd 8 8 = a := by rw [← hw, fieldOf, fieldHi _ _ _ (by decide), fieldLo _ _ _ (by decide), fieldAll]
  simp [decode, decodeV, h0, h1, h2, h3, h4]

theorem Encoding.vexp2 (sw : BitVec 1) (d a : BitVec 8) : Encoding.Statement (.vexp2 sw d a) := by
  intro wd h
  have hw : sw ++ 0x43#7 ++ d ++ a ++ 0x0#8 = wd := Option.some.inj h
  have h0 : fieldOf wd 24 7 = 0x43#7 := by rw [← hw, fieldOf, fieldHi _ _ _ (by decide), fieldHi _ _ _ (by decide), fieldHi _ _ _ (by decide), fieldLo _ _ _ (by decide)]; rfl
  have h1 : fieldOf wd 0 8 = 0x0#8 := by rw [← hw, fieldOf, fieldLo _ _ _ (by decide)]; rfl
  have h2 : fieldOf wd 31 1 = sw := by rw [← hw, fieldOf, fieldHi _ _ _ (by decide), fieldHi _ _ _ (by decide), fieldHi _ _ _ (by decide), fieldHi _ _ _ (by decide), fieldAll]
  have h3 : fieldOf wd 16 8 = d := by rw [← hw, fieldOf, fieldHi _ _ _ (by decide), fieldHi _ _ _ (by decide), fieldLo _ _ _ (by decide), fieldAll]
  have h4 : fieldOf wd 8 8 = a := by rw [← hw, fieldOf, fieldHi _ _ _ (by decide), fieldLo _ _ _ (by decide), fieldAll]
  simp [decode, decodeV, h0, h1, h2, h3, h4]

theorem Encoding.vlog2 (sw : BitVec 1) (d a : BitVec 8) : Encoding.Statement (.vlog2 sw d a) := by
  intro wd h
  have hw : sw ++ 0x44#7 ++ d ++ a ++ 0x0#8 = wd := Option.some.inj h
  have h0 : fieldOf wd 24 7 = 0x44#7 := by rw [← hw, fieldOf, fieldHi _ _ _ (by decide), fieldHi _ _ _ (by decide), fieldHi _ _ _ (by decide), fieldLo _ _ _ (by decide)]; rfl
  have h1 : fieldOf wd 0 8 = 0x0#8 := by rw [← hw, fieldOf, fieldLo _ _ _ (by decide)]; rfl
  have h2 : fieldOf wd 31 1 = sw := by rw [← hw, fieldOf, fieldHi _ _ _ (by decide), fieldHi _ _ _ (by decide), fieldHi _ _ _ (by decide), fieldHi _ _ _ (by decide), fieldAll]
  have h3 : fieldOf wd 16 8 = d := by rw [← hw, fieldOf, fieldHi _ _ _ (by decide), fieldHi _ _ _ (by decide), fieldLo _ _ _ (by decide), fieldAll]
  have h4 : fieldOf wd 8 8 = a := by rw [← hw, fieldOf, fieldHi _ _ _ (by decide), fieldLo _ _ _ (by decide), fieldAll]
  simp [decode, decodeV, h0, h1, h2, h3, h4]

theorem Encoding.vsinpi (sw : BitVec 1) (d a : BitVec 8) : Encoding.Statement (.vsinpi sw d a) := by
  intro wd h
  have hw : sw ++ 0x45#7 ++ d ++ a ++ 0x0#8 = wd := Option.some.inj h
  have h0 : fieldOf wd 24 7 = 0x45#7 := by rw [← hw, fieldOf, fieldHi _ _ _ (by decide), fieldHi _ _ _ (by decide), fieldHi _ _ _ (by decide), fieldLo _ _ _ (by decide)]; rfl
  have h1 : fieldOf wd 0 8 = 0x0#8 := by rw [← hw, fieldOf, fieldLo _ _ _ (by decide)]; rfl
  have h2 : fieldOf wd 31 1 = sw := by rw [← hw, fieldOf, fieldHi _ _ _ (by decide), fieldHi _ _ _ (by decide), fieldHi _ _ _ (by decide), fieldHi _ _ _ (by decide), fieldAll]
  have h3 : fieldOf wd 16 8 = d := by rw [← hw, fieldOf, fieldHi _ _ _ (by decide), fieldHi _ _ _ (by decide), fieldLo _ _ _ (by decide), fieldAll]
  have h4 : fieldOf wd 8 8 = a := by rw [← hw, fieldOf, fieldHi _ _ _ (by decide), fieldLo _ _ _ (by decide), fieldAll]
  simp [decode, decodeV, h0, h1, h2, h3, h4]

theorem Encoding.vcospi (sw : BitVec 1) (d a : BitVec 8) : Encoding.Statement (.vcospi sw d a) := by
  intro wd h
  have hw : sw ++ 0x46#7 ++ d ++ a ++ 0x0#8 = wd := Option.some.inj h
  have h0 : fieldOf wd 24 7 = 0x46#7 := by rw [← hw, fieldOf, fieldHi _ _ _ (by decide), fieldHi _ _ _ (by decide), fieldHi _ _ _ (by decide), fieldLo _ _ _ (by decide)]; rfl
  have h1 : fieldOf wd 0 8 = 0x0#8 := by rw [← hw, fieldOf, fieldLo _ _ _ (by decide)]; rfl
  have h2 : fieldOf wd 31 1 = sw := by rw [← hw, fieldOf, fieldHi _ _ _ (by decide), fieldHi _ _ _ (by decide), fieldHi _ _ _ (by decide), fieldHi _ _ _ (by decide), fieldAll]
  have h3 : fieldOf wd 16 8 = d := by rw [← hw, fieldOf, fieldHi _ _ _ (by decide), fieldHi _ _ _ (by decide), fieldLo _ _ _ (by decide), fieldAll]
  have h4 : fieldOf wd 8 8 = a := by rw [← hw, fieldOf, fieldHi _ _ _ (by decide), fieldLo _ _ _ (by decide), fieldAll]
  simp [decode, decodeV, h0, h1, h2, h3, h4]

theorem Encoding.add (sw : BitVec 1) (d a b : BitVec 6) : Encoding.Statement (.add sw d a b) := by
  intro wd h
  have hw : sw ++ 0x60#7 ++ 0x0#6 ++ d ++ a ++ b = wd := Option.some.inj h
  have h0 : fieldOf wd 24 7 = 0x60#7 := by rw [← hw, fieldOf, fieldHi _ _ _ (by decide), fieldHi _ _ _ (by decide), fieldHi _ _ _ (by decide), fieldHi _ _ _ (by decide), fieldLo _ _ _ (by decide)]; rfl
  have h1 : fieldOf wd 18 6 = 0x0#6 := by rw [← hw, fieldOf, fieldHi _ _ _ (by decide), fieldHi _ _ _ (by decide), fieldHi _ _ _ (by decide), fieldLo _ _ _ (by decide)]; rfl
  have h2 : fieldOf wd 31 1 = sw := by rw [← hw, fieldOf, fieldHi _ _ _ (by decide), fieldHi _ _ _ (by decide), fieldHi _ _ _ (by decide), fieldHi _ _ _ (by decide), fieldHi _ _ _ (by decide), fieldAll]
  have h3 : fieldOf wd 12 6 = d := by rw [← hw, fieldOf, fieldHi _ _ _ (by decide), fieldHi _ _ _ (by decide), fieldLo _ _ _ (by decide), fieldAll]
  have h4 : fieldOf wd 6 6 = a := by rw [← hw, fieldOf, fieldHi _ _ _ (by decide), fieldLo _ _ _ (by decide), fieldAll]
  have h5 : fieldOf wd 0 6 = b := by rw [← hw, fieldOf, fieldLo _ _ _ (by decide), fieldAll]
  simp [decode, decodeCompound, decode60, h0, h1, h2, h3, h4, h5]

theorem Encoding.sub (sw : BitVec 1) (d a b : BitVec 6) : Encoding.Statement (.sub sw d a b) := by
  intro wd h
  have hw : sw ++ 0x60#7 ++ 0x1#6 ++ d ++ a ++ b = wd := Option.some.inj h
  have h0 : fieldOf wd 24 7 = 0x60#7 := by rw [← hw, fieldOf, fieldHi _ _ _ (by decide), fieldHi _ _ _ (by decide), fieldHi _ _ _ (by decide), fieldHi _ _ _ (by decide), fieldLo _ _ _ (by decide)]; rfl
  have h1 : fieldOf wd 18 6 = 0x1#6 := by rw [← hw, fieldOf, fieldHi _ _ _ (by decide), fieldHi _ _ _ (by decide), fieldHi _ _ _ (by decide), fieldLo _ _ _ (by decide)]; rfl
  have h2 : fieldOf wd 31 1 = sw := by rw [← hw, fieldOf, fieldHi _ _ _ (by decide), fieldHi _ _ _ (by decide), fieldHi _ _ _ (by decide), fieldHi _ _ _ (by decide), fieldHi _ _ _ (by decide), fieldAll]
  have h3 : fieldOf wd 12 6 = d := by rw [← hw, fieldOf, fieldHi _ _ _ (by decide), fieldHi _ _ _ (by decide), fieldLo _ _ _ (by decide), fieldAll]
  have h4 : fieldOf wd 6 6 = a := by rw [← hw, fieldOf, fieldHi _ _ _ (by decide), fieldLo _ _ _ (by decide), fieldAll]
  have h5 : fieldOf wd 0 6 = b := by rw [← hw, fieldOf, fieldLo _ _ _ (by decide), fieldAll]
  simp [decode, decodeCompound, decode60, h0, h1, h2, h3, h4, h5]

theorem Encoding.mul (sw : BitVec 1) (d a b : BitVec 6) : Encoding.Statement (.mul sw d a b) := by
  intro wd h
  have hw : sw ++ 0x60#7 ++ 0x2#6 ++ d ++ a ++ b = wd := Option.some.inj h
  have h0 : fieldOf wd 24 7 = 0x60#7 := by rw [← hw, fieldOf, fieldHi _ _ _ (by decide), fieldHi _ _ _ (by decide), fieldHi _ _ _ (by decide), fieldHi _ _ _ (by decide), fieldLo _ _ _ (by decide)]; rfl
  have h1 : fieldOf wd 18 6 = 0x2#6 := by rw [← hw, fieldOf, fieldHi _ _ _ (by decide), fieldHi _ _ _ (by decide), fieldHi _ _ _ (by decide), fieldLo _ _ _ (by decide)]; rfl
  have h2 : fieldOf wd 31 1 = sw := by rw [← hw, fieldOf, fieldHi _ _ _ (by decide), fieldHi _ _ _ (by decide), fieldHi _ _ _ (by decide), fieldHi _ _ _ (by decide), fieldHi _ _ _ (by decide), fieldAll]
  have h3 : fieldOf wd 12 6 = d := by rw [← hw, fieldOf, fieldHi _ _ _ (by decide), fieldHi _ _ _ (by decide), fieldLo _ _ _ (by decide), fieldAll]
  have h4 : fieldOf wd 6 6 = a := by rw [← hw, fieldOf, fieldHi _ _ _ (by decide), fieldLo _ _ _ (by decide), fieldAll]
  have h5 : fieldOf wd 0 6 = b := by rw [← hw, fieldOf, fieldLo _ _ _ (by decide), fieldAll]
  simp [decode, decodeCompound, decode60, h0, h1, h2, h3, h4, h5]

theorem Encoding.mulh (sw : BitVec 1) (d a b : BitVec 6) : Encoding.Statement (.mulh sw d a b) := by
  intro wd h
  have hw : sw ++ 0x60#7 ++ 0x3#6 ++ d ++ a ++ b = wd := Option.some.inj h
  have h0 : fieldOf wd 24 7 = 0x60#7 := by rw [← hw, fieldOf, fieldHi _ _ _ (by decide), fieldHi _ _ _ (by decide), fieldHi _ _ _ (by decide), fieldHi _ _ _ (by decide), fieldLo _ _ _ (by decide)]; rfl
  have h1 : fieldOf wd 18 6 = 0x3#6 := by rw [← hw, fieldOf, fieldHi _ _ _ (by decide), fieldHi _ _ _ (by decide), fieldHi _ _ _ (by decide), fieldLo _ _ _ (by decide)]; rfl
  have h2 : fieldOf wd 31 1 = sw := by rw [← hw, fieldOf, fieldHi _ _ _ (by decide), fieldHi _ _ _ (by decide), fieldHi _ _ _ (by decide), fieldHi _ _ _ (by decide), fieldHi _ _ _ (by decide), fieldAll]
  have h3 : fieldOf wd 12 6 = d := by rw [← hw, fieldOf, fieldHi _ _ _ (by decide), fieldHi _ _ _ (by decide), fieldLo _ _ _ (by decide), fieldAll]
  have h4 : fieldOf wd 6 6 = a := by rw [← hw, fieldOf, fieldHi _ _ _ (by decide), fieldLo _ _ _ (by decide), fieldAll]
  have h5 : fieldOf wd 0 6 = b := by rw [← hw, fieldOf, fieldLo _ _ _ (by decide), fieldAll]
  simp [decode, decodeCompound, decode60, h0, h1, h2, h3, h4, h5]

theorem Encoding.mulhu (sw : BitVec 1) (d a b : BitVec 6) : Encoding.Statement (.mulhu sw d a b) := by
  intro wd h
  have hw : sw ++ 0x60#7 ++ 0x4#6 ++ d ++ a ++ b = wd := Option.some.inj h
  have h0 : fieldOf wd 24 7 = 0x60#7 := by rw [← hw, fieldOf, fieldHi _ _ _ (by decide), fieldHi _ _ _ (by decide), fieldHi _ _ _ (by decide), fieldHi _ _ _ (by decide), fieldLo _ _ _ (by decide)]; rfl
  have h1 : fieldOf wd 18 6 = 0x4#6 := by rw [← hw, fieldOf, fieldHi _ _ _ (by decide), fieldHi _ _ _ (by decide), fieldHi _ _ _ (by decide), fieldLo _ _ _ (by decide)]; rfl
  have h2 : fieldOf wd 31 1 = sw := by rw [← hw, fieldOf, fieldHi _ _ _ (by decide), fieldHi _ _ _ (by decide), fieldHi _ _ _ (by decide), fieldHi _ _ _ (by decide), fieldHi _ _ _ (by decide), fieldAll]
  have h3 : fieldOf wd 12 6 = d := by rw [← hw, fieldOf, fieldHi _ _ _ (by decide), fieldHi _ _ _ (by decide), fieldLo _ _ _ (by decide), fieldAll]
  have h4 : fieldOf wd 6 6 = a := by rw [← hw, fieldOf, fieldHi _ _ _ (by decide), fieldLo _ _ _ (by decide), fieldAll]
  have h5 : fieldOf wd 0 6 = b := by rw [← hw, fieldOf, fieldLo _ _ _ (by decide), fieldAll]
  simp [decode, decodeCompound, decode60, h0, h1, h2, h3, h4, h5]

theorem Encoding.and (sw : BitVec 1) (d a b : BitVec 6) : Encoding.Statement (.and sw d a b) := by
  intro wd h
  have hw : sw ++ 0x60#7 ++ 0x5#6 ++ d ++ a ++ b = wd := Option.some.inj h
  have h0 : fieldOf wd 24 7 = 0x60#7 := by rw [← hw, fieldOf, fieldHi _ _ _ (by decide), fieldHi _ _ _ (by decide), fieldHi _ _ _ (by decide), fieldHi _ _ _ (by decide), fieldLo _ _ _ (by decide)]; rfl
  have h1 : fieldOf wd 18 6 = 0x5#6 := by rw [← hw, fieldOf, fieldHi _ _ _ (by decide), fieldHi _ _ _ (by decide), fieldHi _ _ _ (by decide), fieldLo _ _ _ (by decide)]; rfl
  have h2 : fieldOf wd 31 1 = sw := by rw [← hw, fieldOf, fieldHi _ _ _ (by decide), fieldHi _ _ _ (by decide), fieldHi _ _ _ (by decide), fieldHi _ _ _ (by decide), fieldHi _ _ _ (by decide), fieldAll]
  have h3 : fieldOf wd 12 6 = d := by rw [← hw, fieldOf, fieldHi _ _ _ (by decide), fieldHi _ _ _ (by decide), fieldLo _ _ _ (by decide), fieldAll]
  have h4 : fieldOf wd 6 6 = a := by rw [← hw, fieldOf, fieldHi _ _ _ (by decide), fieldLo _ _ _ (by decide), fieldAll]
  have h5 : fieldOf wd 0 6 = b := by rw [← hw, fieldOf, fieldLo _ _ _ (by decide), fieldAll]
  simp [decode, decodeCompound, decode60, h0, h1, h2, h3, h4, h5]

theorem Encoding.or (sw : BitVec 1) (d a b : BitVec 6) : Encoding.Statement (.or sw d a b) := by
  intro wd h
  have hw : sw ++ 0x60#7 ++ 0x6#6 ++ d ++ a ++ b = wd := Option.some.inj h
  have h0 : fieldOf wd 24 7 = 0x60#7 := by rw [← hw, fieldOf, fieldHi _ _ _ (by decide), fieldHi _ _ _ (by decide), fieldHi _ _ _ (by decide), fieldHi _ _ _ (by decide), fieldLo _ _ _ (by decide)]; rfl
  have h1 : fieldOf wd 18 6 = 0x6#6 := by rw [← hw, fieldOf, fieldHi _ _ _ (by decide), fieldHi _ _ _ (by decide), fieldHi _ _ _ (by decide), fieldLo _ _ _ (by decide)]; rfl
  have h2 : fieldOf wd 31 1 = sw := by rw [← hw, fieldOf, fieldHi _ _ _ (by decide), fieldHi _ _ _ (by decide), fieldHi _ _ _ (by decide), fieldHi _ _ _ (by decide), fieldHi _ _ _ (by decide), fieldAll]
  have h3 : fieldOf wd 12 6 = d := by rw [← hw, fieldOf, fieldHi _ _ _ (by decide), fieldHi _ _ _ (by decide), fieldLo _ _ _ (by decide), fieldAll]
  have h4 : fieldOf wd 6 6 = a := by rw [← hw, fieldOf, fieldHi _ _ _ (by decide), fieldLo _ _ _ (by decide), fieldAll]
  have h5 : fieldOf wd 0 6 = b := by rw [← hw, fieldOf, fieldLo _ _ _ (by decide), fieldAll]
  simp [decode, decodeCompound, decode60, h0, h1, h2, h3, h4, h5]

theorem Encoding.xor (sw : BitVec 1) (d a b : BitVec 6) : Encoding.Statement (.xor sw d a b) := by
  intro wd h
  have hw : sw ++ 0x60#7 ++ 0x7#6 ++ d ++ a ++ b = wd := Option.some.inj h
  have h0 : fieldOf wd 24 7 = 0x60#7 := by rw [← hw, fieldOf, fieldHi _ _ _ (by decide), fieldHi _ _ _ (by decide), fieldHi _ _ _ (by decide), fieldHi _ _ _ (by decide), fieldLo _ _ _ (by decide)]; rfl
  have h1 : fieldOf wd 18 6 = 0x7#6 := by rw [← hw, fieldOf, fieldHi _ _ _ (by decide), fieldHi _ _ _ (by decide), fieldHi _ _ _ (by decide), fieldLo _ _ _ (by decide)]; rfl
  have h2 : fieldOf wd 31 1 = sw := by rw [← hw, fieldOf, fieldHi _ _ _ (by decide), fieldHi _ _ _ (by decide), fieldHi _ _ _ (by decide), fieldHi _ _ _ (by decide), fieldHi _ _ _ (by decide), fieldAll]
  have h3 : fieldOf wd 12 6 = d := by rw [← hw, fieldOf, fieldHi _ _ _ (by decide), fieldHi _ _ _ (by decide), fieldLo _ _ _ (by decide), fieldAll]
  have h4 : fieldOf wd 6 6 = a := by rw [← hw, fieldOf, fieldHi _ _ _ (by decide), fieldLo _ _ _ (by decide), fieldAll]
  have h5 : fieldOf wd 0 6 = b := by rw [← hw, fieldOf, fieldLo _ _ _ (by decide), fieldAll]
  simp [decode, decodeCompound, decode60, h0, h1, h2, h3, h4, h5]

theorem Encoding.andn (sw : BitVec 1) (d a b : BitVec 6) : Encoding.Statement (.andn sw d a b) := by
  intro wd h
  have hw : sw ++ 0x60#7 ++ 0x8#6 ++ d ++ a ++ b = wd := Option.some.inj h
  have h0 : fieldOf wd 24 7 = 0x60#7 := by rw [← hw, fieldOf, fieldHi _ _ _ (by decide), fieldHi _ _ _ (by decide), fieldHi _ _ _ (by decide), fieldHi _ _ _ (by decide), fieldLo _ _ _ (by decide)]; rfl
  have h1 : fieldOf wd 18 6 = 0x8#6 := by rw [← hw, fieldOf, fieldHi _ _ _ (by decide), fieldHi _ _ _ (by decide), fieldHi _ _ _ (by decide), fieldLo _ _ _ (by decide)]; rfl
  have h2 : fieldOf wd 31 1 = sw := by rw [← hw, fieldOf, fieldHi _ _ _ (by decide), fieldHi _ _ _ (by decide), fieldHi _ _ _ (by decide), fieldHi _ _ _ (by decide), fieldHi _ _ _ (by decide), fieldAll]
  have h3 : fieldOf wd 12 6 = d := by rw [← hw, fieldOf, fieldHi _ _ _ (by decide), fieldHi _ _ _ (by decide), fieldLo _ _ _ (by decide), fieldAll]
  have h4 : fieldOf wd 6 6 = a := by rw [← hw, fieldOf, fieldHi _ _ _ (by decide), fieldLo _ _ _ (by decide), fieldAll]
  have h5 : fieldOf wd 0 6 = b := by rw [← hw, fieldOf, fieldLo _ _ _ (by decide), fieldAll]
  simp [decode, decodeCompound, decode60, h0, h1, h2, h3, h4, h5]

theorem Encoding.shl (sw : BitVec 1) (d a b : BitVec 6) : Encoding.Statement (.shl sw d a b) := by
  intro wd h
  have hw : sw ++ 0x60#7 ++ 0x9#6 ++ d ++ a ++ b = wd := Option.some.inj h
  have h0 : fieldOf wd 24 7 = 0x60#7 := by rw [← hw, fieldOf, fieldHi _ _ _ (by decide), fieldHi _ _ _ (by decide), fieldHi _ _ _ (by decide), fieldHi _ _ _ (by decide), fieldLo _ _ _ (by decide)]; rfl
  have h1 : fieldOf wd 18 6 = 0x9#6 := by rw [← hw, fieldOf, fieldHi _ _ _ (by decide), fieldHi _ _ _ (by decide), fieldHi _ _ _ (by decide), fieldLo _ _ _ (by decide)]; rfl
  have h2 : fieldOf wd 31 1 = sw := by rw [← hw, fieldOf, fieldHi _ _ _ (by decide), fieldHi _ _ _ (by decide), fieldHi _ _ _ (by decide), fieldHi _ _ _ (by decide), fieldHi _ _ _ (by decide), fieldAll]
  have h3 : fieldOf wd 12 6 = d := by rw [← hw, fieldOf, fieldHi _ _ _ (by decide), fieldHi _ _ _ (by decide), fieldLo _ _ _ (by decide), fieldAll]
  have h4 : fieldOf wd 6 6 = a := by rw [← hw, fieldOf, fieldHi _ _ _ (by decide), fieldLo _ _ _ (by decide), fieldAll]
  have h5 : fieldOf wd 0 6 = b := by rw [← hw, fieldOf, fieldLo _ _ _ (by decide), fieldAll]
  simp [decode, decodeCompound, decode60, h0, h1, h2, h3, h4, h5]

theorem Encoding.shr (sw : BitVec 1) (d a b : BitVec 6) : Encoding.Statement (.shr sw d a b) := by
  intro wd h
  have hw : sw ++ 0x60#7 ++ 0xA#6 ++ d ++ a ++ b = wd := Option.some.inj h
  have h0 : fieldOf wd 24 7 = 0x60#7 := by rw [← hw, fieldOf, fieldHi _ _ _ (by decide), fieldHi _ _ _ (by decide), fieldHi _ _ _ (by decide), fieldHi _ _ _ (by decide), fieldLo _ _ _ (by decide)]; rfl
  have h1 : fieldOf wd 18 6 = 0xA#6 := by rw [← hw, fieldOf, fieldHi _ _ _ (by decide), fieldHi _ _ _ (by decide), fieldHi _ _ _ (by decide), fieldLo _ _ _ (by decide)]; rfl
  have h2 : fieldOf wd 31 1 = sw := by rw [← hw, fieldOf, fieldHi _ _ _ (by decide), fieldHi _ _ _ (by decide), fieldHi _ _ _ (by decide), fieldHi _ _ _ (by decide), fieldHi _ _ _ (by decide), fieldAll]
  have h3 : fieldOf wd 12 6 = d := by rw [← hw, fieldOf, fieldHi _ _ _ (by decide), fieldHi _ _ _ (by decide), fieldLo _ _ _ (by decide), fieldAll]
  have h4 : fieldOf wd 6 6 = a := by rw [← hw, fieldOf, fieldHi _ _ _ (by decide), fieldLo _ _ _ (by decide), fieldAll]
  have h5 : fieldOf wd 0 6 = b := by rw [← hw, fieldOf, fieldLo _ _ _ (by decide), fieldAll]
  simp [decode, decodeCompound, decode60, h0, h1, h2, h3, h4, h5]

theorem Encoding.sar (sw : BitVec 1) (d a b : BitVec 6) : Encoding.Statement (.sar sw d a b) := by
  intro wd h
  have hw : sw ++ 0x60#7 ++ 0xB#6 ++ d ++ a ++ b = wd := Option.some.inj h
  have h0 : fieldOf wd 24 7 = 0x60#7 := by rw [← hw, fieldOf, fieldHi _ _ _ (by decide), fieldHi _ _ _ (by decide), fieldHi _ _ _ (by decide), fieldHi _ _ _ (by decide), fieldLo _ _ _ (by decide)]; rfl
  have h1 : fieldOf wd 18 6 = 0xB#6 := by rw [← hw, fieldOf, fieldHi _ _ _ (by decide), fieldHi _ _ _ (by decide), fieldHi _ _ _ (by decide), fieldLo _ _ _ (by decide)]; rfl
  have h2 : fieldOf wd 31 1 = sw := by rw [← hw, fieldOf, fieldHi _ _ _ (by decide), fieldHi _ _ _ (by decide), fieldHi _ _ _ (by decide), fieldHi _ _ _ (by decide), fieldHi _ _ _ (by decide), fieldAll]
  have h3 : fieldOf wd 12 6 = d := by rw [← hw, fieldOf, fieldHi _ _ _ (by decide), fieldHi _ _ _ (by decide), fieldLo _ _ _ (by decide), fieldAll]
  have h4 : fieldOf wd 6 6 = a := by rw [← hw, fieldOf, fieldHi _ _ _ (by decide), fieldLo _ _ _ (by decide), fieldAll]
  have h5 : fieldOf wd 0 6 = b := by rw [← hw, fieldOf, fieldLo _ _ _ (by decide), fieldAll]
  simp [decode, decodeCompound, decode60, h0, h1, h2, h3, h4, h5]

theorem Encoding.shli (sw : BitVec 1) (d a n : BitVec 6) : Encoding.Statement (.shli sw d a n) := by
  intro wd h
  have hw : sw ++ 0x60#7 ++ 0xC#6 ++ d ++ a ++ n = wd := Option.some.inj h
  have h0 : fieldOf wd 24 7 = 0x60#7 := by rw [← hw, fieldOf, fieldHi _ _ _ (by decide), fieldHi _ _ _ (by decide), fieldHi _ _ _ (by decide), fieldHi _ _ _ (by decide), fieldLo _ _ _ (by decide)]; rfl
  have h1 : fieldOf wd 18 6 = 0xC#6 := by rw [← hw, fieldOf, fieldHi _ _ _ (by decide), fieldHi _ _ _ (by decide), fieldHi _ _ _ (by decide), fieldLo _ _ _ (by decide)]; rfl
  have h2 : fieldOf wd 31 1 = sw := by rw [← hw, fieldOf, fieldHi _ _ _ (by decide), fieldHi _ _ _ (by decide), fieldHi _ _ _ (by decide), fieldHi _ _ _ (by decide), fieldHi _ _ _ (by decide), fieldAll]
  have h3 : fieldOf wd 12 6 = d := by rw [← hw, fieldOf, fieldHi _ _ _ (by decide), fieldHi _ _ _ (by decide), fieldLo _ _ _ (by decide), fieldAll]
  have h4 : fieldOf wd 6 6 = a := by rw [← hw, fieldOf, fieldHi _ _ _ (by decide), fieldLo _ _ _ (by decide), fieldAll]
  have h5 : fieldOf wd 0 6 = n := by rw [← hw, fieldOf, fieldLo _ _ _ (by decide), fieldAll]
  simp [decode, decodeCompound, decode60, h0, h1, h2, h3, h4, h5]

theorem Encoding.shri (sw : BitVec 1) (d a n : BitVec 6) : Encoding.Statement (.shri sw d a n) := by
  intro wd h
  have hw : sw ++ 0x60#7 ++ 0xD#6 ++ d ++ a ++ n = wd := Option.some.inj h
  have h0 : fieldOf wd 24 7 = 0x60#7 := by rw [← hw, fieldOf, fieldHi _ _ _ (by decide), fieldHi _ _ _ (by decide), fieldHi _ _ _ (by decide), fieldHi _ _ _ (by decide), fieldLo _ _ _ (by decide)]; rfl
  have h1 : fieldOf wd 18 6 = 0xD#6 := by rw [← hw, fieldOf, fieldHi _ _ _ (by decide), fieldHi _ _ _ (by decide), fieldHi _ _ _ (by decide), fieldLo _ _ _ (by decide)]; rfl
  have h2 : fieldOf wd 31 1 = sw := by rw [← hw, fieldOf, fieldHi _ _ _ (by decide), fieldHi _ _ _ (by decide), fieldHi _ _ _ (by decide), fieldHi _ _ _ (by decide), fieldHi _ _ _ (by decide), fieldAll]
  have h3 : fieldOf wd 12 6 = d := by rw [← hw, fieldOf, fieldHi _ _ _ (by decide), fieldHi _ _ _ (by decide), fieldLo _ _ _ (by decide), fieldAll]
  have h4 : fieldOf wd 6 6 = a := by rw [← hw, fieldOf, fieldHi _ _ _ (by decide), fieldLo _ _ _ (by decide), fieldAll]
  have h5 : fieldOf wd 0 6 = n := by rw [← hw, fieldOf, fieldLo _ _ _ (by decide), fieldAll]
  simp [decode, decodeCompound, decode60, h0, h1, h2, h3, h4, h5]

theorem Encoding.sari (sw : BitVec 1) (d a n : BitVec 6) : Encoding.Statement (.sari sw d a n) := by
  intro wd h
  have hw : sw ++ 0x60#7 ++ 0xE#6 ++ d ++ a ++ n = wd := Option.some.inj h
  have h0 : fieldOf wd 24 7 = 0x60#7 := by rw [← hw, fieldOf, fieldHi _ _ _ (by decide), fieldHi _ _ _ (by decide), fieldHi _ _ _ (by decide), fieldHi _ _ _ (by decide), fieldLo _ _ _ (by decide)]; rfl
  have h1 : fieldOf wd 18 6 = 0xE#6 := by rw [← hw, fieldOf, fieldHi _ _ _ (by decide), fieldHi _ _ _ (by decide), fieldHi _ _ _ (by decide), fieldLo _ _ _ (by decide)]; rfl
  have h2 : fieldOf wd 31 1 = sw := by rw [← hw, fieldOf, fieldHi _ _ _ (by decide), fieldHi _ _ _ (by decide), fieldHi _ _ _ (by decide), fieldHi _ _ _ (by decide), fieldHi _ _ _ (by decide), fieldAll]
  have h3 : fieldOf wd 12 6 = d := by rw [← hw, fieldOf, fieldHi _ _ _ (by decide), fieldHi _ _ _ (by decide), fieldLo _ _ _ (by decide), fieldAll]
  have h4 : fieldOf wd 6 6 = a := by rw [← hw, fieldOf, fieldHi _ _ _ (by decide), fieldLo _ _ _ (by decide), fieldAll]
  have h5 : fieldOf wd 0 6 = n := by rw [← hw, fieldOf, fieldLo _ _ _ (by decide), fieldAll]
  simp [decode, decodeCompound, decode60, h0, h1, h2, h3, h4, h5]

theorem Encoding.slt (sw : BitVec 1) (d a b : BitVec 6) : Encoding.Statement (.slt sw d a b) := by
  intro wd h
  have hw : sw ++ 0x60#7 ++ 0xF#6 ++ d ++ a ++ b = wd := Option.some.inj h
  have h0 : fieldOf wd 24 7 = 0x60#7 := by rw [← hw, fieldOf, fieldHi _ _ _ (by decide), fieldHi _ _ _ (by decide), fieldHi _ _ _ (by decide), fieldHi _ _ _ (by decide), fieldLo _ _ _ (by decide)]; rfl
  have h1 : fieldOf wd 18 6 = 0xF#6 := by rw [← hw, fieldOf, fieldHi _ _ _ (by decide), fieldHi _ _ _ (by decide), fieldHi _ _ _ (by decide), fieldLo _ _ _ (by decide)]; rfl
  have h2 : fieldOf wd 31 1 = sw := by rw [← hw, fieldOf, fieldHi _ _ _ (by decide), fieldHi _ _ _ (by decide), fieldHi _ _ _ (by decide), fieldHi _ _ _ (by decide), fieldHi _ _ _ (by decide), fieldAll]
  have h3 : fieldOf wd 12 6 = d := by rw [← hw, fieldOf, fieldHi _ _ _ (by decide), fieldHi _ _ _ (by decide), fieldLo _ _ _ (by decide), fieldAll]
  have h4 : fieldOf wd 6 6 = a := by rw [← hw, fieldOf, fieldHi _ _ _ (by decide), fieldLo _ _ _ (by decide), fieldAll]
  have h5 : fieldOf wd 0 6 = b := by rw [← hw, fieldOf, fieldLo _ _ _ (by decide), fieldAll]
  simp [decode, decodeCompound, decode60, h0, h1, h2, h3, h4, h5]

theorem Encoding.sltu (sw : BitVec 1) (d a b : BitVec 6) : Encoding.Statement (.sltu sw d a b) := by
  intro wd h
  have hw : sw ++ 0x60#7 ++ 0x10#6 ++ d ++ a ++ b = wd := Option.some.inj h
  have h0 : fieldOf wd 24 7 = 0x60#7 := by rw [← hw, fieldOf, fieldHi _ _ _ (by decide), fieldHi _ _ _ (by decide), fieldHi _ _ _ (by decide), fieldHi _ _ _ (by decide), fieldLo _ _ _ (by decide)]; rfl
  have h1 : fieldOf wd 18 6 = 0x10#6 := by rw [← hw, fieldOf, fieldHi _ _ _ (by decide), fieldHi _ _ _ (by decide), fieldHi _ _ _ (by decide), fieldLo _ _ _ (by decide)]; rfl
  have h2 : fieldOf wd 31 1 = sw := by rw [← hw, fieldOf, fieldHi _ _ _ (by decide), fieldHi _ _ _ (by decide), fieldHi _ _ _ (by decide), fieldHi _ _ _ (by decide), fieldHi _ _ _ (by decide), fieldAll]
  have h3 : fieldOf wd 12 6 = d := by rw [← hw, fieldOf, fieldHi _ _ _ (by decide), fieldHi _ _ _ (by decide), fieldLo _ _ _ (by decide), fieldAll]
  have h4 : fieldOf wd 6 6 = a := by rw [← hw, fieldOf, fieldHi _ _ _ (by decide), fieldLo _ _ _ (by decide), fieldAll]
  have h5 : fieldOf wd 0 6 = b := by rw [← hw, fieldOf, fieldLo _ _ _ (by decide), fieldAll]
  simp [decode, decodeCompound, decode60, h0, h1, h2, h3, h4, h5]

theorem Encoding.min (sw : BitVec 1) (d a b : BitVec 6) : Encoding.Statement (.min sw d a b) := by
  intro wd h
  have hw : sw ++ 0x60#7 ++ 0x11#6 ++ d ++ a ++ b = wd := Option.some.inj h
  have h0 : fieldOf wd 24 7 = 0x60#7 := by rw [← hw, fieldOf, fieldHi _ _ _ (by decide), fieldHi _ _ _ (by decide), fieldHi _ _ _ (by decide), fieldHi _ _ _ (by decide), fieldLo _ _ _ (by decide)]; rfl
  have h1 : fieldOf wd 18 6 = 0x11#6 := by rw [← hw, fieldOf, fieldHi _ _ _ (by decide), fieldHi _ _ _ (by decide), fieldHi _ _ _ (by decide), fieldLo _ _ _ (by decide)]; rfl
  have h2 : fieldOf wd 31 1 = sw := by rw [← hw, fieldOf, fieldHi _ _ _ (by decide), fieldHi _ _ _ (by decide), fieldHi _ _ _ (by decide), fieldHi _ _ _ (by decide), fieldHi _ _ _ (by decide), fieldAll]
  have h3 : fieldOf wd 12 6 = d := by rw [← hw, fieldOf, fieldHi _ _ _ (by decide), fieldHi _ _ _ (by decide), fieldLo _ _ _ (by decide), fieldAll]
  have h4 : fieldOf wd 6 6 = a := by rw [← hw, fieldOf, fieldHi _ _ _ (by decide), fieldLo _ _ _ (by decide), fieldAll]
  have h5 : fieldOf wd 0 6 = b := by rw [← hw, fieldOf, fieldLo _ _ _ (by decide), fieldAll]
  simp [decode, decodeCompound, decode60, h0, h1, h2, h3, h4, h5]

theorem Encoding.max (sw : BitVec 1) (d a b : BitVec 6) : Encoding.Statement (.max sw d a b) := by
  intro wd h
  have hw : sw ++ 0x60#7 ++ 0x12#6 ++ d ++ a ++ b = wd := Option.some.inj h
  have h0 : fieldOf wd 24 7 = 0x60#7 := by rw [← hw, fieldOf, fieldHi _ _ _ (by decide), fieldHi _ _ _ (by decide), fieldHi _ _ _ (by decide), fieldHi _ _ _ (by decide), fieldLo _ _ _ (by decide)]; rfl
  have h1 : fieldOf wd 18 6 = 0x12#6 := by rw [← hw, fieldOf, fieldHi _ _ _ (by decide), fieldHi _ _ _ (by decide), fieldHi _ _ _ (by decide), fieldLo _ _ _ (by decide)]; rfl
  have h2 : fieldOf wd 31 1 = sw := by rw [← hw, fieldOf, fieldHi _ _ _ (by decide), fieldHi _ _ _ (by decide), fieldHi _ _ _ (by decide), fieldHi _ _ _ (by decide), fieldHi _ _ _ (by decide), fieldAll]
  have h3 : fieldOf wd 12 6 = d := by rw [← hw, fieldOf, fieldHi _ _ _ (by decide), fieldHi _ _ _ (by decide), fieldLo _ _ _ (by decide), fieldAll]
  have h4 : fieldOf wd 6 6 = a := by rw [← hw, fieldOf, fieldHi _ _ _ (by decide), fieldLo _ _ _ (by decide), fieldAll]
  have h5 : fieldOf wd 0 6 = b := by rw [← hw, fieldOf, fieldLo _ _ _ (by decide), fieldAll]
  simp [decode, decodeCompound, decode60, h0, h1, h2, h3, h4, h5]

theorem Encoding.minu (sw : BitVec 1) (d a b : BitVec 6) : Encoding.Statement (.minu sw d a b) := by
  intro wd h
  have hw : sw ++ 0x60#7 ++ 0x13#6 ++ d ++ a ++ b = wd := Option.some.inj h
  have h0 : fieldOf wd 24 7 = 0x60#7 := by rw [← hw, fieldOf, fieldHi _ _ _ (by decide), fieldHi _ _ _ (by decide), fieldHi _ _ _ (by decide), fieldHi _ _ _ (by decide), fieldLo _ _ _ (by decide)]; rfl
  have h1 : fieldOf wd 18 6 = 0x13#6 := by rw [← hw, fieldOf, fieldHi _ _ _ (by decide), fieldHi _ _ _ (by decide), fieldHi _ _ _ (by decide), fieldLo _ _ _ (by decide)]; rfl
  have h2 : fieldOf wd 31 1 = sw := by rw [← hw, fieldOf, fieldHi _ _ _ (by decide), fieldHi _ _ _ (by decide), fieldHi _ _ _ (by decide), fieldHi _ _ _ (by decide), fieldHi _ _ _ (by decide), fieldAll]
  have h3 : fieldOf wd 12 6 = d := by rw [← hw, fieldOf, fieldHi _ _ _ (by decide), fieldHi _ _ _ (by decide), fieldLo _ _ _ (by decide), fieldAll]
  have h4 : fieldOf wd 6 6 = a := by rw [← hw, fieldOf, fieldHi _ _ _ (by decide), fieldLo _ _ _ (by decide), fieldAll]
  have h5 : fieldOf wd 0 6 = b := by rw [← hw, fieldOf, fieldLo _ _ _ (by decide), fieldAll]
  simp [decode, decodeCompound, decode60, h0, h1, h2, h3, h4, h5]

theorem Encoding.maxu (sw : BitVec 1) (d a b : BitVec 6) : Encoding.Statement (.maxu sw d a b) := by
  intro wd h
  have hw : sw ++ 0x60#7 ++ 0x14#6 ++ d ++ a ++ b = wd := Option.some.inj h
  have h0 : fieldOf wd 24 7 = 0x60#7 := by rw [← hw, fieldOf, fieldHi _ _ _ (by decide), fieldHi _ _ _ (by decide), fieldHi _ _ _ (by decide), fieldHi _ _ _ (by decide), fieldLo _ _ _ (by decide)]; rfl
  have h1 : fieldOf wd 18 6 = 0x14#6 := by rw [← hw, fieldOf, fieldHi _ _ _ (by decide), fieldHi _ _ _ (by decide), fieldHi _ _ _ (by decide), fieldLo _ _ _ (by decide)]; rfl
  have h2 : fieldOf wd 31 1 = sw := by rw [← hw, fieldOf, fieldHi _ _ _ (by decide), fieldHi _ _ _ (by decide), fieldHi _ _ _ (by decide), fieldHi _ _ _ (by decide), fieldHi _ _ _ (by decide), fieldAll]
  have h3 : fieldOf wd 12 6 = d := by rw [← hw, fieldOf, fieldHi _ _ _ (by decide), fieldHi _ _ _ (by decide), fieldLo _ _ _ (by decide), fieldAll]
  have h4 : fieldOf wd 6 6 = a := by rw [← hw, fieldOf, fieldHi _ _ _ (by decide), fieldLo _ _ _ (by decide), fieldAll]
  have h5 : fieldOf wd 0 6 = b := by rw [← hw, fieldOf, fieldLo _ _ _ (by decide), fieldAll]
  simp [decode, decodeCompound, decode60, h0, h1, h2, h3, h4, h5]

theorem Encoding.popc (sw : BitVec 1) (d a : BitVec 6) : Encoding.Statement (.popc sw d a) := by
  intro wd h
  have hw : sw ++ 0x60#7 ++ 0x15#6 ++ d ++ a ++ 0x0#6 = wd := Option.some.inj h
  have h0 : fieldOf wd 24 7 = 0x60#7 := by rw [← hw, fieldOf, fieldHi _ _ _ (by decide), fieldHi _ _ _ (by decide), fieldHi _ _ _ (by decide), fieldHi _ _ _ (by decide), fieldLo _ _ _ (by decide)]; rfl
  have h1 : fieldOf wd 18 6 = 0x15#6 := by rw [← hw, fieldOf, fieldHi _ _ _ (by decide), fieldHi _ _ _ (by decide), fieldHi _ _ _ (by decide), fieldLo _ _ _ (by decide)]; rfl
  have h2 : fieldOf wd 0 6 = 0x0#6 := by rw [← hw, fieldOf, fieldLo _ _ _ (by decide)]; rfl
  have h3 : fieldOf wd 31 1 = sw := by rw [← hw, fieldOf, fieldHi _ _ _ (by decide), fieldHi _ _ _ (by decide), fieldHi _ _ _ (by decide), fieldHi _ _ _ (by decide), fieldHi _ _ _ (by decide), fieldAll]
  have h4 : fieldOf wd 12 6 = d := by rw [← hw, fieldOf, fieldHi _ _ _ (by decide), fieldHi _ _ _ (by decide), fieldLo _ _ _ (by decide), fieldAll]
  have h5 : fieldOf wd 6 6 = a := by rw [← hw, fieldOf, fieldHi _ _ _ (by decide), fieldLo _ _ _ (by decide), fieldAll]
  simp [decode, decodeCompound, decode60, h0, h1, h2, h3, h4, h5]

theorem Encoding.clz (sw : BitVec 1) (d a : BitVec 6) : Encoding.Statement (.clz sw d a) := by
  intro wd h
  have hw : sw ++ 0x60#7 ++ 0x16#6 ++ d ++ a ++ 0x0#6 = wd := Option.some.inj h
  have h0 : fieldOf wd 24 7 = 0x60#7 := by rw [← hw, fieldOf, fieldHi _ _ _ (by decide), fieldHi _ _ _ (by decide), fieldHi _ _ _ (by decide), fieldHi _ _ _ (by decide), fieldLo _ _ _ (by decide)]; rfl
  have h1 : fieldOf wd 18 6 = 0x16#6 := by rw [← hw, fieldOf, fieldHi _ _ _ (by decide), fieldHi _ _ _ (by decide), fieldHi _ _ _ (by decide), fieldLo _ _ _ (by decide)]; rfl
  have h2 : fieldOf wd 0 6 = 0x0#6 := by rw [← hw, fieldOf, fieldLo _ _ _ (by decide)]; rfl
  have h3 : fieldOf wd 31 1 = sw := by rw [← hw, fieldOf, fieldHi _ _ _ (by decide), fieldHi _ _ _ (by decide), fieldHi _ _ _ (by decide), fieldHi _ _ _ (by decide), fieldHi _ _ _ (by decide), fieldAll]
  have h4 : fieldOf wd 12 6 = d := by rw [← hw, fieldOf, fieldHi _ _ _ (by decide), fieldHi _ _ _ (by decide), fieldLo _ _ _ (by decide), fieldAll]
  have h5 : fieldOf wd 6 6 = a := by rw [← hw, fieldOf, fieldHi _ _ _ (by decide), fieldLo _ _ _ (by decide), fieldAll]
  simp [decode, decodeCompound, decode60, h0, h1, h2, h3, h4, h5]

theorem Encoding.ctz (sw : BitVec 1) (d a : BitVec 6) : Encoding.Statement (.ctz sw d a) := by
  intro wd h
  have hw : sw ++ 0x60#7 ++ 0x17#6 ++ d ++ a ++ 0x0#6 = wd := Option.some.inj h
  have h0 : fieldOf wd 24 7 = 0x60#7 := by rw [← hw, fieldOf, fieldHi _ _ _ (by decide), fieldHi _ _ _ (by decide), fieldHi _ _ _ (by decide), fieldHi _ _ _ (by decide), fieldLo _ _ _ (by decide)]; rfl
  have h1 : fieldOf wd 18 6 = 0x17#6 := by rw [← hw, fieldOf, fieldHi _ _ _ (by decide), fieldHi _ _ _ (by decide), fieldHi _ _ _ (by decide), fieldLo _ _ _ (by decide)]; rfl
  have h2 : fieldOf wd 0 6 = 0x0#6 := by rw [← hw, fieldOf, fieldLo _ _ _ (by decide)]; rfl
  have h3 : fieldOf wd 31 1 = sw := by rw [← hw, fieldOf, fieldHi _ _ _ (by decide), fieldHi _ _ _ (by decide), fieldHi _ _ _ (by decide), fieldHi _ _ _ (by decide), fieldHi _ _ _ (by decide), fieldAll]
  have h4 : fieldOf wd 12 6 = d := by rw [← hw, fieldOf, fieldHi _ _ _ (by decide), fieldHi _ _ _ (by decide), fieldLo _ _ _ (by decide), fieldAll]
  have h5 : fieldOf wd 6 6 = a := by rw [← hw, fieldOf, fieldHi _ _ _ (by decide), fieldLo _ _ _ (by decide), fieldAll]
  simp [decode, decodeCompound, decode60, h0, h1, h2, h3, h4, h5]

theorem Encoding.addi (sw : BitVec 1) (x a : BitVec 6) (i : BitVec 12) : Encoding.Statement (.addi sw x a i) := by
  intro wd h
  have hw : sw ++ 0x61#7 ++ x ++ a ++ i = wd := Option.some.inj h
  have h0 : fieldOf wd 24 7 = 0x61#7 := by rw [← hw, fieldOf, fieldHi _ _ _ (by decide), fieldHi _ _ _ (by decide), fieldHi _ _ _ (by decide), fieldLo _ _ _ (by decide)]; rfl
  have h1 : fieldOf wd 31 1 = sw := by rw [← hw, fieldOf, fieldHi _ _ _ (by decide), fieldHi _ _ _ (by decide), fieldHi _ _ _ (by decide), fieldHi _ _ _ (by decide), fieldAll]
  have h2 : fieldOf wd 18 6 = x := by rw [← hw, fieldOf, fieldHi _ _ _ (by decide), fieldHi _ _ _ (by decide), fieldLo _ _ _ (by decide), fieldAll]
  have h3 : fieldOf wd 12 6 = a := by rw [← hw, fieldOf, fieldHi _ _ _ (by decide), fieldLo _ _ _ (by decide), fieldAll]
  have h4 : fieldOf wd 0 12 = i := by rw [← hw, fieldOf, fieldLo _ _ _ (by decide), fieldAll]
  simp [decode, decodeCompound, h0, h1, h2, h3, h4]

theorem Encoding.andi (sw : BitVec 1) (x a : BitVec 6) (i : BitVec 12) : Encoding.Statement (.andi sw x a i) := by
  intro wd h
  have hw : sw ++ 0x62#7 ++ x ++ a ++ i = wd := Option.some.inj h
  have h0 : fieldOf wd 24 7 = 0x62#7 := by rw [← hw, fieldOf, fieldHi _ _ _ (by decide), fieldHi _ _ _ (by decide), fieldHi _ _ _ (by decide), fieldLo _ _ _ (by decide)]; rfl
  have h1 : fieldOf wd 31 1 = sw := by rw [← hw, fieldOf, fieldHi _ _ _ (by decide), fieldHi _ _ _ (by decide), fieldHi _ _ _ (by decide), fieldHi _ _ _ (by decide), fieldAll]
  have h2 : fieldOf wd 18 6 = x := by rw [← hw, fieldOf, fieldHi _ _ _ (by decide), fieldHi _ _ _ (by decide), fieldLo _ _ _ (by decide), fieldAll]
  have h3 : fieldOf wd 12 6 = a := by rw [← hw, fieldOf, fieldHi _ _ _ (by decide), fieldLo _ _ _ (by decide), fieldAll]
  have h4 : fieldOf wd 0 12 = i := by rw [← hw, fieldOf, fieldLo _ _ _ (by decide), fieldAll]
  simp [decode, decodeCompound, h0, h1, h2, h3, h4]

theorem Encoding.ori (sw : BitVec 1) (x a : BitVec 6) (i : BitVec 12) : Encoding.Statement (.ori sw x a i) := by
  intro wd h
  have hw : sw ++ 0x63#7 ++ x ++ a ++ i = wd := Option.some.inj h
  have h0 : fieldOf wd 24 7 = 0x63#7 := by rw [← hw, fieldOf, fieldHi _ _ _ (by decide), fieldHi _ _ _ (by decide), fieldHi _ _ _ (by decide), fieldLo _ _ _ (by decide)]; rfl
  have h1 : fieldOf wd 31 1 = sw := by rw [← hw, fieldOf, fieldHi _ _ _ (by decide), fieldHi _ _ _ (by decide), fieldHi _ _ _ (by decide), fieldHi _ _ _ (by decide), fieldAll]
  have h2 : fieldOf wd 18 6 = x := by rw [← hw, fieldOf, fieldHi _ _ _ (by decide), fieldHi _ _ _ (by decide), fieldLo _ _ _ (by decide), fieldAll]
  have h3 : fieldOf wd 12 6 = a := by rw [← hw, fieldOf, fieldHi _ _ _ (by decide), fieldLo _ _ _ (by decide), fieldAll]
  have h4 : fieldOf wd 0 12 = i := by rw [← hw, fieldOf, fieldLo _ _ _ (by decide), fieldAll]
  simp [decode, decodeCompound, h0, h1, h2, h3, h4]

theorem Encoding.xori (sw : BitVec 1) (x a : BitVec 6) (i : BitVec 12) : Encoding.Statement (.xori sw x a i) := by
  intro wd h
  have hw : sw ++ 0x64#7 ++ x ++ a ++ i = wd := Option.some.inj h
  have h0 : fieldOf wd 24 7 = 0x64#7 := by rw [← hw, fieldOf, fieldHi _ _ _ (by decide), fieldHi _ _ _ (by decide), fieldHi _ _ _ (by decide), fieldLo _ _ _ (by decide)]; rfl
  have h1 : fieldOf wd 31 1 = sw := by rw [← hw, fieldOf, fieldHi _ _ _ (by decide), fieldHi _ _ _ (by decide), fieldHi _ _ _ (by decide), fieldHi _ _ _ (by decide), fieldAll]
  have h2 : fieldOf wd 18 6 = x := by rw [← hw, fieldOf, fieldHi _ _ _ (by decide), fieldHi _ _ _ (by decide), fieldLo _ _ _ (by decide), fieldAll]
  have h3 : fieldOf wd 12 6 = a := by rw [← hw, fieldOf, fieldHi _ _ _ (by decide), fieldLo _ _ _ (by decide), fieldAll]
  have h4 : fieldOf wd 0 12 = i := by rw [← hw, fieldOf, fieldLo _ _ _ (by decide), fieldAll]
  simp [decode, decodeCompound, h0, h1, h2, h3, h4]

theorem Encoding.slti (sw : BitVec 1) (x a : BitVec 6) (i : BitVec 12) : Encoding.Statement (.slti sw x a i) := by
  intro wd h
  have hw : sw ++ 0x65#7 ++ x ++ a ++ i = wd := Option.some.inj h
  have h0 : fieldOf wd 24 7 = 0x65#7 := by rw [← hw, fieldOf, fieldHi _ _ _ (by decide), fieldHi _ _ _ (by decide), fieldHi _ _ _ (by decide), fieldLo _ _ _ (by decide)]; rfl
  have h1 : fieldOf wd 31 1 = sw := by rw [← hw, fieldOf, fieldHi _ _ _ (by decide), fieldHi _ _ _ (by decide), fieldHi _ _ _ (by decide), fieldHi _ _ _ (by decide), fieldAll]
  have h2 : fieldOf wd 18 6 = x := by rw [← hw, fieldOf, fieldHi _ _ _ (by decide), fieldHi _ _ _ (by decide), fieldLo _ _ _ (by decide), fieldAll]
  have h3 : fieldOf wd 12 6 = a := by rw [← hw, fieldOf, fieldHi _ _ _ (by decide), fieldLo _ _ _ (by decide), fieldAll]
  have h4 : fieldOf wd 0 12 = i := by rw [← hw, fieldOf, fieldLo _ _ _ (by decide), fieldAll]
  simp [decode, decodeCompound, h0, h1, h2, h3, h4]

theorem Encoding.sltiu (sw : BitVec 1) (x a : BitVec 6) (i : BitVec 12) : Encoding.Statement (.sltiu sw x a i) := by
  intro wd h
  have hw : sw ++ 0x67#7 ++ x ++ a ++ i = wd := Option.some.inj h
  have h0 : fieldOf wd 24 7 = 0x67#7 := by rw [← hw, fieldOf, fieldHi _ _ _ (by decide), fieldHi _ _ _ (by decide), fieldHi _ _ _ (by decide), fieldLo _ _ _ (by decide)]; rfl
  have h1 : fieldOf wd 31 1 = sw := by rw [← hw, fieldOf, fieldHi _ _ _ (by decide), fieldHi _ _ _ (by decide), fieldHi _ _ _ (by decide), fieldHi _ _ _ (by decide), fieldAll]
  have h2 : fieldOf wd 18 6 = x := by rw [← hw, fieldOf, fieldHi _ _ _ (by decide), fieldHi _ _ _ (by decide), fieldLo _ _ _ (by decide), fieldAll]
  have h3 : fieldOf wd 12 6 = a := by rw [← hw, fieldOf, fieldHi _ _ _ (by decide), fieldLo _ _ _ (by decide), fieldAll]
  have h4 : fieldOf wd 0 12 = i := by rw [← hw, fieldOf, fieldLo _ _ _ (by decide), fieldAll]
  simp [decode, decodeCompound, h0, h1, h2, h3, h4]

theorem Encoding.grd (sw : BitVec 1) (d : BitVec 6) (g : BitVec 8) : Encoding.Statement (.grd sw d g) := by
  intro wd h
  have hw : sw ++ 0x66#7 ++ 0x0#4 ++ d ++ 0x0#6 ++ g = wd := Option.some.inj h
  have h0 : fieldOf wd 24 7 = 0x66#7 := by rw [← hw, fieldOf, fieldHi _ _ _ (by decide), fieldHi _ _ _ (by decide), fieldHi _ _ _ (by decide), fieldHi _ _ _ (by decide), fieldLo _ _ _ (by decide)]; rfl
  have h1 : fieldOf wd 20 4 = 0x0#4 := by rw [← hw, fieldOf, fieldHi _ _ _ (by decide), fieldHi _ _ _ (by decide), fieldHi _ _ _ (by decide), fieldLo _ _ _ (by decide)]; rfl
  have h2 : fieldOf wd 8 6 = 0x0#6 := by rw [← hw, fieldOf, fieldHi _ _ _ (by decide), fieldLo _ _ _ (by decide)]; rfl
  have h3 : fieldOf wd 31 1 = sw := by rw [← hw, fieldOf, fieldHi _ _ _ (by decide), fieldHi _ _ _ (by decide), fieldHi _ _ _ (by decide), fieldHi _ _ _ (by decide), fieldHi _ _ _ (by decide), fieldAll]
  have h4 : fieldOf wd 14 6 = d := by rw [← hw, fieldOf, fieldHi _ _ _ (by decide), fieldHi _ _ _ (by decide), fieldLo _ _ _ (by decide), fieldAll]
  have h5 : fieldOf wd 0 8 = g := by rw [← hw, fieldOf, fieldLo _ _ _ (by decide), fieldAll]
  simp [decode, decodeCompound, decode66, h0, h1, h2, h3, h4, h5]

theorem Encoding.gwr (sw : BitVec 1) (a : BitVec 6) (g : BitVec 8) : Encoding.Statement (.gwr sw a g) := by
  intro wd h
  have hw : sw ++ 0x66#7 ++ 0x40#10 ++ a ++ g = wd := Option.some.inj h
  have h0 : fieldOf wd 24 7 = 0x66#7 := by rw [← hw, fieldOf, fieldHi _ _ _ (by decide), fieldHi _ _ _ (by decide), fieldHi _ _ _ (by decide), fieldLo _ _ _ (by decide)]; rfl
  have h1 : fieldOf wd 20 4 = 0x1#4 := by rw [← hw, fieldOf, fieldHi _ _ _ (by decide), fieldHi _ _ _ (by decide), fieldLo _ _ _ (by decide)]; rfl
  have h2 : fieldOf wd 14 6 = 0x0#6 := by rw [← hw, fieldOf, fieldHi _ _ _ (by decide), fieldHi _ _ _ (by decide), fieldLo _ _ _ (by decide)]; rfl
  have h3 : fieldOf wd 31 1 = sw := by rw [← hw, fieldOf, fieldHi _ _ _ (by decide), fieldHi _ _ _ (by decide), fieldHi _ _ _ (by decide), fieldHi _ _ _ (by decide), fieldAll]
  have h4 : fieldOf wd 8 6 = a := by rw [← hw, fieldOf, fieldHi _ _ _ (by decide), fieldLo _ _ _ (by decide), fieldAll]
  have h5 : fieldOf wd 0 8 = g := by rw [← hw, fieldOf, fieldLo _ _ _ (by decide), fieldAll]
  simp [decode, decodeCompound, decode66, h0, h1, h2, h3, h4, h5]

theorem Encoding.gadd (sw : BitVec 1) (d a : BitVec 6) (g : BitVec 8) : Encoding.Statement (.gadd sw d a g) := by
  intro wd h
  have hw : sw ++ 0x66#7 ++ 0x2#4 ++ d ++ a ++ g = wd := Option.some.inj h
  have h0 : fieldOf wd 24 7 = 0x66#7 := by rw [← hw, fieldOf, fieldHi _ _ _ (by decide), fieldHi _ _ _ (by decide), fieldHi _ _ _ (by decide), fieldHi _ _ _ (by decide), fieldLo _ _ _ (by decide)]; rfl
  have h1 : fieldOf wd 20 4 = 0x2#4 := by rw [← hw, fieldOf, fieldHi _ _ _ (by decide), fieldHi _ _ _ (by decide), fieldHi _ _ _ (by decide), fieldLo _ _ _ (by decide)]; rfl
  have h2 : fieldOf wd 31 1 = sw := by rw [← hw, fieldOf, fieldHi _ _ _ (by decide), fieldHi _ _ _ (by decide), fieldHi _ _ _ (by decide), fieldHi _ _ _ (by decide), fieldHi _ _ _ (by decide), fieldAll]
  have h3 : fieldOf wd 14 6 = d := by rw [← hw, fieldOf, fieldHi _ _ _ (by decide), fieldHi _ _ _ (by decide), fieldLo _ _ _ (by decide), fieldAll]
  have h4 : fieldOf wd 8 6 = a := by rw [← hw, fieldOf, fieldHi _ _ _ (by decide), fieldLo _ _ _ (by decide), fieldAll]
  have h5 : fieldOf wd 0 8 = g := by rw [← hw, fieldOf, fieldLo _ _ _ (by decide), fieldAll]
  simp [decode, decodeCompound, decode66, h0, h1, h2, h3, h4, h5]

theorem Encoding.bez (sw : BitVec 1) (a : BitVec 6) (o : BitVec 18) : Encoding.Statement (.bez sw a o) := by
  intro wd h
  have hw : sw ++ 0x6C#7 ++ a ++ o = wd := Option.some.inj h
  have h0 : fieldOf wd 24 7 = 0x6C#7 := by rw [← hw, fieldOf, fieldHi _ _ _ (by decide), fieldHi _ _ _ (by decide), fieldLo _ _ _ (by decide)]; rfl
  have h1 : fieldOf wd 31 1 = sw := by rw [← hw, fieldOf, fieldHi _ _ _ (by decide), fieldHi _ _ _ (by decide), fieldHi _ _ _ (by decide), fieldAll]
  have h2 : fieldOf wd 18 6 = a := by rw [← hw, fieldOf, fieldHi _ _ _ (by decide), fieldLo _ _ _ (by decide), fieldAll]
  have h3 : fieldOf wd 0 18 = o := by rw [← hw, fieldOf, fieldLo _ _ _ (by decide), fieldAll]
  simp [decode, decodeCompound, h0, h1, h2, h3]

theorem Encoding.bnez (sw : BitVec 1) (a : BitVec 6) (o : BitVec 18) : Encoding.Statement (.bnez sw a o) := by
  intro wd h
  have hw : sw ++ 0x6D#7 ++ a ++ o = wd := Option.some.inj h
  have h0 : fieldOf wd 24 7 = 0x6D#7 := by rw [← hw, fieldOf, fieldHi _ _ _ (by decide), fieldHi _ _ _ (by decide), fieldLo _ _ _ (by decide)]; rfl
  have h1 : fieldOf wd 31 1 = sw := by rw [← hw, fieldOf, fieldHi _ _ _ (by decide), fieldHi _ _ _ (by decide), fieldHi _ _ _ (by decide), fieldAll]
  have h2 : fieldOf wd 18 6 = a := by rw [← hw, fieldOf, fieldHi _ _ _ (by decide), fieldLo _ _ _ (by decide), fieldAll]
  have h3 : fieldOf wd 0 18 = o := by rw [← hw, fieldOf, fieldLo _ _ _ (by decide), fieldAll]
  simp [decode, decodeCompound, h0, h1, h2, h3]

theorem Encoding.bra (sw : BitVec 1) (o : BitVec 18) : Encoding.Statement (.bra sw o) := by
  intro wd h
  have hw : sw ++ 0x6E#7 ++ 0x0#6 ++ o = wd := Option.some.inj h
  have h0 : fieldOf wd 24 7 = 0x6E#7 := by rw [← hw, fieldOf, fieldHi _ _ _ (by decide), fieldHi _ _ _ (by decide), fieldLo _ _ _ (by decide)]; rfl
  have h1 : fieldOf wd 18 3 = 0x0#3 := by rw [← hw, fieldOf, fieldHi _ _ _ (by decide), fieldLo _ _ _ (by decide)]; rfl
  have h2 : fieldOf wd 21 3 = 0x0#3 := by rw [← hw, fieldOf, fieldHi _ _ _ (by decide), fieldLo _ _ _ (by decide)]; rfl
  have h3 : fieldOf wd 31 1 = sw := by rw [← hw, fieldOf, fieldHi _ _ _ (by decide), fieldHi _ _ _ (by decide), fieldHi _ _ _ (by decide), fieldAll]
  have h4 : fieldOf wd 0 18 = o := by rw [← hw, fieldOf, fieldLo _ _ _ (by decide), fieldAll]
  simp [decode, decodeCompound, decode6E, h0, h1, h2, h3, h4]

theorem Encoding.bany (sw : BitVec 1) (k : BitVec 3) (o : BitVec 18) : Encoding.Statement (.bany sw k o) := by
  intro wd h
  have hw : sw ++ 0x6E#7 ++ k ++ 0x1#3 ++ o = wd := Option.some.inj h
  have h0 : fieldOf wd 24 7 = 0x6E#7 := by rw [← hw, fieldOf, fieldHi _ _ _ (by decide), fieldHi _ _ _ (by decide), fieldHi _ _ _ (by decide), fieldLo _ _ _ (by decide)]; rfl
  have h1 : fieldOf wd 18 3 = 0x1#3 := by rw [← hw, fieldOf, fieldHi _ _ _ (by decide), fieldLo _ _ _ (by decide)]; rfl
  have h2 : fieldOf wd 31 1 = sw := by rw [← hw, fieldOf, fieldHi _ _ _ (by decide), fieldHi _ _ _ (by decide), fieldHi _ _ _ (by decide), fieldHi _ _ _ (by decide), fieldAll]
  have h3 : fieldOf wd 21 3 = k := by rw [← hw, fieldOf, fieldHi _ _ _ (by decide), fieldHi _ _ _ (by decide), fieldLo _ _ _ (by decide), fieldAll]
  have h4 : fieldOf wd 0 18 = o := by rw [← hw, fieldOf, fieldLo _ _ _ (by decide), fieldAll]
  simp [decode, decodeCompound, decode6E, h0, h1, h2, h3, h4]

theorem Encoding.ball (sw : BitVec 1) (k : BitVec 3) (o : BitVec 18) : Encoding.Statement (.ball sw k o) := by
  intro wd h
  have hw : sw ++ 0x6E#7 ++ k ++ 0x2#3 ++ o = wd := Option.some.inj h
  have h0 : fieldOf wd 24 7 = 0x6E#7 := by rw [← hw, fieldOf, fieldHi _ _ _ (by decide), fieldHi _ _ _ (by decide), fieldHi _ _ _ (by decide), fieldLo _ _ _ (by decide)]; rfl
  have h1 : fieldOf wd 18 3 = 0x2#3 := by rw [← hw, fieldOf, fieldHi _ _ _ (by decide), fieldLo _ _ _ (by decide)]; rfl
  have h2 : fieldOf wd 31 1 = sw := by rw [← hw, fieldOf, fieldHi _ _ _ (by decide), fieldHi _ _ _ (by decide), fieldHi _ _ _ (by decide), fieldHi _ _ _ (by decide), fieldAll]
  have h3 : fieldOf wd 21 3 = k := by rw [← hw, fieldOf, fieldHi _ _ _ (by decide), fieldHi _ _ _ (by decide), fieldLo _ _ _ (by decide), fieldAll]
  have h4 : fieldOf wd 0 18 = o := by rw [← hw, fieldOf, fieldLo _ _ _ (by decide), fieldAll]
  simp [decode, decodeCompound, decode6E, h0, h1, h2, h3, h4]

theorem Encoding.bnone (sw : BitVec 1) (k : BitVec 3) (o : BitVec 18) : Encoding.Statement (.bnone sw k o) := by
  intro wd h
  have hw : sw ++ 0x6E#7 ++ k ++ 0x3#3 ++ o = wd := Option.some.inj h
  have h0 : fieldOf wd 24 7 = 0x6E#7 := by rw [← hw, fieldOf, fieldHi _ _ _ (by decide), fieldHi _ _ _ (by decide), fieldHi _ _ _ (by decide), fieldLo _ _ _ (by decide)]; rfl
  have h1 : fieldOf wd 18 3 = 0x3#3 := by rw [← hw, fieldOf, fieldHi _ _ _ (by decide), fieldLo _ _ _ (by decide)]; rfl
  have h2 : fieldOf wd 31 1 = sw := by rw [← hw, fieldOf, fieldHi _ _ _ (by decide), fieldHi _ _ _ (by decide), fieldHi _ _ _ (by decide), fieldHi _ _ _ (by decide), fieldAll]
  have h3 : fieldOf wd 21 3 = k := by rw [← hw, fieldOf, fieldHi _ _ _ (by decide), fieldHi _ _ _ (by decide), fieldLo _ _ _ (by decide), fieldAll]
  have h4 : fieldOf wd 0 18 = o := by rw [← hw, fieldOf, fieldLo _ _ _ (by decide), fieldAll]
  simp [decode, decodeCompound, decode6E, h0, h1, h2, h3, h4]

theorem Encoding.call (sw : BitVec 1) (o : BitVec 18) : Encoding.Statement (.call sw o) := by
  intro wd h
  have hw : sw ++ 0x6E#7 ++ 0x4#6 ++ o = wd := Option.some.inj h
  have h0 : fieldOf wd 24 7 = 0x6E#7 := by rw [← hw, fieldOf, fieldHi _ _ _ (by decide), fieldHi _ _ _ (by decide), fieldLo _ _ _ (by decide)]; rfl
  have h1 : fieldOf wd 18 3 = 0x4#3 := by rw [← hw, fieldOf, fieldHi _ _ _ (by decide), fieldLo _ _ _ (by decide)]; rfl
  have h2 : fieldOf wd 21 3 = 0x0#3 := by rw [← hw, fieldOf, fieldHi _ _ _ (by decide), fieldLo _ _ _ (by decide)]; rfl
  have h3 : fieldOf wd 31 1 = sw := by rw [← hw, fieldOf, fieldHi _ _ _ (by decide), fieldHi _ _ _ (by decide), fieldHi _ _ _ (by decide), fieldAll]
  have h4 : fieldOf wd 0 18 = o := by rw [← hw, fieldOf, fieldLo _ _ _ (by decide), fieldAll]
  simp [decode, decodeCompound, decode6E, h0, h1, h2, h3, h4]

theorem Encoding.jmpr (sw : BitVec 1) (x : BitVec 6) (i : BitVec 12) : Encoding.Statement (.jmpr sw x i) := by
  intro wd h
  have hw : sw ++ 0x6F#7 ++ 0x0#6 ++ x ++ i = wd := Option.some.inj h
  have h0 : fieldOf wd 24 7 = 0x6F#7 := by rw [← hw, fieldOf, fieldHi _ _ _ (by decide), fieldHi _ _ _ (by decide), fieldHi _ _ _ (by decide), fieldLo _ _ _ (by decide)]; rfl
  have h1 : fieldOf wd 18 6 = 0x0#6 := by rw [← hw, fieldOf, fieldHi _ _ _ (by decide), fieldHi _ _ _ (by decide), fieldLo _ _ _ (by decide)]; rfl
  have h2 : fieldOf wd 31 1 = sw := by rw [← hw, fieldOf, fieldHi _ _ _ (by decide), fieldHi _ _ _ (by decide), fieldHi _ _ _ (by decide), fieldHi _ _ _ (by decide), fieldAll]
  have h3 : fieldOf wd 12 6 = x := by rw [← hw, fieldOf, fieldHi _ _ _ (by decide), fieldLo _ _ _ (by decide), fieldAll]
  have h4 : fieldOf wd 0 12 = i := by rw [← hw, fieldOf, fieldLo _ _ _ (by decide), fieldAll]
  simp [decode, decodeCompound, decode6F, h0, h1, h2, h3, h4]

theorem Encoding.callr (sw : BitVec 1) (x : BitVec 6) (i : BitVec 12) : Encoding.Statement (.callr sw x i) := by
  intro wd h
  have hw : sw ++ 0x6F#7 ++ 0x1#6 ++ x ++ i = wd := Option.some.inj h
  have h0 : fieldOf wd 24 7 = 0x6F#7 := by rw [← hw, fieldOf, fieldHi _ _ _ (by decide), fieldHi _ _ _ (by decide), fieldHi _ _ _ (by decide), fieldLo _ _ _ (by decide)]; rfl
  have h1 : fieldOf wd 18 6 = 0x1#6 := by rw [← hw, fieldOf, fieldHi _ _ _ (by decide), fieldHi _ _ _ (by decide), fieldLo _ _ _ (by decide)]; rfl
  have h2 : fieldOf wd 31 1 = sw := by rw [← hw, fieldOf, fieldHi _ _ _ (by decide), fieldHi _ _ _ (by decide), fieldHi _ _ _ (by decide), fieldHi _ _ _ (by decide), fieldAll]
  have h3 : fieldOf wd 12 6 = x := by rw [← hw, fieldOf, fieldHi _ _ _ (by decide), fieldLo _ _ _ (by decide), fieldAll]
  have h4 : fieldOf wd 0 12 = i := by rw [← hw, fieldOf, fieldLo _ _ _ (by decide), fieldAll]
  simp [decode, decodeCompound, decode6F, h0, h1, h2, h3, h4]

theorem Encoding.ret (sw : BitVec 1) : Encoding.Statement (.ret sw) := by
  intro wd h
  have hw : sw ++ 0x6F#7 ++ 0x80000#24 = wd := Option.some.inj h
  have h0 : fieldOf wd 24 7 = 0x6F#7 := by rw [← hw, fieldOf, fieldHi _ _ _ (by decide), fieldLo _ _ _ (by decide)]; rfl
  have h1 : fieldOf wd 18 6 = 0x2#6 := by rw [← hw, fieldOf, fieldLo _ _ _ (by decide)]; rfl
  have h2 : fieldOf wd 0 18 = 0x0#18 := by rw [← hw, fieldOf, fieldLo _ _ _ (by decide)]; rfl
  have h3 : fieldOf wd 31 1 = sw := by rw [← hw, fieldOf, fieldHi _ _ _ (by decide), fieldHi _ _ _ (by decide), fieldAll]
  simp [decode, decodeCompound, decode6F, h0, h1, h2, h3]

theorem Encoding.endWave (sw : BitVec 1) : Encoding.Statement (.endWave sw) := by
  intro wd h
  have hw : sw ++ 0x6F#7 ++ 0xC0000#24 = wd := Option.some.inj h
  have h0 : fieldOf wd 24 7 = 0x6F#7 := by rw [← hw, fieldOf, fieldHi _ _ _ (by decide), fieldLo _ _ _ (by decide)]; rfl
  have h1 : fieldOf wd 18 6 = 0x3#6 := by rw [← hw, fieldOf, fieldLo _ _ _ (by decide)]; rfl
  have h2 : fieldOf wd 0 18 = 0x0#18 := by rw [← hw, fieldOf, fieldLo _ _ _ (by decide)]; rfl
  have h3 : fieldOf wd 31 1 = sw := by rw [← hw, fieldOf, fieldHi _ _ _ (by decide), fieldHi _ _ _ (by decide), fieldAll]
  simp [decode, decodeCompound, decode6F, h0, h1, h2, h3]

theorem Encoding.yield (sw : BitVec 1) : Encoding.Statement (.yield sw) := by
  intro wd h
  have hw : sw ++ 0x6F#7 ++ 0x100000#24 = wd := Option.some.inj h
  have h0 : fieldOf wd 24 7 = 0x6F#7 := by rw [← hw, fieldOf, fieldHi _ _ _ (by decide), fieldLo _ _ _ (by decide)]; rfl
  have h1 : fieldOf wd 18 6 = 0x4#6 := by rw [← hw, fieldOf, fieldLo _ _ _ (by decide)]; rfl
  have h2 : fieldOf wd 0 18 = 0x0#18 := by rw [← hw, fieldOf, fieldLo _ _ _ (by decide)]; rfl
  have h3 : fieldOf wd 31 1 = sw := by rw [← hw, fieldOf, fieldHi _ _ _ (by decide), fieldHi _ _ _ (by decide), fieldAll]
  simp [decode, decodeCompound, decode6F, h0, h1, h2, h3]

theorem Encoding.trap (sw : BitVec 1) (i : BitVec 12) : Encoding.Statement (.trap sw i) := by
  intro wd h
  have hw : sw ++ 0x6F#7 ++ 0x140#12 ++ i = wd := Option.some.inj h
  have h0 : fieldOf wd 24 7 = 0x6F#7 := by rw [← hw, fieldOf, fieldHi _ _ _ (by decide), fieldHi _ _ _ (by decide), fieldLo _ _ _ (by decide)]; rfl
  have h1 : fieldOf wd 18 6 = 0x5#6 := by rw [← hw, fieldOf, fieldHi _ _ _ (by decide), fieldLo _ _ _ (by decide)]; rfl
  have h2 : fieldOf wd 12 6 = 0x0#6 := by rw [← hw, fieldOf, fieldHi _ _ _ (by decide), fieldLo _ _ _ (by decide)]; rfl
  have h3 : fieldOf wd 31 1 = sw := by rw [← hw, fieldOf, fieldHi _ _ _ (by decide), fieldHi _ _ _ (by decide), fieldHi _ _ _ (by decide), fieldAll]
  have h4 : fieldOf wd 0 12 = i := by rw [← hw, fieldOf, fieldLo _ _ _ (by decide), fieldAll]
  simp [decode, decodeCompound, decode6F, h0, h1, h2, h3, h4]

theorem Encoding.tret (sw : BitVec 1) : Encoding.Statement (.tret sw) := by
  intro wd h
  have hw : sw ++ 0x6F#7 ++ 0x180000#24 = wd := Option.some.inj h
  have h0 : fieldOf wd 24 7 = 0x6F#7 := by rw [← hw, fieldOf, fieldHi _ _ _ (by decide), fieldLo _ _ _ (by decide)]; rfl
  have h1 : fieldOf wd 18 6 = 0x6#6 := by rw [← hw, fieldOf, fieldLo _ _ _ (by decide)]; rfl
  have h2 : fieldOf wd 0 18 = 0x0#18 := by rw [← hw, fieldOf, fieldLo _ _ _ (by decide)]; rfl
  have h3 : fieldOf wd 31 1 = sw := by rw [← hw, fieldOf, fieldHi _ _ _ (by decide), fieldHi _ _ _ (by decide), fieldAll]
  simp [decode, decodeCompound, decode6F, h0, h1, h2, h3]

theorem Encoding.srd (sw : BitVec 1) (x : BitVec 6) (i : BitVec 12) : Encoding.Statement (.srd sw x i) := by
  intro wd h
  have hw : sw ++ 0x6F#7 ++ 0x7#6 ++ x ++ i = wd := Option.some.inj h
  have h0 : fieldOf wd 24 7 = 0x6F#7 := by rw [← hw, fieldOf, fieldHi _ _ _ (by decide), fieldHi _ _ _ (by decide), fieldHi _ _ _ (by decide), fieldLo _ _ _ (by decide)]; rfl
  have h1 : fieldOf wd 18 6 = 0x7#6 := by rw [← hw, fieldOf, fieldHi _ _ _ (by decide), fieldHi _ _ _ (by decide), fieldLo _ _ _ (by decide)]; rfl
  have h2 : fieldOf wd 31 1 = sw := by rw [← hw, fieldOf, fieldHi _ _ _ (by decide), fieldHi _ _ _ (by decide), fieldHi _ _ _ (by decide), fieldHi _ _ _ (by decide), fieldAll]
  have h3 : fieldOf wd 12 6 = x := by rw [← hw, fieldOf, fieldHi _ _ _ (by decide), fieldLo _ _ _ (by decide), fieldAll]
  have h4 : fieldOf wd 0 12 = i := by rw [← hw, fieldOf, fieldLo _ _ _ (by decide), fieldAll]
  simp [decode, decodeCompound, decode6F, h0, h1, h2, h3, h4]

theorem Encoding.swr (sw : BitVec 1) (x : BitVec 6) (i : BitVec 12) : Encoding.Statement (.swr sw x i) := by
  intro wd h
  have hw : sw ++ 0x6F#7 ++ 0x8#6 ++ x ++ i = wd := Option.some.inj h
  have h0 : fieldOf wd 24 7 = 0x6F#7 := by rw [← hw, fieldOf, fieldHi _ _ _ (by decide), fieldHi _ _ _ (by decide), fieldHi _ _ _ (by decide), fieldLo _ _ _ (by decide)]; rfl
  have h1 : fieldOf wd 18 6 = 0x8#6 := by rw [← hw, fieldOf, fieldHi _ _ _ (by decide), fieldHi _ _ _ (by decide), fieldLo _ _ _ (by decide)]; rfl
  have h2 : fieldOf wd 31 1 = sw := by rw [← hw, fieldOf, fieldHi _ _ _ (by decide), fieldHi _ _ _ (by decide), fieldHi _ _ _ (by decide), fieldHi _ _ _ (by decide), fieldAll]
  have h3 : fieldOf wd 12 6 = x := by rw [← hw, fieldOf, fieldHi _ _ _ (by decide), fieldLo _ _ _ (by decide), fieldAll]
  have h4 : fieldOf wd 0 12 = i := by rw [← hw, fieldOf, fieldLo _ _ _ (by decide), fieldAll]
  simp [decode, decodeCompound, decode6F, h0, h1, h2, h3, h4]

theorem Encoding.fenceI (sw : BitVec 1) : Encoding.Statement (.fenceI sw) := by
  intro wd h
  have hw : sw ++ 0x6F#7 ++ 0x240000#24 = wd := Option.some.inj h
  have h0 : fieldOf wd 24 7 = 0x6F#7 := by rw [← hw, fieldOf, fieldHi _ _ _ (by decide), fieldLo _ _ _ (by decide)]; rfl
  have h1 : fieldOf wd 18 6 = 0x9#6 := by rw [← hw, fieldOf, fieldLo _ _ _ (by decide)]; rfl
  have h2 : fieldOf wd 0 18 = 0x0#18 := by rw [← hw, fieldOf, fieldLo _ _ _ (by decide)]; rfl
  have h3 : fieldOf wd 31 1 = sw := by rw [← hw, fieldOf, fieldHi _ _ _ (by decide), fieldHi _ _ _ (by decide), fieldAll]
  simp [decode, decodeCompound, decode6F, h0, h1, h2, h3]

theorem Encoding.sld (sw : BitVec 1) (x a : BitVec 6) (i : BitVec 12) : Encoding.Statement (.sld sw x a i) := by
  intro wd h
  have hw : sw ++ 0x68#7 ++ x ++ a ++ i = wd := Option.some.inj h
  have h0 : fieldOf wd 24 7 = 0x68#7 := by rw [← hw, fieldOf, fieldHi _ _ _ (by decide), fieldHi _ _ _ (by decide), fieldHi _ _ _ (by decide), fieldLo _ _ _ (by decide)]; rfl
  have h1 : fieldOf wd 31 1 = sw := by rw [← hw, fieldOf, fieldHi _ _ _ (by decide), fieldHi _ _ _ (by decide), fieldHi _ _ _ (by decide), fieldHi _ _ _ (by decide), fieldAll]
  have h2 : fieldOf wd 18 6 = x := by rw [← hw, fieldOf, fieldHi _ _ _ (by decide), fieldHi _ _ _ (by decide), fieldLo _ _ _ (by decide), fieldAll]
  have h3 : fieldOf wd 12 6 = a := by rw [← hw, fieldOf, fieldHi _ _ _ (by decide), fieldLo _ _ _ (by decide), fieldAll]
  have h4 : fieldOf wd 0 12 = i := by rw [← hw, fieldOf, fieldLo _ _ _ (by decide), fieldAll]
  simp [decode, decodeCompound, h0, h1, h2, h3, h4]

theorem Encoding.sst (sw : BitVec 1) (x a : BitVec 6) (i : BitVec 12) : Encoding.Statement (.sst sw x a i) := by
  intro wd h
  have hw : sw ++ 0x69#7 ++ x ++ a ++ i = wd := Option.some.inj h
  have h0 : fieldOf wd 24 7 = 0x69#7 := by rw [← hw, fieldOf, fieldHi _ _ _ (by decide), fieldHi _ _ _ (by decide), fieldHi _ _ _ (by decide), fieldLo _ _ _ (by decide)]; rfl
  have h1 : fieldOf wd 31 1 = sw := by rw [← hw, fieldOf, fieldHi _ _ _ (by decide), fieldHi _ _ _ (by decide), fieldHi _ _ _ (by decide), fieldHi _ _ _ (by decide), fieldAll]
  have h2 : fieldOf wd 18 6 = x := by rw [← hw, fieldOf, fieldHi _ _ _ (by decide), fieldHi _ _ _ (by decide), fieldLo _ _ _ (by decide), fieldAll]
  have h3 : fieldOf wd 12 6 = a := by rw [← hw, fieldOf, fieldHi _ _ _ (by decide), fieldLo _ _ _ (by decide), fieldAll]
  have h4 : fieldOf wd 0 12 = i := by rw [← hw, fieldOf, fieldLo _ _ _ (by decide), fieldAll]
  simp [decode, decodeCompound, h0, h1, h2, h3, h4]

theorem Encoding.vldI8 (sw : BitVec 1) (v o : BitVec 8) (b : BitVec 5) : Encoding.Statement (.vldI8 sw v o b) := by
  intro wd h
  have hw : sw ++ 0x6A#7 ++ v ++ o ++ b ++ 0x0#3 = wd := Option.some.inj h
  have h0 : fieldOf wd 24 7 = 0x6A#7 := by rw [← hw, fieldOf, fieldHi _ _ _ (by decide), fieldHi _ _ _ (by decide), fieldHi _ _ _ (by decide), fieldHi _ _ _ (by decide), fieldLo _ _ _ (by decide)]; rfl
  have h1 : fieldOf wd 0 3 = 0x0#3 := by rw [← hw, fieldOf, fieldLo _ _ _ (by decide)]; rfl
  have h2 : fieldOf wd 31 1 = sw := by rw [← hw, fieldOf, fieldHi _ _ _ (by decide), fieldHi _ _ _ (by decide), fieldHi _ _ _ (by decide), fieldHi _ _ _ (by decide), fieldHi _ _ _ (by decide), fieldAll]
  have h3 : fieldOf wd 16 8 = v := by rw [← hw, fieldOf, fieldHi _ _ _ (by decide), fieldHi _ _ _ (by decide), fieldHi _ _ _ (by decide), fieldLo _ _ _ (by decide), fieldAll]
  have h4 : fieldOf wd 8 8 = o := by rw [← hw, fieldOf, fieldHi _ _ _ (by decide), fieldHi _ _ _ (by decide), fieldLo _ _ _ (by decide), fieldAll]
  have h5 : fieldOf wd 3 5 = b := by rw [← hw, fieldOf, fieldHi _ _ _ (by decide), fieldLo _ _ _ (by decide), fieldAll]
  simp [decode, decodeCompound, decode6A, h0, h1, h2, h3, h4, h5]

theorem Encoding.vldZ8 (sw : BitVec 1) (v o : BitVec 8) (b : BitVec 5) : Encoding.Statement (.vldZ8 sw v o b) := by
  intro wd h
  have hw : sw ++ 0x6A#7 ++ v ++ o ++ b ++ 0x1#3 = wd := Option.some.inj h
  have h0 : fieldOf wd 24 7 = 0x6A#7 := by rw [← hw, fieldOf, fieldHi _ _ _ (by decide), fieldHi _ _ _ (by decide), fieldHi _ _ _ (by decide), fieldHi _ _ _ (by decide), fieldLo _ _ _ (by decide)]; rfl
  have h1 : fieldOf wd 0 3 = 0x1#3 := by rw [← hw, fieldOf, fieldLo _ _ _ (by decide)]; rfl
  have h2 : fieldOf wd 31 1 = sw := by rw [← hw, fieldOf, fieldHi _ _ _ (by decide), fieldHi _ _ _ (by decide), fieldHi _ _ _ (by decide), fieldHi _ _ _ (by decide), fieldHi _ _ _ (by decide), fieldAll]
  have h3 : fieldOf wd 16 8 = v := by rw [← hw, fieldOf, fieldHi _ _ _ (by decide), fieldHi _ _ _ (by decide), fieldHi _ _ _ (by decide), fieldLo _ _ _ (by decide), fieldAll]
  have h4 : fieldOf wd 8 8 = o := by rw [← hw, fieldOf, fieldHi _ _ _ (by decide), fieldHi _ _ _ (by decide), fieldLo _ _ _ (by decide), fieldAll]
  have h5 : fieldOf wd 3 5 = b := by rw [← hw, fieldOf, fieldHi _ _ _ (by decide), fieldLo _ _ _ (by decide), fieldAll]
  simp [decode, decodeCompound, decode6A, h0, h1, h2, h3, h4, h5]

theorem Encoding.vldI16 (sw : BitVec 1) (v o : BitVec 8) (b : BitVec 5) : Encoding.Statement (.vldI16 sw v o b) := by
  intro wd h
  have hw : sw ++ 0x6A#7 ++ v ++ o ++ b ++ 0x2#3 = wd := Option.some.inj h
  have h0 : fieldOf wd 24 7 = 0x6A#7 := by rw [← hw, fieldOf, fieldHi _ _ _ (by decide), fieldHi _ _ _ (by decide), fieldHi _ _ _ (by decide), fieldHi _ _ _ (by decide), fieldLo _ _ _ (by decide)]; rfl
  have h1 : fieldOf wd 0 3 = 0x2#3 := by rw [← hw, fieldOf, fieldLo _ _ _ (by decide)]; rfl
  have h2 : fieldOf wd 31 1 = sw := by rw [← hw, fieldOf, fieldHi _ _ _ (by decide), fieldHi _ _ _ (by decide), fieldHi _ _ _ (by decide), fieldHi _ _ _ (by decide), fieldHi _ _ _ (by decide), fieldAll]
  have h3 : fieldOf wd 16 8 = v := by rw [← hw, fieldOf, fieldHi _ _ _ (by decide), fieldHi _ _ _ (by decide), fieldHi _ _ _ (by decide), fieldLo _ _ _ (by decide), fieldAll]
  have h4 : fieldOf wd 8 8 = o := by rw [← hw, fieldOf, fieldHi _ _ _ (by decide), fieldHi _ _ _ (by decide), fieldLo _ _ _ (by decide), fieldAll]
  have h5 : fieldOf wd 3 5 = b := by rw [← hw, fieldOf, fieldHi _ _ _ (by decide), fieldLo _ _ _ (by decide), fieldAll]
  simp [decode, decodeCompound, decode6A, h0, h1, h2, h3, h4, h5]

theorem Encoding.vldZ16 (sw : BitVec 1) (v o : BitVec 8) (b : BitVec 5) : Encoding.Statement (.vldZ16 sw v o b) := by
  intro wd h
  have hw : sw ++ 0x6A#7 ++ v ++ o ++ b ++ 0x3#3 = wd := Option.some.inj h
  have h0 : fieldOf wd 24 7 = 0x6A#7 := by rw [← hw, fieldOf, fieldHi _ _ _ (by decide), fieldHi _ _ _ (by decide), fieldHi _ _ _ (by decide), fieldHi _ _ _ (by decide), fieldLo _ _ _ (by decide)]; rfl
  have h1 : fieldOf wd 0 3 = 0x3#3 := by rw [← hw, fieldOf, fieldLo _ _ _ (by decide)]; rfl
  have h2 : fieldOf wd 31 1 = sw := by rw [← hw, fieldOf, fieldHi _ _ _ (by decide), fieldHi _ _ _ (by decide), fieldHi _ _ _ (by decide), fieldHi _ _ _ (by decide), fieldHi _ _ _ (by decide), fieldAll]
  have h3 : fieldOf wd 16 8 = v := by rw [← hw, fieldOf, fieldHi _ _ _ (by decide), fieldHi _ _ _ (by decide), fieldHi _ _ _ (by decide), fieldLo _ _ _ (by decide), fieldAll]
  have h4 : fieldOf wd 8 8 = o := by rw [← hw, fieldOf, fieldHi _ _ _ (by decide), fieldHi _ _ _ (by decide), fieldLo _ _ _ (by decide), fieldAll]
  have h5 : fieldOf wd 3 5 = b := by rw [← hw, fieldOf, fieldHi _ _ _ (by decide), fieldLo _ _ _ (by decide), fieldAll]
  simp [decode, decodeCompound, decode6A, h0, h1, h2, h3, h4, h5]

theorem Encoding.vld32 (sw : BitVec 1) (v o : BitVec 8) (b : BitVec 5) : Encoding.Statement (.vld32 sw v o b) := by
  intro wd h
  have hw : sw ++ 0x6A#7 ++ v ++ o ++ b ++ 0x4#3 = wd := Option.some.inj h
  have h0 : fieldOf wd 24 7 = 0x6A#7 := by rw [← hw, fieldOf, fieldHi _ _ _ (by decide), fieldHi _ _ _ (by decide), fieldHi _ _ _ (by decide), fieldHi _ _ _ (by decide), fieldLo _ _ _ (by decide)]; rfl
  have h1 : fieldOf wd 0 3 = 0x4#3 := by rw [← hw, fieldOf, fieldLo _ _ _ (by decide)]; rfl
  have h2 : fieldOf wd 31 1 = sw := by rw [← hw, fieldOf, fieldHi _ _ _ (by decide), fieldHi _ _ _ (by decide), fieldHi _ _ _ (by decide), fieldHi _ _ _ (by decide), fieldHi _ _ _ (by decide), fieldAll]
  have h3 : fieldOf wd 16 8 = v := by rw [← hw, fieldOf, fieldHi _ _ _ (by decide), fieldHi _ _ _ (by decide), fieldHi _ _ _ (by decide), fieldLo _ _ _ (by decide), fieldAll]
  have h4 : fieldOf wd 8 8 = o := by rw [← hw, fieldOf, fieldHi _ _ _ (by decide), fieldHi _ _ _ (by decide), fieldLo _ _ _ (by decide), fieldAll]
  have h5 : fieldOf wd 3 5 = b := by rw [← hw, fieldOf, fieldHi _ _ _ (by decide), fieldLo _ _ _ (by decide), fieldAll]
  simp [decode, decodeCompound, decode6A, h0, h1, h2, h3, h4, h5]

theorem Encoding.vst8 (sw : BitVec 1) (v o : BitVec 8) (b : BitVec 5) : Encoding.Statement (.vst8 sw v o b) := by
  intro wd h
  have hw : sw ++ 0x6A#7 ++ v ++ o ++ b ++ 0x5#3 = wd := Option.some.inj h
  have h0 : fieldOf wd 24 7 = 0x6A#7 := by rw [← hw, fieldOf, fieldHi _ _ _ (by decide), fieldHi _ _ _ (by decide), fieldHi _ _ _ (by decide), fieldHi _ _ _ (by decide), fieldLo _ _ _ (by decide)]; rfl
  have h1 : fieldOf wd 0 3 = 0x5#3 := by rw [← hw, fieldOf, fieldLo _ _ _ (by decide)]; rfl
  have h2 : fieldOf wd 31 1 = sw := by rw [← hw, fieldOf, fieldHi _ _ _ (by decide), fieldHi _ _ _ (by decide), fieldHi _ _ _ (by decide), fieldHi _ _ _ (by decide), fieldHi _ _ _ (by decide), fieldAll]
  have h3 : fieldOf wd 16 8 = v := by rw [← hw, fieldOf, fieldHi _ _ _ (by decide), fieldHi _ _ _ (by decide), fieldHi _ _ _ (by decide), fieldLo _ _ _ (by decide), fieldAll]
  have h4 : fieldOf wd 8 8 = o := by rw [← hw, fieldOf, fieldHi _ _ _ (by decide), fieldHi _ _ _ (by decide), fieldLo _ _ _ (by decide), fieldAll]
  have h5 : fieldOf wd 3 5 = b := by rw [← hw, fieldOf, fieldHi _ _ _ (by decide), fieldLo _ _ _ (by decide), fieldAll]
  simp [decode, decodeCompound, decode6A, h0, h1, h2, h3, h4, h5]

theorem Encoding.vst16 (sw : BitVec 1) (v o : BitVec 8) (b : BitVec 5) : Encoding.Statement (.vst16 sw v o b) := by
  intro wd h
  have hw : sw ++ 0x6A#7 ++ v ++ o ++ b ++ 0x6#3 = wd := Option.some.inj h
  have h0 : fieldOf wd 24 7 = 0x6A#7 := by rw [← hw, fieldOf, fieldHi _ _ _ (by decide), fieldHi _ _ _ (by decide), fieldHi _ _ _ (by decide), fieldHi _ _ _ (by decide), fieldLo _ _ _ (by decide)]; rfl
  have h1 : fieldOf wd 0 3 = 0x6#3 := by rw [← hw, fieldOf, fieldLo _ _ _ (by decide)]; rfl
  have h2 : fieldOf wd 31 1 = sw := by rw [← hw, fieldOf, fieldHi _ _ _ (by decide), fieldHi _ _ _ (by decide), fieldHi _ _ _ (by decide), fieldHi _ _ _ (by decide), fieldHi _ _ _ (by decide), fieldAll]
  have h3 : fieldOf wd 16 8 = v := by rw [← hw, fieldOf, fieldHi _ _ _ (by decide), fieldHi _ _ _ (by decide), fieldHi _ _ _ (by decide), fieldLo _ _ _ (by decide), fieldAll]
  have h4 : fieldOf wd 8 8 = o := by rw [← hw, fieldOf, fieldHi _ _ _ (by decide), fieldHi _ _ _ (by decide), fieldLo _ _ _ (by decide), fieldAll]
  have h5 : fieldOf wd 3 5 = b := by rw [← hw, fieldOf, fieldHi _ _ _ (by decide), fieldLo _ _ _ (by decide), fieldAll]
  simp [decode, decodeCompound, decode6A, h0, h1, h2, h3, h4, h5]

theorem Encoding.vst32 (sw : BitVec 1) (v o : BitVec 8) (b : BitVec 5) : Encoding.Statement (.vst32 sw v o b) := by
  intro wd h
  have hw : sw ++ 0x6A#7 ++ v ++ o ++ b ++ 0x7#3 = wd := Option.some.inj h
  have h0 : fieldOf wd 24 7 = 0x6A#7 := by rw [← hw, fieldOf, fieldHi _ _ _ (by decide), fieldHi _ _ _ (by decide), fieldHi _ _ _ (by decide), fieldHi _ _ _ (by decide), fieldLo _ _ _ (by decide)]; rfl
  have h1 : fieldOf wd 0 3 = 0x7#3 := by rw [← hw, fieldOf, fieldLo _ _ _ (by decide)]; rfl
  have h2 : fieldOf wd 31 1 = sw := by rw [← hw, fieldOf, fieldHi _ _ _ (by decide), fieldHi _ _ _ (by decide), fieldHi _ _ _ (by decide), fieldHi _ _ _ (by decide), fieldHi _ _ _ (by decide), fieldAll]
  have h3 : fieldOf wd 16 8 = v := by rw [← hw, fieldOf, fieldHi _ _ _ (by decide), fieldHi _ _ _ (by decide), fieldHi _ _ _ (by decide), fieldLo _ _ _ (by decide), fieldAll]
  have h4 : fieldOf wd 8 8 = o := by rw [← hw, fieldOf, fieldHi _ _ _ (by decide), fieldHi _ _ _ (by decide), fieldLo _ _ _ (by decide), fieldAll]
  have h5 : fieldOf wd 3 5 = b := by rw [← hw, fieldOf, fieldHi _ _ _ (by decide), fieldLo _ _ _ (by decide), fieldAll]
  simp [decode, decodeCompound, decode6A, h0, h1, h2, h3, h4, h5]

theorem Encoding.vldl (sw : BitVec 1) (x : BitVec 8) (a : BitVec 6) : Encoding.Statement (.vldl sw x a) := by
  intro wd h
  have hw : sw ++ 0x6B#7 ++ 0x0#4 ++ x ++ a ++ 0x0#6 = wd := Option.some.inj h
  have h0 : fieldOf wd 24 7 = 0x6B#7 := by rw [← hw, fieldOf, fieldHi _ _ _ (by decide), fieldHi _ _ _ (by decide), fieldHi _ _ _ (by decide), fieldHi _ _ _ (by decide), fieldLo _ _ _ (by decide)]; rfl
  have h1 : fieldOf wd 20 4 = 0x0#4 := by rw [← hw, fieldOf, fieldHi _ _ _ (by decide), fieldHi _ _ _ (by decide), fieldHi _ _ _ (by decide), fieldLo _ _ _ (by decide)]; rfl
  have h2 : fieldOf wd 0 6 = 0x0#6 := by rw [← hw, fieldOf, fieldLo _ _ _ (by decide)]; rfl
  have h3 : fieldOf wd 31 1 = sw := by rw [← hw, fieldOf, fieldHi _ _ _ (by decide), fieldHi _ _ _ (by decide), fieldHi _ _ _ (by decide), fieldHi _ _ _ (by decide), fieldHi _ _ _ (by decide), fieldAll]
  have h4 : fieldOf wd 12 8 = x := by rw [← hw, fieldOf, fieldHi _ _ _ (by decide), fieldHi _ _ _ (by decide), fieldLo _ _ _ (by decide), fieldAll]
  have h5 : fieldOf wd 6 6 = a := by rw [← hw, fieldOf, fieldHi _ _ _ (by decide), fieldLo _ _ _ (by decide), fieldAll]
  simp [decode, decodeCompound, decode6B, h0, h1, h2, h3, h4, h5]

theorem Encoding.vstl (sw : BitVec 1) (x : BitVec 8) (a : BitVec 6) : Encoding.Statement (.vstl sw x a) := by
  intro wd h
  have hw : sw ++ 0x6B#7 ++ 0x1#4 ++ x ++ a ++ 0x0#6 = wd := Option.some.inj h
  have h0 : fieldOf wd 24 7 = 0x6B#7 := by rw [← hw, fieldOf, fieldHi _ _ _ (by decide), fieldHi _ _ _ (by decide), fieldHi _ _ _ (by decide), fieldHi _ _ _ (by decide), fieldLo _ _ _ (by decide)]; rfl
  have h1 : fieldOf wd 20 4 = 0x1#4 := by rw [← hw, fieldOf, fieldHi _ _ _ (by decide), fieldHi _ _ _ (by decide), fieldHi _ _ _ (by decide), fieldLo _ _ _ (by decide)]; rfl
  have h2 : fieldOf wd 0 6 = 0x0#6 := by rw [← hw, fieldOf, fieldLo _ _ _ (by decide)]; rfl
  have h3 : fieldOf wd 31 1 = sw := by rw [← hw, fieldOf, fieldHi _ _ _ (by decide), fieldHi _ _ _ (by decide), fieldHi _ _ _ (by decide), fieldHi _ _ _ (by decide), fieldHi _ _ _ (by decide), fieldAll]
  have h4 : fieldOf wd 12 8 = x := by rw [← hw, fieldOf, fieldHi _ _ _ (by decide), fieldHi _ _ _ (by decide), fieldLo _ _ _ (by decide), fieldAll]
  have h5 : fieldOf wd 6 6 = a := by rw [← hw, fieldOf, fieldHi _ _ _ (by decide), fieldLo _ _ _ (by decide), fieldAll]
  simp [decode, decodeCompound, decode6B, h0, h1, h2, h3, h4, h5]

theorem Encoding.vldb (sw : BitVec 1) (x : BitVec 8) (a : BitVec 6) : Encoding.Statement (.vldb sw x a) := by
  intro wd h
  have hw : sw ++ 0x6B#7 ++ 0x2#4 ++ x ++ a ++ 0x0#6 = wd := Option.some.inj h
  have h0 : fieldOf wd 24 7 = 0x6B#7 := by rw [← hw, fieldOf, fieldHi _ _ _ (by decide), fieldHi _ _ _ (by decide), fieldHi _ _ _ (by decide), fieldHi _ _ _ (by decide), fieldLo _ _ _ (by decide)]; rfl
  have h1 : fieldOf wd 20 4 = 0x2#4 := by rw [← hw, fieldOf, fieldHi _ _ _ (by decide), fieldHi _ _ _ (by decide), fieldHi _ _ _ (by decide), fieldLo _ _ _ (by decide)]; rfl
  have h2 : fieldOf wd 0 6 = 0x0#6 := by rw [← hw, fieldOf, fieldLo _ _ _ (by decide)]; rfl
  have h3 : fieldOf wd 31 1 = sw := by rw [← hw, fieldOf, fieldHi _ _ _ (by decide), fieldHi _ _ _ (by decide), fieldHi _ _ _ (by decide), fieldHi _ _ _ (by decide), fieldHi _ _ _ (by decide), fieldAll]
  have h4 : fieldOf wd 12 8 = x := by rw [← hw, fieldOf, fieldHi _ _ _ (by decide), fieldHi _ _ _ (by decide), fieldLo _ _ _ (by decide), fieldAll]
  have h5 : fieldOf wd 6 6 = a := by rw [← hw, fieldOf, fieldHi _ _ _ (by decide), fieldLo _ _ _ (by decide), fieldAll]
  simp [decode, decodeCompound, decode6B, h0, h1, h2, h3, h4, h5]

theorem Encoding.vstb (sw : BitVec 1) (x : BitVec 8) (a : BitVec 6) : Encoding.Statement (.vstb sw x a) := by
  intro wd h
  have hw : sw ++ 0x6B#7 ++ 0x3#4 ++ x ++ a ++ 0x0#6 = wd := Option.some.inj h
  have h0 : fieldOf wd 24 7 = 0x6B#7 := by rw [← hw, fieldOf, fieldHi _ _ _ (by decide), fieldHi _ _ _ (by decide), fieldHi _ _ _ (by decide), fieldHi _ _ _ (by decide), fieldLo _ _ _ (by decide)]; rfl
  have h1 : fieldOf wd 20 4 = 0x3#4 := by rw [← hw, fieldOf, fieldHi _ _ _ (by decide), fieldHi _ _ _ (by decide), fieldHi _ _ _ (by decide), fieldLo _ _ _ (by decide)]; rfl
  have h2 : fieldOf wd 0 6 = 0x0#6 := by rw [← hw, fieldOf, fieldLo _ _ _ (by decide)]; rfl
  have h3 : fieldOf wd 31 1 = sw := by rw [← hw, fieldOf, fieldHi _ _ _ (by decide), fieldHi _ _ _ (by decide), fieldHi _ _ _ (by decide), fieldHi _ _ _ (by decide), fieldHi _ _ _ (by decide), fieldAll]
  have h4 : fieldOf wd 12 8 = x := by rw [← hw, fieldOf, fieldHi _ _ _ (by decide), fieldHi _ _ _ (by decide), fieldLo _ _ _ (by decide), fieldAll]
  have h5 : fieldOf wd 6 6 = a := by rw [← hw, fieldOf, fieldHi _ _ _ (by decide), fieldLo _ _ _ (by decide), fieldAll]
  simp [decode, decodeCompound, decode6B, h0, h1, h2, h3, h4, h5]

theorem Encoding.vstc (sw : BitVec 1) (x : BitVec 8) (a b : BitVec 6) : Encoding.Statement (.vstc sw x a b) := by
  intro wd h
  have hw : sw ++ 0x6B#7 ++ 0x4#4 ++ x ++ a ++ b = wd := Option.some.inj h
  have h0 : fieldOf wd 24 7 = 0x6B#7 := by rw [← hw, fieldOf, fieldHi _ _ _ (by decide), fieldHi _ _ _ (by decide), fieldHi _ _ _ (by decide), fieldHi _ _ _ (by decide), fieldLo _ _ _ (by decide)]; rfl
  have h1 : fieldOf wd 20 4 = 0x4#4 := by rw [← hw, fieldOf, fieldHi _ _ _ (by decide), fieldHi _ _ _ (by decide), fieldHi _ _ _ (by decide), fieldLo _ _ _ (by decide)]; rfl
  have h2 : fieldOf wd 31 1 = sw := by rw [← hw, fieldOf, fieldHi _ _ _ (by decide), fieldHi _ _ _ (by decide), fieldHi _ _ _ (by decide), fieldHi _ _ _ (by decide), fieldHi _ _ _ (by decide), fieldAll]
  have h3 : fieldOf wd 12 8 = x := by rw [← hw, fieldOf, fieldHi _ _ _ (by decide), fieldHi _ _ _ (by decide), fieldLo _ _ _ (by decide), fieldAll]
  have h4 : fieldOf wd 6 6 = a := by rw [← hw, fieldOf, fieldHi _ _ _ (by decide), fieldLo _ _ _ (by decide), fieldAll]
  have h5 : fieldOf wd 0 6 = b := by rw [← hw, fieldOf, fieldLo _ _ _ (by decide), fieldAll]
  simp [decode, decodeCompound, decode6B, h0, h1, h2, h3, h4, h5]

theorem Encoding.phase (sw : BitVec 1) (c : BitVec 3) : Encoding.Statement (.phase sw c) := by
  intro wd h
  have hw : sw ++ 0x6B#7 ++ 0xA0#9 ++ c ++ 0x0#12 = wd := Option.some.inj h
  have h0 : fieldOf wd 24 7 = 0x6B#7 := by rw [← hw, fieldOf, fieldHi _ _ _ (by decide), fieldHi _ _ _ (by decide), fieldHi _ _ _ (by decide), fieldLo _ _ _ (by decide)]; rfl
  have h1 : fieldOf wd 20 4 = 0x5#4 := by rw [← hw, fieldOf, fieldHi _ _ _ (by decide), fieldHi _ _ _ (by decide), fieldLo _ _ _ (by decide)]; rfl
  have h2 : fieldOf wd 15 5 = 0x0#5 := by rw [← hw, fieldOf, fieldHi _ _ _ (by decide), fieldHi _ _ _ (by decide), fieldLo _ _ _ (by decide)]; rfl
  have h3 : fieldOf wd 0 12 = 0x0#12 := by rw [← hw, fieldOf, fieldLo _ _ _ (by decide)]; rfl
  have h4 : fieldOf wd 31 1 = sw := by rw [← hw, fieldOf, fieldHi _ _ _ (by decide), fieldHi _ _ _ (by decide), fieldHi _ _ _ (by decide), fieldHi _ _ _ (by decide), fieldAll]
  have h5 : fieldOf wd 12 3 = c := by rw [← hw, fieldOf, fieldHi _ _ _ (by decide), fieldLo _ _ _ (by decide), fieldAll]
  simp [decode, decodeCompound, decode6B, h0, h1, h2, h3, h4, h5]

theorem Encoding.barInit (sw : BitVec 1) (a b : BitVec 6) : Encoding.Statement (.barInit sw a b) := by
  intro wd h
  have hw : sw ++ 0x6B#7 ++ 0x600#12 ++ a ++ b = wd := Option.some.inj h
  have h0 : fieldOf wd 24 7 = 0x6B#7 := by rw [← hw, fieldOf, fieldHi _ _ _ (by decide), fieldHi _ _ _ (by decide), fieldHi _ _ _ (by decide), fieldLo _ _ _ (by decide)]; rfl
  have h1 : fieldOf wd 20 4 = 0x6#4 := by rw [← hw, fieldOf, fieldHi _ _ _ (by decide), fieldHi _ _ _ (by decide), fieldLo _ _ _ (by decide)]; rfl
  have h2 : fieldOf wd 12 8 = 0x0#8 := by rw [← hw, fieldOf, fieldHi _ _ _ (by decide), fieldHi _ _ _ (by decide), fieldLo _ _ _ (by decide)]; rfl
  have h3 : fieldOf wd 31 1 = sw := by rw [← hw, fieldOf, fieldHi _ _ _ (by decide), fieldHi _ _ _ (by decide), fieldHi _ _ _ (by decide), fieldHi _ _ _ (by decide), fieldAll]
  have h4 : fieldOf wd 6 6 = a := by rw [← hw, fieldOf, fieldHi _ _ _ (by decide), fieldLo _ _ _ (by decide), fieldAll]
  have h5 : fieldOf wd 0 6 = b := by rw [← hw, fieldOf, fieldLo _ _ _ (by decide), fieldAll]
  simp [decode, decodeCompound, decode6B, h0, h1, h2, h3, h4, h5]

theorem Encoding.barArrive (sw : BitVec 1) (a : BitVec 6) : Encoding.Statement (.barArrive sw a) := by
  intro wd h
  have hw : sw ++ 0x6B#7 ++ 0x700#12 ++ a ++ 0x0#6 = wd := Option.some.inj h
  have h0 : fieldOf wd 24 7 = 0x6B#7 := by rw [← hw, fieldOf, fieldHi _ _ _ (by decide), fieldHi _ _ _ (by decide), fieldHi _ _ _ (by decide), fieldLo _ _ _ (by decide)]; rfl
  have h1 : fieldOf wd 20 4 = 0x7#4 := by rw [← hw, fieldOf, fieldHi _ _ _ (by decide), fieldHi _ _ _ (by decide), fieldLo _ _ _ (by decide)]; rfl
  have h2 : fieldOf wd 12 8 = 0x0#8 := by rw [← hw, fieldOf, fieldHi _ _ _ (by decide), fieldHi _ _ _ (by decide), fieldLo _ _ _ (by decide)]; rfl
  have h3 : fieldOf wd 0 6 = 0x0#6 := by rw [← hw, fieldOf, fieldLo _ _ _ (by decide)]; rfl
  have h4 : fieldOf wd 31 1 = sw := by rw [← hw, fieldOf, fieldHi _ _ _ (by decide), fieldHi _ _ _ (by decide), fieldHi _ _ _ (by decide), fieldHi _ _ _ (by decide), fieldAll]
  have h5 : fieldOf wd 6 6 = a := by rw [← hw, fieldOf, fieldHi _ _ _ (by decide), fieldLo _ _ _ (by decide), fieldAll]
  simp [decode, decodeCompound, decode6B, h0, h1, h2, h3, h4, h5]

theorem Encoding.barWait (sw : BitVec 1) (a b : BitVec 6) : Encoding.Statement (.barWait sw a b) := by
  intro wd h
  have hw : sw ++ 0x6B#7 ++ 0x800#12 ++ a ++ b = wd := Option.some.inj h
  have h0 : fieldOf wd 24 7 = 0x6B#7 := by rw [← hw, fieldOf, fieldHi _ _ _ (by decide), fieldHi _ _ _ (by decide), fieldHi _ _ _ (by decide), fieldLo _ _ _ (by decide)]; rfl
  have h1 : fieldOf wd 20 4 = 0x8#4 := by rw [← hw, fieldOf, fieldHi _ _ _ (by decide), fieldHi _ _ _ (by decide), fieldLo _ _ _ (by decide)]; rfl
  have h2 : fieldOf wd 12 8 = 0x0#8 := by rw [← hw, fieldOf, fieldHi _ _ _ (by decide), fieldHi _ _ _ (by decide), fieldLo _ _ _ (by decide)]; rfl
  have h3 : fieldOf wd 31 1 = sw := by rw [← hw, fieldOf, fieldHi _ _ _ (by decide), fieldHi _ _ _ (by decide), fieldHi _ _ _ (by decide), fieldHi _ _ _ (by decide), fieldAll]
  have h4 : fieldOf wd 6 6 = a := by rw [← hw, fieldOf, fieldHi _ _ _ (by decide), fieldLo _ _ _ (by decide), fieldAll]
  have h5 : fieldOf wd 0 6 = b := by rw [← hw, fieldOf, fieldLo _ _ _ (by decide), fieldAll]
  simp [decode, decodeCompound, decode6B, h0, h1, h2, h3, h4, h5]

theorem Encoding.wsq (sw : BitVec 1) (x a : BitVec 6) : Encoding.Statement (.wsq sw x a) := by
  intro wd h
  have hw : sw ++ 0x6B#7 ++ 0x24#6 ++ x ++ a ++ 0x0#6 = wd := Option.some.inj h
  have h0 : fieldOf wd 24 7 = 0x6B#7 := by rw [← hw, fieldOf, fieldHi _ _ _ (by decide), fieldHi _ _ _ (by decide), fieldHi _ _ _ (by decide), fieldHi _ _ _ (by decide), fieldLo _ _ _ (by decide)]; rfl
  have h1 : fieldOf wd 20 4 = 0x9#4 := by rw [← hw, fieldOf, fieldHi _ _ _ (by decide), fieldHi _ _ _ (by decide), fieldHi _ _ _ (by decide), fieldLo _ _ _ (by decide)]; rfl
  have h2 : fieldOf wd 18 2 = 0x0#2 := by rw [← hw, fieldOf, fieldHi _ _ _ (by decide), fieldHi _ _ _ (by decide), fieldHi _ _ _ (by decide), fieldLo _ _ _ (by decide)]; rfl
  have h3 : fieldOf wd 0 6 = 0x0#6 := by rw [← hw, fieldOf, fieldLo _ _ _ (by decide)]; rfl
  have h4 : fieldOf wd 31 1 = sw := by rw [← hw, fieldOf, fieldHi _ _ _ (by decide), fieldHi _ _ _ (by decide), fieldHi _ _ _ (by decide), fieldHi _ _ _ (by decide), fieldHi _ _ _ (by decide), fieldAll]
  have h5 : fieldOf wd 12 6 = x := by rw [← hw, fieldOf, fieldHi _ _ _ (by decide), fieldHi _ _ _ (by decide), fieldLo _ _ _ (by decide), fieldAll]
  have h6 : fieldOf wd 6 6 = a := by rw [← hw, fieldOf, fieldHi _ _ _ (by decide), fieldLo _ _ _ (by decide), fieldAll]
  simp [decode, decodeCompound, decode6B, h0, h1, h2, h3, h4, h5, h6]

theorem Encoding.aadd (sw : BitVec 1) (o : BitVec 2) (c : BitVec 3) (v w : BitVec 1) (x a : BitVec 6) : Encoding.Statement (.aadd sw o c v w x a) := by
  intro wd h
  have hw : sw ++ 0x7B#7 ++ 0x0#4 ++ o ++ c ++ v ++ w ++ x ++ a ++ 0x0#1 = wd := Option.some.inj h
  have h0 : fieldOf wd 24 7 = 0x7B#7 := by rw [← hw, fieldOf, fieldHi _ _ _ (by decide), fieldHi _ _ _ (by decide), fieldHi _ _ _ (by decide), fieldHi _ _ _ (by decide), fieldHi _ _ _ (by decide), fieldHi _ _ _ (by decide), fieldHi _ _ _ (by decide), fieldHi _ _ _ (by decide), fieldLo _ _ _ (by decide)]; rfl
  have h1 : fieldOf wd 20 4 = 0x0#4 := by rw [← hw, fieldOf, fieldHi _ _ _ (by decide), fieldHi _ _ _ (by decide), fieldHi _ _ _ (by decide), fieldHi _ _ _ (by decide), fieldHi _ _ _ (by decide), fieldHi _ _ _ (by decide), fieldHi _ _ _ (by decide), fieldLo _ _ _ (by decide)]; rfl
  have h2 : fieldOf wd 0 1 = 0x0#1 := by rw [← hw, fieldOf, fieldLo _ _ _ (by decide)]; rfl
  have h3 : fieldOf wd 31 1 = sw := by rw [← hw, fieldOf, fieldHi _ _ _ (by decide), fieldHi _ _ _ (by decide), fieldHi _ _ _ (by decide), fieldHi _ _ _ (by decide), fieldHi _ _ _ (by decide), fieldHi _ _ _ (by decide), fieldHi _ _ _ (by decide), fieldHi _ _ _ (by decide), fieldHi _ _ _ (by decide), fieldAll]
  have h4 : fieldOf wd 18 2 = o := by rw [← hw, fieldOf, fieldHi _ _ _ (by decide), fieldHi _ _ _ (by decide), fieldHi _ _ _ (by decide), fieldHi _ _ _ (by decide), fieldHi _ _ _ (by decide), fieldHi _ _ _ (by decide), fieldLo _ _ _ (by decide), fieldAll]
  have h5 : fieldOf wd 15 3 = c := by rw [← hw, fieldOf, fieldHi _ _ _ (by decide), fieldHi _ _ _ (by decide), fieldHi _ _ _ (by decide), fieldHi _ _ _ (by decide), fieldHi _ _ _ (by decide), fieldLo _ _ _ (by decide), fieldAll]
  have h6 : fieldOf wd 14 1 = v := by rw [← hw, fieldOf, fieldHi _ _ _ (by decide), fieldHi _ _ _ (by decide), fieldHi _ _ _ (by decide), fieldHi _ _ _ (by decide), fieldLo _ _ _ (by decide), fieldAll]
  have h7 : fieldOf wd 13 1 = w := by rw [← hw, fieldOf, fieldHi _ _ _ (by decide), fieldHi _ _ _ (by decide), fieldHi _ _ _ (by decide), fieldLo _ _ _ (by decide), fieldAll]
  have h8 : fieldOf wd 7 6 = x := by rw [← hw, fieldOf, fieldHi _ _ _ (by decide), fieldHi _ _ _ (by decide), fieldLo _ _ _ (by decide), fieldAll]
  have h9 : fieldOf wd 1 6 = a := by rw [← hw, fieldOf, fieldHi _ _ _ (by decide), fieldLo _ _ _ (by decide), fieldAll]
  simp [decode, decodeCompound, decode7B, h0, h1, h2, h3, h4, h5, h6, h7, h8, h9]

theorem Encoding.aaddF32 (sw : BitVec 1) (o : BitVec 2) (c : BitVec 3) (v : BitVec 1) (x a : BitVec 6) : Encoding.Statement (.aaddF32 sw o c v x a) := by
  intro wd h
  have hw : sw ++ 0x7B#7 ++ 0x1#4 ++ o ++ c ++ v ++ 0x0#1 ++ x ++ a ++ 0x0#1 = wd := Option.some.inj h
  have h0 : fieldOf wd 24 7 = 0x7B#7 := by rw [← hw, fieldOf, fieldHi _ _ _ (by decide), fieldHi _ _ _ (by decide), fieldHi _ _ _ (by decide), fieldHi _ _ _ (by decide), fieldHi _ _ _ (by decide), fieldHi _ _ _ (by decide), fieldHi _ _ _ (by decide), fieldHi _ _ _ (by decide), fieldLo _ _ _ (by decide)]; rfl
  have h1 : fieldOf wd 20 4 = 0x1#4 := by rw [← hw, fieldOf, fieldHi _ _ _ (by decide), fieldHi _ _ _ (by decide), fieldHi _ _ _ (by decide), fieldHi _ _ _ (by decide), fieldHi _ _ _ (by decide), fieldHi _ _ _ (by decide), fieldHi _ _ _ (by decide), fieldLo _ _ _ (by decide)]; rfl
  have h2 : fieldOf wd 13 1 = 0x0#1 := by rw [← hw, fieldOf, fieldHi _ _ _ (by decide), fieldHi _ _ _ (by decide), fieldHi _ _ _ (by decide), fieldLo _ _ _ (by decide)]; rfl
  have h3 : fieldOf wd 0 1 = 0x0#1 := by rw [← hw, fieldOf, fieldLo _ _ _ (by decide)]; rfl
  have h4 : fieldOf wd 31 1 = sw := by rw [← hw, fieldOf, fieldHi _ _ _ (by decide), fieldHi _ _ _ (by decide), fieldHi _ _ _ (by decide), fieldHi _ _ _ (by decide), fieldHi _ _ _ (by decide), fieldHi _ _ _ (by decide), fieldHi _ _ _ (by decide), fieldHi _ _ _ (by decide), fieldHi _ _ _ (by decide), fieldAll]
  have h5 : fieldOf wd 18 2 = o := by rw [← hw, fieldOf, fieldHi _ _ _ (by decide), fieldHi _ _ _ (by decide), fieldHi _ _ _ (by decide), fieldHi _ _ _ (by decide), fieldHi _ _ _ (by decide), fieldHi _ _ _ (by decide), fieldLo _ _ _ (by decide), fieldAll]
  have h6 : fieldOf wd 15 3 = c := by rw [← hw, fieldOf, fieldHi _ _ _ (by decide), fieldHi _ _ _ (by decide), fieldHi _ _ _ (by decide), fieldHi _ _ _ (by decide), fieldHi _ _ _ (by decide), fieldLo _ _ _ (by decide), fieldAll]
  have h7 : fieldOf wd 14 1 = v := by rw [← hw, fieldOf, fieldHi _ _ _ (by decide), fieldHi _ _ _ (by decide), fieldHi _ _ _ (by decide), fieldHi _ _ _ (by decide), fieldLo _ _ _ (by decide), fieldAll]
  have h8 : fieldOf wd 7 6 = x := by rw [← hw, fieldOf, fieldHi _ _ _ (by decide), fieldHi _ _ _ (by decide), fieldLo _ _ _ (by decide), fieldAll]
  have h9 : fieldOf wd 1 6 = a := by rw [← hw, fieldOf, fieldHi _ _ _ (by decide), fieldLo _ _ _ (by decide), fieldAll]
  simp [decode, decodeCompound, decode7B, h0, h1, h2, h3, h4, h5, h6, h7, h8, h9]

theorem Encoding.aand (sw : BitVec 1) (o : BitVec 2) (c : BitVec 3) (v w : BitVec 1) (x a : BitVec 6) : Encoding.Statement (.aand sw o c v w x a) := by
  intro wd h
  have hw : sw ++ 0x7B#7 ++ 0x2#4 ++ o ++ c ++ v ++ w ++ x ++ a ++ 0x0#1 = wd := Option.some.inj h
  have h0 : fieldOf wd 24 7 = 0x7B#7 := by rw [← hw, fieldOf, fieldHi _ _ _ (by decide), fieldHi _ _ _ (by decide), fieldHi _ _ _ (by decide), fieldHi _ _ _ (by decide), fieldHi _ _ _ (by decide), fieldHi _ _ _ (by decide), fieldHi _ _ _ (by decide), fieldHi _ _ _ (by decide), fieldLo _ _ _ (by decide)]; rfl
  have h1 : fieldOf wd 20 4 = 0x2#4 := by rw [← hw, fieldOf, fieldHi _ _ _ (by decide), fieldHi _ _ _ (by decide), fieldHi _ _ _ (by decide), fieldHi _ _ _ (by decide), fieldHi _ _ _ (by decide), fieldHi _ _ _ (by decide), fieldHi _ _ _ (by decide), fieldLo _ _ _ (by decide)]; rfl
  have h2 : fieldOf wd 0 1 = 0x0#1 := by rw [← hw, fieldOf, fieldLo _ _ _ (by decide)]; rfl
  have h3 : fieldOf wd 31 1 = sw := by rw [← hw, fieldOf, fieldHi _ _ _ (by decide), fieldHi _ _ _ (by decide), fieldHi _ _ _ (by decide), fieldHi _ _ _ (by decide), fieldHi _ _ _ (by decide), fieldHi _ _ _ (by decide), fieldHi _ _ _ (by decide), fieldHi _ _ _ (by decide), fieldHi _ _ _ (by decide), fieldAll]
  have h4 : fieldOf wd 18 2 = o := by rw [← hw, fieldOf, fieldHi _ _ _ (by decide), fieldHi _ _ _ (by decide), fieldHi _ _ _ (by decide), fieldHi _ _ _ (by decide), fieldHi _ _ _ (by decide), fieldHi _ _ _ (by decide), fieldLo _ _ _ (by decide), fieldAll]
  have h5 : fieldOf wd 15 3 = c := by rw [← hw, fieldOf, fieldHi _ _ _ (by decide), fieldHi _ _ _ (by decide), fieldHi _ _ _ (by decide), fieldHi _ _ _ (by decide), fieldHi _ _ _ (by decide), fieldLo _ _ _ (by decide), fieldAll]
  have h6 : fieldOf wd 14 1 = v := by rw [← hw, fieldOf, fieldHi _ _ _ (by decide), fieldHi _ _ _ (by decide), fieldHi _ _ _ (by decide), fieldHi _ _ _ (by decide), fieldLo _ _ _ (by decide), fieldAll]
  have h7 : fieldOf wd 13 1 = w := by rw [← hw, fieldOf, fieldHi _ _ _ (by decide), fieldHi _ _ _ (by decide), fieldHi _ _ _ (by decide), fieldLo _ _ _ (by decide), fieldAll]
  have h8 : fieldOf wd 7 6 = x := by rw [← hw, fieldOf, fieldHi _ _ _ (by decide), fieldHi _ _ _ (by decide), fieldLo _ _ _ (by decide), fieldAll]
  have h9 : fieldOf wd 1 6 = a := by rw [← hw, fieldOf, fieldHi _ _ _ (by decide), fieldLo _ _ _ (by decide), fieldAll]
  simp [decode, decodeCompound, decode7B, h0, h1, h2, h3, h4, h5, h6, h7, h8, h9]

theorem Encoding.aor (sw : BitVec 1) (o : BitVec 2) (c : BitVec 3) (v w : BitVec 1) (x a : BitVec 6) : Encoding.Statement (.aor sw o c v w x a) := by
  intro wd h
  have hw : sw ++ 0x7B#7 ++ 0x3#4 ++ o ++ c ++ v ++ w ++ x ++ a ++ 0x0#1 = wd := Option.some.inj h
  have h0 : fieldOf wd 24 7 = 0x7B#7 := by rw [← hw, fieldOf, fieldHi _ _ _ (by decide), fieldHi _ _ _ (by decide), fieldHi _ _ _ (by decide), fieldHi _ _ _ (by decide), fieldHi _ _ _ (by decide), fieldHi _ _ _ (by decide), fieldHi _ _ _ (by decide), fieldHi _ _ _ (by decide), fieldLo _ _ _ (by decide)]; rfl
  have h1 : fieldOf wd 20 4 = 0x3#4 := by rw [← hw, fieldOf, fieldHi _ _ _ (by decide), fieldHi _ _ _ (by decide), fieldHi _ _ _ (by decide), fieldHi _ _ _ (by decide), fieldHi _ _ _ (by decide), fieldHi _ _ _ (by decide), fieldHi _ _ _ (by decide), fieldLo _ _ _ (by decide)]; rfl
  have h2 : fieldOf wd 0 1 = 0x0#1 := by rw [← hw, fieldOf, fieldLo _ _ _ (by decide)]; rfl
  have h3 : fieldOf wd 31 1 = sw := by rw [← hw, fieldOf, fieldHi _ _ _ (by decide), fieldHi _ _ _ (by decide), fieldHi _ _ _ (by decide), fieldHi _ _ _ (by decide), fieldHi _ _ _ (by decide), fieldHi _ _ _ (by decide), fieldHi _ _ _ (by decide), fieldHi _ _ _ (by decide), fieldHi _ _ _ (by decide), fieldAll]
  have h4 : fieldOf wd 18 2 = o := by rw [← hw, fieldOf, fieldHi _ _ _ (by decide), fieldHi _ _ _ (by decide), fieldHi _ _ _ (by decide), fieldHi _ _ _ (by decide), fieldHi _ _ _ (by decide), fieldHi _ _ _ (by decide), fieldLo _ _ _ (by decide), fieldAll]
  have h5 : fieldOf wd 15 3 = c := by rw [← hw, fieldOf, fieldHi _ _ _ (by decide), fieldHi _ _ _ (by decide), fieldHi _ _ _ (by decide), fieldHi _ _ _ (by decide), fieldHi _ _ _ (by decide), fieldLo _ _ _ (by decide), fieldAll]
  have h6 : fieldOf wd 14 1 = v := by rw [← hw, fieldOf, fieldHi _ _ _ (by decide), fieldHi _ _ _ (by decide), fieldHi _ _ _ (by decide), fieldHi _ _ _ (by decide), fieldLo _ _ _ (by decide), fieldAll]
  have h7 : fieldOf wd 13 1 = w := by rw [← hw, fieldOf, fieldHi _ _ _ (by decide), fieldHi _ _ _ (by decide), fieldHi _ _ _ (by decide), fieldLo _ _ _ (by decide), fieldAll]
  have h8 : fieldOf wd 7 6 = x := by rw [← hw, fieldOf, fieldHi _ _ _ (by decide), fieldHi _ _ _ (by decide), fieldLo _ _ _ (by decide), fieldAll]
  have h9 : fieldOf wd 1 6 = a := by rw [← hw, fieldOf, fieldHi _ _ _ (by decide), fieldLo _ _ _ (by decide), fieldAll]
  simp [decode, decodeCompound, decode7B, h0, h1, h2, h3, h4, h5, h6, h7, h8, h9]

theorem Encoding.axor (sw : BitVec 1) (o : BitVec 2) (c : BitVec 3) (v w : BitVec 1) (x a : BitVec 6) : Encoding.Statement (.axor sw o c v w x a) := by
  intro wd h
  have hw : sw ++ 0x7B#7 ++ 0x4#4 ++ o ++ c ++ v ++ w ++ x ++ a ++ 0x0#1 = wd := Option.some.inj h
  have h0 : fieldOf wd 24 7 = 0x7B#7 := by rw [← hw, fieldOf, fieldHi _ _ _ (by decide), fieldHi _ _ _ (by decide), fieldHi _ _ _ (by decide), fieldHi _ _ _ (by decide), fieldHi _ _ _ (by decide), fieldHi _ _ _ (by decide), fieldHi _ _ _ (by decide), fieldHi _ _ _ (by decide), fieldLo _ _ _ (by decide)]; rfl
  have h1 : fieldOf wd 20 4 = 0x4#4 := by rw [← hw, fieldOf, fieldHi _ _ _ (by decide), fieldHi _ _ _ (by decide), fieldHi _ _ _ (by decide), fieldHi _ _ _ (by decide), fieldHi _ _ _ (by decide), fieldHi _ _ _ (by decide), fieldHi _ _ _ (by decide), fieldLo _ _ _ (by decide)]; rfl
  have h2 : fieldOf wd 0 1 = 0x0#1 := by rw [← hw, fieldOf, fieldLo _ _ _ (by decide)]; rfl
  have h3 : fieldOf wd 31 1 = sw := by rw [← hw, fieldOf, fieldHi _ _ _ (by decide), fieldHi _ _ _ (by decide), fieldHi _ _ _ (by decide), fieldHi _ _ _ (by decide), fieldHi _ _ _ (by decide), fieldHi _ _ _ (by decide), fieldHi _ _ _ (by decide), fieldHi _ _ _ (by decide), fieldHi _ _ _ (by decide), fieldAll]
  have h4 : fieldOf wd 18 2 = o := by rw [← hw, fieldOf, fieldHi _ _ _ (by decide), fieldHi _ _ _ (by decide), fieldHi _ _ _ (by decide), fieldHi _ _ _ (by decide), fieldHi _ _ _ (by decide), fieldHi _ _ _ (by decide), fieldLo _ _ _ (by decide), fieldAll]
  have h5 : fieldOf wd 15 3 = c := by rw [← hw, fieldOf, fieldHi _ _ _ (by decide), fieldHi _ _ _ (by decide), fieldHi _ _ _ (by decide), fieldHi _ _ _ (by decide), fieldHi _ _ _ (by decide), fieldLo _ _ _ (by decide), fieldAll]
  have h6 : fieldOf wd 14 1 = v := by rw [← hw, fieldOf, fieldHi _ _ _ (by decide), fieldHi _ _ _ (by decide), fieldHi _ _ _ (by decide), fieldHi _ _ _ (by decide), fieldLo _ _ _ (by decide), fieldAll]
  have h7 : fieldOf wd 13 1 = w := by rw [← hw, fieldOf, fieldHi _ _ _ (by decide), fieldHi _ _ _ (by decide), fieldHi _ _ _ (by decide), fieldLo _ _ _ (by decide), fieldAll]
  have h8 : fieldOf wd 7 6 = x := by rw [← hw, fieldOf, fieldHi _ _ _ (by decide), fieldHi _ _ _ (by decide), fieldLo _ _ _ (by decide), fieldAll]
  have h9 : fieldOf wd 1 6 = a := by rw [← hw, fieldOf, fieldHi _ _ _ (by decide), fieldLo _ _ _ (by decide), fieldAll]
  simp [decode, decodeCompound, decode7B, h0, h1, h2, h3, h4, h5, h6, h7, h8, h9]

theorem Encoding.amin (sw : BitVec 1) (o : BitVec 2) (c : BitVec 3) (v w : BitVec 1) (x a : BitVec 6) : Encoding.Statement (.amin sw o c v w x a) := by
  intro wd h
  have hw : sw ++ 0x7B#7 ++ 0x5#4 ++ o ++ c ++ v ++ w ++ x ++ a ++ 0x0#1 = wd := Option.some.inj h
  have h0 : fieldOf wd 24 7 = 0x7B#7 := by rw [← hw, fieldOf, fieldHi _ _ _ (by decide), fieldHi _ _ _ (by decide), fieldHi _ _ _ (by decide), fieldHi _ _ _ (by decide), fieldHi _ _ _ (by decide), fieldHi _ _ _ (by decide), fieldHi _ _ _ (by decide), fieldHi _ _ _ (by decide), fieldLo _ _ _ (by decide)]; rfl
  have h1 : fieldOf wd 20 4 = 0x5#4 := by rw [← hw, fieldOf, fieldHi _ _ _ (by decide), fieldHi _ _ _ (by decide), fieldHi _ _ _ (by decide), fieldHi _ _ _ (by decide), fieldHi _ _ _ (by decide), fieldHi _ _ _ (by decide), fieldHi _ _ _ (by decide), fieldLo _ _ _ (by decide)]; rfl
  have h2 : fieldOf wd 0 1 = 0x0#1 := by rw [← hw, fieldOf, fieldLo _ _ _ (by decide)]; rfl
  have h3 : fieldOf wd 31 1 = sw := by rw [← hw, fieldOf, fieldHi _ _ _ (by decide), fieldHi _ _ _ (by decide), fieldHi _ _ _ (by decide), fieldHi _ _ _ (by decide), fieldHi _ _ _ (by decide), fieldHi _ _ _ (by decide), fieldHi _ _ _ (by decide), fieldHi _ _ _ (by decide), fieldHi _ _ _ (by decide), fieldAll]
  have h4 : fieldOf wd 18 2 = o := by rw [← hw, fieldOf, fieldHi _ _ _ (by decide), fieldHi _ _ _ (by decide), fieldHi _ _ _ (by decide), fieldHi _ _ _ (by decide), fieldHi _ _ _ (by decide), fieldHi _ _ _ (by decide), fieldLo _ _ _ (by decide), fieldAll]
  have h5 : fieldOf wd 15 3 = c := by rw [← hw, fieldOf, fieldHi _ _ _ (by decide), fieldHi _ _ _ (by decide), fieldHi _ _ _ (by decide), fieldHi _ _ _ (by decide), fieldHi _ _ _ (by decide), fieldLo _ _ _ (by decide), fieldAll]
  have h6 : fieldOf wd 14 1 = v := by rw [← hw, fieldOf, fieldHi _ _ _ (by decide), fieldHi _ _ _ (by decide), fieldHi _ _ _ (by decide), fieldHi _ _ _ (by decide), fieldLo _ _ _ (by decide), fieldAll]
  have h7 : fieldOf wd 13 1 = w := by rw [← hw, fieldOf, fieldHi _ _ _ (by decide), fieldHi _ _ _ (by decide), fieldHi _ _ _ (by decide), fieldLo _ _ _ (by decide), fieldAll]
  have h8 : fieldOf wd 7 6 = x := by rw [← hw, fieldOf, fieldHi _ _ _ (by decide), fieldHi _ _ _ (by decide), fieldLo _ _ _ (by decide), fieldAll]
  have h9 : fieldOf wd 1 6 = a := by rw [← hw, fieldOf, fieldHi _ _ _ (by decide), fieldLo _ _ _ (by decide), fieldAll]
  simp [decode, decodeCompound, decode7B, h0, h1, h2, h3, h4, h5, h6, h7, h8, h9]

theorem Encoding.amax (sw : BitVec 1) (o : BitVec 2) (c : BitVec 3) (v w : BitVec 1) (x a : BitVec 6) : Encoding.Statement (.amax sw o c v w x a) := by
  intro wd h
  have hw : sw ++ 0x7B#7 ++ 0x6#4 ++ o ++ c ++ v ++ w ++ x ++ a ++ 0x0#1 = wd := Option.some.inj h
  have h0 : fieldOf wd 24 7 = 0x7B#7 := by rw [← hw, fieldOf, fieldHi _ _ _ (by decide), fieldHi _ _ _ (by decide), fieldHi _ _ _ (by decide), fieldHi _ _ _ (by decide), fieldHi _ _ _ (by decide), fieldHi _ _ _ (by decide), fieldHi _ _ _ (by decide), fieldHi _ _ _ (by decide), fieldLo _ _ _ (by decide)]; rfl
  have h1 : fieldOf wd 20 4 = 0x6#4 := by rw [← hw, fieldOf, fieldHi _ _ _ (by decide), fieldHi _ _ _ (by decide), fieldHi _ _ _ (by decide), fieldHi _ _ _ (by decide), fieldHi _ _ _ (by decide), fieldHi _ _ _ (by decide), fieldHi _ _ _ (by decide), fieldLo _ _ _ (by decide)]; rfl
  have h2 : fieldOf wd 0 1 = 0x0#1 := by rw [← hw, fieldOf, fieldLo _ _ _ (by decide)]; rfl
  have h3 : fieldOf wd 31 1 = sw := by rw [← hw, fieldOf, fieldHi _ _ _ (by decide), fieldHi _ _ _ (by decide), fieldHi _ _ _ (by decide), fieldHi _ _ _ (by decide), fieldHi _ _ _ (by decide), fieldHi _ _ _ (by decide), fieldHi _ _ _ (by decide), fieldHi _ _ _ (by decide), fieldHi _ _ _ (by decide), fieldAll]
  have h4 : fieldOf wd 18 2 = o := by rw [← hw, fieldOf, fieldHi _ _ _ (by decide), fieldHi _ _ _ (by decide), fieldHi _ _ _ (by decide), fieldHi _ _ _ (by decide), fieldHi _ _ _ (by decide), fieldHi _ _ _ (by decide), fieldLo _ _ _ (by decide), fieldAll]
  have h5 : fieldOf wd 15 3 = c := by rw [← hw, fieldOf, fieldHi _ _ _ (by decide), fieldHi _ _ _ (by decide), fieldHi _ _ _ (by decide), fieldHi _ _ _ (by decide), fieldHi _ _ _ (by decide), fieldLo _ _ _ (by decide), fieldAll]
  have h6 : fieldOf wd 14 1 = v := by rw [← hw, fieldOf, fieldHi _ _ _ (by decide), fieldHi _ _ _ (by decide), fieldHi _ _ _ (by decide), fieldHi _ _ _ (by decide), fieldLo _ _ _ (by decide), fieldAll]
  have h7 : fieldOf wd 13 1 = w := by rw [← hw, fieldOf, fieldHi _ _ _ (by decide), fieldHi _ _ _ (by decide), fieldHi _ _ _ (by decide), fieldLo _ _ _ (by decide), fieldAll]
  have h8 : fieldOf wd 7 6 = x := by rw [← hw, fieldOf, fieldHi _ _ _ (by decide), fieldHi _ _ _ (by decide), fieldLo _ _ _ (by decide), fieldAll]
  have h9 : fieldOf wd 1 6 = a := by rw [← hw, fieldOf, fieldHi _ _ _ (by decide), fieldLo _ _ _ (by decide), fieldAll]
  simp [decode, decodeCompound, decode7B, h0, h1, h2, h3, h4, h5, h6, h7, h8, h9]

theorem Encoding.aminu (sw : BitVec 1) (o : BitVec 2) (c : BitVec 3) (v w : BitVec 1) (x a : BitVec 6) : Encoding.Statement (.aminu sw o c v w x a) := by
  intro wd h
  have hw : sw ++ 0x7B#7 ++ 0x7#4 ++ o ++ c ++ v ++ w ++ x ++ a ++ 0x0#1 = wd := Option.some.inj h
  have h0 : fieldOf wd 24 7 = 0x7B#7 := by rw [← hw, fieldOf, fieldHi _ _ _ (by decide), fieldHi _ _ _ (by decide), fieldHi _ _ _ (by decide), fieldHi _ _ _ (by decide), fieldHi _ _ _ (by decide), fieldHi _ _ _ (by decide), fieldHi _ _ _ (by decide), fieldHi _ _ _ (by decide), fieldLo _ _ _ (by decide)]; rfl
  have h1 : fieldOf wd 20 4 = 0x7#4 := by rw [← hw, fieldOf, fieldHi _ _ _ (by decide), fieldHi _ _ _ (by decide), fieldHi _ _ _ (by decide), fieldHi _ _ _ (by decide), fieldHi _ _ _ (by decide), fieldHi _ _ _ (by decide), fieldHi _ _ _ (by decide), fieldLo _ _ _ (by decide)]; rfl
  have h2 : fieldOf wd 0 1 = 0x0#1 := by rw [← hw, fieldOf, fieldLo _ _ _ (by decide)]; rfl
  have h3 : fieldOf wd 31 1 = sw := by rw [← hw, fieldOf, fieldHi _ _ _ (by decide), fieldHi _ _ _ (by decide), fieldHi _ _ _ (by decide), fieldHi _ _ _ (by decide), fieldHi _ _ _ (by decide), fieldHi _ _ _ (by decide), fieldHi _ _ _ (by decide), fieldHi _ _ _ (by decide), fieldHi _ _ _ (by decide), fieldAll]
  have h4 : fieldOf wd 18 2 = o := by rw [← hw, fieldOf, fieldHi _ _ _ (by decide), fieldHi _ _ _ (by decide), fieldHi _ _ _ (by decide), fieldHi _ _ _ (by decide), fieldHi _ _ _ (by decide), fieldHi _ _ _ (by decide), fieldLo _ _ _ (by decide), fieldAll]
  have h5 : fieldOf wd 15 3 = c := by rw [← hw, fieldOf, fieldHi _ _ _ (by decide), fieldHi _ _ _ (by decide), fieldHi _ _ _ (by decide), fieldHi _ _ _ (by decide), fieldHi _ _ _ (by decide), fieldLo _ _ _ (by decide), fieldAll]
  have h6 : fieldOf wd 14 1 = v := by rw [← hw, fieldOf, fieldHi _ _ _ (by decide), fieldHi _ _ _ (by decide), fieldHi _ _ _ (by decide), fieldHi _ _ _ (by decide), fieldLo _ _ _ (by decide), fieldAll]
  have h7 : fieldOf wd 13 1 = w := by rw [← hw, fieldOf, fieldHi _ _ _ (by decide), fieldHi _ _ _ (by decide), fieldHi _ _ _ (by decide), fieldLo _ _ _ (by decide), fieldAll]
  have h8 : fieldOf wd 7 6 = x := by rw [← hw, fieldOf, fieldHi _ _ _ (by decide), fieldHi _ _ _ (by decide), fieldLo _ _ _ (by decide), fieldAll]
  have h9 : fieldOf wd 1 6 = a := by rw [← hw, fieldOf, fieldHi _ _ _ (by decide), fieldLo _ _ _ (by decide), fieldAll]
  simp [decode, decodeCompound, decode7B, h0, h1, h2, h3, h4, h5, h6, h7, h8, h9]

theorem Encoding.amaxu (sw : BitVec 1) (o : BitVec 2) (c : BitVec 3) (v w : BitVec 1) (x a : BitVec 6) : Encoding.Statement (.amaxu sw o c v w x a) := by
  intro wd h
  have hw : sw ++ 0x7B#7 ++ 0x8#4 ++ o ++ c ++ v ++ w ++ x ++ a ++ 0x0#1 = wd := Option.some.inj h
  have h0 : fieldOf wd 24 7 = 0x7B#7 := by rw [← hw, fieldOf, fieldHi _ _ _ (by decide), fieldHi _ _ _ (by decide), fieldHi _ _ _ (by decide), fieldHi _ _ _ (by decide), fieldHi _ _ _ (by decide), fieldHi _ _ _ (by decide), fieldHi _ _ _ (by decide), fieldHi _ _ _ (by decide), fieldLo _ _ _ (by decide)]; rfl
  have h1 : fieldOf wd 20 4 = 0x8#4 := by rw [← hw, fieldOf, fieldHi _ _ _ (by decide), fieldHi _ _ _ (by decide), fieldHi _ _ _ (by decide), fieldHi _ _ _ (by decide), fieldHi _ _ _ (by decide), fieldHi _ _ _ (by decide), fieldHi _ _ _ (by decide), fieldLo _ _ _ (by decide)]; rfl
  have h2 : fieldOf wd 0 1 = 0x0#1 := by rw [← hw, fieldOf, fieldLo _ _ _ (by decide)]; rfl
  have h3 : fieldOf wd 31 1 = sw := by rw [← hw, fieldOf, fieldHi _ _ _ (by decide), fieldHi _ _ _ (by decide), fieldHi _ _ _ (by decide), fieldHi _ _ _ (by decide), fieldHi _ _ _ (by decide), fieldHi _ _ _ (by decide), fieldHi _ _ _ (by decide), fieldHi _ _ _ (by decide), fieldHi _ _ _ (by decide), fieldAll]
  have h4 : fieldOf wd 18 2 = o := by rw [← hw, fieldOf, fieldHi _ _ _ (by decide), fieldHi _ _ _ (by decide), fieldHi _ _ _ (by decide), fieldHi _ _ _ (by decide), fieldHi _ _ _ (by decide), fieldHi _ _ _ (by decide), fieldLo _ _ _ (by decide), fieldAll]
  have h5 : fieldOf wd 15 3 = c := by rw [← hw, fieldOf, fieldHi _ _ _ (by decide), fieldHi _ _ _ (by decide), fieldHi _ _ _ (by decide), fieldHi _ _ _ (by decide), fieldHi _ _ _ (by decide), fieldLo _ _ _ (by decide), fieldAll]
  have h6 : fieldOf wd 14 1 = v := by rw [← hw, fieldOf, fieldHi _ _ _ (by decide), fieldHi _ _ _ (by decide), fieldHi _ _ _ (by decide), fieldHi _ _ _ (by decide), fieldLo _ _ _ (by decide), fieldAll]
  have h7 : fieldOf wd 13 1 = w := by rw [← hw, fieldOf, fieldHi _ _ _ (by decide), fieldHi _ _ _ (by decide), fieldHi _ _ _ (by decide), fieldLo _ _ _ (by decide), fieldAll]
  have h8 : fieldOf wd 7 6 = x := by rw [← hw, fieldOf, fieldHi _ _ _ (by decide), fieldHi _ _ _ (by decide), fieldLo _ _ _ (by decide), fieldAll]
  have h9 : fieldOf wd 1 6 = a := by rw [← hw, fieldOf, fieldHi _ _ _ (by decide), fieldLo _ _ _ (by decide), fieldAll]
  simp [decode, decodeCompound, decode7B, h0, h1, h2, h3, h4, h5, h6, h7, h8, h9]

theorem Encoding.axchg (sw : BitVec 1) (o : BitVec 2) (c : BitVec 3) (v w : BitVec 1) (x a : BitVec 6) : Encoding.Statement (.axchg sw o c v w x a) := by
  intro wd h
  have hw : sw ++ 0x7B#7 ++ 0x9#4 ++ o ++ c ++ v ++ w ++ x ++ a ++ 0x0#1 = wd := Option.some.inj h
  have h0 : fieldOf wd 24 7 = 0x7B#7 := by rw [← hw, fieldOf, fieldHi _ _ _ (by decide), fieldHi _ _ _ (by decide), fieldHi _ _ _ (by decide), fieldHi _ _ _ (by decide), fieldHi _ _ _ (by decide), fieldHi _ _ _ (by decide), fieldHi _ _ _ (by decide), fieldHi _ _ _ (by decide), fieldLo _ _ _ (by decide)]; rfl
  have h1 : fieldOf wd 20 4 = 0x9#4 := by rw [← hw, fieldOf, fieldHi _ _ _ (by decide), fieldHi _ _ _ (by decide), fieldHi _ _ _ (by decide), fieldHi _ _ _ (by decide), fieldHi _ _ _ (by decide), fieldHi _ _ _ (by decide), fieldHi _ _ _ (by decide), fieldLo _ _ _ (by decide)]; rfl
  have h2 : fieldOf wd 0 1 = 0x0#1 := by rw [← hw, fieldOf, fieldLo _ _ _ (by decide)]; rfl
  have h3 : fieldOf wd 31 1 = sw := by rw [← hw, fieldOf, fieldHi _ _ _ (by decide), fieldHi _ _ _ (by decide), fieldHi _ _ _ (by decide), fieldHi _ _ _ (by decide), fieldHi _ _ _ (by decide), fieldHi _ _ _ (by decide), fieldHi _ _ _ (by decide), fieldHi _ _ _ (by decide), fieldHi _ _ _ (by decide), fieldAll]
  have h4 : fieldOf wd 18 2 = o := by rw [← hw, fieldOf, fieldHi _ _ _ (by decide), fieldHi _ _ _ (by decide), fieldHi _ _ _ (by decide), fieldHi _ _ _ (by decide), fieldHi _ _ _ (by decide), fieldHi _ _ _ (by decide), fieldLo _ _ _ (by decide), fieldAll]
  have h5 : fieldOf wd 15 3 = c := by rw [← hw, fieldOf, fieldHi _ _ _ (by decide), fieldHi _ _ _ (by decide), fieldHi _ _ _ (by decide), fieldHi _ _ _ (by decide), fieldHi _ _ _ (by decide), fieldLo _ _ _ (by decide), fieldAll]
  have h6 : fieldOf wd 14 1 = v := by rw [← hw, fieldOf, fieldHi _ _ _ (by decide), fieldHi _ _ _ (by decide), fieldHi _ _ _ (by decide), fieldHi _ _ _ (by decide), fieldLo _ _ _ (by decide), fieldAll]
  have h7 : fieldOf wd 13 1 = w := by rw [← hw, fieldOf, fieldHi _ _ _ (by decide), fieldHi _ _ _ (by decide), fieldHi _ _ _ (by decide), fieldLo _ _ _ (by decide), fieldAll]
  have h8 : fieldOf wd 7 6 = x := by rw [← hw, fieldOf, fieldHi _ _ _ (by decide), fieldHi _ _ _ (by decide), fieldLo _ _ _ (by decide), fieldAll]
  have h9 : fieldOf wd 1 6 = a := by rw [← hw, fieldOf, fieldHi _ _ _ (by decide), fieldLo _ _ _ (by decide), fieldAll]
  simp [decode, decodeCompound, decode7B, h0, h1, h2, h3, h4, h5, h6, h7, h8, h9]

theorem Encoding.acas (sw : BitVec 1) (o : BitVec 2) (c : BitVec 3) (v w : BitVec 1) (x a : BitVec 6) : Encoding.Statement (.acas sw o c v w x a) := by
  intro wd h
  have hw : sw ++ 0x7B#7 ++ 0xA#4 ++ o ++ c ++ v ++ w ++ x ++ a ++ 0x0#1 = wd := Option.some.inj h
  have h0 : fieldOf wd 24 7 = 0x7B#7 := by rw [← hw, fieldOf, fieldHi _ _ _ (by decide), fieldHi _ _ _ (by decide), fieldHi _ _ _ (by decide), fieldHi _ _ _ (by decide), fieldHi _ _ _ (by decide), fieldHi _ _ _ (by decide), fieldHi _ _ _ (by decide), fieldHi _ _ _ (by decide), fieldLo _ _ _ (by decide)]; rfl
  have h1 : fieldOf wd 20 4 = 0xA#4 := by rw [← hw, fieldOf, fieldHi _ _ _ (by decide), fieldHi _ _ _ (by decide), fieldHi _ _ _ (by decide), fieldHi _ _ _ (by decide), fieldHi _ _ _ (by decide), fieldHi _ _ _ (by decide), fieldHi _ _ _ (by decide), fieldLo _ _ _ (by decide)]; rfl
  have h2 : fieldOf wd 0 1 = 0x0#1 := by rw [← hw, fieldOf, fieldLo _ _ _ (by decide)]; rfl
  have h3 : fieldOf wd 31 1 = sw := by rw [← hw, fieldOf, fieldHi _ _ _ (by decide), fieldHi _ _ _ (by decide), fieldHi _ _ _ (by decide), fieldHi _ _ _ (by decide), fieldHi _ _ _ (by decide), fieldHi _ _ _ (by decide), fieldHi _ _ _ (by decide), fieldHi _ _ _ (by decide), fieldHi _ _ _ (by decide), fieldAll]
  have h4 : fieldOf wd 18 2 = o := by rw [← hw, fieldOf, fieldHi _ _ _ (by decide), fieldHi _ _ _ (by decide), fieldHi _ _ _ (by decide), fieldHi _ _ _ (by decide), fieldHi _ _ _ (by decide), fieldHi _ _ _ (by decide), fieldLo _ _ _ (by decide), fieldAll]
  have h5 : fieldOf wd 15 3 = c := by rw [← hw, fieldOf, fieldHi _ _ _ (by decide), fieldHi _ _ _ (by decide), fieldHi _ _ _ (by decide), fieldHi _ _ _ (by decide), fieldHi _ _ _ (by decide), fieldLo _ _ _ (by decide), fieldAll]
  have h6 : fieldOf wd 14 1 = v := by rw [← hw, fieldOf, fieldHi _ _ _ (by decide), fieldHi _ _ _ (by decide), fieldHi _ _ _ (by decide), fieldHi _ _ _ (by decide), fieldLo _ _ _ (by decide), fieldAll]
  have h7 : fieldOf wd 13 1 = w := by rw [← hw, fieldOf, fieldHi _ _ _ (by decide), fieldHi _ _ _ (by decide), fieldHi _ _ _ (by decide), fieldLo _ _ _ (by decide), fieldAll]
  have h8 : fieldOf wd 7 6 = x := by rw [← hw, fieldOf, fieldHi _ _ _ (by decide), fieldHi _ _ _ (by decide), fieldLo _ _ _ (by decide), fieldAll]
  have h9 : fieldOf wd 1 6 = a := by rw [← hw, fieldOf, fieldHi _ _ _ (by decide), fieldLo _ _ _ (by decide), fieldAll]
  simp [decode, decodeCompound, decode7B, h0, h1, h2, h3, h4, h5, h6, h7, h8, h9]

theorem Encoding.vcmpEqI32 (sw : BitVec 1) (m : BitVec 3) (a b : BitVec 8) : Encoding.Statement (.vcmpEqI32 sw m a b) := by
  intro wd h
  have hw : sw ++ 0x70#7 ++ m ++ 0x0#5 ++ a ++ b = wd := Option.some.inj h
  have h0 : fieldOf wd 24 7 = 0x70#7 := by rw [← hw, fieldOf, fieldHi _ _ _ (by decide), fieldHi _ _ _ (by decide), fieldHi _ _ _ (by decide), fieldHi _ _ _ (by decide), fieldLo _ _ _ (by decide)]; rfl
  have h1 : fieldOf wd 16 5 = 0x0#5 := by rw [← hw, fieldOf, fieldHi _ _ _ (by decide), fieldHi _ _ _ (by decide), fieldLo _ _ _ (by decide)]; rfl
  have h2 : fieldOf wd 31 1 = sw := by rw [← hw, fieldOf, fieldHi _ _ _ (by decide), fieldHi _ _ _ (by decide), fieldHi _ _ _ (by decide), fieldHi _ _ _ (by decide), fieldHi _ _ _ (by decide), fieldAll]
  have h3 : fieldOf wd 21 3 = m := by rw [← hw, fieldOf, fieldHi _ _ _ (by decide), fieldHi _ _ _ (by decide), fieldHi _ _ _ (by decide), fieldLo _ _ _ (by decide), fieldAll]
  have h4 : fieldOf wd 8 8 = a := by rw [← hw, fieldOf, fieldHi _ _ _ (by decide), fieldLo _ _ _ (by decide), fieldAll]
  have h5 : fieldOf wd 0 8 = b := by rw [← hw, fieldOf, fieldLo _ _ _ (by decide), fieldAll]
  simp [decode, decodeCompound, decode70, h0, h1, h2, h3, h4, h5]

theorem Encoding.vcmpNeI32 (sw : BitVec 1) (m : BitVec 3) (a b : BitVec 8) : Encoding.Statement (.vcmpNeI32 sw m a b) := by
  intro wd h
  have hw : sw ++ 0x70#7 ++ m ++ 0x1#5 ++ a ++ b = wd := Option.some.inj h
  have h0 : fieldOf wd 24 7 = 0x70#7 := by rw [← hw, fieldOf, fieldHi _ _ _ (by decide), fieldHi _ _ _ (by decide), fieldHi _ _ _ (by decide), fieldHi _ _ _ (by decide), fieldLo _ _ _ (by decide)]; rfl
  have h1 : fieldOf wd 16 5 = 0x1#5 := by rw [← hw, fieldOf, fieldHi _ _ _ (by decide), fieldHi _ _ _ (by decide), fieldLo _ _ _ (by decide)]; rfl
  have h2 : fieldOf wd 31 1 = sw := by rw [← hw, fieldOf, fieldHi _ _ _ (by decide), fieldHi _ _ _ (by decide), fieldHi _ _ _ (by decide), fieldHi _ _ _ (by decide), fieldHi _ _ _ (by decide), fieldAll]
  have h3 : fieldOf wd 21 3 = m := by rw [← hw, fieldOf, fieldHi _ _ _ (by decide), fieldHi _ _ _ (by decide), fieldHi _ _ _ (by decide), fieldLo _ _ _ (by decide), fieldAll]
  have h4 : fieldOf wd 8 8 = a := by rw [← hw, fieldOf, fieldHi _ _ _ (by decide), fieldLo _ _ _ (by decide), fieldAll]
  have h5 : fieldOf wd 0 8 = b := by rw [← hw, fieldOf, fieldLo _ _ _ (by decide), fieldAll]
  simp [decode, decodeCompound, decode70, h0, h1, h2, h3, h4, h5]

theorem Encoding.vcmpLtI32 (sw : BitVec 1) (m : BitVec 3) (a b : BitVec 8) : Encoding.Statement (.vcmpLtI32 sw m a b) := by
  intro wd h
  have hw : sw ++ 0x70#7 ++ m ++ 0x2#5 ++ a ++ b = wd := Option.some.inj h
  have h0 : fieldOf wd 24 7 = 0x70#7 := by rw [← hw, fieldOf, fieldHi _ _ _ (by decide), fieldHi _ _ _ (by decide), fieldHi _ _ _ (by decide), fieldHi _ _ _ (by decide), fieldLo _ _ _ (by decide)]; rfl
  have h1 : fieldOf wd 16 5 = 0x2#5 := by rw [← hw, fieldOf, fieldHi _ _ _ (by decide), fieldHi _ _ _ (by decide), fieldLo _ _ _ (by decide)]; rfl
  have h2 : fieldOf wd 31 1 = sw := by rw [← hw, fieldOf, fieldHi _ _ _ (by decide), fieldHi _ _ _ (by decide), fieldHi _ _ _ (by decide), fieldHi _ _ _ (by decide), fieldHi _ _ _ (by decide), fieldAll]
  have h3 : fieldOf wd 21 3 = m := by rw [← hw, fieldOf, fieldHi _ _ _ (by decide), fieldHi _ _ _ (by decide), fieldHi _ _ _ (by decide), fieldLo _ _ _ (by decide), fieldAll]
  have h4 : fieldOf wd 8 8 = a := by rw [← hw, fieldOf, fieldHi _ _ _ (by decide), fieldLo _ _ _ (by decide), fieldAll]
  have h5 : fieldOf wd 0 8 = b := by rw [← hw, fieldOf, fieldLo _ _ _ (by decide), fieldAll]
  simp [decode, decodeCompound, decode70, h0, h1, h2, h3, h4, h5]

theorem Encoding.vcmpLeI32 (sw : BitVec 1) (m : BitVec 3) (a b : BitVec 8) : Encoding.Statement (.vcmpLeI32 sw m a b) := by
  intro wd h
  have hw : sw ++ 0x70#7 ++ m ++ 0x3#5 ++ a ++ b = wd := Option.some.inj h
  have h0 : fieldOf wd 24 7 = 0x70#7 := by rw [← hw, fieldOf, fieldHi _ _ _ (by decide), fieldHi _ _ _ (by decide), fieldHi _ _ _ (by decide), fieldHi _ _ _ (by decide), fieldLo _ _ _ (by decide)]; rfl
  have h1 : fieldOf wd 16 5 = 0x3#5 := by rw [← hw, fieldOf, fieldHi _ _ _ (by decide), fieldHi _ _ _ (by decide), fieldLo _ _ _ (by decide)]; rfl
  have h2 : fieldOf wd 31 1 = sw := by rw [← hw, fieldOf, fieldHi _ _ _ (by decide), fieldHi _ _ _ (by decide), fieldHi _ _ _ (by decide), fieldHi _ _ _ (by decide), fieldHi _ _ _ (by decide), fieldAll]
  have h3 : fieldOf wd 21 3 = m := by rw [← hw, fieldOf, fieldHi _ _ _ (by decide), fieldHi _ _ _ (by decide), fieldHi _ _ _ (by decide), fieldLo _ _ _ (by decide), fieldAll]
  have h4 : fieldOf wd 8 8 = a := by rw [← hw, fieldOf, fieldHi _ _ _ (by decide), fieldLo _ _ _ (by decide), fieldAll]
  have h5 : fieldOf wd 0 8 = b := by rw [← hw, fieldOf, fieldLo _ _ _ (by decide), fieldAll]
  simp [decode, decodeCompound, decode70, h0, h1, h2, h3, h4, h5]

theorem Encoding.vcmpLtuI32 (sw : BitVec 1) (m : BitVec 3) (a b : BitVec 8) : Encoding.Statement (.vcmpLtuI32 sw m a b) := by
  intro wd h
  have hw : sw ++ 0x70#7 ++ m ++ 0x4#5 ++ a ++ b = wd := Option.some.inj h
  have h0 : fieldOf wd 24 7 = 0x70#7 := by rw [← hw, fieldOf, fieldHi _ _ _ (by decide), fieldHi _ _ _ (by decide), fieldHi _ _ _ (by decide), fieldHi _ _ _ (by decide), fieldLo _ _ _ (by decide)]; rfl
  have h1 : fieldOf wd 16 5 = 0x4#5 := by rw [← hw, fieldOf, fieldHi _ _ _ (by decide), fieldHi _ _ _ (by decide), fieldLo _ _ _ (by decide)]; rfl
  have h2 : fieldOf wd 31 1 = sw := by rw [← hw, fieldOf, fieldHi _ _ _ (by decide), fieldHi _ _ _ (by decide), fieldHi _ _ _ (by decide), fieldHi _ _ _ (by decide), fieldHi _ _ _ (by decide), fieldAll]
  have h3 : fieldOf wd 21 3 = m := by rw [← hw, fieldOf, fieldHi _ _ _ (by decide), fieldHi _ _ _ (by decide), fieldHi _ _ _ (by decide), fieldLo _ _ _ (by decide), fieldAll]
  have h4 : fieldOf wd 8 8 = a := by rw [← hw, fieldOf, fieldHi _ _ _ (by decide), fieldLo _ _ _ (by decide), fieldAll]
  have h5 : fieldOf wd 0 8 = b := by rw [← hw, fieldOf, fieldLo _ _ _ (by decide), fieldAll]
  simp [decode, decodeCompound, decode70, h0, h1, h2, h3, h4, h5]

theorem Encoding.vcmpLeuI32 (sw : BitVec 1) (m : BitVec 3) (a b : BitVec 8) : Encoding.Statement (.vcmpLeuI32 sw m a b) := by
  intro wd h
  have hw : sw ++ 0x70#7 ++ m ++ 0x5#5 ++ a ++ b = wd := Option.some.inj h
  have h0 : fieldOf wd 24 7 = 0x70#7 := by rw [← hw, fieldOf, fieldHi _ _ _ (by decide), fieldHi _ _ _ (by decide), fieldHi _ _ _ (by decide), fieldHi _ _ _ (by decide), fieldLo _ _ _ (by decide)]; rfl
  have h1 : fieldOf wd 16 5 = 0x5#5 := by rw [← hw, fieldOf, fieldHi _ _ _ (by decide), fieldHi _ _ _ (by decide), fieldLo _ _ _ (by decide)]; rfl
  have h2 : fieldOf wd 31 1 = sw := by rw [← hw, fieldOf, fieldHi _ _ _ (by decide), fieldHi _ _ _ (by decide), fieldHi _ _ _ (by decide), fieldHi _ _ _ (by decide), fieldHi _ _ _ (by decide), fieldAll]
  have h3 : fieldOf wd 21 3 = m := by rw [← hw, fieldOf, fieldHi _ _ _ (by decide), fieldHi _ _ _ (by decide), fieldHi _ _ _ (by decide), fieldLo _ _ _ (by decide), fieldAll]
  have h4 : fieldOf wd 8 8 = a := by rw [← hw, fieldOf, fieldHi _ _ _ (by decide), fieldLo _ _ _ (by decide), fieldAll]
  have h5 : fieldOf wd 0 8 = b := by rw [← hw, fieldOf, fieldLo _ _ _ (by decide), fieldAll]
  simp [decode, decodeCompound, decode70, h0, h1, h2, h3, h4, h5]

theorem Encoding.vcmpEqF32 (sw : BitVec 1) (m : BitVec 3) (a b : BitVec 8) : Encoding.Statement (.vcmpEqF32 sw m a b) := by
  intro wd h
  have hw : sw ++ 0x70#7 ++ m ++ 0x8#5 ++ a ++ b = wd := Option.some.inj h
  have h0 : fieldOf wd 24 7 = 0x70#7 := by rw [← hw, fieldOf, fieldHi _ _ _ (by decide), fieldHi _ _ _ (by decide), fieldHi _ _ _ (by decide), fieldHi _ _ _ (by decide), fieldLo _ _ _ (by decide)]; rfl
  have h1 : fieldOf wd 16 5 = 0x8#5 := by rw [← hw, fieldOf, fieldHi _ _ _ (by decide), fieldHi _ _ _ (by decide), fieldLo _ _ _ (by decide)]; rfl
  have h2 : fieldOf wd 31 1 = sw := by rw [← hw, fieldOf, fieldHi _ _ _ (by decide), fieldHi _ _ _ (by decide), fieldHi _ _ _ (by decide), fieldHi _ _ _ (by decide), fieldHi _ _ _ (by decide), fieldAll]
  have h3 : fieldOf wd 21 3 = m := by rw [← hw, fieldOf, fieldHi _ _ _ (by decide), fieldHi _ _ _ (by decide), fieldHi _ _ _ (by decide), fieldLo _ _ _ (by decide), fieldAll]
  have h4 : fieldOf wd 8 8 = a := by rw [← hw, fieldOf, fieldHi _ _ _ (by decide), fieldLo _ _ _ (by decide), fieldAll]
  have h5 : fieldOf wd 0 8 = b := by rw [← hw, fieldOf, fieldLo _ _ _ (by decide), fieldAll]
  simp [decode, decodeCompound, decode70, h0, h1, h2, h3, h4, h5]

theorem Encoding.vcmpNeF32 (sw : BitVec 1) (m : BitVec 3) (a b : BitVec 8) : Encoding.Statement (.vcmpNeF32 sw m a b) := by
  intro wd h
  have hw : sw ++ 0x70#7 ++ m ++ 0x9#5 ++ a ++ b = wd := Option.some.inj h
  have h0 : fieldOf wd 24 7 = 0x70#7 := by rw [← hw, fieldOf, fieldHi _ _ _ (by decide), fieldHi _ _ _ (by decide), fieldHi _ _ _ (by decide), fieldHi _ _ _ (by decide), fieldLo _ _ _ (by decide)]; rfl
  have h1 : fieldOf wd 16 5 = 0x9#5 := by rw [← hw, fieldOf, fieldHi _ _ _ (by decide), fieldHi _ _ _ (by decide), fieldLo _ _ _ (by decide)]; rfl
  have h2 : fieldOf wd 31 1 = sw := by rw [← hw, fieldOf, fieldHi _ _ _ (by decide), fieldHi _ _ _ (by decide), fieldHi _ _ _ (by decide), fieldHi _ _ _ (by decide), fieldHi _ _ _ (by decide), fieldAll]
  have h3 : fieldOf wd 21 3 = m := by rw [← hw, fieldOf, fieldHi _ _ _ (by decide), fieldHi _ _ _ (by decide), fieldHi _ _ _ (by decide), fieldLo _ _ _ (by decide), fieldAll]
  have h4 : fieldOf wd 8 8 = a := by rw [← hw, fieldOf, fieldHi _ _ _ (by decide), fieldLo _ _ _ (by decide), fieldAll]
  have h5 : fieldOf wd 0 8 = b := by rw [← hw, fieldOf, fieldLo _ _ _ (by decide), fieldAll]
  simp [decode, decodeCompound, decode70, h0, h1, h2, h3, h4, h5]

theorem Encoding.vcmpLtF32 (sw : BitVec 1) (m : BitVec 3) (a b : BitVec 8) : Encoding.Statement (.vcmpLtF32 sw m a b) := by
  intro wd h
  have hw : sw ++ 0x70#7 ++ m ++ 0xA#5 ++ a ++ b = wd := Option.some.inj h
  have h0 : fieldOf wd 24 7 = 0x70#7 := by rw [← hw, fieldOf, fieldHi _ _ _ (by decide), fieldHi _ _ _ (by decide), fieldHi _ _ _ (by decide), fieldHi _ _ _ (by decide), fieldLo _ _ _ (by decide)]; rfl
  have h1 : fieldOf wd 16 5 = 0xA#5 := by rw [← hw, fieldOf, fieldHi _ _ _ (by decide), fieldHi _ _ _ (by decide), fieldLo _ _ _ (by decide)]; rfl
  have h2 : fieldOf wd 31 1 = sw := by rw [← hw, fieldOf, fieldHi _ _ _ (by decide), fieldHi _ _ _ (by decide), fieldHi _ _ _ (by decide), fieldHi _ _ _ (by decide), fieldHi _ _ _ (by decide), fieldAll]
  have h3 : fieldOf wd 21 3 = m := by rw [← hw, fieldOf, fieldHi _ _ _ (by decide), fieldHi _ _ _ (by decide), fieldHi _ _ _ (by decide), fieldLo _ _ _ (by decide), fieldAll]
  have h4 : fieldOf wd 8 8 = a := by rw [← hw, fieldOf, fieldHi _ _ _ (by decide), fieldLo _ _ _ (by decide), fieldAll]
  have h5 : fieldOf wd 0 8 = b := by rw [← hw, fieldOf, fieldLo _ _ _ (by decide), fieldAll]
  simp [decode, decodeCompound, decode70, h0, h1, h2, h3, h4, h5]

theorem Encoding.vcmpLeF32 (sw : BitVec 1) (m : BitVec 3) (a b : BitVec 8) : Encoding.Statement (.vcmpLeF32 sw m a b) := by
  intro wd h
  have hw : sw ++ 0x70#7 ++ m ++ 0xB#5 ++ a ++ b = wd := Option.some.inj h
  have h0 : fieldOf wd 24 7 = 0x70#7 := by rw [← hw, fieldOf, fieldHi _ _ _ (by decide), fieldHi _ _ _ (by decide), fieldHi _ _ _ (by decide), fieldHi _ _ _ (by decide), fieldLo _ _ _ (by decide)]; rfl
  have h1 : fieldOf wd 16 5 = 0xB#5 := by rw [← hw, fieldOf, fieldHi _ _ _ (by decide), fieldHi _ _ _ (by decide), fieldLo _ _ _ (by decide)]; rfl
  have h2 : fieldOf wd 31 1 = sw := by rw [← hw, fieldOf, fieldHi _ _ _ (by decide), fieldHi _ _ _ (by decide), fieldHi _ _ _ (by decide), fieldHi _ _ _ (by decide), fieldHi _ _ _ (by decide), fieldAll]
  have h3 : fieldOf wd 21 3 = m := by rw [← hw, fieldOf, fieldHi _ _ _ (by decide), fieldHi _ _ _ (by decide), fieldHi _ _ _ (by decide), fieldLo _ _ _ (by decide), fieldAll]
  have h4 : fieldOf wd 8 8 = a := by rw [← hw, fieldOf, fieldHi _ _ _ (by decide), fieldLo _ _ _ (by decide), fieldAll]
  have h5 : fieldOf wd 0 8 = b := by rw [← hw, fieldOf, fieldLo _ _ _ (by decide), fieldAll]
  simp [decode, decodeCompound, decode70, h0, h1, h2, h3, h4, h5]

theorem Encoding.vcmpUnF32 (sw : BitVec 1) (m : BitVec 3) (a b : BitVec 8) : Encoding.Statement (.vcmpUnF32 sw m a b) := by
  intro wd h
  have hw : sw ++ 0x70#7 ++ m ++ 0xC#5 ++ a ++ b = wd := Option.some.inj h
  have h0 : fieldOf wd 24 7 = 0x70#7 := by rw [← hw, fieldOf, fieldHi _ _ _ (by decide), fieldHi _ _ _ (by decide), fieldHi _ _ _ (by decide), fieldHi _ _ _ (by decide), fieldLo _ _ _ (by decide)]; rfl
  have h1 : fieldOf wd 16 5 = 0xC#5 := by rw [← hw, fieldOf, fieldHi _ _ _ (by decide), fieldHi _ _ _ (by decide), fieldLo _ _ _ (by decide)]; rfl
  have h2 : fieldOf wd 31 1 = sw := by rw [← hw, fieldOf, fieldHi _ _ _ (by decide), fieldHi _ _ _ (by decide), fieldHi _ _ _ (by decide), fieldHi _ _ _ (by decide), fieldHi _ _ _ (by decide), fieldAll]
  have h3 : fieldOf wd 21 3 = m := by rw [← hw, fieldOf, fieldHi _ _ _ (by decide), fieldHi _ _ _ (by decide), fieldHi _ _ _ (by decide), fieldLo _ _ _ (by decide), fieldAll]
  have h4 : fieldOf wd 8 8 = a := by rw [← hw, fieldOf, fieldHi _ _ _ (by decide), fieldLo _ _ _ (by decide), fieldAll]
  have h5 : fieldOf wd 0 8 = b := by rw [← hw, fieldOf, fieldLo _ _ _ (by decide), fieldAll]
  simp [decode, decodeCompound, decode70, h0, h1, h2, h3, h4, h5]

theorem Encoding.mand (sw : BitVec 1) (d a b : BitVec 3) : Encoding.Statement (.mand sw d a b) := by
  intro wd h
  have hw : sw ++ 0x71#7 ++ 0x0#5 ++ d ++ a ++ b ++ 0x0#10 = wd := Option.some.inj h
  have h0 : fieldOf wd 24 7 = 0x71#7 := by rw [← hw, fieldOf, fieldHi _ _ _ (by decide), fieldHi _ _ _ (by decide), fieldHi _ _ _ (by decide), fieldHi _ _ _ (by decide), fieldHi _ _ _ (by decide), fieldLo _ _ _ (by decide)]; rfl
  have h1 : fieldOf wd 19 5 = 0x0#5 := by rw [← hw, fieldOf, fieldHi _ _ _ (by decide), fieldHi _ _ _ (by decide), fieldHi _ _ _ (by decide), fieldHi _ _ _ (by decide), fieldLo _ _ _ (by decide)]; rfl
  have h2 : fieldOf wd 0 10 = 0x0#10 := by rw [← hw, fieldOf, fieldLo _ _ _ (by decide)]; rfl
  have h3 : fieldOf wd 31 1 = sw := by rw [← hw, fieldOf, fieldHi _ _ _ (by decide), fieldHi _ _ _ (by decide), fieldHi _ _ _ (by decide), fieldHi _ _ _ (by decide), fieldHi _ _ _ (by decide), fieldHi _ _ _ (by decide), fieldAll]
  have h4 : fieldOf wd 16 3 = d := by rw [← hw, fieldOf, fieldHi _ _ _ (by decide), fieldHi _ _ _ (by decide), fieldHi _ _ _ (by decide), fieldLo _ _ _ (by decide), fieldAll]
  have h5 : fieldOf wd 13 3 = a := by rw [← hw, fieldOf, fieldHi _ _ _ (by decide), fieldHi _ _ _ (by decide), fieldLo _ _ _ (by decide), fieldAll]
  have h6 : fieldOf wd 10 3 = b := by rw [← hw, fieldOf, fieldHi _ _ _ (by decide), fieldLo _ _ _ (by decide), fieldAll]
  simp [decode, decodeCompound, decode71, h0, h1, h2, h3, h4, h5, h6]

theorem Encoding.mor (sw : BitVec 1) (d a b : BitVec 3) : Encoding.Statement (.mor sw d a b) := by
  intro wd h
  have hw : sw ++ 0x71#7 ++ 0x1#5 ++ d ++ a ++ b ++ 0x0#10 = wd := Option.some.inj h
  have h0 : fieldOf wd 24 7 = 0x71#7 := by rw [← hw, fieldOf, fieldHi _ _ _ (by decide), fieldHi _ _ _ (by decide), fieldHi _ _ _ (by decide), fieldHi _ _ _ (by decide), fieldHi _ _ _ (by decide), fieldLo _ _ _ (by decide)]; rfl
  have h1 : fieldOf wd 19 5 = 0x1#5 := by rw [← hw, fieldOf, fieldHi _ _ _ (by decide), fieldHi _ _ _ (by decide), fieldHi _ _ _ (by decide), fieldHi _ _ _ (by decide), fieldLo _ _ _ (by decide)]; rfl
  have h2 : fieldOf wd 0 10 = 0x0#10 := by rw [← hw, fieldOf, fieldLo _ _ _ (by decide)]; rfl
  have h3 : fieldOf wd 31 1 = sw := by rw [← hw, fieldOf, fieldHi _ _ _ (by decide), fieldHi _ _ _ (by decide), fieldHi _ _ _ (by decide), fieldHi _ _ _ (by decide), fieldHi _ _ _ (by decide), fieldHi _ _ _ (by decide), fieldAll]
  have h4 : fieldOf wd 16 3 = d := by rw [← hw, fieldOf, fieldHi _ _ _ (by decide), fieldHi _ _ _ (by decide), fieldHi _ _ _ (by decide), fieldLo _ _ _ (by decide), fieldAll]
  have h5 : fieldOf wd 13 3 = a := by rw [← hw, fieldOf, fieldHi _ _ _ (by decide), fieldHi _ _ _ (by decide), fieldLo _ _ _ (by decide), fieldAll]
  have h6 : fieldOf wd 10 3 = b := by rw [← hw, fieldOf, fieldHi _ _ _ (by decide), fieldLo _ _ _ (by decide), fieldAll]
  simp [decode, decodeCompound, decode71, h0, h1, h2, h3, h4, h5, h6]

theorem Encoding.mxor (sw : BitVec 1) (d a b : BitVec 3) : Encoding.Statement (.mxor sw d a b) := by
  intro wd h
  have hw : sw ++ 0x71#7 ++ 0x2#5 ++ d ++ a ++ b ++ 0x0#10 = wd := Option.some.inj h
  have h0 : fieldOf wd 24 7 = 0x71#7 := by rw [← hw, fieldOf, fieldHi _ _ _ (by decide), fieldHi _ _ _ (by decide), fieldHi _ _ _ (by decide), fieldHi _ _ _ (by decide), fieldHi _ _ _ (by decide), fieldLo _ _ _ (by decide)]; rfl
  have h1 : fieldOf wd 19 5 = 0x2#5 := by rw [← hw, fieldOf, fieldHi _ _ _ (by decide), fieldHi _ _ _ (by decide), fieldHi _ _ _ (by decide), fieldHi _ _ _ (by decide), fieldLo _ _ _ (by decide)]; rfl
  have h2 : fieldOf wd 0 10 = 0x0#10 := by rw [← hw, fieldOf, fieldLo _ _ _ (by decide)]; rfl
  have h3 : fieldOf wd 31 1 = sw := by rw [← hw, fieldOf, fieldHi _ _ _ (by decide), fieldHi _ _ _ (by decide), fieldHi _ _ _ (by decide), fieldHi _ _ _ (by decide), fieldHi _ _ _ (by decide), fieldHi _ _ _ (by decide), fieldAll]
  have h4 : fieldOf wd 16 3 = d := by rw [← hw, fieldOf, fieldHi _ _ _ (by decide), fieldHi _ _ _ (by decide), fieldHi _ _ _ (by decide), fieldLo _ _ _ (by decide), fieldAll]
  have h5 : fieldOf wd 13 3 = a := by rw [← hw, fieldOf, fieldHi _ _ _ (by decide), fieldHi _ _ _ (by decide), fieldLo _ _ _ (by decide), fieldAll]
  have h6 : fieldOf wd 10 3 = b := by rw [← hw, fieldOf, fieldHi _ _ _ (by decide), fieldLo _ _ _ (by decide), fieldAll]
  simp [decode, decodeCompound, decode71, h0, h1, h2, h3, h4, h5, h6]

theorem Encoding.mandn (sw : BitVec 1) (d a b : BitVec 3) : Encoding.Statement (.mandn sw d a b) := by
  intro wd h
  have hw : sw ++ 0x71#7 ++ 0x3#5 ++ d ++ a ++ b ++ 0x0#10 = wd := Option.some.inj h
  have h0 : fieldOf wd 24 7 = 0x71#7 := by rw [← hw, fieldOf, fieldHi _ _ _ (by decide), fieldHi _ _ _ (by decide), fieldHi _ _ _ (by decide), fieldHi _ _ _ (by decide), fieldHi _ _ _ (by decide), fieldLo _ _ _ (by decide)]; rfl
  have h1 : fieldOf wd 19 5 = 0x3#5 := by rw [← hw, fieldOf, fieldHi _ _ _ (by decide), fieldHi _ _ _ (by decide), fieldHi _ _ _ (by decide), fieldHi _ _ _ (by decide), fieldLo _ _ _ (by decide)]; rfl
  have h2 : fieldOf wd 0 10 = 0x0#10 := by rw [← hw, fieldOf, fieldLo _ _ _ (by decide)]; rfl
  have h3 : fieldOf wd 31 1 = sw := by rw [← hw, fieldOf, fieldHi _ _ _ (by decide), fieldHi _ _ _ (by decide), fieldHi _ _ _ (by decide), fieldHi _ _ _ (by decide), fieldHi _ _ _ (by decide), fieldHi _ _ _ (by decide), fieldAll]
  have h4 : fieldOf wd 16 3 = d := by rw [← hw, fieldOf, fieldHi _ _ _ (by decide), fieldHi _ _ _ (by decide), fieldHi _ _ _ (by decide), fieldLo _ _ _ (by decide), fieldAll]
  have h5 : fieldOf wd 13 3 = a := by rw [← hw, fieldOf, fieldHi _ _ _ (by decide), fieldHi _ _ _ (by decide), fieldLo _ _ _ (by decide), fieldAll]
  have h6 : fieldOf wd 10 3 = b := by rw [← hw, fieldOf, fieldHi _ _ _ (by decide), fieldLo _ _ _ (by decide), fieldAll]
  simp [decode, decodeCompound, decode71, h0, h1, h2, h3, h4, h5, h6]

theorem Encoding.mnot (sw : BitVec 1) (d a : BitVec 3) : Encoding.Statement (.mnot sw d a) := by
  intro wd h
  have hw : sw ++ 0x71#7 ++ 0x4#5 ++ d ++ a ++ 0x0#13 = wd := Option.some.inj h
  have h0 : fieldOf wd 24 7 = 0x71#7 := by rw [← hw, fieldOf, fieldHi _ _ _ (by decide), fieldHi _ _ _ (by decide), fieldHi _ _ _ (by decide), fieldHi _ _ _ (by decide), fieldLo _ _ _ (by decide)]; rfl
  have h1 : fieldOf wd 19 5 = 0x4#5 := by rw [← hw, fieldOf, fieldHi _ _ _ (by decide), fieldHi _ _ _ (by decide), fieldHi _ _ _ (by decide), fieldLo _ _ _ (by decide)]; rfl
  have h2 : fieldOf wd 0 13 = 0x0#13 := by rw [← hw, fieldOf, fieldLo _ _ _ (by decide)]; rfl
  have h3 : fieldOf wd 31 1 = sw := by rw [← hw, fieldOf, fieldHi _ _ _ (by decide), fieldHi _ _ _ (by decide), fieldHi _ _ _ (by decide), fieldHi _ _ _ (by decide), fieldHi _ _ _ (by decide), fieldAll]
  have h4 : fieldOf wd 16 3 = d := by rw [← hw, fieldOf, fieldHi _ _ _ (by decide), fieldHi _ _ _ (by decide), fieldLo _ _ _ (by decide), fieldAll]
  have h5 : fieldOf wd 13 3 = a := by rw [← hw, fieldOf, fieldHi _ _ _ (by decide), fieldLo _ _ _ (by decide), fieldAll]
  simp [decode, decodeCompound, decode71, h0, h1, h2, h3, h4, h5]

theorem Encoding.mfroms (sw : BitVec 1) (d : BitVec 3) (r : BitVec 6) : Encoding.Statement (.mfroms sw d r) := by
  intro wd h
  have hw : sw ++ 0x71#7 ++ 0x5#5 ++ d ++ 0x0#6 ++ r ++ 0x0#4 = wd := Option.some.inj h
  have h0 : fieldOf wd 24 7 = 0x71#7 := by rw [← hw, fieldOf, fieldHi _ _ _ (by decide), fieldHi _ _ _ (by decide), fieldHi _ _ _ (by decide), fieldHi _ _ _ (by decide), fieldHi _ _ _ (by decide), fieldLo _ _ _ (by decide)]; rfl
  have h1 : fieldOf wd 19 5 = 0x5#5 := by rw [← hw, fieldOf, fieldHi _ _ _ (by decide), fieldHi _ _ _ (by decide), fieldHi _ _ _ (by decide), fieldHi _ _ _ (by decide), fieldLo _ _ _ (by decide)]; rfl
  have h2 : fieldOf wd 10 6 = 0x0#6 := by rw [← hw, fieldOf, fieldHi _ _ _ (by decide), fieldHi _ _ _ (by decide), fieldLo _ _ _ (by decide)]; rfl
  have h3 : fieldOf wd 0 4 = 0x0#4 := by rw [← hw, fieldOf, fieldLo _ _ _ (by decide)]; rfl
  have h4 : fieldOf wd 31 1 = sw := by rw [← hw, fieldOf, fieldHi _ _ _ (by decide), fieldHi _ _ _ (by decide), fieldHi _ _ _ (by decide), fieldHi _ _ _ (by decide), fieldHi _ _ _ (by decide), fieldHi _ _ _ (by decide), fieldAll]
  have h5 : fieldOf wd 16 3 = d := by rw [← hw, fieldOf, fieldHi _ _ _ (by decide), fieldHi _ _ _ (by decide), fieldHi _ _ _ (by decide), fieldLo _ _ _ (by decide), fieldAll]
  have h6 : fieldOf wd 4 6 = r := by rw [← hw, fieldOf, fieldHi _ _ _ (by decide), fieldLo _ _ _ (by decide), fieldAll]
  simp [decode, decodeCompound, decode71, h0, h1, h2, h3, h4, h5, h6]

theorem Encoding.mtos (sw : BitVec 1) (a : BitVec 3) (r : BitVec 6) : Encoding.Statement (.mtos sw a r) := by
  intro wd h
  have hw : sw ++ 0x71#7 ++ 0x30#8 ++ a ++ 0x0#3 ++ r ++ 0x0#4 = wd := Option.some.inj h
  have h0 : fieldOf wd 24 7 = 0x71#7 := by rw [← hw, fieldOf, fieldHi _ _ _ (by decide), fieldHi _ _ _ (by decide), fieldHi _ _ _ (by decide), fieldHi _ _ _ (by decide), fieldHi _ _ _ (by decide), fieldLo _ _ _ (by decide)]; rfl
  have h1 : fieldOf wd 19 5 = 0x6#5 := by rw [← hw, fieldOf, fieldHi _ _ _ (by decide), fieldHi _ _ _ (by decide), fieldHi _ _ _ (by decide), fieldHi _ _ _ (by decide), fieldLo _ _ _ (by decide)]; rfl
  have h2 : fieldOf wd 16 3 = 0x0#3 := by rw [← hw, fieldOf, fieldHi _ _ _ (by decide), fieldHi _ _ _ (by decide), fieldHi _ _ _ (by decide), fieldHi _ _ _ (by decide), fieldLo _ _ _ (by decide)]; rfl
  have h3 : fieldOf wd 10 3 = 0x0#3 := by rw [← hw, fieldOf, fieldHi _ _ _ (by decide), fieldHi _ _ _ (by decide), fieldLo _ _ _ (by decide)]; rfl
  have h4 : fieldOf wd 0 4 = 0x0#4 := by rw [← hw, fieldOf, fieldLo _ _ _ (by decide)]; rfl
  have h5 : fieldOf wd 31 1 = sw := by rw [← hw, fieldOf, fieldHi _ _ _ (by decide), fieldHi _ _ _ (by decide), fieldHi _ _ _ (by decide), fieldHi _ _ _ (by decide), fieldHi _ _ _ (by decide), fieldHi _ _ _ (by decide), fieldAll]
  have h6 : fieldOf wd 13 3 = a := by rw [← hw, fieldOf, fieldHi _ _ _ (by decide), fieldHi _ _ _ (by decide), fieldHi _ _ _ (by decide), fieldLo _ _ _ (by decide), fieldAll]
  have h7 : fieldOf wd 4 6 = r := by rw [← hw, fieldOf, fieldHi _ _ _ (by decide), fieldLo _ _ _ (by decide), fieldAll]
  simp [decode, decodeCompound, decode71, h0, h1, h2, h3, h4, h5, h6, h7]

theorem Encoding.mpopc (sw : BitVec 1) (a : BitVec 3) (r : BitVec 6) : Encoding.Statement (.mpopc sw a r) := by
  intro wd h
  have hw : sw ++ 0x71#7 ++ 0x38#8 ++ a ++ 0x0#3 ++ r ++ 0x0#4 = wd := Option.some.inj h
  have h0 : fieldOf wd 24 7 = 0x71#7 := by rw [← hw, fieldOf, fieldHi _ _ _ (by decide), fieldHi _ _ _ (by decide), fieldHi _ _ _ (by decide), fieldHi _ _ _ (by decide), fieldHi _ _ _ (by decide), fieldLo _ _ _ (by decide)]; rfl
  have h1 : fieldOf wd 19 5 = 0x7#5 := by rw [← hw, fieldOf, fieldHi _ _ _ (by decide), fieldHi _ _ _ (by decide), fieldHi _ _ _ (by decide), fieldHi _ _ _ (by decide), fieldLo _ _ _ (by decide)]; rfl
  have h2 : fieldOf wd 16 3 = 0x0#3 := by rw [← hw, fieldOf, fieldHi _ _ _ (by decide), fieldHi _ _ _ (by decide), fieldHi _ _ _ (by decide), fieldHi _ _ _ (by decide), fieldLo _ _ _ (by decide)]; rfl
  have h3 : fieldOf wd 10 3 = 0x0#3 := by rw [← hw, fieldOf, fieldHi _ _ _ (by decide), fieldHi _ _ _ (by decide), fieldLo _ _ _ (by decide)]; rfl
  have h4 : fieldOf wd 0 4 = 0x0#4 := by rw [← hw, fieldOf, fieldLo _ _ _ (by decide)]; rfl
  have h5 : fieldOf wd 31 1 = sw := by rw [← hw, fieldOf, fieldHi _ _ _ (by decide), fieldHi _ _ _ (by decide), fieldHi _ _ _ (by decide), fieldHi _ _ _ (by decide), fieldHi _ _ _ (by decide), fieldHi _ _ _ (by decide), fieldAll]
  have h6 : fieldOf wd 13 3 = a := by rw [← hw, fieldOf, fieldHi _ _ _ (by decide), fieldHi _ _ _ (by decide), fieldHi _ _ _ (by decide), fieldLo _ _ _ (by decide), fieldAll]
  have h7 : fieldOf wd 4 6 = r := by rw [← hw, fieldOf, fieldHi _ _ _ (by decide), fieldLo _ _ _ (by decide), fieldAll]
  simp [decode, decodeCompound, decode71, h0, h1, h2, h3, h4, h5, h6, h7]

theorem Encoding.mffs (sw : BitVec 1) (a : BitVec 3) (r : BitVec 6) : Encoding.Statement (.mffs sw a r) := by
  intro wd h
  have hw : sw ++ 0x71#7 ++ 0x40#8 ++ a ++ 0x0#3 ++ r ++ 0x0#4 = wd := Option.some.inj h
  have h0 : fieldOf wd 24 7 = 0x71#7 := by rw [← hw, fieldOf, fieldHi _ _ _ (by decide), fieldHi _ _ _ (by decide), fieldHi _ _ _ (by decide), fieldHi _ _ _ (by decide), fieldHi _ _ _ (by decide), fieldLo _ _ _ (by decide)]; rfl
  have h1 : fieldOf wd 19 5 = 0x8#5 := by rw [← hw, fieldOf, fieldHi _ _ _ (by decide), fieldHi _ _ _ (by decide), fieldHi _ _ _ (by decide), fieldHi _ _ _ (by decide), fieldLo _ _ _ (by decide)]; rfl
  have h2 : fieldOf wd 16 3 = 0x0#3 := by rw [← hw, fieldOf, fieldHi _ _ _ (by decide), fieldHi _ _ _ (by decide), fieldHi _ _ _ (by decide), fieldHi _ _ _ (by decide), fieldLo _ _ _ (by decide)]; rfl
  have h3 : fieldOf wd 10 3 = 0x0#3 := by rw [← hw, fieldOf, fieldHi _ _ _ (by decide), fieldHi _ _ _ (by decide), fieldLo _ _ _ (by decide)]; rfl
  have h4 : fieldOf wd 0 4 = 0x0#4 := by rw [← hw, fieldOf, fieldLo _ _ _ (by decide)]; rfl
  have h5 : fieldOf wd 31 1 = sw := by rw [← hw, fieldOf, fieldHi _ _ _ (by decide), fieldHi _ _ _ (by decide), fieldHi _ _ _ (by decide), fieldHi _ _ _ (by decide), fieldHi _ _ _ (by decide), fieldHi _ _ _ (by decide), fieldAll]
  have h6 : fieldOf wd 13 3 = a := by rw [← hw, fieldOf, fieldHi _ _ _ (by decide), fieldHi _ _ _ (by decide), fieldHi _ _ _ (by decide), fieldLo _ _ _ (by decide), fieldAll]
  have h7 : fieldOf wd 4 6 = r := by rw [← hw, fieldOf, fieldHi _ _ _ (by decide), fieldLo _ _ _ (by decide), fieldAll]
  simp [decode, decodeCompound, decode71, h0, h1, h2, h3, h4, h5, h6, h7]

theorem Encoding.vshfl (sw : BitVec 1) (d a : BitVec 8) (k : BitVec 3) : Encoding.Statement (.vshfl sw d a k) := by
  intro wd h
  have hw : sw ++ 0x72#7 ++ d ++ a ++ k ++ 0x0#5 = wd := Option.some.inj h
  have h0 : fieldOf wd 24 7 = 0x72#7 := by rw [← hw, fieldOf, fieldHi _ _ _ (by decide), fieldHi _ _ _ (by decide), fieldHi _ _ _ (by decide), fieldHi _ _ _ (by decide), fieldLo _ _ _ (by decide)]; rfl
  have h1 : fieldOf wd 0 5 = 0x0#5 := by rw [← hw, fieldOf, fieldLo _ _ _ (by decide)]; rfl
  have h2 : fieldOf wd 31 1 = sw := by rw [← hw, fieldOf, fieldHi _ _ _ (by decide), fieldHi _ _ _ (by decide), fieldHi _ _ _ (by decide), fieldHi _ _ _ (by decide), fieldHi _ _ _ (by decide), fieldAll]
  have h3 : fieldOf wd 16 8 = d := by rw [← hw, fieldOf, fieldHi _ _ _ (by decide), fieldHi _ _ _ (by decide), fieldHi _ _ _ (by decide), fieldLo _ _ _ (by decide), fieldAll]
  have h4 : fieldOf wd 8 8 = a := by rw [← hw, fieldOf, fieldHi _ _ _ (by decide), fieldHi _ _ _ (by decide), fieldLo _ _ _ (by decide), fieldAll]
  have h5 : fieldOf wd 5 3 = k := by rw [← hw, fieldOf, fieldHi _ _ _ (by decide), fieldLo _ _ _ (by decide), fieldAll]
  simp [decode, decodeCompound, decode72, h0, h1, h2, h3, h4, h5]

theorem Encoding.vmatch (sw : BitVec 1) (d a : BitVec 8) : Encoding.Statement (.vmatch sw d a) := by
  intro wd h
  have hw : sw ++ 0x72#7 ++ d ++ a ++ 0x1#8 = wd := Option.some.inj h
  have h0 : fieldOf wd 24 7 = 0x72#7 := by rw [← hw, fieldOf, fieldHi _ _ _ (by decide), fieldHi _ _ _ (by decide), fieldHi _ _ _ (by decide), fieldLo _ _ _ (by decide)]; rfl
  have h1 : fieldOf wd 0 5 = 0x1#5 := by rw [← hw, fieldOf, fieldLo _ _ _ (by decide)]; rfl
  have h2 : fieldOf wd 5 3 = 0x0#3 := by rw [← hw, fieldOf, fieldLo _ _ _ (by decide)]; rfl
  have h3 : fieldOf wd 31 1 = sw := by rw [← hw, fieldOf, fieldHi _ _ _ (by decide), fieldHi _ _ _ (by decide), fieldHi _ _ _ (by decide), fieldHi _ _ _ (by decide), fieldAll]
  have h4 : fieldOf wd 16 8 = d := by rw [← hw, fieldOf, fieldHi _ _ _ (by decide), fieldHi _ _ _ (by decide), fieldLo _ _ _ (by decide), fieldAll]
  have h5 : fieldOf wd 8 8 = a := by rw [← hw, fieldOf, fieldHi _ _ _ (by decide), fieldLo _ _ _ (by decide), fieldAll]
  simp [decode, decodeCompound, decode72, h0, h1, h2, h3, h4, h5]

theorem Encoding.vmatchF (sw : BitVec 1) (d a : BitVec 8) : Encoding.Statement (.vmatchF sw d a) := by
  intro wd h
  have hw : sw ++ 0x72#7 ++ d ++ a ++ 0x2#8 = wd := Option.some.inj h
  have h0 : fieldOf wd 24 7 = 0x72#7 := by rw [← hw, fieldOf, fieldHi _ _ _ (by decide), fieldHi _ _ _ (by decide), fieldHi _ _ _ (by decide), fieldLo _ _ _ (by decide)]; rfl
  have h1 : fieldOf wd 0 5 = 0x2#5 := by rw [← hw, fieldOf, fieldLo _ _ _ (by decide)]; rfl
  have h2 : fieldOf wd 5 3 = 0x0#3 := by rw [← hw, fieldOf, fieldLo _ _ _ (by decide)]; rfl
  have h3 : fieldOf wd 31 1 = sw := by rw [← hw, fieldOf, fieldHi _ _ _ (by decide), fieldHi _ _ _ (by decide), fieldHi _ _ _ (by decide), fieldHi _ _ _ (by decide), fieldAll]
  have h4 : fieldOf wd 16 8 = d := by rw [← hw, fieldOf, fieldHi _ _ _ (by decide), fieldHi _ _ _ (by decide), fieldLo _ _ _ (by decide), fieldAll]
  have h5 : fieldOf wd 8 8 = a := by rw [← hw, fieldOf, fieldHi _ _ _ (by decide), fieldLo _ _ _ (by decide), fieldAll]
  simp [decode, decodeCompound, decode72, h0, h1, h2, h3, h4, h5]

theorem Encoding.vreduceAddF32 (sw : BitVec 1) (d a : BitVec 8) : Encoding.Statement (.vreduceAddF32 sw d a) := by
  intro wd h
  have hw : sw ++ 0x72#7 ++ d ++ a ++ 0x3#8 = wd := Option.some.inj h
  have h0 : fieldOf wd 24 7 = 0x72#7 := by rw [← hw, fieldOf, fieldHi _ _ _ (by decide), fieldHi _ _ _ (by decide), fieldHi _ _ _ (by decide), fieldLo _ _ _ (by decide)]; rfl
  have h1 : fieldOf wd 0 5 = 0x3#5 := by rw [← hw, fieldOf, fieldLo _ _ _ (by decide)]; rfl
  have h2 : fieldOf wd 5 3 = 0x0#3 := by rw [← hw, fieldOf, fieldLo _ _ _ (by decide)]; rfl
  have h3 : fieldOf wd 31 1 = sw := by rw [← hw, fieldOf, fieldHi _ _ _ (by decide), fieldHi _ _ _ (by decide), fieldHi _ _ _ (by decide), fieldHi _ _ _ (by decide), fieldAll]
  have h4 : fieldOf wd 16 8 = d := by rw [← hw, fieldOf, fieldHi _ _ _ (by decide), fieldHi _ _ _ (by decide), fieldLo _ _ _ (by decide), fieldAll]
  have h5 : fieldOf wd 8 8 = a := by rw [← hw, fieldOf, fieldHi _ _ _ (by decide), fieldLo _ _ _ (by decide), fieldAll]
  simp [decode, decodeCompound, decode72, h0, h1, h2, h3, h4, h5]

theorem Encoding.vreduceAddI32 (sw : BitVec 1) (d a : BitVec 8) : Encoding.Statement (.vreduceAddI32 sw d a) := by
  intro wd h
  have hw : sw ++ 0x72#7 ++ d ++ a ++ 0x4#8 = wd := Option.some.inj h
  have h0 : fieldOf wd 24 7 = 0x72#7 := by rw [← hw, fieldOf, fieldHi _ _ _ (by decide), fieldHi _ _ _ (by decide), fieldHi _ _ _ (by decide), fieldLo _ _ _ (by decide)]; rfl
  have h1 : fieldOf wd 0 5 = 0x4#5 := by rw [← hw, fieldOf, fieldLo _ _ _ (by decide)]; rfl
  have h2 : fieldOf wd 5 3 = 0x0#3 := by rw [← hw, fieldOf, fieldLo _ _ _ (by decide)]; rfl
  have h3 : fieldOf wd 31 1 = sw := by rw [← hw, fieldOf, fieldHi _ _ _ (by decide), fieldHi _ _ _ (by decide), fieldHi _ _ _ (by decide), fieldHi _ _ _ (by decide), fieldAll]
  have h4 : fieldOf wd 16 8 = d := by rw [← hw, fieldOf, fieldHi _ _ _ (by decide), fieldHi _ _ _ (by decide), fieldLo _ _ _ (by decide), fieldAll]
  have h5 : fieldOf wd 8 8 = a := by rw [← hw, fieldOf, fieldHi _ _ _ (by decide), fieldLo _ _ _ (by decide), fieldAll]
  simp [decode, decodeCompound, decode72, h0, h1, h2, h3, h4, h5]

theorem Encoding.vreduceMinF32 (sw : BitVec 1) (d a : BitVec 8) : Encoding.Statement (.vreduceMinF32 sw d a) := by
  intro wd h
  have hw : sw ++ 0x72#7 ++ d ++ a ++ 0x5#8 = wd := Option.some.inj h
  have h0 : fieldOf wd 24 7 = 0x72#7 := by rw [← hw, fieldOf, fieldHi _ _ _ (by decide), fieldHi _ _ _ (by decide), fieldHi _ _ _ (by decide), fieldLo _ _ _ (by decide)]; rfl
  have h1 : fieldOf wd 0 5 = 0x5#5 := by rw [← hw, fieldOf, fieldLo _ _ _ (by decide)]; rfl
  have h2 : fieldOf wd 5 3 = 0x0#3 := by rw [← hw, fieldOf, fieldLo _ _ _ (by decide)]; rfl
  have h3 : fieldOf wd 31 1 = sw := by rw [← hw, fieldOf, fieldHi _ _ _ (by decide), fieldHi _ _ _ (by decide), fieldHi _ _ _ (by decide), fieldHi _ _ _ (by decide), fieldAll]
  have h4 : fieldOf wd 16 8 = d := by rw [← hw, fieldOf, fieldHi _ _ _ (by decide), fieldHi _ _ _ (by decide), fieldLo _ _ _ (by decide), fieldAll]
  have h5 : fieldOf wd 8 8 = a := by rw [← hw, fieldOf, fieldHi _ _ _ (by decide), fieldLo _ _ _ (by decide), fieldAll]
  simp [decode, decodeCompound, decode72, h0, h1, h2, h3, h4, h5]

theorem Encoding.vreduceMaxF32 (sw : BitVec 1) (d a : BitVec 8) : Encoding.Statement (.vreduceMaxF32 sw d a) := by
  intro wd h
  have hw : sw ++ 0x72#7 ++ d ++ a ++ 0x6#8 = wd := Option.some.inj h
  have h0 : fieldOf wd 24 7 = 0x72#7 := by rw [← hw, fieldOf, fieldHi _ _ _ (by decide), fieldHi _ _ _ (by decide), fieldHi _ _ _ (by decide), fieldLo _ _ _ (by decide)]; rfl
  have h1 : fieldOf wd 0 5 = 0x6#5 := by rw [← hw, fieldOf, fieldLo _ _ _ (by decide)]; rfl
  have h2 : fieldOf wd 5 3 = 0x0#3 := by rw [← hw, fieldOf, fieldLo _ _ _ (by decide)]; rfl
  have h3 : fieldOf wd 31 1 = sw := by rw [← hw, fieldOf, fieldHi _ _ _ (by decide), fieldHi _ _ _ (by decide), fieldHi _ _ _ (by decide), fieldHi _ _ _ (by decide), fieldAll]
  have h4 : fieldOf wd 16 8 = d := by rw [← hw, fieldOf, fieldHi _ _ _ (by decide), fieldHi _ _ _ (by decide), fieldLo _ _ _ (by decide), fieldAll]
  have h5 : fieldOf wd 8 8 = a := by rw [← hw, fieldOf, fieldHi _ _ _ (by decide), fieldLo _ _ _ (by decide), fieldAll]
  simp [decode, decodeCompound, decode72, h0, h1, h2, h3, h4, h5]

theorem Encoding.vreduceMinI32 (sw : BitVec 1) (d a : BitVec 8) : Encoding.Statement (.vreduceMinI32 sw d a) := by
  intro wd h
  have hw : sw ++ 0x72#7 ++ d ++ a ++ 0x7#8 = wd := Option.some.inj h
  have h0 : fieldOf wd 24 7 = 0x72#7 := by rw [← hw, fieldOf, fieldHi _ _ _ (by decide), fieldHi _ _ _ (by decide), fieldHi _ _ _ (by decide), fieldLo _ _ _ (by decide)]; rfl
  have h1 : fieldOf wd 0 5 = 0x7#5 := by rw [← hw, fieldOf, fieldLo _ _ _ (by decide)]; rfl
  have h2 : fieldOf wd 5 3 = 0x0#3 := by rw [← hw, fieldOf, fieldLo _ _ _ (by decide)]; rfl
  have h3 : fieldOf wd 31 1 = sw := by rw [← hw, fieldOf, fieldHi _ _ _ (by decide), fieldHi _ _ _ (by decide), fieldHi _ _ _ (by decide), fieldHi _ _ _ (by decide), fieldAll]
  have h4 : fieldOf wd 16 8 = d := by rw [← hw, fieldOf, fieldHi _ _ _ (by decide), fieldHi _ _ _ (by decide), fieldLo _ _ _ (by decide), fieldAll]
  have h5 : fieldOf wd 8 8 = a := by rw [← hw, fieldOf, fieldHi _ _ _ (by decide), fieldLo _ _ _ (by decide), fieldAll]
  simp [decode, decodeCompound, decode72, h0, h1, h2, h3, h4, h5]

theorem Encoding.vreduceMaxI32 (sw : BitVec 1) (d a : BitVec 8) : Encoding.Statement (.vreduceMaxI32 sw d a) := by
  intro wd h
  have hw : sw ++ 0x72#7 ++ d ++ a ++ 0x8#8 = wd := Option.some.inj h
  have h0 : fieldOf wd 24 7 = 0x72#7 := by rw [← hw, fieldOf, fieldHi _ _ _ (by decide), fieldHi _ _ _ (by decide), fieldHi _ _ _ (by decide), fieldLo _ _ _ (by decide)]; rfl
  have h1 : fieldOf wd 0 5 = 0x8#5 := by rw [← hw, fieldOf, fieldLo _ _ _ (by decide)]; rfl
  have h2 : fieldOf wd 5 3 = 0x0#3 := by rw [← hw, fieldOf, fieldLo _ _ _ (by decide)]; rfl
  have h3 : fieldOf wd 31 1 = sw := by rw [← hw, fieldOf, fieldHi _ _ _ (by decide), fieldHi _ _ _ (by decide), fieldHi _ _ _ (by decide), fieldHi _ _ _ (by decide), fieldAll]
  have h4 : fieldOf wd 16 8 = d := by rw [← hw, fieldOf, fieldHi _ _ _ (by decide), fieldHi _ _ _ (by decide), fieldLo _ _ _ (by decide), fieldAll]
  have h5 : fieldOf wd 8 8 = a := by rw [← hw, fieldOf, fieldHi _ _ _ (by decide), fieldLo _ _ _ (by decide), fieldAll]
  simp [decode, decodeCompound, decode72, h0, h1, h2, h3, h4, h5]

theorem Encoding.vscanAddF32 (sw : BitVec 1) (d a : BitVec 8) : Encoding.Statement (.vscanAddF32 sw d a) := by
  intro wd h
  have hw : sw ++ 0x72#7 ++ d ++ a ++ 0x9#8 = wd := Option.some.inj h
  have h0 : fieldOf wd 24 7 = 0x72#7 := by rw [← hw, fieldOf, fieldHi _ _ _ (by decide), fieldHi _ _ _ (by decide), fieldHi _ _ _ (by decide), fieldLo _ _ _ (by decide)]; rfl
  have h1 : fieldOf wd 0 5 = 0x9#5 := by rw [← hw, fieldOf, fieldLo _ _ _ (by decide)]; rfl
  have h2 : fieldOf wd 5 3 = 0x0#3 := by rw [← hw, fieldOf, fieldLo _ _ _ (by decide)]; rfl
  have h3 : fieldOf wd 31 1 = sw := by rw [← hw, fieldOf, fieldHi _ _ _ (by decide), fieldHi _ _ _ (by decide), fieldHi _ _ _ (by decide), fieldHi _ _ _ (by decide), fieldAll]
  have h4 : fieldOf wd 16 8 = d := by rw [← hw, fieldOf, fieldHi _ _ _ (by decide), fieldHi _ _ _ (by decide), fieldLo _ _ _ (by decide), fieldAll]
  have h5 : fieldOf wd 8 8 = a := by rw [← hw, fieldOf, fieldHi _ _ _ (by decide), fieldLo _ _ _ (by decide), fieldAll]
  simp [decode, decodeCompound, decode72, h0, h1, h2, h3, h4, h5]

theorem Encoding.vscanAddI32 (sw : BitVec 1) (d a : BitVec 8) : Encoding.Statement (.vscanAddI32 sw d a) := by
  intro wd h
  have hw : sw ++ 0x72#7 ++ d ++ a ++ 0xA#8 = wd := Option.some.inj h
  have h0 : fieldOf wd 24 7 = 0x72#7 := by rw [← hw, fieldOf, fieldHi _ _ _ (by decide), fieldHi _ _ _ (by decide), fieldHi _ _ _ (by decide), fieldLo _ _ _ (by decide)]; rfl
  have h1 : fieldOf wd 0 5 = 0xA#5 := by rw [← hw, fieldOf, fieldLo _ _ _ (by decide)]; rfl
  have h2 : fieldOf wd 5 3 = 0x0#3 := by rw [← hw, fieldOf, fieldLo _ _ _ (by decide)]; rfl
  have h3 : fieldOf wd 31 1 = sw := by rw [← hw, fieldOf, fieldHi _ _ _ (by decide), fieldHi _ _ _ (by decide), fieldHi _ _ _ (by decide), fieldHi _ _ _ (by decide), fieldAll]
  have h4 : fieldOf wd 16 8 = d := by rw [← hw, fieldOf, fieldHi _ _ _ (by decide), fieldHi _ _ _ (by decide), fieldLo _ _ _ (by decide), fieldAll]
  have h5 : fieldOf wd 8 8 = a := by rw [← hw, fieldOf, fieldHi _ _ _ (by decide), fieldLo _ _ _ (by decide), fieldAll]
  simp [decode, decodeCompound, decode72, h0, h1, h2, h3, h4, h5]

theorem Encoding.vmovs (sw : BitVec 1) (v : BitVec 8) (a : BitVec 6) : Encoding.Statement (.vmovs sw v a) := by
  intro wd h
  have hw : sw ++ 0x73#7 ++ 0x0#4 ++ v ++ a ++ 0x0#6 = wd := Option.some.inj h
  have h0 : fieldOf wd 24 7 = 0x73#7 := by rw [← hw, fieldOf, fieldHi _ _ _ (by decide), fieldHi _ _ _ (by decide), fieldHi _ _ _ (by decide), fieldHi _ _ _ (by decide), fieldLo _ _ _ (by decide)]; rfl
  have h1 : fieldOf wd 20 4 = 0x0#4 := by rw [← hw, fieldOf, fieldHi _ _ _ (by decide), fieldHi _ _ _ (by decide), fieldHi _ _ _ (by decide), fieldLo _ _ _ (by decide)]; rfl
  have h2 : fieldOf wd 0 6 = 0x0#6 := by rw [← hw, fieldOf, fieldLo _ _ _ (by decide)]; rfl
  have h3 : fieldOf wd 31 1 = sw := by rw [← hw, fieldOf, fieldHi _ _ _ (by decide), fieldHi _ _ _ (by decide), fieldHi _ _ _ (by decide), fieldHi _ _ _ (by decide), fieldHi _ _ _ (by decide), fieldAll]
  have h4 : fieldOf wd 12 8 = v := by rw [← hw, fieldOf, fieldHi _ _ _ (by decide), fieldHi _ _ _ (by decide), fieldLo _ _ _ (by decide), fieldAll]
  have h5 : fieldOf wd 6 6 = a := by rw [← hw, fieldOf, fieldHi _ _ _ (by decide), fieldLo _ _ _ (by decide), fieldAll]
  simp [decode, decodeCompound, decode73, h0, h1, h2, h3, h4, h5]

theorem Encoding.vrdlane (sw : BitVec 1) (v : BitVec 8) (a b : BitVec 6) : Encoding.Statement (.vrdlane sw v a b) := by
  intro wd h
  have hw : sw ++ 0x73#7 ++ 0x1#4 ++ v ++ a ++ b = wd := Option.some.inj h
  have h0 : fieldOf wd 24 7 = 0x73#7 := by rw [← hw, fieldOf, fieldHi _ _ _ (by decide), fieldHi _ _ _ (by decide), fieldHi _ _ _ (by decide), fieldHi _ _ _ (by decide), fieldLo _ _ _ (by decide)]; rfl
  have h1 : fieldOf wd 20 4 = 0x1#4 := by rw [← hw, fieldOf, fieldHi _ _ _ (by decide), fieldHi _ _ _ (by decide), fieldHi _ _ _ (by decide), fieldLo _ _ _ (by decide)]; rfl
  have h2 : fieldOf wd 31 1 = sw := by rw [← hw, fieldOf, fieldHi _ _ _ (by decide), fieldHi _ _ _ (by decide), fieldHi _ _ _ (by decide), fieldHi _ _ _ (by decide), fieldHi _ _ _ (by decide), fieldAll]
  have h3 : fieldOf wd 12 8 = v := by rw [← hw, fieldOf, fieldHi _ _ _ (by decide), fieldHi _ _ _ (by decide), fieldLo _ _ _ (by decide), fieldAll]
  have h4 : fieldOf wd 6 6 = a := by rw [← hw, fieldOf, fieldHi _ _ _ (by decide), fieldLo _ _ _ (by decide), fieldAll]
  have h5 : fieldOf wd 0 6 = b := by rw [← hw, fieldOf, fieldLo _ _ _ (by decide), fieldAll]
  simp [decode, decodeCompound, decode73, h0, h1, h2, h3, h4, h5]

theorem Encoding.vwrlane (sw : BitVec 1) (v : BitVec 8) (a b : BitVec 6) : Encoding.Statement (.vwrlane sw v a b) := by
  intro wd h
  have hw : sw ++ 0x73#7 ++ 0x2#4 ++ v ++ a ++ b = wd := Option.some.inj h
  have h0 : fieldOf wd 24 7 = 0x73#7 := by rw [← hw, fieldOf, fieldHi _ _ _ (by decide), fieldHi _ _ _ (by decide), fieldHi _ _ _ (by decide), fieldHi _ _ _ (by decide), fieldLo _ _ _ (by decide)]; rfl
  have h1 : fieldOf wd 20 4 = 0x2#4 := by rw [← hw, fieldOf, fieldHi _ _ _ (by decide), fieldHi _ _ _ (by decide), fieldHi _ _ _ (by decide), fieldLo _ _ _ (by decide)]; rfl
  have h2 : fieldOf wd 31 1 = sw := by rw [← hw, fieldOf, fieldHi _ _ _ (by decide), fieldHi _ _ _ (by decide), fieldHi _ _ _ (by decide), fieldHi _ _ _ (by decide), fieldHi _ _ _ (by decide), fieldAll]
  have h3 : fieldOf wd 12 8 = v := by rw [← hw, fieldOf, fieldHi _ _ _ (by decide), fieldHi _ _ _ (by decide), fieldLo _ _ _ (by decide), fieldAll]
  have h4 : fieldOf wd 6 6 = a := by rw [← hw, fieldOf, fieldHi _ _ _ (by decide), fieldLo _ _ _ (by decide), fieldAll]
  have h5 : fieldOf wd 0 6 = b := by rw [← hw, fieldOf, fieldLo _ _ _ (by decide), fieldAll]
  simp [decode, decodeCompound, decode73, h0, h1, h2, h3, h4, h5]

theorem Encoding.vlaneid (sw : BitVec 1) (v : BitVec 8) : Encoding.Statement (.vlaneid sw v) := by
  intro wd h
  have hw : sw ++ 0x73#7 ++ 0x3#4 ++ v ++ 0x0#12 = wd := Option.some.inj h
  have h0 : fieldOf wd 24 7 = 0x73#7 := by rw [← hw, fieldOf, fieldHi _ _ _ (by decide), fieldHi _ _ _ (by decide), fieldHi _ _ _ (by decide), fieldLo _ _ _ (by decide)]; rfl
  have h1 : fieldOf wd 20 4 = 0x3#4 := by rw [← hw, fieldOf, fieldHi _ _ _ (by decide), fieldHi _ _ _ (by decide), fieldLo _ _ _ (by decide)]; rfl
  have h2 : fieldOf wd 0 12 = 0x0#12 := by rw [← hw, fieldOf, fieldLo _ _ _ (by decide)]; rfl
  have h3 : fieldOf wd 31 1 = sw := by rw [← hw, fieldOf, fieldHi _ _ _ (by decide), fieldHi _ _ _ (by decide), fieldHi _ _ _ (by decide), fieldHi _ _ _ (by decide), fieldAll]
  have h4 : fieldOf wd 12 8 = v := by rw [← hw, fieldOf, fieldHi _ _ _ (by decide), fieldLo _ _ _ (by decide), fieldAll]
  simp [decode, decodeCompound, decode73, h0, h1, h2, h3, h4]

theorem Encoding.mma (sw : BitVec 1) (p q : BitVec 4) (c : BitVec 3) (z : BitVec 1) (a : BitVec 6) : Encoding.Statement (.mma sw p q c z a) := by
  intro wd h
  have hw : sw ++ 0x74#7 ++ p ++ q ++ c ++ z ++ a ++ 0x0#6 = wd := Option.some.inj h
  have h0 : fieldOf wd 24 7 = 0x74#7 := by rw [← hw, fieldOf, fieldHi _ _ _ (by decide), fieldHi _ _ _ (by decide), fieldHi _ _ _ (by decide), fieldHi _ _ _ (by decide), fieldHi _ _ _ (by decide), fieldHi _ _ _ (by decide), fieldLo _ _ _ (by decide)]; rfl
  have h1 : fieldOf wd 0 6 = 0x0#6 := by rw [← hw, fieldOf, fieldLo _ _ _ (by decide)]; rfl
  have h2 : fieldOf wd 31 1 = sw := by rw [← hw, fieldOf, fieldHi _ _ _ (by decide), fieldHi _ _ _ (by decide), fieldHi _ _ _ (by decide), fieldHi _ _ _ (by decide), fieldHi _ _ _ (by decide), fieldHi _ _ _ (by decide), fieldHi _ _ _ (by decide), fieldAll]
  have h3 : fieldOf wd 20 4 = p := by rw [← hw, fieldOf, fieldHi _ _ _ (by decide), fieldHi _ _ _ (by decide), fieldHi _ _ _ (by decide), fieldHi _ _ _ (by decide), fieldHi _ _ _ (by decide), fieldLo _ _ _ (by decide), fieldAll]
  have h4 : fieldOf wd 16 4 = q := by rw [← hw, fieldOf, fieldHi _ _ _ (by decide), fieldHi _ _ _ (by decide), fieldHi _ _ _ (by decide), fieldHi _ _ _ (by decide), fieldLo _ _ _ (by decide), fieldAll]
  have h5 : fieldOf wd 13 3 = c := by rw [← hw, fieldOf, fieldHi _ _ _ (by decide), fieldHi _ _ _ (by decide), fieldHi _ _ _ (by decide), fieldLo _ _ _ (by decide), fieldAll]
  have h6 : fieldOf wd 12 1 = z := by rw [← hw, fieldOf, fieldHi _ _ _ (by decide), fieldHi _ _ _ (by decide), fieldLo _ _ _ (by decide), fieldAll]
  have h7 : fieldOf wd 6 6 = a := by rw [← hw, fieldOf, fieldHi _ _ _ (by decide), fieldLo _ _ _ (by decide), fieldAll]
  simp [decode, decodeCompound, h0, h1, h2, h3, h4, h5, h6, h7]

theorem Encoding.accz (sw : BitVec 1) (c : BitVec 3) : Encoding.Statement (.accz sw c) := by
  intro wd h
  have hw : sw ++ 0x75#7 ++ 0x0#4 ++ c ++ 0x0#17 = wd := Option.some.inj h
  have h0 : fieldOf wd 24 7 = 0x75#7 := by rw [← hw, fieldOf, fieldHi _ _ _ (by decide), fieldHi _ _ _ (by decide), fieldHi _ _ _ (by decide), fieldLo _ _ _ (by decide)]; rfl
  have h1 : fieldOf wd 20 4 = 0x0#4 := by rw [← hw, fieldOf, fieldHi _ _ _ (by decide), fieldHi _ _ _ (by decide), fieldLo _ _ _ (by decide)]; rfl
  have h2 : fieldOf wd 0 17 = 0x0#17 := by rw [← hw, fieldOf, fieldLo _ _ _ (by decide)]; rfl
  have h3 : fieldOf wd 31 1 = sw := by rw [← hw, fieldOf, fieldHi _ _ _ (by decide), fieldHi _ _ _ (by decide), fieldHi _ _ _ (by decide), fieldHi _ _ _ (by decide), fieldAll]
  have h4 : fieldOf wd 17 3 = c := by rw [← hw, fieldOf, fieldHi _ _ _ (by decide), fieldLo _ _ _ (by decide), fieldAll]
  simp [decode, decodeCompound, decode75, h0, h1, h2, h3, h4]

theorem Encoding.accld (sw : BitVec 1) (c : BitVec 3) (a b : BitVec 6) : Encoding.Statement (.accld sw c a b) := by
  intro wd h
  have hw : sw ++ 0x75#7 ++ 0x1#4 ++ c ++ a ++ b ++ 0x0#5 = wd := Option.some.inj h
  have h0 : fieldOf wd 24 7 = 0x75#7 := by rw [← hw, fieldOf, fieldHi _ _ _ (by decide), fieldHi _ _ _ (by decide), fieldHi _ _ _ (by decide), fieldHi _ _ _ (by decide), fieldHi _ _ _ (by decide), fieldLo _ _ _ (by decide)]; rfl
  have h1 : fieldOf wd 20 4 = 0x1#4 := by rw [← hw, fieldOf, fieldHi _ _ _ (by decide), fieldHi _ _ _ (by decide), fieldHi _ _ _ (by decide), fieldHi _ _ _ (by decide), fieldLo _ _ _ (by decide)]; rfl
  have h2 : fieldOf wd 0 5 = 0x0#5 := by rw [← hw, fieldOf, fieldLo _ _ _ (by decide)]; rfl
  have h3 : fieldOf wd 31 1 = sw := by rw [← hw, fieldOf, fieldHi _ _ _ (by decide), fieldHi _ _ _ (by decide), fieldHi _ _ _ (by decide), fieldHi _ _ _ (by decide), fieldHi _ _ _ (by decide), fieldHi _ _ _ (by decide), fieldAll]
  have h4 : fieldOf wd 17 3 = c := by rw [← hw, fieldOf, fieldHi _ _ _ (by decide), fieldHi _ _ _ (by decide), fieldHi _ _ _ (by decide), fieldLo _ _ _ (by decide), fieldAll]
  have h5 : fieldOf wd 11 6 = a := by rw [← hw, fieldOf, fieldHi _ _ _ (by decide), fieldHi _ _ _ (by decide), fieldLo _ _ _ (by decide), fieldAll]
  have h6 : fieldOf wd 5 6 = b := by rw [← hw, fieldOf, fieldHi _ _ _ (by decide), fieldLo _ _ _ (by decide), fieldAll]
  simp [decode, decodeCompound, decode75, h0, h1, h2, h3, h4, h5, h6]

theorem Encoding.accst (sw : BitVec 1) (c : BitVec 3) (a b : BitVec 6) : Encoding.Statement (.accst sw c a b) := by
  intro wd h
  have hw : sw ++ 0x75#7 ++ 0x2#4 ++ c ++ a ++ b ++ 0x0#5 = wd := Option.some.inj h
  have h0 : fieldOf wd 24 7 = 0x75#7 := by rw [← hw, fieldOf, fieldHi _ _ _ (by decide), fieldHi _ _ _ (by decide), fieldHi _ _ _ (by decide), fieldHi _ _ _ (by decide), fieldHi _ _ _ (by decide), fieldLo _ _ _ (by decide)]; rfl
  have h1 : fieldOf wd 20 4 = 0x2#4 := by rw [← hw, fieldOf, fieldHi _ _ _ (by decide), fieldHi _ _ _ (by decide), fieldHi _ _ _ (by decide), fieldHi _ _ _ (by decide), fieldLo _ _ _ (by decide)]; rfl
  have h2 : fieldOf wd 0 5 = 0x0#5 := by rw [← hw, fieldOf, fieldLo _ _ _ (by decide)]; rfl
  have h3 : fieldOf wd 31 1 = sw := by rw [← hw, fieldOf, fieldHi _ _ _ (by decide), fieldHi _ _ _ (by decide), fieldHi _ _ _ (by decide), fieldHi _ _ _ (by decide), fieldHi _ _ _ (by decide), fieldHi _ _ _ (by decide), fieldAll]
  have h4 : fieldOf wd 17 3 = c := by rw [← hw, fieldOf, fieldHi _ _ _ (by decide), fieldHi _ _ _ (by decide), fieldHi _ _ _ (by decide), fieldLo _ _ _ (by decide), fieldAll]
  have h5 : fieldOf wd 11 6 = a := by rw [← hw, fieldOf, fieldHi _ _ _ (by decide), fieldHi _ _ _ (by decide), fieldLo _ _ _ (by decide), fieldAll]
  have h6 : fieldOf wd 5 6 = b := by rw [← hw, fieldOf, fieldHi _ _ _ (by decide), fieldLo _ _ _ (by decide), fieldAll]
  simp [decode, decodeCompound, decode75, h0, h1, h2, h3, h4, h5, h6]

theorem Encoding.acccvt (sw : BitVec 1) (c : BitVec 3) (a b : BitVec 6) (f : BitVec 4) : Encoding.Statement (.acccvt sw c a b f) := by
  intro wd h
  have hw : sw ++ 0x75#7 ++ 0x3#4 ++ c ++ a ++ b ++ f ++ 0x0#1 = wd := Option.some.inj h
  have h0 : fieldOf wd 24 7 = 0x75#7 := by rw [← hw, fieldOf, fieldHi _ _ _ (by decide), fieldHi _ _ _ (by decide), fieldHi _ _ _ (by decide), fieldHi _ _ _ (by decide), fieldHi _ _ _ (by decide), fieldHi _ _ _ (by decide), fieldLo _ _ _ (by decide)]; rfl
  have h1 : fieldOf wd 20 4 = 0x3#4 := by rw [← hw, fieldOf, fieldHi _ _ _ (by decide), fieldHi _ _ _ (by decide), fieldHi _ _ _ (by decide), fieldHi _ _ _ (by decide), fieldHi _ _ _ (by decide), fieldLo _ _ _ (by decide)]; rfl
  have h2 : fieldOf wd 0 1 = 0x0#1 := by rw [← hw, fieldOf, fieldLo _ _ _ (by decide)]; rfl
  have h3 : fieldOf wd 31 1 = sw := by rw [← hw, fieldOf, fieldHi _ _ _ (by decide), fieldHi _ _ _ (by decide), fieldHi _ _ _ (by decide), fieldHi _ _ _ (by decide), fieldHi _ _ _ (by decide), fieldHi _ _ _ (by decide), fieldHi _ _ _ (by decide), fieldAll]
  have h4 : fieldOf wd 17 3 = c := by rw [← hw, fieldOf, fieldHi _ _ _ (by decide), fieldHi _ _ _ (by decide), fieldHi _ _ _ (by decide), fieldHi _ _ _ (by decide), fieldLo _ _ _ (by decide), fieldAll]
  have h5 : fieldOf wd 11 6 = a := by rw [← hw, fieldOf, fieldHi _ _ _ (by decide), fieldHi _ _ _ (by decide), fieldHi _ _ _ (by decide), fieldLo _ _ _ (by decide), fieldAll]
  have h6 : fieldOf wd 5 6 = b := by rw [← hw, fieldOf, fieldHi _ _ _ (by decide), fieldHi _ _ _ (by decide), fieldLo _ _ _ (by decide), fieldAll]
  have h7 : fieldOf wd 1 4 = f := by rw [← hw, fieldOf, fieldHi _ _ _ (by decide), fieldLo _ _ _ (by decide), fieldAll]
  simp [decode, decodeCompound, decode75, h0, h1, h2, h3, h4, h5, h6, h7]

theorem Encoding.mwait (sw : BitVec 1) (c : BitVec 3) : Encoding.Statement (.mwait sw c) := by
  intro wd h
  have hw : sw ++ 0x75#7 ++ 0x4#4 ++ c ++ 0x0#17 = wd := Option.some.inj h
  have h0 : fieldOf wd 24 7 = 0x75#7 := by rw [← hw, fieldOf, fieldHi _ _ _ (by decide), fieldHi _ _ _ (by decide), fieldHi _ _ _ (by decide), fieldLo _ _ _ (by decide)]; rfl
  have h1 : fieldOf wd 20 4 = 0x4#4 := by rw [← hw, fieldOf, fieldHi _ _ _ (by decide), fieldHi _ _ _ (by decide), fieldLo _ _ _ (by decide)]; rfl
  have h2 : fieldOf wd 0 17 = 0x0#17 := by rw [← hw, fieldOf, fieldLo _ _ _ (by decide)]; rfl
  have h3 : fieldOf wd 31 1 = sw := by rw [← hw, fieldOf, fieldHi _ _ _ (by decide), fieldHi _ _ _ (by decide), fieldHi _ _ _ (by decide), fieldHi _ _ _ (by decide), fieldAll]
  have h4 : fieldOf wd 17 3 = c := by rw [← hw, fieldOf, fieldHi _ _ _ (by decide), fieldLo _ _ _ (by decide), fieldAll]
  simp [decode, decodeCompound, decode75, h0, h1, h2, h3, h4]

theorem Encoding.copyk (sw : BitVec 1) (a : BitVec 6) : Encoding.Statement (.copyk sw a) := by
  intro wd h
  have hw : sw ++ 0x76#7 ++ 0x0#10 ++ a ++ 0x0#8 = wd := Option.some.inj h
  have h0 : fieldOf wd 24 7 = 0x76#7 := by rw [← hw, fieldOf, fieldHi _ _ _ (by decide), fieldHi _ _ _ (by decide), fieldHi _ _ _ (by decide), fieldLo _ _ _ (by decide)]; rfl
  have h1 : fieldOf wd 20 4 = 0x0#4 := by rw [← hw, fieldOf, fieldHi _ _ _ (by decide), fieldHi _ _ _ (by decide), fieldLo _ _ _ (by decide)]; rfl
  have h2 : fieldOf wd 14 6 = 0x0#6 := by rw [← hw, fieldOf, fieldHi _ _ _ (by decide), fieldHi _ _ _ (by decide), fieldLo _ _ _ (by decide)]; rfl
  have h3 : fieldOf wd 0 8 = 0x0#8 := by rw [← hw, fieldOf, fieldLo _ _ _ (by decide)]; rfl
  have h4 : fieldOf wd 31 1 = sw := by rw [← hw, fieldOf, fieldHi _ _ _ (by decide), fieldHi _ _ _ (by decide), fieldHi _ _ _ (by decide), fieldHi _ _ _ (by decide), fieldAll]
  have h5 : fieldOf wd 8 6 = a := by rw [← hw, fieldOf, fieldHi _ _ _ (by decide), fieldLo _ _ _ (by decide), fieldAll]
  simp [decode, decodeCompound, decode76, h0, h1, h2, h3, h4, h5]

theorem Encoding.cpq (sw : BitVec 1) (d a : BitVec 6) : Encoding.Statement (.cpq sw d a) := by
  intro wd h
  have hw : sw ++ 0x76#7 ++ 0x1#4 ++ d ++ a ++ 0x0#8 = wd := Option.some.inj h
  have h0 : fieldOf wd 24 7 = 0x76#7 := by rw [← hw, fieldOf, fieldHi _ _ _ (by decide), fieldHi _ _ _ (by decide), fieldHi _ _ _ (by decide), fieldHi _ _ _ (by decide), fieldLo _ _ _ (by decide)]; rfl
  have h1 : fieldOf wd 20 4 = 0x1#4 := by rw [← hw, fieldOf, fieldHi _ _ _ (by decide), fieldHi _ _ _ (by decide), fieldHi _ _ _ (by decide), fieldLo _ _ _ (by decide)]; rfl
  have h2 : fieldOf wd 0 8 = 0x0#8 := by rw [← hw, fieldOf, fieldLo _ _ _ (by decide)]; rfl
  have h3 : fieldOf wd 31 1 = sw := by rw [← hw, fieldOf, fieldHi _ _ _ (by decide), fieldHi _ _ _ (by decide), fieldHi _ _ _ (by decide), fieldHi _ _ _ (by decide), fieldHi _ _ _ (by decide), fieldAll]
  have h4 : fieldOf wd 14 6 = d := by rw [← hw, fieldOf, fieldHi _ _ _ (by decide), fieldHi _ _ _ (by decide), fieldLo _ _ _ (by decide), fieldAll]
  have h5 : fieldOf wd 8 6 = a := by rw [← hw, fieldOf, fieldHi _ _ _ (by decide), fieldLo _ _ _ (by decide), fieldAll]
  simp [decode, decodeCompound, decode76, h0, h1, h2, h3, h4, h5]

theorem Encoding.publ (sw : BitVec 1) (n : BitVec 8) : Encoding.Statement (.publ sw n) := by
  intro wd h
  have hw : sw ++ 0x76#7 ++ 0x2000#16 ++ n = wd := Option.some.inj h
  have h0 : fieldOf wd 24 7 = 0x76#7 := by rw [← hw, fieldOf, fieldHi _ _ _ (by decide), fieldHi _ _ _ (by decide), fieldLo _ _ _ (by decide)]; rfl
  have h1 : fieldOf wd 20 4 = 0x2#4 := by rw [← hw, fieldOf, fieldHi _ _ _ (by decide), fieldLo _ _ _ (by decide)]; rfl
  have h2 : fieldOf wd 8 12 = 0x0#12 := by rw [← hw, fieldOf, fieldHi _ _ _ (by decide), fieldLo _ _ _ (by decide)]; rfl
  have h3 : fieldOf wd 31 1 = sw := by rw [← hw, fieldOf, fieldHi _ _ _ (by decide), fieldHi _ _ _ (by decide), fieldHi _ _ _ (by decide), fieldAll]
  have h4 : fieldOf wd 0 8 = n := by rw [← hw, fieldOf, fieldLo _ _ _ (by decide), fieldAll]
  simp [decode, decodeCompound, decode76, h0, h1, h2, h3, h4]

theorem Encoding.hvxor (sw : BitVec 1) (d a b : BitVec 4) : Encoding.Statement (.hvxor sw d a b) := by
  intro wd h
  have hw : sw ++ 0x78#7 ++ 0x0#5 ++ d ++ a ++ b ++ 0x0#7 = wd := Option.some.inj h
  have h0 : fieldOf wd 24 7 = 0x78#7 := by rw [← hw, fieldOf, fieldHi _ _ _ (by decide), fieldHi _ _ _ (by decide), fieldHi _ _ _ (by decide), fieldHi _ _ _ (by decide), fieldHi _ _ _ (by decide), fieldLo _ _ _ (by decide)]; rfl
  have h1 : fieldOf wd 19 5 = 0x0#5 := by rw [← hw, fieldOf, fieldHi _ _ _ (by decide), fieldHi _ _ _ (by decide), fieldHi _ _ _ (by decide), fieldHi _ _ _ (by decide), fieldLo _ _ _ (by decide)]; rfl
  have h2 : fieldOf wd 0 7 = 0x0#7 := by rw [← hw, fieldOf, fieldLo _ _ _ (by decide)]; rfl
  have h3 : fieldOf wd 31 1 = sw := by rw [← hw, fieldOf, fieldHi _ _ _ (by decide), fieldHi _ _ _ (by decide), fieldHi _ _ _ (by decide), fieldHi _ _ _ (by decide), fieldHi _ _ _ (by decide), fieldHi _ _ _ (by decide), fieldAll]
  have h4 : fieldOf wd 15 4 = d := by rw [← hw, fieldOf, fieldHi _ _ _ (by decide), fieldHi _ _ _ (by decide), fieldHi _ _ _ (by decide), fieldLo _ _ _ (by decide), fieldAll]
  have h5 : fieldOf wd 11 4 = a := by rw [← hw, fieldOf, fieldHi _ _ _ (by decide), fieldHi _ _ _ (by decide), fieldLo _ _ _ (by decide), fieldAll]
  have h6 : fieldOf wd 7 4 = b := by rw [← hw, fieldOf, fieldHi _ _ _ (by decide), fieldLo _ _ _ (by decide), fieldAll]
  simp [decode, decodeCompound, decode78, h0, h1, h2, h3, h4, h5, h6]

theorem Encoding.hvnot (sw : BitVec 1) (d a : BitVec 4) : Encoding.Statement (.hvnot sw d a) := by
  intro wd h
  have hw : sw ++ 0x78#7 ++ 0x1#5 ++ d ++ a ++ 0x0#11 = wd := Option.some.inj h
  have h0 : fieldOf wd 24 7 = 0x78#7 := by rw [← hw, fieldOf, fieldHi _ _ _ (by decide), fieldHi _ _ _ (by decide), fieldHi _ _ _ (by decide), fieldHi _ _ _ (by decide), fieldLo _ _ _ (by decide)]; rfl
  have h1 : fieldOf wd 19 5 = 0x1#5 := by rw [← hw, fieldOf, fieldHi _ _ _ (by decide), fieldHi _ _ _ (by decide), fieldHi _ _ _ (by decide), fieldLo _ _ _ (by decide)]; rfl
  have h2 : fieldOf wd 0 11 = 0x0#11 := by rw [← hw, fieldOf, fieldLo _ _ _ (by decide)]; rfl
  have h3 : fieldOf wd 31 1 = sw := by rw [← hw, fieldOf, fieldHi _ _ _ (by decide), fieldHi _ _ _ (by decide), fieldHi _ _ _ (by decide), fieldHi _ _ _ (by decide), fieldHi _ _ _ (by decide), fieldAll]
  have h4 : fieldOf wd 15 4 = d := by rw [← hw, fieldOf, fieldHi _ _ _ (by decide), fieldHi _ _ _ (by decide), fieldLo _ _ _ (by decide), fieldAll]
  have h5 : fieldOf wd 11 4 = a := by rw [← hw, fieldOf, fieldHi _ _ _ (by decide), fieldLo _ _ _ (by decide), fieldAll]
  simp [decode, decodeCompound, decode78, h0, h1, h2, h3, h4, h5]

theorem Encoding.hvmov (sw : BitVec 1) (d a : BitVec 4) : Encoding.Statement (.hvmov sw d a) := by
  intro wd h
  have hw : sw ++ 0x78#7 ++ 0x2#5 ++ d ++ a ++ 0x0#11 = wd := Option.some.inj h
  have h0 : fieldOf wd 24 7 = 0x78#7 := by rw [← hw, fieldOf, fieldHi _ _ _ (by decide), fieldHi _ _ _ (by decide), fieldHi _ _ _ (by decide), fieldHi _ _ _ (by decide), fieldLo _ _ _ (by decide)]; rfl
  have h1 : fieldOf wd 19 5 = 0x2#5 := by rw [← hw, fieldOf, fieldHi _ _ _ (by decide), fieldHi _ _ _ (by decide), fieldHi _ _ _ (by decide), fieldLo _ _ _ (by decide)]; rfl
  have h2 : fieldOf wd 0 11 = 0x0#11 := by rw [← hw, fieldOf, fieldLo _ _ _ (by decide)]; rfl
  have h3 : fieldOf wd 31 1 = sw := by rw [← hw, fieldOf, fieldHi _ _ _ (by decide), fieldHi _ _ _ (by decide), fieldHi _ _ _ (by decide), fieldHi _ _ _ (by decide), fieldHi _ _ _ (by decide), fieldAll]
  have h4 : fieldOf wd 15 4 = d := by rw [← hw, fieldOf, fieldHi _ _ _ (by decide), fieldHi _ _ _ (by decide), fieldLo _ _ _ (by decide), fieldAll]
  have h5 : fieldOf wd 11 4 = a := by rw [← hw, fieldOf, fieldHi _ _ _ (by decide), fieldLo _ _ _ (by decide), fieldAll]
  simp [decode, decodeCompound, decode78, h0, h1, h2, h3, h4, h5]

theorem Encoding.hvbund (sw : BitVec 1) (a : BitVec 4) (k : BitVec 1) : Encoding.Statement (.hvbund sw a k) := by
  intro wd h
  have hw : sw ++ 0x78#7 ++ 0x30#9 ++ a ++ 0x0#4 ++ k ++ 0x0#6 = wd := Option.some.inj h
  have h0 : fieldOf wd 24 7 = 0x78#7 := by rw [← hw, fieldOf, fieldHi _ _ _ (by decide), fieldHi _ _ _ (by decide), fieldHi _ _ _ (by decide), fieldHi _ _ _ (by decide), fieldHi _ _ _ (by decide), fieldLo _ _ _ (by decide)]; rfl
  have h1 : fieldOf wd 19 5 = 0x3#5 := by rw [← hw, fieldOf, fieldHi _ _ _ (by decide), fieldHi _ _ _ (by decide), fieldHi _ _ _ (by decide), fieldHi _ _ _ (by decide), fieldLo _ _ _ (by decide)]; rfl
  have h2 : fieldOf wd 15 4 = 0x0#4 := by rw [← hw, fieldOf, fieldHi _ _ _ (by decide), fieldHi _ _ _ (by decide), fieldHi _ _ _ (by decide), fieldHi _ _ _ (by decide), fieldLo _ _ _ (by decide)]; rfl
  have h3 : fieldOf wd 7 4 = 0x0#4 := by rw [← hw, fieldOf, fieldHi _ _ _ (by decide), fieldHi _ _ _ (by decide), fieldLo _ _ _ (by decide)]; rfl
  have h4 : fieldOf wd 0 6 = 0x0#6 := by rw [← hw, fieldOf, fieldLo _ _ _ (by decide)]; rfl
  have h5 : fieldOf wd 31 1 = sw := by rw [← hw, fieldOf, fieldHi _ _ _ (by decide), fieldHi _ _ _ (by decide), fieldHi _ _ _ (by decide), fieldHi _ _ _ (by decide), fieldHi _ _ _ (by decide), fieldHi _ _ _ (by decide), fieldAll]
  have h6 : fieldOf wd 11 4 = a := by rw [← hw, fieldOf, fieldHi _ _ _ (by decide), fieldHi _ _ _ (by decide), fieldHi _ _ _ (by decide), fieldLo _ _ _ (by decide), fieldAll]
  have h7 : fieldOf wd 6 1 = k := by rw [← hw, fieldOf, fieldHi _ _ _ (by decide), fieldLo _ _ _ (by decide), fieldAll]
  simp [decode, decodeCompound, decode78, h0, h1, h2, h3, h4, h5, h6, h7]

theorem Encoding.hvbsub (sw : BitVec 1) (a : BitVec 4) (k : BitVec 1) : Encoding.Statement (.hvbsub sw a k) := by
  intro wd h
  have hw : sw ++ 0x78#7 ++ 0x40#9 ++ a ++ 0x0#4 ++ k ++ 0x0#6 = wd := Option.some.inj h
  have h0 : fieldOf wd 24 7 = 0x78#7 := by rw [← hw, fieldOf, fieldHi _ _ _ (by decide), fieldHi _ _ _ (by decide), fieldHi _ _ _ (by decide), fieldHi _ _ _ (by decide), fieldHi _ _ _ (by decide), fieldLo _ _ _ (by decide)]; rfl
  have h1 : fieldOf wd 19 5 = 0x4#5 := by rw [← hw, fieldOf, fieldHi _ _ _ (by decide), fieldHi _ _ _ (by decide), fieldHi _ _ _ (by decide), fieldHi _ _ _ (by decide), fieldLo _ _ _ (by decide)]; rfl
  have h2 : fieldOf wd 15 4 = 0x0#4 := by rw [← hw, fieldOf, fieldHi _ _ _ (by decide), fieldHi _ _ _ (by decide), fieldHi _ _ _ (by decide), fieldHi _ _ _ (by decide), fieldLo _ _ _ (by decide)]; rfl
  have h3 : fieldOf wd 7 4 = 0x0#4 := by rw [← hw, fieldOf, fieldHi _ _ _ (by decide), fieldHi _ _ _ (by decide), fieldLo _ _ _ (by decide)]; rfl
  have h4 : fieldOf wd 0 6 = 0x0#6 := by rw [← hw, fieldOf, fieldLo _ _ _ (by decide)]; rfl
  have h5 : fieldOf wd 31 1 = sw := by rw [← hw, fieldOf, fieldHi _ _ _ (by decide), fieldHi _ _ _ (by decide), fieldHi _ _ _ (by decide), fieldHi _ _ _ (by decide), fieldHi _ _ _ (by decide), fieldHi _ _ _ (by decide), fieldAll]
  have h6 : fieldOf wd 11 4 = a := by rw [← hw, fieldOf, fieldHi _ _ _ (by decide), fieldHi _ _ _ (by decide), fieldHi _ _ _ (by decide), fieldLo _ _ _ (by decide), fieldAll]
  have h7 : fieldOf wd 6 1 = k := by rw [← hw, fieldOf, fieldHi _ _ _ (by decide), fieldLo _ _ _ (by decide), fieldAll]
  simp [decode, decodeCompound, decode78, h0, h1, h2, h3, h4, h5, h6, h7]

theorem Encoding.hvmaj (sw : BitVec 1) (d : BitVec 4) (k : BitVec 1) : Encoding.Statement (.hvmaj sw d k) := by
  intro wd h
  have hw : sw ++ 0x78#7 ++ 0x5#5 ++ d ++ 0x0#8 ++ k ++ 0x0#6 = wd := Option.some.inj h
  have h0 : fieldOf wd 24 7 = 0x78#7 := by rw [← hw, fieldOf, fieldHi _ _ _ (by decide), fieldHi _ _ _ (by decide), fieldHi _ _ _ (by decide), fieldHi _ _ _ (by decide), fieldHi _ _ _ (by decide), fieldLo _ _ _ (by decide)]; rfl
  have h1 : fieldOf wd 19 5 = 0x5#5 := by rw [← hw, fieldOf, fieldHi _ _ _ (by decide), fieldHi _ _ _ (by decide), fieldHi _ _ _ (by decide), fieldHi _ _ _ (by decide), fieldLo _ _ _ (by decide)]; rfl
  have h2 : fieldOf wd 7 8 = 0x0#8 := by rw [← hw, fieldOf, fieldHi _ _ _ (by decide), fieldHi _ _ _ (by decide), fieldLo _ _ _ (by decide)]; rfl
  have h3 : fieldOf wd 0 6 = 0x0#6 := by rw [← hw, fieldOf, fieldLo _ _ _ (by decide)]; rfl
  have h4 : fieldOf wd 31 1 = sw := by rw [← hw, fieldOf, fieldHi _ _ _ (by decide), fieldHi _ _ _ (by decide), fieldHi _ _ _ (by decide), fieldHi _ _ _ (by decide), fieldHi _ _ _ (by decide), fieldHi _ _ _ (by decide), fieldAll]
  have h5 : fieldOf wd 15 4 = d := by rw [← hw, fieldOf, fieldHi _ _ _ (by decide), fieldHi _ _ _ (by decide), fieldHi _ _ _ (by decide), fieldLo _ _ _ (by decide), fieldAll]
  have h6 : fieldOf wd 6 1 = k := by rw [← hw, fieldOf, fieldHi _ _ _ (by decide), fieldLo _ _ _ (by decide), fieldAll]
  simp [decode, decodeCompound, decode78, h0, h1, h2, h3, h4, h5, h6]

theorem Encoding.hvbclr (sw k : BitVec 1) : Encoding.Statement (.hvbclr sw k) := by
  intro wd h
  have hw : sw ++ 0x78#7 ++ 0x6000#17 ++ k ++ 0x0#6 = wd := Option.some.inj h
  have h0 : fieldOf wd 24 7 = 0x78#7 := by rw [← hw, fieldOf, fieldHi _ _ _ (by decide), fieldHi _ _ _ (by decide), fieldHi _ _ _ (by decide), fieldLo _ _ _ (by decide)]; rfl
  have h1 : fieldOf wd 19 5 = 0x6#5 := by rw [← hw, fieldOf, fieldHi _ _ _ (by decide), fieldHi _ _ _ (by decide), fieldLo _ _ _ (by decide)]; rfl
  have h2 : fieldOf wd 7 12 = 0x0#12 := by rw [← hw, fieldOf, fieldHi _ _ _ (by decide), fieldHi _ _ _ (by decide), fieldLo _ _ _ (by decide)]; rfl
  have h3 : fieldOf wd 0 6 = 0x0#6 := by rw [← hw, fieldOf, fieldLo _ _ _ (by decide)]; rfl
  have h4 : fieldOf wd 31 1 = sw := by rw [← hw, fieldOf, fieldHi _ _ _ (by decide), fieldHi _ _ _ (by decide), fieldHi _ _ _ (by decide), fieldHi _ _ _ (by decide), fieldAll]
  have h5 : fieldOf wd 6 1 = k := by rw [← hw, fieldOf, fieldHi _ _ _ (by decide), fieldLo _ _ _ (by decide), fieldAll]
  simp [decode, decodeCompound, decode78, h0, h1, h2, h3, h4, h5]

theorem Encoding.hvgen (sw : BitVec 1) (d : BitVec 4) : Encoding.Statement (.hvgen sw d) := by
  intro wd h
  have hw : sw ++ 0x78#7 ++ 0x7#5 ++ d ++ 0x0#15 = wd := Option.some.inj h
  have h0 : fieldOf wd 24 7 = 0x78#7 := by rw [← hw, fieldOf, fieldHi _ _ _ (by decide), fieldHi _ _ _ (by decide), fieldHi _ _ _ (by decide), fieldLo _ _ _ (by decide)]; rfl
  have h1 : fieldOf wd 19 5 = 0x7#5 := by rw [← hw, fieldOf, fieldHi _ _ _ (by decide), fieldHi _ _ _ (by decide), fieldLo _ _ _ (by decide)]; rfl
  have h2 : fieldOf wd 0 15 = 0x0#15 := by rw [← hw, fieldOf, fieldLo _ _ _ (by decide)]; rfl
  have h3 : fieldOf wd 31 1 = sw := by rw [← hw, fieldOf, fieldHi _ _ _ (by decide), fieldHi _ _ _ (by decide), fieldHi _ _ _ (by decide), fieldHi _ _ _ (by decide), fieldAll]
  have h4 : fieldOf wd 15 4 = d := by rw [← hw, fieldOf, fieldHi _ _ _ (by decide), fieldLo _ _ _ (by decide), fieldAll]
  simp [decode, decodeCompound, decode78, h0, h1, h2, h3, h4]

theorem Encoding.hvrot (sw : BitVec 1) (a b : BitVec 4) (y : BitVec 6) : Encoding.Statement (.hvrot sw a b y) := by
  intro wd h
  have hw : sw ++ 0x79#7 ++ 0x0#4 ++ a ++ b ++ 0x0#6 ++ y = wd := Option.some.inj h
  have h0 : fieldOf wd 24 7 = 0x79#7 := by rw [← hw, fieldOf, fieldHi _ _ _ (by decide), fieldHi _ _ _ (by decide), fieldHi _ _ _ (by decide), fieldHi _ _ _ (by decide), fieldHi _ _ _ (by decide), fieldLo _ _ _ (by decide)]; rfl
  have h1 : fieldOf wd 20 4 = 0x0#4 := by rw [← hw, fieldOf, fieldHi _ _ _ (by decide), fieldHi _ _ _ (by decide), fieldHi _ _ _ (by decide), fieldHi _ _ _ (by decide), fieldLo _ _ _ (by decide)]; rfl
  have h2 : fieldOf wd 6 6 = 0x0#6 := by rw [← hw, fieldOf, fieldHi _ _ _ (by decide), fieldLo _ _ _ (by decide)]; rfl
  have h3 : fieldOf wd 31 1 = sw := by rw [← hw, fieldOf, fieldHi _ _ _ (by decide), fieldHi _ _ _ (by decide), fieldHi _ _ _ (by decide), fieldHi _ _ _ (by decide), fieldHi _ _ _ (by decide), fieldHi _ _ _ (by decide), fieldAll]
  have h4 : fieldOf wd 16 4 = a := by rw [← hw, fieldOf, fieldHi _ _ _ (by decide), fieldHi _ _ _ (by decide), fieldHi _ _ _ (by decide), fieldLo _ _ _ (by decide), fieldAll]
  have h5 : fieldOf wd 12 4 = b := by rw [← hw, fieldOf, fieldHi _ _ _ (by decide), fieldHi _ _ _ (by decide), fieldLo _ _ _ (by decide), fieldAll]
  have h6 : fieldOf wd 0 6 = y := by rw [← hw, fieldOf, fieldLo _ _ _ (by decide), fieldAll]
  simp [decode, decodeCompound, decode79, h0, h1, h2, h3, h4, h5, h6]

theorem Encoding.hvdist (sw : BitVec 1) (a b : BitVec 4) (x : BitVec 6) : Encoding.Statement (.hvdist sw a b x) := by
  intro wd h
  have hw : sw ++ 0x79#7 ++ 0x1#4 ++ a ++ b ++ x ++ 0x0#6 = wd := Option.some.inj h
  have h0 : fieldOf wd 24 7 = 0x79#7 := by rw [← hw, fieldOf, fieldHi _ _ _ (by decide), fieldHi _ _ _ (by decide), fieldHi _ _ _ (by decide), fieldHi _ _ _ (by decide), fieldHi _ _ _ (by decide), fieldLo _ _ _ (by decide)]; rfl
  have h1 : fieldOf wd 20 4 = 0x1#4 := by rw [← hw, fieldOf, fieldHi _ _ _ (by decide), fieldHi _ _ _ (by decide), fieldHi _ _ _ (by decide), fieldHi _ _ _ (by decide), fieldLo _ _ _ (by decide)]; rfl
  have h2 : fieldOf wd 0 6 = 0x0#6 := by rw [← hw, fieldOf, fieldLo _ _ _ (by decide)]; rfl
  have h3 : fieldOf wd 31 1 = sw := by rw [← hw, fieldOf, fieldHi _ _ _ (by decide), fieldHi _ _ _ (by decide), fieldHi _ _ _ (by decide), fieldHi _ _ _ (by decide), fieldHi _ _ _ (by decide), fieldHi _ _ _ (by decide), fieldAll]
  have h4 : fieldOf wd 16 4 = a := by rw [← hw, fieldOf, fieldHi _ _ _ (by decide), fieldHi _ _ _ (by decide), fieldHi _ _ _ (by decide), fieldLo _ _ _ (by decide), fieldAll]
  have h5 : fieldOf wd 12 4 = b := by rw [← hw, fieldOf, fieldHi _ _ _ (by decide), fieldHi _ _ _ (by decide), fieldLo _ _ _ (by decide), fieldAll]
  have h6 : fieldOf wd 6 6 = x := by rw [← hw, fieldOf, fieldHi _ _ _ (by decide), fieldLo _ _ _ (by decide), fieldAll]
  simp [decode, decodeCompound, decode79, h0, h1, h2, h3, h4, h5, h6]

theorem Encoding.hvseed (sw : BitVec 1) (y : BitVec 6) : Encoding.Statement (.hvseed sw y) := by
  intro wd h
  have hw : sw ++ 0x79#7 ++ 0x8000#18 ++ y = wd := Option.some.inj h
  have h0 : fieldOf wd 24 7 = 0x79#7 := by rw [← hw, fieldOf, fieldHi _ _ _ (by decide), fieldHi _ _ _ (by decide), fieldLo _ _ _ (by decide)]; rfl
  have h1 : fieldOf wd 20 4 = 0x2#4 := by rw [← hw, fieldOf, fieldHi _ _ _ (by decide), fieldLo _ _ _ (by decide)]; rfl
  have h2 : fieldOf wd 6 14 = 0x0#14 := by rw [← hw, fieldOf, fieldHi _ _ _ (by decide), fieldLo _ _ _ (by decide)]; rfl
  have h3 : fieldOf wd 31 1 = sw := by rw [← hw, fieldOf, fieldHi _ _ _ (by decide), fieldHi _ _ _ (by decide), fieldHi _ _ _ (by decide), fieldAll]
  have h4 : fieldOf wd 0 6 = y := by rw [← hw, fieldOf, fieldLo _ _ _ (by decide), fieldAll]
  simp [decode, decodeCompound, decode79, h0, h1, h2, h3, h4]

theorem Encoding.hvrdtie (sw : BitVec 1) (x : BitVec 6) : Encoding.Statement (.hvrdtie sw x) := by
  intro wd h
  have hw : sw ++ 0x79#7 ++ 0x300#12 ++ x ++ 0x0#6 = wd := Option.some.inj h
  have h0 : fieldOf wd 24 7 = 0x79#7 := by rw [← hw, fieldOf, fieldHi _ _ _ (by decide), fieldHi _ _ _ (by decide), fieldHi _ _ _ (by decide), fieldLo _ _ _ (by decide)]; rfl
  have h1 : fieldOf wd 20 4 = 0x3#4 := by rw [← hw, fieldOf, fieldHi _ _ _ (by decide), fieldHi _ _ _ (by decide), fieldLo _ _ _ (by decide)]; rfl
  have h2 : fieldOf wd 12 8 = 0x0#8 := by rw [← hw, fieldOf, fieldHi _ _ _ (by decide), fieldHi _ _ _ (by decide), fieldLo _ _ _ (by decide)]; rfl
  have h3 : fieldOf wd 0 6 = 0x0#6 := by rw [← hw, fieldOf, fieldLo _ _ _ (by decide)]; rfl
  have h4 : fieldOf wd 31 1 = sw := by rw [← hw, fieldOf, fieldHi _ _ _ (by decide), fieldHi _ _ _ (by decide), fieldHi _ _ _ (by decide), fieldHi _ _ _ (by decide), fieldAll]
  have h5 : fieldOf wd 6 6 = x := by rw [← hw, fieldOf, fieldHi _ _ _ (by decide), fieldLo _ _ _ (by decide), fieldAll]
  simp [decode, decodeCompound, decode79, h0, h1, h2, h3, h4, h5]

theorem Encoding.hvld (sw : BitVec 1) (a : BitVec 4) (y : BitVec 6) : Encoding.Statement (.hvld sw a y) := by
  intro wd h
  have hw : sw ++ 0x79#7 ++ 0x4#4 ++ a ++ 0x0#10 ++ y = wd := Option.some.inj h
  have h0 : fieldOf wd 24 7 = 0x79#7 := by rw [← hw, fieldOf, fieldHi _ _ _ (by decide), fieldHi _ _ _ (by decide), fieldHi _ _ _ (by decide), fieldHi _ _ _ (by decide), fieldLo _ _ _ (by decide)]; rfl
  have h1 : fieldOf wd 20 4 = 0x4#4 := by rw [← hw, fieldOf, fieldHi _ _ _ (by decide), fieldHi _ _ _ (by decide), fieldHi _ _ _ (by decide), fieldLo _ _ _ (by decide)]; rfl
  have h2 : fieldOf wd 6 10 = 0x0#10 := by rw [← hw, fieldOf, fieldHi _ _ _ (by decide), fieldLo _ _ _ (by decide)]; rfl
  have h3 : fieldOf wd 31 1 = sw := by rw [← hw, fieldOf, fieldHi _ _ _ (by decide), fieldHi _ _ _ (by decide), fieldHi _ _ _ (by decide), fieldHi _ _ _ (by decide), fieldHi _ _ _ (by decide), fieldAll]
  have h4 : fieldOf wd 16 4 = a := by rw [← hw, fieldOf, fieldHi _ _ _ (by decide), fieldHi _ _ _ (by decide), fieldLo _ _ _ (by decide), fieldAll]
  have h5 : fieldOf wd 0 6 = y := by rw [← hw, fieldOf, fieldLo _ _ _ (by decide), fieldAll]
  simp [decode, decodeCompound, decode79, h0, h1, h2, h3, h4, h5]

theorem Encoding.hvst (sw : BitVec 1) (a : BitVec 4) (y : BitVec 6) : Encoding.Statement (.hvst sw a y) := by
  intro wd h
  have hw : sw ++ 0x79#7 ++ 0x5#4 ++ a ++ 0x0#10 ++ y = wd := Option.some.inj h
  have h0 : fieldOf wd 24 7 = 0x79#7 := by rw [← hw, fieldOf, fieldHi _ _ _ (by decide), fieldHi _ _ _ (by decide), fieldHi _ _ _ (by decide), fieldHi _ _ _ (by decide), fieldLo _ _ _ (by decide)]; rfl
  have h1 : fieldOf wd 20 4 = 0x5#4 := by rw [← hw, fieldOf, fieldHi _ _ _ (by decide), fieldHi _ _ _ (by decide), fieldHi _ _ _ (by decide), fieldLo _ _ _ (by decide)]; rfl
  have h2 : fieldOf wd 6 10 = 0x0#10 := by rw [← hw, fieldOf, fieldHi _ _ _ (by decide), fieldLo _ _ _ (by decide)]; rfl
  have h3 : fieldOf wd 31 1 = sw := by rw [← hw, fieldOf, fieldHi _ _ _ (by decide), fieldHi _ _ _ (by decide), fieldHi _ _ _ (by decide), fieldHi _ _ _ (by decide), fieldHi _ _ _ (by decide), fieldAll]
  have h4 : fieldOf wd 16 4 = a := by rw [← hw, fieldOf, fieldHi _ _ _ (by decide), fieldHi _ _ _ (by decide), fieldLo _ _ _ (by decide), fieldAll]
  have h5 : fieldOf wd 0 6 = y := by rw [← hw, fieldOf, fieldLo _ _ _ (by decide), fieldAll]
  simp [decode, decodeCompound, decode79, h0, h1, h2, h3, h4, h5]

theorem Encoding.hvnear (sw : BitVec 1) (a : BitVec 4) (x y : BitVec 6) : Encoding.Statement (.hvnear sw a x y) := by
  intro wd h
  have hw : sw ++ 0x79#7 ++ 0x6#4 ++ a ++ 0x0#4 ++ x ++ y = wd := Option.some.inj h
  have h0 : fieldOf wd 24 7 = 0x79#7 := by rw [← hw, fieldOf, fieldHi _ _ _ (by decide), fieldHi _ _ _ (by decide), fieldHi _ _ _ (by decide), fieldHi _ _ _ (by decide), fieldHi _ _ _ (by decide), fieldLo _ _ _ (by decide)]; rfl
  have h1 : fieldOf wd 20 4 = 0x6#4 := by rw [← hw, fieldOf, fieldHi _ _ _ (by decide), fieldHi _ _ _ (by decide), fieldHi _ _ _ (by decide), fieldHi _ _ _ (by decide), fieldLo _ _ _ (by decide)]; rfl
  have h2 : fieldOf wd 12 4 = 0x0#4 := by rw [← hw, fieldOf, fieldHi _ _ _ (by decide), fieldHi _ _ _ (by decide), fieldLo _ _ _ (by decide)]; rfl
  have h3 : fieldOf wd 31 1 = sw := by rw [← hw, fieldOf, fieldHi _ _ _ (by decide), fieldHi _ _ _ (by decide), fieldHi _ _ _ (by decide), fieldHi _ _ _ (by decide), fieldHi _ _ _ (by decide), fieldHi _ _ _ (by decide), fieldAll]
  have h4 : fieldOf wd 16 4 = a := by rw [← hw, fieldOf, fieldHi _ _ _ (by decide), fieldHi _ _ _ (by decide), fieldHi _ _ _ (by decide), fieldLo _ _ _ (by decide), fieldAll]
  have h5 : fieldOf wd 6 6 = x := by rw [← hw, fieldOf, fieldHi _ _ _ (by decide), fieldLo _ _ _ (by decide), fieldAll]
  have h6 : fieldOf wd 0 6 = y := by rw [← hw, fieldOf, fieldLo _ _ _ (by decide), fieldAll]
  simp [decode, decodeCompound, decode79, h0, h1, h2, h3, h4, h5, h6]

theorem Encoding.hvbit (sw : BitVec 1) (a : BitVec 4) (x y : BitVec 6) : Encoding.Statement (.hvbit sw a x y) := by
  intro wd h
  have hw : sw ++ 0x79#7 ++ 0x7#4 ++ a ++ 0x0#4 ++ x ++ y = wd := Option.some.inj h
  have h0 : fieldOf wd 24 7 = 0x79#7 := by rw [← hw, fieldOf, fieldHi _ _ _ (by decide), fieldHi _ _ _ (by decide), fieldHi _ _ _ (by decide), fieldHi _ _ _ (by decide), fieldHi _ _ _ (by decide), fieldLo _ _ _ (by decide)]; rfl
  have h1 : fieldOf wd 20 4 = 0x7#4 := by rw [← hw, fieldOf, fieldHi _ _ _ (by decide), fieldHi _ _ _ (by decide), fieldHi _ _ _ (by decide), fieldHi _ _ _ (by decide), fieldLo _ _ _ (by decide)]; rfl
  have h2 : fieldOf wd 12 4 = 0x0#4 := by rw [← hw, fieldOf, fieldHi _ _ _ (by decide), fieldHi _ _ _ (by decide), fieldLo _ _ _ (by decide)]; rfl
  have h3 : fieldOf wd 31 1 = sw := by rw [← hw, fieldOf, fieldHi _ _ _ (by decide), fieldHi _ _ _ (by decide), fieldHi _ _ _ (by decide), fieldHi _ _ _ (by decide), fieldHi _ _ _ (by decide), fieldHi _ _ _ (by decide), fieldAll]
  have h4 : fieldOf wd 16 4 = a := by rw [← hw, fieldOf, fieldHi _ _ _ (by decide), fieldHi _ _ _ (by decide), fieldHi _ _ _ (by decide), fieldLo _ _ _ (by decide), fieldAll]
  have h5 : fieldOf wd 6 6 = x := by rw [← hw, fieldOf, fieldHi _ _ _ (by decide), fieldLo _ _ _ (by decide), fieldAll]
  have h6 : fieldOf wd 0 6 = y := by rw [← hw, fieldOf, fieldLo _ _ _ (by decide), fieldAll]
  simp [decode, decodeCompound, decode79, h0, h1, h2, h3, h4, h5, h6]

theorem Encoding.enq (sw : BitVec 1) (d a b : BitVec 6) : Encoding.Statement (.enq sw d a b) := by
  intro wd h
  have hw : sw ++ 0x7A#7 ++ 0x0#4 ++ d ++ a ++ b ++ 0x0#2 = wd := Option.some.inj h
  have h0 : fieldOf wd 24 7 = 0x7A#7 := by rw [← hw, fieldOf, fieldHi _ _ _ (by decide), fieldHi _ _ _ (by decide), fieldHi _ _ _ (by decide), fieldHi _ _ _ (by decide), fieldHi _ _ _ (by decide), fieldLo _ _ _ (by decide)]; rfl
  have h1 : fieldOf wd 20 4 = 0x0#4 := by rw [← hw, fieldOf, fieldHi _ _ _ (by decide), fieldHi _ _ _ (by decide), fieldHi _ _ _ (by decide), fieldHi _ _ _ (by decide), fieldLo _ _ _ (by decide)]; rfl
  have h2 : fieldOf wd 0 2 = 0x0#2 := by rw [← hw, fieldOf, fieldLo _ _ _ (by decide)]; rfl
  have h3 : fieldOf wd 31 1 = sw := by rw [← hw, fieldOf, fieldHi _ _ _ (by decide), fieldHi _ _ _ (by decide), fieldHi _ _ _ (by decide), fieldHi _ _ _ (by decide), fieldHi _ _ _ (by decide), fieldHi _ _ _ (by decide), fieldAll]
  have h4 : fieldOf wd 14 6 = d := by rw [← hw, fieldOf, fieldHi _ _ _ (by decide), fieldHi _ _ _ (by decide), fieldHi _ _ _ (by decide), fieldLo _ _ _ (by decide), fieldAll]
  have h5 : fieldOf wd 8 6 = a := by rw [← hw, fieldOf, fieldHi _ _ _ (by decide), fieldHi _ _ _ (by decide), fieldLo _ _ _ (by decide), fieldAll]
  have h6 : fieldOf wd 2 6 = b := by rw [← hw, fieldOf, fieldHi _ _ _ (by decide), fieldLo _ _ _ (by decide), fieldAll]
  simp [decode, decodeCompound, decode7A, h0, h1, h2, h3, h4, h5, h6]

theorem Encoding.sgfork (sw : BitVec 1) (d a b : BitVec 6) : Encoding.Statement (.sgfork sw d a b) := by
  intro wd h
  have hw : sw ++ 0x7A#7 ++ 0x1#4 ++ d ++ a ++ b ++ 0x0#2 = wd := Option.some.inj h
  have h0 : fieldOf wd 24 7 = 0x7A#7 := by rw [← hw, fieldOf, fieldHi _ _ _ (by decide), fieldHi _ _ _ (by decide), fieldHi _ _ _ (by decide), fieldHi _ _ _ (by decide), fieldHi _ _ _ (by decide), fieldLo _ _ _ (by decide)]; rfl
  have h1 : fieldOf wd 20 4 = 0x1#4 := by rw [← hw, fieldOf, fieldHi _ _ _ (by decide), fieldHi _ _ _ (by decide), fieldHi _ _ _ (by decide), fieldHi _ _ _ (by decide), fieldLo _ _ _ (by decide)]; rfl
  have h2 : fieldOf wd 0 2 = 0x0#2 := by rw [← hw, fieldOf, fieldLo _ _ _ (by decide)]; rfl
  have h3 : fieldOf wd 31 1 = sw := by rw [← hw, fieldOf, fieldHi _ _ _ (by decide), fieldHi _ _ _ (by decide), fieldHi _ _ _ (by decide), fieldHi _ _ _ (by decide), fieldHi _ _ _ (by decide), fieldHi _ _ _ (by decide), fieldAll]
  have h4 : fieldOf wd 14 6 = d := by rw [← hw, fieldOf, fieldHi _ _ _ (by decide), fieldHi _ _ _ (by decide), fieldHi _ _ _ (by decide), fieldLo _ _ _ (by decide), fieldAll]
  have h5 : fieldOf wd 8 6 = a := by rw [← hw, fieldOf, fieldHi _ _ _ (by decide), fieldHi _ _ _ (by decide), fieldLo _ _ _ (by decide), fieldAll]
  have h6 : fieldOf wd 2 6 = b := by rw [← hw, fieldOf, fieldHi _ _ _ (by decide), fieldLo _ _ _ (by decide), fieldAll]
  simp [decode, decodeCompound, decode7A, h0, h1, h2, h3, h4, h5, h6]

theorem Encoding.sgreward (sw : BitVec 1) (d a : BitVec 6) : Encoding.Statement (.sgreward sw d a) := by
  intro wd h
  have hw : sw ++ 0x7A#7 ++ 0x2#4 ++ d ++ a ++ 0x0#8 = wd := Option.some.inj h
  have h0 : fieldOf wd 24 7 = 0x7A#7 := by rw [← hw, fieldOf, fieldHi _ _ _ (by decide), fieldHi _ _ _ (by decide), fieldHi _ _ _ (by decide), fieldHi _ _ _ (by decide), fieldLo _ _ _ (by decide)]; rfl
  have h1 : fieldOf wd 20 4 = 0x2#4 := by rw [← hw, fieldOf, fieldHi _ _ _ (by decide), fieldHi _ _ _ (by decide), fieldHi _ _ _ (by decide), fieldLo _ _ _ (by decide)]; rfl
  have h2 : fieldOf wd 0 8 = 0x0#8 := by rw [← hw, fieldOf, fieldLo _ _ _ (by decide)]; rfl
  have h3 : fieldOf wd 31 1 = sw := by rw [← hw, fieldOf, fieldHi _ _ _ (by decide), fieldHi _ _ _ (by decide), fieldHi _ _ _ (by decide), fieldHi _ _ _ (by decide), fieldHi _ _ _ (by decide), fieldAll]
  have h4 : fieldOf wd 14 6 = d := by rw [← hw, fieldOf, fieldHi _ _ _ (by decide), fieldHi _ _ _ (by decide), fieldLo _ _ _ (by decide), fieldAll]
  have h5 : fieldOf wd 8 6 = a := by rw [← hw, fieldOf, fieldHi _ _ _ (by decide), fieldLo _ _ _ (by decide), fieldAll]
  simp [decode, decodeCompound, decode7A, h0, h1, h2, h3, h4, h5]

theorem Encoding.sgwait (sw : BitVec 1) (d : BitVec 6) : Encoding.Statement (.sgwait sw d) := by
  intro wd h
  have hw : sw ++ 0x7A#7 ++ 0x3#4 ++ d ++ 0x0#14 = wd := Option.some.inj h
  have h0 : fieldOf wd 24 7 = 0x7A#7 := by rw [← hw, fieldOf, fieldHi _ _ _ (by decide), fieldHi _ _ _ (by decide), fieldHi _ _ _ (by decide), fieldLo _ _ _ (by decide)]; rfl
  have h1 : fieldOf wd 20 4 = 0x3#4 := by rw [← hw, fieldOf, fieldHi _ _ _ (by decide), fieldHi _ _ _ (by decide), fieldLo _ _ _ (by decide)]; rfl
  have h2 : fieldOf wd 0 14 = 0x0#14 := by rw [← hw, fieldOf, fieldLo _ _ _ (by decide)]; rfl
  have h3 : fieldOf wd 31 1 = sw := by rw [← hw, fieldOf, fieldHi _ _ _ (by decide), fieldHi _ _ _ (by decide), fieldHi _ _ _ (by decide), fieldHi _ _ _ (by decide), fieldAll]
  have h4 : fieldOf wd 14 6 = d := by rw [← hw, fieldOf, fieldHi _ _ _ (by decide), fieldLo _ _ _ (by decide), fieldAll]
  simp [decode, decodeCompound, decode7A, h0, h1, h2, h3, h4]

theorem Encoding.sgcancel (sw : BitVec 1) (a : BitVec 6) : Encoding.Statement (.sgcancel sw a) := by
  intro wd h
  have hw : sw ++ 0x7A#7 ++ 0x100#10 ++ a ++ 0x0#8 = wd := Option.some.inj h
  have h0 : fieldOf wd 24 7 = 0x7A#7 := by rw [← hw, fieldOf, fieldHi _ _ _ (by decide), fieldHi _ _ _ (by decide), fieldHi _ _ _ (by decide), fieldLo _ _ _ (by decide)]; rfl
  have h1 : fieldOf wd 20 4 = 0x4#4 := by rw [← hw, fieldOf, fieldHi _ _ _ (by decide), fieldHi _ _ _ (by decide), fieldLo _ _ _ (by decide)]; rfl
  have h2 : fieldOf wd 14 6 = 0x0#6 := by rw [← hw, fieldOf, fieldHi _ _ _ (by decide), fieldHi _ _ _ (by decide), fieldLo _ _ _ (by decide)]; rfl
  have h3 : fieldOf wd 0 8 = 0x0#8 := by rw [← hw, fieldOf, fieldLo _ _ _ (by decide)]; rfl
  have h4 : fieldOf wd 31 1 = sw := by rw [← hw, fieldOf, fieldHi _ _ _ (by decide), fieldHi _ _ _ (by decide), fieldHi _ _ _ (by decide), fieldHi _ _ _ (by decide), fieldAll]
  have h5 : fieldOf wd 8 6 = a := by rw [← hw, fieldOf, fieldHi _ _ _ (by decide), fieldLo _ _ _ (by decide), fieldAll]
  simp [decode, decodeCompound, decode7A, h0, h1, h2, h3, h4, h5]

theorem Encoding.sgquery (sw : BitVec 1) (d a : BitVec 6) : Encoding.Statement (.sgquery sw d a) := by
  intro wd h
  have hw : sw ++ 0x7A#7 ++ 0x5#4 ++ d ++ a ++ 0x0#8 = wd := Option.some.inj h
  have h0 : fieldOf wd 24 7 = 0x7A#7 := by rw [← hw, fieldOf, fieldHi _ _ _ (by decide), fieldHi _ _ _ (by decide), fieldHi _ _ _ (by decide), fieldHi _ _ _ (by decide), fieldLo _ _ _ (by decide)]; rfl
  have h1 : fieldOf wd 20 4 = 0x5#4 := by rw [← hw, fieldOf, fieldHi _ _ _ (by decide), fieldHi _ _ _ (by decide), fieldHi _ _ _ (by decide), fieldLo _ _ _ (by decide)]; rfl
  have h2 : fieldOf wd 0 8 = 0x0#8 := by rw [← hw, fieldOf, fieldLo _ _ _ (by decide)]; rfl
  have h3 : fieldOf wd 31 1 = sw := by rw [← hw, fieldOf, fieldHi _ _ _ (by decide), fieldHi _ _ _ (by decide), fieldHi _ _ _ (by decide), fieldHi _ _ _ (by decide), fieldHi _ _ _ (by decide), fieldAll]
  have h4 : fieldOf wd 14 6 = d := by rw [← hw, fieldOf, fieldHi _ _ _ (by decide), fieldHi _ _ _ (by decide), fieldLo _ _ _ (by decide), fieldAll]
  have h5 : fieldOf wd 8 6 = a := by rw [← hw, fieldOf, fieldHi _ _ _ (by decide), fieldLo _ _ _ (by decide), fieldAll]
  simp [decode, decodeCompound, decode7A, h0, h1, h2, h3, h4, h5]

theorem Encoding.srdp (sw : BitVec 1) (x : BitVec 6) (i : BitVec 12) : Encoding.Statement (.srdp sw x i) := by
  intro wd h
  have hw : sw ++ 0x7C#7 ++ 0x0#4 ++ x ++ i ++ 0x0#2 = wd := Option.some.inj h
  have h0 : fieldOf wd 24 7 = 0x7C#7 := by rw [← hw, fieldOf, fieldHi _ _ _ (by decide), fieldHi _ _ _ (by decide), fieldHi _ _ _ (by decide), fieldHi _ _ _ (by decide), fieldLo _ _ _ (by decide)]; rfl
  have h1 : fieldOf wd 20 4 = 0x0#4 := by rw [← hw, fieldOf, fieldHi _ _ _ (by decide), fieldHi _ _ _ (by decide), fieldHi _ _ _ (by decide), fieldLo _ _ _ (by decide)]; rfl
  have h2 : fieldOf wd 0 2 = 0x0#2 := by rw [← hw, fieldOf, fieldLo _ _ _ (by decide)]; rfl
  have h3 : fieldOf wd 31 1 = sw := by rw [← hw, fieldOf, fieldHi _ _ _ (by decide), fieldHi _ _ _ (by decide), fieldHi _ _ _ (by decide), fieldHi _ _ _ (by decide), fieldHi _ _ _ (by decide), fieldAll]
  have h4 : fieldOf wd 14 6 = x := by rw [← hw, fieldOf, fieldHi _ _ _ (by decide), fieldHi _ _ _ (by decide), fieldLo _ _ _ (by decide), fieldAll]
  have h5 : fieldOf wd 2 12 = i := by rw [← hw, fieldOf, fieldHi _ _ _ (by decide), fieldLo _ _ _ (by decide), fieldAll]
  simp [decode, decodeCompound, decode7C, h0, h1, h2, h3, h4, h5]

theorem Encoding.swrp (sw : BitVec 1) (x : BitVec 6) (i : BitVec 12) : Encoding.Statement (.swrp sw x i) := by
  intro wd h
  have hw : sw ++ 0x7C#7 ++ 0x1#4 ++ x ++ i ++ 0x0#2 = wd := Option.some.inj h
  have h0 : fieldOf wd 24 7 = 0x7C#7 := by rw [← hw, fieldOf, fieldHi _ _ _ (by decide), fieldHi _ _ _ (by decide), fieldHi _ _ _ (by decide), fieldHi _ _ _ (by decide), fieldLo _ _ _ (by decide)]; rfl
  have h1 : fieldOf wd 20 4 = 0x1#4 := by rw [← hw, fieldOf, fieldHi _ _ _ (by decide), fieldHi _ _ _ (by decide), fieldHi _ _ _ (by decide), fieldLo _ _ _ (by decide)]; rfl
  have h2 : fieldOf wd 0 2 = 0x0#2 := by rw [← hw, fieldOf, fieldLo _ _ _ (by decide)]; rfl
  have h3 : fieldOf wd 31 1 = sw := by rw [← hw, fieldOf, fieldHi _ _ _ (by decide), fieldHi _ _ _ (by decide), fieldHi _ _ _ (by decide), fieldHi _ _ _ (by decide), fieldHi _ _ _ (by decide), fieldAll]
  have h4 : fieldOf wd 14 6 = x := by rw [← hw, fieldOf, fieldHi _ _ _ (by decide), fieldHi _ _ _ (by decide), fieldLo _ _ _ (by decide), fieldAll]
  have h5 : fieldOf wd 2 12 = i := by rw [← hw, fieldOf, fieldHi _ _ _ (by decide), fieldLo _ _ _ (by decide), fieldAll]
  simp [decode, decodeCompound, decode7C, h0, h1, h2, h3, h4, h5]

theorem Encoding.icinv (sw : BitVec 1) : Encoding.Statement (.icinv sw) := by
  intro wd h
  have hw : sw ++ 0x7C#7 ++ 0x200000#24 = wd := Option.some.inj h
  have h0 : fieldOf wd 24 7 = 0x7C#7 := by rw [← hw, fieldOf, fieldHi _ _ _ (by decide), fieldLo _ _ _ (by decide)]; rfl
  have h1 : fieldOf wd 20 4 = 0x2#4 := by rw [← hw, fieldOf, fieldLo _ _ _ (by decide)]; rfl
  have h2 : fieldOf wd 0 20 = 0x0#20 := by rw [← hw, fieldOf, fieldLo _ _ _ (by decide)]; rfl
  have h3 : fieldOf wd 31 1 = sw := by rw [← hw, fieldOf, fieldHi _ _ _ (by decide), fieldHi _ _ _ (by decide), fieldAll]
  simp [decode, decodeCompound, decode7C, h0, h1, h2, h3]

theorem Encoding.tlbinv (sw : BitVec 1) (x : BitVec 6) : Encoding.Statement (.tlbinv sw x) := by
  intro wd h
  have hw : sw ++ 0x7C#7 ++ 0x3#4 ++ x ++ 0x0#14 = wd := Option.some.inj h
  have h0 : fieldOf wd 24 7 = 0x7C#7 := by rw [← hw, fieldOf, fieldHi _ _ _ (by decide), fieldHi _ _ _ (by decide), fieldHi _ _ _ (by decide), fieldLo _ _ _ (by decide)]; rfl
  have h1 : fieldOf wd 20 4 = 0x3#4 := by rw [← hw, fieldOf, fieldHi _ _ _ (by decide), fieldHi _ _ _ (by decide), fieldLo _ _ _ (by decide)]; rfl
  have h2 : fieldOf wd 0 14 = 0x0#14 := by rw [← hw, fieldOf, fieldLo _ _ _ (by decide)]; rfl
  have h3 : fieldOf wd 31 1 = sw := by rw [← hw, fieldOf, fieldHi _ _ _ (by decide), fieldHi _ _ _ (by decide), fieldHi _ _ _ (by decide), fieldHi _ _ _ (by decide), fieldAll]
  have h4 : fieldOf wd 14 6 = x := by rw [← hw, fieldOf, fieldHi _ _ _ (by decide), fieldLo _ _ _ (by decide), fieldAll]
  simp [decode, decodeCompound, decode7C, h0, h1, h2, h3, h4]

theorem Encoding.wkill (sw : BitVec 1) (x : BitVec 6) : Encoding.Statement (.wkill sw x) := by
  intro wd h
  have hw : sw ++ 0x7C#7 ++ 0x4#4 ++ x ++ 0x0#14 = wd := Option.some.inj h
  have h0 : fieldOf wd 24 7 = 0x7C#7 := by rw [← hw, fieldOf, fieldHi _ _ _ (by decide), fieldHi _ _ _ (by decide), fieldHi _ _ _ (by decide), fieldLo _ _ _ (by decide)]; rfl
  have h1 : fieldOf wd 20 4 = 0x4#4 := by rw [← hw, fieldOf, fieldHi _ _ _ (by decide), fieldHi _ _ _ (by decide), fieldLo _ _ _ (by decide)]; rfl
  have h2 : fieldOf wd 0 14 = 0x0#14 := by rw [← hw, fieldOf, fieldLo _ _ _ (by decide)]; rfl
  have h3 : fieldOf wd 31 1 = sw := by rw [← hw, fieldOf, fieldHi _ _ _ (by decide), fieldHi _ _ _ (by decide), fieldHi _ _ _ (by decide), fieldHi _ _ _ (by decide), fieldAll]
  have h4 : fieldOf wd 14 6 = x := by rw [← hw, fieldOf, fieldHi _ _ _ (by decide), fieldLo _ _ _ (by decide), fieldAll]
  simp [decode, decodeCompound, decode7C, h0, h1, h2, h3, h4]

theorem Encoding.wresume (sw : BitVec 1) (x : BitVec 6) : Encoding.Statement (.wresume sw x) := by
  intro wd h
  have hw : sw ++ 0x7C#7 ++ 0x5#4 ++ x ++ 0x0#14 = wd := Option.some.inj h
  have h0 : fieldOf wd 24 7 = 0x7C#7 := by rw [← hw, fieldOf, fieldHi _ _ _ (by decide), fieldHi _ _ _ (by decide), fieldHi _ _ _ (by decide), fieldLo _ _ _ (by decide)]; rfl
  have h1 : fieldOf wd 20 4 = 0x5#4 := by rw [← hw, fieldOf, fieldHi _ _ _ (by decide), fieldHi _ _ _ (by decide), fieldLo _ _ _ (by decide)]; rfl
  have h2 : fieldOf wd 0 14 = 0x0#14 := by rw [← hw, fieldOf, fieldLo _ _ _ (by decide)]; rfl
  have h3 : fieldOf wd 31 1 = sw := by rw [← hw, fieldOf, fieldHi _ _ _ (by decide), fieldHi _ _ _ (by decide), fieldHi _ _ _ (by decide), fieldHi _ _ _ (by decide), fieldAll]
  have h4 : fieldOf wd 14 6 = x := by rw [← hw, fieldOf, fieldHi _ _ _ (by decide), fieldLo _ _ _ (by decide), fieldAll]
  simp [decode, decodeCompound, decode7C, h0, h1, h2, h3, h4]

theorem Encoding.acrd (sw : BitVec 1) (x d c : BitVec 6) : Encoding.Statement (.acrd sw x d c) := by
  intro wd h
  have hw : sw ++ 0x7C#7 ++ 0x6#4 ++ x ++ d ++ c ++ 0x0#2 = wd := Option.some.inj h
  have h0 : fieldOf wd 24 7 = 0x7C#7 := by rw [← hw, fieldOf, fieldHi _ _ _ (by decide), fieldHi _ _ _ (by decide), fieldHi _ _ _ (by decide), fieldHi _ _ _ (by decide), fieldHi _ _ _ (by decide), fieldLo _ _ _ (by decide)]; rfl
  have h1 : fieldOf wd 20 4 = 0x6#4 := by rw [← hw, fieldOf, fieldHi _ _ _ (by decide), fieldHi _ _ _ (by decide), fieldHi _ _ _ (by decide), fieldHi _ _ _ (by decide), fieldLo _ _ _ (by decide)]; rfl
  have h2 : fieldOf wd 0 2 = 0x0#2 := by rw [← hw, fieldOf, fieldLo _ _ _ (by decide)]; rfl
  have h3 : fieldOf wd 31 1 = sw := by rw [← hw, fieldOf, fieldHi _ _ _ (by decide), fieldHi _ _ _ (by decide), fieldHi _ _ _ (by decide), fieldHi _ _ _ (by decide), fieldHi _ _ _ (by decide), fieldHi _ _ _ (by decide), fieldAll]
  have h4 : fieldOf wd 14 6 = x := by rw [← hw, fieldOf, fieldHi _ _ _ (by decide), fieldHi _ _ _ (by decide), fieldHi _ _ _ (by decide), fieldLo _ _ _ (by decide), fieldAll]
  have h5 : fieldOf wd 8 6 = d := by rw [← hw, fieldOf, fieldHi _ _ _ (by decide), fieldHi _ _ _ (by decide), fieldLo _ _ _ (by decide), fieldAll]
  have h6 : fieldOf wd 2 6 = c := by rw [← hw, fieldOf, fieldHi _ _ _ (by decide), fieldLo _ _ _ (by decide), fieldAll]
  simp [decode, decodeCompound, decode7C, h0, h1, h2, h3, h4, h5, h6]

theorem Encoding.halt (sw : BitVec 1) : Encoding.Statement (.halt sw) := by
  intro wd h
  have hw : sw ++ 0x7C#7 ++ 0x700000#24 = wd := Option.some.inj h
  have h0 : fieldOf wd 24 7 = 0x7C#7 := by rw [← hw, fieldOf, fieldHi _ _ _ (by decide), fieldLo _ _ _ (by decide)]; rfl
  have h1 : fieldOf wd 20 4 = 0x7#4 := by rw [← hw, fieldOf, fieldLo _ _ _ (by decide)]; rfl
  have h2 : fieldOf wd 0 20 = 0x0#20 := by rw [← hw, fieldOf, fieldLo _ _ _ (by decide)]; rfl
  have h3 : fieldOf wd 31 1 = sw := by rw [← hw, fieldOf, fieldHi _ _ _ (by decide), fieldHi _ _ _ (by decide), fieldAll]
  simp [decode, decodeCompound, decode7C, h0, h1, h2, h3]

theorem Encoding.hintImm (p : BitVec 20) : Encoding.Statement (.hintImm p) := by
  intro wd h
  have hw : 0#1 ++ 0x7F#7 ++ 0x0#4 ++ p = wd := Option.some.inj h
  have h0 : fieldOf wd 24 7 = 0x7F#7 := by rw [← hw, fieldOf, fieldHi _ _ _ (by decide), fieldHi _ _ _ (by decide), fieldLo _ _ _ (by decide)]; rfl
  have h1 : fieldOf wd 31 1 = 0x0#1 := by rw [← hw, fieldOf, fieldHi _ _ _ (by decide), fieldHi _ _ _ (by decide), fieldHi _ _ _ (by decide)]; rfl
  have h2 : fieldOf wd 20 4 = 0x0#4 := by rw [← hw, fieldOf, fieldHi _ _ _ (by decide), fieldLo _ _ _ (by decide)]; rfl
  have h3 : fieldOf wd 0 20 = p := by rw [← hw, fieldOf, fieldLo _ _ _ (by decide), fieldAll]
  simp [decode, decodeCompound, decode7F, h0, h1, h2, h3]

theorem Encoding.hintMod (v : BitVec 1) (m : BitVec 2) (t z e w : BitVec 1) (c : BitVec 8) : Encoding.Statement (.hintMod v m t z e w c) := by
  intro wd h
  have hw : 0#1 ++ 0x7F#7 ++ 0x1#4 ++ v ++ m ++ t ++ z ++ e ++ w ++ c ++ 0x0#5 = wd := Option.some.inj h
  have h0 : fieldOf wd 24 7 = 0x7F#7 := by rw [← hw, fieldOf, fieldHi _ _ _ (by decide), fieldHi _ _ _ (by decide), fieldHi _ _ _ (by decide), fieldHi _ _ _ (by decide), fieldHi _ _ _ (by decide), fieldHi _ _ _ (by decide), fieldHi _ _ _ (by decide), fieldHi _ _ _ (by decide), fieldHi _ _ _ (by decide), fieldLo _ _ _ (by decide)]; rfl
  have h1 : fieldOf wd 31 1 = 0x0#1 := by rw [← hw, fieldOf, fieldHi _ _ _ (by decide), fieldHi _ _ _ (by decide), fieldHi _ _ _ (by decide), fieldHi _ _ _ (by decide), fieldHi _ _ _ (by decide), fieldHi _ _ _ (by decide), fieldHi _ _ _ (by decide), fieldHi _ _ _ (by decide), fieldHi _ _ _ (by decide), fieldHi _ _ _ (by decide)]; rfl
  have h2 : fieldOf wd 20 4 = 0x1#4 := by rw [← hw, fieldOf, fieldHi _ _ _ (by decide), fieldHi _ _ _ (by decide), fieldHi _ _ _ (by decide), fieldHi _ _ _ (by decide), fieldHi _ _ _ (by decide), fieldHi _ _ _ (by decide), fieldHi _ _ _ (by decide), fieldHi _ _ _ (by decide), fieldLo _ _ _ (by decide)]; rfl
  have h3 : fieldOf wd 0 5 = 0x0#5 := by rw [← hw, fieldOf, fieldLo _ _ _ (by decide)]; rfl
  have h4 : fieldOf wd 19 1 = v := by rw [← hw, fieldOf, fieldHi _ _ _ (by decide), fieldHi _ _ _ (by decide), fieldHi _ _ _ (by decide), fieldHi _ _ _ (by decide), fieldHi _ _ _ (by decide), fieldHi _ _ _ (by decide), fieldHi _ _ _ (by decide), fieldLo _ _ _ (by decide), fieldAll]
  have h5 : fieldOf wd 17 2 = m := by rw [← hw, fieldOf, fieldHi _ _ _ (by decide), fieldHi _ _ _ (by decide), fieldHi _ _ _ (by decide), fieldHi _ _ _ (by decide), fieldHi _ _ _ (by decide), fieldHi _ _ _ (by decide), fieldLo _ _ _ (by decide), fieldAll]
  have h6 : fieldOf wd 16 1 = t := by rw [← hw, fieldOf, fieldHi _ _ _ (by decide), fieldHi _ _ _ (by decide), fieldHi _ _ _ (by decide), fieldHi _ _ _ (by decide), fieldHi _ _ _ (by decide), fieldLo _ _ _ (by decide), fieldAll]
  have h7 : fieldOf wd 15 1 = z := by rw [← hw, fieldOf, fieldHi _ _ _ (by decide), fieldHi _ _ _ (by decide), fieldHi _ _ _ (by decide), fieldHi _ _ _ (by decide), fieldLo _ _ _ (by decide), fieldAll]
  have h8 : fieldOf wd 14 1 = e := by rw [← hw, fieldOf, fieldHi _ _ _ (by decide), fieldHi _ _ _ (by decide), fieldHi _ _ _ (by decide), fieldLo _ _ _ (by decide), fieldAll]
  have h9 : fieldOf wd 13 1 = w := by rw [← hw, fieldOf, fieldHi _ _ _ (by decide), fieldHi _ _ _ (by decide), fieldLo _ _ _ (by decide), fieldAll]
  have h10 : fieldOf wd 5 8 = c := by rw [← hw, fieldOf, fieldHi _ _ _ (by decide), fieldLo _ _ _ (by decide), fieldAll]
  simp [decode, decodeCompound, decode7F, h0, h1, h2, h3, h4, h5, h6, h7, h8, h9, h10]

theorem Encoding.ipref (sw : BitVec 1) (n : BitVec 2) (o : BitVec 18) : Encoding.Statement (.ipref sw n o) := by
  intro wd h
  have hw : sw ++ 0x7F#7 ++ 0x2#4 ++ n ++ o = wd := Option.some.inj h
  have h0 : fieldOf wd 24 7 = 0x7F#7 := by rw [← hw, fieldOf, fieldHi _ _ _ (by decide), fieldHi _ _ _ (by decide), fieldHi _ _ _ (by decide), fieldLo _ _ _ (by decide)]; rfl
  have h1 : fieldOf wd 20 4 = 0x2#4 := by rw [← hw, fieldOf, fieldHi _ _ _ (by decide), fieldHi _ _ _ (by decide), fieldLo _ _ _ (by decide)]; rfl
  have h2 : fieldOf wd 31 1 = sw := by rw [← hw, fieldOf, fieldHi _ _ _ (by decide), fieldHi _ _ _ (by decide), fieldHi _ _ _ (by decide), fieldHi _ _ _ (by decide), fieldAll]
  have h3 : fieldOf wd 18 2 = n := by rw [← hw, fieldOf, fieldHi _ _ _ (by decide), fieldLo _ _ _ (by decide), fieldAll]
  have h4 : fieldOf wd 0 18 = o := by rw [← hw, fieldOf, fieldLo _ _ _ (by decide), fieldAll]
  simp [decode, decodeCompound, decode7F, h0, h1, h2, h3, h4]

theorem Encoding.hintSched (sw : BitVec 1) (n : BitVec 4) : Encoding.Statement (.hintSched sw n) := by
  intro wd h
  have hw : sw ++ 0x7F#7 ++ 0x30000#20 ++ n = wd := Option.some.inj h
  have h0 : fieldOf wd 24 7 = 0x7F#7 := by rw [← hw, fieldOf, fieldHi _ _ _ (by decide), fieldHi _ _ _ (by decide), fieldLo _ _ _ (by decide)]; rfl
  have h1 : fieldOf wd 20 4 = 0x3#4 := by rw [← hw, fieldOf, fieldHi _ _ _ (by decide), fieldLo _ _ _ (by decide)]; rfl
  have h2 : fieldOf wd 4 16 = 0x0#16 := by rw [← hw, fieldOf, fieldHi _ _ _ (by decide), fieldLo _ _ _ (by decide)]; rfl
  have h3 : fieldOf wd 31 1 = sw := by rw [← hw, fieldOf, fieldHi _ _ _ (by decide), fieldHi _ _ _ (by decide), fieldHi _ _ _ (by decide), fieldAll]
  have h4 : fieldOf wd 0 4 = n := by rw [← hw, fieldOf, fieldLo _ _ _ (by decide), fieldAll]
  simp [decode, decodeCompound, decode7F, h0, h1, h2, h3, h4]

theorem Encoding.hintSchedDelayEnd (w : Nat) : Encoding.Statement (.hintSchedDelayEnd w) := Encoding.event rfl

theorem Encoding.resultWrite (w k units : Nat) : Encoding.Statement (.resultWrite w k units) := Encoding.event rfl

theorem Encoding.atomicPerform (w lane : Nat) : Encoding.Statement (.atomicPerform w lane) := Encoding.event rfl

theorem Encoding.llcFill (pa : Nat) : Encoding.Statement (.llcFill pa) := Encoding.event rfl

theorem Encoding.llcWriteBack (pa : Nat) : Encoding.Statement (.llcWriteBack pa) := Encoding.event rfl

theorem Encoding.pageWalk (core c : Nat) (va : DWord) : Encoding.Statement (.pageWalk core c va) := Encoding.event rfl

theorem Encoding.wsRefreshWindowEnd (q : Nat) : Encoding.Statement (.wsRefreshWindowEnd q) := Encoding.event rfl

theorem Encoding.regionBaseWrite (q r : Nat) (v : DWord) : Encoding.Statement (.regionBaseWrite q r v) := Encoding.event rfl

theorem Encoding.regionLimitWrite (q r : Nat) (v : DWord) : Encoding.Statement (.regionLimitWrite q r v) := Encoding.event rfl

theorem Encoding.regionScaleWrite (q r : Nat) (v : DWord) : Encoding.Statement (.regionScaleWrite q r v) := Encoding.event rfl

theorem Encoding.regionCtlWrite (q r : Nat) (v : DWord) : Encoding.Statement (.regionCtlWrite q r v) := Encoding.event rfl

theorem Encoding.regionChangeApply (q r : Nat) : Encoding.Statement (.regionChangeApply q r) := Encoding.event rfl

theorem Encoding.registerWrite (off : Nat) (v : DWord) : Encoding.Statement (.registerWrite off v) := Encoding.event rfl

theorem Encoding.qwptrDoorbell (slot : Nat) (v : DWord) : Encoding.Statement (.qwptrDoorbell slot v) := Encoding.event rfl

theorem Encoding.pad (c r : Nat) : Encoding.Statement (.pad c r) := Encoding.event rfl

theorem Encoding.kernel (c r : Nat) : Encoding.Statement (.kernel c r) := Encoding.event rfl

theorem Encoding.graph (c r : Nat) : Encoding.Statement (.graph c r) := Encoding.event rfl

theorem Encoding.copy (c r core : Nat) : Encoding.Statement (.copy c r core) := Encoding.event rfl

theorem Encoding.waitValue (c r : Nat) : Encoding.Statement (.waitValue c r) := Encoding.event rfl

theorem Encoding.waitValueReread (c r : Nat) : Encoding.Statement (.waitValueReread c r) := Encoding.event rfl

theorem Encoding.signal (c r : Nat) : Encoding.Statement (.signal c r) := Encoding.event rfl

theorem Encoding.signalAdd (c r : Nat) : Encoding.Statement (.signalAdd c r) := Encoding.event rfl

theorem Encoding.publish (c r : Nat) : Encoding.Statement (.publish c r) := Encoding.event rfl

theorem Encoding.checkpointClose (c r : Nat) : Encoding.Statement (.checkpointClose c r) := Encoding.event rfl

theorem Encoding.checkpointStopSave (c r : Nat) : Encoding.Statement (.checkpointStopSave c r) := Encoding.event rfl

theorem Encoding.launchComplete (l : Nat) : Encoding.Statement (.launchComplete l) := Encoding.event rfl

theorem Encoding.binTimerExpiry (c b : Nat) : Encoding.Statement (.binTimerExpiry c b) := Encoding.event rfl

theorem Encoding.groupPlace : Encoding.Statement (.groupPlace) := Encoding.event rfl

theorem Encoding.groupStart (g : Nat) : Encoding.Statement (.groupStart g) := Encoding.event rfl

theorem Encoding.groupPark (g : Nat) : Encoding.Statement (.groupPark g) := Encoding.event rfl

theorem Encoding.sgwaitSpinExpiry (w : Nat) : Encoding.Statement (.sgwaitSpinExpiry w) := Encoding.event rfl

theorem Encoding.sgoTimeout (c o : Nat) : Encoding.Statement (.sgoTimeout c o) := Encoding.event rfl

theorem Encoding.trapEntry (w : Nat) : Encoding.Statement (.trapEntry w) := Encoding.event rfl

theorem Encoding.boundaryTrap (w : Nat) : Encoding.Statement (.boundaryTrap w) := Encoding.event rfl

theorem Encoding.waveKill (w : Nat) : Encoding.Statement (.waveKill w) := Encoding.event rfl

theorem Encoding.waveStop (w k : Nat) : Encoding.Statement (.waveStop w k) := Encoding.event rfl

theorem Encoding.copyRequestStart (core : Nat) : Encoding.Statement (.copyRequestStart core) := Encoding.event rfl

theorem Encoding.copyPieceLand (q n : Nat) : Encoding.Statement (.copyPieceLand q n) := Encoding.event rfl

theorem Encoding.copyRequestFail (q : Nat) : Encoding.Statement (.copyRequestFail q) := Encoding.event rfl

theorem Encoding.copyRequestCancel (q : Nat) : Encoding.Statement (.copyRequestCancel q) := Encoding.event rfl

theorem Encoding.followOnIssue (q : Nat) : Encoding.Statement (.followOnIssue q) := Encoding.event rfl

theorem Encoding.publishStep (c n : Nat) : Encoding.Statement (.publishStep c n) := Encoding.event rfl

theorem Encoding.arrayPass (core a : Nat) : Encoding.Statement (.arrayPass core a) := Encoding.event rfl

theorem Encoding.acczRun (core a : Nat) : Encoding.Statement (.acczRun core a) := Encoding.event rfl

theorem Encoding.accldRun (core a : Nat) : Encoding.Statement (.accldRun core a) := Encoding.event rfl

theorem Encoding.barWaitComplete (w : Nat) : Encoding.Statement (.barWaitComplete w) := Encoding.event rfl

theorem Encoding.intervalClose (c : Nat) : Encoding.Statement (.intervalClose c) := Encoding.event rfl

theorem Encoding.cutCapture (c : Nat) : Encoding.Statement (.cutCapture c) := Encoding.event rfl

theorem Encoding.ckptintvExpiry (c : Nat) : Encoding.Statement (.ckptintvExpiry c) := Encoding.event rfl

theorem Encoding.agStreamItem (c k : Nat) : Encoding.Statement (.agStreamItem c k) := Encoding.event rfl

theorem Encoding.agCommit (c : Nat) : Encoding.Statement (.agCommit c) := Encoding.event rfl

theorem Encoding.agPendUpdate (c : Nat) : Encoding.Statement (.agPendUpdate c) := Encoding.event rfl

theorem Encoding.eccCorrectable (u : HwUnit) : Encoding.Statement (.eccCorrectable u) := Encoding.event rfl

theorem Encoding.eccUncorrectable (u : HwUnit) : Encoding.Statement (.eccUncorrectable u) := Encoding.event rfl

theorem Encoding.logicError (u : HwUnit) : Encoding.Statement (.logicError u) := Encoding.event rfl

theorem Encoding.linkFlitRetry (link : Nat) : Encoding.Statement (.linkFlitRetry link) := Encoding.event rfl

theorem Encoding.selfTestVerdict (k : Nat) (ok : Bool) : Encoding.Statement (.selfTestVerdict k ok) := Encoding.event rfl

theorem Encoding.hostHdmAccess (op : HostOp) : Encoding.Statement (.hostHdmAccess op) := Encoding.event rfl

theorem Encoding.peerRequest (p : Nat) (op : HostOp) : Encoding.Statement (.peerRequest p op) := Encoding.event rfl

theorem Encoding.peerLinkDown (p : Nat) : Encoding.Statement (.peerLinkDown p) := Encoding.event rfl

theorem Encoding.ckptPortDown (p : Nat) : Encoding.Statement (.ckptPortDown p) := Encoding.event rfl

theorem Encoding.powerThrottleWindow (mw : Nat) : Encoding.Statement (.powerThrottleWindow mw) := Encoding.event rfl

theorem Encoding.thermalThrottle (on : Bool) : Encoding.Statement (.thermalThrottle on) := Encoding.event rfl

theorem Encoding.thermtrip : Encoding.Statement (.thermtrip) := Encoding.event rfl

theorem Encoding.deviceReset (fails : List BootFailure) : Encoding.Statement (.deviceReset fails) := Encoding.event rfl

theorem Encoding.ctxCreate : Encoding.Statement (.ctxCreate) := Encoding.event rfl

theorem Encoding.ctxDestroy : Encoding.Statement (.ctxDestroy) := Encoding.event rfl

theorem Encoding.ctxRead : Encoding.Statement (.ctxRead) := Encoding.event rfl

theorem Encoding.ctxWrite : Encoding.Statement (.ctxWrite) := Encoding.event rfl

theorem Encoding.ctxStopClose : Encoding.Statement (.ctxStopClose) := Encoding.event rfl

theorem Encoding.ctxStopSave : Encoding.Statement (.ctxStopSave) := Encoding.event rfl

theorem Encoding.ctxResume : Encoding.Statement (.ctxResume) := Encoding.event rfl

theorem Encoding.ctxKill : Encoding.Statement (.ctxKill) := Encoding.event rfl

theorem Encoding.ctxInval : Encoding.Statement (.ctxInval) := Encoding.event rfl

theorem Encoding.ringCreate : Encoding.Statement (.ringCreate) := Encoding.event rfl

theorem Encoding.ringDestroy : Encoding.Statement (.ringDestroy) := Encoding.event rfl

theorem Encoding.objLoad : Encoding.Statement (.objLoad) := Encoding.event rfl

theorem Encoding.objUnload : Encoding.Statement (.objUnload) := Encoding.event rfl

theorem Encoding.graphSet : Encoding.Statement (.graphSet) := Encoding.event rfl

theorem Encoding.binSet : Encoding.Statement (.binSet) := Encoding.event rfl

theorem Encoding.pbSet : Encoding.Statement (.pbSet) := Encoding.event rfl

theorem Encoding.domSet : Encoding.Statement (.domSet) := Encoding.event rfl

theorem Encoding.domGet : Encoding.Statement (.domGet) := Encoding.event rfl

theorem Encoding.snapshot : Encoding.Statement (.snapshot) := Encoding.event rfl

theorem Encoding.powerRead : Encoding.Statement (.powerRead) := Encoding.event rfl

theorem Encoding.powerWrite : Encoding.Statement (.powerWrite) := Encoding.event rfl

theorem Encoding.lifeGet : Encoding.Statement (.lifeGet) := Encoding.event rfl

theorem Encoding.peerSet : Encoding.Statement (.peerSet) := Encoding.event rfl

theorem Encoding.imagePush : Encoding.Statement (.imagePush) := Encoding.event rfl

theorem Encoding.serviceCompletion (k : Nat) : Encoding.Statement (.serviceCompletion k) := Encoding.event rfl

theorem Encoding.getVersion : Encoding.Statement (.getVersion) := Encoding.event rfl

theorem Encoding.getCapabilities : Encoding.Statement (.getCapabilities) := Encoding.event rfl

theorem Encoding.negotiateAlgorithms : Encoding.Statement (.negotiateAlgorithms) := Encoding.event rfl

theorem Encoding.getDigests : Encoding.Statement (.getDigests) := Encoding.event rfl

theorem Encoding.getCertificate : Encoding.Statement (.getCertificate) := Encoding.event rfl

theorem Encoding.challenge (nonce : Nat) : Encoding.Statement (.challenge nonce) := Encoding.event rfl

theorem Encoding.getMeasurements (nonce : Nat) : Encoding.Statement (.getMeasurements nonce) := Encoding.event rfl

theorem Encoding.vendorDefinedRequest (dom nonce : Nat) : Encoding.Statement (.vendorDefinedRequest dom nonce) := Encoding.event rfl

theorem Encoding.storeEntersCoherenceOrder (w k : Nat) : Encoding.Statement (.storeEntersCoherenceOrder w k) := Encoding.event rfl

theorem Encoding.instructionFetch (w : Nat) : Encoding.Statement (.instructionFetch w) := Encoding.event rfl

theorem Encoding.instructionCacheFill (core c : Nat) (va : DWord) : Encoding.Statement (.instructionCacheFill core c va) := Encoding.event rfl

theorem Encoding.badservice : Encoding.Statement (.badservice) := Encoding.event rfl

theorem Encoding.checkpointPortUp (p : Nat) : Encoding.Statement (.checkpointPortUp p) := Encoding.event rfl

theorem Encoding.peerLinkRetrain (p : Nat) : Encoding.Statement (.peerLinkRetrain p) := Encoding.event rfl

theorem Encoding.poweredOnHour : Encoding.Statement (.poweredOnHour) := Encoding.event rfl

end Sys2Proof.Laws
end

