-- ==== Sys2Proof/Laws/State.lean ====
section
/-! SUPPORT. One lemma for each field of the state and each update of one of its tables, and for the registers of a wave and each
update of them. -/

namespace Sys2Proof.Laws

open Sys2Proof Sys2Proof.Machine

set_option Elab.async false

/-! ### Tables of the machine -/

@[simp] theorem modWave_agenda (s : State) (k : Nat) (f : Wave → Wave) : (s.modWave k f).agenda = s.agenda := rfl
@[simp] theorem modWave_cur (s : State) (k : Nat) (f : Wave → Wave) : (s.modWave k f).cur = s.cur := rfl
@[simp] theorem modWave_draws (s : State) (k : Nat) (f : Wave → Wave) : (s.modWave k f).draws = s.draws := rfl
@[simp] theorem modWave_mem (s : State) (k : Nat) (f : Wave → Wave) : (s.modWave k f).mem = s.mem := rfl
@[simp] theorem modWave_poison (s : State) (k : Nat) (f : Wave → Wave) : (s.modWave k f).poison = s.poison := rfl
@[simp] theorem modWave_quads (s : State) (k : Nat) (f : Wave → Wave) : (s.modWave k f).quads = s.quads := rfl
@[simp] theorem modWave_changes (s : State) (k : Nat) (f : Wave → Wave) : (s.modWave k f).changes = s.changes := rfl
@[simp] theorem modWave_llc (s : State) (k : Nat) (f : Wave → Wave) : (s.modWave k f).llc = s.llc := rfl
@[simp] theorem modWave_cores (s : State) (k : Nat) (f : Wave → Wave) : (s.modWave k f).cores = s.cores := rfl
@[simp] theorem modWave_waves (s : State) (k : Nat) (f : Wave → Wave) : (s.modWave k f).waves = s.waves.modify k f := rfl
@[simp] theorem modWave_groups (s : State) (k : Nat) (f : Wave → Wave) : (s.modWave k f).groups = s.groups := rfl
@[simp] theorem modWave_ctxs (s : State) (k : Nat) (f : Wave → Wave) : (s.modWave k f).ctxs = s.ctxs := rfl
@[simp] theorem modWave_copies (s : State) (k : Nat) (f : Wave → Wave) : (s.modWave k f).copies = s.copies := rfl
@[simp] theorem modWave_cmds (s : State) (k : Nat) (f : Wave → Wave) : (s.modWave k f).cmds = s.cmds := rfl
@[simp] theorem modWave_peers (s : State) (k : Nat) (f : Wave → Wave) : (s.modWave k f).peers = s.peers := rfl
@[simp] theorem modWave_launches (s : State) (k : Nat) (f : Wave → Wave) : (s.modWave k f).launches = s.launches := rfl
@[simp] theorem modWave_trees (s : State) (k : Nat) (f : Wave → Wave) : (s.modWave k f).trees = s.trees := rfl
@[simp] theorem modWave_runs (s : State) (k : Nat) (f : Wave → Wave) : (s.modWave k f).runs = s.runs := rfl
@[simp] theorem modWave_rings (s : State) (k : Nat) (f : Wave → Wave) : (s.modWave k f).rings = s.rings := rfl
@[simp] theorem modWave_objs (s : State) (k : Nat) (f : Wave → Wave) : (s.modWave k f).objs = s.objs := rfl
@[simp] theorem modWave_tablePages (s : State) (k : Nat) (f : Wave → Wave) : (s.modWave k f).tablePages = s.tablePages := rfl
@[simp] theorem modWave_begun (s : State) (k : Nat) (f : Wave → Wave) : (s.modWave k f).begun = s.begun := rfl
@[simp] theorem modWave_domains (s : State) (k : Nat) (f : Wave → Wave) : (s.modWave k f).domains = s.domains := rfl
@[simp] theorem modWave_bad (s : State) (k : Nat) (f : Wave → Wave) : (s.modWave k f).bad = s.bad := rfl
@[simp] theorem modWave_form (s : State) (k : Nat) (f : Wave → Wave) : (s.modWave k f).form = s.form := rfl
@[simp] theorem modWave_refusedHost (s : State) (k : Nat) (f : Wave → Wave) : (s.modWave k f).refusedHost = s.refusedHost := rfl
@[simp] theorem modWave_tier (s : State) (k : Nat) (f : Wave → Wave) : (s.modWave k f).tier = s.tier := rfl
@[simp] theorem modWave_wakeQueue (s : State) (k : Nat) (f : Wave → Wave) : (s.modWave k f).wakeQueue = s.wakeQueue := rfl
@[simp] theorem modWave_spanWait (s : State) (k : Nat) (f : Wave → Wave) : (s.modWave k f).spanWait = s.spanWait := rfl
@[simp] theorem modWave_replays (s : State) (k : Nat) (f : Wave → Wave) : (s.modWave k f).replays = s.replays := rfl
@[simp] theorem modWave_linkPorts (s : State) (k : Nat) (f : Wave → Wave) : (s.modWave k f).linkPorts = s.linkPorts := rfl
@[simp] theorem modWave_deadPorts (s : State) (k : Nat) (f : Wave → Wave) : (s.modWave k f).deadPorts = s.deadPorts := rfl
@[simp] theorem modWave_stall (s : State) (k : Nat) (f : Wave → Wave) : (s.modWave k f).stall = s.stall := rfl
@[simp] theorem modWave_issueHalt (s : State) (k : Nat) (f : Wave → Wave) : (s.modWave k f).issueHalt = s.issueHalt := rfl
@[simp] theorem modWave_caps (s : State) (k : Nat) (f : Wave → Wave) : (s.modWave k f).caps = s.caps := rfl
@[simp] theorem modWave_capRegs (s : State) (k : Nat) (f : Wave → Wave) : (s.modWave k f).capRegs = s.capRegs := rfl
@[simp] theorem modWave_spdmIn (s : State) (k : Nat) (f : Wave → Wave) : (s.modWave k f).spdmIn = s.spdmIn := rfl
@[simp] theorem modWave_spdmBefore (s : State) (k : Nat) (f : Wave → Wave) : (s.modWave k f).spdmBefore = s.spdmBefore := rfl
@[simp] theorem modWave_spdmOut (s : State) (k : Nat) (f : Wave → Wave) : (s.modWave k f).spdmOut = s.spdmOut := rfl
@[simp] theorem modWave_llcFences (s : State) (k : Nat) (f : Wave → Wave) : (s.modWave k f).llcFences = s.llcFences := rfl

@[simp] theorem modGroup_agenda (s : State) (k : Nat) (f : Group → Group) : (s.modGroup k f).agenda = s.agenda := rfl
@[simp] theorem modGroup_cur (s : State) (k : Nat) (f : Group → Group) : (s.modGroup k f).cur = s.cur := rfl
@[simp] theorem modGroup_draws (s : State) (k : Nat) (f : Group → Group) : (s.modGroup k f).draws = s.draws := rfl
@[simp] theorem modGroup_mem (s : State) (k : Nat) (f : Group → Group) : (s.modGroup k f).mem = s.mem := rfl
@[simp] theorem modGroup_poison (s : State) (k : Nat) (f : Group → Group) : (s.modGroup k f).poison = s.poison := rfl
@[simp] theorem modGroup_quads (s : State) (k : Nat) (f : Group → Group) : (s.modGroup k f).quads = s.quads := rfl
@[simp] theorem modGroup_changes (s : State) (k : Nat) (f : Group → Group) : (s.modGroup k f).changes = s.changes := rfl
@[simp] theorem modGroup_llc (s : State) (k : Nat) (f : Group → Group) : (s.modGroup k f).llc = s.llc := rfl
@[simp] theorem modGroup_cores (s : State) (k : Nat) (f : Group → Group) : (s.modGroup k f).cores = s.cores := rfl
@[simp] theorem modGroup_waves (s : State) (k : Nat) (f : Group → Group) : (s.modGroup k f).waves = s.waves := rfl
@[simp] theorem modGroup_groups (s : State) (k : Nat) (f : Group → Group) : (s.modGroup k f).groups = s.groups.modify k f := rfl
@[simp] theorem modGroup_ctxs (s : State) (k : Nat) (f : Group → Group) : (s.modGroup k f).ctxs = s.ctxs := rfl
@[simp] theorem modGroup_copies (s : State) (k : Nat) (f : Group → Group) : (s.modGroup k f).copies = s.copies := rfl
@[simp] theorem modGroup_cmds (s : State) (k : Nat) (f : Group → Group) : (s.modGroup k f).cmds = s.cmds := rfl
@[simp] theorem modGroup_peers (s : State) (k : Nat) (f : Group → Group) : (s.modGroup k f).peers = s.peers := rfl
@[simp] theorem modGroup_launches (s : State) (k : Nat) (f : Group → Group) : (s.modGroup k f).launches = s.launches := rfl
@[simp] theorem modGroup_trees (s : State) (k : Nat) (f : Group → Group) : (s.modGroup k f).trees = s.trees := rfl
@[simp] theorem modGroup_runs (s : State) (k : Nat) (f : Group → Group) : (s.modGroup k f).runs = s.runs := rfl
@[simp] theorem modGroup_rings (s : State) (k : Nat) (f : Group → Group) : (s.modGroup k f).rings = s.rings := rfl
@[simp] theorem modGroup_objs (s : State) (k : Nat) (f : Group → Group) : (s.modGroup k f).objs = s.objs := rfl
@[simp] theorem modGroup_tablePages (s : State) (k : Nat) (f : Group → Group) : (s.modGroup k f).tablePages = s.tablePages := rfl
@[simp] theorem modGroup_begun (s : State) (k : Nat) (f : Group → Group) : (s.modGroup k f).begun = s.begun := rfl
@[simp] theorem modGroup_domains (s : State) (k : Nat) (f : Group → Group) : (s.modGroup k f).domains = s.domains := rfl
@[simp] theorem modGroup_bad (s : State) (k : Nat) (f : Group → Group) : (s.modGroup k f).bad = s.bad := rfl
@[simp] theorem modGroup_form (s : State) (k : Nat) (f : Group → Group) : (s.modGroup k f).form = s.form := rfl
@[simp] theorem modGroup_refusedHost (s : State) (k : Nat) (f : Group → Group) : (s.modGroup k f).refusedHost = s.refusedHost := rfl
@[simp] theorem modGroup_tier (s : State) (k : Nat) (f : Group → Group) : (s.modGroup k f).tier = s.tier := rfl
@[simp] theorem modGroup_wakeQueue (s : State) (k : Nat) (f : Group → Group) : (s.modGroup k f).wakeQueue = s.wakeQueue := rfl
@[simp] theorem modGroup_spanWait (s : State) (k : Nat) (f : Group → Group) : (s.modGroup k f).spanWait = s.spanWait := rfl
@[simp] theorem modGroup_replays (s : State) (k : Nat) (f : Group → Group) : (s.modGroup k f).replays = s.replays := rfl
@[simp] theorem modGroup_linkPorts (s : State) (k : Nat) (f : Group → Group) : (s.modGroup k f).linkPorts = s.linkPorts := rfl
@[simp] theorem modGroup_deadPorts (s : State) (k : Nat) (f : Group → Group) : (s.modGroup k f).deadPorts = s.deadPorts := rfl
@[simp] theorem modGroup_stall (s : State) (k : Nat) (f : Group → Group) : (s.modGroup k f).stall = s.stall := rfl
@[simp] theorem modGroup_issueHalt (s : State) (k : Nat) (f : Group → Group) : (s.modGroup k f).issueHalt = s.issueHalt := rfl
@[simp] theorem modGroup_caps (s : State) (k : Nat) (f : Group → Group) : (s.modGroup k f).caps = s.caps := rfl
@[simp] theorem modGroup_capRegs (s : State) (k : Nat) (f : Group → Group) : (s.modGroup k f).capRegs = s.capRegs := rfl
@[simp] theorem modGroup_spdmIn (s : State) (k : Nat) (f : Group → Group) : (s.modGroup k f).spdmIn = s.spdmIn := rfl
@[simp] theorem modGroup_spdmBefore (s : State) (k : Nat) (f : Group → Group) : (s.modGroup k f).spdmBefore = s.spdmBefore := rfl
@[simp] theorem modGroup_spdmOut (s : State) (k : Nat) (f : Group → Group) : (s.modGroup k f).spdmOut = s.spdmOut := rfl
@[simp] theorem modGroup_llcFences (s : State) (k : Nat) (f : Group → Group) : (s.modGroup k f).llcFences = s.llcFences := rfl

@[simp] theorem modCtx_agenda (s : State) (k : Nat) (f : Ctx → Ctx) : (s.modCtx k f).agenda = s.agenda := rfl
@[simp] theorem modCtx_cur (s : State) (k : Nat) (f : Ctx → Ctx) : (s.modCtx k f).cur = s.cur := rfl
@[simp] theorem modCtx_draws (s : State) (k : Nat) (f : Ctx → Ctx) : (s.modCtx k f).draws = s.draws := rfl
@[simp] theorem modCtx_mem (s : State) (k : Nat) (f : Ctx → Ctx) : (s.modCtx k f).mem = s.mem := rfl
@[simp] theorem modCtx_poison (s : State) (k : Nat) (f : Ctx → Ctx) : (s.modCtx k f).poison = s.poison := rfl
@[simp] theorem modCtx_quads (s : State) (k : Nat) (f : Ctx → Ctx) : (s.modCtx k f).quads = s.quads := rfl
@[simp] theorem modCtx_changes (s : State) (k : Nat) (f : Ctx → Ctx) : (s.modCtx k f).changes = s.changes := rfl
@[simp] theorem modCtx_llc (s : State) (k : Nat) (f : Ctx → Ctx) : (s.modCtx k f).llc = s.llc := rfl
@[simp] theorem modCtx_cores (s : State) (k : Nat) (f : Ctx → Ctx) : (s.modCtx k f).cores = s.cores := rfl
@[simp] theorem modCtx_waves (s : State) (k : Nat) (f : Ctx → Ctx) : (s.modCtx k f).waves = s.waves := rfl
@[simp] theorem modCtx_groups (s : State) (k : Nat) (f : Ctx → Ctx) : (s.modCtx k f).groups = s.groups := rfl
@[simp] theorem modCtx_ctxs (s : State) (k : Nat) (f : Ctx → Ctx) : (s.modCtx k f).ctxs = s.ctxs.modify k f := rfl
@[simp] theorem modCtx_copies (s : State) (k : Nat) (f : Ctx → Ctx) : (s.modCtx k f).copies = s.copies := rfl
@[simp] theorem modCtx_cmds (s : State) (k : Nat) (f : Ctx → Ctx) : (s.modCtx k f).cmds = s.cmds := rfl
@[simp] theorem modCtx_peers (s : State) (k : Nat) (f : Ctx → Ctx) : (s.modCtx k f).peers = s.peers := rfl
@[simp] theorem modCtx_launches (s : State) (k : Nat) (f : Ctx → Ctx) : (s.modCtx k f).launches = s.launches := rfl
@[simp] theorem modCtx_trees (s : State) (k : Nat) (f : Ctx → Ctx) : (s.modCtx k f).trees = s.trees := rfl
@[simp] theorem modCtx_runs (s : State) (k : Nat) (f : Ctx → Ctx) : (s.modCtx k f).runs = s.runs := rfl
@[simp] theorem modCtx_rings (s : State) (k : Nat) (f : Ctx → Ctx) : (s.modCtx k f).rings = s.rings := rfl
@[simp] theorem modCtx_objs (s : State) (k : Nat) (f : Ctx → Ctx) : (s.modCtx k f).objs = s.objs := rfl
@[simp] theorem modCtx_tablePages (s : State) (k : Nat) (f : Ctx → Ctx) : (s.modCtx k f).tablePages = s.tablePages := rfl
@[simp] theorem modCtx_begun (s : State) (k : Nat) (f : Ctx → Ctx) : (s.modCtx k f).begun = s.begun := rfl
@[simp] theorem modCtx_domains (s : State) (k : Nat) (f : Ctx → Ctx) : (s.modCtx k f).domains = s.domains := rfl
@[simp] theorem modCtx_bad (s : State) (k : Nat) (f : Ctx → Ctx) : (s.modCtx k f).bad = s.bad := rfl
@[simp] theorem modCtx_form (s : State) (k : Nat) (f : Ctx → Ctx) : (s.modCtx k f).form = s.form := rfl
@[simp] theorem modCtx_refusedHost (s : State) (k : Nat) (f : Ctx → Ctx) : (s.modCtx k f).refusedHost = s.refusedHost := rfl
@[simp] theorem modCtx_tier (s : State) (k : Nat) (f : Ctx → Ctx) : (s.modCtx k f).tier = s.tier := rfl
@[simp] theorem modCtx_wakeQueue (s : State) (k : Nat) (f : Ctx → Ctx) : (s.modCtx k f).wakeQueue = s.wakeQueue := rfl
@[simp] theorem modCtx_spanWait (s : State) (k : Nat) (f : Ctx → Ctx) : (s.modCtx k f).spanWait = s.spanWait := rfl
@[simp] theorem modCtx_replays (s : State) (k : Nat) (f : Ctx → Ctx) : (s.modCtx k f).replays = s.replays := rfl
@[simp] theorem modCtx_linkPorts (s : State) (k : Nat) (f : Ctx → Ctx) : (s.modCtx k f).linkPorts = s.linkPorts := rfl
@[simp] theorem modCtx_deadPorts (s : State) (k : Nat) (f : Ctx → Ctx) : (s.modCtx k f).deadPorts = s.deadPorts := rfl
@[simp] theorem modCtx_stall (s : State) (k : Nat) (f : Ctx → Ctx) : (s.modCtx k f).stall = s.stall := rfl
@[simp] theorem modCtx_issueHalt (s : State) (k : Nat) (f : Ctx → Ctx) : (s.modCtx k f).issueHalt = s.issueHalt := rfl
@[simp] theorem modCtx_caps (s : State) (k : Nat) (f : Ctx → Ctx) : (s.modCtx k f).caps = s.caps := rfl
@[simp] theorem modCtx_capRegs (s : State) (k : Nat) (f : Ctx → Ctx) : (s.modCtx k f).capRegs = s.capRegs := rfl
@[simp] theorem modCtx_spdmIn (s : State) (k : Nat) (f : Ctx → Ctx) : (s.modCtx k f).spdmIn = s.spdmIn := rfl
@[simp] theorem modCtx_spdmBefore (s : State) (k : Nat) (f : Ctx → Ctx) : (s.modCtx k f).spdmBefore = s.spdmBefore := rfl
@[simp] theorem modCtx_spdmOut (s : State) (k : Nat) (f : Ctx → Ctx) : (s.modCtx k f).spdmOut = s.spdmOut := rfl
@[simp] theorem modCtx_llcFences (s : State) (k : Nat) (f : Ctx → Ctx) : (s.modCtx k f).llcFences = s.llcFences := rfl

@[simp] theorem modCore_agenda (s : State) (k : Nat) (f : Core → Core) : (s.modCore k f).agenda = s.agenda := rfl
@[simp] theorem modCore_cur (s : State) (k : Nat) (f : Core → Core) : (s.modCore k f).cur = s.cur := rfl
@[simp] theorem modCore_draws (s : State) (k : Nat) (f : Core → Core) : (s.modCore k f).draws = s.draws := rfl
@[simp] theorem modCore_mem (s : State) (k : Nat) (f : Core → Core) : (s.modCore k f).mem = s.mem := rfl
@[simp] theorem modCore_poison (s : State) (k : Nat) (f : Core → Core) : (s.modCore k f).poison = s.poison := rfl
@[simp] theorem modCore_quads (s : State) (k : Nat) (f : Core → Core) : (s.modCore k f).quads = s.quads := rfl
@[simp] theorem modCore_changes (s : State) (k : Nat) (f : Core → Core) : (s.modCore k f).changes = s.changes := rfl
@[simp] theorem modCore_llc (s : State) (k : Nat) (f : Core → Core) : (s.modCore k f).llc = s.llc := rfl
@[simp] theorem modCore_cores (s : State) (k : Nat) (f : Core → Core) : (s.modCore k f).cores = s.cores.modify k f := rfl
@[simp] theorem modCore_waves (s : State) (k : Nat) (f : Core → Core) : (s.modCore k f).waves = s.waves := rfl
@[simp] theorem modCore_groups (s : State) (k : Nat) (f : Core → Core) : (s.modCore k f).groups = s.groups := rfl
@[simp] theorem modCore_ctxs (s : State) (k : Nat) (f : Core → Core) : (s.modCore k f).ctxs = s.ctxs := rfl
@[simp] theorem modCore_copies (s : State) (k : Nat) (f : Core → Core) : (s.modCore k f).copies = s.copies := rfl
@[simp] theorem modCore_cmds (s : State) (k : Nat) (f : Core → Core) : (s.modCore k f).cmds = s.cmds := rfl
@[simp] theorem modCore_peers (s : State) (k : Nat) (f : Core → Core) : (s.modCore k f).peers = s.peers := rfl
@[simp] theorem modCore_launches (s : State) (k : Nat) (f : Core → Core) : (s.modCore k f).launches = s.launches := rfl
@[simp] theorem modCore_trees (s : State) (k : Nat) (f : Core → Core) : (s.modCore k f).trees = s.trees := rfl
@[simp] theorem modCore_runs (s : State) (k : Nat) (f : Core → Core) : (s.modCore k f).runs = s.runs := rfl
@[simp] theorem modCore_rings (s : State) (k : Nat) (f : Core → Core) : (s.modCore k f).rings = s.rings := rfl
@[simp] theorem modCore_objs (s : State) (k : Nat) (f : Core → Core) : (s.modCore k f).objs = s.objs := rfl
@[simp] theorem modCore_tablePages (s : State) (k : Nat) (f : Core → Core) : (s.modCore k f).tablePages = s.tablePages := rfl
@[simp] theorem modCore_begun (s : State) (k : Nat) (f : Core → Core) : (s.modCore k f).begun = s.begun := rfl
@[simp] theorem modCore_domains (s : State) (k : Nat) (f : Core → Core) : (s.modCore k f).domains = s.domains := rfl
@[simp] theorem modCore_bad (s : State) (k : Nat) (f : Core → Core) : (s.modCore k f).bad = s.bad := rfl
@[simp] theorem modCore_form (s : State) (k : Nat) (f : Core → Core) : (s.modCore k f).form = s.form := rfl
@[simp] theorem modCore_refusedHost (s : State) (k : Nat) (f : Core → Core) : (s.modCore k f).refusedHost = s.refusedHost := rfl
@[simp] theorem modCore_tier (s : State) (k : Nat) (f : Core → Core) : (s.modCore k f).tier = s.tier := rfl
@[simp] theorem modCore_wakeQueue (s : State) (k : Nat) (f : Core → Core) : (s.modCore k f).wakeQueue = s.wakeQueue := rfl
@[simp] theorem modCore_spanWait (s : State) (k : Nat) (f : Core → Core) : (s.modCore k f).spanWait = s.spanWait := rfl
@[simp] theorem modCore_replays (s : State) (k : Nat) (f : Core → Core) : (s.modCore k f).replays = s.replays := rfl
@[simp] theorem modCore_linkPorts (s : State) (k : Nat) (f : Core → Core) : (s.modCore k f).linkPorts = s.linkPorts := rfl
@[simp] theorem modCore_deadPorts (s : State) (k : Nat) (f : Core → Core) : (s.modCore k f).deadPorts = s.deadPorts := rfl
@[simp] theorem modCore_stall (s : State) (k : Nat) (f : Core → Core) : (s.modCore k f).stall = s.stall := rfl
@[simp] theorem modCore_issueHalt (s : State) (k : Nat) (f : Core → Core) : (s.modCore k f).issueHalt = s.issueHalt := rfl
@[simp] theorem modCore_caps (s : State) (k : Nat) (f : Core → Core) : (s.modCore k f).caps = s.caps := rfl
@[simp] theorem modCore_capRegs (s : State) (k : Nat) (f : Core → Core) : (s.modCore k f).capRegs = s.capRegs := rfl
@[simp] theorem modCore_spdmIn (s : State) (k : Nat) (f : Core → Core) : (s.modCore k f).spdmIn = s.spdmIn := rfl
@[simp] theorem modCore_spdmBefore (s : State) (k : Nat) (f : Core → Core) : (s.modCore k f).spdmBefore = s.spdmBefore := rfl
@[simp] theorem modCore_spdmOut (s : State) (k : Nat) (f : Core → Core) : (s.modCore k f).spdmOut = s.spdmOut := rfl
@[simp] theorem modCore_llcFences (s : State) (k : Nat) (f : Core → Core) : (s.modCore k f).llcFences = s.llcFences := rfl

@[simp] theorem modQuad_agenda (s : State) (k : Nat) (f : Quad → Quad) : (s.modQuad k f).agenda = s.agenda := rfl
@[simp] theorem modQuad_cur (s : State) (k : Nat) (f : Quad → Quad) : (s.modQuad k f).cur = s.cur := rfl
@[simp] theorem modQuad_draws (s : State) (k : Nat) (f : Quad → Quad) : (s.modQuad k f).draws = s.draws := rfl
@[simp] theorem modQuad_mem (s : State) (k : Nat) (f : Quad → Quad) : (s.modQuad k f).mem = s.mem := rfl
@[simp] theorem modQuad_poison (s : State) (k : Nat) (f : Quad → Quad) : (s.modQuad k f).poison = s.poison := rfl
@[simp] theorem modQuad_quads (s : State) (k : Nat) (f : Quad → Quad) : (s.modQuad k f).quads = s.quads.modify k f := rfl
@[simp] theorem modQuad_changes (s : State) (k : Nat) (f : Quad → Quad) : (s.modQuad k f).changes = s.changes := rfl
@[simp] theorem modQuad_llc (s : State) (k : Nat) (f : Quad → Quad) : (s.modQuad k f).llc = s.llc := rfl
@[simp] theorem modQuad_cores (s : State) (k : Nat) (f : Quad → Quad) : (s.modQuad k f).cores = s.cores := rfl
@[simp] theorem modQuad_waves (s : State) (k : Nat) (f : Quad → Quad) : (s.modQuad k f).waves = s.waves := rfl
@[simp] theorem modQuad_groups (s : State) (k : Nat) (f : Quad → Quad) : (s.modQuad k f).groups = s.groups := rfl
@[simp] theorem modQuad_ctxs (s : State) (k : Nat) (f : Quad → Quad) : (s.modQuad k f).ctxs = s.ctxs := rfl
@[simp] theorem modQuad_copies (s : State) (k : Nat) (f : Quad → Quad) : (s.modQuad k f).copies = s.copies := rfl
@[simp] theorem modQuad_cmds (s : State) (k : Nat) (f : Quad → Quad) : (s.modQuad k f).cmds = s.cmds := rfl
@[simp] theorem modQuad_peers (s : State) (k : Nat) (f : Quad → Quad) : (s.modQuad k f).peers = s.peers := rfl
@[simp] theorem modQuad_launches (s : State) (k : Nat) (f : Quad → Quad) : (s.modQuad k f).launches = s.launches := rfl
@[simp] theorem modQuad_trees (s : State) (k : Nat) (f : Quad → Quad) : (s.modQuad k f).trees = s.trees := rfl
@[simp] theorem modQuad_runs (s : State) (k : Nat) (f : Quad → Quad) : (s.modQuad k f).runs = s.runs := rfl
@[simp] theorem modQuad_rings (s : State) (k : Nat) (f : Quad → Quad) : (s.modQuad k f).rings = s.rings := rfl
@[simp] theorem modQuad_objs (s : State) (k : Nat) (f : Quad → Quad) : (s.modQuad k f).objs = s.objs := rfl
@[simp] theorem modQuad_tablePages (s : State) (k : Nat) (f : Quad → Quad) : (s.modQuad k f).tablePages = s.tablePages := rfl
@[simp] theorem modQuad_begun (s : State) (k : Nat) (f : Quad → Quad) : (s.modQuad k f).begun = s.begun := rfl
@[simp] theorem modQuad_domains (s : State) (k : Nat) (f : Quad → Quad) : (s.modQuad k f).domains = s.domains := rfl
@[simp] theorem modQuad_bad (s : State) (k : Nat) (f : Quad → Quad) : (s.modQuad k f).bad = s.bad := rfl
@[simp] theorem modQuad_form (s : State) (k : Nat) (f : Quad → Quad) : (s.modQuad k f).form = s.form := rfl
@[simp] theorem modQuad_refusedHost (s : State) (k : Nat) (f : Quad → Quad) : (s.modQuad k f).refusedHost = s.refusedHost := rfl
@[simp] theorem modQuad_tier (s : State) (k : Nat) (f : Quad → Quad) : (s.modQuad k f).tier = s.tier := rfl
@[simp] theorem modQuad_wakeQueue (s : State) (k : Nat) (f : Quad → Quad) : (s.modQuad k f).wakeQueue = s.wakeQueue := rfl
@[simp] theorem modQuad_spanWait (s : State) (k : Nat) (f : Quad → Quad) : (s.modQuad k f).spanWait = s.spanWait := rfl
@[simp] theorem modQuad_replays (s : State) (k : Nat) (f : Quad → Quad) : (s.modQuad k f).replays = s.replays := rfl
@[simp] theorem modQuad_linkPorts (s : State) (k : Nat) (f : Quad → Quad) : (s.modQuad k f).linkPorts = s.linkPorts := rfl
@[simp] theorem modQuad_deadPorts (s : State) (k : Nat) (f : Quad → Quad) : (s.modQuad k f).deadPorts = s.deadPorts := rfl
@[simp] theorem modQuad_stall (s : State) (k : Nat) (f : Quad → Quad) : (s.modQuad k f).stall = s.stall := rfl
@[simp] theorem modQuad_issueHalt (s : State) (k : Nat) (f : Quad → Quad) : (s.modQuad k f).issueHalt = s.issueHalt := rfl
@[simp] theorem modQuad_caps (s : State) (k : Nat) (f : Quad → Quad) : (s.modQuad k f).caps = s.caps := rfl
@[simp] theorem modQuad_capRegs (s : State) (k : Nat) (f : Quad → Quad) : (s.modQuad k f).capRegs = s.capRegs := rfl
@[simp] theorem modQuad_spdmIn (s : State) (k : Nat) (f : Quad → Quad) : (s.modQuad k f).spdmIn = s.spdmIn := rfl
@[simp] theorem modQuad_spdmBefore (s : State) (k : Nat) (f : Quad → Quad) : (s.modQuad k f).spdmBefore = s.spdmBefore := rfl
@[simp] theorem modQuad_spdmOut (s : State) (k : Nat) (f : Quad → Quad) : (s.modQuad k f).spdmOut = s.spdmOut := rfl
@[simp] theorem modQuad_llcFences (s : State) (k : Nat) (f : Quad → Quad) : (s.modQuad k f).llcFences = s.llcFences := rfl

@[simp] theorem modCopy_agenda (s : State) (k : Nat) (f : CopyReq → CopyReq) : (s.modCopy k f).agenda = s.agenda := rfl
@[simp] theorem modCopy_cur (s : State) (k : Nat) (f : CopyReq → CopyReq) : (s.modCopy k f).cur = s.cur := rfl
@[simp] theorem modCopy_draws (s : State) (k : Nat) (f : CopyReq → CopyReq) : (s.modCopy k f).draws = s.draws := rfl
@[simp] theorem modCopy_mem (s : State) (k : Nat) (f : CopyReq → CopyReq) : (s.modCopy k f).mem = s.mem := rfl
@[simp] theorem modCopy_poison (s : State) (k : Nat) (f : CopyReq → CopyReq) : (s.modCopy k f).poison = s.poison := rfl
@[simp] theorem modCopy_quads (s : State) (k : Nat) (f : CopyReq → CopyReq) : (s.modCopy k f).quads = s.quads := rfl
@[simp] theorem modCopy_changes (s : State) (k : Nat) (f : CopyReq → CopyReq) : (s.modCopy k f).changes = s.changes := rfl
@[simp] theorem modCopy_llc (s : State) (k : Nat) (f : CopyReq → CopyReq) : (s.modCopy k f).llc = s.llc := rfl
@[simp] theorem modCopy_cores (s : State) (k : Nat) (f : CopyReq → CopyReq) : (s.modCopy k f).cores = s.cores := rfl
@[simp] theorem modCopy_waves (s : State) (k : Nat) (f : CopyReq → CopyReq) : (s.modCopy k f).waves = s.waves := rfl
@[simp] theorem modCopy_groups (s : State) (k : Nat) (f : CopyReq → CopyReq) : (s.modCopy k f).groups = s.groups := rfl
@[simp] theorem modCopy_ctxs (s : State) (k : Nat) (f : CopyReq → CopyReq) : (s.modCopy k f).ctxs = s.ctxs := rfl
@[simp] theorem modCopy_copies (s : State) (k : Nat) (f : CopyReq → CopyReq) : (s.modCopy k f).copies = s.copies.modify k f := rfl
@[simp] theorem modCopy_cmds (s : State) (k : Nat) (f : CopyReq → CopyReq) : (s.modCopy k f).cmds = s.cmds := rfl
@[simp] theorem modCopy_peers (s : State) (k : Nat) (f : CopyReq → CopyReq) : (s.modCopy k f).peers = s.peers := rfl
@[simp] theorem modCopy_launches (s : State) (k : Nat) (f : CopyReq → CopyReq) : (s.modCopy k f).launches = s.launches := rfl
@[simp] theorem modCopy_trees (s : State) (k : Nat) (f : CopyReq → CopyReq) : (s.modCopy k f).trees = s.trees := rfl
@[simp] theorem modCopy_runs (s : State) (k : Nat) (f : CopyReq → CopyReq) : (s.modCopy k f).runs = s.runs := rfl
@[simp] theorem modCopy_rings (s : State) (k : Nat) (f : CopyReq → CopyReq) : (s.modCopy k f).rings = s.rings := rfl
@[simp] theorem modCopy_objs (s : State) (k : Nat) (f : CopyReq → CopyReq) : (s.modCopy k f).objs = s.objs := rfl
@[simp] theorem modCopy_tablePages (s : State) (k : Nat) (f : CopyReq → CopyReq) : (s.modCopy k f).tablePages = s.tablePages := rfl
@[simp] theorem modCopy_begun (s : State) (k : Nat) (f : CopyReq → CopyReq) : (s.modCopy k f).begun = s.begun := rfl
@[simp] theorem modCopy_domains (s : State) (k : Nat) (f : CopyReq → CopyReq) : (s.modCopy k f).domains = s.domains := rfl
@[simp] theorem modCopy_bad (s : State) (k : Nat) (f : CopyReq → CopyReq) : (s.modCopy k f).bad = s.bad := rfl
@[simp] theorem modCopy_form (s : State) (k : Nat) (f : CopyReq → CopyReq) : (s.modCopy k f).form = s.form := rfl
@[simp] theorem modCopy_refusedHost (s : State) (k : Nat) (f : CopyReq → CopyReq) : (s.modCopy k f).refusedHost = s.refusedHost := rfl
@[simp] theorem modCopy_tier (s : State) (k : Nat) (f : CopyReq → CopyReq) : (s.modCopy k f).tier = s.tier := rfl
@[simp] theorem modCopy_wakeQueue (s : State) (k : Nat) (f : CopyReq → CopyReq) : (s.modCopy k f).wakeQueue = s.wakeQueue := rfl
@[simp] theorem modCopy_spanWait (s : State) (k : Nat) (f : CopyReq → CopyReq) : (s.modCopy k f).spanWait = s.spanWait := rfl
@[simp] theorem modCopy_replays (s : State) (k : Nat) (f : CopyReq → CopyReq) : (s.modCopy k f).replays = s.replays := rfl
@[simp] theorem modCopy_linkPorts (s : State) (k : Nat) (f : CopyReq → CopyReq) : (s.modCopy k f).linkPorts = s.linkPorts := rfl
@[simp] theorem modCopy_deadPorts (s : State) (k : Nat) (f : CopyReq → CopyReq) : (s.modCopy k f).deadPorts = s.deadPorts := rfl
@[simp] theorem modCopy_stall (s : State) (k : Nat) (f : CopyReq → CopyReq) : (s.modCopy k f).stall = s.stall := rfl
@[simp] theorem modCopy_issueHalt (s : State) (k : Nat) (f : CopyReq → CopyReq) : (s.modCopy k f).issueHalt = s.issueHalt := rfl
@[simp] theorem modCopy_caps (s : State) (k : Nat) (f : CopyReq → CopyReq) : (s.modCopy k f).caps = s.caps := rfl
@[simp] theorem modCopy_capRegs (s : State) (k : Nat) (f : CopyReq → CopyReq) : (s.modCopy k f).capRegs = s.capRegs := rfl
@[simp] theorem modCopy_spdmIn (s : State) (k : Nat) (f : CopyReq → CopyReq) : (s.modCopy k f).spdmIn = s.spdmIn := rfl
@[simp] theorem modCopy_spdmBefore (s : State) (k : Nat) (f : CopyReq → CopyReq) : (s.modCopy k f).spdmBefore = s.spdmBefore := rfl
@[simp] theorem modCopy_spdmOut (s : State) (k : Nat) (f : CopyReq → CopyReq) : (s.modCopy k f).spdmOut = s.spdmOut := rfl
@[simp] theorem modCopy_llcFences (s : State) (k : Nat) (f : CopyReq → CopyReq) : (s.modCopy k f).llcFences = s.llcFences := rfl

@[simp] theorem modCmd_agenda (s : State) (k : Nat) (f : MCmd → MCmd) : (s.modCmd k f).agenda = s.agenda := rfl
@[simp] theorem modCmd_cur (s : State) (k : Nat) (f : MCmd → MCmd) : (s.modCmd k f).cur = s.cur := rfl
@[simp] theorem modCmd_draws (s : State) (k : Nat) (f : MCmd → MCmd) : (s.modCmd k f).draws = s.draws := rfl
@[simp] theorem modCmd_mem (s : State) (k : Nat) (f : MCmd → MCmd) : (s.modCmd k f).mem = s.mem := rfl
@[simp] theorem modCmd_poison (s : State) (k : Nat) (f : MCmd → MCmd) : (s.modCmd k f).poison = s.poison := rfl
@[simp] theorem modCmd_quads (s : State) (k : Nat) (f : MCmd → MCmd) : (s.modCmd k f).quads = s.quads := rfl
@[simp] theorem modCmd_changes (s : State) (k : Nat) (f : MCmd → MCmd) : (s.modCmd k f).changes = s.changes := rfl
@[simp] theorem modCmd_llc (s : State) (k : Nat) (f : MCmd → MCmd) : (s.modCmd k f).llc = s.llc := rfl
@[simp] theorem modCmd_cores (s : State) (k : Nat) (f : MCmd → MCmd) : (s.modCmd k f).cores = s.cores := rfl
@[simp] theorem modCmd_waves (s : State) (k : Nat) (f : MCmd → MCmd) : (s.modCmd k f).waves = s.waves := rfl
@[simp] theorem modCmd_groups (s : State) (k : Nat) (f : MCmd → MCmd) : (s.modCmd k f).groups = s.groups := rfl
@[simp] theorem modCmd_ctxs (s : State) (k : Nat) (f : MCmd → MCmd) : (s.modCmd k f).ctxs = s.ctxs := rfl
@[simp] theorem modCmd_copies (s : State) (k : Nat) (f : MCmd → MCmd) : (s.modCmd k f).copies = s.copies := rfl
@[simp] theorem modCmd_cmds (s : State) (k : Nat) (f : MCmd → MCmd) : (s.modCmd k f).cmds = s.cmds.modify k f := rfl
@[simp] theorem modCmd_peers (s : State) (k : Nat) (f : MCmd → MCmd) : (s.modCmd k f).peers = s.peers := rfl
@[simp] theorem modCmd_launches (s : State) (k : Nat) (f : MCmd → MCmd) : (s.modCmd k f).launches = s.launches := rfl
@[simp] theorem modCmd_trees (s : State) (k : Nat) (f : MCmd → MCmd) : (s.modCmd k f).trees = s.trees := rfl
@[simp] theorem modCmd_runs (s : State) (k : Nat) (f : MCmd → MCmd) : (s.modCmd k f).runs = s.runs := rfl
@[simp] theorem modCmd_rings (s : State) (k : Nat) (f : MCmd → MCmd) : (s.modCmd k f).rings = s.rings := rfl
@[simp] theorem modCmd_objs (s : State) (k : Nat) (f : MCmd → MCmd) : (s.modCmd k f).objs = s.objs := rfl
@[simp] theorem modCmd_tablePages (s : State) (k : Nat) (f : MCmd → MCmd) : (s.modCmd k f).tablePages = s.tablePages := rfl
@[simp] theorem modCmd_begun (s : State) (k : Nat) (f : MCmd → MCmd) : (s.modCmd k f).begun = s.begun := rfl
@[simp] theorem modCmd_domains (s : State) (k : Nat) (f : MCmd → MCmd) : (s.modCmd k f).domains = s.domains := rfl
@[simp] theorem modCmd_bad (s : State) (k : Nat) (f : MCmd → MCmd) : (s.modCmd k f).bad = s.bad := rfl
@[simp] theorem modCmd_form (s : State) (k : Nat) (f : MCmd → MCmd) : (s.modCmd k f).form = s.form := rfl
@[simp] theorem modCmd_refusedHost (s : State) (k : Nat) (f : MCmd → MCmd) : (s.modCmd k f).refusedHost = s.refusedHost := rfl
@[simp] theorem modCmd_tier (s : State) (k : Nat) (f : MCmd → MCmd) : (s.modCmd k f).tier = s.tier := rfl
@[simp] theorem modCmd_wakeQueue (s : State) (k : Nat) (f : MCmd → MCmd) : (s.modCmd k f).wakeQueue = s.wakeQueue := rfl
@[simp] theorem modCmd_spanWait (s : State) (k : Nat) (f : MCmd → MCmd) : (s.modCmd k f).spanWait = s.spanWait := rfl
@[simp] theorem modCmd_replays (s : State) (k : Nat) (f : MCmd → MCmd) : (s.modCmd k f).replays = s.replays := rfl
@[simp] theorem modCmd_linkPorts (s : State) (k : Nat) (f : MCmd → MCmd) : (s.modCmd k f).linkPorts = s.linkPorts := rfl
@[simp] theorem modCmd_deadPorts (s : State) (k : Nat) (f : MCmd → MCmd) : (s.modCmd k f).deadPorts = s.deadPorts := rfl
@[simp] theorem modCmd_stall (s : State) (k : Nat) (f : MCmd → MCmd) : (s.modCmd k f).stall = s.stall := rfl
@[simp] theorem modCmd_issueHalt (s : State) (k : Nat) (f : MCmd → MCmd) : (s.modCmd k f).issueHalt = s.issueHalt := rfl
@[simp] theorem modCmd_caps (s : State) (k : Nat) (f : MCmd → MCmd) : (s.modCmd k f).caps = s.caps := rfl
@[simp] theorem modCmd_capRegs (s : State) (k : Nat) (f : MCmd → MCmd) : (s.modCmd k f).capRegs = s.capRegs := rfl
@[simp] theorem modCmd_spdmIn (s : State) (k : Nat) (f : MCmd → MCmd) : (s.modCmd k f).spdmIn = s.spdmIn := rfl
@[simp] theorem modCmd_spdmBefore (s : State) (k : Nat) (f : MCmd → MCmd) : (s.modCmd k f).spdmBefore = s.spdmBefore := rfl
@[simp] theorem modCmd_spdmOut (s : State) (k : Nat) (f : MCmd → MCmd) : (s.modCmd k f).spdmOut = s.spdmOut := rfl
@[simp] theorem modCmd_llcFences (s : State) (k : Nat) (f : MCmd → MCmd) : (s.modCmd k f).llcFences = s.llcFences := rfl

@[simp] theorem modLaunch_agenda (s : State) (k : Nat) (f : Launch → Launch) : (s.modLaunch k f).agenda = s.agenda := rfl
@[simp] theorem modLaunch_cur (s : State) (k : Nat) (f : Launch → Launch) : (s.modLaunch k f).cur = s.cur := rfl
@[simp] theorem modLaunch_draws (s : State) (k : Nat) (f : Launch → Launch) : (s.modLaunch k f).draws = s.draws := rfl
@[simp] theorem modLaunch_mem (s : State) (k : Nat) (f : Launch → Launch) : (s.modLaunch k f).mem = s.mem := rfl
@[simp] theorem modLaunch_poison (s : State) (k : Nat) (f : Launch → Launch) : (s.modLaunch k f).poison = s.poison := rfl
@[simp] theorem modLaunch_quads (s : State) (k : Nat) (f : Launch → Launch) : (s.modLaunch k f).quads = s.quads := rfl
@[simp] theorem modLaunch_changes (s : State) (k : Nat) (f : Launch → Launch) : (s.modLaunch k f).changes = s.changes := rfl
@[simp] theorem modLaunch_llc (s : State) (k : Nat) (f : Launch → Launch) : (s.modLaunch k f).llc = s.llc := rfl
@[simp] theorem modLaunch_cores (s : State) (k : Nat) (f : Launch → Launch) : (s.modLaunch k f).cores = s.cores := rfl
@[simp] theorem modLaunch_waves (s : State) (k : Nat) (f : Launch → Launch) : (s.modLaunch k f).waves = s.waves := rfl
@[simp] theorem modLaunch_groups (s : State) (k : Nat) (f : Launch → Launch) : (s.modLaunch k f).groups = s.groups := rfl
@[simp] theorem modLaunch_ctxs (s : State) (k : Nat) (f : Launch → Launch) : (s.modLaunch k f).ctxs = s.ctxs := rfl
@[simp] theorem modLaunch_copies (s : State) (k : Nat) (f : Launch → Launch) : (s.modLaunch k f).copies = s.copies := rfl
@[simp] theorem modLaunch_cmds (s : State) (k : Nat) (f : Launch → Launch) : (s.modLaunch k f).cmds = s.cmds := rfl
@[simp] theorem modLaunch_peers (s : State) (k : Nat) (f : Launch → Launch) : (s.modLaunch k f).peers = s.peers := rfl
@[simp] theorem modLaunch_launches (s : State) (k : Nat) (f : Launch → Launch) : (s.modLaunch k f).launches = s.launches.modify k f := rfl
@[simp] theorem modLaunch_trees (s : State) (k : Nat) (f : Launch → Launch) : (s.modLaunch k f).trees = s.trees := rfl
@[simp] theorem modLaunch_runs (s : State) (k : Nat) (f : Launch → Launch) : (s.modLaunch k f).runs = s.runs := rfl
@[simp] theorem modLaunch_rings (s : State) (k : Nat) (f : Launch → Launch) : (s.modLaunch k f).rings = s.rings := rfl
@[simp] theorem modLaunch_objs (s : State) (k : Nat) (f : Launch → Launch) : (s.modLaunch k f).objs = s.objs := rfl
@[simp] theorem modLaunch_tablePages (s : State) (k : Nat) (f : Launch → Launch) : (s.modLaunch k f).tablePages = s.tablePages := rfl
@[simp] theorem modLaunch_begun (s : State) (k : Nat) (f : Launch → Launch) : (s.modLaunch k f).begun = s.begun := rfl
@[simp] theorem modLaunch_domains (s : State) (k : Nat) (f : Launch → Launch) : (s.modLaunch k f).domains = s.domains := rfl
@[simp] theorem modLaunch_bad (s : State) (k : Nat) (f : Launch → Launch) : (s.modLaunch k f).bad = s.bad := rfl
@[simp] theorem modLaunch_form (s : State) (k : Nat) (f : Launch → Launch) : (s.modLaunch k f).form = s.form := rfl
@[simp] theorem modLaunch_refusedHost (s : State) (k : Nat) (f : Launch → Launch) : (s.modLaunch k f).refusedHost = s.refusedHost := rfl
@[simp] theorem modLaunch_tier (s : State) (k : Nat) (f : Launch → Launch) : (s.modLaunch k f).tier = s.tier := rfl
@[simp] theorem modLaunch_wakeQueue (s : State) (k : Nat) (f : Launch → Launch) : (s.modLaunch k f).wakeQueue = s.wakeQueue := rfl
@[simp] theorem modLaunch_spanWait (s : State) (k : Nat) (f : Launch → Launch) : (s.modLaunch k f).spanWait = s.spanWait := rfl
@[simp] theorem modLaunch_replays (s : State) (k : Nat) (f : Launch → Launch) : (s.modLaunch k f).replays = s.replays := rfl
@[simp] theorem modLaunch_linkPorts (s : State) (k : Nat) (f : Launch → Launch) : (s.modLaunch k f).linkPorts = s.linkPorts := rfl
@[simp] theorem modLaunch_deadPorts (s : State) (k : Nat) (f : Launch → Launch) : (s.modLaunch k f).deadPorts = s.deadPorts := rfl
@[simp] theorem modLaunch_stall (s : State) (k : Nat) (f : Launch → Launch) : (s.modLaunch k f).stall = s.stall := rfl
@[simp] theorem modLaunch_issueHalt (s : State) (k : Nat) (f : Launch → Launch) : (s.modLaunch k f).issueHalt = s.issueHalt := rfl
@[simp] theorem modLaunch_caps (s : State) (k : Nat) (f : Launch → Launch) : (s.modLaunch k f).caps = s.caps := rfl
@[simp] theorem modLaunch_capRegs (s : State) (k : Nat) (f : Launch → Launch) : (s.modLaunch k f).capRegs = s.capRegs := rfl
@[simp] theorem modLaunch_spdmIn (s : State) (k : Nat) (f : Launch → Launch) : (s.modLaunch k f).spdmIn = s.spdmIn := rfl
@[simp] theorem modLaunch_spdmBefore (s : State) (k : Nat) (f : Launch → Launch) : (s.modLaunch k f).spdmBefore = s.spdmBefore := rfl
@[simp] theorem modLaunch_spdmOut (s : State) (k : Nat) (f : Launch → Launch) : (s.modLaunch k f).spdmOut = s.spdmOut := rfl
@[simp] theorem modLaunch_llcFences (s : State) (k : Nat) (f : Launch → Launch) : (s.modLaunch k f).llcFences = s.llcFences := rfl

@[simp] theorem modTree_agenda (s : State) (k : Nat) (f : Tree → Tree) : (s.modTree k f).agenda = s.agenda := rfl
@[simp] theorem modTree_cur (s : State) (k : Nat) (f : Tree → Tree) : (s.modTree k f).cur = s.cur := rfl
@[simp] theorem modTree_draws (s : State) (k : Nat) (f : Tree → Tree) : (s.modTree k f).draws = s.draws := rfl
@[simp] theorem modTree_mem (s : State) (k : Nat) (f : Tree → Tree) : (s.modTree k f).mem = s.mem := rfl
@[simp] theorem modTree_poison (s : State) (k : Nat) (f : Tree → Tree) : (s.modTree k f).poison = s.poison := rfl
@[simp] theorem modTree_quads (s : State) (k : Nat) (f : Tree → Tree) : (s.modTree k f).quads = s.quads := rfl
@[simp] theorem modTree_changes (s : State) (k : Nat) (f : Tree → Tree) : (s.modTree k f).changes = s.changes := rfl
@[simp] theorem modTree_llc (s : State) (k : Nat) (f : Tree → Tree) : (s.modTree k f).llc = s.llc := rfl
@[simp] theorem modTree_cores (s : State) (k : Nat) (f : Tree → Tree) : (s.modTree k f).cores = s.cores := rfl
@[simp] theorem modTree_waves (s : State) (k : Nat) (f : Tree → Tree) : (s.modTree k f).waves = s.waves := rfl
@[simp] theorem modTree_groups (s : State) (k : Nat) (f : Tree → Tree) : (s.modTree k f).groups = s.groups := rfl
@[simp] theorem modTree_ctxs (s : State) (k : Nat) (f : Tree → Tree) : (s.modTree k f).ctxs = s.ctxs := rfl
@[simp] theorem modTree_copies (s : State) (k : Nat) (f : Tree → Tree) : (s.modTree k f).copies = s.copies := rfl
@[simp] theorem modTree_cmds (s : State) (k : Nat) (f : Tree → Tree) : (s.modTree k f).cmds = s.cmds := rfl
@[simp] theorem modTree_peers (s : State) (k : Nat) (f : Tree → Tree) : (s.modTree k f).peers = s.peers := rfl
@[simp] theorem modTree_launches (s : State) (k : Nat) (f : Tree → Tree) : (s.modTree k f).launches = s.launches := rfl
@[simp] theorem modTree_trees (s : State) (k : Nat) (f : Tree → Tree) : (s.modTree k f).trees = s.trees.modify k f := rfl
@[simp] theorem modTree_runs (s : State) (k : Nat) (f : Tree → Tree) : (s.modTree k f).runs = s.runs := rfl
@[simp] theorem modTree_rings (s : State) (k : Nat) (f : Tree → Tree) : (s.modTree k f).rings = s.rings := rfl
@[simp] theorem modTree_objs (s : State) (k : Nat) (f : Tree → Tree) : (s.modTree k f).objs = s.objs := rfl
@[simp] theorem modTree_tablePages (s : State) (k : Nat) (f : Tree → Tree) : (s.modTree k f).tablePages = s.tablePages := rfl
@[simp] theorem modTree_begun (s : State) (k : Nat) (f : Tree → Tree) : (s.modTree k f).begun = s.begun := rfl
@[simp] theorem modTree_domains (s : State) (k : Nat) (f : Tree → Tree) : (s.modTree k f).domains = s.domains := rfl
@[simp] theorem modTree_bad (s : State) (k : Nat) (f : Tree → Tree) : (s.modTree k f).bad = s.bad := rfl
@[simp] theorem modTree_form (s : State) (k : Nat) (f : Tree → Tree) : (s.modTree k f).form = s.form := rfl
@[simp] theorem modTree_refusedHost (s : State) (k : Nat) (f : Tree → Tree) : (s.modTree k f).refusedHost = s.refusedHost := rfl
@[simp] theorem modTree_tier (s : State) (k : Nat) (f : Tree → Tree) : (s.modTree k f).tier = s.tier := rfl
@[simp] theorem modTree_wakeQueue (s : State) (k : Nat) (f : Tree → Tree) : (s.modTree k f).wakeQueue = s.wakeQueue := rfl
@[simp] theorem modTree_spanWait (s : State) (k : Nat) (f : Tree → Tree) : (s.modTree k f).spanWait = s.spanWait := rfl
@[simp] theorem modTree_replays (s : State) (k : Nat) (f : Tree → Tree) : (s.modTree k f).replays = s.replays := rfl
@[simp] theorem modTree_linkPorts (s : State) (k : Nat) (f : Tree → Tree) : (s.modTree k f).linkPorts = s.linkPorts := rfl
@[simp] theorem modTree_deadPorts (s : State) (k : Nat) (f : Tree → Tree) : (s.modTree k f).deadPorts = s.deadPorts := rfl
@[simp] theorem modTree_stall (s : State) (k : Nat) (f : Tree → Tree) : (s.modTree k f).stall = s.stall := rfl
@[simp] theorem modTree_issueHalt (s : State) (k : Nat) (f : Tree → Tree) : (s.modTree k f).issueHalt = s.issueHalt := rfl
@[simp] theorem modTree_caps (s : State) (k : Nat) (f : Tree → Tree) : (s.modTree k f).caps = s.caps := rfl
@[simp] theorem modTree_capRegs (s : State) (k : Nat) (f : Tree → Tree) : (s.modTree k f).capRegs = s.capRegs := rfl
@[simp] theorem modTree_spdmIn (s : State) (k : Nat) (f : Tree → Tree) : (s.modTree k f).spdmIn = s.spdmIn := rfl
@[simp] theorem modTree_spdmBefore (s : State) (k : Nat) (f : Tree → Tree) : (s.modTree k f).spdmBefore = s.spdmBefore := rfl
@[simp] theorem modTree_spdmOut (s : State) (k : Nat) (f : Tree → Tree) : (s.modTree k f).spdmOut = s.spdmOut := rfl
@[simp] theorem modTree_llcFences (s : State) (k : Nat) (f : Tree → Tree) : (s.modTree k f).llcFences = s.llcFences := rfl

@[simp] theorem modRing_agenda (s : State) (k : Nat) (f : Ring → Ring) : (s.modRing k f).agenda = s.agenda := rfl
@[simp] theorem modRing_cur (s : State) (k : Nat) (f : Ring → Ring) : (s.modRing k f).cur = s.cur := rfl
@[simp] theorem modRing_draws (s : State) (k : Nat) (f : Ring → Ring) : (s.modRing k f).draws = s.draws := rfl
@[simp] theorem modRing_mem (s : State) (k : Nat) (f : Ring → Ring) : (s.modRing k f).mem = s.mem := rfl
@[simp] theorem modRing_poison (s : State) (k : Nat) (f : Ring → Ring) : (s.modRing k f).poison = s.poison := rfl
@[simp] theorem modRing_quads (s : State) (k : Nat) (f : Ring → Ring) : (s.modRing k f).quads = s.quads := rfl
@[simp] theorem modRing_changes (s : State) (k : Nat) (f : Ring → Ring) : (s.modRing k f).changes = s.changes := rfl
@[simp] theorem modRing_llc (s : State) (k : Nat) (f : Ring → Ring) : (s.modRing k f).llc = s.llc := rfl
@[simp] theorem modRing_cores (s : State) (k : Nat) (f : Ring → Ring) : (s.modRing k f).cores = s.cores := rfl
@[simp] theorem modRing_waves (s : State) (k : Nat) (f : Ring → Ring) : (s.modRing k f).waves = s.waves := rfl
@[simp] theorem modRing_groups (s : State) (k : Nat) (f : Ring → Ring) : (s.modRing k f).groups = s.groups := rfl
@[simp] theorem modRing_ctxs (s : State) (k : Nat) (f : Ring → Ring) : (s.modRing k f).ctxs = s.ctxs := rfl
@[simp] theorem modRing_copies (s : State) (k : Nat) (f : Ring → Ring) : (s.modRing k f).copies = s.copies := rfl
@[simp] theorem modRing_cmds (s : State) (k : Nat) (f : Ring → Ring) : (s.modRing k f).cmds = s.cmds := rfl
@[simp] theorem modRing_peers (s : State) (k : Nat) (f : Ring → Ring) : (s.modRing k f).peers = s.peers := rfl
@[simp] theorem modRing_launches (s : State) (k : Nat) (f : Ring → Ring) : (s.modRing k f).launches = s.launches := rfl
@[simp] theorem modRing_trees (s : State) (k : Nat) (f : Ring → Ring) : (s.modRing k f).trees = s.trees := rfl
@[simp] theorem modRing_runs (s : State) (k : Nat) (f : Ring → Ring) : (s.modRing k f).runs = s.runs := rfl
@[simp] theorem modRing_rings (s : State) (k : Nat) (f : Ring → Ring) : (s.modRing k f).rings = s.rings.modify k f := rfl
@[simp] theorem modRing_objs (s : State) (k : Nat) (f : Ring → Ring) : (s.modRing k f).objs = s.objs := rfl
@[simp] theorem modRing_tablePages (s : State) (k : Nat) (f : Ring → Ring) : (s.modRing k f).tablePages = s.tablePages := rfl
@[simp] theorem modRing_begun (s : State) (k : Nat) (f : Ring → Ring) : (s.modRing k f).begun = s.begun := rfl
@[simp] theorem modRing_domains (s : State) (k : Nat) (f : Ring → Ring) : (s.modRing k f).domains = s.domains := rfl
@[simp] theorem modRing_bad (s : State) (k : Nat) (f : Ring → Ring) : (s.modRing k f).bad = s.bad := rfl
@[simp] theorem modRing_form (s : State) (k : Nat) (f : Ring → Ring) : (s.modRing k f).form = s.form := rfl
@[simp] theorem modRing_refusedHost (s : State) (k : Nat) (f : Ring → Ring) : (s.modRing k f).refusedHost = s.refusedHost := rfl
@[simp] theorem modRing_tier (s : State) (k : Nat) (f : Ring → Ring) : (s.modRing k f).tier = s.tier := rfl
@[simp] theorem modRing_wakeQueue (s : State) (k : Nat) (f : Ring → Ring) : (s.modRing k f).wakeQueue = s.wakeQueue := rfl
@[simp] theorem modRing_spanWait (s : State) (k : Nat) (f : Ring → Ring) : (s.modRing k f).spanWait = s.spanWait := rfl
@[simp] theorem modRing_replays (s : State) (k : Nat) (f : Ring → Ring) : (s.modRing k f).replays = s.replays := rfl
@[simp] theorem modRing_linkPorts (s : State) (k : Nat) (f : Ring → Ring) : (s.modRing k f).linkPorts = s.linkPorts := rfl
@[simp] theorem modRing_deadPorts (s : State) (k : Nat) (f : Ring → Ring) : (s.modRing k f).deadPorts = s.deadPorts := rfl
@[simp] theorem modRing_stall (s : State) (k : Nat) (f : Ring → Ring) : (s.modRing k f).stall = s.stall := rfl
@[simp] theorem modRing_issueHalt (s : State) (k : Nat) (f : Ring → Ring) : (s.modRing k f).issueHalt = s.issueHalt := rfl
@[simp] theorem modRing_caps (s : State) (k : Nat) (f : Ring → Ring) : (s.modRing k f).caps = s.caps := rfl
@[simp] theorem modRing_capRegs (s : State) (k : Nat) (f : Ring → Ring) : (s.modRing k f).capRegs = s.capRegs := rfl
@[simp] theorem modRing_spdmIn (s : State) (k : Nat) (f : Ring → Ring) : (s.modRing k f).spdmIn = s.spdmIn := rfl
@[simp] theorem modRing_spdmBefore (s : State) (k : Nat) (f : Ring → Ring) : (s.modRing k f).spdmBefore = s.spdmBefore := rfl
@[simp] theorem modRing_spdmOut (s : State) (k : Nat) (f : Ring → Ring) : (s.modRing k f).spdmOut = s.spdmOut := rfl
@[simp] theorem modRing_llcFences (s : State) (k : Nat) (f : Ring → Ring) : (s.modRing k f).llcFences = s.llcFences := rfl

@[simp] theorem modRun_agenda (s : State) (k : Nat) (f : GraphRun → GraphRun) : (s.modRun k f).agenda = s.agenda := rfl
@[simp] theorem modRun_cur (s : State) (k : Nat) (f : GraphRun → GraphRun) : (s.modRun k f).cur = s.cur := rfl
@[simp] theorem modRun_draws (s : State) (k : Nat) (f : GraphRun → GraphRun) : (s.modRun k f).draws = s.draws := rfl
@[simp] theorem modRun_mem (s : State) (k : Nat) (f : GraphRun → GraphRun) : (s.modRun k f).mem = s.mem := rfl
@[simp] theorem modRun_poison (s : State) (k : Nat) (f : GraphRun → GraphRun) : (s.modRun k f).poison = s.poison := rfl
@[simp] theorem modRun_quads (s : State) (k : Nat) (f : GraphRun → GraphRun) : (s.modRun k f).quads = s.quads := rfl
@[simp] theorem modRun_changes (s : State) (k : Nat) (f : GraphRun → GraphRun) : (s.modRun k f).changes = s.changes := rfl
@[simp] theorem modRun_llc (s : State) (k : Nat) (f : GraphRun → GraphRun) : (s.modRun k f).llc = s.llc := rfl
@[simp] theorem modRun_cores (s : State) (k : Nat) (f : GraphRun → GraphRun) : (s.modRun k f).cores = s.cores := rfl
@[simp] theorem modRun_waves (s : State) (k : Nat) (f : GraphRun → GraphRun) : (s.modRun k f).waves = s.waves := rfl
@[simp] theorem modRun_groups (s : State) (k : Nat) (f : GraphRun → GraphRun) : (s.modRun k f).groups = s.groups := rfl
@[simp] theorem modRun_ctxs (s : State) (k : Nat) (f : GraphRun → GraphRun) : (s.modRun k f).ctxs = s.ctxs := rfl
@[simp] theorem modRun_copies (s : State) (k : Nat) (f : GraphRun → GraphRun) : (s.modRun k f).copies = s.copies := rfl
@[simp] theorem modRun_cmds (s : State) (k : Nat) (f : GraphRun → GraphRun) : (s.modRun k f).cmds = s.cmds := rfl
@[simp] theorem modRun_peers (s : State) (k : Nat) (f : GraphRun → GraphRun) : (s.modRun k f).peers = s.peers := rfl
@[simp] theorem modRun_launches (s : State) (k : Nat) (f : GraphRun → GraphRun) : (s.modRun k f).launches = s.launches := rfl
@[simp] theorem modRun_trees (s : State) (k : Nat) (f : GraphRun → GraphRun) : (s.modRun k f).trees = s.trees := rfl
@[simp] theorem modRun_runs (s : State) (k : Nat) (f : GraphRun → GraphRun) : (s.modRun k f).runs = s.runs.modify k f := rfl
@[simp] theorem modRun_rings (s : State) (k : Nat) (f : GraphRun → GraphRun) : (s.modRun k f).rings = s.rings := rfl
@[simp] theorem modRun_objs (s : State) (k : Nat) (f : GraphRun → GraphRun) : (s.modRun k f).objs = s.objs := rfl
@[simp] theorem modRun_tablePages (s : State) (k : Nat) (f : GraphRun → GraphRun) : (s.modRun k f).tablePages = s.tablePages := rfl
@[simp] theorem modRun_begun (s : State) (k : Nat) (f : GraphRun → GraphRun) : (s.modRun k f).begun = s.begun := rfl
@[simp] theorem modRun_domains (s : State) (k : Nat) (f : GraphRun → GraphRun) : (s.modRun k f).domains = s.domains := rfl
@[simp] theorem modRun_bad (s : State) (k : Nat) (f : GraphRun → GraphRun) : (s.modRun k f).bad = s.bad := rfl
@[simp] theorem modRun_form (s : State) (k : Nat) (f : GraphRun → GraphRun) : (s.modRun k f).form = s.form := rfl
@[simp] theorem modRun_refusedHost (s : State) (k : Nat) (f : GraphRun → GraphRun) : (s.modRun k f).refusedHost = s.refusedHost := rfl
@[simp] theorem modRun_tier (s : State) (k : Nat) (f : GraphRun → GraphRun) : (s.modRun k f).tier = s.tier := rfl
@[simp] theorem modRun_wakeQueue (s : State) (k : Nat) (f : GraphRun → GraphRun) : (s.modRun k f).wakeQueue = s.wakeQueue := rfl
@[simp] theorem modRun_spanWait (s : State) (k : Nat) (f : GraphRun → GraphRun) : (s.modRun k f).spanWait = s.spanWait := rfl
@[simp] theorem modRun_replays (s : State) (k : Nat) (f : GraphRun → GraphRun) : (s.modRun k f).replays = s.replays := rfl
@[simp] theorem modRun_linkPorts (s : State) (k : Nat) (f : GraphRun → GraphRun) : (s.modRun k f).linkPorts = s.linkPorts := rfl
@[simp] theorem modRun_deadPorts (s : State) (k : Nat) (f : GraphRun → GraphRun) : (s.modRun k f).deadPorts = s.deadPorts := rfl
@[simp] theorem modRun_stall (s : State) (k : Nat) (f : GraphRun → GraphRun) : (s.modRun k f).stall = s.stall := rfl
@[simp] theorem modRun_issueHalt (s : State) (k : Nat) (f : GraphRun → GraphRun) : (s.modRun k f).issueHalt = s.issueHalt := rfl
@[simp] theorem modRun_caps (s : State) (k : Nat) (f : GraphRun → GraphRun) : (s.modRun k f).caps = s.caps := rfl
@[simp] theorem modRun_capRegs (s : State) (k : Nat) (f : GraphRun → GraphRun) : (s.modRun k f).capRegs = s.capRegs := rfl
@[simp] theorem modRun_spdmIn (s : State) (k : Nat) (f : GraphRun → GraphRun) : (s.modRun k f).spdmIn = s.spdmIn := rfl
@[simp] theorem modRun_spdmBefore (s : State) (k : Nat) (f : GraphRun → GraphRun) : (s.modRun k f).spdmBefore = s.spdmBefore := rfl
@[simp] theorem modRun_spdmOut (s : State) (k : Nat) (f : GraphRun → GraphRun) : (s.modRun k f).spdmOut = s.spdmOut := rfl
@[simp] theorem modRun_llcFences (s : State) (k : Nat) (f : GraphRun → GraphRun) : (s.modRun k f).llcFences = s.llcFences := rfl

@[simp] theorem modObj_agenda (s : State) (k : Nat) (f : Obj → Obj) : (s.modObj k f).agenda = s.agenda := rfl
@[simp] theorem modObj_cur (s : State) (k : Nat) (f : Obj → Obj) : (s.modObj k f).cur = s.cur := rfl
@[simp] theorem modObj_draws (s : State) (k : Nat) (f : Obj → Obj) : (s.modObj k f).draws = s.draws := rfl
@[simp] theorem modObj_mem (s : State) (k : Nat) (f : Obj → Obj) : (s.modObj k f).mem = s.mem := rfl
@[simp] theorem modObj_poison (s : State) (k : Nat) (f : Obj → Obj) : (s.modObj k f).poison = s.poison := rfl
@[simp] theorem modObj_quads (s : State) (k : Nat) (f : Obj → Obj) : (s.modObj k f).quads = s.quads := rfl
@[simp] theorem modObj_changes (s : State) (k : Nat) (f : Obj → Obj) : (s.modObj k f).changes = s.changes := rfl
@[simp] theorem modObj_llc (s : State) (k : Nat) (f : Obj → Obj) : (s.modObj k f).llc = s.llc := rfl
@[simp] theorem modObj_cores (s : State) (k : Nat) (f : Obj → Obj) : (s.modObj k f).cores = s.cores := rfl
@[simp] theorem modObj_waves (s : State) (k : Nat) (f : Obj → Obj) : (s.modObj k f).waves = s.waves := rfl
@[simp] theorem modObj_groups (s : State) (k : Nat) (f : Obj → Obj) : (s.modObj k f).groups = s.groups := rfl
@[simp] theorem modObj_ctxs (s : State) (k : Nat) (f : Obj → Obj) : (s.modObj k f).ctxs = s.ctxs := rfl
@[simp] theorem modObj_copies (s : State) (k : Nat) (f : Obj → Obj) : (s.modObj k f).copies = s.copies := rfl
@[simp] theorem modObj_cmds (s : State) (k : Nat) (f : Obj → Obj) : (s.modObj k f).cmds = s.cmds := rfl
@[simp] theorem modObj_peers (s : State) (k : Nat) (f : Obj → Obj) : (s.modObj k f).peers = s.peers := rfl
@[simp] theorem modObj_launches (s : State) (k : Nat) (f : Obj → Obj) : (s.modObj k f).launches = s.launches := rfl
@[simp] theorem modObj_trees (s : State) (k : Nat) (f : Obj → Obj) : (s.modObj k f).trees = s.trees := rfl
@[simp] theorem modObj_runs (s : State) (k : Nat) (f : Obj → Obj) : (s.modObj k f).runs = s.runs := rfl
@[simp] theorem modObj_rings (s : State) (k : Nat) (f : Obj → Obj) : (s.modObj k f).rings = s.rings := rfl
@[simp] theorem modObj_objs (s : State) (k : Nat) (f : Obj → Obj) : (s.modObj k f).objs = s.objs.modify k f := rfl
@[simp] theorem modObj_tablePages (s : State) (k : Nat) (f : Obj → Obj) : (s.modObj k f).tablePages = s.tablePages := rfl
@[simp] theorem modObj_begun (s : State) (k : Nat) (f : Obj → Obj) : (s.modObj k f).begun = s.begun := rfl
@[simp] theorem modObj_domains (s : State) (k : Nat) (f : Obj → Obj) : (s.modObj k f).domains = s.domains := rfl
@[simp] theorem modObj_bad (s : State) (k : Nat) (f : Obj → Obj) : (s.modObj k f).bad = s.bad := rfl
@[simp] theorem modObj_form (s : State) (k : Nat) (f : Obj → Obj) : (s.modObj k f).form = s.form := rfl
@[simp] theorem modObj_refusedHost (s : State) (k : Nat) (f : Obj → Obj) : (s.modObj k f).refusedHost = s.refusedHost := rfl
@[simp] theorem modObj_tier (s : State) (k : Nat) (f : Obj → Obj) : (s.modObj k f).tier = s.tier := rfl
@[simp] theorem modObj_wakeQueue (s : State) (k : Nat) (f : Obj → Obj) : (s.modObj k f).wakeQueue = s.wakeQueue := rfl
@[simp] theorem modObj_spanWait (s : State) (k : Nat) (f : Obj → Obj) : (s.modObj k f).spanWait = s.spanWait := rfl
@[simp] theorem modObj_replays (s : State) (k : Nat) (f : Obj → Obj) : (s.modObj k f).replays = s.replays := rfl
@[simp] theorem modObj_linkPorts (s : State) (k : Nat) (f : Obj → Obj) : (s.modObj k f).linkPorts = s.linkPorts := rfl
@[simp] theorem modObj_deadPorts (s : State) (k : Nat) (f : Obj → Obj) : (s.modObj k f).deadPorts = s.deadPorts := rfl
@[simp] theorem modObj_stall (s : State) (k : Nat) (f : Obj → Obj) : (s.modObj k f).stall = s.stall := rfl
@[simp] theorem modObj_issueHalt (s : State) (k : Nat) (f : Obj → Obj) : (s.modObj k f).issueHalt = s.issueHalt := rfl
@[simp] theorem modObj_caps (s : State) (k : Nat) (f : Obj → Obj) : (s.modObj k f).caps = s.caps := rfl
@[simp] theorem modObj_capRegs (s : State) (k : Nat) (f : Obj → Obj) : (s.modObj k f).capRegs = s.capRegs := rfl
@[simp] theorem modObj_spdmIn (s : State) (k : Nat) (f : Obj → Obj) : (s.modObj k f).spdmIn = s.spdmIn := rfl
@[simp] theorem modObj_spdmBefore (s : State) (k : Nat) (f : Obj → Obj) : (s.modObj k f).spdmBefore = s.spdmBefore := rfl
@[simp] theorem modObj_spdmOut (s : State) (k : Nat) (f : Obj → Obj) : (s.modObj k f).spdmOut = s.spdmOut := rfl
@[simp] theorem modObj_llcFences (s : State) (k : Nat) (f : Obj → Obj) : (s.modObj k f).llcFences = s.llcFences := rfl

@[simp] theorem modBegun_agenda (s : State) (k : Nat) (f : Begun → Begun) : (s.modBegun k f).agenda = s.agenda := rfl
@[simp] theorem modBegun_cur (s : State) (k : Nat) (f : Begun → Begun) : (s.modBegun k f).cur = s.cur := rfl
@[simp] theorem modBegun_draws (s : State) (k : Nat) (f : Begun → Begun) : (s.modBegun k f).draws = s.draws := rfl
@[simp] theorem modBegun_mem (s : State) (k : Nat) (f : Begun → Begun) : (s.modBegun k f).mem = s.mem := rfl
@[simp] theorem modBegun_poison (s : State) (k : Nat) (f : Begun → Begun) : (s.modBegun k f).poison = s.poison := rfl
@[simp] theorem modBegun_quads (s : State) (k : Nat) (f : Begun → Begun) : (s.modBegun k f).quads = s.quads := rfl
@[simp] theorem modBegun_changes (s : State) (k : Nat) (f : Begun → Begun) : (s.modBegun k f).changes = s.changes := rfl
@[simp] theorem modBegun_llc (s : State) (k : Nat) (f : Begun → Begun) : (s.modBegun k f).llc = s.llc := rfl
@[simp] theorem modBegun_cores (s : State) (k : Nat) (f : Begun → Begun) : (s.modBegun k f).cores = s.cores := rfl
@[simp] theorem modBegun_waves (s : State) (k : Nat) (f : Begun → Begun) : (s.modBegun k f).waves = s.waves := rfl
@[simp] theorem modBegun_groups (s : State) (k : Nat) (f : Begun → Begun) : (s.modBegun k f).groups = s.groups := rfl
@[simp] theorem modBegun_ctxs (s : State) (k : Nat) (f : Begun → Begun) : (s.modBegun k f).ctxs = s.ctxs := rfl
@[simp] theorem modBegun_copies (s : State) (k : Nat) (f : Begun → Begun) : (s.modBegun k f).copies = s.copies := rfl
@[simp] theorem modBegun_cmds (s : State) (k : Nat) (f : Begun → Begun) : (s.modBegun k f).cmds = s.cmds := rfl
@[simp] theorem modBegun_peers (s : State) (k : Nat) (f : Begun → Begun) : (s.modBegun k f).peers = s.peers := rfl
@[simp] theorem modBegun_launches (s : State) (k : Nat) (f : Begun → Begun) : (s.modBegun k f).launches = s.launches := rfl
@[simp] theorem modBegun_trees (s : State) (k : Nat) (f : Begun → Begun) : (s.modBegun k f).trees = s.trees := rfl
@[simp] theorem modBegun_runs (s : State) (k : Nat) (f : Begun → Begun) : (s.modBegun k f).runs = s.runs := rfl
@[simp] theorem modBegun_rings (s : State) (k : Nat) (f : Begun → Begun) : (s.modBegun k f).rings = s.rings := rfl
@[simp] theorem modBegun_objs (s : State) (k : Nat) (f : Begun → Begun) : (s.modBegun k f).objs = s.objs := rfl
@[simp] theorem modBegun_tablePages (s : State) (k : Nat) (f : Begun → Begun) : (s.modBegun k f).tablePages = s.tablePages := rfl
@[simp] theorem modBegun_begun (s : State) (k : Nat) (f : Begun → Begun) : (s.modBegun k f).begun = s.begun.modify k f := rfl
@[simp] theorem modBegun_domains (s : State) (k : Nat) (f : Begun → Begun) : (s.modBegun k f).domains = s.domains := rfl
@[simp] theorem modBegun_bad (s : State) (k : Nat) (f : Begun → Begun) : (s.modBegun k f).bad = s.bad := rfl
@[simp] theorem modBegun_form (s : State) (k : Nat) (f : Begun → Begun) : (s.modBegun k f).form = s.form := rfl
@[simp] theorem modBegun_refusedHost (s : State) (k : Nat) (f : Begun → Begun) : (s.modBegun k f).refusedHost = s.refusedHost := rfl
@[simp] theorem modBegun_tier (s : State) (k : Nat) (f : Begun → Begun) : (s.modBegun k f).tier = s.tier := rfl
@[simp] theorem modBegun_wakeQueue (s : State) (k : Nat) (f : Begun → Begun) : (s.modBegun k f).wakeQueue = s.wakeQueue := rfl
@[simp] theorem modBegun_spanWait (s : State) (k : Nat) (f : Begun → Begun) : (s.modBegun k f).spanWait = s.spanWait := rfl
@[simp] theorem modBegun_replays (s : State) (k : Nat) (f : Begun → Begun) : (s.modBegun k f).replays = s.replays := rfl
@[simp] theorem modBegun_linkPorts (s : State) (k : Nat) (f : Begun → Begun) : (s.modBegun k f).linkPorts = s.linkPorts := rfl
@[simp] theorem modBegun_deadPorts (s : State) (k : Nat) (f : Begun → Begun) : (s.modBegun k f).deadPorts = s.deadPorts := rfl
@[simp] theorem modBegun_stall (s : State) (k : Nat) (f : Begun → Begun) : (s.modBegun k f).stall = s.stall := rfl
@[simp] theorem modBegun_issueHalt (s : State) (k : Nat) (f : Begun → Begun) : (s.modBegun k f).issueHalt = s.issueHalt := rfl
@[simp] theorem modBegun_caps (s : State) (k : Nat) (f : Begun → Begun) : (s.modBegun k f).caps = s.caps := rfl
@[simp] theorem modBegun_capRegs (s : State) (k : Nat) (f : Begun → Begun) : (s.modBegun k f).capRegs = s.capRegs := rfl
@[simp] theorem modBegun_spdmIn (s : State) (k : Nat) (f : Begun → Begun) : (s.modBegun k f).spdmIn = s.spdmIn := rfl
@[simp] theorem modBegun_spdmBefore (s : State) (k : Nat) (f : Begun → Begun) : (s.modBegun k f).spdmBefore = s.spdmBefore := rfl
@[simp] theorem modBegun_spdmOut (s : State) (k : Nat) (f : Begun → Begun) : (s.modBegun k f).spdmOut = s.spdmOut := rfl
@[simp] theorem modBegun_llcFences (s : State) (k : Nat) (f : Begun → Begun) : (s.modBegun k f).llcFences = s.llcFences := rfl

@[simp] theorem modDomain_agenda (s : State) (k : Nat) (f : Domain → Domain) : (s.modDomain k f).agenda = s.agenda := rfl
@[simp] theorem modDomain_cur (s : State) (k : Nat) (f : Domain → Domain) : (s.modDomain k f).cur = s.cur := rfl
@[simp] theorem modDomain_draws (s : State) (k : Nat) (f : Domain → Domain) : (s.modDomain k f).draws = s.draws := rfl
@[simp] theorem modDomain_mem (s : State) (k : Nat) (f : Domain → Domain) : (s.modDomain k f).mem = s.mem := rfl
@[simp] theorem modDomain_poison (s : State) (k : Nat) (f : Domain → Domain) : (s.modDomain k f).poison = s.poison := rfl
@[simp] theorem modDomain_quads (s : State) (k : Nat) (f : Domain → Domain) : (s.modDomain k f).quads = s.quads := rfl
@[simp] theorem modDomain_changes (s : State) (k : Nat) (f : Domain → Domain) : (s.modDomain k f).changes = s.changes := rfl
@[simp] theorem modDomain_llc (s : State) (k : Nat) (f : Domain → Domain) : (s.modDomain k f).llc = s.llc := rfl
@[simp] theorem modDomain_cores (s : State) (k : Nat) (f : Domain → Domain) : (s.modDomain k f).cores = s.cores := rfl
@[simp] theorem modDomain_waves (s : State) (k : Nat) (f : Domain → Domain) : (s.modDomain k f).waves = s.waves := rfl
@[simp] theorem modDomain_groups (s : State) (k : Nat) (f : Domain → Domain) : (s.modDomain k f).groups = s.groups := rfl
@[simp] theorem modDomain_ctxs (s : State) (k : Nat) (f : Domain → Domain) : (s.modDomain k f).ctxs = s.ctxs := rfl
@[simp] theorem modDomain_copies (s : State) (k : Nat) (f : Domain → Domain) : (s.modDomain k f).copies = s.copies := rfl
@[simp] theorem modDomain_cmds (s : State) (k : Nat) (f : Domain → Domain) : (s.modDomain k f).cmds = s.cmds := rfl
@[simp] theorem modDomain_peers (s : State) (k : Nat) (f : Domain → Domain) : (s.modDomain k f).peers = s.peers := rfl
@[simp] theorem modDomain_launches (s : State) (k : Nat) (f : Domain → Domain) : (s.modDomain k f).launches = s.launches := rfl
@[simp] theorem modDomain_trees (s : State) (k : Nat) (f : Domain → Domain) : (s.modDomain k f).trees = s.trees := rfl
@[simp] theorem modDomain_runs (s : State) (k : Nat) (f : Domain → Domain) : (s.modDomain k f).runs = s.runs := rfl
@[simp] theorem modDomain_rings (s : State) (k : Nat) (f : Domain → Domain) : (s.modDomain k f).rings = s.rings := rfl
@[simp] theorem modDomain_objs (s : State) (k : Nat) (f : Domain → Domain) : (s.modDomain k f).objs = s.objs := rfl
@[simp] theorem modDomain_tablePages (s : State) (k : Nat) (f : Domain → Domain) : (s.modDomain k f).tablePages = s.tablePages := rfl
@[simp] theorem modDomain_begun (s : State) (k : Nat) (f : Domain → Domain) : (s.modDomain k f).begun = s.begun := rfl
@[simp] theorem modDomain_domains (s : State) (k : Nat) (f : Domain → Domain) : (s.modDomain k f).domains = s.domains.modify k f := rfl
@[simp] theorem modDomain_bad (s : State) (k : Nat) (f : Domain → Domain) : (s.modDomain k f).bad = s.bad := rfl
@[simp] theorem modDomain_form (s : State) (k : Nat) (f : Domain → Domain) : (s.modDomain k f).form = s.form := rfl
@[simp] theorem modDomain_refusedHost (s : State) (k : Nat) (f : Domain → Domain) : (s.modDomain k f).refusedHost = s.refusedHost := rfl
@[simp] theorem modDomain_tier (s : State) (k : Nat) (f : Domain → Domain) : (s.modDomain k f).tier = s.tier := rfl
@[simp] theorem modDomain_wakeQueue (s : State) (k : Nat) (f : Domain → Domain) : (s.modDomain k f).wakeQueue = s.wakeQueue := rfl
@[simp] theorem modDomain_spanWait (s : State) (k : Nat) (f : Domain → Domain) : (s.modDomain k f).spanWait = s.spanWait := rfl
@[simp] theorem modDomain_replays (s : State) (k : Nat) (f : Domain → Domain) : (s.modDomain k f).replays = s.replays := rfl
@[simp] theorem modDomain_linkPorts (s : State) (k : Nat) (f : Domain → Domain) : (s.modDomain k f).linkPorts = s.linkPorts := rfl
@[simp] theorem modDomain_deadPorts (s : State) (k : Nat) (f : Domain → Domain) : (s.modDomain k f).deadPorts = s.deadPorts := rfl
@[simp] theorem modDomain_stall (s : State) (k : Nat) (f : Domain → Domain) : (s.modDomain k f).stall = s.stall := rfl
@[simp] theorem modDomain_issueHalt (s : State) (k : Nat) (f : Domain → Domain) : (s.modDomain k f).issueHalt = s.issueHalt := rfl
@[simp] theorem modDomain_caps (s : State) (k : Nat) (f : Domain → Domain) : (s.modDomain k f).caps = s.caps := rfl
@[simp] theorem modDomain_capRegs (s : State) (k : Nat) (f : Domain → Domain) : (s.modDomain k f).capRegs = s.capRegs := rfl
@[simp] theorem modDomain_spdmIn (s : State) (k : Nat) (f : Domain → Domain) : (s.modDomain k f).spdmIn = s.spdmIn := rfl
@[simp] theorem modDomain_spdmBefore (s : State) (k : Nat) (f : Domain → Domain) : (s.modDomain k f).spdmBefore = s.spdmBefore := rfl
@[simp] theorem modDomain_spdmOut (s : State) (k : Nat) (f : Domain → Domain) : (s.modDomain k f).spdmOut = s.spdmOut := rfl
@[simp] theorem modDomain_llcFences (s : State) (k : Nat) (f : Domain → Domain) : (s.modDomain k f).llcFences = s.llcFences := rfl

@[simp] theorem allWaves_agenda (s : State) (f : Wave → Wave) : (s.allWaves f).agenda = s.agenda := rfl
@[simp] theorem allWaves_cur (s : State) (f : Wave → Wave) : (s.allWaves f).cur = s.cur := rfl
@[simp] theorem allWaves_draws (s : State) (f : Wave → Wave) : (s.allWaves f).draws = s.draws := rfl
@[simp] theorem allWaves_mem (s : State) (f : Wave → Wave) : (s.allWaves f).mem = s.mem := rfl
@[simp] theorem allWaves_poison (s : State) (f : Wave → Wave) : (s.allWaves f).poison = s.poison := rfl
@[simp] theorem allWaves_quads (s : State) (f : Wave → Wave) : (s.allWaves f).quads = s.quads := rfl
@[simp] theorem allWaves_changes (s : State) (f : Wave → Wave) : (s.allWaves f).changes = s.changes := rfl
@[simp] theorem allWaves_llc (s : State) (f : Wave → Wave) : (s.allWaves f).llc = s.llc := rfl
@[simp] theorem allWaves_cores (s : State) (f : Wave → Wave) : (s.allWaves f).cores = s.cores := rfl
@[simp] theorem allWaves_waves (s : State) (f : Wave → Wave) : (s.allWaves f).waves = s.waves.map f := rfl
@[simp] theorem allWaves_groups (s : State) (f : Wave → Wave) : (s.allWaves f).groups = s.groups := rfl
@[simp] theorem allWaves_ctxs (s : State) (f : Wave → Wave) : (s.allWaves f).ctxs = s.ctxs := rfl
@[simp] theorem allWaves_copies (s : State) (f : Wave → Wave) : (s.allWaves f).copies = s.copies := rfl
@[simp] theorem allWaves_cmds (s : State) (f : Wave → Wave) : (s.allWaves f).cmds = s.cmds := rfl
@[simp] theorem allWaves_peers (s : State) (f : Wave → Wave) : (s.allWaves f).peers = s.peers := rfl
@[simp] theorem allWaves_launches (s : State) (f : Wave → Wave) : (s.allWaves f).launches = s.launches := rfl
@[simp] theorem allWaves_trees (s : State) (f : Wave → Wave) : (s.allWaves f).trees = s.trees := rfl
@[simp] theorem allWaves_runs (s : State) (f : Wave → Wave) : (s.allWaves f).runs = s.runs := rfl
@[simp] theorem allWaves_rings (s : State) (f : Wave → Wave) : (s.allWaves f).rings = s.rings := rfl
@[simp] theorem allWaves_objs (s : State) (f : Wave → Wave) : (s.allWaves f).objs = s.objs := rfl
@[simp] theorem allWaves_tablePages (s : State) (f : Wave → Wave) : (s.allWaves f).tablePages = s.tablePages := rfl
@[simp] theorem allWaves_begun (s : State) (f : Wave → Wave) : (s.allWaves f).begun = s.begun := rfl
@[simp] theorem allWaves_domains (s : State) (f : Wave → Wave) : (s.allWaves f).domains = s.domains := rfl
@[simp] theorem allWaves_bad (s : State) (f : Wave → Wave) : (s.allWaves f).bad = s.bad := rfl
@[simp] theorem allWaves_form (s : State) (f : Wave → Wave) : (s.allWaves f).form = s.form := rfl
@[simp] theorem allWaves_refusedHost (s : State) (f : Wave → Wave) : (s.allWaves f).refusedHost = s.refusedHost := rfl
@[simp] theorem allWaves_tier (s : State) (f : Wave → Wave) : (s.allWaves f).tier = s.tier := rfl
@[simp] theorem allWaves_wakeQueue (s : State) (f : Wave → Wave) : (s.allWaves f).wakeQueue = s.wakeQueue := rfl
@[simp] theorem allWaves_spanWait (s : State) (f : Wave → Wave) : (s.allWaves f).spanWait = s.spanWait := rfl
@[simp] theorem allWaves_replays (s : State) (f : Wave → Wave) : (s.allWaves f).replays = s.replays := rfl
@[simp] theorem allWaves_linkPorts (s : State) (f : Wave → Wave) : (s.allWaves f).linkPorts = s.linkPorts := rfl
@[simp] theorem allWaves_deadPorts (s : State) (f : Wave → Wave) : (s.allWaves f).deadPorts = s.deadPorts := rfl
@[simp] theorem allWaves_stall (s : State) (f : Wave → Wave) : (s.allWaves f).stall = s.stall := rfl
@[simp] theorem allWaves_issueHalt (s : State) (f : Wave → Wave) : (s.allWaves f).issueHalt = s.issueHalt := rfl
@[simp] theorem allWaves_caps (s : State) (f : Wave → Wave) : (s.allWaves f).caps = s.caps := rfl
@[simp] theorem allWaves_capRegs (s : State) (f : Wave → Wave) : (s.allWaves f).capRegs = s.capRegs := rfl
@[simp] theorem allWaves_spdmIn (s : State) (f : Wave → Wave) : (s.allWaves f).spdmIn = s.spdmIn := rfl
@[simp] theorem allWaves_spdmBefore (s : State) (f : Wave → Wave) : (s.allWaves f).spdmBefore = s.spdmBefore := rfl
@[simp] theorem allWaves_spdmOut (s : State) (f : Wave → Wave) : (s.allWaves f).spdmOut = s.spdmOut := rfl
@[simp] theorem allWaves_llcFences (s : State) (f : Wave → Wave) : (s.allWaves f).llcFences = s.llcFences := rfl

@[simp] theorem allGroups_agenda (s : State) (f : Group → Group) : (s.allGroups f).agenda = s.agenda := rfl
@[simp] theorem allGroups_cur (s : State) (f : Group → Group) : (s.allGroups f).cur = s.cur := rfl
@[simp] theorem allGroups_draws (s : State) (f : Group → Group) : (s.allGroups f).draws = s.draws := rfl
@[simp] theorem allGroups_mem (s : State) (f : Group → Group) : (s.allGroups f).mem = s.mem := rfl
@[simp] theorem allGroups_poison (s : State) (f : Group → Group) : (s.allGroups f).poison = s.poison := rfl
@[simp] theorem allGroups_quads (s : State) (f : Group → Group) : (s.allGroups f).quads = s.quads := rfl
@[simp] theorem allGroups_changes (s : State) (f : Group → Group) : (s.allGroups f).changes = s.changes := rfl
@[simp] theorem allGroups_llc (s : State) (f : Group → Group) : (s.allGroups f).llc = s.llc := rfl
@[simp] theorem allGroups_cores (s : State) (f : Group → Group) : (s.allGroups f).cores = s.cores := rfl
@[simp] theorem allGroups_waves (s : State) (f : Group → Group) : (s.allGroups f).waves = s.waves := rfl
@[simp] theorem allGroups_groups (s : State) (f : Group → Group) : (s.allGroups f).groups = s.groups.map f := rfl
@[simp] theorem allGroups_ctxs (s : State) (f : Group → Group) : (s.allGroups f).ctxs = s.ctxs := rfl
@[simp] theorem allGroups_copies (s : State) (f : Group → Group) : (s.allGroups f).copies = s.copies := rfl
@[simp] theorem allGroups_cmds (s : State) (f : Group → Group) : (s.allGroups f).cmds = s.cmds := rfl
@[simp] theorem allGroups_peers (s : State) (f : Group → Group) : (s.allGroups f).peers = s.peers := rfl
@[simp] theorem allGroups_launches (s : State) (f : Group → Group) : (s.allGroups f).launches = s.launches := rfl
@[simp] theorem allGroups_trees (s : State) (f : Group → Group) : (s.allGroups f).trees = s.trees := rfl
@[simp] theorem allGroups_runs (s : State) (f : Group → Group) : (s.allGroups f).runs = s.runs := rfl
@[simp] theorem allGroups_rings (s : State) (f : Group → Group) : (s.allGroups f).rings = s.rings := rfl
@[simp] theorem allGroups_objs (s : State) (f : Group → Group) : (s.allGroups f).objs = s.objs := rfl
@[simp] theorem allGroups_tablePages (s : State) (f : Group → Group) : (s.allGroups f).tablePages = s.tablePages := rfl
@[simp] theorem allGroups_begun (s : State) (f : Group → Group) : (s.allGroups f).begun = s.begun := rfl
@[simp] theorem allGroups_domains (s : State) (f : Group → Group) : (s.allGroups f).domains = s.domains := rfl
@[simp] theorem allGroups_bad (s : State) (f : Group → Group) : (s.allGroups f).bad = s.bad := rfl
@[simp] theorem allGroups_form (s : State) (f : Group → Group) : (s.allGroups f).form = s.form := rfl
@[simp] theorem allGroups_refusedHost (s : State) (f : Group → Group) : (s.allGroups f).refusedHost = s.refusedHost := rfl
@[simp] theorem allGroups_tier (s : State) (f : Group → Group) : (s.allGroups f).tier = s.tier := rfl
@[simp] theorem allGroups_wakeQueue (s : State) (f : Group → Group) : (s.allGroups f).wakeQueue = s.wakeQueue := rfl
@[simp] theorem allGroups_spanWait (s : State) (f : Group → Group) : (s.allGroups f).spanWait = s.spanWait := rfl
@[simp] theorem allGroups_replays (s : State) (f : Group → Group) : (s.allGroups f).replays = s.replays := rfl
@[simp] theorem allGroups_linkPorts (s : State) (f : Group → Group) : (s.allGroups f).linkPorts = s.linkPorts := rfl
@[simp] theorem allGroups_deadPorts (s : State) (f : Group → Group) : (s.allGroups f).deadPorts = s.deadPorts := rfl
@[simp] theorem allGroups_stall (s : State) (f : Group → Group) : (s.allGroups f).stall = s.stall := rfl
@[simp] theorem allGroups_issueHalt (s : State) (f : Group → Group) : (s.allGroups f).issueHalt = s.issueHalt := rfl
@[simp] theorem allGroups_caps (s : State) (f : Group → Group) : (s.allGroups f).caps = s.caps := rfl
@[simp] theorem allGroups_capRegs (s : State) (f : Group → Group) : (s.allGroups f).capRegs = s.capRegs := rfl
@[simp] theorem allGroups_spdmIn (s : State) (f : Group → Group) : (s.allGroups f).spdmIn = s.spdmIn := rfl
@[simp] theorem allGroups_spdmBefore (s : State) (f : Group → Group) : (s.allGroups f).spdmBefore = s.spdmBefore := rfl
@[simp] theorem allGroups_spdmOut (s : State) (f : Group → Group) : (s.allGroups f).spdmOut = s.spdmOut := rfl
@[simp] theorem allGroups_llcFences (s : State) (f : Group → Group) : (s.allGroups f).llcFences = s.llcFences := rfl

@[simp] theorem allCtxs_agenda (s : State) (f : Ctx → Ctx) : (s.allCtxs f).agenda = s.agenda := rfl
@[simp] theorem allCtxs_cur (s : State) (f : Ctx → Ctx) : (s.allCtxs f).cur = s.cur := rfl
@[simp] theorem allCtxs_draws (s : State) (f : Ctx → Ctx) : (s.allCtxs f).draws = s.draws := rfl
@[simp] theorem allCtxs_mem (s : State) (f : Ctx → Ctx) : (s.allCtxs f).mem = s.mem := rfl
@[simp] theorem allCtxs_poison (s : State) (f : Ctx → Ctx) : (s.allCtxs f).poison = s.poison := rfl
@[simp] theorem allCtxs_quads (s : State) (f : Ctx → Ctx) : (s.allCtxs f).quads = s.quads := rfl
@[simp] theorem allCtxs_changes (s : State) (f : Ctx → Ctx) : (s.allCtxs f).changes = s.changes := rfl
@[simp] theorem allCtxs_llc (s : State) (f : Ctx → Ctx) : (s.allCtxs f).llc = s.llc := rfl
@[simp] theorem allCtxs_cores (s : State) (f : Ctx → Ctx) : (s.allCtxs f).cores = s.cores := rfl
@[simp] theorem allCtxs_waves (s : State) (f : Ctx → Ctx) : (s.allCtxs f).waves = s.waves := rfl
@[simp] theorem allCtxs_groups (s : State) (f : Ctx → Ctx) : (s.allCtxs f).groups = s.groups := rfl
@[simp] theorem allCtxs_ctxs (s : State) (f : Ctx → Ctx) : (s.allCtxs f).ctxs = s.ctxs.map f := rfl
@[simp] theorem allCtxs_copies (s : State) (f : Ctx → Ctx) : (s.allCtxs f).copies = s.copies := rfl
@[simp] theorem allCtxs_cmds (s : State) (f : Ctx → Ctx) : (s.allCtxs f).cmds = s.cmds := rfl
@[simp] theorem allCtxs_peers (s : State) (f : Ctx → Ctx) : (s.allCtxs f).peers = s.peers := rfl
@[simp] theorem allCtxs_launches (s : State) (f : Ctx → Ctx) : (s.allCtxs f).launches = s.launches := rfl
@[simp] theorem allCtxs_trees (s : State) (f : Ctx → Ctx) : (s.allCtxs f).trees = s.trees := rfl
@[simp] theorem allCtxs_runs (s : State) (f : Ctx → Ctx) : (s.allCtxs f).runs = s.runs := rfl
@[simp] theorem allCtxs_rings (s : State) (f : Ctx → Ctx) : (s.allCtxs f).rings = s.rings := rfl
@[simp] theorem allCtxs_objs (s : State) (f : Ctx → Ctx) : (s.allCtxs f).objs = s.objs := rfl
@[simp] theorem allCtxs_tablePages (s : State) (f : Ctx → Ctx) : (s.allCtxs f).tablePages = s.tablePages := rfl
@[simp] theorem allCtxs_begun (s : State) (f : Ctx → Ctx) : (s.allCtxs f).begun = s.begun := rfl
@[simp] theorem allCtxs_domains (s : State) (f : Ctx → Ctx) : (s.allCtxs f).domains = s.domains := rfl
@[simp] theorem allCtxs_bad (s : State) (f : Ctx → Ctx) : (s.allCtxs f).bad = s.bad := rfl
@[simp] theorem allCtxs_form (s : State) (f : Ctx → Ctx) : (s.allCtxs f).form = s.form := rfl
@[simp] theorem allCtxs_refusedHost (s : State) (f : Ctx → Ctx) : (s.allCtxs f).refusedHost = s.refusedHost := rfl
@[simp] theorem allCtxs_tier (s : State) (f : Ctx → Ctx) : (s.allCtxs f).tier = s.tier := rfl
@[simp] theorem allCtxs_wakeQueue (s : State) (f : Ctx → Ctx) : (s.allCtxs f).wakeQueue = s.wakeQueue := rfl
@[simp] theorem allCtxs_spanWait (s : State) (f : Ctx → Ctx) : (s.allCtxs f).spanWait = s.spanWait := rfl
@[simp] theorem allCtxs_replays (s : State) (f : Ctx → Ctx) : (s.allCtxs f).replays = s.replays := rfl
@[simp] theorem allCtxs_linkPorts (s : State) (f : Ctx → Ctx) : (s.allCtxs f).linkPorts = s.linkPorts := rfl
@[simp] theorem allCtxs_deadPorts (s : State) (f : Ctx → Ctx) : (s.allCtxs f).deadPorts = s.deadPorts := rfl
@[simp] theorem allCtxs_stall (s : State) (f : Ctx → Ctx) : (s.allCtxs f).stall = s.stall := rfl
@[simp] theorem allCtxs_issueHalt (s : State) (f : Ctx → Ctx) : (s.allCtxs f).issueHalt = s.issueHalt := rfl
@[simp] theorem allCtxs_caps (s : State) (f : Ctx → Ctx) : (s.allCtxs f).caps = s.caps := rfl
@[simp] theorem allCtxs_capRegs (s : State) (f : Ctx → Ctx) : (s.allCtxs f).capRegs = s.capRegs := rfl
@[simp] theorem allCtxs_spdmIn (s : State) (f : Ctx → Ctx) : (s.allCtxs f).spdmIn = s.spdmIn := rfl
@[simp] theorem allCtxs_spdmBefore (s : State) (f : Ctx → Ctx) : (s.allCtxs f).spdmBefore = s.spdmBefore := rfl
@[simp] theorem allCtxs_spdmOut (s : State) (f : Ctx → Ctx) : (s.allCtxs f).spdmOut = s.spdmOut := rfl
@[simp] theorem allCtxs_llcFences (s : State) (f : Ctx → Ctx) : (s.allCtxs f).llcFences = s.llcFences := rfl

@[simp] theorem allCores_agenda (s : State) (f : Core → Core) : (s.allCores f).agenda = s.agenda := rfl
@[simp] theorem allCores_cur (s : State) (f : Core → Core) : (s.allCores f).cur = s.cur := rfl
@[simp] theorem allCores_draws (s : State) (f : Core → Core) : (s.allCores f).draws = s.draws := rfl
@[simp] theorem allCores_mem (s : State) (f : Core → Core) : (s.allCores f).mem = s.mem := rfl
@[simp] theorem allCores_poison (s : State) (f : Core → Core) : (s.allCores f).poison = s.poison := rfl
@[simp] theorem allCores_quads (s : State) (f : Core → Core) : (s.allCores f).quads = s.quads := rfl
@[simp] theorem allCores_changes (s : State) (f : Core → Core) : (s.allCores f).changes = s.changes := rfl
@[simp] theorem allCores_llc (s : State) (f : Core → Core) : (s.allCores f).llc = s.llc := rfl
@[simp] theorem allCores_cores (s : State) (f : Core → Core) : (s.allCores f).cores = s.cores.map f := rfl
@[simp] theorem allCores_waves (s : State) (f : Core → Core) : (s.allCores f).waves = s.waves := rfl
@[simp] theorem allCores_groups (s : State) (f : Core → Core) : (s.allCores f).groups = s.groups := rfl
@[simp] theorem allCores_ctxs (s : State) (f : Core → Core) : (s.allCores f).ctxs = s.ctxs := rfl
@[simp] theorem allCores_copies (s : State) (f : Core → Core) : (s.allCores f).copies = s.copies := rfl
@[simp] theorem allCores_cmds (s : State) (f : Core → Core) : (s.allCores f).cmds = s.cmds := rfl
@[simp] theorem allCores_peers (s : State) (f : Core → Core) : (s.allCores f).peers = s.peers := rfl
@[simp] theorem allCores_launches (s : State) (f : Core → Core) : (s.allCores f).launches = s.launches := rfl
@[simp] theorem allCores_trees (s : State) (f : Core → Core) : (s.allCores f).trees = s.trees := rfl
@[simp] theorem allCores_runs (s : State) (f : Core → Core) : (s.allCores f).runs = s.runs := rfl
@[simp] theorem allCores_rings (s : State) (f : Core → Core) : (s.allCores f).rings = s.rings := rfl
@[simp] theorem allCores_objs (s : State) (f : Core → Core) : (s.allCores f).objs = s.objs := rfl
@[simp] theorem allCores_tablePages (s : State) (f : Core → Core) : (s.allCores f).tablePages = s.tablePages := rfl
@[simp] theorem allCores_begun (s : State) (f : Core → Core) : (s.allCores f).begun = s.begun := rfl
@[simp] theorem allCores_domains (s : State) (f : Core → Core) : (s.allCores f).domains = s.domains := rfl
@[simp] theorem allCores_bad (s : State) (f : Core → Core) : (s.allCores f).bad = s.bad := rfl
@[simp] theorem allCores_form (s : State) (f : Core → Core) : (s.allCores f).form = s.form := rfl
@[simp] theorem allCores_refusedHost (s : State) (f : Core → Core) : (s.allCores f).refusedHost = s.refusedHost := rfl
@[simp] theorem allCores_tier (s : State) (f : Core → Core) : (s.allCores f).tier = s.tier := rfl
@[simp] theorem allCores_wakeQueue (s : State) (f : Core → Core) : (s.allCores f).wakeQueue = s.wakeQueue := rfl
@[simp] theorem allCores_spanWait (s : State) (f : Core → Core) : (s.allCores f).spanWait = s.spanWait := rfl
@[simp] theorem allCores_replays (s : State) (f : Core → Core) : (s.allCores f).replays = s.replays := rfl
@[simp] theorem allCores_linkPorts (s : State) (f : Core → Core) : (s.allCores f).linkPorts = s.linkPorts := rfl
@[simp] theorem allCores_deadPorts (s : State) (f : Core → Core) : (s.allCores f).deadPorts = s.deadPorts := rfl
@[simp] theorem allCores_stall (s : State) (f : Core → Core) : (s.allCores f).stall = s.stall := rfl
@[simp] theorem allCores_issueHalt (s : State) (f : Core → Core) : (s.allCores f).issueHalt = s.issueHalt := rfl
@[simp] theorem allCores_caps (s : State) (f : Core → Core) : (s.allCores f).caps = s.caps := rfl
@[simp] theorem allCores_capRegs (s : State) (f : Core → Core) : (s.allCores f).capRegs = s.capRegs := rfl
@[simp] theorem allCores_spdmIn (s : State) (f : Core → Core) : (s.allCores f).spdmIn = s.spdmIn := rfl
@[simp] theorem allCores_spdmBefore (s : State) (f : Core → Core) : (s.allCores f).spdmBefore = s.spdmBefore := rfl
@[simp] theorem allCores_spdmOut (s : State) (f : Core → Core) : (s.allCores f).spdmOut = s.spdmOut := rfl
@[simp] theorem allCores_llcFences (s : State) (f : Core → Core) : (s.allCores f).llcFences = s.llcFences := rfl

@[simp] theorem allCopies_agenda (s : State) (f : CopyReq → CopyReq) : (s.allCopies f).agenda = s.agenda := rfl
@[simp] theorem allCopies_cur (s : State) (f : CopyReq → CopyReq) : (s.allCopies f).cur = s.cur := rfl
@[simp] theorem allCopies_draws (s : State) (f : CopyReq → CopyReq) : (s.allCopies f).draws = s.draws := rfl
@[simp] theorem allCopies_mem (s : State) (f : CopyReq → CopyReq) : (s.allCopies f).mem = s.mem := rfl
@[simp] theorem allCopies_poison (s : State) (f : CopyReq → CopyReq) : (s.allCopies f).poison = s.poison := rfl
@[simp] theorem allCopies_quads (s : State) (f : CopyReq → CopyReq) : (s.allCopies f).quads = s.quads := rfl
@[simp] theorem allCopies_changes (s : State) (f : CopyReq → CopyReq) : (s.allCopies f).changes = s.changes := rfl
@[simp] theorem allCopies_llc (s : State) (f : CopyReq → CopyReq) : (s.allCopies f).llc = s.llc := rfl
@[simp] theorem allCopies_cores (s : State) (f : CopyReq → CopyReq) : (s.allCopies f).cores = s.cores := rfl
@[simp] theorem allCopies_waves (s : State) (f : CopyReq → CopyReq) : (s.allCopies f).waves = s.waves := rfl
@[simp] theorem allCopies_groups (s : State) (f : CopyReq → CopyReq) : (s.allCopies f).groups = s.groups := rfl
@[simp] theorem allCopies_ctxs (s : State) (f : CopyReq → CopyReq) : (s.allCopies f).ctxs = s.ctxs := rfl
@[simp] theorem allCopies_copies (s : State) (f : CopyReq → CopyReq) : (s.allCopies f).copies = s.copies.map f := rfl
@[simp] theorem allCopies_cmds (s : State) (f : CopyReq → CopyReq) : (s.allCopies f).cmds = s.cmds := rfl
@[simp] theorem allCopies_peers (s : State) (f : CopyReq → CopyReq) : (s.allCopies f).peers = s.peers := rfl
@[simp] theorem allCopies_launches (s : State) (f : CopyReq → CopyReq) : (s.allCopies f).launches = s.launches := rfl
@[simp] theorem allCopies_trees (s : State) (f : CopyReq → CopyReq) : (s.allCopies f).trees = s.trees := rfl
@[simp] theorem allCopies_runs (s : State) (f : CopyReq → CopyReq) : (s.allCopies f).runs = s.runs := rfl
@[simp] theorem allCopies_rings (s : State) (f : CopyReq → CopyReq) : (s.allCopies f).rings = s.rings := rfl
@[simp] theorem allCopies_objs (s : State) (f : CopyReq → CopyReq) : (s.allCopies f).objs = s.objs := rfl
@[simp] theorem allCopies_tablePages (s : State) (f : CopyReq → CopyReq) : (s.allCopies f).tablePages = s.tablePages := rfl
@[simp] theorem allCopies_begun (s : State) (f : CopyReq → CopyReq) : (s.allCopies f).begun = s.begun := rfl
@[simp] theorem allCopies_domains (s : State) (f : CopyReq → CopyReq) : (s.allCopies f).domains = s.domains := rfl
@[simp] theorem allCopies_bad (s : State) (f : CopyReq → CopyReq) : (s.allCopies f).bad = s.bad := rfl
@[simp] theorem allCopies_form (s : State) (f : CopyReq → CopyReq) : (s.allCopies f).form = s.form := rfl
@[simp] theorem allCopies_refusedHost (s : State) (f : CopyReq → CopyReq) : (s.allCopies f).refusedHost = s.refusedHost := rfl
@[simp] theorem allCopies_tier (s : State) (f : CopyReq → CopyReq) : (s.allCopies f).tier = s.tier := rfl
@[simp] theorem allCopies_wakeQueue (s : State) (f : CopyReq → CopyReq) : (s.allCopies f).wakeQueue = s.wakeQueue := rfl
@[simp] theorem allCopies_spanWait (s : State) (f : CopyReq → CopyReq) : (s.allCopies f).spanWait = s.spanWait := rfl
@[simp] theorem allCopies_replays (s : State) (f : CopyReq → CopyReq) : (s.allCopies f).replays = s.replays := rfl
@[simp] theorem allCopies_linkPorts (s : State) (f : CopyReq → CopyReq) : (s.allCopies f).linkPorts = s.linkPorts := rfl
@[simp] theorem allCopies_deadPorts (s : State) (f : CopyReq → CopyReq) : (s.allCopies f).deadPorts = s.deadPorts := rfl
@[simp] theorem allCopies_stall (s : State) (f : CopyReq → CopyReq) : (s.allCopies f).stall = s.stall := rfl
@[simp] theorem allCopies_issueHalt (s : State) (f : CopyReq → CopyReq) : (s.allCopies f).issueHalt = s.issueHalt := rfl
@[simp] theorem allCopies_caps (s : State) (f : CopyReq → CopyReq) : (s.allCopies f).caps = s.caps := rfl
@[simp] theorem allCopies_capRegs (s : State) (f : CopyReq → CopyReq) : (s.allCopies f).capRegs = s.capRegs := rfl
@[simp] theorem allCopies_spdmIn (s : State) (f : CopyReq → CopyReq) : (s.allCopies f).spdmIn = s.spdmIn := rfl
@[simp] theorem allCopies_spdmBefore (s : State) (f : CopyReq → CopyReq) : (s.allCopies f).spdmBefore = s.spdmBefore := rfl
@[simp] theorem allCopies_spdmOut (s : State) (f : CopyReq → CopyReq) : (s.allCopies f).spdmOut = s.spdmOut := rfl
@[simp] theorem allCopies_llcFences (s : State) (f : CopyReq → CopyReq) : (s.allCopies f).llcFences = s.llcFences := rfl

/-! ### Registers of a wave -/

@[simp] theorem setS_group (w : Wave) (n : Nat) (v : DWord) : (w.setS n v).group = w.group := by unfold Wave.setS; split <;> rfl
@[simp] theorem setS_ctx (w : Wave) (n : Nat) (v : DWord) : (w.setS n v).ctx = w.ctx := by unfold Wave.setS; split <;> rfl
@[simp] theorem setS_index (w : Wave) (n : Nat) (v : DWord) : (w.setS n v).index = w.index := by unfold Wave.setS; split <;> rfl
@[simp] theorem setS_core (w : Wave) (n : Nat) (v : DWord) : (w.setS n v).core = w.core := by unfold Wave.setS; split <;> rfl
@[simp] theorem setS_slot (w : Wave) (n : Nat) (v : DWord) : (w.setS n v).slot = w.slot := by unfold Wave.setS; split <;> rfl
@[simp] theorem setS_numV (w : Wave) (n : Nat) (v : DWord) : (w.setS n v).numV = w.numV := by unfold Wave.setS; split <;> rfl
@[simp] theorem setS_numH (w : Wave) (n : Nat) (v : DWord) : (w.setS n v).numH = w.numH := by unfold Wave.setS; split <;> rfl
@[simp] theorem setS_numB (w : Wave) (n : Nat) (v : DWord) : (w.setS n v).numB = w.numB := by unfold Wave.setS; split <;> rfl
@[simp] theorem setS_st (w : Wave) (n : Nat) (v : DWord) : (w.setS n v).st = w.st := by unfold Wave.setS; split <;> rfl
@[simp] theorem setS_pc (w : Wave) (n : Nat) (v : DWord) : (w.setS n v).pc = w.pc := by unfold Wave.setS; split <;> rfl
@[simp] theorem setS_masks (w : Wave) (n : Nat) (v : DWord) : (w.setS n v).masks = w.masks := by unfold Wave.setS; split <;> rfl
@[simp] theorem setS_vregs (w : Wave) (n : Nat) (v : DWord) : (w.setS n v).vregs = w.vregs := by unfold Wave.setS; split <;> rfl
@[simp] theorem setS_hvs (w : Wave) (n : Nat) (v : DWord) : (w.setS n v).hvs = w.hvs := by unfold Wave.setS; split <;> rfl
@[simp] theorem setS_bas (w : Wave) (n : Nat) (v : DWord) : (w.setS n v).bas = w.bas := by unfold Wave.setS; split <;> rfl
@[simp] theorem setS_hvtie (w : Wave) (n : Nat) (v : DWord) : (w.setS n v).hvtie = w.hvtie := by unfold Wave.setS; split <;> rfl
@[simp] theorem setS_fpflags (w : Wave) (n : Nat) (v : DWord) : (w.setS n v).fpflags = w.fpflags := by unfold Wave.setS; split <;> rfl
@[simp] theorem setS_snapCur (w : Wave) (n : Nat) (v : DWord) : (w.setS n v).snapCur = w.snapCur := by unfold Wave.setS; split <;> rfl
@[simp] theorem setS_snapOvf (w : Wave) (n : Nat) (v : DWord) : (w.setS n v).snapOvf = w.snapOvf := by unfold Wave.setS; split <;> rfl
@[simp] theorem setS_acqCnt (w : Wave) (n : Nat) (v : DWord) : (w.setS n v).acqCnt = w.acqCnt := by unfold Wave.setS; split <;> rfl
@[simp] theorem setS_relCnt (w : Wave) (n : Nat) (v : DWord) : (w.setS n v).relCnt = w.relCnt := by unfold Wave.setS; split <;> rfl
@[simp] theorem setS_trapCause (w : Wave) (n : Nat) (v : DWord) : (w.setS n v).trapCause = w.trapCause := by unfold Wave.setS; split <;> rfl
@[simp] theorem setS_trapPc (w : Wave) (n : Nat) (v : DWord) : (w.setS n v).trapPc = w.trapPc := by unfold Wave.setS; split <;> rfl
@[simp] theorem setS_trapAddr (w : Wave) (n : Nat) (v : DWord) : (w.setS n v).trapAddr = w.trapAddr := by unfold Wave.setS; split <;> rfl
@[simp] theorem setS_frame (w : Wave) (n : Nat) (v : DWord) : (w.setS n v).frame = w.frame := by unfold Wave.setS; split <;> rfl
@[simp] theorem setS_handler (w : Wave) (n : Nat) (v : DWord) : (w.setS n v).handler = w.handler := by unfold Wave.setS; split <;> rfl
@[simp] theorem setS_pfx (w : Wave) (n : Nat) (v : DWord) : (w.setS n v).pfx = w.pfx := by unfold Wave.setS; split <;> rfl
@[simp] theorem setS_outs (w : Wave) (n : Nat) (v : DWord) : (w.setS n v).outs = w.outs := by unfold Wave.setS; split <;> rfl
@[simp] theorem setS_atoms (w : Wave) (n : Nat) (v : DWord) : (w.setS n v).atoms = w.atoms := by unfold Wave.setS; split <;> rfl
@[simp] theorem setS_pend (w : Wave) (n : Nat) (v : DWord) : (w.setS n v).pend = w.pend := by unfold Wave.setS; split <;> rfl
@[simp] theorem setS_own (w : Wave) (n : Nat) (v : DWord) : (w.setS n v).own = w.own := by unfold Wave.setS; split <;> rfl
@[simp] theorem setS_adopted (w : Wave) (n : Nat) (v : DWord) : (w.setS n v).adopted = w.adopted := by unfold Wave.setS; split <;> rfl
@[simp] theorem setS_mirror (w : Wave) (n : Nat) (v : DWord) : (w.setS n v).mirror = w.mirror := by unfold Wave.setS; split <;> rfl
@[simp] theorem setS_due (w : Wave) (n : Nat) (v : DWord) : (w.setS n v).due = w.due := by unfold Wave.setS; split <;> rfl
@[simp] theorem setS_held (w : Wave) (n : Nat) (v : DWord) : (w.setS n v).held = w.held := by unfold Wave.setS; split <;> rfl
@[simp] theorem setS_stopped (w : Wave) (n : Nat) (v : DWord) : (w.setS n v).stopped = w.stopped := by unfold Wave.setS; split <;> rfl
@[simp] theorem setS_killed (w : Wave) (n : Nat) (v : DWord) : (w.setS n v).killed = w.killed := by unfold Wave.setS; split <;> rfl
@[simp] theorem setS_marked (w : Wave) (n : Nat) (v : DWord) : (w.setS n v).marked = w.marked := by unfold Wave.setS; split <;> rfl
@[simp] theorem setS_gphase (w : Wave) (n : Nat) (v : DWord) : (w.setS n v).gphase = w.gphase := by unfold Wave.setS; split <;> rfl
@[simp] theorem setS_delayUntil (w : Wave) (n : Nat) (v : DWord) : (w.setS n v).delayUntil = w.delayUntil := by unfold Wave.setS; split <;> rfl
@[simp] theorem setS_ran (w : Wave) (n : Nat) (v : DWord) : (w.setS n v).ran = w.ran := by unfold Wave.setS; split <;> rfl
@[simp] theorem setS_fetched (w : Wave) (n : Nat) (v : DWord) : (w.setS n v).fetched = w.fetched := by unfold Wave.setS; split <;> rfl
@[simp] theorem setS_reached (w : Wave) (n : Nat) (v : DWord) : (w.setS n v).reached = w.reached := by unfold Wave.setS; split <;> rfl
@[simp] theorem setS_far (w : Wave) (n : Nat) (v : DWord) : (w.setS n v).far = w.far := by unfold Wave.setS; split <;> rfl
@[simp] theorem setS_dirty (w : Wave) (n : Nat) (v : DWord) : (w.setS n v).dirty = w.dirty := by unfold Wave.setS; split <;> rfl

@[simp] theorem setM_group (w : Wave) (n : Nat) (v : Word) : (w.setM n v).group = w.group := by unfold Wave.setM; split <;> rfl
@[simp] theorem setM_ctx (w : Wave) (n : Nat) (v : Word) : (w.setM n v).ctx = w.ctx := by unfold Wave.setM; split <;> rfl
@[simp] theorem setM_index (w : Wave) (n : Nat) (v : Word) : (w.setM n v).index = w.index := by unfold Wave.setM; split <;> rfl
@[simp] theorem setM_core (w : Wave) (n : Nat) (v : Word) : (w.setM n v).core = w.core := by unfold Wave.setM; split <;> rfl
@[simp] theorem setM_slot (w : Wave) (n : Nat) (v : Word) : (w.setM n v).slot = w.slot := by unfold Wave.setM; split <;> rfl
@[simp] theorem setM_numV (w : Wave) (n : Nat) (v : Word) : (w.setM n v).numV = w.numV := by unfold Wave.setM; split <;> rfl
@[simp] theorem setM_numH (w : Wave) (n : Nat) (v : Word) : (w.setM n v).numH = w.numH := by unfold Wave.setM; split <;> rfl
@[simp] theorem setM_numB (w : Wave) (n : Nat) (v : Word) : (w.setM n v).numB = w.numB := by unfold Wave.setM; split <;> rfl
@[simp] theorem setM_st (w : Wave) (n : Nat) (v : Word) : (w.setM n v).st = w.st := by unfold Wave.setM; split <;> rfl
@[simp] theorem setM_pc (w : Wave) (n : Nat) (v : Word) : (w.setM n v).pc = w.pc := by unfold Wave.setM; split <;> rfl
@[simp] theorem setM_sregs (w : Wave) (n : Nat) (v : Word) : (w.setM n v).sregs = w.sregs := by unfold Wave.setM; split <;> rfl
@[simp] theorem setM_vregs (w : Wave) (n : Nat) (v : Word) : (w.setM n v).vregs = w.vregs := by unfold Wave.setM; split <;> rfl
@[simp] theorem setM_hvs (w : Wave) (n : Nat) (v : Word) : (w.setM n v).hvs = w.hvs := by unfold Wave.setM; split <;> rfl
@[simp] theorem setM_bas (w : Wave) (n : Nat) (v : Word) : (w.setM n v).bas = w.bas := by unfold Wave.setM; split <;> rfl
@[simp] theorem setM_hvtie (w : Wave) (n : Nat) (v : Word) : (w.setM n v).hvtie = w.hvtie := by unfold Wave.setM; split <;> rfl
@[simp] theorem setM_fpflags (w : Wave) (n : Nat) (v : Word) : (w.setM n v).fpflags = w.fpflags := by unfold Wave.setM; split <;> rfl
@[simp] theorem setM_snapCur (w : Wave) (n : Nat) (v : Word) : (w.setM n v).snapCur = w.snapCur := by unfold Wave.setM; split <;> rfl
@[simp] theorem setM_snapOvf (w : Wave) (n : Nat) (v : Word) : (w.setM n v).snapOvf = w.snapOvf := by unfold Wave.setM; split <;> rfl
@[simp] theorem setM_acqCnt (w : Wave) (n : Nat) (v : Word) : (w.setM n v).acqCnt = w.acqCnt := by unfold Wave.setM; split <;> rfl
@[simp] theorem setM_relCnt (w : Wave) (n : Nat) (v : Word) : (w.setM n v).relCnt = w.relCnt := by unfold Wave.setM; split <;> rfl
@[simp] theorem setM_trapCause (w : Wave) (n : Nat) (v : Word) : (w.setM n v).trapCause = w.trapCause := by unfold Wave.setM; split <;> rfl
@[simp] theorem setM_trapPc (w : Wave) (n : Nat) (v : Word) : (w.setM n v).trapPc = w.trapPc := by unfold Wave.setM; split <;> rfl
@[simp] theorem setM_trapAddr (w : Wave) (n : Nat) (v : Word) : (w.setM n v).trapAddr = w.trapAddr := by unfold Wave.setM; split <;> rfl
@[simp] theorem setM_frame (w : Wave) (n : Nat) (v : Word) : (w.setM n v).frame = w.frame := by unfold Wave.setM; split <;> rfl
@[simp] theorem setM_handler (w : Wave) (n : Nat) (v : Word) : (w.setM n v).handler = w.handler := by unfold Wave.setM; split <;> rfl
@[simp] theorem setM_pfx (w : Wave) (n : Nat) (v : Word) : (w.setM n v).pfx = w.pfx := by unfold Wave.setM; split <;> rfl
@[simp] theorem setM_outs (w : Wave) (n : Nat) (v : Word) : (w.setM n v).outs = w.outs := by unfold Wave.setM; split <;> rfl
@[simp] theorem setM_atoms (w : Wave) (n : Nat) (v : Word) : (w.setM n v).atoms = w.atoms := by unfold Wave.setM; split <;> rfl
@[simp] theorem setM_pend (w : Wave) (n : Nat) (v : Word) : (w.setM n v).pend = w.pend := by unfold Wave.setM; split <;> rfl
@[simp] theorem setM_own (w : Wave) (n : Nat) (v : Word) : (w.setM n v).own = w.own := by unfold Wave.setM; split <;> rfl
@[simp] theorem setM_adopted (w : Wave) (n : Nat) (v : Word) : (w.setM n v).adopted = w.adopted := by unfold Wave.setM; split <;> rfl
@[simp] theorem setM_mirror (w : Wave) (n : Nat) (v : Word) : (w.setM n v).mirror = w.mirror := by unfold Wave.setM; split <;> rfl
@[simp] theorem setM_due (w : Wave) (n : Nat) (v : Word) : (w.setM n v).due = w.due := by unfold Wave.setM; split <;> rfl
@[simp] theorem setM_held (w : Wave) (n : Nat) (v : Word) : (w.setM n v).held = w.held := by unfold Wave.setM; split <;> rfl
@[simp] theorem setM_stopped (w : Wave) (n : Nat) (v : Word) : (w.setM n v).stopped = w.stopped := by unfold Wave.setM; split <;> rfl
@[simp] theorem setM_killed (w : Wave) (n : Nat) (v : Word) : (w.setM n v).killed = w.killed := by unfold Wave.setM; split <;> rfl
@[simp] theorem setM_marked (w : Wave) (n : Nat) (v : Word) : (w.setM n v).marked = w.marked := by unfold Wave.setM; split <;> rfl
@[simp] theorem setM_gphase (w : Wave) (n : Nat) (v : Word) : (w.setM n v).gphase = w.gphase := by unfold Wave.setM; split <;> rfl
@[simp] theorem setM_delayUntil (w : Wave) (n : Nat) (v : Word) : (w.setM n v).delayUntil = w.delayUntil := by unfold Wave.setM; split <;> rfl
@[simp] theorem setM_ran (w : Wave) (n : Nat) (v : Word) : (w.setM n v).ran = w.ran := by unfold Wave.setM; split <;> rfl
@[simp] theorem setM_fetched (w : Wave) (n : Nat) (v : Word) : (w.setM n v).fetched = w.fetched := by unfold Wave.setM; split <;> rfl
@[simp] theorem setM_reached (w : Wave) (n : Nat) (v : Word) : (w.setM n v).reached = w.reached := by unfold Wave.setM; split <;> rfl
@[simp] theorem setM_far (w : Wave) (n : Nat) (v : Word) : (w.setM n v).far = w.far := by unfold Wave.setM; split <;> rfl
@[simp] theorem setM_dirty (w : Wave) (n : Nat) (v : Word) : (w.setM n v).dirty = w.dirty := by unfold Wave.setM; split <;> rfl

@[simp] theorem setHv_group (w : Wave) (n : Nat) (v : Hyper) : (w.setHv n v).group = w.group := rfl
@[simp] theorem setHv_ctx (w : Wave) (n : Nat) (v : Hyper) : (w.setHv n v).ctx = w.ctx := rfl
@[simp] theorem setHv_index (w : Wave) (n : Nat) (v : Hyper) : (w.setHv n v).index = w.index := rfl
@[simp] theorem setHv_core (w : Wave) (n : Nat) (v : Hyper) : (w.setHv n v).core = w.core := rfl
@[simp] theorem setHv_slot (w : Wave) (n : Nat) (v : Hyper) : (w.setHv n v).slot = w.slot := rfl
@[simp] theorem setHv_numV (w : Wave) (n : Nat) (v : Hyper) : (w.setHv n v).numV = w.numV := rfl
@[simp] theorem setHv_numH (w : Wave) (n : Nat) (v : Hyper) : (w.setHv n v).numH = w.numH := rfl
@[simp] theorem setHv_numB (w : Wave) (n : Nat) (v : Hyper) : (w.setHv n v).numB = w.numB := rfl
@[simp] theorem setHv_st (w : Wave) (n : Nat) (v : Hyper) : (w.setHv n v).st = w.st := rfl
@[simp] theorem setHv_pc (w : Wave) (n : Nat) (v : Hyper) : (w.setHv n v).pc = w.pc := rfl
@[simp] theorem setHv_sregs (w : Wave) (n : Nat) (v : Hyper) : (w.setHv n v).sregs = w.sregs := rfl
@[simp] theorem setHv_masks (w : Wave) (n : Nat) (v : Hyper) : (w.setHv n v).masks = w.masks := rfl
@[simp] theorem setHv_vregs (w : Wave) (n : Nat) (v : Hyper) : (w.setHv n v).vregs = w.vregs := rfl
@[simp] theorem setHv_bas (w : Wave) (n : Nat) (v : Hyper) : (w.setHv n v).bas = w.bas := rfl
@[simp] theorem setHv_hvtie (w : Wave) (n : Nat) (v : Hyper) : (w.setHv n v).hvtie = w.hvtie := rfl
@[simp] theorem setHv_fpflags (w : Wave) (n : Nat) (v : Hyper) : (w.setHv n v).fpflags = w.fpflags := rfl
@[simp] theorem setHv_snapCur (w : Wave) (n : Nat) (v : Hyper) : (w.setHv n v).snapCur = w.snapCur := rfl
@[simp] theorem setHv_snapOvf (w : Wave) (n : Nat) (v : Hyper) : (w.setHv n v).snapOvf = w.snapOvf := rfl
@[simp] theorem setHv_acqCnt (w : Wave) (n : Nat) (v : Hyper) : (w.setHv n v).acqCnt = w.acqCnt := rfl
@[simp] theorem setHv_relCnt (w : Wave) (n : Nat) (v : Hyper) : (w.setHv n v).relCnt = w.relCnt := rfl
@[simp] theorem setHv_trapCause (w : Wave) (n : Nat) (v : Hyper) : (w.setHv n v).trapCause = w.trapCause := rfl
@[simp] theorem setHv_trapPc (w : Wave) (n : Nat) (v : Hyper) : (w.setHv n v).trapPc = w.trapPc := rfl
@[simp] theorem setHv_trapAddr (w : Wave) (n : Nat) (v : Hyper) : (w.setHv n v).trapAddr = w.trapAddr := rfl
@[simp] theorem setHv_frame (w : Wave) (n : Nat) (v : Hyper) : (w.setHv n v).frame = w.frame := rfl
@[simp] theorem setHv_handler (w : Wave) (n : Nat) (v : Hyper) : (w.setHv n v).handler = w.handler := rfl
@[simp] theorem setHv_pfx (w : Wave) (n : Nat) (v : Hyper) : (w.setHv n v).pfx = w.pfx := rfl
@[simp] theorem setHv_outs (w : Wave) (n : Nat) (v : Hyper) : (w.setHv n v).outs = w.outs := rfl
@[simp] theorem setHv_atoms (w : Wave) (n : Nat) (v : Hyper) : (w.setHv n v).atoms = w.atoms := rfl
@[simp] theorem setHv_pend (w : Wave) (n : Nat) (v : Hyper) : (w.setHv n v).pend = w.pend := rfl
@[simp] theorem setHv_own (w : Wave) (n : Nat) (v : Hyper) : (w.setHv n v).own = w.own := rfl
@[simp] theorem setHv_adopted (w : Wave) (n : Nat) (v : Hyper) : (w.setHv n v).adopted = w.adopted := rfl
@[simp] theorem setHv_mirror (w : Wave) (n : Nat) (v : Hyper) : (w.setHv n v).mirror = w.mirror := rfl
@[simp] theorem setHv_due (w : Wave) (n : Nat) (v : Hyper) : (w.setHv n v).due = w.due := rfl
@[simp] theorem setHv_held (w : Wave) (n : Nat) (v : Hyper) : (w.setHv n v).held = w.held := rfl
@[simp] theorem setHv_stopped (w : Wave) (n : Nat) (v : Hyper) : (w.setHv n v).stopped = w.stopped := rfl
@[simp] theorem setHv_killed (w : Wave) (n : Nat) (v : Hyper) : (w.setHv n v).killed = w.killed := rfl
@[simp] theorem setHv_marked (w : Wave) (n : Nat) (v : Hyper) : (w.setHv n v).marked = w.marked := rfl
@[simp] theorem setHv_gphase (w : Wave) (n : Nat) (v : Hyper) : (w.setHv n v).gphase = w.gphase := rfl
@[simp] theorem setHv_delayUntil (w : Wave) (n : Nat) (v : Hyper) : (w.setHv n v).delayUntil = w.delayUntil := rfl
@[simp] theorem setHv_ran (w : Wave) (n : Nat) (v : Hyper) : (w.setHv n v).ran = w.ran := rfl
@[simp] theorem setHv_fetched (w : Wave) (n : Nat) (v : Hyper) : (w.setHv n v).fetched = w.fetched := rfl
@[simp] theorem setHv_reached (w : Wave) (n : Nat) (v : Hyper) : (w.setHv n v).reached = w.reached := rfl
@[simp] theorem setHv_far (w : Wave) (n : Nat) (v : Hyper) : (w.setHv n v).far = w.far := rfl

@[simp] theorem setBa_group (w : Wave) (n : Nat) (v : Bundle) : (w.setBa n v).group = w.group := rfl
@[simp] theorem setBa_ctx (w : Wave) (n : Nat) (v : Bundle) : (w.setBa n v).ctx = w.ctx := rfl
@[simp] theorem setBa_index (w : Wave) (n : Nat) (v : Bundle) : (w.setBa n v).index = w.index := rfl
@[simp] theorem setBa_core (w : Wave) (n : Nat) (v : Bundle) : (w.setBa n v).core = w.core := rfl
@[simp] theorem setBa_slot (w : Wave) (n : Nat) (v : Bundle) : (w.setBa n v).slot = w.slot := rfl
@[simp] theorem setBa_numV (w : Wave) (n : Nat) (v : Bundle) : (w.setBa n v).numV = w.numV := rfl
@[simp] theorem setBa_numH (w : Wave) (n : Nat) (v : Bundle) : (w.setBa n v).numH = w.numH := rfl
@[simp] theorem setBa_numB (w : Wave) (n : Nat) (v : Bundle) : (w.setBa n v).numB = w.numB := rfl
@[simp] theorem setBa_st (w : Wave) (n : Nat) (v : Bundle) : (w.setBa n v).st = w.st := rfl
@[simp] theorem setBa_pc (w : Wave) (n : Nat) (v : Bundle) : (w.setBa n v).pc = w.pc := rfl
@[simp] theorem setBa_sregs (w : Wave) (n : Nat) (v : Bundle) : (w.setBa n v).sregs = w.sregs := rfl
@[simp] theorem setBa_masks (w : Wave) (n : Nat) (v : Bundle) : (w.setBa n v).masks = w.masks := rfl
@[simp] theorem setBa_vregs (w : Wave) (n : Nat) (v : Bundle) : (w.setBa n v).vregs = w.vregs := rfl
@[simp] theorem setBa_hvs (w : Wave) (n : Nat) (v : Bundle) : (w.setBa n v).hvs = w.hvs := rfl
@[simp] theorem setBa_hvtie (w : Wave) (n : Nat) (v : Bundle) : (w.setBa n v).hvtie = w.hvtie := rfl
@[simp] theorem setBa_fpflags (w : Wave) (n : Nat) (v : Bundle) : (w.setBa n v).fpflags = w.fpflags := rfl
@[simp] theorem setBa_snapCur (w : Wave) (n : Nat) (v : Bundle) : (w.setBa n v).snapCur = w.snapCur := rfl
@[simp] theorem setBa_snapOvf (w : Wave) (n : Nat) (v : Bundle) : (w.setBa n v).snapOvf = w.snapOvf := rfl
@[simp] theorem setBa_acqCnt (w : Wave) (n : Nat) (v : Bundle) : (w.setBa n v).acqCnt = w.acqCnt := rfl
@[simp] theorem setBa_relCnt (w : Wave) (n : Nat) (v : Bundle) : (w.setBa n v).relCnt = w.relCnt := rfl
@[simp] theorem setBa_trapCause (w : Wave) (n : Nat) (v : Bundle) : (w.setBa n v).trapCause = w.trapCause := rfl
@[simp] theorem setBa_trapPc (w : Wave) (n : Nat) (v : Bundle) : (w.setBa n v).trapPc = w.trapPc := rfl
@[simp] theorem setBa_trapAddr (w : Wave) (n : Nat) (v : Bundle) : (w.setBa n v).trapAddr = w.trapAddr := rfl
@[simp] theorem setBa_frame (w : Wave) (n : Nat) (v : Bundle) : (w.setBa n v).frame = w.frame := rfl
@[simp] theorem setBa_handler (w : Wave) (n : Nat) (v : Bundle) : (w.setBa n v).handler = w.handler := rfl
@[simp] theorem setBa_pfx (w : Wave) (n : Nat) (v : Bundle) : (w.setBa n v).pfx = w.pfx := rfl
@[simp] theorem setBa_outs (w : Wave) (n : Nat) (v : Bundle) : (w.setBa n v).outs = w.outs := rfl
@[simp] theorem setBa_atoms (w : Wave) (n : Nat) (v : Bundle) : (w.setBa n v).atoms = w.atoms := rfl
@[simp] theorem setBa_pend (w : Wave) (n : Nat) (v : Bundle) : (w.setBa n v).pend = w.pend := rfl
@[simp] theorem setBa_own (w : Wave) (n : Nat) (v : Bundle) : (w.setBa n v).own = w.own := rfl
@[simp] theorem setBa_adopted (w : Wave) (n : Nat) (v : Bundle) : (w.setBa n v).adopted = w.adopted := rfl
@[simp] theorem setBa_mirror (w : Wave) (n : Nat) (v : Bundle) : (w.setBa n v).mirror = w.mirror := rfl
@[simp] theorem setBa_due (w : Wave) (n : Nat) (v : Bundle) : (w.setBa n v).due = w.due := rfl
@[simp] theorem setBa_held (w : Wave) (n : Nat) (v : Bundle) : (w.setBa n v).held = w.held := rfl
@[simp] theorem setBa_stopped (w : Wave) (n : Nat) (v : Bundle) : (w.setBa n v).stopped = w.stopped := rfl
@[simp] theorem setBa_killed (w : Wave) (n : Nat) (v : Bundle) : (w.setBa n v).killed = w.killed := rfl
@[simp] theorem setBa_marked (w : Wave) (n : Nat) (v : Bundle) : (w.setBa n v).marked = w.marked := rfl
@[simp] theorem setBa_gphase (w : Wave) (n : Nat) (v : Bundle) : (w.setBa n v).gphase = w.gphase := rfl
@[simp] theorem setBa_delayUntil (w : Wave) (n : Nat) (v : Bundle) : (w.setBa n v).delayUntil = w.delayUntil := rfl
@[simp] theorem setBa_ran (w : Wave) (n : Nat) (v : Bundle) : (w.setBa n v).ran = w.ran := rfl
@[simp] theorem setBa_fetched (w : Wave) (n : Nat) (v : Bundle) : (w.setBa n v).fetched = w.fetched := rfl
@[simp] theorem setBa_reached (w : Wave) (n : Nat) (v : Bundle) : (w.setBa n v).reached = w.reached := rfl
@[simp] theorem setBa_far (w : Wave) (n : Nat) (v : Bundle) : (w.setBa n v).far = w.far := rfl

@[simp] theorem orFlags_group (w : Wave) (f : Flags) : (w.orFlags f).group = w.group := rfl
@[simp] theorem orFlags_ctx (w : Wave) (f : Flags) : (w.orFlags f).ctx = w.ctx := rfl
@[simp] theorem orFlags_index (w : Wave) (f : Flags) : (w.orFlags f).index = w.index := rfl
@[simp] theorem orFlags_core (w : Wave) (f : Flags) : (w.orFlags f).core = w.core := rfl
@[simp] theorem orFlags_slot (w : Wave) (f : Flags) : (w.orFlags f).slot = w.slot := rfl
@[simp] theorem orFlags_numV (w : Wave) (f : Flags) : (w.orFlags f).numV = w.numV := rfl
@[simp] theorem orFlags_numH (w : Wave) (f : Flags) : (w.orFlags f).numH = w.numH := rfl
@[simp] theorem orFlags_numB (w : Wave) (f : Flags) : (w.orFlags f).numB = w.numB := rfl
@[simp] theorem orFlags_st (w : Wave) (f : Flags) : (w.orFlags f).st = w.st := rfl
@[simp] theorem orFlags_pc (w : Wave) (f : Flags) : (w.orFlags f).pc = w.pc := rfl
@[simp] theorem orFlags_sregs (w : Wave) (f : Flags) : (w.orFlags f).sregs = w.sregs := rfl
@[simp] theorem orFlags_masks (w : Wave) (f : Flags) : (w.orFlags f).masks = w.masks := rfl
@[simp] theorem orFlags_vregs (w : Wave) (f : Flags) : (w.orFlags f).vregs = w.vregs := rfl
@[simp] theorem orFlags_hvs (w : Wave) (f : Flags) : (w.orFlags f).hvs = w.hvs := rfl
@[simp] theorem orFlags_bas (w : Wave) (f : Flags) : (w.orFlags f).bas = w.bas := rfl
@[simp] theorem orFlags_hvtie (w : Wave) (f : Flags) : (w.orFlags f).hvtie = w.hvtie := rfl
@[simp] theorem orFlags_snapCur (w : Wave) (f : Flags) : (w.orFlags f).snapCur = w.snapCur := rfl
@[simp] theorem orFlags_snapOvf (w : Wave) (f : Flags) : (w.orFlags f).snapOvf = w.snapOvf := rfl
@[simp] theorem orFlags_acqCnt (w : Wave) (f : Flags) : (w.orFlags f).acqCnt = w.acqCnt := rfl
@[simp] theorem orFlags_relCnt (w : Wave) (f : Flags) : (w.orFlags f).relCnt = w.relCnt := rfl
@[simp] theorem orFlags_trapCause (w : Wave) (f : Flags) : (w.orFlags f).trapCause = w.trapCause := rfl
@[simp] theorem orFlags_trapPc (w : Wave) (f : Flags) : (w.orFlags f).trapPc = w.trapPc := rfl
@[simp] theorem orFlags_trapAddr (w : Wave) (f : Flags) : (w.orFlags f).trapAddr = w.trapAddr := rfl
@[simp] theorem orFlags_frame (w : Wave) (f : Flags) : (w.orFlags f).frame = w.frame := rfl
@[simp] theorem orFlags_handler (w : Wave) (f : Flags) : (w.orFlags f).handler = w.handler := rfl
@[simp] theorem orFlags_pfx (w : Wave) (f : Flags) : (w.orFlags f).pfx = w.pfx := rfl
@[simp] theorem orFlags_outs (w : Wave) (f : Flags) : (w.orFlags f).outs = w.outs := rfl
@[simp] theorem orFlags_atoms (w : Wave) (f : Flags) : (w.orFlags f).atoms = w.atoms := rfl
@[simp] theorem orFlags_pend (w : Wave) (f : Flags) : (w.orFlags f).pend = w.pend := rfl
@[simp] theorem orFlags_own (w : Wave) (f : Flags) : (w.orFlags f).own = w.own := rfl
@[simp] theorem orFlags_adopted (w : Wave) (f : Flags) : (w.orFlags f).adopted = w.adopted := rfl
@[simp] theorem orFlags_mirror (w : Wave) (f : Flags) : (w.orFlags f).mirror = w.mirror := rfl
@[simp] theorem orFlags_due (w : Wave) (f : Flags) : (w.orFlags f).due = w.due := rfl
@[simp] theorem orFlags_held (w : Wave) (f : Flags) : (w.orFlags f).held = w.held := rfl
@[simp] theorem orFlags_stopped (w : Wave) (f : Flags) : (w.orFlags f).stopped = w.stopped := rfl
@[simp] theorem orFlags_killed (w : Wave) (f : Flags) : (w.orFlags f).killed = w.killed := rfl
@[simp] theorem orFlags_marked (w : Wave) (f : Flags) : (w.orFlags f).marked = w.marked := rfl
@[simp] theorem orFlags_gphase (w : Wave) (f : Flags) : (w.orFlags f).gphase = w.gphase := rfl
@[simp] theorem orFlags_delayUntil (w : Wave) (f : Flags) : (w.orFlags f).delayUntil = w.delayUntil := rfl
@[simp] theorem orFlags_ran (w : Wave) (f : Flags) : (w.orFlags f).ran = w.ran := rfl
@[simp] theorem orFlags_fetched (w : Wave) (f : Flags) : (w.orFlags f).fetched = w.fetched := rfl
@[simp] theorem orFlags_reached (w : Wave) (f : Flags) : (w.orFlags f).reached = w.reached := rfl
@[simp] theorem orFlags_far (w : Wave) (f : Flags) : (w.orFlags f).far = w.far := rfl
@[simp] theorem orFlags_dirty (w : Wave) (f : Flags) : (w.orFlags f).dirty = w.dirty := rfl

@[simp] theorem addOut_group (w : Wave) (o : Out) : (w.addOut o).group = w.group := by unfold Wave.addOut; split <;> rfl
@[simp] theorem addOut_ctx (w : Wave) (o : Out) : (w.addOut o).ctx = w.ctx := by unfold Wave.addOut; split <;> rfl
@[simp] theorem addOut_index (w : Wave) (o : Out) : (w.addOut o).index = w.index := by unfold Wave.addOut; split <;> rfl
@[simp] theorem addOut_core (w : Wave) (o : Out) : (w.addOut o).core = w.core := by unfold Wave.addOut; split <;> rfl
@[simp] theorem addOut_slot (w : Wave) (o : Out) : (w.addOut o).slot = w.slot := by unfold Wave.addOut; split <;> rfl
@[simp] theorem addOut_numV (w : Wave) (o : Out) : (w.addOut o).numV = w.numV := by unfold Wave.addOut; split <;> rfl
@[simp] theorem addOut_numH (w : Wave) (o : Out) : (w.addOut o).numH = w.numH := by unfold Wave.addOut; split <;> rfl
@[simp] theorem addOut_numB (w : Wave) (o : Out) : (w.addOut o).numB = w.numB := by unfold Wave.addOut; split <;> rfl
@[simp] theorem addOut_st (w : Wave) (o : Out) : (w.addOut o).st = w.st := by unfold Wave.addOut; split <;> rfl
@[simp] theorem addOut_pc (w : Wave) (o : Out) : (w.addOut o).pc = w.pc := by unfold Wave.addOut; split <;> rfl
@[simp] theorem addOut_sregs (w : Wave) (o : Out) : (w.addOut o).sregs = w.sregs := by unfold Wave.addOut; split <;> rfl
@[simp] theorem addOut_masks (w : Wave) (o : Out) : (w.addOut o).masks = w.masks := by unfold Wave.addOut; split <;> rfl
@[simp] theorem addOut_vregs (w : Wave) (o : Out) : (w.addOut o).vregs = w.vregs := by unfold Wave.addOut; split <;> rfl
@[simp] theorem addOut_hvs (w : Wave) (o : Out) : (w.addOut o).hvs = w.hvs := by unfold Wave.addOut; split <;> rfl
@[simp] theorem addOut_bas (w : Wave) (o : Out) : (w.addOut o).bas = w.bas := by unfold Wave.addOut; split <;> rfl
@[simp] theorem addOut_hvtie (w : Wave) (o : Out) : (w.addOut o).hvtie = w.hvtie := by unfold Wave.addOut; split <;> rfl
@[simp] theorem addOut_fpflags (w : Wave) (o : Out) : (w.addOut o).fpflags = w.fpflags := by unfold Wave.addOut; split <;> rfl
@[simp] theorem addOut_snapCur (w : Wave) (o : Out) : (w.addOut o).snapCur = w.snapCur := by unfold Wave.addOut; split <;> rfl
@[simp] theorem addOut_snapOvf (w : Wave) (o : Out) : (w.addOut o).snapOvf = w.snapOvf := by unfold Wave.addOut; split <;> rfl
@[simp] theorem addOut_acqCnt (w : Wave) (o : Out) : (w.addOut o).acqCnt = w.acqCnt := by unfold Wave.addOut; split <;> rfl
@[simp] theorem addOut_relCnt (w : Wave) (o : Out) : (w.addOut o).relCnt = w.relCnt := by unfold Wave.addOut; split <;> rfl
@[simp] theorem addOut_trapCause (w : Wave) (o : Out) : (w.addOut o).trapCause = w.trapCause := by unfold Wave.addOut; split <;> rfl
@[simp] theorem addOut_trapPc (w : Wave) (o : Out) : (w.addOut o).trapPc = w.trapPc := by unfold Wave.addOut; split <;> rfl
@[simp] theorem addOut_trapAddr (w : Wave) (o : Out) : (w.addOut o).trapAddr = w.trapAddr := by unfold Wave.addOut; split <;> rfl
@[simp] theorem addOut_frame (w : Wave) (o : Out) : (w.addOut o).frame = w.frame := by unfold Wave.addOut; split <;> rfl
@[simp] theorem addOut_handler (w : Wave) (o : Out) : (w.addOut o).handler = w.handler := by unfold Wave.addOut; split <;> rfl
@[simp] theorem addOut_pfx (w : Wave) (o : Out) : (w.addOut o).pfx = w.pfx := by unfold Wave.addOut; split <;> rfl
@[simp] theorem addOut_atoms (w : Wave) (o : Out) : (w.addOut o).atoms = w.atoms := by unfold Wave.addOut; split <;> rfl
@[simp] theorem addOut_pend (w : Wave) (o : Out) : (w.addOut o).pend = w.pend := by unfold Wave.addOut; split <;> rfl
@[simp] theorem addOut_own (w : Wave) (o : Out) : (w.addOut o).own = w.own := by unfold Wave.addOut; split <;> rfl
@[simp] theorem addOut_adopted (w : Wave) (o : Out) : (w.addOut o).adopted = w.adopted := by unfold Wave.addOut; split <;> rfl
@[simp] theorem addOut_mirror (w : Wave) (o : Out) : (w.addOut o).mirror = w.mirror := by unfold Wave.addOut; split <;> rfl
@[simp] theorem addOut_due (w : Wave) (o : Out) : (w.addOut o).due = w.due := by unfold Wave.addOut; split <;> rfl
@[simp] theorem addOut_held (w : Wave) (o : Out) : (w.addOut o).held = w.held := by unfold Wave.addOut; split <;> rfl
@[simp] theorem addOut_stopped (w : Wave) (o : Out) : (w.addOut o).stopped = w.stopped := by unfold Wave.addOut; split <;> rfl
@[simp] theorem addOut_killed (w : Wave) (o : Out) : (w.addOut o).killed = w.killed := by unfold Wave.addOut; split <;> rfl
@[simp] theorem addOut_marked (w : Wave) (o : Out) : (w.addOut o).marked = w.marked := by unfold Wave.addOut; split <;> rfl
@[simp] theorem addOut_gphase (w : Wave) (o : Out) : (w.addOut o).gphase = w.gphase := by unfold Wave.addOut; split <;> rfl
@[simp] theorem addOut_delayUntil (w : Wave) (o : Out) : (w.addOut o).delayUntil = w.delayUntil := by unfold Wave.addOut; split <;> rfl
@[simp] theorem addOut_ran (w : Wave) (o : Out) : (w.addOut o).ran = w.ran := by unfold Wave.addOut; split <;> rfl
@[simp] theorem addOut_fetched (w : Wave) (o : Out) : (w.addOut o).fetched = w.fetched := by unfold Wave.addOut; split <;> rfl
@[simp] theorem addOut_reached (w : Wave) (o : Out) : (w.addOut o).reached = w.reached := by unfold Wave.addOut; split <;> rfl
@[simp] theorem addOut_dirty (w : Wave) (o : Out) : (w.addOut o).dirty = w.dirty := by unfold Wave.addOut; split <;> rfl

@[simp] theorem advance_group (w : Wave)  : (w.advance).group = w.group := rfl
@[simp] theorem advance_ctx (w : Wave)  : (w.advance).ctx = w.ctx := rfl
@[simp] theorem advance_index (w : Wave)  : (w.advance).index = w.index := rfl
@[simp] theorem advance_core (w : Wave)  : (w.advance).core = w.core := rfl
@[simp] theorem advance_slot (w : Wave)  : (w.advance).slot = w.slot := rfl
@[simp] theorem advance_numV (w : Wave)  : (w.advance).numV = w.numV := rfl
@[simp] theorem advance_numH (w : Wave)  : (w.advance).numH = w.numH := rfl
@[simp] theorem advance_numB (w : Wave)  : (w.advance).numB = w.numB := rfl
@[simp] theorem advance_st (w : Wave)  : (w.advance).st = w.st := rfl
@[simp] theorem advance_sregs (w : Wave)  : (w.advance).sregs = w.sregs := rfl
@[simp] theorem advance_masks (w : Wave)  : (w.advance).masks = w.masks := rfl
@[simp] theorem advance_vregs (w : Wave)  : (w.advance).vregs = w.vregs := rfl
@[simp] theorem advance_hvs (w : Wave)  : (w.advance).hvs = w.hvs := rfl
@[simp] theorem advance_bas (w : Wave)  : (w.advance).bas = w.bas := rfl
@[simp] theorem advance_hvtie (w : Wave)  : (w.advance).hvtie = w.hvtie := rfl
@[simp] theorem advance_fpflags (w : Wave)  : (w.advance).fpflags = w.fpflags := rfl
@[simp] theorem advance_snapCur (w : Wave)  : (w.advance).snapCur = w.snapCur := rfl
@[simp] theorem advance_snapOvf (w : Wave)  : (w.advance).snapOvf = w.snapOvf := rfl
@[simp] theorem advance_acqCnt (w : Wave)  : (w.advance).acqCnt = w.acqCnt := rfl
@[simp] theorem advance_relCnt (w : Wave)  : (w.advance).relCnt = w.relCnt := rfl
@[simp] theorem advance_trapCause (w : Wave)  : (w.advance).trapCause = w.trapCause := rfl
@[simp] theorem advance_trapPc (w : Wave)  : (w.advance).trapPc = w.trapPc := rfl
@[simp] theorem advance_trapAddr (w : Wave)  : (w.advance).trapAddr = w.trapAddr := rfl
@[simp] theorem advance_frame (w : Wave)  : (w.advance).frame = w.frame := rfl
@[simp] theorem advance_handler (w : Wave)  : (w.advance).handler = w.handler := rfl
@[simp] theorem advance_pfx (w : Wave)  : (w.advance).pfx = w.pfx := rfl
@[simp] theorem advance_outs (w : Wave)  : (w.advance).outs = w.outs := rfl
@[simp] theorem advance_atoms (w : Wave)  : (w.advance).atoms = w.atoms := rfl
@[simp] theorem advance_pend (w : Wave)  : (w.advance).pend = w.pend := rfl
@[simp] theorem advance_own (w : Wave)  : (w.advance).own = w.own := rfl
@[simp] theorem advance_adopted (w : Wave)  : (w.advance).adopted = w.adopted := rfl
@[simp] theorem advance_mirror (w : Wave)  : (w.advance).mirror = w.mirror := rfl
@[simp] theorem advance_due (w : Wave)  : (w.advance).due = w.due := rfl
@[simp] theorem advance_held (w : Wave)  : (w.advance).held = w.held := rfl
@[simp] theorem advance_stopped (w : Wave)  : (w.advance).stopped = w.stopped := rfl
@[simp] theorem advance_killed (w : Wave)  : (w.advance).killed = w.killed := rfl
@[simp] theorem advance_marked (w : Wave)  : (w.advance).marked = w.marked := rfl
@[simp] theorem advance_gphase (w : Wave)  : (w.advance).gphase = w.gphase := rfl
@[simp] theorem advance_delayUntil (w : Wave)  : (w.advance).delayUntil = w.delayUntil := rfl
@[simp] theorem advance_reached (w : Wave)  : (w.advance).reached = w.reached := rfl
@[simp] theorem advance_far (w : Wave)  : (w.advance).far = w.far := rfl
@[simp] theorem advance_dirty (w : Wave)  : (w.advance).dirty = w.dirty := rfl

@[simp] theorem issued_group (w : Wave) (sw : BitVec 1) : (w.issued sw).group = w.group := rfl
@[simp] theorem issued_ctx (w : Wave) (sw : BitVec 1) : (w.issued sw).ctx = w.ctx := rfl
@[simp] theorem issued_index (w : Wave) (sw : BitVec 1) : (w.issued sw).index = w.index := rfl
@[simp] theorem issued_core (w : Wave) (sw : BitVec 1) : (w.issued sw).core = w.core := rfl
@[simp] theorem issued_slot (w : Wave) (sw : BitVec 1) : (w.issued sw).slot = w.slot := rfl
@[simp] theorem issued_numV (w : Wave) (sw : BitVec 1) : (w.issued sw).numV = w.numV := rfl
@[simp] theorem issued_numH (w : Wave) (sw : BitVec 1) : (w.issued sw).numH = w.numH := rfl
@[simp] theorem issued_numB (w : Wave) (sw : BitVec 1) : (w.issued sw).numB = w.numB := rfl
@[simp] theorem issued_st (w : Wave) (sw : BitVec 1) : (w.issued sw).st = w.st := rfl
@[simp] theorem issued_pc (w : Wave) (sw : BitVec 1) : (w.issued sw).pc = w.pc := rfl
@[simp] theorem issued_sregs (w : Wave) (sw : BitVec 1) : (w.issued sw).sregs = w.sregs := rfl
@[simp] theorem issued_masks (w : Wave) (sw : BitVec 1) : (w.issued sw).masks = w.masks := rfl
@[simp] theorem issued_vregs (w : Wave) (sw : BitVec 1) : (w.issued sw).vregs = w.vregs := rfl
@[simp] theorem issued_hvs (w : Wave) (sw : BitVec 1) : (w.issued sw).hvs = w.hvs := rfl
@[simp] theorem issued_bas (w : Wave) (sw : BitVec 1) : (w.issued sw).bas = w.bas := rfl
@[simp] theorem issued_hvtie (w : Wave) (sw : BitVec 1) : (w.issued sw).hvtie = w.hvtie := rfl
@[simp] theorem issued_fpflags (w : Wave) (sw : BitVec 1) : (w.issued sw).fpflags = w.fpflags := rfl
@[simp] theorem issued_snapCur (w : Wave) (sw : BitVec 1) : (w.issued sw).snapCur = w.snapCur := rfl
@[simp] theorem issued_snapOvf (w : Wave) (sw : BitVec 1) : (w.issued sw).snapOvf = w.snapOvf := rfl
@[simp] theorem issued_acqCnt (w : Wave) (sw : BitVec 1) : (w.issued sw).acqCnt = w.acqCnt := rfl
@[simp] theorem issued_relCnt (w : Wave) (sw : BitVec 1) : (w.issued sw).relCnt = w.relCnt := rfl
@[simp] theorem issued_trapCause (w : Wave) (sw : BitVec 1) : (w.issued sw).trapCause = w.trapCause := rfl
@[simp] theorem issued_trapPc (w : Wave) (sw : BitVec 1) : (w.issued sw).trapPc = w.trapPc := rfl
@[simp] theorem issued_trapAddr (w : Wave) (sw : BitVec 1) : (w.issued sw).trapAddr = w.trapAddr := rfl
@[simp] theorem issued_frame (w : Wave) (sw : BitVec 1) : (w.issued sw).frame = w.frame := rfl
@[simp] theorem issued_handler (w : Wave) (sw : BitVec 1) : (w.issued sw).handler = w.handler := rfl
@[simp] theorem issued_outs (w : Wave) (sw : BitVec 1) : (w.issued sw).outs = w.outs := rfl
@[simp] theorem issued_atoms (w : Wave) (sw : BitVec 1) : (w.issued sw).atoms = w.atoms := rfl
@[simp] theorem issued_pend (w : Wave) (sw : BitVec 1) : (w.issued sw).pend = w.pend := rfl
@[simp] theorem issued_own (w : Wave) (sw : BitVec 1) : (w.issued sw).own = w.own := rfl
@[simp] theorem issued_adopted (w : Wave) (sw : BitVec 1) : (w.issued sw).adopted = w.adopted := rfl
@[simp] theorem issued_mirror (w : Wave) (sw : BitVec 1) : (w.issued sw).mirror = w.mirror := rfl
@[simp] theorem issued_due (w : Wave) (sw : BitVec 1) : (w.issued sw).due = w.due := rfl
@[simp] theorem issued_held (w : Wave) (sw : BitVec 1) : (w.issued sw).held = w.held := rfl
@[simp] theorem issued_stopped (w : Wave) (sw : BitVec 1) : (w.issued sw).stopped = w.stopped := rfl
@[simp] theorem issued_killed (w : Wave) (sw : BitVec 1) : (w.issued sw).killed = w.killed := rfl
@[simp] theorem issued_gphase (w : Wave) (sw : BitVec 1) : (w.issued sw).gphase = w.gphase := rfl
@[simp] theorem issued_delayUntil (w : Wave) (sw : BitVec 1) : (w.issued sw).delayUntil = w.delayUntil := rfl
@[simp] theorem issued_ran (w : Wave) (sw : BitVec 1) : (w.issued sw).ran = w.ran := rfl
@[simp] theorem issued_reached (w : Wave) (sw : BitVec 1) : (w.issued sw).reached = w.reached := rfl
@[simp] theorem issued_far (w : Wave) (sw : BitVec 1) : (w.issued sw).far = w.far := rfl
@[simp] theorem issued_dirty (w : Wave) (sw : BitVec 1) : (w.issued sw).dirty = w.dirty := rfl

end Sys2Proof.Laws
end

