-- ==== Sys2Proof/Tests/Slice0.lean ====
section
/-! SUPPORT. Tests: words of the spec decoded, ill-formed instructions refused, single steps with the results that the rules and the
spec's examples give, and for each statement a state and operands that meet its hypotheses. -/

open Sys2Proof Sys2Proof.Machine

namespace Sys2Proof.Tests

set_option Elab.async false

/-! ### Decoding words written out from the formats and the opcode map (06 R157, R171, R172)

Each word is written field by field, the most significant first, as (bits, value). -/

/-- The word of its fields. -/
def word (fields : List (Nat × Nat)) : Word := BitVec.ofNat 32 (fields.foldl (fun a f => a * 2 ^ f.1 + f.2) 0)

/-- Does every word decode to the instruction beside it? -/
def decodes (l : List (Word × Instr)) : Bool := l.all (fun p => decode p.1 == some p.2)

/-- Format V: the primary, D, A, B. -/
def fV (op d a b : Nat) : Word := word [(1, 0), (7, op), (8, d), (8, a), (8, b)]

theorem test_decode_vector_integer : decodes [
  (fV 0x01 1 2 3, .vaddI32 0 1 2 3), (fV 0x02 1 2 3, .vsubI32 0 1 2 3), (fV 0x03 1 2 3, .vmulI32 0 1 2 3),
  (fV 0x04 1 2 3, .vmulhI32 0 1 2 3), (fV 0x05 1 2 3, .vmulhuI32 0 1 2 3), (fV 0x06 1 2 3, .vminI32 0 1 2 3),
  (fV 0x07 1 2 3, .vmaxI32 0 1 2 3), (fV 0x08 1 2 3, .vminuI32 0 1 2 3), (fV 0x09 1 2 3, .vmaxuI32 0 1 2 3),
  (fV 0x0A 1 2 3, .vand 0 1 2 3), (fV 0x0B 1 2 3, .vor 0 1 2 3), (fV 0x0C 1 2 3, .vxor 0 1 2 3), (fV 0x0D 1 2 3, .vshl 0 1 2 3),
  (fV 0x0E 1 2 3, .vshr 0 1 2 3), (fV 0x0F 1 2 3, .vsar 0 1 2 3), (fV 0x10 1 2 0, .vmov 0 1 2), (fV 0x11 1 2 0, .vpopc 0 1 2),
  (fV 0x12 1 2 0, .vclz 0 1 2), (fV 0x13 255 254 253, .vsel 0 255 254 253)] = true := by decide +kernel

theorem test_decode_vector_float : decodes [
  (fV 0x18 1 2 3, .vaddF32 0 1 2 3), (fV 0x19 1 2 3, .vsubF32 0 1 2 3), (fV 0x1A 1 2 3, .vmulF32 0 1 2 3),
  (fV 0x1B 1 2 3, .vfmaF32 0 1 2 3), (fV 0x1C 1 2 3, .vminF32 0 1 2 3), (fV 0x1D 1 2 3, .vmaxF32 0 1 2 3),
  (fV 0x1E 1 2 0, .vabsF32 0 1 2), (fV 0x1F 1 2 0, .vnegF32 0 1 2), (fV 0x40 1 2 0, .vrcp 0 1 2), (fV 0x41 1 2 0, .vrsq 0 1 2),
  (fV 0x42 1 2 0, .vsqrt 0 1 2), (fV 0x43 1 2 0, .vexp2 0 1 2), (fV 0x44 1 2 0, .vlog2 0 1 2), (fV 0x45 1 2 0, .vsinpi 0 1 2),
  (fV 0x46 1 2 0, .vcospi 0 1 2), (fV 0x38 1 2 0x17, .vcvt 0 1 2 1 7), (fV 0x39 1 2 0x30, .vcvtpk 0 1 2 3 0),
  (fV 0x3A 1 2 0x03, .vcvtxp 0 1 2 0 3), (fV 0x3B 1 2 0x09, .vqblk 0 1 2 9), (fV 0x3C 1 2 0x0C, .vdqblk 0 1 2 12)] = true := by decide +kernel

theorem test_decode_vector_packed : decodes [
  (fV 0x20 1 2 3, .vaddBf16x2 0 1 2 3), (fV 0x21 1 2 3, .vmulBf16x2 0 1 2 3), (fV 0x22 1 2 3, .vfmaBf16x2 0 1 2 3),
  (fV 0x24 1 2 3, .vaddFp16x2 0 1 2 3), (fV 0x25 1 2 3, .vmulFp16x2 0 1 2 3), (fV 0x26 1 2 3, .vfmaFp16x2 0 1 2 3),
  (fV 0x28 1 2 3, .vaddE4m3x4 0 1 2 3), (fV 0x29 1 2 3, .vmulE4m3x4 0 1 2 3), (fV 0x2C 1 2 3, .vaddInt8x4 0 1 2 3),
  (fV 0x2D 1 2 3, .vsubInt8x4 0 1 2 3), (fV 0x2E 1 2 3, .vaddUint8x4 0 1 2 3), (fV 0x2F 1 2 3, .vsubUint8x4 0 1 2 3),
  (fV 0x30 1 2 3, .vdot2Bf16 0 1 2 3), (fV 0x31 1 2 3, .vdot2Fp16 0 1 2 3), (fV 0x32 1 2 3, .vdot4E4m3 0 1 2 3),
  (fV 0x33 1 2 3, .vdot4Int8 0 1 2 3)] = true := by decide +kernel

/-- Format SR, with the switch marker. -/
def fSR (sub d a b : Nat) : Word := word [(1, 1), (7, 0x60), (6, sub), (6, d), (6, a), (6, b)]

theorem test_decode_scalar : decodes [
  (fSR 0x00 1 2 3, .add 1 1 2 3), (fSR 0x01 1 2 3, .sub 1 1 2 3), (fSR 0x02 1 2 3, .mul 1 1 2 3), (fSR 0x03 1 2 3, .mulh 1 1 2 3),
  (fSR 0x04 1 2 3, .mulhu 1 1 2 3), (fSR 0x05 1 2 3, .and 1 1 2 3), (fSR 0x06 1 2 3, .or 1 1 2 3), (fSR 0x07 1 2 3, .xor 1 1 2 3),
  (fSR 0x08 1 2 3, .andn 1 1 2 3), (fSR 0x09 1 2 3, .shl 1 1 2 3), (fSR 0x0A 1 2 3, .shr 1 1 2 3), (fSR 0x0B 1 2 3, .sar 1 1 2 3),
  (fSR 0x0C 1 2 63, .shli 1 1 2 63), (fSR 0x0D 1 2 63, .shri 1 1 2 63), (fSR 0x0E 1 2 63, .sari 1 1 2 63),
  (fSR 0x0F 1 2 3, .slt 1 1 2 3), (fSR 0x10 1 2 3, .sltu 1 1 2 3), (fSR 0x11 1 2 3, .min 1 1 2 3), (fSR 0x12 1 2 3, .max 1 1 2 3),
  (fSR 0x13 1 2 3, .minu 1 1 2 3), (fSR 0x14 1 2 3, .maxu 1 1 2 3), (fSR 0x15 1 2 0, .popc 1 1 2), (fSR 0x16 1 2 0, .clz 1 1 2),
  (fSR 0x17 1 2 0, .ctz 1 1 2)] = true := by decide +kernel

/-- Format SI. -/
def fSI (op x a i : Nat) : Word := word [(1, 0), (7, op), (6, x), (6, a), (12, i)]
/-- Format G. -/
def fG (sub d a g : Nat) : Word := word [(1, 0), (7, 0x66), (4, sub), (6, d), (6, a), (8, g)]

theorem test_decode_immediate_group : decodes [
  (fSI 0x61 4 5 0xFFF, .addi 0 4 5 0xFFF), (fSI 0x62 4 5 6, .andi 0 4 5 6), (fSI 0x63 4 5 6, .ori 0 4 5 6),
  (fSI 0x64 4 5 6, .xori 0 4 5 6), (fSI 0x65 4 5 6, .slti 0 4 5 6), (fSI 0x67 4 5 6, .sltiu 0 4 5 6),
  (fSI 0x68 4 5 6, .sld 0 4 5 6), (fSI 0x69 4 5 6, .sst 0 4 5 6), (fG 0 7 0 200, .grd 0 7 200), (fG 1 0 8 200, .gwr 0 8 200),
  (fG 2 7 8 200, .gadd 0 7 8 200)] = true := by decide +kernel

/-- Formats B, BM and CX. -/
def fB (op a o : Nat) : Word := word [(1, 0), (7, op), (6, a), (18, o)]
def fBM (mk cond o : Nat) : Word := word [(1, 0), (7, 0x6E), (3, mk), (3, cond), (18, o)]
def fCX (sub x i : Nat) : Word := word [(1, 0), (7, 0x6F), (6, sub), (6, x), (12, i)]

theorem test_decode_control : decodes [
  (fB 0x6C 9 0x3FFFF, .bez 0 9 0x3FFFF), (fB 0x6D 9 2, .bnez 0 9 2), (fBM 0 0 2, .bra 0 2), (fBM 5 1 2, .bany 0 5 2),
  (fBM 5 2 2, .ball 0 5 2), (fBM 5 3 2, .bnone 0 5 2), (fBM 0 4 2, .call 0 2), (fCX 0 9 0x10, .jmpr 0 9 0x10),
  (fCX 1 9 0x10, .callr 0 9 0x10), (fCX 2 0 0, .ret 0), (fCX 3 0 0, .endWave 0), (fCX 4 0 0, .yield 0), (fCX 5 0 0x123, .trap 0 0x123),
  (fCX 6 0 0, .tret 0), (fCX 7 9 0x31, .srd 0 9 0x31), (fCX 8 9 0x31, .swr 0 9 0x31), (fCX 9 0 0, .fenceI 0)] = true := by decide +kernel

/-- Formats MV and MX. -/
def fMV (v vo sb sub : Nat) : Word := word [(1, 0), (7, 0x6A), (8, v), (8, vo), (5, sb), (3, sub)]
def fMX (sub x a b : Nat) : Word := word [(1, 0), (7, 0x6B), (4, sub), (8, x), (6, a), (6, b)]

theorem test_decode_memory : decodes [
  (fMV 1 2 3 0, .vldI8 0 1 2 3), (fMV 1 2 3 1, .vldZ8 0 1 2 3), (fMV 1 2 3 2, .vldI16 0 1 2 3), (fMV 1 2 3 3, .vldZ16 0 1 2 3),
  (fMV 1 2 3 4, .vld32 0 1 2 3), (fMV 1 2 3 5, .vst8 0 1 2 3), (fMV 1 2 3 6, .vst16 0 1 2 3), (fMV 1 2 31 7, .vst32 0 1 2 31),
  (fMX 0 200 9 0, .vldl 0 200 9), (fMX 1 200 9 0, .vstl 0 200 9), (fMX 2 200 9 0, .vldb 0 200 9), (fMX 3 200 9 0, .vstb 0 200 9),
  (fMX 4 200 9 10, .vstc 0 200 9 10), (fMX 5 4 0 0, .phase 0 4), (fMX 6 0 9 10, .barInit 0 9 10), (fMX 7 0 9 0, .barArrive 0 9),
  (fMX 8 0 9 10, .barWait 0 9 10), (fMX 9 3 9 0, .wsq 0 3 9)] = true := by decide +kernel

/-- Format AT. -/
def fAT (op ord scope v w x a : Nat) : Word :=
  word [(1, 0), (7, 0x7B), (4, op), (2, ord), (3, scope), (1, v), (1, w), (6, x), (6, a), (1, 0)]

theorem test_decode_atomic : decodes [
  (fAT 0 1 2 0 1 9 10, .aadd 0 1 2 0 1 9 10), (fAT 1 3 4 1 0 9 10, .aaddF32 0 3 4 1 9 10), (fAT 2 0 2 0 0 9 10, .aand 0 0 2 0 0 9 10),
  (fAT 3 0 2 0 0 9 10, .aor 0 0 2 0 0 9 10), (fAT 4 0 2 0 0 9 10, .axor 0 0 2 0 0 9 10), (fAT 5 0 2 0 0 9 10, .amin 0 0 2 0 0 9 10),
  (fAT 6 0 2 0 0 9 10, .amax 0 0 2 0 0 9 10), (fAT 7 0 2 0 0 9 10, .aminu 0 0 2 0 0 9 10), (fAT 8 0 2 0 0 9 10, .amaxu 0 0 2 0 0 9 10),
  (fAT 9 2 5 1 0 9 10, .axchg 0 2 5 1 0 9 10), (fAT 10 3 4 0 1 9 10, .acas 0 3 4 0 1 9 10)] = true := by decide +kernel

/-- Formats MC and MK. -/
def fMC (md cond a b : Nat) : Word := word [(1, 0), (7, 0x70), (3, md), (5, cond), (8, a), (8, b)]
def fMK (sub md ma mb s : Nat) : Word := word [(1, 0), (7, 0x71), (5, sub), (3, md), (3, ma), (3, mb), (6, s), (4, 0)]

theorem test_decode_mask : decodes [
  (fMC 3 0 1 2, .vcmpEqI32 0 3 1 2), (fMC 3 1 1 2, .vcmpNeI32 0 3 1 2), (fMC 3 2 1 2, .vcmpLtI32 0 3 1 2), (fMC 3 3 1 2, .vcmpLeI32 0 3 1 2),
  (fMC 3 4 1 2, .vcmpLtuI32 0 3 1 2), (fMC 3 5 1 2, .vcmpLeuI32 0 3 1 2), (fMC 3 8 1 2, .vcmpEqF32 0 3 1 2), (fMC 3 9 1 2, .vcmpNeF32 0 3 1 2),
  (fMC 3 10 1 2, .vcmpLtF32 0 3 1 2), (fMC 3 11 1 2, .vcmpLeF32 0 3 1 2), (fMC 3 12 1 2, .vcmpUnF32 0 3 1 2), (fMK 0 1 2 3 0, .mand 0 1 2 3),
  (fMK 1 1 2 3 0, .mor 0 1 2 3), (fMK 2 1 2 3 0, .mxor 0 1 2 3), (fMK 3 1 2 3 0, .mandn 0 1 2 3), (fMK 4 1 2 0 0, .mnot 0 1 2),
  (fMK 5 1 0 0 9, .mfroms 0 1 9), (fMK 6 0 2 0 9, .mtos 0 2 9), (fMK 7 0 2 0 9, .mpopc 0 2 9), (fMK 8 0 2 0 9, .mffs 0 2 9)] = true := by decide +kernel

/-- Formats XL and XS. -/
def fXL (d a mk sub : Nat) : Word := word [(1, 0), (7, 0x72), (8, d), (8, a), (3, mk), (5, sub)]
def fXS (sub v a b : Nat) : Word := word [(1, 0), (7, 0x73), (4, sub), (8, v), (6, a), (6, b)]

theorem test_decode_cross_lane : decodes [
  (fXL 1 2 5 0, .vshfl 0 1 2 5), (fXL 1 2 0 1, .vmatch 0 1 2), (fXL 1 2 0 2, .vmatchF 0 1 2), (fXL 1 2 0 3, .vreduceAddF32 0 1 2),
  (fXL 1 2 0 4, .vreduceAddI32 0 1 2), (fXL 1 2 0 5, .vreduceMinF32 0 1 2), (fXL 1 2 0 6, .vreduceMaxF32 0 1 2),
  (fXL 1 2 0 7, .vreduceMinI32 0 1 2), (fXL 1 2 0 8, .vreduceMaxI32 0 1 2), (fXL 1 2 0 9, .vscanAddF32 0 1 2),
  (fXL 1 2 0 10, .vscanAddI32 0 1 2), (fXS 0 200 9 0, .vmovs 0 200 9), (fXS 1 200 9 10, .vrdlane 0 200 9 10),
  (fXS 2 200 9 10, .vwrlane 0 200 9 10), (fXS 3 200 0 0, .vlaneid 0 200)] = true := by decide +kernel

/-- Formats MM, AC and EN. -/
def fMM (afmt bfmt acc z a : Nat) : Word := word [(1, 0), (7, 0x74), (4, afmt), (4, bfmt), (3, acc), (1, z), (6, a), (6, 0)]
def fAC (sub acc a b fmt : Nat) : Word := word [(1, 0), (7, 0x75), (4, sub), (3, acc), (6, a), (6, b), (4, fmt), (1, 0)]
def fEN (sub d a i : Nat) : Word := word [(1, 0), (7, 0x76), (4, sub), (6, d), (6, a), (8, i)]

theorem test_decode_engine : decodes [
  (fMM 1 9 5 1 8, .mma 0 1 9 5 1 8), (fAC 0 5 0 0 0, .accz 0 5), (fAC 1 5 8 9 0, .accld 0 5 8 9), (fAC 2 5 8 9 0, .accst 0 5 8 9),
  (fAC 3 5 8 9 3, .acccvt 0 5 8 9 3), (fAC 4 5 0 0 0, .mwait 0 5), (fEN 0 0 8 0, .copyk 0 8), (fEN 1 7 8 0, .cpq 0 7 8),
  (fEN 2 0 0 77, .publ 0 77)] = true := by decide +kernel

/-- Formats HR, HS and WK. -/
def fHR (sub hd ha hb ba : Nat) : Word := word [(1, 0), (7, 0x78), (5, sub), (4, hd), (4, ha), (4, hb), (1, ba), (6, 0)]
def fHS (sub ha hb x y : Nat) : Word := word [(1, 0), (7, 0x79), (4, sub), (4, ha), (4, hb), (6, x), (6, y)]
def fWK (sub d a b : Nat) : Word := word [(1, 0), (7, 0x7A), (4, sub), (6, d), (6, a), (6, b), (2, 0)]

theorem test_decode_hyper : decodes [
  (fHR 0 1 2 3 0, .hvxor 0 1 2 3), (fHR 1 1 2 0 0, .hvnot 0 1 2), (fHR 2 1 2 0 0, .hvmov 0 1 2), (fHR 3 0 2 0 1, .hvbund 0 2 1),
  (fHR 4 0 2 0 1, .hvbsub 0 2 1), (fHR 5 1 0 0 1, .hvmaj 0 1 1), (fHR 6 0 0 0 1, .hvbclr 0 1), (fHR 7 1 0 0 0, .hvgen 0 1),
  (fHS 0 1 2 0 9, .hvrot 0 1 2 9), (fHS 1 1 2 9 0, .hvdist 0 1 2 9), (fHS 2 0 0 0 9, .hvseed 0 9), (fHS 3 0 0 9 0, .hvrdtie 0 9),
  (fHS 4 1 0 0 9, .hvld 0 1 9), (fHS 5 1 0 0 9, .hvst 0 1 9), (fHS 6 1 0 8 9, .hvnear 0 1 8 9), (fHS 7 1 0 8 9, .hvbit 0 1 8 9)] = true := by decide +kernel

theorem test_decode_work : decodes [
  (fWK 0 7 8 9, .enq 0 7 8 9), (fWK 1 7 8 9, .sgfork 0 7 8 9), (fWK 2 7 8 0, .sgreward 0 7 8), (fWK 3 7 0 0, .sgwait 0 7),
  (fWK 4 0 8 0, .sgcancel 0 8), (fWK 5 7 8 0, .sgquery 0 7 8)] = true := by decide +kernel

/-- Formats SY and HN. -/
def fSY (sub x i : Nat) : Word := word [(1, 0), (7, 0x7C), (4, sub), (6, x), (12, i), (2, 0)]
def fHN (sub payload : Nat) : Word := word [(1, 0), (7, 0x7F), (4, sub), (20, payload)]

theorem test_decode_system : decodes [
  (fSY 0 9 0x10, .srdp 0 9 0x10), (fSY 1 9 0x20, .swrp 0 9 0x20), (fSY 2 0 0, .icinv 0), (fSY 3 9 0, .tlbinv 0 9), (fSY 4 9 0, .wkill 0 9),
  (fSY 5 9 0, .wresume 0 9), (fSY 6 9 0x1CB, .acrd 0 9 7 11), (fSY 7 0 0, .halt 0), (fHN 0 0x12345, .hintImm 0x12345),
  (fHN 1 0xFFFE0, .hintMod 1 3 1 1 1 1 255), (fHN 2 0xC0005, .ipref 0 3 5), (fHN 3 9, .hintSched 0 9)] = true := by decide +kernel

/-- Words of the spec's listings (06 R180; 07 R191; 08 R209, R213, R220, R222, R225; 09 R235, R239, R240, R244, R245, R246, R247,
R248; 11). -/
theorem test_decode_listings : decodes [
  (0x6F1C2040, .srd 0 2 0x040), (0x7F012346, .hintImm 0x12346), (0x610C0FFF, .addi 0 3 0 0xFFF), (0x690C2008, .sst 0 3 2 8),
  (0x6F0C0000, .endWave 0), (0x61142FFD, .addi 0 5 2 0xFFD), (0x7F11A1A0, .hintMod 0 0 1 1 0 1 13), (0x1B0A0B0C, .vfmaF32 0 10 11 12),
  (0xE8042010, .sld 1 1 2 0x10), (0x6D0FFFFB, .bnez 0 3 0x3FFFB), (0x7BAE0212, .acas 0 3 4 0 0 4 9)] = true ∧ decodes [
  (0x7F110000, .hintMod 0 0 1 0 0 0 0), (0x28050607, .vaddE4m3x4 0 5 6 7), (0x3B28080B, .vqblk 0 40 8 11), (0x71300030, .mtos 0 0 3),
  (0x73002080, .vmovs 0 2 2), (0x72141503, .vreduceAddF32 0 20 21), (0x72161509, .vscanAddF32 0 22 21), (0x6B4070C4, .vstc 0 7 3 4),
  (0x7B124404, .aaddF32 0 0 4 1 8 2), (0x7B968302, .axchg 0 1 5 0 0 6 1), (0x7B0E2212, .aadd 0 3 4 0 1 4 9)] = true ∧ decodes [
  (0x6B504000, .phase 0 4), (0x6B800187, .barWait 0 6 7), (0x76000500, .copyk 0 5), (0x76124500, .cpq 0 9 5), (0x76200002, .publ 0 2),
  (0x6B903100, .wsq 0 3 4), (0x79200002, .hvseed 0 2), (0x78300000, .hvbclr 0 0), (0x78180800, .hvbund 0 1 0),
  (0x78290000, .hvmaj 0 2 0), (0xF9620284, .hvnear 1 2 10 4), (0x793001C0, .hvrdtie 0 7)] = true := by decide +kernel

/-- Unassigned primaries and sub-codes, and fields that must be zero, are refused; so is a prefix with a switch marker (06 R157, R165,
R171, R172). -/
theorem test_decode_refused :
    [fV 0x00 0 0 1, fV 0x14 1 2 3, fV 0x17 0 0 0, fV 0x23 1 2 3, fV 0x47 1 2 0, fV 0x5F 0 0 0, fV 0x10 1 2 3, fV 0x40 1 2 1,
      fV 0x3B 1 2 0x18, fSR 0x18 1 2 3, fSR 0x15 1 2 3, fG 3 0 0 0, fG 0 1 1 0, fBM 1 0 2, fBM 0 5 2, fCX 2 1 0, fCX 10 0 0,
      fMX 5 8 0 0, fMX 10 0 0 0, fMX 9 64 9 0].all (fun w => (decode w).isNone) = true ∧
    [fAT 11 0 0 0 0 1 2, fAT 1 0 0 0 1 1 2, fAT 0 0 0 0 0 1 2 + 1#32, fMC 0 6 1 2, fMC 0 13 1 2, fMK 9 0 0 0 0, fMK 0 1 2 3 4,
      fXL 1 2 1 3, fXL 1 2 0 11, fXS 4 0 0 0, fXS 3 1 1 0, fMM 1 1 0 0 8 + 1#32, fAC 0 1 1 0 0, fAC 5 0 0 0 0, fEN 0 1 8 0, fEN 3 0 0 0,
      fHR 0 1 2 3 1, fHR 8 0 0 0 0, fHS 0 1 2 1 9, fHS 8 0 0 0 0, fWK 6 0 0 0, fWK 3 7 1 0, fSY 2 1 0, fSY 8 0 0, fHN 4 0,
      fHN 1 1, fHN 3 0x10, fHN 0 1 ||| 0x80000000#32, 0xFFFFFFFF#32].all (fun w => (decode w).isNone) = true := by decide +kernel

/-! ### Ill-formed instructions, one for each check of `Instr.wf` -/

theorem test_illformed_cvtPair : (Instr.vcvt 0 1 2 3 3).wf = false ∧ (Instr.vcvt 0 1 2 8 0).wf = false := by decide +kernel
theorem test_illformed_packPair : (Instr.vcvtpk 0 1 2 0 1).wf = false ∧ (Instr.vcvtpk 0 1 2 7 0).wf = false := by decide +kernel
theorem test_illformed_packRange : (Instr.vcvtpk 0 1 253 3 0).wf = false ∧ (Instr.vcvtpk 0 1 252 3 0).wf = true := by decide +kernel
theorem test_illformed_unpackPair : (Instr.vcvtxp 0 1 2 1 0).wf = false := by decide +kernel
theorem test_illformed_unpackRange : (Instr.vcvtxp 0 253 2 0 3).wf = false := by decide +kernel
theorem test_illformed_blockCode : (Instr.vqblk 0 1 2 7).wf = false ∧ (Instr.vdqblk 0 1 2 13).wf = false := by decide +kernel
theorem test_illformed_blockRange : (Instr.vqblk 0 1 253 8).wf = false ∧ (Instr.vdqblk 0 249 2 10).wf = false := by decide +kernel
theorem test_illformed_srReadable : (Instr.srd 0 1 0x009).wf = false ∧ (Instr.srd 0 1 0x043).wf = false := by decide +kernel
theorem test_illformed_srWritable : (Instr.swr 0 1 0x030).wf = false := by decide +kernel
theorem test_illformed_scopeCode : (Instr.phase 0 6).wf = false ∧ (Instr.aaddF32 0 0 7 0 1 2).wf = false := by decide +kernel
theorem test_illformed_atomicShape : (Instr.aadd 0 0 0 1 1 1 2).wf = false := by decide +kernel
theorem test_illformed_acasPair : (Instr.acas 0 0 0 0 0 63 2).wf = false := by decide +kernel
theorem test_illformed_mmaFormat : (Instr.mma 0 0 1 0 0 8).wf = false ∧ (Instr.acccvt 0 0 1 2 5).wf = false := by decide +kernel
theorem test_illformed_mmaRange : (Instr.mma 0 1 1 0 0 61).wf = false := by decide +kernel
theorem test_illformed_nearPair : (Instr.hvnear 0 1 63 2).wf = false := by decide +kernel

/-! ### One instruction on a small machine -/

/-- The boot machine of `State.boot`: one wave on core 0 with every register of its kinds. -/
def s0 : State := State.reset.boot
def w0 : Wave := { Wave.fresh 0 0 0 0 0 0 bootRole 0#64 [] with st := .ready }

theorem s0_wave : s0.waves[s0.cur]? = some w0 := rfl

/-- The boot machine with its wave changed. -/
def on (f : Wave → Wave) : State := s0.modWave 0 f

/-- Lane values of a register. -/
def lanes (l : List Nat) : VReg :=
  ⟨BitVec.ofNat 1024 ((l.map (fun x => bytesOfNat 4 x)).flatten.foldr (fun b a => b.toNat + 256 * a) 0), Side.none⟩

def Wave.withV (w : Wave) (n : Nat) (l : List Nat) : Wave := { w with vregs := w.vregs.set n (lanes l) }
def Wave.withS (w : Wave) (n : Nat) (v : DWord) : Wave := { w with sregs := w.sregs.set n v }
def Wave.withM (w : Wave) (n : Nat) (v : Word) : Wave := { w with masks := w.masks.set n v }

/-- What a property says of the wave after one instruction. -/
def gives (s : State) (i : Instr) (p : Wave → Bool) : Bool := match exec i s with
  | .next t => match t.waves[0]? with
    | some w => p w
    | none => false
  | _ => false

/-- A scalar form on s2 and s3 leaves a value in s1. -/
def scalar (i : Instr) (x y r : Nat) : Bool :=
  gives (on (fun w => Wave.withS (Wave.withS w 2 (BitVec.ofNat 64 x)) 3 (BitVec.ofNat 64 y))) i (fun w => w.s 1 == BitVec.ofNat 64 r)

/-- By hand from 07 R183. -/
theorem test_scalar_results :
    scalar (.add 0 1 2 3) (2 ^ 64 - 1) 2 1 && scalar (.sub 0 1 2 3) 0 1 (2 ^ 64 - 1) && scalar (.mul 0 1 2 3) (2 ^ 63) 3 (2 ^ 63) &&
    scalar (.mulh 0 1 2 3) (2 ^ 64 - 1) 2 (2 ^ 64 - 1) && scalar (.mulhu 0 1 2 3) (2 ^ 64 - 1) 2 1 && scalar (.andn 0 1 2 3) 7 5 2 &&
    scalar (.shl 0 1 2 3) 1 65 2 && scalar (.shr 0 1 2 3) (2 ^ 63) 63 1 && scalar (.sar 0 1 2 3) (2 ^ 63) 63 (2 ^ 64 - 1) &&
    scalar (.sari 0 1 2 63) (2 ^ 63) 0 (2 ^ 64 - 1) && scalar (.slt 0 1 2 3) (2 ^ 64 - 1) 0 1 && scalar (.sltu 0 1 2 3) (2 ^ 64 - 1) 0 0 &&
    scalar (.min 0 1 2 3) (2 ^ 64 - 1) 0 (2 ^ 64 - 1) && scalar (.minu 0 1 2 3) (2 ^ 64 - 1) 0 0 && scalar (.popc 0 1 2) 0xFF 0 8 &&
    scalar (.clz 0 1 2) 0 0 64 && scalar (.clz 0 1 2) 1 0 63 && scalar (.ctz 0 1 2) 0 0 64 && scalar (.ctz 0 1 2) 8 0 3 = true := by decide +kernel

/-- 06 R180: LI s3, 0x12345FFF is HINT.IMM 0x12346 and ADDI with 0xFFF. -/
theorem test_long_immediate : gives (on (fun w => { w with pfx := some ⟨bootPc, some 0x12346#20, none⟩, pc := bootPc + 4#64 }))
    (.addi 0 3 0 0xFFF) (fun w => w.s 3 == 0x12345FFF#64 && w.pfx == none && w.pc == bootPc + 8#64) = true := by decide +kernel

/-- 07 R189: the table of mask branches, one row for each mask pair; taken is PC + 32. -/
theorem test_mask_branches :
    let row (m0 m2 : Word) (a b c : Bool) : Bool :=
      let s := on (fun w => Wave.withM (Wave.withM w 0 m0) 2 m2)
      let t (i : Instr) (taken : Bool) : Bool := gives s i (fun w => w.pc == bootPc + (if taken then 32#64 else 4#64))
      t (.bany 0 2 8) a && t (.ball 0 2 8) b && t (.bnone 0 2 8) c
    row 0xFF 0xF0F true false false && row 0xFF 0xFFFFFF00 false false true && row 0xFF 0x1FF true true false &&
      row 0 0xFFFFFFFF false true true = true := by decide +kernel

/-- 07 R190: CALLR s63, 0 jumps to the old s63 and links to its own successor. -/
theorem test_callr_link : gives (on (fun w => Wave.withS w 63 0x100#64)) (.callr 0 63 0)
    (fun w => w.pc == 0x100#64 && w.s 63 == bootPc + 4#64) = true := by decide +kernel

/-- 08 R209: VADD.E4M3X4.SAT v5, v6, v7 with m0 = 1, and without .SAT. NX is bit 0, OF bit 2 and SA bit 5 (01 R28). -/
theorem test_vadd_e4m3 :
    let s (p : Option Pfx) : State := on (fun w => { Wave.withM (Wave.withV (Wave.withV w 6 [0x087F7E3C]) 7 [0x80387838]) 0 1 with pfx := p })
    gives (s (some ⟨bootPc, none, some 0x10000#20⟩)) (.vaddE4m3x4 0 5 6 7) (fun w => w.v 5 0 == 0x087F7E42 && w.v 5 1 == 0 && w.fpflags == 0x21) &&
    gives (s none) (.vaddE4m3x4 0 5 6 7) (fun w => w.v 5 0 == 0x087F7F42 && w.fpflags == 0x05) = true := by decide +kernel

/-- 01 R25: conversions at the edge of overflow, FP32 sources: 464, 1000 with RTZ, 61440, and +Inf with .SAT. -/
theorem test_convert_overflow :
    let cvt (d : Nat) (m : BitVec 20) (x r : Nat) (f : Flags) : Bool :=
      gives (on (fun w => { Wave.withV w 2 [x] with pfx := some ⟨bootPc, none, some m⟩ })) (.vcvt 0 1 2 (BitVec.ofNat 4 d) 0)
        (fun w => w.v 1 0 == BitVec.ofNat 32 r && (w.fpflags == f))
    cvt 3 0 0x43E80000 0x7E 0x01 && cvt 3 0xA0000 0x447A0000 0x7E 0x05 && cvt 4 0 0x47700000 0x7C 0x05 &&
    cvt 4 0x10000 0x47700000 0x7B 0x21 && cvt 3 0 0x7F800000 0x7F 0x00 && cvt 3 0x10000 0x7F800000 0x7E 0x20 = true := by decide +kernel

/-- 08 R218: one DX8 line quantised; the side-band bytes are 0x80 and 0x7B. -/
theorem test_vqblk : gives (on (fun w => Wave.withV w 8 [0x40400000, 0xBDCCCCCD, 0x3C000000, 0x3F800000])) (.vqblk 0 40 8 11)
    (fun w => w.v 40 0 == 0x1084F330 && w.v 40 1 == 0x80808080 && w.v 40 31 == 0x80808080 &&
      (w.vreg 40).side == ⟨0x7B80#128, some 11⟩ && w.fpflags == 0x01) = true := by decide +kernel

/-- 08 R219: the line decoded. -/
theorem test_vdqblk : gives (on (fun w => { w with
      vregs := w.vregs.set 40 ⟨(lanes (0x1084F330 :: List.replicate 31 0x80808080)).data, ⟨0x7B80#128, some 11⟩⟩ })) (.vdqblk 0 12 40 11)
    (fun w => w.v 12 0 == 0x40400000 && w.v 12 1 == 0xBDCC0000 && w.v 12 2 == 0x3C000000 && w.v 12 3 == 0x3F800000 && w.v 12 4 == 0 &&
      w.v 15 31 == 0 && w.fpflags == 0) = true := by decide +kernel

/-- 08 R223: a rotation within a membership set. -/
theorem test_vshfl : gives (on (fun w => Wave.withM (Wave.withM (Wave.withV (Wave.withV w 1 [1, 2, 3, 0, 77]) 2 [10, 11, 12, 13]) 0 0xF) 2 7))
    (.vshfl 0 1 2 2) (fun w => [w.v 1 0, w.v 1 1, w.v 1 2, w.v 1 3, w.v 1 4] == [11, 12, 12, 10, 77]) = true := by decide +kernel

/-- 08 R224: bit-pattern and numeric matching. -/
theorem test_vmatch :
    let s := on (fun w => Wave.withM (Wave.withV w 2 [0x80000000, 0, 0x7FC00001, 0x7FC00001, 0]) 0 0xF)
    gives s (.vmatch 0 1 2) (fun w => [w.v 1 0, w.v 1 1, w.v 1 2, w.v 1 3, w.v 1 4] == [1, 2, 12, 12, 0]) &&
    gives s (.vmatchF 0 1 2) (fun w => [w.v 1 0, w.v 1 1, w.v 1 2, w.v 1 3, w.v 1 4] == [3, 3, 4, 8, 0]) = true := by decide +kernel

/-- 08 R225: the order of a lane sum, and its scan. -/
theorem test_lane_sum :
    let s := on (fun w => Wave.withM (Wave.withV w 21 [0x3F800000, 0x33800000, 0x33800000, 0xBF800000]) 0 0xF)
    gives s (.vreduceAddF32 0 20 21) (fun w => w.v 20 0 == 0 && w.v 20 3 == 0 && w.fpflags == 1) &&
    gives s (.vscanAddF32 0 22 21) (fun w => [w.v 22 0, w.v 22 1, w.v 22 2, w.v 22 3] == [0x3F800000, 0x3F800000, 0x3F800000, 0] &&
      w.fpflags == 1) = true := by decide +kernel

/-- 08 R222: clamping under a mask: with lanes 0.0 to 31.0 in v1, VCMP.LT.F32 m0, v2, v1 keeps the lanes above 8.0. -/
theorem test_vcmp_lt : gives (on (fun w => Wave.withV (Wave.withV w 1 [0, 0x3F800000, 0x41000000, 0x41100000]) 2 (List.replicate 32 0x41000000)))
    (.vcmpLtF32 0 0 2 1) (fun w => w.m 0 == 8) = true := by decide +kernel

/-- 09 R235: the queue that fills. The pointer lies at scratchpad 0x40; six lanes are active, four of them store. -/
theorem test_vstc :
    let s := (on (fun w => Wave.withM (Wave.withS (Wave.withS (Wave.withV w 7 [10, 11, 12, 13, 14, 15, 16, 17]) 3 0xFF00000000000040) 4
      0xFF00000000000310) 0 0xF5)).modGroup 0 (fun g => { g with scratch := g.scratch.write 0x40 (bytesOfNat 8 0xFF00000000000300) })
    (match exec (.vstc 0 7 3 4) s with
      | .next t => (t.groups[0]?).map (fun g => g.scratch.quad 0x40) == some 0xFF00000000000318 &&
        (t.waves[0]?).map (fun w => w.pend.map (fun p => (p.place, p.bytes.take 1))) ==
          some [(.scratch 0x300, [some 10]), (.scratch 0x304, [some 12]), (.scratch 0x308, [some 14]), (.scratch 0x30C, [some 15])]
      | _ => false) = true := by decide +kernel

/-- 04 R124: one phase with an overrun, through the quadwords of the object. -/
theorem test_barrier_object :
    let b0 := Barrier.ofQuads 0x200000000 8
    let b1 := b0.arrive.1
    let b2 := b1.land 8
    let b3 := b2.arrive.1
    let b4 := b3.land 12
    [b1.q0, b1.q1, b2.q0, b2.q1, b3.q0, b3.q1, b4.q0, b4.q1] = [0x200200000000, 8, 0x200200000000, 0x800000008, 0x200000001, 8,
      0x8000000200000001, 0x800000008] := by decide +kernel

/-- 11 R267: the generator from the seed 3. -/
theorem test_generator : tieStep 3 = 0xC18660C3 ∧ tieStep 0xC18660C3 = 0x3000C30A14013CC2 := by decide +kernel

/-- 11 R269: bundling at the bounds of a counter. -/
theorem test_bundle_saturates :
    bundle 1 0#8192 (BitVec.ofNat 65536 0x80) 1 = BitVec.ofNat 65536 0x81 ∧ bundle 1 1#8192 (BitVec.ofNat 65536 0x7F) 1 =
      BitVec.ofNat 65536 0x7F := by decide +kernel

/-- 11 R270: the majority of the example, its first four counters. -/
theorem test_majority : (majority (BitVec.ofNat 65536 0x00020002) 3 4).1.extractLsb' 0 4 = 7#4 ∧
    (majority (BitVec.ofNat 65536 0x00020002) 3 4).2 = 0x3000C30A14013CC2 := by decide +kernel

/-- 09 R239: a float sum in lane order: 1.0 and 2^-24 give 1.0. -/
theorem test_atomic_float : atomResult .addF32 false 0x3F800000 ⟨0, 0, .scratch 0, 0x33800000, 0⟩ = 0x3F800000 := by decide +kernel

/-- 09 R248: WSQ of bank group 7 at position 3600. -/
theorem test_wsq_word : wsqWord 7 3600 = 0x9FF0003000070E10 := by decide +kernel

/-- 02 R42: an HBM address of quadrant 2 decodes to it. -/
theorem test_hbm_quadrant : paKind 0x005234567880 = .hbm 2 := by decide +kernel

/-- 06 R160: SRD of SR_SCRWIN. -/
theorem test_srd_scrwin : gives s0 (.srd 0 2 0x040) (fun w => w.s 2 == 0xFF00000000000000) = true := by decide +kernel

/-- 07 R194, 14 R334: TRAP 5 enters the handler at TRAPVEC with m0 saved. -/
theorem test_trap_entry : gives (on (fun w => Wave.withM w 0 0xF)) (.trap 0 5) (fun w => w.pc == bootPc + 0x800#64 && w.handler &&
    w.trapCause == causeTrapInsn && w.trapAddr == 5#64 && w.trapPc == bootPc + 4#64 && w.frame.sm0 == 0xF#32 && w.m 0 == 0xFFFFFFFF#32)
    = true := by decide +kernel

/-- 14 R338: TRET restores m0 and s60 and leaves handler mode. -/
theorem test_tret : gives (on (fun w => { w with handler := true, trapPc := 0x40#64, frame := { w.frame with sm0 := 0xF#32, s60 := 9#64 } }))
    (.tret 0) (fun w => w.pc == 0x40#64 && !w.handler && w.m 0 == 0xF#32 && w.s 60 == 9#64) = true := by decide +kernel

/-- 07 R185: GADD returns what the register held. -/
theorem test_gadd : gives ((on (fun w => Wave.withS w 5 1)).modGroup 0 (fun g => g.setGreg 1 3)) (.gadd 0 6 5 1)
    (fun w => w.outs == [.s 6 3]) = true := by decide +kernel

/-- 09 R240: PHASE.DEV counts one release and one acquire. -/
theorem test_phase_counts : gives s0 (.phase 0 4) (fun w => w.acqCnt == 1 && w.relCnt == 1 && w.pc == bootPc + 4#64) = true := by decide +kernel

/-- 09 R235 and 05 R131: SST leaves its bytes pending, lowest address first. -/
theorem test_sst_pends : gives (on (fun w => Wave.withS (Wave.withS w 2 0xFF00000000000000) 3 0x12345FFF)) (.sst 0 3 2 8)
    (fun w => w.pend.map (fun p => (p.place, p.bytes)) ==
      [(.scratch 8, [some 0xFF, some 0x5F, some 0x34, some 0x12, some 0, some 0, some 0, some 0])]) = true := by decide +kernel

/-! ### Witnesses: states and operands that meet the hypotheses of the statements

A hypothesis `Gives` is met where `ready` holds (`ready_Ready`); the other hypotheses are written beside it, with `isOk` for "answers
some value". -/

def ready (s : State) (w : Wave) (i : Instr) : Bool := match issueForm i with
  | some f => (s.refuses w i f).isNone && (s.badSource s.cur w f).isNone
  | none => false

/-- Does the wave 0 of a state satisfy `p`? -/
def wave0 (s : State) (p : Wave → Bool) : Bool := match s.waves[0]? with
  | some w => p w
  | none => false

theorem ready_Ready {s : State} {w : Wave} {i : Instr} (hw : s.waves[s.cur]? = some w) (h : ready s w i = true) : s.Ready w i := by
  refine ⟨hw, ?_⟩
  unfold ready at h
  split at h
  · simp_all
  · cases h

def calm (s : State) (w : Wave) : Bool := decide (s.poison = [] ∧ s.bad = []) && match s.ctxs[w.ctx]? with
  | some c => decide (c.glintMode = 0)
  | none => false

theorem calm_Calm {s : State} {w : Wave} (h : calm s w = true) : s.Calm w := by
  unfold calm at h
  simp only [Bool.and_eq_true, decide_eq_true_eq] at h
  refine ⟨h.1.1, h.1.2, ?_⟩
  have := h.2
  split at this
  · exact ⟨_, by assumption, by simpa using this⟩
  · cases this

def isOk {α β : Type} (x : Except α β) : Bool := match x with
  | .ok _ => true
  | .error _ => false

/-- The wave of `s` is there, the word is ready, and `p` holds of the wave. -/
def met (s : State) (i : Instr) (p : Wave → Bool) : Bool := match s.waves[s.cur]? with
  | some w => ready s w i && p w
  | none => false

theorem met_parts {s : State} {i : Instr} {p : Wave → Bool} (h : met s i p = true) :
    ∃ w, s.waves[s.cur]? = some w ∧ s.Ready w i ∧ p w = true := by
  unfold met at h
  split at h
  · rename_i w hw
    exact ⟨w, hw, ready_Ready hw (by simp_all), by simp_all⟩
  · cases h

/-- ScalarRegisterResults, ScalarImmediateResults, ScalarFrame: the words are ready; unassigned sub-codes exist. -/
theorem witness_scalar :
    (∀ i, i ∈ [Instr.add 0 1 2 3, .sub 0 1 2 3, .mul 0 1 2 3, .mulh 0 1 2 3, .mulhu 0 1 2 3, .and 0 1 2 3, .or 0 1 2 3, .xor 0 1 2 3,
      .andn 0 1 2 3, .shl 0 1 2 3, .shr 0 1 2 3, .sar 0 1 2 3, .shli 0 1 2 3, .shri 0 1 2 3, .sari 0 1 2 3, .slt 0 1 2 3,
      .sltu 0 1 2 3, .min 0 1 2 3, .max 0 1 2 3, .minu 0 1 2 3, .maxu 0 1 2 3, .popc 0 1 2, .clz 0 1 2, .ctz 0 1 2] → ready s0 w0 i = true) ∧
    (∀ i, i ∈ [Instr.addi 0 1 2 3, .andi 0 1 2 3, .ori 0 1 2 3, .xori 0 1 2 3, .slti 0 1 2 3, .sltiu 0 1 2 3, .bez 0 1 3, .bnez 0 1 3,
      .bra 0 3, .bany 0 1 3, .ball 0 1 3, .bnone 0 1 3, .call 0 3, .srd 0 1 0, .hintSched 0 3, .mand 0 1 2 3, .mor 0 1 2 3, .mxor 0 1 2 3,
      .mandn 0 1 2 3, .mnot 0 1 2, .mfroms 0 1 2, .mtos 0 1 2, .mpopc 0 1 2, .mffs 0 1 2] → ready s0 w0 i = true) ∧
    (0x18 ≤ (0x18#6).toNat ∧ 0x15 ≤ (0x15#6).toNat ∧ (1#6 : BitVec 6) ≠ 0#6) := by decide +kernel

/-- ImmediateValue: a group with and without HINT.IMM, and no group. -/
theorem witness_immediate : ({ w0 with pfx := some ⟨0, some 5#20, none⟩ } : Wave).pfx = some ⟨0, some 5#20, none⟩ ∧
    ({ w0 with pfx := some ⟨0, none, some 0#20⟩ } : Wave).pfx = some ⟨0, none, some 0#20⟩ ∧ w0.pfx = none ∧
    ({ w0 with pfx := some ⟨0, some (BitVec.ofNat 20 ((0x12345FFF + 0x800) / 2 ^ 12)), none⟩ } : Wave).pfx =
      some ⟨0, some (BitVec.ofNat 20 (((0x12345FFF#32).toNat + 0x800) / 2 ^ 12)), none⟩ := by decide

/-- ScalarAndMaskRegisters. -/
theorem witness_registers : w0.sregs.length = 64 ∧ w0.masks.length = 8 := by decide

/-- BranchResults: the conditions that are no instruction. -/
theorem witness_branch : 5 ≤ (5#3).toNat ∧ ((0#3 : BitVec 3) = 0#3 ∧ (1#3 : BitVec 3) ≠ 0#3) := by decide

/-- JumpResults: an aligned and a misaligned target for each form. -/
theorem witness_jump :
    (∀ i, i ∈ [Instr.jmpr 0 1 4, .callr 0 1 4, .ret 0] → ready s0 w0 i = true) ∧ (w0.s 1 + w0.immValue 4).toNat % 4 = 0 ∧
    (w0.s 63).toNat % 4 = 0 ∧ (∀ i, i ∈ [Instr.jmpr 0 1 2, .callr 0 1 2] → ready s0 w0 i = true) ∧ (w0.s 1 + w0.immValue 2).toNat % 4 ≠ 0 ∧
    met (on (fun w => Wave.withS w 63 2)) (.ret 0) (fun w => decide ((w.s 63).toNat % 4 ≠ 0)) = true := by decide +kernel

/-- GroupRegisterResults, SpecialRegisterResults, SchedulingResults, PrefixResults. -/
theorem witness_group_special :
    (s0.groups[w0.group]?).isSome ∧ (s0.ctxs[w0.ctx]?).isSome ∧ (s0.cores[w0.core]?).isSome ∧ s0.waves[s0.cur]? = some w0 ∧ w0.pfx = none ∧
    (∀ i, i ∈ [Instr.grd 0 1 200, .gwr 0 1 200, .gadd 0 1 2 200, .srd 0 1 0x30, .swr 0 1 0x21, .swr 0 1 0x22, .swr 0 1 0x31, .yield 0, .fenceI 0,
      .hintSched 0 0, .hintSched 0 15, .ipref 0 3 0] → ready s0 w0 i = true) := by
  refine ⟨rfl, rfl, rfl, rfl, rfl, ?_⟩
  decide +kernel

/-- LaneRule: no lane and some lane active. -/
theorem witness_lanes : 5 < w0.vregs.length ∧ w0.m 0 ≠ 0#32 ∧ (Wave.withM w0 0 0).m 0 = 0#32 ∧ 5 < (Wave.withM w0 0 0).vregs.length := by
  decide +kernel

/-- VectorIntegerResults, VectorFloatResults, VectorPackedResults, VectorConversionResults, CompareResults, MaskResults,
CrossLaneResults, VectorFrame. -/
theorem witness_vector :
    (∀ i, i ∈ [Instr.vaddI32 0 1 2 3, .vsubI32 0 1 2 3, .vmulI32 0 1 2 3, .vmulhI32 0 1 2 3, .vmulhuI32 0 1 2 3, .vminI32 0 1 2 3,
      .vmaxI32 0 1 2 3, .vminuI32 0 1 2 3, .vmaxuI32 0 1 2 3, .vand 0 1 2 3, .vor 0 1 2 3, .vxor 0 1 2 3, .vshl 0 1 2 3, .vshr 0 1 2 3,
      .vsar 0 1 2 3, .vmov 0 1 2, .vpopc 0 1 2, .vclz 0 1 2, .vsel 0 1 2 3, .vaddF32 0 1 2 3, .vsubF32 0 1 2 3, .vmulF32 0 1 2 3,
      .vfmaF32 0 1 2 3, .vminF32 0 1 2 3, .vmaxF32 0 1 2 3, .vabsF32 0 1 2, .vnegF32 0 1 2, .vaddBf16x2 0 1 2 3, .vmulBf16x2 0 1 2 3,
      .vfmaBf16x2 0 1 2 3, .vaddFp16x2 0 1 2 3, .vmulFp16x2 0 1 2 3, .vfmaFp16x2 0 1 2 3] → ready s0 w0 i = true) ∧
    (∀ i, i ∈ [Instr.vaddE4m3x4 0 1 2 3, .vmulE4m3x4 0 1 2 3, .vaddInt8x4 0 1 2 3, .vsubInt8x4 0 1 2 3, .vaddUint8x4 0 1 2 3,
      .vsubUint8x4 0 1 2 3, .vdot2Bf16 0 1 2 3, .vdot2Fp16 0 1 2 3, .vdot4E4m3 0 1 2 3, .vdot4Int8 0 1 2 3, .vcvt 0 1 2 1 7,
      .vcvtpk 0 1 2 3 0, .vcvtxp 0 1 2 0 3, .vqblk 0 1 2 9, .vdqblk 0 1 2 9, .vrcp 0 1 2, .vrsq 0 1 2, .vsqrt 0 1 2, .vexp2 0 1 2,
      .vlog2 0 1 2, .vsinpi 0 1 2, .vcospi 0 1 2] → ready s0 w0 i = true) ∧
    (∀ i, i ∈ [Instr.vcmpEqI32 0 1 2 3, .vcmpNeI32 0 1 2 3, .vcmpLtI32 0 1 2 3, .vcmpLeI32 0 1 2 3, .vcmpLtuI32 0 1 2 3, .vcmpLeuI32 0 1 2 3,
      .vcmpEqF32 0 1 2 3, .vcmpNeF32 0 1 2 3, .vcmpLtF32 0 1 2 3, .vcmpLeF32 0 1 2 3, .vcmpUnF32 0 1 2 3, .vshfl 0 1 2 3, .vmatch 0 1 2,
      .vmatchF 0 1 2, .vreduceAddF32 0 1 2, .vreduceAddI32 0 1 2, .vreduceMinF32 0 1 2, .vreduceMaxF32 0 1 2, .vreduceMinI32 0 1 2,
      .vreduceMaxI32 0 1 2, .vscanAddF32 0 1 2, .vscanAddI32 0 1 2, .vmovs 0 1 2, .vrdlane 0 1 2 3, .vwrlane 0 1 2 3, .vlaneid 0 1]
      → ready s0 w0 i = true) ∧
    met (on (fun w => Wave.withM w 0 0)) (.vqblk 0 1 2 9) (fun w => w.m 0 == 0#32) = true ∧
    (9 ≤ (9#5).toNat ∧ (1 : BitVec 4) ≠ 0#4 ∧ (4#5).toNat ≤ 4) ∧ w0.active 31 = true ∧ (255#8).toNat < w0.vregs.length := by decide +kernel

/-- HyperResults, and AccumulatorRules at the last counter: a counter above, below and at 0. -/
theorem witness_hyper :
    (∀ i, i ∈ [Instr.hvxor 0 1 2 3, .hvnot 0 1 2, .hvmov 0 1 2, .hvbund 0 1 1, .hvbsub 0 1 1, .hvmaj 0 1 1, .hvbclr 0 1, .hvgen 0 1,
      .hvrot 0 1 2 3, .hvdist 0 1 2 3, .hvseed 0 1, .hvrdtie 0 1, .hvbit 0 1 2 3] → ready s0 w0 i = true) ∧
    (let c (b : Bundle) : Int := (b.extractLsb' (8 * 8191) 8).toInt
     0 < c (1#65536 <<< 65528) ∧ c (0xFF#65536 <<< 65528) < 0 ∧ c 0 = 0) := by decide +kernel

/-- LoadResults: a quadword, a gather, a line and a hyper load, with X = 0 too. -/
theorem witness_load :
    let s := on (fun w => Wave.withS w 1 bootPc)
    met s (.sld 0 2 1 8) (fun w => calm s w && isOk (s.checkAccess w .rd false 8 (w.s 1 + w.immValue 8) 8)) = true ∧
    met s (.sld 0 0 1 8) (fun w => decide ((w.s 1 + w.immValue 8).toNat % 8 = 0)) = true ∧
    (∀ p, p ∈ [(Instr.vldI8 0 1 2 1, 1), (.vldZ8 0 1 2 1, 1), (.vldI16 0 1 2 1, 2), (.vldZ16 0 1 2 1, 2), (.vld32 0 1 2 1, 4)] →
      met s p.1 (fun w => isOk (checkLanes (fun e => s.checkAccess w .rd false p.2 e p.2) (w.gatherAddrs 1 2))) = true) ∧
    (∀ i, i ∈ [Instr.vldl 0 1 1, .vldb 0 1 1] → met s i (fun w => isOk (s.linePlaces w .rd (w.s 1))) = true) ∧
    met s (.hvld 0 1 1) (fun w => isOk (s.hyperPlaces w .rd (w.s 1))) = true := by decide +kernel

/-- StoreResults: the scratchpad through its window; the block stores also with no lane active. -/
theorem witness_store :
    let s := on (fun w => Wave.withS (Wave.withS w 1 0xFF00000000000000) 3 0x100000000)
    let t := on (fun w => Wave.withM (Wave.withS w 1 0xFF00000000000000) 0 0)
    met s (.sst 0 2 1 8) (fun w => calm s w && isOk (s.checkAccess w .wr false 8 (w.s 1 + w.immValue 8) 8)) = true ∧
    (∀ p, p ∈ [(Instr.vst8 0 1 2 1, 1), (.vst16 0 1 2 1, 2), (.vst32 0 1 2 1, 4)] →
      met s p.1 (fun w => isOk (checkLanes (fun z => s.checkAccess w .wr false p.2 z p.2) (w.gatherAddrs 1 2))) = true) ∧
    (∀ i, i ∈ [Instr.vstl 0 1 1, .vstb 0 1 1] → met s i (fun w => match s.linePlaces w .wr (w.s 1) with
      | .ok (_ :: _) => true
      | _ => false) = true) ∧
    (∀ i, i ∈ [Instr.vstl 0 1 1, .vstb 0 1 1] → met t i (fun w => match t.linePlaces w .wr (w.s 1) with
      | .ok [] => true
      | _ => false) = true) ∧
    met s (.hvst 0 1 1) (fun w => isOk (s.hyperPlaces w .wr (w.s 1))) = true ∧
    met s (.accst 0 1 1 3) (fun w => isOk (s.accCheck w false .wr (w.s 1) (w.s 3) 512)) = true ∧
    met s (.acccvt 0 1 1 3 3) (fun w => isOk (s.accCheck w true .wr (w.s 1) (w.s 3) (cvtBytes 3))) = true := by decide +kernel

/-- StoreResults, VSTC: with no lane, and through its atomic and its stores. -/
theorem witness_vstc :
    let t := on (fun w => Wave.withM (Wave.withS w 1 0xFF00000000000000) 0 0)
    let s := (on (fun w => Wave.withS (Wave.withS w 1 0xFF00000000000000) 3 0xFF00000000000310)).modGroup 0 (fun g => { g with
      scratch := g.scratch.write 0 (bytesOfNat 8 0xFF00000000000300) })
    met t (.vstc 0 2 1 3) (fun w => decide ((w.s 1).toNat % 8 = 0 ∧ w.m 0 = 0#32)) = true ∧
    met s (.vstc 0 2 1 3) (fun w => decide (w.m 0 ≠ 0#32) && match s.checkAccess w .wr true 8 (w.s 1) 8 with
      | .ok p =>
        let r := s.performNow s.cur ⟨.add, true, 4, false, w.pc, .none, []⟩ ⟨0, w.s 1, p, BitVec.ofNat 64 (4 * w.activeLanes.length), 0#64⟩
        match r.2.waves[s.cur]? with
        | some w2 => calm r.2 w2 && isOk (checkLanes (fun z => r.2.checkAccess w2 .wr false 4 z 4)
            (vstcElems w.activeLanes (r.1 &&& 0xFFFFFFFFFFFFFFFC#64) (w.s 3)))
        | none => false
      | .error _ => false) = true := by decide +kernel

/-- PendingStoresAreNotVisible, LoadSeesOwnStore: places that are not the register window. -/
theorem witness_pending : s0.waves[s0.cur]? = some w0 ∧ w0.atoms = [] ∧ Place.scratch 8 ≠ .reg 8 ∧ Place.phys 0x20000 false ≠ .reg 8 := by
  refine ⟨rfl, rfl, ?_⟩
  decide

/-- ReleasedStoreWrites: a wave that waits for the release of two stores, and of one; to memory, and to a peer that is not UP. -/
theorem witness_released : ∀ pa, pa ∈ [0x20000, 0x100000000000] → ∀ n, n ∈ [1, 2] →
    let p : PStore := ⟨bootPc, .phys pa false, [some 1, none, some 3], none, []⟩
    let s := on (fun w => { w with st := .wait (.release 4 (.phase 4)), pend := List.replicate n p })
    s.mem.wf = true ∧ wave0 s (fun w => decide (w.st = .wait (.release 4 (.phase 4)) ∧ w.pend.length = n ∧ w.pend[0]? = some p) && w.mayRelease 0)
      = true ∧ p.bytes[0]? = some (some 1) ∧ p.bytes[1]? = some none ∧
    (pa = 0x20000 → paKind pa = .hbm 0) ∧ (pa ≠ 0x20000 → paKind pa = .peer 0 ∧ s.peerUp 0 = false) := by decide +kernel

/-- AtomicResults, PhaseResults, BarrierWordResults, WorkWordResults, SystemWordResults: at a releasing boundary whose last store has
entered, whatever follows it; the object of an arrival is not lost. -/
theorem witness_entered (scope : Nat) (c : Cont) :
    (on (fun w => { w with st := .wait (.release scope c), pend := [] })).AllEntered s0.cur scope c ∧ s0.bad.contains (.groupPool 0 2) = false :=
  ⟨⟨_, rfl, rfl, rfl⟩, rfl⟩

/-- The same words with a store pending. -/
theorem witness_releasing :
    let p : PStore := ⟨bootPc, .phys 0x20000 false, [some 1], none, []⟩
    let s := on (fun w => { Wave.withS (Wave.withS w 1 0xFF00000000000000) 3 0x100 with pend := [p] })
    (∀ i, i ∈ [Instr.phase 0 5, .endWave 0] → met s i (fun w => !w.pend.isEmpty && w.outs.isEmpty && w.atoms.isEmpty) = true) ∧
    met s (.aadd 0 0 4 0 1 2 1) (fun w => !w.pend.isEmpty && isOk (s.atomAccesses w false true 2 1)) = true ∧
    met s (.barArrive 0 3) (fun w => !w.pend.isEmpty && (s.barrierAt w causeXlateWr (w.s 3) matches .ok 0x100)) = true ∧
    met s (.barWait 0 3 4) (fun w => !w.pend.isEmpty && (s.barrierAt w causeXlateRd (w.s 3) matches .ok 0x100) &&
      phaseReached (s.phaseOf w.group 0x100) 0) = true ∧
    (let t := (s.modGroup 0 (fun g => { g with sib := some ⟨0, 0, 1⟩ })).modCtx 0 (fun c => { c with
       bins := [(0, { quads := [1, 0, 0, 0], slots := [], tree := 0, depth := 0, sib := none, due := 0 })] })
     met t (.sgreward 0 2 1) (fun w => !w.pend.isEmpty && (t.groups[w.group]?).map (·.sib) == some (some ⟨0, 0, 1⟩)) = true ∧
     met t (.enq 0 2 1 4) (fun w => !w.pend.isEmpty && decide ((w.s 1).toNat % 32 = 0 ∧ (w.s 4).toNat < 2 ^ 12) &&
       t.binEnabled w.ctx (w.s 4).toNat && isOk (t.checkAccess w .rd false 32 (w.s 1) 32)) = true) := by decide +kernel

/-- AtomicResults: a scalar and a vector form, without and with a release. -/
theorem witness_atomic :
    let s := on (fun w => Wave.withS w 1 0xFF00000000000000)
    (∀ p, p ∈ [(Instr.aadd 0 0 4 0 1 2 1, false, true), (.aand 0 0 4 0 0 2 1, false, false), (.aor 0 1 4 1 0 2 1, true, false),
      (.axor 0 1 4 0 0 0 1, false, false), (.amin 0 2 4 0 0 2 1, false, false), (.amax 0 3 4 1 0 2 1, true, false),
      (.aminu 0 0 4 0 0 2 1, false, false), (.amaxu 0 0 4 0 0 2 1, false, false), (.axchg 0 0 4 0 0 2 1, false, false),
      (.acas 0 3 4 0 0 2 1, false, false)] →
      met s p.1 (fun w => calm s w && w.pend.isEmpty && isOk (s.atomAccesses w p.2.1 p.2.2 (if p.1 = .axor 0 1 4 0 0 0 1 then 0 else 2) 1))
        = true) ∧
    met s (.aaddF32 0 1 4 1 2 1) (fun w => isOk (s.atomAccesses w true false 2 1)) = true := by decide +kernel

/-- AtomicNewValues: a compare-and-swap that matches and one that does not; PhaseResults. -/
theorem witness_phase : AtomOp.add ≠ .cas ∧ w0.pend = [] ∧ ready s0 w0 (.phase 0 5) = true := by decide +kernel

/-- BarrierWordResults: an object in the scratchpad, an arrival that fits and one that overruns, a phase that is reached and one that is
not. -/
theorem witness_barrier :
    let s := on (fun w => Wave.withS (Wave.withS w 1 0x100) 2 1)
    let t := s.modGroup 0 (fun g => g.setBarrier 0x100 ⟨false, 0, 2, 0#32, 0, 0⟩)
    met s (.barInit 0 1 2) (fun w => s.barrierAt w causeXlateWr (w.s 1) matches .ok 0x100) = true ∧
    met t (.barArrive 0 1) (fun w => w.pend.isEmpty && (t.barrierAt w causeXlateWr (w.s 1) matches .ok 0x100) &&
      !((t.releaseDone t.cur 1).arriveAt w.group 0x100).1) = true ∧
    met s (.barArrive 0 1) (fun w => ((s.releaseDone s.cur 1).arriveAt w.group 0x100).1) = true ∧
    met s (.barWait 0 1 2) (fun w => (s.barrierAt w causeXlateRd (w.s 1) matches .ok 0x100) && !phaseReached (s.phaseOf w.group 0x100) 1) = true ∧
    met s (.barWait 0 1 3) (fun w => w.pend.isEmpty && phaseReached (s.phaseOf w.group 0x100) ((w.s 3).extractLsb' 0 32)) = true := by
  decide +kernel

/-- BarrierObjectRule: an arrival that fits and one that overruns, and the bounds of the fields. -/
theorem witness_barrier_object : ¬ (2 < 0 + 1) ∧ (0 < 0 + 1) ∧ 0x1FFF < 2 ^ 13 ∧ 0xFFFFFFFF < 2 ^ 32 := by decide

/-- CopyWordResults: a descriptor of one FP32 element from memory to scratchpad; a kick queue that is
full; an address of the weight store; an enabled buffer. -/
theorem witness_copy_words :
    let d := bytesOfNat 8 0x10 ++ bytesOfNat 8 0x20000000 ++ bytesOfNat 8 0x200 ++ bytesOfNat 8 0 ++ bytesOfNat 2 1
    let s := (on (fun w => Wave.withS w 5 0)).modGroup 0 (fun g => { g with scratch := g.scratch.write 0 d })
    let u := { on (fun w => Wave.withS w 4 0x20001000) with mem := s0.mem.write 0x14008 (bytesOfNat 8 0x8080037001) }
    let v := { s0.modCtx 0 (fun c => { c with act := { c.act with pbTable := 0x30000 } }) with mem := s0.mem.write 0x30040 [1] }
    let full := { s with copies := List.replicate 64 (CopyReq.fresh 0 0 0 0 none [] [] .queued) }
    met s (.copyk 0 5) (fun w => w.pend.isEmpty && decide (s.queueUsed w.core < 64) &&
      (let s1 := s.showDescriptor s.cur w (w.s 5)
       decide (s1.waves[s.cur]? = some w) && isOk (s1.readDescriptor w (w.s 5)) && (s1.descriptorBad w (w.s 5)).isNone &&
        (State.descriptorBad { s1 with bad := [.groupPool 0 0] } w (w.s 5)).isSome)) = true ∧
    met (on (fun w => Wave.withS w 5 1)) (.copyk 0 5) (fun w => !isOk ((on (fun w => Wave.withS w 5 1)).readDescriptor w (w.s 5))) = true ∧
    met full (.copyk 0 5) (fun w => decide (64 ≤ full.queueUsed w.core)) = true ∧
    met s (.cpq 0 1 5) (fun _ => true) = true ∧
    met u (.wsq 0 3 4) (fun w => isOk (u.wsQuery w (w.s 4)) && decide (windowOf (w.s 4) = .none) && (match u.waveXlat w .rd (w.s 4) with
      | .ok x => x.pa == 0x8000000000 + 0x80000000 * 1 + 0x37000
      | .error _ => false)) = true ∧
    (s.quads[1]?).isSome ∧ windowOf 0xFF00000000000000 ≠ .none ∧ (match s.waveXlat w0 .rd bootPc with
      | .ok x => decide (windowOf bootPc = .none) && !(paKind x.pa).isWs
      | .error _ => false) = true ∧
    met v (.publ 0 2) (fun w => w.pend.isEmpty && (v.pbPoison w.ctx 2).isNone && v.pbEnabled w.ctx 2 && decide (w.gen 2 = v.pbGen w.ctx 2)) = true := by decide +kernel

/-- MatrixWordResults: operands for M = N = K = 1, rows of one tile line, a full queue, and a queue without and with a
command on the tile. -/
theorem witness_matrix :
    let s := on (fun w => Wave.withS (Wave.withS (Wave.withS w 8 0x100001000) 3 0x100000000) 1 0xFF00000000000000)
    let t := s0.enqueueCmd (accCmd 0 w0 .accz 1 0#64 0#64) 0
    met s (.mma 0 1 1 1 0 8) (fun w => s.hasClaim w && !s.queueFull w.core 0 && mmaRegsZero (w.s 8) (w.s 9) (w.s 10) (w.s 11) &&
      decide (mmaCheck (s.scratchSize w) (mmaDesc 1 false 1 1 (w.s 8) (w.s 9) (w.s 10) (w.s 11)) = none)) = true ∧
    met s0 (.accz 0 1) (fun w => s0.hasClaim w && !s0.queueFull w.core 0) = true ∧
    met s (.accld 0 1 1 3) (fun w => s.hasClaim w && !s.queueFull w.core 0 && isOk (s.accCheck w false .rd (w.s 1) (w.s 3) 512)) = true ∧
    (let full := (List.range 16).foldl (fun u _ => u.enqueueCmd (accCmd 0 w0 .accz 1 0#64 0#64) 0) s
     let waits (w : Wave) : Bool := full.hasClaim w && full.queueFull w.core 0
     met full (.mma 0 1 1 1 0 8) waits = true ∧ met full (.accz 0 1) waits = true ∧ met full (.accld 0 1 1 3) waits = true) ∧
    met s0 (.mwait 0 1) (fun w => s0.hasClaim w && s0.cmdsOn w.core 1 == []) = true ∧
    met t (.mwait 0 1) (fun w => t.hasClaim w && t.cmdsOn w.core 1 != []) = true := by decide +kernel

/-- MirrorResults: a table of no entries, and of one; a record that is valid; a table that is not aligned; a scan under way before its
only entry, whose lines are whole or lost, and after it. -/
theorem witness_mirror :
    let scan (j : Nat) : State := on (fun w => { w with
      st := .wait (.hvnear 4 0#8192 0xFF00000000000000#64 1#64 ⟨false, j, 9000, 0⟩) })
    (∀ j, j ∈ [0, 1] → wave0 (scan j) (fun w => decide (w.st = .wait (.hvnear 4 0#8192 0xFF00000000000000#64 1#64 ⟨false, j, 9000, 0⟩) ∧
      w.sregs.length = 64)) = true) ∧
    wave0 (scan 0) (fun w => ((scan 0).entryPoison 0 w 0xFF00000000000000#64).isNone &&
      (State.entryPoison { scan 0 with bad := [.groupPool 0 7] } 0 w 0xFF00000000000000#64).isSome) = true ∧
    met (on (fun w => Wave.withS (Wave.withS w 8 1) 9 1)) (.hvnear 0 1 2 8) (fun w => (s0.mirrorCheck w (w.s 8) (w.s 9)).isSome) = true ∧
    let s := on (fun w => Wave.withS (Wave.withS w 8 0xFF00000000000000) 9 1)
    met s0 (.hvnear 0 1 2 4) (fun w => s0.mirrorCheck w (w.s 4) (w.s 5) == none && decide ((w.s 5).toNat % 2 ^ 13 ≤ 0)) = true ∧
    met s (.hvnear 0 1 2 8) (fun w => s.mirrorCheck w (w.s 8) (w.s 9) == none && decide (0 < (w.s 9).toNat % 2 ^ 13)) = true ∧
    ({ w0 with mirror := ⟨true, 1, 5, 0⟩ } : Wave).mirror.valid = true := by decide +kernel

/-- WorkWordResults: a bin that is enabled, a sibling whose object is final, reported, or gone, and references to it. -/
theorem witness_work :
    let bin : Bin := { quads := [1, 0, 0, 0], slots := [], tree := 0, depth := 0, sib := none, due := 0 }
    let sib : Sib := ⟨.reported, 0, 0, false, false⟩
    let sgo : Sgo := { num := 0, gen := 0, tree := 0, sibs := [sib, sib], eps := 0, timeout := 0, due := none, expired := false,
                       final := false, live := true }
    let s := ((on (fun w => Wave.withS (Wave.withS w 1 0xFF00000000000000) 3 2)).modCtx 0 (fun c => { c with
      bins := [(0, bin)], sgos := [sgo] })).modGroup 0 (fun g => { g with sib := some ⟨0, 0, 1⟩ })
    let u := s.modCtx 0 (fun c => { c with sgos := [] })
    met s (.enq 0 2 1 4) (fun w => calm s w && (s.groups[w.group]?).isSome && w.pend.isEmpty && decide ((w.s 1).toNat % 32 = 0) &&
      decide ((w.s 4).toNat < 2 ^ 12) && s.binEnabled w.ctx (w.s 4).toNat && isOk (s.checkAccess w .rd false 32 (w.s 1) 32)) = true ∧
    met s (.sgfork 0 2 1 3) (fun w => decide ((w.s 1).toNat % 32 = 0) && s.forkDetail w.ctx (w.s 3) == none &&
      isOk (s.checkAccess w .rd false 32 (w.s 1) 24)) = true ∧
    met s (.sgreward 0 2 1) (fun w => w.pend.isEmpty && (s.groups[w.group]?).map (·.sib) == some (some ⟨0, 0, 1⟩)) = true ∧
    met u (.sgwait 0 2) (fun w => (u.sgWaitLook u.cur 2 w ⟨0, 0, 1⟩).isSome) = true ∧
    met s (.sgwait 0 2) (fun w => (s.sgWaitLook s.cur 2 w ⟨0, 0, 1⟩).isNone) = true ∧
    met s (.sgcancel 0 4) (fun w => decide ((w.s 4).toNat < 2 ^ 40) && !s.idxBad w.ctx (SibRef.ofWord (w.s 4))) = true ∧
    met s (.sgquery 0 2 4) (fun w => decide (bitsOf (w.s 4) 40 23 = 0) && !s.idxBad w.ctx (SibRef.ofWord (w.s 4))) = true := by
  decide +kernel

/-! ### Witnesses for steps, fetching, checks and traps -/

/-- An image of nothing. -/
def noImage : Image :=
  { ivl := 0, full := true, waves := [], groups := [], copies := [], cmds := [], rings := [], launches := [], trees := [],
    runs := [], wakes := [], bins := [], pool := [], tables := [], sgos := [], pbGens := [], exts := [], cells := [], sides := [], resClock := 0 }

/-- The boot machine with a word at the program counter. -/
def s1 : State := State.reset.withFetchWord 32 0x60041083

/-- The boot machine at an MMA while the queue of its array is full: ACCZ commands that a hold of the core keeps there. -/
def stalled : State := (List.range 16).foldl (fun s _ => s.enqueueCmd (accCmd 0 w0 .accz 1 0#64 0#64) 0)
  { State.reset.withFetchWord 32 (fAC 0 1 0 0 0).toNat with tests := [⟨.core 0, 8, .logic, none, [], none, false, false⟩] }

/-- StepRunsDecoded: a wave's turn whose word decodes; the same word chosen by the device when nothing else acts; an event of either
kind at the head of the agenda. -/
theorem witness_step :
    let t := State.settleChanges (State.oneClock { s1 with agenda := [], caps := [] })
    (match t.waves[0]? with
      | some w => t.mayIssue w && (match t.fetch w with
        | .word v _ => v == 0x60041083#32 && (decode v).isSome
        | _ => false)
      | none => false) = true ∧ s1.agenda = [.wave 0] ∧
    (firstChange t t.attempts).isNone = true ∧ (match t.chooseWave with
      | some (k, s2) => match s2.waves[k]? with
        | some w => decide (t.waves[k]? = some w) && s2.mayIssue w && (match s2.fetch w with
          | .word v _ => v == 0x60041083#32 && (decode v).isSome
          | _ => false)
        | none => false
      | none => false) = true ∧
    (let full := State.settleChanges (State.oneClock { stalled with agenda := [], caps := [] })
     (firstChange full full.attempts).isNone = true ∧ full.issuable.any (fun y => full.stalls y.1 y.2) = true ∧
      full.chooseWave.isSome = true) ∧
    isRegionEvent .poweredOnHour = false ∧ isRegionEvent (.regionChangeApply 0 0) = true := by decide +kernel

/-- FetchRule: past the end of the address space; an unmapped PC; the word zero, a word that is no instruction, a word not yet held. -/
theorem witness_fetch :
    let far := on (fun w => { w with ran := true, pc := 0x0100000000000000#64 })
    let gone := on (fun w => { w with pc := 0x100#64 })
    let bad := State.reset.withFetchWord 32 0x80000000
    (∀ s, s ∈ [far, gone, s0, bad] → (match s.waves[0]? with
      | some w => s.mayIssue w && (s.cores[w.core]?).isSome
      | none => false) = true) ∧
    (far.waves[0]?.map (fun (w : Wave) => w.ran && pastEnd w.pc)) = some true ∧
    (gone.waves[0]?.map (fun (w : Wave) => !(w.ran && pastEnd w.pc) && !isOk (gone.fetchXlat w w.pc))) = some true ∧
    (match s0.fetchXlat w0 w0.pc with
      | .ok x => w0.heldWord == none && s0.icacheHit w0 w0.pc == none && !s0.poison.contains (x.pa / 128) && decide (w0.pc.toNat % 4 = 0)
      | .error _ => false) = true ∧
    (match s0.fetchXlat w0 w0.pc with
      | .ok x => ({ s0 with poison := [x.pa / 128] } : State).poison.contains (x.pa / 128)
      | .error _ => false) = true ∧
    (match s0.fetch w0 with
      | .word v _ => v == 0#32
      | _ => false) = true ∧
    (match bad.fetch w0 with
      | .word v _ => v == 0x80000000#32 && (decode v).isNone
      | _ => false) = true := by decide +kernel

/-- The boot machine in a context that is not privileged, and one in strict mode with s2, v2 outstanding. -/
def plain : State := s0.modCtx 0 (fun c => { c with act := { c.act with ctl := 0 } })
def strictly (l : List Out) : State := (s0.modCtx 0 (fun c => { c with act := { c.act with ctl := 0x80 } })).modWave 0 (fun w => { w with outs := l })

/-- ChecksComeFirst: words of each engine, ready, at a queue that is full. -/
theorem witness_full :
    let kicks := { s0 with copies := List.replicate 64 (CopyReq.fresh 0 0 0 0 none [] [] .queued) }
    (met kicks (.copyk 0 5) (fun w => !kicks.hasEntry w.core none) = true) ∧
    ∀ i, i ∈ [Instr.mma 0 1 1 1 0 8, .accz 0 1, .accld 0 1 1 3] → met stalled i (fun w => !stalled.hasEntry w.core (some 0)) = true := by
  decide +kernel

/-- ChecksComeFirst, ModeRules. -/
theorem witness_checks :
    plain.waves[plain.cur]? = some w0 ∧ w0.pfx = none ∧ plain.privileged w0 = false ∧ s0.privileged w0 = true ∧ s0.strict w0 = false ∧
    (match issueForm (.vaddI32 0 1 2 3), issueForm (.vaddI32 0 1 4 2) with
      | some f, some g => (State.badSource { s0 with bad := [.wavePool 0 2] } 0 w0 f == some (BitVec.ofNat 64 (regWindow + 256))) && (s0.refuses w0 (.vaddI32 0 1 2 3) f).isNone &&
        (State.badSource { s0 with bad := [.wavePool 0 2] } 0 w0 g == some (BitVec.ofNat 64 (regWindow + 256)))
      | _, _ => false) = true ∧
    (match issueForm (.grd 0 1 200), s0.groups[0]? with
      | some f, some g => (s0.refuses w0 (.grd 0 1 200) f).isNone && State.badSource { s0 with bad := [.groupPool 0 (g.gregLine 200)] } 0 w0 f == some 0#64
      | _, _ => false) = true ∧
    (match issueForm (.icinv 0) with
      | some f => (plain.refuses w0 (.icinv 0) f).isSome
      | none => false) = true ∧
    (∀ l, l ∈ [[Out.s 2 0], [.s 3 0], [.s 1 0], [.v 2 0 0 Side.none], [.v 3 0 0 Side.none], [.v 1 0 0 Side.none]] →
      (match (strictly l).waves[0]? with
        | some w => (strictly l).strict w && w.pfx == none && decide (3 < w.numV) && (w.outstanding (.s 2) || w.outstanding (.s 3) ||
          w.outstanding (.s 1) || w.outstanding (.v 2) || w.outstanding (.v 3) || w.outstanding (.v 1))
        | none => false) = true) := by
  refine ⟨rfl, ?_⟩
  decide +kernel

/-- TrapEntry, TrapWordResults, ContextFaults. -/
theorem witness_trap :
    s0.hasImage w0.ctx = false ∧ (State.modCtx s0 0 (fun c => { c with image := some noImage })).hasImage w0.ctx = true ∧
    w0.atoms = [] ∧ w0.outs = [] ∧ w0.handler = false ∧ w0.masks.length = 8 ∧
    (s0.ctxs[w0.ctx]?.map (fun c => decide (c.st ≠ .faulted ∧ c.act.trapvec ≠ 0#64))) = some true ∧
    (∀ i, i ∈ [Instr.trap 0 5, .tret 0] → ready s0 w0 i = true) ∧
    met (on (fun w => { w with handler := true })) (.tret 0) (fun w => w.handler) = true ∧
    ((s0.modCtx 0 (fun c => { c with act := { c.act with trapvec := 0 } })).ctxs[0]?.map (fun (c : Ctx) => decide (c.st ≠ .faulted ∧
      c.act.trapvec = 0#64))) = some true ∧
    ((s0.modCtx 0 (fun c => { c with st := .faulted })).ctxs[0]?.map (fun (c : Ctx) => decide (c.st = .faulted))) = some true ∧
    (s0.groups[0]?.map (fun (g : Group) => decide (g.ctx = 0 ∧ g.st = .running))) = some true := by decide +kernel

/-- SystemWordResults. -/
theorem witness_system :
    let s := on (fun w => Wave.withS w 1 0x1000)
    let u := on (fun w => Wave.withS w 1 5)
    let v := on (fun w => Wave.withS w 1 128)
    let x := { s0 with waves := s0.waves ++ [{ w0 with slot := 3, st := .halted }], cur := 0 }
    (∀ i, i ∈ [Instr.endWave 0, .srdp 0 1 0, .srdp 0 1 0x7FF, .swrp 0 1 0x20, .swrp 0 1 0, .icinv 0, .halt 0, .acrd 0 1 2 11, .acrd 0 1 2 12]
      → ready s0 w0 i = true) ∧ w0.outs = [] ∧ w0.atoms = [] ∧ w0.pend = [] ∧
    (s0.privReg 0 0).isSome = true ∧ (s0.privReg 0 0x7FF).isNone = true ∧
    met s0 (.tlbinv 0 2) (fun w => decide ((w.s 2).extractLsb' 12 51 = 0#51) && s0.accessesDone (s0.tagged (w.s 2))) = true ∧
    (let z := on (fun w => { w with atoms := [⟨.add, false, 4, false, 0, .scalar 1, [⟨0, 0, .scratch 0, 1, 0⟩]⟩] })
     met z (.tlbinv 0 2) (fun w => !z.accessesDone (z.tagged (w.s 2))) = true) ∧
    wave0 (on (fun w => { w with st := .wait (.tlbinv 0) })) (fun w => !w.stopped && decide (w.st = .wait (.tlbinv 0))) = true ∧
    met s (.tlbinv 0 1) (fun w => decide ((w.s 1).extractLsb' 12 51 ≠ 0#51)) = true ∧
    met u (.wkill 0 1) (fun w => decide ((w.s 1).toNat < 128) && (u.waveInSlot w.core 5).isNone) = true ∧ ready s0 w0 (.wresume 0 1) = true ∧
    met s0 (.wkill 0 2) (fun w => s0.waveInSlot w.core 0 == some 0) = true ∧
    met (x.modWave 0 (fun w => Wave.withS w 1 3)) (.wkill 0 1) (fun w => x.waveInSlot w.core 3 == some 1) = true ∧
    met v (.wkill 0 1) (fun w => decide (128 ≤ (w.s 1).toNat)) = true ∧ met v (.wresume 0 1) (fun w => decide (128 ≤ (w.s 1).toNat)) = true := by
  decide +kernel

/-- ReadsChangeNoData, AtomicEffect: memory, a peer that is down, and the scratchpad. -/
theorem witness_reads : w0.outs = [] ∧ w0.atoms = [] ∧ s0.mem.wf = true ∧ paKind 0x20000 = .hbm 0 ∧ paKind 0x100000000000 = .peer 0 ∧
    s0.peerUp 0 = false ∧ (s0.groups[0]?.map (fun (g : Group) => g.scratch.wf)) = some true := by decide +kernel

/-- ResetValues: the last register of each range; StepKeepsMemoryCanonical: the boot machine and its next state. -/
theorem witness_reset : 3 < 4 ∧ 15 < 16 ∧ 63 < 64 ∧ 159 < 160 ∧ 0x100FFF < 0x101000 ∧ s1.MemCanonical ∧ (match step s1 with
    | .next _ => true
    | _ => false) = true := by
  refine ⟨by decide, by decide, by decide, by decide, by decide, ?_, ?_⟩
  · show s1.mem.wf = true
    decide +kernel
  · decide +kernel

/-! ### Witnesses for the events -/

/-- MemoryEventResults: a line of the LLC that is clean, one that is dirty, and sets of 15 and 16 lines. -/
theorem witness_llc :
    let clean : LlcLine := ⟨0x400, false, [none, none, none, none]⟩
    let at1 := { s0 with llc := [clean] }
    let at2 := { s0 with llc := [{ clean with dirty := true }] }
    let set (n : Nat) : State := { s0 with llc := (List.range n).map (fun k => { clean with line := 0x400 + (k + 1) * 2 ^ 21 }) }
    ((paKind 0x20000).isHbm = true ∧ s0.llcHas 0x400 = false ∧ at1.llcHas (0x20000 / 128) = true ∧ at2.llcHas 0x400 = true ∧
      at1.llc.all (!·.dirty) = true ∧ at2.llc.all (·.dirty) = true) ∧
    (∀ n, n ∈ [15, 16] → ((set n).llc.filter (fun l => llcSet l.line == llcSet 0x400)).length = n ∧ (set n).llcHas 0x400 = false) ∧
    (max 1 (16 - s0.llcFences.count (llcSet 0x400)) = 16 ∧
      max 1 (16 - ({ s0 with llcFences := [llcSet 0x400] } : State).llcFences.count (llcSet 0x400)) = 15) := by
  decide +kernel

/-- MemoryEventResults. -/
theorem witness_memory_events :
    let reg : Region := ⟨0x100000, 0x101000, 0x200000, 0⟩
    let u := s0.modQuad 0 (fun d => { d with regions := d.regions.set 0 reg })
    (s0.waves[0]?.map (fun (w : Wave) => w.st)) = some .ready ∧ (s0.ctxs[0]?).isSome ∧ (s0.quads[0]?).isSome ∧ s0.changes = [] ∧
    ((on (fun w => { w with outs := [.s 1 5] })).waves[0]?.map (fun (w : Wave) => w.outs[0]?)) = some (some (.s 1 5)) ∧
    (let a : Atom := ⟨.add, false, 4, false, 0, .scalar 1, [⟨0, 0, .scratch 0, 1, 0⟩]⟩
     wave0 (on (fun w => { w with atoms := [a] })) (fun w => w.atoms == [a] && a.todo.any (fun y => y.lane == 0)) = true) ∧
    (let peer (lane : Nat) : Atom := ⟨.add, false, 4, false, 0, .scalar 1, [⟨lane, 0, .phys 0x100000000000 false, 1, 0⟩]⟩
     let far : Atom := ⟨.add, false, 4, false, 0, .scalar 1, [⟨1, 0, .phys 0x20000 false, 1, 0⟩]⟩
     (∀ p, p ∈ [(far, false), (peer 1, true)] → wave0 (on (fun w => { w with atoms := [peer 0, p.1] })) (fun w =>
       (w.atoms[1]? == some p.1) && p.1.todo.all (fun x => x.lane == 1 && (peer 0).todo.all (fun z => z.lane != 1 &&
         x.place.samePeerLine z.place == p.2))) = true)) ∧
    ((1#64).getLsbD 0 = true ∧ s0.mbBusy = false ∧ ({ s0 with mbBusy := true } : State).mbBusy = true) ∧
    wave0 (on (fun w => { w with delayUntil := some 0 })) (fun w => decide (w.delayUntil = some 0 ∧ 0 ≤ s0.coreClock w.core)) = true ∧
    (canonical bootPc = true ∧ s0.walkPoison (some 0) .rd 0 (s0.walkGen 0 0) (vaBits bootPc) = none ∧
      isOk (s0.leafOf (some 0) .rd 0 (s0.walkGen 0 0) (vaBits bootPc)) = true ∧ isOk (s0.leafOf (some 0) .rd 0 (s0.walkGen 0 0) 0x100) = false) ∧
    (s0.quads[0]?.map (fun (d : Quad) => decide (d.clock % 512 ≤ 63) && (d.regions[0]?.map (fun (r : Region) => r.enabled)) == some false)) = some true ∧
    ((0x81#64).getLsbD 0 = true ∧ (u.quads[0]?.map (fun (d : Quad) => regionError 0 0 d.regions { reg with ctl := 0x81 })) = some 0) ∧
    wave0 s0 (fun w => s0.mayIssue w && match s0.fetch w with
      | .word _ _ => true
      | _ => false) = true ∧
    ((match s0.fillFor 0 0 bootPc with
      | some z => (s0.icacheHit z bootPc).isNone && (match s0.fetchXlat z bootPc with
        | .ok y => !s0.linePoisoned (y.pa / 128)
        | .error _ => false)
      | none => false) = true ∧ s0.fillFor 0 0 (bootPc + 0x180#64) = none) := by
  refine ⟨rfl, rfl, rfl, rfl, ?_⟩
  decide +kernel

/-- The boot machine with a ring of its context in a window slot, one packet in it, a writable page at 0x20001000, an object, a graph
table and an enabled buffer 2. -/
def ringed (q : List Nat) : State :=
  let o : Obj := { num := 0, ctx := 0, key := ⟨0, 0, []⟩, base := bootPc, gotb := 0, limit := bootPc + 0x1000, ro := 0x20000, rw := 0x20000,
                   pages := [], kernels := [bootKernel], globals := [], revoked := false, unloaded := false }
  let s := s0.modCtx 0 (fun c => { c with slot := some 0, graphs := [(0, 0x50000)], act := { c.act with pbTable := 0x30000 } })
  let id := s.ownerOf 0
  ((({ s with
    mem := ((((s.mem.write 0x14008 (bytesOfNat 8 0x21003)).write 0x30040 [1]).write 0x50000 (bytesOfNat 8 1)).write 0x40000
      (q.flatMap (bytesOfNat 8)))
    objs := [o]
    rings := [{ Ring.fresh 0 0 0x40000#64 6 with wptr := BitVec.ofNat 32 (q.length / 2) }] } : State).grant (.ring 0) 0x40000 1024 true false
      id).grant (.object 0) 0x20000 0x1000 true false id).grant (.graph 0 0 0) 0x50000 32 true false id |>.grant (.pbTable 0) 0x30000 8192 true true id
    |>.grant (.graph 0 0 1) 0x50100 64 true false id

/-- The ring of `ringed` dispatches a packet of the type, read through its entry; `p` holds of the machine then. -/
def dispatches (s : State) (type : Nat) (p : State → List DWord → Bool) : Bool := match s.rings[0]? with
  | some r => decide (r.ctx = 0) && s.nextRing == some 0 && (match s.look r with
    | .go q => pktType q == type && (match s.capFor 0 (.ring 0) 0 (16 * (r.rptr.toNat % 2 ^ r.logsz)) (16 * pktLen q) false with
      | some t => p t q
      | none => false)
    | _ => false)
  | none => false

/-- Is a SIGNAL packet of ring 0 due whose place is found, within its entry, and holds no poisoned line? -/
def signalGoes (s : State) (j : Nat) : Bool := s.signalDue 0 j && (match s.packetOf 0 j with
  | some (y, z) => (match z.found.bind (s.refind y.ctx .wr), (z.found.elim s (s.keptLooks y.ctx .wr)).capFor 5 (.field 0 j 1) y.ctx 0
      (signalBytes z.quads) true with
    | some l, some u => !u.linePoisoned (l.pa / 128)
    | _, _ => false)
  | none => false)

/-- FrontEventResults: packets. -/
theorem witness_packets :
    ((ringed []).ctxInSlot (0 / 1024) = some 0 ∧ (ringed []).rings.map (fun t => (t.ctx, t.num)) = [(0, 0)] ∧
      (ringed []).ctxInSlot (1024 / 1024) = none) ∧
    dispatches (ringed [0, 0]) 0 (fun _ _ => true) = true ∧
    (let s := { ringed [0, 0] with caps := [] }
     (s.rings[0]?.map (fun (r : Ring) => (s.look r matches .go _) && (s.capFor 0 (.ring 0) 0 0 16 false).isNone && pktLen [0, 0] == 1)) = some true) ∧
    dispatches (ringed [0x401, 0, 0, 0, 0x100000001, 1, 0, 0, 0, 0]) 1 (fun t q => (t.kernelOf 0 (qAt q 2)).isSome) = true ∧
    dispatches (ringed [0x102, 0, 0, 0]) 2 (fun t _ => t.graphPoison 0 0 == none && (match t.capFor 3 (.graph 0 0 0) 0 0 32 false with
      | some u => (u.capFor 3 (.graph 0 0 1) 0 0 (64 * graphNodes u.mem (u.graphHeader 0 0)) false).isSome
      | none => false)) = true ∧
    (∀ p, p ∈ [(1, true), (0, false)] →
      dispatches (ringed ([0x803, 0, 0x1, 0x20000000, 0x20001000, 0, p.1] ++ List.replicate 11 0)) 3 (fun t q =>
        (t.ctxs[0]?.map (fun (x : Ctx) => (acceptDetail x.features 0 false true (q.drop 2) []).isNone)) == some p.2 &&
        t.copyCore 0 (CopyDesc.of (q.drop 2)) 0) = true) ∧
    dispatches (ringed [0x204, 0, 0x20000000, 0, 0, 0]) 4 (fun _ _ => true) = true ∧
    (∀ p, p ∈ [(0x105, false), (0x2000105, true)] →
      let s := ringed [p.1, 0, 0x20001000, 7]
      dispatches s 5 (fun v q => signalAdds q == p.2 && (s.dueSignal 0 p.2).isNone && (match s.rings[0]? with
        | some r => signalGoes (v.takePacket 0 r q 0) 0 && (v.takePacket 0 r q 0).dueSignal 0 p.2 == some 0 &&
          !((v.takePacket 0 r q 0).takePacket 0 r q 0).signalDue 0 1
        | none => false)) = true) ∧
    (∀ p, p ∈ [(2, true), (3, false)] → dispatches (ringed [0x106, 0, p.1, 0]) 6 (fun t q => (t.pbPoison 0 (bitsOf (qAt q 2) 0 8)).isNone &&
      (t.readPb 0 (bitsOf (qAt q 2) 0 8)).pbEnabled 0 (bitsOf (qAt q 2) 0 8) == p.2) = true) ∧
    dispatches (ringed [0x107, 0, 0, 0]) 7 (fun _ q => !(qAt q 2).getLsbD 0) = true ∧
    dispatches (ringed [0x107, 0, 1, 0]) 7 (fun _ q => (qAt q 2).getLsbD 0) = true := by decide +kernel

/-- What holds of the state that an event leads to. -/
def leads (s : State) (i : Instr) (p : State → Bool) : Bool := match exec i s with
  | .next t => p t
  | _ => false

/-- FrontEventResults: a waiting packet, launches, placement, groups, timers. -/
theorem witness_front :
    let k := ringed [0x401, 0, 0, 0, 0x100000001, 1, 0, 0, 0, 0]
    let bin : Bin := { quads := [1, 0, 0, 0], slots := [0], tree := 0, depth := 0, sib := none, due := 0 }
    let sib : Sib := ⟨.waiting, 0, 0, false, false⟩
    let sgo : Sgo := { num := 0, gen := 0, tree := 0, sibs := [sib, sib], eps := 0, timeout := 1, due := some 0, expired := false,
                       final := false, live := true }
    let c := s0.modCtx 0 (fun x => { x with bins := [(0, bin)], sgos := [sgo] })
    let spin := on (fun w => { w with st := .wait (.sgspin 1 0) })
    let parking := (on (fun w => { w with stopped := true })).modGroup 0 (fun g => { g with st := .parking })
    let parked := { s0.modGroup 0 (fun g => { g with st := .pending, wake := true }) with wakeQueue := [0] }
    leads (ringed [0x204, 0, 0x20000000, 1, 0xFFFFFFFF, 0]) (.waitValue 0 0) (fun t => match t.rings[0]? with
      | some r => decide (r.ctx = 0) && r.pkts.length == 1 && (match t.packetOf 0 0 with
        | some (y, z) => !z.done && pktType z.quads == 4 && t.ctxRuns y.ctx && !t.frontStopped && (match z.found.bind (t.refind y.ctx .rd),
            (z.found.elim t (t.keptLooks y.ctx .rd)).capFor 5 (.field 0 0 1) y.ctx 0 (waitBytes z.quads) false with
          | some l, some u => !(((u.modPacket 0 0 (fun x => { x with found := some l })).homeAccess l.pa l.ms false (waitBytes z.quads)).linePoisoned (l.pa / 128))
          | _, _ => false)
        | none => false)
      | none => false) = true ∧
    s0.seekTables.noteSpanWait.placeable.isNone = true ∧
    leads k (.kernel 0 0) (fun t => (match t.seekTables.noteSpanWait.placeable with
        | some (.launch l, _) => (t.seekTables.noteSpanWait.launches[l]?).isSome
        | _ => false) && (match t.trees[0]? with
        | some y => y.isOpen && !y.failed && !y.abandoned && y.origin == .packet 0 0
        | none => false)) = true ∧
    (let y : Tree := ⟨0, .packet 0 0, 0, 0, 0, 0, 1, 1, false, false, true⟩
     ({ s0 with trees := [y] }.trees[0]? = some y ∧ y.quiet = true ∧ y.isOpen = true ∧ y.failed = false ∧ y.abandoned = false)) ∧
    (c.dueBins.all (fun d => !d.before ⟨c.ctxs.headD (bootCtx s0) |>.resClock, (c.ownerOf 0).toNat, 0, 0⟩) = true ∧
      c.dueBins.any (fun d => d.before ⟨0, (c.ownerOf 0).toNat, 1, 0⟩) = true) ∧
    (c.binOf 0 0 = some bin ∧ bin.slots ≠ [] ∧ c.ctxRuns 0 = true ∧ (c.ctxs[0]?.map (fun (x : Ctx) => decide (bin.due ≤ x.resClock))) = some true) ∧
    (match parked.seekTables.noteSpanWait.placeable with
      | some (.group z, _) => (parked.seekTables.noteSpanWait.groups[z]?).isSome
      | _ => false) = true ∧
    ((s0.modGroup 0 (fun g => { g with st := .starting })).groups[0]?.map (·.st)) = some .starting ∧
    (parking.groups[0]?.map (fun (g : Group) => decide (g.st = .parking) && parking.allStopped g && !g.wake)) = some true ∧
    wave0 spin (fun w => decide (0 ≤ spin.coreClock w.core) && spin.groupRuns w) = true ∧
    (∀ f, f ∈ [false, true] →
      let t := (spin.modCtx 0 (fun x => { x with sgos := [{ sgo with due := none, sibs := [{ sib with kind := .reported }, sib], final := f }] })).modGroup 0 (fun g => { g with sib := some ⟨0, 0, 0⟩ })
      wave0 t (fun w => t.binding w == some ⟨0, 0, 0⟩ && (match t.sgWaitLook 0 1 w ⟨0, 0, 0⟩ with
        | some u => f && wave0 u (fun x => x.st == .ready)
        | none => !f)) = true) ∧
    (c.ctxs[0]?.map (fun (x : Ctx) => (x.sgos.find? (fun z => z.num == 0 && z.live)) == some sgo && decide (0 ≤ x.resClock))) = some true := by
  decide +kernel

/-- The boot machine, or another, with a committed image of its context. -/
def imaged (s : State) : State := s.modCtx 0 (fun x => { x with image := some noImage })

/-- A request of one element from the boot page to scratchpad, `n` elements long. -/
def request (n : Nat) (st : CopySt) : CopyReq :=
  CopyReq.fresh 0 0 0 0 none [0x10#64, bootPc, 0x200#64, 0#64, BitVec.ofNat 64 n, 0, 0, 0] [] st

/-- The boot machine with one request. -/
def copying (q : CopyReq) : State := { s0 with copies := [q] }

/-- EngineEventResults: traps held and due, kills, stops, blocked waves. -/
theorem witness_engine :
    let due : DueTrap := ⟨causeCopy, 0, 0, 0, 0, 0, 0⟩
    let held := on (fun w => { w with held := some (Frame.zero, false) })
    let dued := on (fun w => { w with due := [due] })
    let killed := on (fun w => { w with killed := true })
    let asked := s0.modGroup 0 (fun g => { g with st := .parking })
    let blocked := on (fun w => { w with st := .blocked 0x100 0 })
    wave0 held (fun w => held.groupRuns w && !w.stopped && !w.killed && w.held == some (Frame.zero, false) && decide (held.ctxState w ≠ .faulted))
      = true ∧
    wave0 dued (fun w => dued.groupRuns w && !w.stopped && !w.killed && w.held == none && w.atBoundary && firstDue w.due == some due) = true ∧
    wave0 killed (fun w => w.killed && w.killable && w.atoms.isEmpty) = true ∧
    wave0 asked (fun w => asked.stopAsked w && !w.stopped && decide (w.st = .ready) && w.outs.isEmpty && w.atoms.isEmpty) = true ∧
    wave0 (on (fun w => { w with st := .blocked 0x100 0, reached := true })) (fun w => w.reached && blocked.groupRuns w && !w.dueNow && !w.killed &&
      w.pend.isEmpty) = true ∧
    (blocked.barBad 0 0x100 = false ∧ State.barBad { blocked with bad := [.groupPool 0 2] } 0 0x100 = true ∧ wave0 blocked (fun w => !w.reached &&
      blocked.groupRuns w && !w.dueNow && !w.killed)) ∧
    (blocked.groups[0]?).isSome = true ∧ phaseReached (blocked.phaseOf 0 0x100) 0 = true ∧ phaseReached (blocked.phaseOf 0 0x100) 1 = false := by decide +kernel

/-- EngineEventResults: copies. -/
theorem witness_copies :
    let killed := on (fun w => { w with killed := true })
    let fault := { request 2 .running with desc := [0x10#64, 0x100, 0x200, 0, 2, 0, 0, 0] }
    (let s := copying (request 1 .queued)
     s.coreHeld 0 = false ∧ s.activeUsed 0 < 8 ∧ s.waiting 0 = [0] ∧ (s.copies[0]?.map (fun (x : CopyReq) => decide ((s.prepare x).st = .running))) = some true) ∧
    (∀ p, p ∈ [(2, false), (1, true)] →
      let s := copying (request p.1 .running)
      (s.copies[0]?.map (fun (x : CopyReq) => s.copyGoes 0 x)) = some true ∧
      (((s.landPiece 0 1).workDone (.copyEngine 0) (some 0)).copies[0]?.map (fun (y : CopyReq) => decide (y.st = .done))) = some p.2) ∧
    (let s := copying fault
     (s.copies[0]?.map (fun (x : CopyReq) => s.copyGoes 0 x)) = some true ∧
      (s.copyFault 0).map (fun t => decide (t.cause ≠ causeEcc)) = some true) ∧
    (let s := { imaged (copying (request 1 .running)) with poison := [0x400] }
     (s.copies[0]?.map (fun (x : CopyReq) => s.copyGoes 0 x && s.hasImage x.ctx)) = some true ∧
      (s.copyFault 0).map (fun t => decide (t.cause = causeEcc)) = some true) ∧
    (let s := { killed with copies := [request 1 .running] }
     (s.copies[0]?.map (fun (x : CopyReq) => s.copyKilled x && !x.st.ended && decide (x.st ≠ .reserved ∧ x.host = none))) = some true) := by decide +kernel

/-- EngineEventResults: a follow-on, a publish step, the arrays. -/
theorem witness_arrays :
    let f : List DWord := [0x100001110, 0, 0, 0]
    let q := { request 1 .followwait with ext := List.replicate 10 0#64 ++ f ++ [0, 0] }
    let s := copying q
    let p := (ringed []).modWave 0 (fun w => { w with st := .wait (.publ 2 0) })
    let cmd (k : MKind) : State := s0.enqueueCmd ⟨0, [0x100001110, 0, 0, 0], k, .queued, 0, 0, 0, 0, false⟩ 0
    let ld := s0.enqueueCmd ⟨0, [0, 0, bootPc, 0x100000000], .accld, .queued, 0, 0, 0, 0, false⟩ 0
    (s.copies[0]?.map (fun (x : CopyReq) => s.copyMay x && !s.copyKilled x && !s.coreHeld x.core && s.followReady x)) = some true ∧
    (s.ctxs[0]?.map (fun d => codeOk d.features (mmaAcode f) && codeOk d.features (mmaBcode f))) = some true ∧
    (mmaCode (mmaAcode f) = true ∧ mmaCode (mmaBcode f) = true ∧ (s.groups[0]?.map (fun (g : Group) => mmaCheck g.scratchSize f)) = some none ∧
      s.queueFull 0 (mmaArr f) = false ∧ followQuads q.ext = f) ∧
    (p.ctxRuns 0 = true ∧ p.publishWaits 0 2 = true ∧ p.pbPoison 0 2 = none ∧ p.boundUnder 0 2 (p.pbGen 0 2 + 1#32) = false) ∧
    (∀ k, k ∈ [MKind.mma, .accz, .follow] → ((cmd k).headCmd 0 0).map (fun y => y.2.kind) = some k ∧ ((cmd k).arrayOf 0 0).isSome = true ∧
      (cmd k).coreHeld 0 = false) ∧
    ((cmd .mma).headCmd 0 0).bind (fun y => ((cmd .mma).groups[0]?).map (fun g => (cmd .mma).passPoison g y.2)) = some none ∧
    (match { imaged (cmd .mma) with bad := [.groupPool 0 0] } with
      | t => (t.headCmd 0 0).bind (fun y => (t.groups[0]?).map (fun g => (t.passPoison g y.2).isSome && t.hasImage y.2.ctx)) = some true) ∧
    (match ld.headCmd 0 0, ld.arrayOf 0 0 with
      | some (_, y), some u => decide (y.kind = .accld) && isOk (ld.accldRows y (u.tileRows y.tile) (rowsOf (qAt y.desc 2)))
      | _, _ => false) = true := by decide +kernel

/-- AfterglowEventResults. -/
theorem witness_afterglow :
    let c (f : Ctx → Ctx) : State := { s0.modCtx 0 f with waves := [], groups := [] }
    let q : CloseReq := ⟨.device, false⟩
    let cm := c (fun x => { x with agCut := some noImage, act := { x.act with ckptSize := 0x100000 } })
    let clean := { s0 with llc := [⟨0x400, false, [none, none, none, none]⟩] }
    (s0.ctxs[0]?.map (fun (x : Ctx) => decide (({ x with agQueue := [q] } : Ctx).agQueue = [q] ∧ x.closing = false ∧ x.st = .resident))) = some true ∧
    (let s := c (fun x => { x with agStop := true })
     s.ctxStopped 0 = true ∧ (s.ctxs[0]?.map (fun (x : Ctx) => x.agStop && x.agCut.isNone)) = some true) ∧
    ((c (fun x => { x with act := { x.act with ckptIntv := 1, ckptSize := 1 }, resClock := 65536 })).ctxs[0]?.map (fun (x : Ctx) => decide (x.st = .resident ∧
      x.ckptPeriod ≠ 0 ∧ x.act.ckptSize ≠ 0#64 ∧ x.ckptPeriod ≤ x.resClock - x.ckptStart))) = some true ∧
    ((c (fun x => { x with agPend := [.front, .groupState 0], agCut := some noImage })).ctxs[0]?.map (fun (x : Ctx) =>
      x.agPend[0]? == some .front && x.agPend[1]? == some (.groupState 0) && s0.itemQuad x .front == s0.itemQuad x (.groupState 0))) = some true ∧
    ((c (fun x => { x with agCut := some noImage, agNew := [(.groupState 0, 0, 128)], agDone := [.groupState 0, .front] })).ctxs[0]?.map (fun (x : Ctx) =>
      decide (x.agPort = false ∧ x.agDone = x.agNew.map (·.1) ++ [.front]))) = some true ∧
    (∀ p, p ∈ [true, false] →
      let d := { cm with ports := [p, true] }
      ((d.layRecords 0).ctxs[0]?.map (fun (y : Ctx) => d.ctxs[0]?.map (·.agPend) == some [] && !y.agBy.any (·.save) &&
        (y.agPort || y.agDown.isSome || (d.layRecords 0).downPort.isSome) == !p)) = some true) ∧
    s0.correctableCode (.line 0x20000) = some 4 ∧ s0.errorClass (.line 0x20000) = some (4, .lost) ∧
    clean.errorClass (.line 0x20000) = some (2, .clean) ∧ s0.correctableCode (.coreStore 0 (.group 0 0)) ≠ none ∧ logicUnit (.core 0) = true ∧ s0.retries = [] ∧
    (let t : SelfTest := ⟨.core 0, 8, .logic, none, [], none, false, false⟩
     ({ s0 with tests := [t] }.tests[0]? = some t ∧ t.verdict = false ∧ unitCore t.unit = some 0 ∧ s0.groupsOn 0 = [0] ∧
      (s0.groups[0]?.map (·.st)) = some .running ∧ ({ s0 with groups := [] } : State).groupsOn 0 = [])) := by decide +kernel

/-- DeviceEventResults: a peer that is up and one that is down, a window under and over the limit, an image that is or is not accepted. -/
theorem witness_device :
    let s := { State.reset with peers := (State.reset.peers.set 0 ⟨1, 0, .up⟩).set 1 ⟨1, 0, .down⟩ }
    0x7FFFFFFFFF + [0#8].length ≤ 0x8000000000 ∧ 0x8000000000 < opEnd (.write 0x7FFFFFFFFF [0, 0]) ∧
    s.peerUp 0 = true ∧ (s.peers[0]?.map (fun (p : Peer) => p.st)) = some .up ∧ (s.peers[1]?.map (fun (p : Peer) => p.st)) = some .down ∧ 0x20000 < 0x8000000000 ∧
    (0 ≤ State.reset.addEnergy.powerCap * 1000 ∧ State.reset.addEnergy.hot = false ∧ State.reset.addEnergy.powerCap * 1000 < 3000000) ∧
    (∃ x, s0.ctxs[0]? = some x ∧ x.onDevice = true ∧ x.act.ckptSize = 0#64 ∧
      ({ x with act := { x.act with ckptSize := 1 } } : Ctx).act.ckptSize ≠ 0#64) ∧
    (s0.thermtrip = false ∧ s0.issueHalt = false ∧ ({ s0 with thermtrip := true } : State).thermtrip = true ∧
      (∀ x ∈ s0.ctxs, x.savePending = false) ∧ (s0.ctxs.map (fun x => ({ x with agQueue := [⟨.device, true⟩] } : Ctx).savePending)) = [true] ∧
      ({ s0 with issueHalt := true } : State).waves[0]? = some w0) ∧
    (let r : List BootFailure := [.core 159, .ckptPort 1, .peerPort 15]
     BootFailure.core 159 ∈ r ∧ BootFailure.ckptPort 1 ∈ r ∧ BootFailure.peerPort 15 ∈ r) := by
  refine ⟨by decide, by decide, by decide +kernel, by decide +kernel, by decide +kernel, by decide, by decide +kernel, ⟨_, rfl, ?_⟩, ?_⟩ <;>
    decide +kernel

/-! ### Witnesses for the services -/

/-- The bytes at the addresses from `a` on that are not zero. -/
def cellsFrom : Nat → List (BitVec 8) → List Host.Cell
  | _, [] => []
  | a, b :: bs => if b.toNat == 0 then cellsFrom (a + 1) bs else (a, b) :: cellsFrom (a + 1) bs

/-- A state with a request for a service in the mailbox: code, context number, body quadwords, then `pad` bytes of zeros. -/
def askingPad (s : State) (code ctx : Nat) (body : List Nat) (pad : Nat) : State :=
  { s with
    mbBusy := true
    mbBuf := ⟨cellsFrom 0 (bytesOfNat 2 code ++ bytesOfNat 2 0 ++ bytesOfNat 4 (8 * body.length + pad) ++ bytesOfNat 8 7 ++ bytesOfNat 4 ctx ++
      List.replicate 12 0#8 ++ body.flatMap (bytesOfNat 8)), []⟩ }

/-- A state with a request for a service in the mailbox: code, context number, body quadwords. -/
def asking (s : State) (code ctx : Nat) (body : List Nat) : State := askingPad s code ctx body 0

/-- Is it a request as `State.Request` says? -/
def requested (s : State) (code len : Nat) (ctx : BitVec 32) : Bool :=
  s.mbBusy && decide (s.spdmBefore = 0 ∧ s.mbService = code ∧ s.mbLength = len) && s.mbHeaderOk && !s.recovery && decide (s.mbCtx = ctx)

theorem requested_Request {s : State} {code len : Nat} {ctx : BitVec 32} (h : requested s code len ctx = true) :
    s.Request code len ctx := by
  simp only [requested, Bool.and_eq_true, decide_eq_true_eq, Bool.not_eq_true'] at h
  exact ⟨h.1.1.1.1, h.1.1.1.2.1, h.1.1.1.2.2.1, h.1.1.1.2.2.2, h.1.1.2, h.1.2, h.2⟩

/-- A request of the boot context, 0x10000 by number, of which `p` holds. -/
def served (s : State) (code : Nat) (body : List Nat) (p : State → Ctx → Bool) : Bool :=
  let t := asking s code 0x10000 body
  requested t code (8 * body.length) 0x10000 && t.ctxNamed t.mbCtx == some 0 && (match t.ctxs[0]? with
    | some x => p t x
    | none => false)

theorem served_RequestFor {s : State} {code : Nat} {body : List Nat} {p : State → Ctx → Bool} (h : served s code body p = true) :
    ∃ x, (asking s code 0x10000 body).RequestFor code (8 * body.length) 0 x ∧ p (asking s code 0x10000 body) x = true := by
  simp only [served, Bool.and_eq_true, beq_iff_eq] at h
  obtain ⟨⟨h1, h2⟩, h3⟩ := h
  split at h3
  · rename_i x hx
    have h4 := requested_Request h1
    exact ⟨x, ⟨⟨h4.1, h4.2.1, h4.2.2.1, h4.2.2.2.1, h4.2.2.2.2.1, h4.2.2.2.2.2.1, rfl⟩, h2, hx⟩, h3⟩
  · cases h3

/-- The boot context in a state. -/
def inState (st : CtxSt) : State := s0.modCtx 0 (fun x => { x with st := st })

/-- ContextServiceResults. -/
theorem witness_context_services :
    requested (asking s0 0x01 0xFFFFFFFF [0xFF]) 0x01 8 noContext = true ∧ (0xFF#64).toNat < 2 ^ 8 ∧
    served s0 0x02 [0] (fun s _ => completionOk (s.mbB 0)) = true ∧
    (∀ p, p ∈ [(s0, true), ({ s0 with caps := [] }, false)] →
      served p.1 0x03 [0x148, 8] (fun s _ => decide ((s.mbB 0).toNat % 8 = 0 ∧ (s.mbB 1).toNat % 8 = 0 ∧ (s.mbB 0).toNat + (s.mbB 1).toNat ≤ recordSize) &&
        (s.capFor 4 (.record 0) 0 (s.mbB 0).toNat (s.mbB 1).toNat false).isSome == p.2) = true) ∧
    served s0 0x04 [0x020, 0x10000] (fun s _ => decide ((s.mbB 0).toNat % 8 = 0 ∧ (s.mbB 0).toNat + 8 ≤ recordSize ∧ recordRo (s.mbB 0).toNat = false ∧
      recordFieldOk (s.mbB 0).toNat (s.mbB 1) = true ∧ (s.mbB 0).toNat ∉ [0x030, 0x060, 0x0A8]) &&
      (s.capFor 4 (.record 0) 0 (s.mbB 0).toNat 8 true).isSome) = true ∧
    served s0 0x05 [0x20000, 0] (fun s x => completionOk (s.mbB 0) && decide (s.mbB 1 = 0#64 ∧ x.st = .resident)) = true ∧
    served s0 0x05 [0, 1] (fun s x => completionOk (s.mbB 0) && decide (s.mbB 1 = 1#64 ∧ x.st = .resident)) = true ∧
    served (inState .faulted) 0x05 [0, 1] (fun s x => decide (s.mbB 1 = 1#64 ∧ x.st = .faulted)) = true ∧
    served (inState .saved) 0x06 [] (fun s x => decide (x.st = .saved ∧ x.image = none) && match s.giveTag 0 with
      | some t => isOk ((t.putRegs 0 x).startBare 0 x)
      | none => false) = true ∧
    served ((inState .saved).modCtx 0 (fun x => { x with image := some noImage, agChain := [⟨0, 0, true, 0#256, 0#256⟩] })) 0x06 [] (fun s x => decide (x.image = some noImage) &&
      s.imageReadable x && match s.giveTag 0 with
      | some t => isOk ((t.putRegs 0 x).restore 0 noImage)
      | none => false) = true ∧
    served (inState .faulted) 0x06 [] (fun s x => decide (x.st = .faulted) && match s.giveTag 0 with
      | some t => isOk (((t.dropDecls 0).putRegs 0 x).readyLists 0 { x with act := x.regs } [])
      | none => false) = true ∧
    (let t := { (inState .saved).modCtx 0 (fun x => { x with regs := { x.regs with ckptSize := 0x100000#64 } }) with
       tier := [⟨0#32, 0#64, noImage, [⟨0, 0, true, 0#256, 0#256⟩], [], 0, false⟩] }
     (t.ctxs[0]?.map (fun (x : Ctx) => (t.tierFor x).isSome && (s0.tierFor x).isNone)) = some true) ∧
    served s0 0x07 [0] (fun s _ => completionOk (s.mbB 0)) = true ∧
    served s0 0x08 [0, 0x20000000, 0x1000] (fun s _ => decide ((s.mbB 1).toNat % 4096 = 0 ∧ (s.mbB 2).toNat % 4096 = 0)) = true := by decide +kernel

/-- A graph table of one node with no successor, in the machine of `ringed`. -/
def tabled : State :=
  let s := ringed []
  let m := (s.mem.write 0x50000 ([1, 0x50100, 0x50200, 0].flatMap (bytesOfNat 8))).write 0x50100
    ([0, 0, 0x100000001, 1, 0, 0, 0, 0].flatMap (bytesOfNat 8))
  { s with mem := m }

/-- QueueServiceResults, but for the load of an object. -/
theorem witness_queue_services :
    served (ringed []) 0x10 [0x40000, 20] (fun s x => decide ((s.mbB 0).toNat % 16 = 0 ∧ (s.mbB 1).toNat ≤ 20 ∧ x.slot = some 0) &&
      decide (4 ≤ (4#64).toNat) && reachesMemory (s.mbB 0) && reachesMemory (s.mbB 0 + BitVec.ofNat 64 (16 * 2 ^ (s.mbB 1).toNat - 1))) = true ∧
    served (ringed []) 0x10 [0x8000000000, 4] (fun s _ => !reachesMemory (s.mbB 0)) = true ∧
    (∃ num t, State.pick { s0 with rings := [] } (fun y => (State.ringAt { s0 with rings := [] } 0 y).isNone) 1024 = (some num, t)) ∧
    served (ringed []) 0x11 [0, 0] (fun s _ => completionOk (s.mbB 0) && decide ((s.mbB 1).toNat < 2 ^ 10) && s.ringAt 0 0 == some 0 &&
      (s.rings[0]?.map (fun (r : Ring) => decide (r.st ≠ .destroying))) == some true) = true ∧
    served s0 0x30 [0xFF, 0] (fun s _ => decide ((s.mbB 0).toNat < 2 ^ 8) && !s.tableRuns 0 (s.mbB 0).toNat) = true ∧
    served tabled 0x30 [0x100, 0x50000] (fun s _ => decide ((s.mbB 0).toNat < 2 ^ 9 ∧ 2 ^ 8 ≤ (s.mbB 0).toNat) && !s.tableRuns 0 0 &&
      headerOk s.mem 0x50000 && (let t := s.readTable 0 (graphRanges s.mem 0x50000 ++ [(succBase s.mem 0x50000, succBytes s.mem 0x50000)])
        headerOk t.mem 0x50000 && decide (graphNodes t.mem 0x50000 = 1) && nodeOk t.mem 0x50000 0 &&
        (t.kernelOf 0 (nodeQuad t.mem 0x50000 0 0)).isSome && graphOk t.mem 0x50000)) = true ∧
    served (ringed []) 0x31 [0xFFF, 1, 0, 0, 0] (fun s _ => decide ((s.mbB 0).toNat < 2 ^ 12) && binEntryOk [s.mbB 1, s.mbB 2, s.mbB 3, s.mbB 4] &&
      (s.mbB 1).getLsbD 0 && decide (bitsOf (s.mbB 2) 48 16 = 0) && argsOk (s.mbB 3) && (s.kernelOf 0 (s.mbB 2)).isSome &&
      (s.binOf 0 (s.mbB 0).toNat).isNone && (s.capFor 4 (.bins 0) 0 (32 * (s.mbB 0).toNat) 32 true).isSome) = true ∧
    served (ringed []) 0x32 [0xFF, 0x10001, 0x100000, 0x200000, 1] (fun s x => decide ((s.mbB 0).toNat < 2 ^ 8 ∧
      s.mbB 1 &&& ~~~0x01FFFFFFFFFF0001#64 = 0#64 ∧ s.mbB 2 &&& ~~~0x0000FFFFFFFF0000#64 = 0#64 ∧ s.mbB 3 &&& ~~~0x0000FFFFFFFF0000#64 = 0#64 ∧
      x.pbBase ≠ 0 ∧ inHbm (s.mbB 2).toNat 65536 = true ∧ inHbm (s.mbB 3).toNat 65536 = true ∧ (s.mbB 2).toNat + 65536 ≤ (s.mbB 3).toNat) &&
      ((s.holdPb 0 x).capFor 4 (.pbTable 0) 0 (32 * (s.mbB 0).toNat) 28 true).isSome &&
      s.waves.all (fun w => !w.accessOpen)) = true ∧
    wave0 (on (fun w => { w with atoms := [⟨.add, false, 4, false, 0, .scalar 1, [⟨0, 0, .scratch 0, 1, 0⟩]⟩] })) (fun w => w.accessOpen) = true ∧
    served (ringed []) 0x32 [0xFF, 0, 0x100000, 0x100000, 1] (fun s x => decide (x.pbBase ≠ 0 ∧
      ¬ ((s.mbB 2).toNat + 65536 ≤ (s.mbB 3).toNat ∨ (s.mbB 3).toNat + 65536 ≤ (s.mbB 2).toNat))) = true ∧
    served ((ringed []).modCtx 0 (fun x => { x with graphs := [] })) 0x21 [0, 0] (fun s x => completionOk (s.mbB 0) &&
      s.objs.findIdx? (fun y => y.ctx == 0 && y.num == 0 && !y.unloaded) == some 0 && (s.objs[0]?.map (fun (o : Obj) => o.revoked)) == some false &&
      (s.tableNaming x 0).isNone && (x.binNaming 0).isNone) = true := by
  refine ⟨?_, ?_, ⟨_, _, rfl⟩, ?_⟩ <;> decide +kernel

/-! ### Witnesses for what the events leave in the state -/

/-- The boot machine with a page-table entry for 0x20001000. -/
def paged (e : Nat) : State := { ringed [] with mem := (ringed []).mem.write 0x14008 (bytesOfNat 8 e) }

/-- A host copy of one element to 0x20001000. -/
def hostCopy : CopyReq := CopyReq.fresh 0 0 0 0 (some (0, 0)) ([0x1#64, bootPc, 0x20001000#64, 0, 1] ++ List.replicate 11 0#64) [] .queued

/-- EventEffects: launches, groups, bins, graphs. -/
theorem witness_effects_work :
    let l : Launch :=
      { ctx := 0, num := 1, tree := 0, origin := .packet 0 0, kernel := bootKernel, args := 0, extent := (2, 1, 1), mclaim := false,
        home := none, stride := (0, 0, 0), next := 0, regs := [], depth := 0, sib := none, slots := [], table := none, listed := true,
        dead := false }
    let bin : Bin := { quads := [1, 0, 0, 0], slots := [0], tree := 0, depth := 0, sib := none, due := 0 }
    let tree : Tree := ⟨0, .bin 0, 0, 0, 0, 0, 0, 0, false, false, true⟩
    let s := { (ringed []).modCtx 0 (fun x => { x with bins := [(0, bin)] }) with trees := [tree] }
    let fenced := { s with cores := s.cores.map (fun c => { c with fenced := true }) }
    let run : GraphRun := { ctx := 0, table := 0, ring := 0, pkt := 0, counts := [0], waiting := [], running := 0, retired := 0,
                            ended := 0, failed := none, live := true }
    let g := { tabled with runs := [run] }
    ({ s0 with launches := [l] }.launches[0]? = some l ∧ (l.kernel.waveRoles[0]?).isSome ∧ 0 < s0.waves.length) ∧
    wave0 s0 (fun w => decide (w.st ≠ .retired)) = true ∧
    ((s0.modGroup 0 (fun y => { y with claim := true, fresh := true })).groups[0]?.map (fun (y : Group) => y.claim && y.fresh &&
      y.cores.contains 0)) = some true ∧
    (∀ p, p ∈ [(s, true), (fenced, false)] → p.1.binOf 0 0 = some bin ∧ bin.slots ≠ [] ∧ bin.tree < p.1.trees.length ∧
      (match p.1.kernelOf 0 (qAt bin.quads 1) with
        | some k => p.1.couldPlace (p.1.domainOf 0) (k.needs (fun _ => true)) == p.2
        | none => false) = true) ∧
    (g.runs[0]? = some run ∧ g.openTrees 0 < 4096 ∧ g.sealing 0 = false ∧
      4096 ≤ { g with trees := List.replicate 4096 tree }.openTrees 0 ∧
      (let u := g.readTable 0 [nodeRange g.mem (g.graphHeader 0 0) 0]
       (u.kernelOf 0 (nodeQuad u.mem (g.graphHeader 0 0) 0 0)).isSome = true ∧
       ({ u with objs := [] }.kernelOf 0 (nodeQuad u.mem (g.graphHeader 0 0) 0 0)).isNone = true)) := by decide +kernel

/-- EventEffects: traps, closes, copies, self-tests, replays. -/
theorem witness_effects_device :
    let t : SelfTest := ⟨.core 0, 8, .logic, none, [], some 0, false, false⟩
    let worked (n : Nat) (s : State) : State := { s with replays := [⟨.core 0, some 0, 8, n⟩] }
    (wave0 s0 (fun w => !w.handler && decide (s0.trapVec w ≠ 0#64 ∧ w.masks ≠ [])) = true ∧
      wave0 (s0.modCtx 0 (fun c => { c with act := { c.act with trapvec := 0 } })) (fun w => decide ((s0.modCtx 0 (fun c => { c with
        act := { c.act with trapvec := 0 } })).trapVec w = 0#64)) = true ∧ (s0.ctxs[0]?.map (fun (z : Ctx) => decide (z.st ≠ .faulted))) = some true) ∧
    (s0.ctxs[0]?.map (fun (z : Ctx) => decide (z.act.ckptSize = 0#64) && decide (({ z with act := { z.act with ckptSize := 1 } } : Ctx).act.ckptSize ≠ 0#64)))
      = some true ∧
    ((paged 0x8080037003).toWeightStore hostCopy = true ∧ (paged 0x8080037003).liveKernel hostCopy.ctx = true ∧
      s0.toWeightStore { request 1 .queued with desc := [0x800010#64, bootPc, 0x200#64, 0#64, 1#64, 0, 0, 0] } = false ∧
      ({ request 1 .queued with desc := [0x800010#64, bootPc, 0x200#64, 0#64, 1#64, 0, 0, 0] } : CopyReq).d.ring = true ∧
      (request 1 .queued).d.ring = false ∧ (request 1 .queued).reached = false ∧ (s0.bind (request 1 .queued)).isSome = true ∧
      ((paged 0x0200000000000201).modWave 0 (fun w => { w with st := .wait (.publ 2 0) })).bind hostCopy = none) ∧
    ((copying (request 2 .running)).copies[0]? = some (request 2 .running) ∧
      State.barrierBad { s0 with bad := [.groupPool 0 0] } { request 2 .running with desc := [0x400010#64, bootPc, 0x200#64, 0#64, 2#64, 0, 0, 0] } = true) ∧
    ((s0.groups[0]?.map (fun (y : Group) => decide (y.st = .running ∧ (0#64).toNat < s0.savedBytes 0 + s0.groupBytes 0 y ∧
        s0.savedBytes 0 + s0.groupBytes 0 y ≤ (0x1000000#64).toNat))) = some true ∧
      (s0.ctxs[0]?.map (fun (z : Ctx) => !z.agQueue.any (·.save) && !z.agBy.any (·.save))) = some true) ∧
    ((worked 2 s0).replayCount (workUnit t.unit) t.wave = 2 ∧ (worked 3 s0).replayCount (workUnit t.unit) t.wave = 3 ∧
      (worked 3 s0).workCtx t = some 0 ∧ (worked 3 s0).hasImage 0 = false ∧ (worked 3 (imaged s0)).workCtx t = some 0 ∧
      (worked 3 (imaged s0)).hasImage 0 = true ∧ t.wave = some 0 ∧ (worked 3 s0).waves[0]? = some w0 ∧ w0.handler = false ∧ w0.st ≠ .retired) := by decide +kernel

/-- An object file at 0x60000 with one image of one text section of zeros and one kernel (15 R366 to R371). -/
def objectFile : List (BitVec 8) :=
  ([0x000100014E515849, 64, 290, 0, 0, 0, 0, 0, 1, 0, 128, 162, 0, 0, 0, 0, 0x10001, 0, 64, 96, 96, 96, 160, 0, 0x100000000, 0, 0x100000000000, 0,
    0x100000000, 0, 0, 0, 0, 0, 0, 0].flatMap (bytesOfNat 8)) ++ [0x6B, 0]

def fileState : State := { s0 with mem := s0.mem.write 0x60000 objectFile }

/-- An object of another context that the load at 0x20010000 shares. -/
def twin : Obj :=
  { num := 9, ctx := 7, key := fileState.objectKey 0x60000 0x60080 0x20010000#64 [], base := 0x20010000#64, gotb := 0, limit := 0x20011000#64,
    ro := 0x100000, rw := 0x100000, pages := [], kernels := [], globals := [], revoked := false, unloaded := false }

def sharing : State := { fileState with objs := [twin] }

theorem withObjs_key (s : State) (l : List Obj) (f h : Nat) (base : DWord) (v : List DWord) :
    ({ s with objs := l } : State).objectKey f h base v = s.objectKey f h base v := rfl
theorem twin_key : twin.key = sharing.objectKey 0x60000 0x60080 0x20010000#64 [] := by
  rw [sharing, withObjs_key, twin]

theorem asking_key (s : State) (code ctx : Nat) (body : List Nat) (f h : Nat) (base : DWord) (v : List DWord) :
    (asking s code ctx body).objectKey f h base v = s.objectKey f h base v := rfl

/-- A request to load the object, once its file has been read. -/
def loadAsked : State := asking sharing 0x20 0x10000 [0x60000, 290, 0x20010000]
@[irreducible] def loading : State := loadAsked.readTable 0 [(0x60000, 290)]

theorem readTable_cache {s : State} {c : Nat} {x : Nat × Nat} (h : s.tablePoison [x] = none) : Laws.CacheOnly s (s.readTable c [x]) := by
  unfold State.readTable
  rw [h]
  exact Laws.cacheOnly_homeRange s x.1 x.2 false

theorem CacheOnly.mem {s t : State} (h : Laws.CacheOnly s t) : t.mem = s.mem := by
  unfold Laws.CacheOnly at h
  rw [h]
theorem CacheOnly.objs {s t : State} (h : Laws.CacheOnly s t) : t.objs = s.objs := by
  unfold Laws.CacheOnly at h
  rw [h]
theorem readTable_mem {s : State} {c : Nat} {x : Nat × Nat} (h : s.tablePoison [x] = none) : (s.readTable c [x]).mem = s.mem :=
  CacheOnly.mem (readTable_cache h)
theorem readTable_objs {s : State} {c : Nat} {x : Nat × Nat} (h : s.tablePoison [x] = none) : (s.readTable c [x]).objs = s.objs :=
  CacheOnly.objs (readTable_cache h)
theorem asking_mem (s : State) (code ctx : Nat) (body : List Nat) : (asking s code ctx body).mem = s.mem := rfl
theorem asking_objs (s : State) (code ctx : Nat) (body : List Nat) : (asking s code ctx body).objs = s.objs := rfl

theorem loading_calm : loadAsked.tablePoison [(0x60000, 290)] = none := by decide +kernel
theorem loading_mem : loading.mem = sharing.mem := by
  rw [loading]
  exact (readTable_mem loading_calm).trans (asking_mem ..)
theorem loading_objs : loading.objs = [twin] := by
  rw [loading]
  exact (readTable_objs loading_calm).trans (asking_objs ..)

/-- QueueServiceResults, OBJ_LOAD: the checks of the file hold, and its load, which shares the read-only part, succeeds. -/
theorem witness_load_object :
    served sharing 0x20 [0x60000, 290, 0x20010000] (fun s _ => reachesMemory (s.mbB 0) && reachesMemory (s.mbB 0 + 289#64)) = true ∧
    isOk (loadAsked.load_ 0 (bootCtx State.reset) 0x60000 290 0x20010000#64) = true := by
  refine ⟨by decide +kernel, ?_⟩
  have h1 : objectOk loadAsked.mem 0x60000 290 = true := by decide +kernel
  have h2 : selectImage sharing.mem 0x60000 (bootCtx State.reset).features = some 0 := by decide +kernel
  have h3 : imgAt sharing.mem 0x60000 0 = 0x60080 := by decide +kernel
  have h4 : imgRoom sharing.mem 0x60000 0 = 162 := by decide +kernel
  have h5 : loading.symValues 0 0x60080 162 0x20010000#64 = .ok [] := by
    have : imNsym sharing.mem 0x60080 = 0 := by decide +kernel
    simp [State.symValues, loading_mem, this, Pure.pure, Except.pure]
  have h6 : imNrel sharing.mem 0x60080 = 0 := by decide +kernel
  have h7 : loading.rangeFree 0 (bootCtx State.reset) 0x20010000#64 (imEnd sharing.mem 0x60080) = true := by decide +kernel
  have hk : loading.objectKey 0x60000 0x60080 0x20010000#64 [] = sharing.objectKey 0x60000 0x60080 0x20010000#64 [] := by
    simp only [State.objectKey, loading_mem]
  have h8 : loading.objs.find? (fun o => o.key == loading.objectKey 0x60000 0x60080 0x20010000#64 [] && !o.unloaded) = some twin := by
    rw [loading_objs, hk]
    exact List.find?_cons_of_pos (a := twin) (l := []) (Bool.and_eq_true_iff.2 ⟨beq_iff_eq.2 twin_key, rfl⟩)
  have hf : fileSize loadAsked.mem 0x60000 = 290 := by decide +kernel
  have h9 : isOk (loading.install 0 (bootCtx State.reset) 0x60080 162 0x20010000#64 [] (placed sharing.mem 0x60080)
      (loading.objectKey 0x60000 0x60080 0x20010000#64 [])) = true := by
    unfold State.install
    simp only [h8]
    decide +kernel
  unfold State.load_
  rw [h1, hf]
  have hl : loadAsked.readTable 0 [(0x60000, 290)] = loading := loading.eq_1.symm
  simp only [hl, loading_mem, h2, h3, h4, h5, h6, h7, relocateAll]
  revert h9
  cases loading.install 0 (bootCtx State.reset) 0x60080 162 0x20010000#64 []
    (placed sharing.mem 0x60080) (loading.objectKey 0x60000 0x60080 0x20010000#64 [])
  · intro h; cases h
  · intro _; rfl

/-- A begun wait for translations of the boot context, with its completion record at `a`. -/
def begunAt (a : DWord) : Begun := ⟨0x08, 0, 7, a, 0, 0, 0, [], false, false⟩

/-- DeviceServiceResults, the end of a begun service, with and without an address for its record. -/
theorem witness_completion (a : DWord) : ({ s0 with begun := [begunAt a] } : State).begun[0]? = some (begunAt a) ∧ (begunAt a).ended = false ∧
    ({ s0 with begun := [begunAt a] } : State).firstBegun 0 0 = true ∧
    ({ s0 with begun := [begunAt a] } : State).serviceEnd 0 (begunAt a) = some (0, { s0 with begun := [begunAt a] }) :=
  have h : s0.accessesDone (· == 0) = true := by decide +kernel
  ⟨rfl, rfl, rfl, if_pos (e := none) h⟩

/-- DeviceServiceResults. -/
theorem witness_device_services :
    ((asking s0 0x99 0 []).mbBusy = true ∧ (asking s0 0x99 0 []).spdmBefore = 0 ∧ (asking s0 0x99 0 []).mbService ∉ serviceCodes) ∧
    (State.spdmBefore { asking s0 0x03 0 [] with spdmBefore := 1, spdmIn := [(.smbus, [0x10, 0x84, 0, 0])] } ≠ 0) ∧
    (let s := asking s0 0x40 0xFFFFFFFF (63 :: 1 :: (List.replicate 159 0 ++ [0x1FF00FF]))
     requested s 0x40 1296 noContext = true ∧ (s.mbB 0).toNat < 2 ^ 6 ∧ ∀ c, c < 160 → s.mbB (2 + c) &&& ~~~0x1FF00FF#64 = 0#64) ∧
    requested (asking s0 0x41 0xFFFFFFFF [63]) 0x41 8 noContext = true ∧ requested (asking s0 0x42 0xFFFFFFFF [63, 1, 2, 3, 4]) 0x42 40 noContext = true ∧
    (let p (v : Nat) (q : DWord → Bool) : Bool := requested (asking s0 0x50 0xFFFFFFFF [v]) 0x50 8 noContext &&
       q ((asking s0 0x50 0xFFFFFFFF [v]).mbB 0)
     p 0 (fun b => b &&& ~~~0xFFF0001#64 == 0#64 && !b.getLsbD 0) = true ∧
     p (600 * 65536 + 1) (fun b => b &&& ~~~0xFFF0001#64 == 0#64 && b.getLsbD 0 && decide (600 ≤ bitsOf b 16 12)) = true ∧
     p (2100 * 65536 + 1) (fun b => b &&& ~~~0xFFF0001#64 == 0#64 && b.getLsbD 0 && decide (bitsOf b 16 12 ≤ 2100)) = true) ∧
    (let s := asking s0 0x51 0xFFFFFFFF [0xD08, 8]
     requested s 0x51 16 noContext = true ∧ (s.mbB 0).toNat + (s.mbB 1).toNat ≤ 0xD10) ∧
    (let s := asking s0 0x52 0xFFFFFFFF [0x1003F, 0xFFFF, 0, 0, 0, 0]
     requested s 0x52 48 noContext = true ∧ s.mbB 0 &&& ~~~0x1003F#64 = 0#64 ∧ (s.mbB 1).toNat < 2 ^ 16) ∧
    (let s := asking s0 0x60 0xFFFFFFFF [0x60000, 16]
     requested s 0x60 16 noContext = true ∧ reachesMemory (s.mbB 0) = true ∧ reachesMemory (s.mbB 0 + 15#64) = true) ∧
    (∀ m, m ∈ [0x84, 0xE1, 0xE3, 0x81, 0x82, 0x83, 0xE0, 0xFE] →
      let s := asking s0 0x70 0xFFFFFFFF [256 * m]
      requested s 0x70 8 noContext = true ∧ s.mbBuf.num 33 1 = m ∧
        spdmCode [0x10, BitVec.ofNat 8 m, 0, 0] = m) ∧
    requested (askingPad s0 0x70 0xFFFFFFFF [] 4064) 0x70 4064 noContext = true ∧
    (let s := { asking s0 0x41 0xFFFFFFFF [63] with recovery := true }
     s.recovery = true ∧ s.mbBusy = true ∧ s.spdmBefore = 0 ∧ s.mbService = 0x41) := by decide +kernel

/-! ### Witnesses for checks, formats, accesses and records -/

/-- ScalarImmediateResults, PrefixResults: a group with HINT.IMM alone, one with HINT.MOD, one with both. -/
theorem witness_prefixed :
    let p (i m : Option (BitVec 20)) : State := on (fun w => { w with pfx := some ⟨bootPc, i, m⟩ })
    (∀ j, j ∈ [Instr.addi 0 1 2 3, .andi 0 1 2 3, .ori 0 1 2 3, .xori 0 1 2 3, .slti 0 1 2 3, .sltiu 0 1 2 3] →
      met (p (some 5) none) j (fun w => !(p (some 5) none).strict w && (p (some 5) none).bad == []) = true) ∧
    wave0 (p none (some 0)) (fun w => w.pfx == some ⟨bootPc, none, some 0⟩) = true ∧
    wave0 (p (some 5) (some 0)) (fun w => w.pfx == some ⟨bootPc, some 5, some 0⟩) = true := by decide +kernel

/-- VectorFloatResults: a sum below and beyond the largest E4M3 value, and the flushed formats. -/
theorem witness_rounding :
    let f := FloatFmt.e4m3
    let tooBig (m : Nat) (e : Int) : Bool :=
      let low : Int := 1 - (f.bias : Int) - f.frac
      let q : Int := max ((Nat.log2 m : Int) + e - f.frac) low
      decide (f.maxMag < m * 2 ^ (e - q).toNat / 2 ^ (q - e).toNat + (q - low).toNat * 2 ^ f.frac)
    f ∈ [FloatFmt.fp32, .bf16, .fp16, .e4m3, .e5m2, .e2m1, .fp64] ∧ 0 < 3 ∧ tooBig 3 0 = false ∧ tooBig 3 (-20) = false ∧ tooBig 3 9 = true ∧
    ElemFmt.fp32.float? = some .fp32 ∧ ElemFmt.e4m3.float? = some .e4m3 := by decide +kernel

/-- VectorPackedResults: the last sub-element of each format; sums within and beyond the bounds of INT8. -/
theorem witness_packed : 1 < 32 / ElemFmt.bf16.width ∧ 1 < 32 / ElemFmt.fp16.width ∧ 3 < 32 / ElemFmt.e4m3.width ∧ 3 < 32 / ElemFmt.e5m2.width ∧
    ((127 : Int) < 127 + 1 ∧ (-128 : Int) ≤ 1 + 1 ∧ (1 : Int) + 1 ≤ 127) ∧ w0.modes.sat = false ∧
    ({ w0 with pfx := some ⟨bootPc, none, some 0x10000#20⟩ } : Wave).modes.sat = true := by decide +kernel

/-- VectorConversionResults: an integer, a NaN, an infinity and a finite source; blocks with and without a value that is not finite,
all zeros, and with a largest one; a DX8 element for B, for A, and beyond both. -/
theorem witness_conversion :
    (ElemFmt.int8.isInt = true ∧ ElemFmt.int32.isInt = true ∧ ElemFmt.fp32.isInt = false ∧ ElemFmt.int8.width < ElemFmt.int32.width) ∧
    (srcNum .fp32 Modes.default 0x7FC00000 = .nan ∧ srcNum .fp32 Modes.default 0x7F800000 = .inf false ∧
      srcNum .fp32 Modes.default 0x3F800000 = .fin false 0x800000 (-23)) ∧
    ((Machine.Num.inf false).isFin = false ∧ (Machine.Num.fin false 1 3).isFin = true ∧ (Machine.Num.fin false 0 0).log2? = none ∧
      (Machine.Num.fin false 1 3).log2? = some 3) ∧
    (let r (e sc : Int) : Nat := (roundMag RoundMode.rne.near false 1 (e + 5 - (sc - 127)) 0).1
     r (-5) 122 ≤ 63 ∧ 63 < r 0 122 ∧ r 0 127 ≤ 63 ∧ 63 < r 6 122 ∧ 63 < r 6 127) := by decide +kernel

/-- CrossLaneResults: active lanes, and one that is not. -/
theorem witness_active : (1#8).toNat < w0.vregs.length ∧ w0.activeLanes = 0 :: (List.range 32).drop 1 ∧
    (Wave.withM w0 0 1).active 31 = false ∧ (Wave.withM w0 0 1).activeLanes = [0] := by decide +kernel

/-- The boot machine with a writable page at 0x20001000 (physical 0x21000), and one whose Glint traps races, with a record that another wave
stored to the first sectors of that page and of the boot page. -/
def pageAt (s : State) : State := { s with mem := s.mem.write 0x14008 (bytesOfNat 8 0x21003) }
def glinting (mode : DWord) (s : State) : State :=
  let y := some (⟨(s.groups.map (·.gid)).headD 0, 0, 5, 0, false, true⟩ : Sector)
  { s.modCtx 0 (fun c => { c with act := { c.act with glintCtl := mode } }) with
    llc := [⟨0x400, false, [y, y, y, y]⟩, ⟨0x420, false, [y, y, y, y]⟩] }

/-- What Glint notes of an access, and the line that is met. -/
def raced (s : State) (acc : Acc) (wr : Bool) (l : List Touch) : Bool :=
  wave0 s (fun w => (((s.walks 0 acc l).glintList w false wr 0 (if wr then l else l.filter (fun e => (s.walks 0 acc l).reachesHome 0 w e.place))).2).isSome)
def touched (s : State) (f : Wave → Except TrapInfo (List (Nat × DWord × Place))) (p : List Touch → Bool) : Bool :=
  wave0 s (fun w => match f w with
    | .ok ps => p (touches 4 ps)
    | .error _ => false)

/-- LoadResults, StoreResults: each check that fails, after a lane that passes too. -/
theorem witness_access_checks :
    let at_ (va : DWord) : State := pageAt (on (fun w => Wave.withS w 1 va))
    let got (acc : Acc) (al : Nat) (va : DWord) : Option TrapInfo := match (s0.checkAccess w0 acc false al va 8 : Except TrapInfo Place) with
      | .error t => some t
      | .ok _ => none
    (1 % 8 ≠ 0 ∧ windowOf 0xFF0000000001FFFC = .scratch 0x1FFFC ∧ (got .rd 4 (0xFF00000000000000 + BitVec.ofNat 64 (s0.scratchSize w0) - 4)).isSome ∧
      canonical 0x0100000000000000 = false ∧ canonical bootPc = true ∧ windowOf bootPc = .none) ∧
    (isOk (s0.leafOf (some 0) .wr 0 (s0.walkGen 0 0) (vaBits bootPc)) = true ∧
      (match s0.leafOf (some 0) .wr 0 (s0.walkGen 0 0) (vaBits bootPc) with
        | .ok e => isOk (s0.resolveLeaf 0 w0.gen (vaBits bootPc) e) && !pteW e
        | .error _ => false) = true) ∧
    (∀ i, i ∈ [Instr.sld 0 2 1 0, .sst 0 2 1 0, .vld32 0 1 2 1, .vst32 0 1 2 1, .vldl 0 1 1, .vstl 0 1 1, .hvld 0 1 1, .hvst 0 1 1, .vstc 0 2 1 3] →
      met (at_ 0x100000) i (fun w => !isOk ((at_ 0x100000).checkAccess w .rd false 8 0x100000 8)) = true ∧ ready (at_ 1) w0 i = true) ∧
    (let s := on (fun w => Wave.withV (Wave.withS w 1 bootPc) 2 [0, 0x100000])
     wave0 s (fun w => match checkLanes (fun e => s.checkAccess w .rd false 4 e 4) (w.gatherAddrs 1 2) with
       | .error t => t.lane == some 1 && (lanesBefore (fun e => s.checkAccess w .rd false 4 e 4) (w.gatherAddrs 1 2)).length == 1
       | .ok _ => false) = true) ∧
    (let leaf (e : Nat) (p : State → BitVec 64 → Bool) : Bool :=
       let s := { s0 with mem := s0.mem.write 0x14008 (bytesOfNat 8 e) }
       match s.leafOf (some 0) .wr 0 (s.walkGen 0 0) (vaBits 0x20001000) with
       | .ok e => p s e
       | .error _ => false
     leaf 0x8080037003 (fun s e => pteW e && (match s.resolveLeaf 0 w0.gen (vaBits 0x20001000) e with
       | .ok pa => (paKind pa).isWs
       | .error _ => false)) = true ∧
     leaf 0x0200000000000201 (fun s e => !isOk (s.resolveLeaf 0 w0.gen (vaBits 0x20001000) e)) = true ∧
     (State.walkPoison { s0 with poison := [0x280] } (some 0) .wr 0 (s0.walkGen 0 0) (vaBits 0x20001000)).isSome = true) ∧
    (s0.ctxs[0]?.map (·.glintMode)) = some 0 := by decide +kernel

/-- LoadResults, StoreResults: a race in trap mode, one that is logged, none; a poisoned line; bytes pending, owned, in a copy, in none. -/
theorem witness_accesses :
    let s := pageAt (on (fun w => Wave.withS w 1 0x20001000))
    let l : List Touch := [⟨none, 0x20001000, .phys 0x21000 false, 8⟩]
    raced (glinting 2 s) .rd false l = true ∧ raced (glinting 2 s) .wr true l = true ∧ raced s .rd false l = false ∧ raced (glinting 1 s) .wr true l = false ∧
    isOk (s.checkAccess w0 .wr false 8 0x20001000 8) = true ∧
    ((glinting 2 s).ctxs[0]?.map (fun (c : Ctx) => decide (c.glintMode ≠ 0) && !c.glintOff && !c.logErr)) = some true ∧
    ((glinting 1 s).llcFill 0x420).sectorOf 0x420 0 = some ⟨(s0.groups.map (·.gid)).headD 0, 0, 5, 0, false, true⟩ ∧ (s.llcFill 0x420).sectorOf 0x420 0 = none ∧
    wave0 { s with poison := [0x420] } (fun w => State.meets { s with poison := [0x420] } 0 w (.phys 0x21000 false)) = true ∧
    wave0 s (fun w => !s.meets 0 w (.phys 0x21000 false) && !s.tileBad w 3 && (chooseCopy [] 0 w 0x420).isNone &&
      (chooseCopy [⟨0x420, 0, Side.none, 0, 0, 0, [0]⟩] 0 w 0x420).isSome && State.tileBad { s with bad := [.tile 0 0 1 1] } w 3) = true ∧
    l1Holds 0x21000 false = true ∧ l1Holds 0x21000 true = false ∧ pendingByte [⟨0x20001000, .scratch 8, [some 7], none, []⟩] (.scratch 8) = some 7 ∧
    pendingByte [] (.scratch 8) = none := by decide +kernel

/-- The boot machine with one tree, one enabled bin and one object of two siblings, of the kinds given. -/
def forked (k0 k1 : SibKind) (fin : Bool) (slots : List Nat) : State :=
  let bin : Bin := { quads := [1 + 4096 * 1, 0, 0, 0], slots := slots, tree := 0, depth := 0, sib := none, due := 9 }
  let sgo : Sgo := { num := 0, gen := 0, tree := 0, sibs := [⟨k0, 0, 0, false, true⟩, ⟨k1, 0x3F800000, 0, false, true⟩], eps := 0, timeout := 0,
                     due := none, expired := false, final := fin, live := true }
  { (s0.modCtx 0 (fun c => { c with bins := [(0, bin)], sgos := [sgo] })).modGroup 0 (fun g => { g with sib := some ⟨0, 0, 0⟩ }) with
    trees := [⟨0, .packet 0 0, 1, 0, 1, 0, 0, 0, false, false, true⟩] }

/-- WorkWordResults, the record of ENQ: a pool with room and one without, each depth, a set with room, one that fires, one of another tree. -/
theorem witness_records :
    let s := forked .waiting .waiting false []
    (s.trees[0]?.map (·.abandoned)) = some false ∧ wave0 s (fun w => !s.meets 0 w (.scratch 0)) = true ∧
    (s.groups[0]?.map (fun (g : Group) => decide (g.depth < 24))) = some true ∧ (∃ n t, s.pickSlotOf 0 = (some n, t)) ∧
    (∀ i, i < 1048576 → i ∈ List.range 1048576) ∧
    ((forked .waiting .waiting false [7]).binOf 0 0).map (fun b => (b.coal, b.slots, decide (b.tree ≠ 1))) = some (2, [7], true) ∧
    (s.binOf 0 0).map (fun b => (b.coal, b.slots)) = some (2, []) ∧ s.ctxs.map (fun x => decide (x.resClock < 9)) = [true] := by
  refine ⟨rfl, by decide +kernel, by decide +kernel, ⟨_, _, rfl⟩, fun i h => List.mem_range.2 h, ?_⟩
  decide +kernel

/-- WorkWordResults, SGFORK: every number in use, and a pool that is full. -/
theorem witness_fork (num : Nat) (h : num < 65536) :
    let o (n : Nat) : Sgo := ⟨n, 0, 0, [], 0, 0, none, false, false, true⟩
    (∃ p ∈ (List.range 65536).map o, p.num = num ∧ p.live = true) ∧ 1048576 < (List.range 1048576).length + 1 ∧ ([] : List Nat).length + 256 ≤ 1048576 ∧
    (¬ ∃ p ∈ ([] : List Sgo), p.num = 0 ∧ p.live = true) ∧ (∀ m, m < 1 → ∃ p ∈ [o 0], p.num = m ∧ p.live = true) := by
  refine ⟨⟨_, List.mem_map.2 ⟨num, List.mem_range.2 h, rfl⟩, rfl, rfl⟩, by rw [List.length_range]; decide, by decide, by simp, ?_⟩
  intro m hm
  exact ⟨_, List.mem_singleton.2 rfl, (show (0 : Nat) = m by omega), rfl⟩

/-- WorkWordResults, SGREWARD to SGQUERY and finalisation: an object that is gone, open, final; a last reward, one that leaves a sibling. -/
theorem witness_group_objects :
    let r : SibRef := ⟨0, 0, 0⟩
    let kinds (s : State) (c : Nat) : Option (List SibKind × Bool) := ((s.sgExpire 0 ⟨0, 0, c⟩).sgoOf 0 ⟨0, 0, c⟩).map (fun o => (o.sibs.map (·.kind), o.final))
    kinds (forked .waiting .waiting false []) 0 = some ([.waiting, .waiting], false) ∧ kinds (forked .reported .reported true []) 1 =
      some ([.reported, .reported], true) ∧ kinds s0 0 = none ∧ kinds (forked .cancelled .waiting false []) 0 = some ([.cancelled, .waiting], false) ∧
    kinds (forked .reported .nonfin false []) 0 = some ([.reported, .nonfin], false) ∧
    (let e1 (s : State) := (s.modSgo 0 r (fun p => { p with sibs := p.sibs.modify 0 (fun y => { y with kind := .reported }) })).settleSgo 0 r
     ((e1 (forked .waiting .waiting false [])).sgoOf 0 r).isSome = true ∧ ((e1 (forked .waiting .reported false [])).sgoOf 0 r).isNone = true) ∧
    SibRef.ofWord 0 = r ∧ (0#64).getLsbD 63 = false ∧ SibRef.ofWord 0x8000000000000000 = r ∧ (0x8000000000000000#64).getLsbD 63 = true ∧
    ((forked .waiting .waiting false []).groups[0]?.map (fun (g : Group) => g.sib == some r)) = some true ∧
    (⟨0, 0, 0, [⟨.reported, 0x3F800000, 0, false, false⟩, ⟨.timedout, 0, 0, false, false⟩], 0, 0, none, false, false, true⟩ : Sgo).sibs.map (·.kind) =
      [.reported, .timedout] := by decide +kernel

/-- CopyWordResults: COPYK and PUBL with a store pending; a buffer that is not enabled, and one of another generation; requests that enter. -/
theorem witness_copy_boundaries :
    let d := bytesOfNat 8 0x10 ++ bytesOfNat 8 0x20000000 ++ bytesOfNat 8 0x200 ++ bytesOfNat 8 0 ++ bytesOfNat 2 1
    let p : PStore := ⟨0xFF00000000000400, .scratch 0x400, [some 1], none, []⟩
    let s := (on (fun w => { Wave.withS w 5 0 with pend := [p] })).modGroup 0 (fun g => { g with scratch := g.scratch.write 0 d })
    let pb (m : List (BitVec 8)) : State := { (on (fun w => { w with pend := [p] })).modCtx 0 (fun c => { c with act := { c.act with pbTable := 0x30000 } }) with
      mem := s0.mem.write 0x30040 m }
    met s (.copyk 0 5) (fun w => decide (s.queueUsed w.core < 64) &&
      (let s1 := s.showDescriptor 0 w (w.s 5)
       wave0 s1 (fun y => !y.pend.isEmpty) && isOk (s1.readDescriptor w (w.s 5)) && (s1.descriptorBad w (w.s 5)).isNone)) = true ∧
    met (pb [1]) (.publ 0 2) (fun w => !w.pend.isEmpty && ((pb [1]).pbPoison w.ctx 2).isNone && (pb [1]).pbEnabled w.ctx 2 &&
      decide (w.gen 2 = (pb [1]).pbGen w.ctx 2)) = true ∧
    met (pb [0]) (.publ 0 2) (fun w => !(pb [0]).pbEnabled w.ctx 2) = true ∧
    (let u := { pb [1] with mem := (pb [1]).mem.write 0x3005C [7] }
     met u (.publ 0 2) (fun w => u.pbEnabled w.ctx 2 && decide (w.gen 2 ≠ u.pbGen w.ctx 2)) = true) ∧
    (s0.copies.length = 0 ∧ ((State.releaseDone { s0 with copies := [CopyReq.fresh 0 0 0 0 none [] [] .reserved] } 0 2).copies[0]?).isSome = true) := by
  decide +kernel

/-- ChecksComeFirst: each check that fails in turn, and a word that passes all; fields of a prefix that are and are not accepted. -/
theorem witness_refusals :
    let mods (m : BitVec 20) : Wave := { w0 with pfx := some ⟨bootPc, none, some m⟩ }
    let form (i : Instr) (p : Form → Bool) : Bool := match issueForm i with
      | some f => p f
      | none => false
    form (.add 0 1 2 3) (fun f => f.accepts w0 && (f.sources w0 ++ f.dst).all (·.inBudget w0) && f.feat == none) = true ∧
    form (.add 0 1 2 3) (fun f => !f.accepts (mods 0)) = true ∧ form (.vaddF32 0 1 2 3) (fun f => f.accepts (mods 0x10000) && !f.accepts (mods 0x4000)) = true ∧
    form (.vaddI32 0 1 2 255) (fun f => !(f.sources { w0 with numV := 8 }).all (·.inBudget { w0 with numV := 8 })) = true ∧
    form (.icinv 0) (fun f => f.priv && !plain.privileged w0 && f.accepts w0) = true ∧
    form (.mma 0 1 9 0 0 8) (fun f => f.feat == none || f.feat.isSome) = true ∧
    (match (strictly [Out.s 2 0]).waves[0]? with
      | some w => form (.add 0 1 3 2) (fun f => (f.sources w ++ f.dst).any w.outstanding && (strictly [Out.s 2 0]).strict w)
      | none => false) = true ∧ (strictly [Out.s 2 0]).bad = [] ∧ s0.bad = [] ∧ s0.strict w0 = false ∧ w0.pfx = none ∧
    (5 < w0.numV ∨ 5 < 64) ∧ (0x042#12).toNat ≤ 0x42 ∧ s0.ctxs[w0.ctx]?.isSome := by decide +kernel

/-- SystemWordResults, END: a wave that waits for its end and is done, with requests and commands that have ended; the last wave of a group and
another; engine work that is open. -/
theorem witness_retirement :
    let s := on (fun w => { w with st := .wait .ending })
    let two := { s with waves := s.waves ++ [{ w0 with slot := 1 }], groups := s.groups.map (fun (g : Group) => { g with waves := [0, 1] }) }
    wave0 s (fun w => !w.stopped && w.due == [] && decide (w.st = .wait .ending)) = true ∧ s.waveDone 0 = true ∧
    State.waveDone { s with copies := [CopyReq.fresh 0 0 0 0 none [] [] .running] } 0 = false ∧
    (s.groups[0]?.map (fun (g : Group) => decide (g.st ≠ .retired) && g.sib == none && g.waves == [0])) = some true ∧ s.engineBusy 0 = false ∧
    State.engineBusy { s with copies := [CopyReq.fresh 0 0 0 0 none [] [] .running] } 0 = true ∧
    (two.groups[0]?.map (·.waves)) = some [0, 1] ∧ (two.waves[1]?.map (fun (w : Wave) => decide (w.st ≠ .retired))) = some true ∧
    (s.groups[0]?.bind (fun (g : Group) => (State.trees { s with trees := [⟨0, .packet 0 0, 1, 0, 0, 0, 0, 0, false, false, true⟩] })[g.tree]?)).isSome = true ∧
    (s.groups[0]?.bind (fun (g : Group) => s.ctxs[g.ctx]?)).isSome = true := by decide +kernel

/-- EngineEventResults, AfterglowEventResults, DeviceEventResults, EventEffects: a request that waits on a phase whose object is lost; queued
closes; lost data in a granule; ports that are up and down; a line of an L1; reads and atomics of the host and of a peer; ports that are dead;
a node with and without Lantern's entry. -/
theorem witness_events :
    (let q := { request 2 .ringwait with desc := [0x800010#64, bootPc, 0x200#64, 0#64, 2#64, 0, 0, 0x100] }
     let s := { copying q with bad := (List.range 1024).map (.groupPool 0 ·) }
     (s.copies[0]?.map (fun (x : CopyReq) => s.phaseFails x)) = some true ∧ (s.copyFault 0).map (·.cause) = some causeEcc) ∧
    (let r : List CloseReq := [⟨.device, false⟩, ⟨.device, true⟩]
     let x := { bootCtx s0 with st := .faulted, agQueue := r }
     x.agQueue = [⟨.device, false⟩] ++ ⟨.device, true⟩ :: [] ∧ x.closing = false ∧ x.st = .faulted) ∧
    (s0.ctxs[0]?.map (fun (x : Ctx) => (s0.granulePoison x [.front]).isNone && (State.granulePoison { s0 with poison := [0] } x [.granule 0 0]).isSome)) = some true ∧
    ({ s0 with ports := [true, false] } : State).ports[1]? = some false ∧ (∀ j, j ∈ [0, 1, 2] → s0.ports.getD j true = true) ∧
    (s0.correctableCode (.cacheLine 0 0x400) ≠ none ∧ (s0.cores[0]?).isSome) ∧
    (0x20000 + 8 ≤ 0x8000000000 ∧ 0 < 8 ∧ (0x20000 + 8 - 1) / 128 = 0x20000 / 128 ∧ 0x20000 % 8 = 0 ∧ s0.mem.wf = true) ∧
    (atomWrites .cas true 5 ⟨0, 0, .phys 0x20000 true, 4, 0⟩ = false ∧ atomWrites .add true 5 ⟨0, 0, .phys 0x20000 true, 4, 0⟩ = true) ∧
    (1#16 &&& ~~~0#16 ≠ 0#16 ∧ 1#16 &&& ~~~1#16 = 0#16) ∧ 1 < s0.ports.length ∧
    ((tabled.capFor 3 (.graph 0 0 1) 0 0 64 false).isSome ∧ (State.capFor { tabled with caps := [] } 3 (.graph 0 0 1) 0 0 64 false).isNone) := by
  decide +kernel

end Sys2Proof.Tests
end

/-! PROOFS of 02_memory_path: storing words (O22), the machine right after reset (O49), and the events of results, memory,
registers and fetch (O52). -/

namespace Sys2Proof.MemoryPath

open Sys2Proof Sys2Proof.Machine Sys2Proof.Laws

/-! ### The meanings of the storing words -/

section
variable (sw : BitVec 1) (x a e : BitVec 6) (i : BitVec 12) (v o : BitVec 8) (b : BitVec 5) (h f : BitVec 4) (c : BitVec 3)
  (s : State)

theorem exec_sst : exec (.sst sw x a i) s = execSst sw x a i s := rfl
theorem exec_vst8 : exec (.vst8 sw v o b) s = execVst8 sw v o b s := rfl
theorem exec_vst16 : exec (.vst16 sw v o b) s = execVst16 sw v o b s := rfl
theorem exec_vst32 : exec (.vst32 sw v o b) s = execVst32 sw v o b s := rfl
theorem exec_vstl : exec (.vstl sw v a) s = execVstl sw v a s := rfl
theorem exec_vstb : exec (.vstb sw v a) s = execVstb sw v a s := rfl
theorem exec_vstc : exec (.vstc sw v a e) s = execVstc sw v a e s := rfl
theorem exec_accst : exec (.accst sw c a e) s = execAccst sw c a e s := rfl
theorem exec_acccvt : exec (.acccvt sw c a e f) s = execAcccvt sw c a e f s := rfl
theorem exec_hvst : exec (.hvst sw h a) s = execHvst sw h a s := rfl

end

/-! ### A word that hands stores over, and a word that fails one of its checks -/

/-- The word `j`, with accesses `l` whose places are found, traps if Glint traps one of them, and otherwise hands over the
stores `ps` and goes on (05 R131, R155). -/
def HandsOver (s : State) (w : Wave) (sw : BitVec 1) (j : Instr) (l : List Touch) (ps : List Put) : Prop :=
  let noted := (s.walks s.cur .wr l).glintList w false true 0 l
  (∀ t, noted.2 = some t → s.Gives w j (s.afterWord sw (noted.1.takeTrap s.cur t false))) ∧
  (noted.2 = none →
    s.Gives w j (s.afterWord sw ((ps.foldl (fun t p => t.putStore s.cur p) noted.1).advance s.cur)))

/-- The word `j`, of which an access fails a check with `t` after the accesses `before`, traps, with no access or with
Glint off (02 R76). -/
def StopsAfter (s : State) (w : Wave) (sw : BitVec 1) (j : Instr) (before : List Touch) (t : TrapInfo) : Prop :=
  (before = [] → s.Gives w j ((s.failedLooks s.cur t).takeTrap s.cur t false)) ∧
  (∀ c, before ≠ [] → s.ctxs[w.ctx]? = some c → c.glintMode = 0 →
    s.Gives w j (s.afterWord sw (((s.walks s.cur .wr before).failedLooks s.cur t).takeTrap s.cur t false)))

/-- Glint with MODE 0 checks no access, whatever is poisoned (05 R151). -/
theorem glintList_off {s : State} {w : Wave} {c : Ctx} (hc : s.ctxs[w.ctx]? = some c) (hm : c.glintMode = 0)
    (atom wr : Bool) (scope : Nat) (l : List Touch) : s.glintList w atom wr scope l = (s, none) := by
  have check (pc va : DWord) (pa : Nat) (ms : Bool) : s.glintCheck w pc va pa ms atom wr scope = (s, none) := by
    unfold State.glintCheck
    rw [hc]
    cases s.groups[w.group]? <;> simp [hm]
  induction l with
  | nil => rfl
  | cons t l ih => cases hp : t.place <;> simp [State.glintList, hp, check, ih]

theorem glintRows_off {s : State} {w : Wave} {c : Ctx} (hc : s.ctxs[w.ctx]? = some c) (hm : c.glintMode = 0)
    (rows : List (List (DWord × Nat × Place))) : s.glintRows w rows = (s, none) := by
  induction rows with
  | nil => rfl
  | cons y rows ih => simp [State.glintRows, glintList_off hc hm, ih]

theorem stores_of_race {s u : State} {wid : Nat} {w : Wave} {l : List Touch} {t : TrapInfo}
    (h : (s.walks wid .wr l).glintList w false true 0 l = (u, some t)) (ps : List Put) :
    s.stores wid w l ps = u.takeTrap wid t false := by
  simp [State.stores, State.unlessRace, h]

theorem stores_of_noRace {s u : State} {wid : Nat} {w : Wave} {l : List Touch}
    (h : (s.walks wid .wr l).glintList w false true 0 l = (u, none)) (ps : List Put) :
    s.stores wid w l ps = (ps.foldl (fun t p => t.putStore wid p) u).advance wid := by
  simp [State.stores, State.unlessRace, h]

/-- With no access before it, a failing check is the word's own error. -/
theorem faultAfter_first (s : State) (wid : Nat) (w : Wave) (atom wr : Bool) (scope : Nat) (t : TrapInfo) :
    s.faultAfter wid w atom wr scope [] t = .error t := by
  cases wr <;> rfl

/-- With Glint off, the stores before a failing check have only made their translations. -/
theorem faultAfter_off {s : State} {wid : Nat} {w : Wave} {c : Ctx} {l : List Touch} (hc : s.ctxs[w.ctx]? = some c)
    (hm : c.glintMode = 0) (hl : l ≠ []) (t : TrapInfo) :
    s.faultAfter wid w false true 0 l t = .ok (((s.walks wid .wr l).failedLooks wid t).takeTrap wid t false) := by
  have hw : (s.walks wid .wr l).ctxs[w.ctx]? = some c := by rw [(cacheOnly_walks s wid .wr l).ctxs, hc]
  simp [State.faultAfter, glintList_off hw hm, hl]

section
variable {s : State} {w : Wave} {j : Instr} {f : Form} {body : Nat → Wave → Except TrapInfo State} {sw : BitVec 1}

theorem handsOver_of_stores {l : List Touch} {ps : List Put} (hf : issueForm j = some f) (hs : f.sw = sw)
    (he : exec j s = s.issue j f body)
    (hb : body s.cur w = .ok (s.stores s.cur w l ps)) : HandsOver s w sw j l ps := by
  subst hs
  refine ⟨fun t ht => ?_, fun hn => ?_⟩
  · rw [← stores_of_race (Prod.ext rfl ht) ps]
    exact gives_issue hf he fun _ => hb
  · rw [← stores_of_noRace (Prod.ext rfl hn) ps]
    exact gives_issue hf he fun _ => hb

theorem stopsAfter_of_faultAfter {before : List Touch} {t : TrapInfo} (hf : issueForm j = some f) (hs : f.sw = sw)
    (he : exec j s = s.issue j f body) (hb : body s.cur w = s.faultAfter s.cur w false true 0 before t) :
    StopsAfter s w sw j before t := by
  subst hs
  refine ⟨fun hl => ?_, fun c hl hc hm => ?_⟩
  · subst hl
    exact gives_error hf he fun _ => hb.trans (faultAfter_first ..)
  · exact gives_issue hf he fun _ => hb.trans (faultAfter_off hc hm hl t)

theorem stopsAfter_of_error {t : TrapInfo} (hf : issueForm j = some f) (hs : f.sw = sw)
    (he : exec j s = s.issue j f body)
    (hb : body s.cur w = .error t) : StopsAfter s w sw j [] t := by
  subst hs
  exact ⟨fun _ => gives_error hf he fun _ => hb, fun _ hl => absurd rfl hl⟩

end

/-! ### SST and the scatters (09 R231, R232) -/

section
variable (s : State) (w : Wave) (sw : BitVec 1)

theorem sst_handsOver (x a : BitVec 6) (i : BitVec 12) (p : Place)
    (h : s.checkAccess w .wr false 8 (w.s a.toNat + w.immValue i) 8 = .ok p) :
    HandsOver s w sw (.sst sw x a i) [⟨none, w.s a.toNat + w.immValue i, p, 8⟩]
      [⟨w.s a.toNat + w.immValue i, p, someBytes 8 (w.s x.toNat).toNat, none⟩] :=
  handsOver_of_stores rfl rfl (exec_sst ..) (by simp [h])

theorem sst_stops (x a : BitVec 6) (i : BitVec 12) (t : TrapInfo)
    (h : s.checkAccess w .wr false 8 (w.s a.toNat + w.immValue i) 8 = .error t) :
    StopsAfter s w sw (.sst sw x a i) [] t :=
  stopsAfter_of_error rfl rfl (exec_sst ..) (by simp [h])

/-- A scatter of elements of `n` bytes, for the word `j` that is one. -/
theorem scatter_handsOver {j : Instr} {v o : BitVec 8} {b : BitVec 5} {n : Nat} {ps : List (Nat × DWord × Place)}
    (hf : issueForm j = some { sw := sw, src := [.v v.toNat, .s b.toNat, .v o.toNat] })
    (he : exec j s = s.scatter j sw v o b n)
    (h : checkLanes (fun z => s.checkAccess w .wr false n z n) (w.gatherAddrs b.toNat o.toNat) = .ok ps) :
    HandsOver s w sw j (touches n ps)
      (ps.map (fun p => ⟨p.2.1, p.2.2, someBytes n (w.v v.toNat p.1).toNat, none⟩)) :=
  handsOver_of_stores hf rfl he (by simp [h])

theorem scatter_stops {j : Instr} {v o : BitVec 8} {b : BitVec 5} {n : Nat} {t : TrapInfo}
    (hf : issueForm j = some { sw := sw, src := [.v v.toNat, .s b.toNat, .v o.toNat] })
    (he : exec j s = s.scatter j sw v o b n)
    (h : checkLanes (fun z => s.checkAccess w .wr false n z n) (w.gatherAddrs b.toNat o.toNat) = .error t) :
    StopsAfter s w sw j
      (touches n (lanesBefore (fun z => s.checkAccess w .wr false n z n) (w.gatherAddrs b.toNat o.toNat))) t :=
  stopsAfter_of_faultAfter hf rfl he (by simp [h])

/-! ### Lines and hypervectors (09 R233, R234; 11 R273) -/

/-- The one store of a line: from the place of byte 0 of the line, found from the first active lane. -/
def linePuts (va : DWord) (mask : Word) (d : Line) (side : Option SideStore) : List (Nat × DWord × Place) → List Put
  | [] => []
  | p :: _ => [⟨va, p.2.2.back (4 * p.1), laneBytes mask d, side⟩]

theorem storeLine_handsOver {j : Instr} {v : BitVec 8} {a : BitVec 6} {block : Bool} {ps : List (Nat × DWord × Place)}
    (hf : issueForm j = some { sw := sw, src := [.v v.toNat, .s a.toNat] }) (he : exec j s = s.storeLine j sw v a block)
    (h : s.linePlaces w .wr (w.s a.toNat) = .ok ps) :
    HandsOver s w sw j (touches 4 ps) (linePuts (w.s a.toNat) (w.m 0) (w.vreg v.toNat).data
      (if block then some (w.vreg v.toNat).sideStore else none) ps) :=
  handsOver_of_stores hf rfl he (by cases ps <;> simp [h, linePuts])

theorem storeLine_stops {j : Instr} {v : BitVec 8} {a : BitVec 6} {block : Bool} {t : TrapInfo}
    (hf : issueForm j = some { sw := sw, src := [.v v.toNat, .s a.toNat] }) (he : exec j s = s.storeLine j sw v a block)
    (h : s.linePlaces w .wr (w.s a.toNat) = .error t) :
    StopsAfter s w sw j (touches 4 (s.lineBefore w .wr (w.s a.toNat))) t :=
  stopsAfter_of_faultAfter hf rfl he (by simp [h])

theorem hvst_handsOver (h : BitVec 4) (a : BitVec 6) (ps : List (DWord × Nat × Place))
    (hp : s.hyperPlaces w .wr (w.s a.toNat) = .ok ps) :
    HandsOver s w sw (.hvst sw h a) (ps.flatMap lineSectors)
      (rowPuts ps ⟨bytesOfNat 1024 (w.hv h.toNat).toNat, none⟩) :=
  handsOver_of_stores rfl rfl (exec_hvst ..) (by simp [hp])

/-- An address that is not aligned to a line has no access before its failing check. -/
theorem hyperFault_store (wid : Nat) (va : DWord) (t : TrapInfo) :
    s.hyperFault wid w true va t = s.faultAfter wid w false true 0 (if va.toNat % 128 ≠ 0 then []
      else (s.linesBefore w .wr (rowLines va 1024)).flatMap lineSectors) t := by
  by_cases h : va.toNat % 128 = 0
  · simp [State.hyperFault, h]
  · simp [State.hyperFault, h, faultAfter_first]

theorem hvst_stops (h : BitVec 4) (a : BitVec 6) (t : TrapInfo) (hp : s.hyperPlaces w .wr (w.s a.toNat) = .error t) :
    StopsAfter s w sw (.hvst sw h a) (if (w.s a.toNat).toNat % 128 ≠ 0 then []
      else (s.linesBefore w .wr (rowLines (w.s a.toNat) 1024)).flatMap lineSectors) t :=
  stopsAfter_of_faultAfter rfl rfl (exec_hvst ..) (by simp only [hp]; exact hyperFault_store s w s.cur _ t)

/-! ### Rows of an accumulator (10 R262) -/

/-- What a word that stores rows of a tile does, once their places are found (10 R250, R260, R262). -/
def StoresRows (s : State) (w : Wave) (sw : BitVec 1) (j : Instr) (tile : Nat) (rows : List (List (DWord × Nat × Place)))
    (f : List Nat → RowImage) : Prop :=
  let noted := (s.walks s.cur .wr (rows.flatten.flatMap lineSectors)).glintRows w rows
  (s.tileBad w tile = true → s.Gives w j (s.afterWord sw (s.takeTrap s.cur (eccAt 0#64 6) false))) ∧
  (∀ t, s.tileBad w tile = false → noted.2 = some t → s.Gives w j (s.afterWord sw (noted.1.takeTrap s.cur t false))) ∧
  (s.tileBad w tile = false → noted.2 = none → s.Gives w j (s.afterWord sw
    ((((rows.zipIdx).flatMap (fun y => rowPuts y.1 (f (s.tileRow w tile y.2)))).foldl (fun t p => t.putStore s.cur p)
      noted.1).advance s.cur)))

theorem storeRows_of_bad {wid tile : Nat} (hb : s.tileBad w tile = true) (rows : List (List (DWord × Nat × Place)))
    (f : List Nat → RowImage) : s.storeRows wid w tile rows f = s.takeTrap wid (eccAt 0#64 6) false := by
  simp [State.storeRows, hb, State.meetPoison, eccAt]

theorem storeRows_of_race {wid tile : Nat} {rows : List (List (DWord × Nat × Place))} {u : State} {t : TrapInfo}
    (hb : s.tileBad w tile = false)
    (h : (s.walks wid .wr (rows.flatten.flatMap lineSectors)).glintRows w rows = (u, some t)) (f : List Nat → RowImage) :
    s.storeRows wid w tile rows f = u.takeTrap wid t false := by
  simp [State.storeRows, hb, h]

theorem storeRows_of_noRace {wid tile : Nat} {rows : List (List (DWord × Nat × Place))} {u : State}
    (hb : s.tileBad w tile = false)
    (h : (s.walks wid .wr (rows.flatten.flatMap lineSectors)).glintRows w rows = (u, none)) (f : List Nat → RowImage) :
    s.storeRows wid w tile rows f = (((rows.zipIdx).flatMap (fun y => rowPuts y.1 (f (s.tileRow w tile y.2)))).foldl
      (fun t p => t.putStore wid p) u).advance wid := by
  simp [State.storeRows, hb, h]

theorem storesRows_of_storeRows {j : Instr} {form : Form} {body : Nat → Wave → Except TrapInfo State} {tile : Nat}
    {rows : List (List (DWord × Nat × Place))} {f : List Nat → RowImage} (hf : issueForm j = some form) (hs : form.sw = sw)
    (he : exec j s = s.issue j form body) (hb : body s.cur w = .ok (s.storeRows s.cur w tile rows f)) :
    StoresRows s w sw j tile rows f := by
  subst hs
  refine ⟨fun bad => ?_, fun t ok ht => ?_, fun ok hn => ?_⟩
  · rw [← storeRows_of_bad s w bad rows f]
    exact gives_issue hf he fun _ => hb
  · rw [← storeRows_of_race s w ok (Prod.ext rfl ht) f]
    exact gives_issue hf he fun _ => hb
  · rw [← storeRows_of_noRace s w ok (Prod.ext rfl hn) f]
    exact gives_issue hf he fun _ => hb

theorem accst_storesRows (c : BitVec 3) (a e : BitVec 6) (rows : List (List (DWord × Nat × Place)))
    (h : s.accCheck w false .wr (w.s a.toNat) (w.s e.toNat) 512 = .ok rows) :
    StoresRows s w sw (.accst sw c a e) c.toNat rows rowFp32 :=
  storesRows_of_storeRows s w sw rfl rfl (exec_accst ..) (by simp [h])

theorem acccvt_storesRows (c : BitVec 3) (a e : BitVec 6) (f : BitVec 4) (rows : List (List (DWord × Nat × Place)))
    (h : s.accCheck w true .wr (w.s a.toNat) (w.s e.toNat) (cvtBytes f) = .ok rows) :
    StoresRows s w sw (.acccvt sw c a e f) c.toNat rows (rowCvt f (w.s e.toNat)) :=
  storesRows_of_storeRows s w sw rfl rfl (exec_acccvt ..) (by simp [h])

/-! ### VSTC (09 R235) -/

/-- No lane is active exactly when mask 0 is 0. -/
theorem activeLanes_eq_nil : w.activeLanes = [] ↔ w.m 0 = 0#32 := by
  constructor
  · intro h
    apply BitVec.eq_of_getLsbD_eq
    intro l hl
    have hn : l ∉ w.activeLanes := by simp [h]
    simpa [Wave.activeLanes, Wave.active, hl] using hn
  · intro h
    simp [Wave.activeLanes, Wave.active, h]

theorem vstc_misaligned (v : BitVec 8) (a e : BitVec 6) (h : (w.s a.toNat).toNat % 8 ≠ 0) :
    StopsAfter s w sw (.vstc sw v a e) [] (trapAt causeMisalign (w.s a.toNat)) :=
  stopsAfter_of_error rfl rfl (exec_vstc ..) (by simp [h])

theorem vstc_noLane (v : BitVec 8) (a e : BitVec 6) (h : (w.s a.toNat).toNat % 8 = 0) (hm : w.m 0 = 0#32) :
    s.Gives w (.vstc sw v a e) (s.afterWord sw (s.advance s.cur)) :=
  gives_issue rfl (exec_vstc ..) fun _ => by simp [h, (activeLanes_eq_nil w).mpr hm]

theorem vstc_pointerFails (v : BitVec 8) (a e : BitVec 6) (t : TrapInfo) (h : (w.s a.toNat).toNat % 8 = 0)
    (hm : w.m 0 ≠ 0#32) (hc : s.checkAccess w .wr true 8 (w.s a.toNat) 8 = .error t) :
    StopsAfter s w sw (.vstc sw v a e) [] t :=
  stopsAfter_of_error rfl rfl (exec_vstc ..) (by simp [h, mt (activeLanes_eq_nil w).mp hm, hc])

theorem vstc_stores (v : BitVec 8) (a e : BitVec 6) (calm : s.Calm w) (p : Place) (old : DWord) (s2 : State) (w2 : Wave)
    (ps : List (Nat × DWord × Place)) (h : (w.s a.toNat).toNat % 8 = 0) (hm : w.m 0 ≠ 0#32)
    (hc : s.checkAccess w .wr true 8 (w.s a.toNat) 8 = .ok p)
    (hp : (s.waveLooks s.cur .wr (w.s a.toNat)).performNow s.cur ⟨.add, true, 4, false, w.pc, .none, []⟩
      ⟨0, w.s a.toNat, p, BitVec.ofNat 64 (4 * w.activeLanes.length), 0#64⟩ = (old, s2))
    (hw : s2.waves[s.cur]? = some w2) (calm2 : s2.Calm w2)
    (hl : checkLanes (fun z => s2.checkAccess w2 .wr false 4 z 4)
      (vstcElems w.activeLanes (old &&& 0xFFFFFFFFFFFFFFFC#64) (w.s e.toNat)) = .ok ps) :
    s.Gives w (.vstc sw v a e) (s.afterWord sw ((ps.foldl (fun t q => t.putStore s.cur
      ⟨q.2.1, q.2.2, someBytes 4 (w.v v.toNat q.1).toNat, none⟩) (s2.walks s.cur .wr (touches 4 ps))).advance s.cur)) := by
  have looked := (cacheOnly_waveLooks s s.cur .wr (w.s a.toNat)).calm calm
  refine gives_issue rfl (exec_vstc ..) fun _ => ?_
  simp [h, mt (activeLanes_eq_nil w).mp hm, hc, unlessRace_calm looked, poisoned_calm looked, hp, hw, hl, stores_calm calm2,
    List.foldl_map]

end

/-- Settles O22, form by form: each storing word hands its stores over (`HandsOver`, `StoresRows`) or traps (`StopsAfter`). -/
theorem storeResults : Obligations.StoreResults := by
  unfold Obligations.StoreResults
  intro s w sw x a e i v o b h f c
  refine ⟨sst_handsOver s w sw x a i, sst_stops s w sw x a i, ?_, ?_, ?_, ?_, ?_, ?_, hvst_handsOver s w sw h a,
    hvst_stops s w sw h a, ⟨accst_storesRows s w sw c a e, acccvt_storesRows s w sw c a e f⟩,
    fun g rows hg hm => glintRows_off hg hm rows, fun calm => ⟨vstc_misaligned s w sw v a e, vstc_noLane s w sw v a e,
      fun t => vstc_pointerFails s w sw v a e t, fun p old s2 w2 ps => vstc_stores s w sw v a e calm p old s2 w2 ps⟩⟩
  · exact ⟨fun _ => scatter_handsOver s w sw rfl (exec_vst8 ..), fun _ => scatter_stops s w sw rfl (exec_vst8 ..)⟩
  · exact ⟨fun _ => scatter_handsOver s w sw rfl (exec_vst16 ..), fun _ => scatter_stops s w sw rfl (exec_vst16 ..)⟩
  · exact ⟨fun _ => scatter_handsOver s w sw rfl (exec_vst32 ..), fun _ => scatter_stops s w sw rfl (exec_vst32 ..)⟩
  · exact fun p ps hp => ⟨storeLine_handsOver s w sw (block := false) rfl (exec_vstl ..) hp,
      storeLine_handsOver s w sw (block := true) rfl (exec_vstb ..) hp⟩
  · exact fun hp => ⟨storeLine_handsOver s w sw (block := false) rfl (exec_vstl ..) hp,
      storeLine_handsOver s w sw (block := true) rfl (exec_vstb ..) hp⟩
  · intro t hp j hj
    simp only [List.mem_cons, List.not_mem_nil, or_false] at hj
    rcases hj with rfl | rfl
    · exact storeLine_stops s w sw rfl (exec_vstl ..) hp
    · exact storeLine_stops s w sw rfl (exec_vstb ..) hp

/-! ### The machine right after reset (02 R51, R52; 19 R399, R405, R416) -/

theorem reset_quad {q : Nat} (hq : q < 4) : State.reset.quads[q]? = some Quad.reset :=
  List.getElem?_replicate_of_lt hq

theorem reset_region {i : Nat} (hi : i < 16) : Quad.reset.regions.getD i Region.zero = Region.zero := by
  have h : Quad.reset.regions[i]? = some Region.zero := List.getElem?_replicate_of_lt hi
  simp only [List.getD_eq_getElem?_getD, h, Option.getD_some]

/-- Right after reset no change of a region register waits, so that bit 31 of REGION_CTL reads as 0. -/
theorem reset_regionCtl {q i : Nat} (hq : q < 4) (hi : i < 16) : State.reset.regionCtl q i = 0#64 := by
  have busy : State.reset.regionBusy q i = false := rfl
  simp only [State.regionCtl, reset_quad hq, busy, reset_region hi]
  rfl

theorem reset_mcRead_region {q i k : Nat} (hq : q < 4) (hi : i < 16) (hk : k ∈ [0x0, 0x8, 0x10, 0x18]) :
    State.reset.mcRead q (0x100 + 0x20 * i + k) = 0#64 := by
  have k_cases : k = 0 ∨ k = 8 ∨ k = 16 ∨ k = 24 := by simpa using hk
  have quotient : (0x100 + 0x20 * i + k - 0x100) / 0x20 = i := by omega
  have inside : 0x100 ≤ 0x100 + 0x20 * i + k ∧ 0x100 + 0x20 * i + k < 0x300 := by omega
  have rest : (0x100 + 0x20 * i + k) % 0x20 = k := by omega
  have ne : 0x100 + 0x20 * i + k ≠ 0 ∧ 0x100 + 0x20 * i + k ≠ 8 := by omega
  simp only [State.mcRead, reset_quad hq, quotient, ne.1, ne.2, inside, rest, if_true, if_false, and_self, reset_region hi,
    reset_regionCtl hq hi]
  rcases k_cases with rfl | rfl | rfl | rfl <;> rfl

theorem reset_mcRead_status {q o : Nat} (hq : q < 4) (ho : o ∈ [0x400, 0x408, 0x800, 0x808, 0x810, 0x818]) :
    State.reset.mcRead q o = 0#64 := by
  have unsealed : State.reset.wsSealed q = false := rfl
  simp only [List.mem_cons, List.not_mem_nil, or_false] at ho
  rcases ho with rfl | rfl | rfl | rfl | rfl | rfl <;> simp [State.mcRead, reset_quad hq, unsealed, Quad.reset]

theorem byte_empty (a : Nat) : Mem.empty.byte a = 0#8 := rfl

/-- A memory with nothing listed reads as 0. -/
theorem quad_empty (a : Nat) : Mem.empty.quad a = 0#64 := by
  simp [Mem.quad, Mem.num, Mem.read, natOfBytes, byte_empty]

theorem reset_barRead_mailbox {o : Nat} (h : 0x100000 ≤ o) (h' : o < 0x101000) : State.reset.barRead o = 0#64 := by
  have ne : o ≠ 0 ∧ o ≠ 0x8 ∧ o ≠ 0x10 ∧ o ≠ 0x18 ∧ o ≠ 0x20 ∧ o ≠ 0x28 := by omega
  obtain ⟨h0, h1, h2, h3, h4, h5⟩ := ne
  simp only [State.barRead, h0, h1, h2, h3, h4, h5, h, h', and_self, if_true, if_false]
  exact quad_empty _

theorem reset_peer {p : Nat} (hp : p < 64) : State.reset.peers[p]? = some ⟨0#16, 0#256, .absent⟩ :=
  List.getElem?_replicate_of_lt hp

theorem reset_domain {d : Nat} (hd : d < 64) : State.reset.domains[d]? = some ⟨0#64, [], List.replicate 12 0#64⟩ :=
  List.getElem?_replicate_of_lt hd

theorem reset_quota {d : Nat} (hd : d < 64) (c : Nat) : State.reset.quota d c = (128, 416) := by
  simp [State.quota, reset_domain hd]

theorem reset_counter {d k : Nat} (hd : d < 64) (hk : k < 12) : State.reset.counter d k = 0#64 := by
  simp only [State.counter, reset_domain hd, List.getD_eq_getElem?_getD, List.getElem?_replicate_of_lt hk, Option.getD_some]

/-- Settles O49, register by register. -/
theorem resetValues : Obligations.ResetValues := by
  unfold Obligations.ResetValues
  intro q i d c hq hi hd _
  refine ⟨?_, ?_, fun k hk => reset_mcRead_region hq hi hk, fun o ho => reset_mcRead_status hq ho, ?_,
    fun o h h' => reset_barRead_mailbox h h', fun p hp => ⟨_, reset_peer hp, rfl⟩, reset_quota hd c,
    ⟨_, reset_domain hd, rfl⟩, fun k hk => reset_counter hd hk, rfl, rfl, rfl, wf_reset⟩
  · simp [State.mcRead, reset_quad hq]
  · simp [State.mcRead, reset_quad hq, Quad.reset]
  · decide

/-! ### The meanings of the events of results, memory, registers and fetch -/

section
variable (s : State) (n k units lane pa core c q r slot off : Nat) (va v : DWord)

theorem exec_resultWrite : exec (.resultWrite n k units) s = execResultWrite n k units s := rfl
theorem exec_atomicPerform : exec (.atomicPerform n lane) s = execAtomicPerform n lane s := rfl
theorem exec_hintSchedDelayEnd : exec (.hintSchedDelayEnd n) s = execHintSchedDelayEnd n s := rfl
theorem exec_llcFill : exec (.llcFill pa) s = execLlcFill pa s := rfl
theorem exec_llcWriteBack : exec (.llcWriteBack pa) s = execLlcWriteBack pa s := rfl
theorem exec_pageWalk : exec (.pageWalk core c va) s = execPageWalk core c va s := rfl
theorem exec_wsRefreshWindowEnd : exec (.wsRefreshWindowEnd q) s = execWsRefreshWindowEnd q s := rfl
theorem exec_regionCtlWrite : exec (.regionCtlWrite q r v) s = execRegionCtlWrite q r v s := rfl
theorem exec_regionChangeApply : exec (.regionChangeApply q r) s = execRegionChangeApply q r s := rfl
theorem exec_registerWrite : exec (.registerWrite off v) s = execRegisterWrite off v s := rfl
theorem exec_qwptrDoorbell : exec (.qwptrDoorbell slot v) s = execQwptrDoorbell slot v s := rfl
theorem exec_instructionFetch : exec (.instructionFetch n) s = execInstructionFetch n s := rfl
theorem exec_instructionCacheFill : exec (.instructionCacheFill core c va) s = execInstructionCacheFill core c va s := rfl

end

/-! ### Results of a wave (06 R161, R163) -/

@[simp] theorem applyOut_st (w : Wave) (o : Out) (units : Nat) : (w.applyOut o units).st = w.st := by
  cases o with
  | s n v => simp [Wave.applyOut]
  | v n lanes data side =>
    simp only [Wave.applyOut, Wave.writeLanes]
    split <;> rfl
  | h n lines data => rfl

/-- A wave that waits for no acquire has none that could follow now. -/
theorem settleAcquire_of_not_acquire {s : State} {n : Nat} {w : Wave} (hw : s.waves[n]? = some w)
    (hst : ∀ sc ret, w.st ≠ .wait (.acquire sc ret)) : s.settleAcquire n = s := by
  unfold State.settleAcquire
  rw [hw]
  dsimp only
  split
  · rename_i h
    exact absurd h (hst _ _)
  · rfl

theorem resultWrite_some {s : State} {n k units : Nat} {w : Wave} {o : Out} (hw : s.waves[n]? = some w)
    (hst : ∀ sc ret, w.st ≠ .wait (.acquire sc ret)) (ho : w.outs[k]? = some o) :
    exec (.resultWrite n k units) s = .next (s.modWave n (fun _ => { w.applyOut o units with
      outs := putAt w.outs k (o.rest units), far := farRest w.far o units })) := by
  have hwrite : w.writeOut k units = { w.applyOut o units with
      outs := putAt w.outs k (o.rest units), far := farRest w.far o units } := by simp [Wave.writeOut, ho]
  have hget : (s.modWave n (fun x => x.writeOut k units)).waves[n]? = some (w.writeOut k units) := by
    rw [modWave_get, hw]
    rfl
  have hkeep : (w.writeOut k units).st = w.st := by simp [hwrite]
  rw [exec_resultWrite, execResultWrite, settleAcquire_of_not_acquire hget (by rw [hkeep]; exact hst)]
  exact congrArg _ (modWave_congr s n w _ _ hw hwrite)

/-! ### Atomics of a wave (09 R239; 19 R406) -/

/-- An access of the lane, of the atomic at position `k` of the wave, goes to no peer line that an earlier atomic of the wave
still has to access (19 R406). -/
def MayPerformNow (w : Wave) (lane k : Nat) : Prop :=
  ∃ a y, w.atoms[k]? = some a ∧ y ∈ a.todo ∧ y.lane = lane ∧
    ∀ i b z, i < k → w.atoms[i]? = some b → z ∈ b.todo → y.place.samePeerLine z.place = false

theorem mem_take_iff_getElem? {α : Type} (l : List α) (k : Nat) (b : α) :
    b ∈ l.take k ↔ ∃ i, i < k ∧ l[i]? = some b := by
  simp only [List.mem_iff_getElem?, List.getElem?_take]
  constructor
  · rintro ⟨i, hi⟩
    split at hi
    · exact ⟨i, ‹_›, hi⟩
    · cases hi
  · rintro ⟨i, hik, hi⟩
    exact ⟨i, by simp [hik, hi]⟩

/-- The test that the search of `Wave.nextAtom` makes at a position. -/
theorem nextAtom_test (w : Wave) (lane k : Nat) :
    (w.atoms[k]?).any (fun a => a.todo.any (fun y => y.lane == lane &&
      (w.atoms.take k).all (fun b => b.todo.all (fun z => !y.place.samePeerLine z.place)))) = true ↔ MayPerformNow w lane k := by
  simp only [Option.any_eq_true, List.any_eq_true, Bool.and_eq_true, beq_iff_eq, List.all_eq_true, Bool.not_eq_true',
    mem_take_iff_getElem?, MayPerformNow]
  constructor
  · rintro ⟨a, ha, y, hy, hl, h⟩
    exact ⟨a, y, ha, hy, hl, fun i b z hi hb hz => h b ⟨i, hi, hb⟩ z hz⟩
  · rintro ⟨a, y, ha, hy, hl, h⟩
    exact ⟨a, ha, y, hy, hl, fun b ⟨i, hi, hb⟩ z hz => h i b z hi hb hz⟩

theorem nextAtom_eq_some {w : Wave} {lane k : Nat} (h : MayPerformNow w lane k) (before : ∀ i, i < k → ¬ MayPerformNow w lane i) :
    w.nextAtom lane = some k := by
  have hk : k < w.atoms.length := by
    obtain ⟨a, -, ha, -⟩ := h
    exact (List.getElem?_eq_some_iff.mp ha).1
  simp only [Wave.nextAtom, List.find?_range_eq_some, List.mem_range, Bool.not_eq_true', ← Bool.not_eq_true, nextAtom_test]
  exact ⟨h, hk, before⟩

theorem nextAtom_eq_none {w : Wave} {lane : Nat} (h : ∀ k, ¬ MayPerformNow w lane k) : w.nextAtom lane = none := by
  simp only [Wave.nextAtom, List.find?_range_eq_none, Bool.not_eq_true', ← Bool.not_eq_true, nextAtom_test]
  exact fun k _ => h k

theorem atomicPerform_some {s : State} {n lane k : Nat} {w : Wave} (hw : s.waves[n]? = some w) (hk : w.nextAtom lane = some k) :
    exec (.atomicPerform n lane) s = .next ((s.performAtomic n k lane).settleAcquire n) := by
  simp [exec_atomicPerform, execAtomicPerform, hw, hk]

theorem atomicPerform_none {s : State} {n lane : Nat} {w : Wave} (hw : s.waves[n]? = some w) (hk : w.nextAtom lane = none) :
    exec (.atomicPerform n lane) s = .next s := by
  simp [exec_atomicPerform, execAtomicPerform, hw, hk]

/-- The first atomic of a wave waits for none. -/
theorem nextAtom_first {w : Wave} {lane : Nat} {a : Atom} {rest : List Atom} (ha : w.atoms = a :: rest)
    (hy : ∃ y ∈ a.todo, y.lane = lane) : w.nextAtom lane = some 0 := by
  obtain ⟨y, hy, hl⟩ := hy
  exact nextAtom_eq_some ⟨a, y, by simp [ha], hy, hl, fun i _ _ hi => absurd hi (Nat.not_lt_zero i)⟩
    fun i hi => absurd hi (Nat.not_lt_zero i)

/-- A later atomic goes first when the ones before it have no access of the lane, and none to a peer line of its own. -/
theorem nextAtom_later {w : Wave} {lane j : Nat} {a : Atom} {y : AtomAccess} (ha : w.atoms[j]? = some a) (hy : y ∈ a.todo)
    (hl : y.lane = lane) (h : ∀ i b z, i < j → w.atoms[i]? = some b → z ∈ b.todo →
      z.lane ≠ lane ∧ ∀ x ∈ a.todo, x.place.samePeerLine z.place = false) : w.nextAtom lane = some j := by
  refine nextAtom_eq_some ⟨a, y, ha, hy, hl, fun i b z hi hb hz => (h i b z hi hb hz).2 y hy⟩ ?_
  rintro i hi ⟨b, z, hb, hz, hzl, -⟩
  exact (h i b z hi hb hz).1 hzl

/-- Every access of the lane waits for an earlier one to its peer line. -/
theorem nextAtom_waits {w : Wave} {lane : Nat} (h : ∀ j a y, w.atoms[j]? = some a → y ∈ a.todo → y.lane = lane →
    ∃ (i : Nat) (b : Atom) (z : AtomAccess), i < j ∧ w.atoms[i]? = some b ∧ z ∈ b.todo ∧ y.place.samePeerLine z.place = true) :
    w.nextAtom lane = none := by
  refine nextAtom_eq_none ?_
  rintro k ⟨a, y, ha, hy, hl, free⟩
  obtain ⟨i, b, z, hi, hb, hz, same⟩ := h k a y ha hy hl
  rw [free i b z hi hb hz] at same
  cases same

theorem hintSchedDelayEnd_due {s : State} {n t : Nat} {w : Wave} (hw : s.waves[n]? = some w) (hd : w.delayUntil = some t)
    (ht : t ≤ s.coreClock w.core) :
    exec (.hintSchedDelayEnd n) s = .next (s.modWave n (fun _ => { w with delayUntil := none })) := by
  rw [exec_hintSchedDelayEnd]
  simp only [execHintSchedDelayEnd, hw, hd, ht, if_true]
  exact congrArg _ (modWave_congr s n w _ _ hw rfl)

/-! ### Lines of a slice (02 R45, R58) -/

/-- A line of a slice whose unit has been written back. -/
def cleaned (u : Nat) (l : LlcLine) : LlcLine := if l.line / 4 = u then { l with dirty := false } else l

@[simp] theorem cleaned_line (u : Nat) (l : LlcLine) : (cleaned u l).line = l.line := by
  unfold cleaned
  split <;> rfl

theorem cleaned_dirty {u : Nat} {l : LlcLine} (h : (cleaned u l).line / 4 = u) : (cleaned u l).dirty = false := by
  rw [cleaned_line] at h
  simp [cleaned, h]

/-- The numbers of the lines of a list. -/
def lineNumbers (l : List LlcLine) : List Nat := l.map (fun x => x.line)

/-- The lines of a slice that lie in the set of a line. -/
def linesOfSet (s : State) (line : Nat) : List LlcLine := s.llc.filter (fun l => llcSet l.line == llcSet line)

@[simp] theorem countHbm_llc (s : State) (line rd wr saved : Nat) : (s.countHbm line rd wr saved).llc = s.llc := rfl

@[simp] theorem writeUnit_llc (s : State) (line : Nat) : (s.writeUnit line).llc = s.llc.map (cleaned (line / 4)) := by
  unfold State.writeUnit
  dsimp only
  split
  · rfl
  · split <;> rfl

@[simp] theorem lookMeta_llc (s : State) (line : Nat) : (s.lookMeta line).llc = s.llc := by
  unfold State.lookMeta
  dsimp only
  split
  · rfl
  · split <;> rfl

/-- A line that is clean, or absent, leaves its slice alone. -/
theorem llcDrop_of_clean {s : State} {line : Nat} (h : ∀ l ∈ s.llc, l.line = line → l.dirty = false) :
    s.llcDrop line = { s with llc := s.llc.filter (fun l => l.line != line) } := by
  have clean : s.llc.any (fun l => l.line == line && l.dirty) = false := by simpa using h
  simp [State.llcDrop, clean]

/-- A dirty line has its unit written back first. -/
theorem llcDrop_llc_of_dirty {s : State} {line : Nat} (h : ∃ l ∈ s.llc, l.line = line ∧ l.dirty = true) :
    (s.llcDrop line).llc = (s.llc.map (cleaned (line / 4))).filter (fun l => l.line != line) := by
  have dirty : s.llc.any (fun l => l.line == line && l.dirty) = true := by simpa using h
  simp [State.llcDrop, dirty]

theorem llcDrop_lines (s : State) (line : Nat) :
    lineNumbers (s.llcDrop line).llc = (lineNumbers s.llc).filter (· != line) := by
  by_cases h : ∃ l ∈ s.llc, l.line = line ∧ l.dirty = true
  · rw [llcDrop_llc_of_dirty h]
    simp [lineNumbers, List.filter_map, Function.comp_def]
  · rw [llcDrop_of_clean (by simpa using h)]
    simp [lineNumbers, List.filter_map, Function.comp_def]

theorem llcDrop_unit_clean {s : State} {line : Nat} (h : ∃ l ∈ s.llc, l.line = line ∧ l.dirty = true) :
    ∀ l ∈ (s.llcDrop line).llc, l.line / 4 = line / 4 → l.dirty = false := by
  intro l hl hu
  rw [llcDrop_llc_of_dirty h] at hl
  obtain ⟨x, -, rfl⟩ := List.mem_map.mp (List.mem_filter.mp hl).1
  exact cleaned_dirty hu

/-- A line that is absent is filled behind what room for it leaves. -/
theorem llcFill_llc {s : State} {line : Nat} (h : s.llcHas line = false) :
    (s.llcFill line).llc = (s.llcRoom line).llc ++ [⟨line, false, [none, none, none, none]⟩] := by
  simp [State.llcFill, h]

theorem llcRoom_of_free {s : State} {line : Nat} (h : (linesOfSet s line).length < s.llcWays line) : s.llcRoom line = s := by
  have h' : ((s.llc.filter (fun l => llcSet l.line == llcSet line)).map (·.line)).length < s.llcWays line := by
    rw [List.length_map]
    exact h
  unfold State.llcRoom
  dsimp only
  rw [if_pos h']

theorem llcRoom_of_full {s : State} {line : Nat} (h : s.llcWays line ≤ (linesOfSet s line).length) :
    ∃ old ∈ lineNumbers (linesOfSet s line), lineNumbers (s.llcRoom line).llc = (lineNumbers s.llc).filter (· != old) := by
  have ways : 1 ≤ s.llcWays line := Nat.le_max_left ..
  have some_ : (lineNumbers (linesOfSet s line)).length ≠ 0 := by
    rw [lineNumbers, List.length_map]
    omega
  have full : ¬ (lineNumbers (linesOfSet s line)).length < s.llcWays line := by
    rw [lineNumbers, List.length_map]
    omega
  have inside (v : Nat) : (lineNumbers (linesOfSet s line)).getD (v % (lineNumbers (linesOfSet s line)).length) 0 ∈
      lineNumbers (linesOfSet s line) := by
    have hv := Nat.mod_lt v (Nat.pos_of_ne_zero some_)
    rw [List.getD_eq_getElem?_getD, List.getElem?_eq_getElem hv, Option.getD_some]
    exact List.getElem_mem hv
  refine ⟨_, inside (Config.llcVictim s.draws (lineNumbers (linesOfSet s line))), ?_⟩
  have room : s.llcRoom line = ({ s with draws := s.draws + 1 } : State).llcDrop ((lineNumbers (linesOfSet s line)).getD
      (Config.llcVictim s.draws (lineNumbers (linesOfSet s line)) % (lineNumbers (linesOfSet s line)).length) 0) := if_neg full
  rw [room, llcDrop_lines]

theorem llcFill_hbm {s : State} {pa : Nat} (hk : (paKind pa).isHbm = true) (ha : s.llcHas (pa / 128) = false) :
    ∃ t, exec (.llcFill pa) s = .next t ∧ t.mem = s.mem ∧
      ((linesOfSet s (pa / 128)).length < s.llcWays (pa / 128) →
        t.llc = s.llc ++ [⟨pa / 128, false, [none, none, none, none]⟩]) ∧
      (s.llcWays (pa / 128) ≤ (linesOfSet s (pa / 128)).length → ∃ old, old ∈ lineNumbers (linesOfSet s (pa / 128)) ∧
        lineNumbers t.llc = (lineNumbers s.llc).filter (· != old) ++ [pa / 128]) := by
  refine ⟨s.llcFill (pa / 128), by simp [exec_llcFill, execLlcFill, hk], (cacheOnly_llcFill s _).mem, fun free => ?_, fun full => ?_⟩
  · rw [llcFill_llc ha, llcRoom_of_free free]
  · obtain ⟨old, hold, lines⟩ := llcRoom_of_full full
    exact ⟨old, hold, by rw [llcFill_llc ha, ← lines]; simp [lineNumbers]⟩

theorem llcWriteBack_present {s : State} {pa : Nat} (h : s.llcHas (pa / 128) = true) :
    exec (.llcWriteBack pa) s = .next (s.llcDrop (pa / 128)) := by
  simp [exec_llcWriteBack, execLlcWriteBack, h]

/-! ### Accesses at the homes of lines change no core and no quadrant's place (02 R51, R72) -/

/-- Two states have the same cores and as many quadrants. -/
def SameUnits (s t : State) : Prop := t.cores = s.cores ∧ t.quads.length = s.quads.length

theorem SameUnits.refl (s : State) : SameUnits s s := ⟨rfl, rfl⟩

theorem SameUnits.trans {s t u : State} (h1 : SameUnits s t) (h2 : SameUnits t u) : SameUnits s u :=
  ⟨h2.1.trans h1.1, h2.2.trans h1.2⟩

theorem SameUnits.foldl {α : Type} (f : State → α → State) (hf : ∀ s x, SameUnits s (f s x)) (l : List α) (s : State) :
    SameUnits s (l.foldl f s) := by
  induction l generalizing s with
  | nil => exact .refl s
  | cons x l ih => exact (hf s x).trans (ih _)

theorem sameUnits_modQuad (s : State) (q : Nat) (f : Quad → Quad) : SameUnits s (s.modQuad q f) := ⟨rfl, by simp⟩

theorem sameUnits_countHbm (s : State) (line rd wr saved : Nat) : SameUnits s (s.countHbm line rd wr saved) :=
  sameUnits_modQuad ..

theorem sameUnits_writeUnit (s : State) (line : Nat) : SameUnits s (s.writeUnit line) := by
  unfold State.writeUnit
  dsimp only
  split
  · simp [SameUnits, State.countHbm, State.setUnit]
  · split <;> simp [SameUnits, State.countHbm, State.setUnit]

theorem sameUnits_llcDrop (s : State) (line : Nat) : SameUnits s (s.llcDrop line) := by
  unfold State.llcDrop
  dsimp only
  split
  · exact (sameUnits_writeUnit s line).trans ⟨rfl, rfl⟩
  · exact ⟨rfl, rfl⟩

theorem sameUnits_llcRoom (s : State) (line : Nat) : SameUnits s (s.llcRoom line) := by
  unfold State.llcRoom
  dsimp only
  split
  · exact .refl s
  · exact SameUnits.trans (t := { s with draws := s.draws + 1 }) ⟨rfl, rfl⟩ (sameUnits_llcDrop _ _)

theorem sameUnits_lookMeta (s : State) (line : Nat) : SameUnits s (s.lookMeta line) := by
  unfold State.lookMeta
  dsimp only
  split
  · exact .refl s
  · split
    · exact .refl s
    · simp [SameUnits]

theorem sameUnits_llcFill (s : State) (line : Nat) : SameUnits s (s.llcFill line) := by
  unfold State.llcFill
  split
  · exact .refl s
  · exact ((sameUnits_llcRoom s line).trans (sameUnits_lookMeta _ line)).trans (by simp [SameUnits, State.countHbm])

theorem sameUnits_leaveSlice (s : State) (line : Nat) : SameUnits s (s.leaveSlice line) := by
  unfold State.leaveSlice
  dsimp only
  split
  · exact sameUnits_llcDrop s line
  · exact (sameUnits_llcDrop s line).trans (by simp [SameUnits, State.countHbm, State.setUnit])

theorem sameUnits_homeAccess (s : State) (pa : Nat) (ms write : Bool) (n : Nat) : SameUnits s (s.homeAccess pa ms write n) := by
  have held : SameUnits s (s.noteHeld (pa / 128) ms) := ⟨rfl, rfl⟩
  refine held.trans ?_
  unfold State.homeAccess
  dsimp only
  split
  · split
    · exact (sameUnits_leaveSlice _ _).trans (sameUnits_countHbm ..)
    · split
      · exact (sameUnits_llcFill _ _).trans ⟨rfl, rfl⟩
      · exact sameUnits_llcFill _ _
  · exact .refl _

/-! ### Page walks (02 R72; log 7, log 75) -/

theorem mem_putShared (draw : Nat) (l : List TlbEntry) (t : TlbEntry) : t ∈ putShared draw l t := by
  simp [putShared, putTlb]

/-- A core whose instruction TLB, for a fetch, or else its data TLB holds one more translation. -/
def holdTlb (draw : Nat) (acc : Acc) (t : TlbEntry) (k : Core) : Core :=
  if acc = .fetch then { k with itlb := putTlb draw 32 k.itlb t } else { k with tlb := putTlb draw 256 k.tlb t }

theorem fillTlbs_core {s : State} {core : Nat} {y : Core} (hy : s.cores[core]? = some y) (acc : Acc) (t : TlbEntry) (va : Nat) :
    (s.fillTlbs core acc t va).cores[core]? = some (holdTlb s.draws acc t y) := by
  have h : (s.fillTlbs core acc t va).cores = s.cores.modify core (holdTlb s.draws acc t) := rfl
  simp [h, hy]

theorem fillTlbs_stlb {s : State} {core : Nat} {y : Quad} (hy : s.quads[coreQuad core]? = some y) (acc : Acc) (t : TlbEntry) (va : Nat) :
    ∃ z, (s.fillTlbs core acc t va).quads[coreQuad core]? = some z ∧ t ∈ z.stlb := by
  simp [State.fillTlbs, hy, mem_putShared]

/-- The reads of the table lines of a walk. -/
def readTables (s : State) (lines : List Nat) : State := lines.foldl (fun u l => u.homeAccess (128 * l) false false 128) s

theorem cacheOnly_readTables (s : State) (lines : List Nat) : CacheOnly s (readTables s lines) :=
  .foldl _ (fun _ _ => cacheOnly_homeAccess _ _ _ _ _) _ _

theorem sameUnits_readTables (s : State) (lines : List Nat) : SameUnits s (readTables s lines) :=
  .foldl _ (fun _ _ => sameUnits_homeAccess _ _ _ _ _) _ _

section
variable {s : State} {core c : Nat} {va : DWord} (hv : canonical va = true)
  (hp : s.walkPoison (some core) .rd c (s.walkGen core c) (vaBits va) = none)
include hv hp

theorem pageWalk_error {f : BitVec 4} (hl : s.leafOf (some core) .rd c (s.walkGen core c) (vaBits va) = .error f) :
    exec (.pageWalk core c va) s = .next s := by
  simp [exec_pageWalk, execPageWalk, hv, hp, hl]

/-- The translation that a walk of an address of context `c` leaves in the TLBs, for the leaf `e` that it has found. -/
def walked (s : State) (core c : Nat) (va e : DWord) : TlbEntry :=
  ⟨c, vaBits va / 2 ^ pageLog (pteSize e), pageLog (pteSize e), e,
    if ptePb e then some (s.walkGen core c (ptePbIdx e)) else none⟩

theorem pageWalk_leaf {e : DWord} (hl : s.leafOf (some core) .rd c (s.walkGen core c) (vaBits va) = .ok e) :
    ∃ t, exec (.pageWalk core c va) s = .next t ∧ t.mem = s.mem ∧ t.waves = s.waves ∧
      (∀ y, s.cores[core]? = some y → ∃ draw, t.cores[core]? =
        some (if pteX e then { y with itlb := putTlb draw 32 y.itlb (walked s core c va e) }
          else { y with tlb := putTlb draw 256 y.tlb (walked s core c va e) })) ∧
      (∀ y, s.quads[coreQuad core]? = some y →
        ∃ z, t.quads[coreQuad core]? = some z ∧ walked s core c va e ∈ z.stlb) := by
  let start := s.walkStart (some core) c (vaBits va)
  let s1 := readTables s (walkLines s.mem (vaBits va) start.1 start.2)
  let acc : Acc := if pteX e then .fetch else .rd
  have caches : CacheOnly s s1 := cacheOnly_readTables ..
  obtain ⟨cores, quads⟩ : SameUnits s s1 := sameUnits_readTables ..
  refine ⟨s1.fillTlbs core acc (walked s core c va e) (vaBits va), ?_, caches.mem, caches.waves, fun y hy => ⟨s1.draws, ?_⟩,
    fun y hy => ?_⟩
  · rw [exec_pageWalk, execPageWalk]
    simp only [hv, hp, hl, Bool.not_true, Option.isSome_none, Bool.or_self, Bool.false_eq_true, if_false]
    rfl
  · rw [fillTlbs_core (cores ▸ hy)]
    by_cases hx : pteX e = true <;> simp [acc, holdTlb, hx]
  · obtain ⟨hlt, -⟩ := List.getElem?_eq_some_iff.mp hy
    exact fillTlbs_stlb (List.getElem?_eq_getElem (quads ▸ hlt)) ..

end

/-! ### Clocks (02 R65) -/

/-- Two states differ at most in the accounting domains. -/
def DomainsOnly (s t : State) : Prop := t = { s with domains := t.domains }

theorem DomainsOnly.trans {s t u : State} (h1 : DomainsOnly s t) (h2 : DomainsOnly t u) : DomainsOnly s u := by
  unfold DomainsOnly at *
  generalize t.domains = d at h1
  subst h1
  exact h2

theorem DomainsOnly.foldl {α : Type} (f : State → α → State) (hf : ∀ s x, DomainsOnly s (f s x)) (l : List α) (s : State) :
    DomainsOnly s (l.foldl f s) := by
  induction l generalizing s with
  | nil => rfl
  | cons x l ih => exact (hf s x).trans (ih _)

/-- The machine whose clocks have gone on, before its waves count them. -/
def clocked (s : State) (q : List Nat) (fe : Nat) : State :=
  { s with
    quads := s.quads.mapIdx (fun k (x : Quad) => { x with clock := x.clock + q.getD k 0 }), feClock := s.feClock + fe
    ctxs := s.ctxs.map (fun (x : Ctx) => if x.st = .resident ∧ !x.destroyed then { x with resClock := x.resClock + fe } else x) }

theorem domainsOnly_tick (s : State) (q : List Nat) (fe : Nat) : DomainsOnly (clocked s q fe) (s.tick q fe) := by
  refine .foldl _ (fun t w => ?_) _ _
  split
  · split <;> rfl
  · rfl

/-- The clocks of one quadrant that pass alone. -/
theorem getElem?_replicate_append (q n k : Nat) : (List.replicate q 0 ++ [n])[k]?.getD 0 = if k = q then n else 0 := by
  rcases Nat.lt_trichotomy k q with h | h | h
  · rw [List.getElem?_append_left (by simpa using h), List.getElem?_replicate_of_lt h]
    simp [Nat.ne_of_lt h]
  · simp [h]
  · rw [List.getElem?_eq_none (by simp; omega)]
    simp [Nat.ne_of_gt h]

theorem clocked_zero_ctxs (s : State) (q : List Nat) : (clocked s q 0).ctxs = s.ctxs := by
  simp [clocked]

theorem windowEnd_of_inside {clock : Nat} (h : clock % 512 ≤ 63) :
    (windowEnd (clock % 8192)).map (· - clock % 8192) = some (64 - clock % 512) := by
  have phase : clock % 8192 % 512 = clock % 512 := by omega
  rw [windowEnd, phase, if_pos h, Option.map_some]
  congr 1
  omega

theorem wsRefreshWindowEnd_inside {s : State} {q : Nat} {d : Quad} (hd : s.quads[q]? = some d) (h : d.clock % 512 ≤ 63) :
    ∃ t, exec (.wsRefreshWindowEnd q) s = .next t ∧
      t.quads[q]? = some { d with clock := d.clock + 64 - d.clock % 512 } ∧ (∀ j, j ≠ q → t.quads[j]? = s.quads[j]?) ∧
      t.mem = s.mem ∧ t.waves = s.waves ∧ t.ctxs = s.ctxs ∧ t.feClock = s.feClock := by
  let passed := List.replicate q 0 ++ [64 - d.clock % 512]
  have only : DomainsOnly (clocked s passed 0) (s.tick passed 0) := domainsOnly_tick ..
  have run : exec (.wsRefreshWindowEnd q) s = .next (s.tick passed 0) := by
    simp [exec_wsRefreshWindowEnd, execWsRefreshWindowEnd, hd, windowEnd_of_inside h, passed]
  refine ⟨s.tick passed 0, run, ?_, fun j hj => ?_, ?_, ?_, ?_, ?_⟩ <;> rw [only]
  · have sum : d.clock + (64 - d.clock % 512) = d.clock + 64 - d.clock % 512 := by omega
    simp [clocked, passed, hd, sum]
  · cases hq : s.quads[j]? <;> simp [clocked, passed, hq, getElem?_replicate_append, hj]
  · rfl
  · rfl
  · exact clocked_zero_ctxs s passed
  · rfl

/-! ### Region registers and the other registers (02 R51, R52, R56; 19 R399) -/

section
variable {s : State} {q r : Nat} {d : Quad} {g : Region} (hd : s.quads[q]? = some d) (hg : d.regions[r]? = some g)
  (hc : s.changes = [])
include hd hg hc

/-- With no change under way a region register that stays disabled is written at once. -/
theorem writeRegion_disabled {f : Region → Region} (hold : g.enabled = false) (hnew : (f g).enabled = false) :
    s.writeRegion q r f = s.modQuad q (fun y => { y with regions := y.regions.set r (f g) }) := by
  simp [State.writeRegion, State.regionNow, State.regionBusy, hc, hd, hg, hold, hnew]

/-- A write that enables a region register waits as a change of it. -/
theorem writeRegion_enabled {f : Region → Region} (hnew : (f g).enabled = true) :
    s.writeRegion q r f = { s with changes := [⟨q, r, f g⟩] } := by
  simp [State.writeRegion, State.regionNow, hc, hd, hg, hnew]

theorem regionBaseWrite_disabled (v : DWord) (h : g.enabled = false) :
    exec (.regionBaseWrite q r v) s = .next (s.modQuad q (fun y => { y with
      regions := y.regions.set r { g with base := v &&& 0x0000FFFFFFFFF000#64 } })) :=
  congrArg _ (writeRegion_disabled hd hg hc h h)

theorem regionLimitWrite_disabled (v : DWord) (h : g.enabled = false) :
    exec (.regionLimitWrite q r v) s = .next (s.modQuad q (fun y => { y with
      regions := y.regions.set r { g with limit := v &&& 0x0000FFFFFFFFF000#64 } })) :=
  congrArg _ (writeRegion_disabled hd hg hc h h)

theorem regionScaleWrite_disabled (v : DWord) (h : g.enabled = false) :
    exec (.regionScaleWrite q r v) s = .next (s.modQuad q (fun y => { y with
      regions := y.regions.set r { g with scale := v &&& 0x0000FFFFFFFFFFF0#64 } })) :=
  congrArg _ (writeRegion_disabled hd hg hc h h)

theorem regionCtlWrite_enables {v : DWord} (hv : v.getLsbD 0 = true)
    (herr : regionError q r d.regions { g with ctl := v &&& 0x3F1#64 } = 0) :
    exec (.regionCtlWrite q r v) s = .next { s with changes := [⟨q, r, { g with ctl := v &&& 0x3F1#64 }⟩] } := by
  rw [exec_regionCtlWrite, execRegionCtlWrite, State.writeCtl, writeRegion_enabled hd hg hc]
  · simp [hv, hd, herr]
  · simp [hv, hd, herr, Region.enabled]

end

/-- The one change under way takes effect. -/
theorem regionChangeApply_only (s : State) (q r : Nat) (new : Region) (hc : s.changes = [⟨q, r, new⟩]) :
    exec (.regionChangeApply q r) s = .next { s.applyRegion q r new with changes := [] } := by
  simp [exec_regionChangeApply, execRegionChangeApply, hc, State.applyChange]

/-- A write into a block of a ring register of BAR0 is a doorbell when it is of QWPTR. -/
theorem registerWrite_doorbell (s : State) {slot : Nat} (v : DWord) (h : slot < 240 * 1024) :
    exec (.registerWrite (0x1000010 + 0x40 * slot) v) s = exec (.qwptrDoorbell slot v) s := by
  have number : (0x1000010 + 0x40 * slot - 0x1000000) / 0x40 = slot := by omega
  rw [exec_registerWrite, exec_qwptrDoorbell, execRegisterWrite, if_neg (by omega), if_neg (by omega), if_neg (by omega),
    if_neg (by omega), if_neg (by omega), if_pos (by omega), if_pos (by omega), number]
  rfl

/-- A write into the block of a memory controller. -/
theorem registerWrite_mc (s : State) {q off : Nat} (v : DWord) (hq : q < 4) (ho : off < 0x1000000) :
    exec (.registerWrite (0xC000000000 + 0x1000000 * q + off) v) s = .next (s.mcWrite q off v) := by
  have quad : (0xC000000000 + 0x1000000 * q + off - 0xC000000000) / 0x1000000 = q := by omega
  have inside : (0xC000000000 + 0x1000000 * q + off - 0xC000000000) % 0x1000000 = off := by omega
  rw [exec_registerWrite, execRegisterWrite, if_neg (by omega), if_neg (by omega), if_neg (by omega), if_neg (by omega),
    if_neg (by omega), if_neg (by omega), if_pos (by omega), quad, inside]

/-- The write of the quadword at offset `k` of region register `r` of a memory controller. -/
def writeField (s : State) (q r k : Nat) (v : DWord) : State :=
  match k with
  | 0x00 => s.writeBase q r v
  | 0x08 => s.writeLimit q r v
  | 0x10 => s.writeScale q r v
  | 0x18 => s.writeCtl q r v
  | _ => s

theorem registerWrite_region (s : State) {q r k : Nat} (v : DWord) (hq : q < 4) (hr : r < 16) (hk : k < 0x20) {off : Nat}
    (ho : off = 0xC000000000 + 0x1000000 * q + (0x100 + 0x20 * r + k)) :
    exec (.registerWrite off v) s = .next (writeField s q r k v) := by
  have register : (0x100 + 0x20 * r + k - 0x100) / 0x20 = r := by omega
  have quadword : (0x100 + 0x20 * r + k) % 0x20 = k := by omega
  rw [ho, registerWrite_mc s v hq (by omega), State.mcWrite, if_neg (by omega), if_pos (by omega), register, quadword]
  rfl

/-- A write of MB_DOORBELL. -/
theorem registerWrite_mailbox (s : State) (v : DWord) : exec (.registerWrite 0x101000 v) s =
    .next (if v.getLsbD 0 && !s.mbBusy then { s with mbBusy := true, spdmBefore := s.spdmIn.length } else s) := rfl

/-! ### Fetch (07 R191; 15 R377) -/

theorem instructionFetch_word {s s1 : State} {n : Nat} {w : Wave} {y : Word} (hw : s.waves[n]? = some w)
    (hm : s.mayIssue w = true) (hf : s.fetch w = .word y s1) :
    exec (.instructionFetch n) s = .next (s1.modWave n (fun z => { z with fetched := some (z.pc, y) })) := by
  simp [exec_instructionFetch, execInstructionFetch, hw, hm, hf]

theorem instructionCacheFill_fills {s : State} {core c : Nat} {va : DWord} {z : Wave} {y : Xlat}
    (hz : s.fillFor core c va = some z) (hh : s.icacheHit z va = none) (hx : s.fetchXlat z va = .ok y)
    (hp : s.linePoisoned (y.pa / 128) = false) :
    exec (.instructionCacheFill core c va) s = .next ((s.fetchLooks z va).fillICache z va y) := by
  simp [exec_instructionCacheFill, execInstructionCacheFill, hz, State.prefetchLine, hh, hx, hp]

theorem instructionCacheFill_none {s : State} {core c : Nat} {va : DWord} (hz : s.fillFor core c va = none) :
    exec (.instructionCacheFill core c va) s = .next s := by
  simp [exec_instructionCacheFill, execInstructionCacheFill, hz]

/-- Settles O52, event by event. -/
theorem memoryEventResults : Obligations.MemoryEventResults := by
  unfold Obligations.MemoryEventResults
  intro s n k units lane pa core c q r slot va v w o d g new hw hst hd hq hr hg hc
  refine ⟨resultWrite_some hw hst, fun a rest ha hy => atomicPerform_some hw (nextAtom_first ha hy),
    fun j a y ha hy hl h => atomicPerform_some hw (nextAtom_later ha hy hl h),
    fun h => atomicPerform_none hw (nextAtom_waits h), fun t ht hle => hintSchedDelayEnd_due hw ht hle,
    llcFill_hbm, fun h => ⟨_, llcWriteBack_present h, (cacheOnly_llcDrop s _).mem, llcDrop_lines .., llcDrop_of_clean,
      llcDrop_unit_clean⟩,
    fun hv hp => ⟨fun f hl => pageWalk_error hv hp hl, fun e hl => pageWalk_leaf hv hp hl⟩,
    wsRefreshWindowEnd_inside hd,
    fun h => ⟨regionBaseWrite_disabled hd hg hc v h, regionLimitWrite_disabled hd hg hc v h,
      regionScaleWrite_disabled hd hg hc v h⟩,
    regionCtlWrite_enables hd hg hc, ?_, ?_, ?_, ?_, ?_, ?_, registerWrite_doorbell s v, ?_,
    fun y s1 hm hf => instructionFetch_word hw hm hf, fun z y => instructionCacheFill_fills, instructionCacheFill_none⟩
  · rintro s1 rfl
    exact regionChangeApply_only _ q r new rfl
  · rfl
  · rfl
  · rfl
  · intro hv hb
    simp only [registerWrite_mailbox, hv, hb, Bool.not_false, Bool.and_self, if_true]
  · rintro (hv | hb)
    · simp only [registerWrite_mailbox, hv, Bool.false_and, Bool.false_eq_true, if_false]
    · simp only [registerWrite_mailbox, hb, Bool.not_true, Bool.and_false, Bool.false_eq_true, if_false]
  · exact ⟨registerWrite_mc s v hq (by decide), registerWrite_region s v hq hr (k := 0x00) (by decide) (by omega),
      registerWrite_region s v hq hr (k := 0x08) (by decide) (by omega),
      registerWrite_region s v hq hr (k := 0x10) (by decide) (by omega),
      registerWrite_region s v hq hr (k := 0x18) (by decide) (by omega)⟩

end Sys2Proof.MemoryPath


/-! PROOFS of 03_copy_engine: COPYK, CPQ, PUBL and WSQ (O31). -/

namespace Sys2Proof.CopyEngine

open Sys2Proof Sys2Proof.Machine Sys2Proof.Laws

/-! ### The meanings of the words -/

section
variable (sw : BitVec 1) (d a : BitVec 6) (n : BitVec 8) (s : State)

theorem exec_copyk : exec (.copyk sw a) s = execCopyk sw a s := rfl
theorem exec_cpq : exec (.cpq sw d a) s = execCpq sw d a s := rfl
theorem exec_publ : exec (.publ sw n) s = execPubl sw n s := rfl
theorem exec_wsq : exec (.wsq sw d a) s = execWsq sw d a s := rfl

end

/-! ### Words of an engine with a queue (09 R245, 10 R258) -/

section
variable {s : State} {w : Wave} {i : Instr} {f : Form} {array : Option Nat} {body : Nat → Wave → Except TrapInfo State}

theorem gives_issueIf_ok {s' : State} (hf : issueForm i = some f) (he : exec i s = s.issueIf i f array body)
    (room : s.hasEntry w.core array = true) (hb : body s.cur w = .ok s') : s.Gives w i (s.afterWord f.sw s') :=
  fun ready => gives_issue hf (he.trans (issueIf_room s w i f array body ready.1 room)) (fun _ => hb) ready

theorem gives_issueIf_error {t : TrapInfo} (hf : issueForm i = some f) (he : exec i s = s.issueIf i f array body)
    (room : s.hasEntry w.core array = true) (hb : body s.cur w = .error t) :
    s.Gives w i ((s.failedLooks s.cur t).takeTrap s.cur t false) :=
  fun ready => gives_error hf (he.trans (issueIf_room s w i f array body ready.1 room)) (fun _ => hb) ready

theorem gives_issueIf_full (hf : issueForm i = some f) (he : exec i s = s.issueIf i f array body)
    (full : s.hasEntry w.core array = false) : s.Gives w i (s.setSt s.cur (.wait (.entry array))) := by
  intro ready
  obtain ⟨hw, hr, -⟩ := ready_parts hf ready
  rw [he]
  exact issueIf_full s w i f array body hw hr full

/-- A word whose meaning acts on its own wave alone. -/
theorem gives_became {g : Wave → Wave} (hf : issueForm i = some f) (he : exec i s = s.issue i f body)
    (hb : body s.cur w = .ok (s.modWave s.cur (fun x => (g x).advance))) : s.Gives w i (s.became f.sw (g w)) := by
  intro ready
  rw [gives_issue hf he (fun _ => hb) ready, State.afterWord, modWave_modWave, State.became]
  exact congrArg _ (modWave_congr s s.cur w _ _ ready.1 rfl)

end

/-- A trap of COPY is none of a translation. -/
theorem failedLooks_copyTrap (s : State) (k detail : Nat) (va : DWord) : s.failedLooks k (copyTrap detail va) = s :=
  failedLooks_other s k _ (by decide : causeCopy ∉ _)

/-! ### Releasing boundaries (05 R130, R131) -/

@[simp] theorem releaseDone_copies (s : State) (k scope : Nat) : (s.releaseDone k scope).copies = s.copies := by
  unfold State.releaseDone
  cases s.waves[k]? with
  | none => rfl
  | some w => by_cases h : 1 ≤ scope <;> simp [h]

/-- Once the last store has entered, the release is done and what follows it is run. -/
theorem settleRelease_entered {s : State} {k scope : Nat} {c : Cont} (h : s.AllEntered k scope c) :
    s.settleRelease k = (s.releaseDone k scope).runCont k c := by
  obtain ⟨w, hw, hst, hp⟩ := h
  simp [State.settleRelease, hw, hst, hp]

theorem runCont_copyk {s : State} {q : Nat} {x : CopyReq} (hx : s.copies[q]? = some x) (k : Nat) :
    s.runCont k (.copyk q) =
      ((s.modCopy q (fun y => { y with st := .queued })).noteReached x.group).proceed k := by
  simp [State.runCont, hx]

/-! ### COPYK (03 R79, R80; 09 R245) -/

section
variable {s : State} {w : Wave} {a : BitVec 6}

theorem hasEntry_copy {core : Nat} (room : s.queueUsed core < 64) : s.hasEntry core none = true := decide_eq_true room

theorem hasEntry_copy_full {core : Nat} (full : 64 ≤ s.queueUsed core) : s.hasEntry core none = false :=
  decide_eq_false (Nat.not_lt.mpr full)

/-- An uncorrectable error in the descriptor is an ECC trap (04 R110). -/
theorem descriptorBad_cause {off : DWord} {t : TrapInfo} (h : s.descriptorBad w off = some t) : t.cause = causeEcc := by
  obtain ⟨o, -, rfl⟩ := Option.map_eq_some_iff.mp h
  rfl

/-- A COPYK whose descriptor passes its checks puts a reserved request at the end of the requests and releases at scope core. -/
theorem copyk_accepts {l ext : List DWord} (sw : BitVec 1) (room : s.queueUsed w.core < 64)
    (whole : (s.showDescriptor s.cur w (w.s a.toNat)).descriptorBad w (w.s a.toNat) = none)
    (read : (s.showDescriptor s.cur w (w.s a.toNat)).readDescriptor w (w.s a.toNat) = .ok (l, ext)) :
    let s1 := s.showDescriptor s.cur w (w.s a.toNat)
    s.Gives w (.copyk sw a) (s.afterWord sw (State.release { s1 with
      copies := s1.copies ++ [CopyReq.fresh w.core w.ctx w.group s.cur none l ext .reserved] } s.cur 2
        (.copyk s1.copies.length))) :=
  gives_issueIf_ok rfl (exec_copyk ..) (hasEntry_copy room) (by simp only [whole, read])

theorem copyk_meetsPoison {t : TrapInfo} (sw : BitVec 1) (room : s.queueUsed w.core < 64)
    (bad : (s.showDescriptor s.cur w (w.s a.toNat)).descriptorBad w (w.s a.toNat) = some t) :
    s.Gives w (.copyk sw a) (s.takeTrap s.cur t false) := by
  have cause : t.cause = causeEcc := descriptorBad_cause bad
  have traps : s.Gives w (.copyk sw a) ((s.failedLooks s.cur t).takeTrap s.cur t false) :=
    gives_issueIf_error rfl (exec_copyk ..) (hasEntry_copy room) (by simp only [bad])
  rwa [failedLooks_other s s.cur t (by rw [cause]; decide)] at traps

theorem copyk_refuses {detail : Nat} (sw : BitVec 1) (room : s.queueUsed w.core < 64)
    (whole : (s.showDescriptor s.cur w (w.s a.toNat)).descriptorBad w (w.s a.toNat) = none)
    (read : (s.showDescriptor s.cur w (w.s a.toNat)).readDescriptor w (w.s a.toNat) = .error detail) :
    s.Gives w (.copyk sw a)
      (s.takeTrap s.cur (copyTrap detail (BitVec.ofNat 64 scratchWindow + w.s a.toNat)) false) := by
  have traps := gives_issueIf_error rfl (exec_copyk sw a s) (hasEntry_copy room) (by simp only [whole, read]; rfl)
  rwa [failedLooks_copyTrap] at traps

/-- The request that COPYK has put at the end is queued once the release is done. -/
theorem release_copyk_empty {core ctx group wave : Nat} {l ext : List DWord} {w1 : Wave} {k : Nat}
    (hw : s.waves[k]? = some w1) (hp : w1.pend = []) :
    let s2 := { s with copies := s.copies ++ [CopyReq.fresh core ctx group wave none l ext .reserved] }
    s2.release k 2 (.copyk s.copies.length) = (((s2.releaseDone k 2).modCopy s.copies.length
      (fun y => { y with st := .queued })).noteReached group).proceed k := by
  intro s2
  have last : (s2.releaseDone k 2).copies[s.copies.length]? =
      some (CopyReq.fresh core ctx group wave none l ext .reserved) := by simp [s2]
  rw [release_empty (s := s2) hw hp, runCont_copyk last]
  rfl

end

/-! ### PUBL (03 R99; 09 R247) -/

section
variable {s : State} {w : Wave} {n : BitVec 8}

theorem cacheOnly_readPb (s : State) (c k : Nat) : CacheOnly s (s.readPb c k) := by
  unfold State.readPb
  cases s.pbEntry c k with
  | none => exact .refl s
  | some a => exact cacheOnly_homeRange s a 32 false

/-- Reading an entry leaves every wave as it was. -/
theorem readPb_wave (c k j : Nat) (hw : s.waves[j]? = some w) : (s.readPb c k).waves[j]? = some w := by
  rwa [(cacheOnly_readPb s c k).waves]

/-- PUBL of an entry that is enabled, of the wave's generation, releases at scope device. -/
theorem publ_accepts (sw : BitVec 1) (whole : s.pbPoison w.ctx n.toNat = none)
    (enabled : s.pbEnabled w.ctx n.toNat = true) (current : w.gen n.toNat = s.pbGen w.ctx n.toNat) :
    s.Gives w (.publ sw n) (s.afterWord sw ((s.readPb w.ctx n.toNat).release s.cur 4
      (.publ n.toNat (s.pbGen w.ctx n.toNat)))) :=
  gives_issue rfl (exec_publ ..) fun _ => by simp [whole, enabled, current]

theorem publ_refuses {detail : Nat} (sw : BitVec 1) (whole : s.pbPoison w.ctx n.toNat = none)
    (fails : s.pbEnabled w.ctx n.toNat = false ∧ detail = 0x0F ∨
      s.pbEnabled w.ctx n.toNat = true ∧ w.gen n.toNat ≠ s.pbGen w.ctx n.toNat ∧ detail = 0x10) :
    s.Gives w (.publ sw n) (s.takeTrap s.cur (copyTrap detail (n.setWidth 64)) false) := by
  have traps : s.Gives w (.publ sw n) _ := gives_error (t := copyTrap detail (n.setWidth 64)) rfl (exec_publ sw n s)
    fun _ => by
      obtain ⟨disabled, rfl⟩ | ⟨enabled, other, rfl⟩ := fails
      · simp [whole, disabled]
      · simp [whole, enabled, other]
  rwa [failedLooks_copyTrap] at traps

end

/-! ### Fields of a word made from a number -/

theorem extractLsb'_ofNat_toNat {x : Nat} (h : x < 2 ^ 64) (lo len : Nat) :
    ((BitVec.ofNat 64 x).extractLsb' lo len).toNat = x / 2 ^ lo % 2 ^ len := by
  rw [BitVec.extractLsb'_toNat, BitVec.toNat_ofNat, Nat.mod_eq_of_lt h, Nat.shiftRight_eq_div_pow]

theorem getLsbD_ofNat_eq {x i : Nat} (hi : i < 64) : (BitVec.ofNat 64 x).getLsbD i = decide (x / 2 ^ i % 2 = 1) := by
  rw [BitVec.getLsbD_ofNat, decide_eq_true hi, Bool.true_and, Nat.testBit_eq_decide_div_mod_eq]

/-! ### CPQ (09 R246) -/

/-- The counts of CPQ, each in its field of 7 bits, for a queue with `used` entries in use. -/
theorem queryWord_fields (mine run held used : Nat) :
    let c := BitVec.ofNat 64 (mine % 128 + 2 ^ 8 * (run % 128) + 2 ^ 16 * (held % 128) + 2 ^ 24 * ((64 - used) % 128))
    (c.extractLsb' 0 7).toNat = mine % 128 ∧ (c.extractLsb' 8 7).toNat = run % 128 ∧
    (c.extractLsb' 16 7).toNat = held % 128 ∧ (c.extractLsb' 24 7).toNat = 64 - used ∧
    c.getLsbD 7 = false ∧ c.getLsbD 15 = false ∧ c.getLsbD 23 = false ∧ c.extractLsb' 31 33 = 0#33 := by
  have small : mine % 128 + 2 ^ 8 * (run % 128) + 2 ^ 16 * (held % 128) + 2 ^ 24 * ((64 - used) % 128) < 2 ^ 64 := by omega
  simp (disch := decide) only [← BitVec.toNat_inj, extractLsb'_ofNat_toNat small, getLsbD_ofNat_eq, BitVec.toNat_ofNat,
    decide_eq_false_iff_not]
  refine ⟨?_, ?_, ?_, ?_, ?_, ?_, ?_, ?_⟩ <;> omega

/-! ### WSQ (02 R64, R65; 09 R248) -/

/-- The fields of WSQ's word. -/
theorem wsqWord_fields {g pos : Nat} (hg : g < 16) (hp : pos < 8192) :
    let v := wsqWord g pos
    v.getLsbD 63 = true ∧ (v.extractLsb' 48 13).toNat = (512 * g + 8192 - pos) % 8192 ∧
    (v.extractLsb' 32 13).toNat = (if 512 * g ≤ pos ∧ pos ≤ 512 * g + 63 then 512 * g + 64 - pos else 0) ∧
    (v.extractLsb' 16 4).toNat = g ∧ (v.extractLsb' 0 13).toNat = pos ∧
    v.extractLsb' 61 2 = 0#2 ∧ v.extractLsb' 45 3 = 0#3 ∧ v.extractLsb' 20 12 = 0#12 ∧ v.extractLsb' 13 3 = 0#3 := by
  unfold wsqWord
  have next : (512 * g + 8192 - pos) % 8192 < 8192 := Nat.mod_lt _ (by decide)
  have wait : (if 512 * g ≤ pos ∧ pos ≤ 512 * g + 63 then 512 * g + 64 - pos else 0) ≤ 64 := by split <;> omega
  dsimp only
  generalize (512 * g + 8192 - pos) % 8192 = x at next ⊢
  generalize (if 512 * g ≤ pos ∧ pos ≤ 512 * g + 63 then 512 * g + 64 - pos else 0) = y at wait ⊢
  have small : 2 ^ 63 + 2 ^ 48 * x + 2 ^ 32 * y + 2 ^ 16 * g + pos < 2 ^ 64 := by omega
  simp (disch := decide) only [← BitVec.toNat_inj, extractLsb'_ofNat_toNat small, getLsbD_ofNat_eq, BitVec.toNat_ofNat,
    decide_eq_true_eq]
  refine ⟨?_, ?_, ?_, ?_, ?_, ?_, ?_, ?_, ?_⟩ <;> omega

/-- An address in the weight store of a quadrant: where it lies, and its bank group (02 R41, R64). -/
theorem weightStore_place {q off : Nat} (hq : q < 4) (ho : off < 0x80000000) :
    paKind (0x8000000000 + 0x80000000 * q + off) = .weightStore q ∧
    bankGroup (0x8000000000 + 0x80000000 * q + off) = off / 4096 % 16 := by
  have quadrant : (0x8000000000 + 0x80000000 * q + off - 0x8000000000) / 0x80000000 = q := by omega
  have offset : (0x8000000000 + 0x80000000 * q + off - 0x8000000000) % 0x80000000 = off := by omega
  refine ⟨?_, by rw [bankGroup, offset]⟩
  rw [paKind, if_neg (by omega), if_pos (by omega), quadrant]

section
variable {s : State} {w : Wave} {va : DWord} {x : Xlat}

theorem wsQuery_weightStore {q off : Nat} {y : Quad} (plain : windowOf va = .none) (hx : s.waveXlat w .rd va = .ok x) (hq : q < 4)
    (ho : off < 0x80000000) (at_ : x.pa = 0x8000000000 + 0x80000000 * q + off) (hy : s.quads[q]? = some y) :
    s.wsQuery w va = .ok (wsqWord (off / 4096 % 16) (y.clock % 8192)) := by
  obtain ⟨kind, group⟩ := weightStore_place hq ho
  rw [← at_] at kind group
  have quadrant : memQuad x.pa = q := by rw [memQuad, kind]
  simp [State.wsQuery, plain, hx, kind, PaKind.isWs, quadrant, hy, group]

theorem wsQuery_elsewhere (plain : windowOf va = .none) (hx : s.waveXlat w .rd va = .ok x) (h : (paKind x.pa).isWs = false) :
    s.wsQuery w va = .ok 0#64 := by
  simp [State.wsQuery, plain, hx, h]

theorem wsQuery_window (h : windowOf va ≠ .none) : s.wsQuery w va = .ok 0#64 := by
  unfold State.wsQuery
  split
  · contradiction
  · rfl

end

/-- Settles O31, word by word. -/
theorem copyWordResults : Obligations.CopyWordResults := by
  unfold Obligations.CopyWordResults
  intro s w sw d a n l ext v
  refine ⟨fun room => ⟨fun w1 hw whole read => ⟨fun hp => ?_, fun hp => ?_⟩,
      fun detail whole read => copyk_refuses sw room whole read, fun t bad => copyk_meetsPoison sw room bad⟩,
    fun u k y entered hy => by rw [settleRelease_entered entered, runCont_copyk hy],
    fun full => gives_issueIf_full rfl (exec_copyk ..) (hasEntry_copy_full full),
    gives_became (g := fun x => x.addOut (.s d.toNat (s.copyQuery w ((w.s a.toNat).extractLsb' 0 16)))) rfl (exec_cpq ..) rfl,
    fun tag => queryWord_fields .., fun h => gives_issue rfl (exec_wsq ..) fun _ => by simp [h],
    fun va x plain hx => ⟨fun q off y => wsQuery_weightStore plain hx, wsQuery_elsewhere plain hx⟩,
    fun va => wsQuery_window, fun hp whole enabled current ready => ?_, fun hp whole enabled current ready => ?_,
    fun u k g0 entered => settleRelease_entered entered, ?_, fun g pos => wsqWord_fields⟩
  · rw [← release_copyk_empty hw hp]
    exact copyk_accepts sw room whole read
  · rw [← release_pending (by exact hw) hp]
    exact copyk_accepts sw room whole read
  · rw [publ_accepts sw whole enabled current ready, release_empty (readPb_wave _ _ _ ready.1) hp]
    rfl
  · rw [publ_accepts sw whole enabled current ready, release_pending (readPb_wave _ _ _ ready.1) hp]
  · rintro detail whole (⟨disabled, rfl⟩ | ⟨enabled, other, rfl⟩)
    · exact publ_refuses sw whole (.inl ⟨disabled, rfl⟩)
    · exact publ_refuses sw whole (.inr ⟨enabled, other, rfl⟩)

end Sys2Proof.CopyEngine

/-! PROOFS of 04_core_store: barrier objects, their increments, completion and fields (O30). -/

namespace Sys2Proof.CoreStore

open Sys2Proof Sys2Proof.Machine Sys2Proof.Laws

section
variable {b : Barrier}

/-! ### Increments and completion (04 R123, R124) -/

theorem barrierCheck_mk (ovr : Bool) (arr expArr : Nat) (phase : Word) (landed expBytes : Nat) :
    Barrier.check ⟨ovr, arr, expArr, phase, landed, expBytes⟩ =
      if arr = expArr ∧ landed = expBytes ∧ ¬ (expArr = 0 ∧ expBytes = 0) then
        ⟨ovr, 0, expArr, phase + 1#32, 0, expBytes⟩
      else ⟨ovr, arr, expArr, phase, landed, expBytes⟩ := by
  simp only [Barrier.check, ne_eq, Decidable.not_and_iff_not_or_not]

theorem arrive_fits (fits : b.arr + 1 ≤ b.expArr) :
    b.arrive = (({ b with arr := b.arr + 1 } : Barrier).check, false) :=
  if_neg (Nat.not_lt.mpr fits)

theorem arrive_overruns (excess : b.expArr < b.arr + 1) :
    b.arrive = (({ b with arr := b.expArr, ovr := true } : Barrier).check, true) :=
  if_pos excess

theorem land_fits {n : Nat} (fits : b.landed + n ≤ b.expBytes) :
    b.land n = ({ b with landed := b.landed + n } : Barrier).check :=
  if_neg (Nat.not_lt.mpr fits)

theorem land_overruns {n : Nat} (excess : b.expBytes < b.landed + n) :
    b.land n = ({ b with landed := b.expBytes, ovr := true } : Barrier).check :=
  if_pos excess

theorem arrive_snd : b.arrive.2 = true ↔ b.expArr < b.arr + 1 := by
  obtain excess | fits := Nat.lt_or_ge b.expArr (b.arr + 1)
  · rw [arrive_overruns excess]
    exact iff_of_true rfl excess
  · rw [arrive_fits fits]
    exact iff_of_false Bool.false_ne_true (Nat.not_lt.mpr fits)

/-! ### The fields of the two quadwords (04 R122) -/

theorem barrierQ0_ovr : b.q0.getLsbD 63 = b.ovr := by
  simp only [Barrier.q0, BitVec.getLsbD_append]
  cases b.ovr <;> rfl

theorem barrierQ0_arr : b.q0.extractLsb' 45 13 = BitVec.ofNat 13 b.arr := by
  rw [Barrier.q0, fieldHi _ _ _ (by decide), fieldHi _ _ _ (by decide), fieldLo _ _ _ (by decide), fieldAll]

theorem barrierQ0_expArr : b.q0.extractLsb' 32 13 = BitVec.ofNat 13 b.expArr := by
  rw [Barrier.q0, fieldHi _ _ _ (by decide), fieldLo _ _ _ (by decide), fieldAll]

theorem barrierQ0_phase : b.q0.extractLsb' 0 32 = b.phase := by
  rw [Barrier.q0, fieldLo _ _ _ (by decide), fieldAll]

theorem barrierQ1_landed : b.q1.extractLsb' 32 32 = BitVec.ofNat 32 b.landed := by
  rw [Barrier.q1, fieldHi _ _ _ (by decide), fieldAll]

theorem barrierQ1_expBytes : b.q1.extractLsb' 0 32 = BitVec.ofNat 32 b.expBytes := by
  rw [Barrier.q1, fieldLo _ _ _ (by decide), fieldAll]

theorem ofQuads_quads (arr : b.arr < 2 ^ 13) (expArr : b.expArr < 2 ^ 13) (landed : b.landed < 2 ^ 32)
    (expBytes : b.expBytes < 2 ^ 32) : Barrier.ofQuads b.q0 b.q1 = b := by
  simp only [Barrier.ofQuads, barrierQ0_ovr, barrierQ0_arr, barrierQ0_expArr, barrierQ0_phase, barrierQ1_landed,
    barrierQ1_expBytes, BitVec.toNat_ofNat, Nat.mod_eq_of_lt arr, Nat.mod_eq_of_lt expArr, Nat.mod_eq_of_lt landed,
    Nat.mod_eq_of_lt expBytes]

end

/-- Settles O30, from what an arrival, a byte increment and their completion check each do, and field by field. -/
theorem barrierObjectRule : Obligations.BarrierObjectRule := by
  unfold Obligations.BarrierObjectRule
  intro b n
  refine ⟨?_, arrive_snd, ?_, ofQuads_quads⟩
  · obtain excess | fits := Nat.lt_or_ge b.expArr (b.arr + 1)
    · rw [arrive_overruns excess, if_neg (Nat.not_le.mpr excess), barrierCheck_mk]
    · rw [arrive_fits fits, if_pos fits, barrierCheck_mk]
  · obtain excess | fits := Nat.lt_or_ge b.expBytes (b.landed + n)
    · rw [land_overruns excess, if_neg (Nat.not_le.mpr excess), barrierCheck_mk]
    · rw [land_fits fits, if_pos fits, barrierCheck_mk]

end Sys2Proof.CoreStore

/-! PROOFS of 05_consistency: pending stores lie with their wave (O23), are seen by its own loads (O24), and enter their
coherence order at a release (O25). -/

namespace Sys2Proof.Consistency

open Sys2Proof Sys2Proof.Machine Sys2Proof.Laws

/-! ### A store becomes pending (05 R131) -/

/-- The pending store that a store to memory or to a scratchpad becomes. -/
def pendingOf (s : State) (p : Put) : PStore where
  va := p.va
  place := p.place
  bytes := p.bytes
  side := p.side
  also := match p.place with
    | .phys pa _ => s.sideAlso pa p.side
    | _ => []

/-- The wave with more stores at the end of its pending ones. -/
def addPend (l : List PStore) (w : Wave) : Wave := { w with pend := w.pend ++ l }

theorem addPend_addPend (l m : List PStore) : addPend m ∘ addPend l = addPend (l ++ m) := by
  funext w
  simp [addPend]

theorem modWave_addPend_nil (s : State) (k : Nat) : s.modWave k (addPend []) = s := by
  have same : addPend [] = id := by
    funext w
    simp [addPend]
  rw [same, State.modWave, List.modify_id]

/-- What a store becomes goes by the regions, which an update of a wave leaves. -/
theorem pendingOf_modWave (s : State) (k : Nat) (f : Wave → Wave) : pendingOf (s.modWave k f) = pendingOf s := rfl

/-- With no atomic issued, an access outside the register window waits for none (05 R143). -/
theorem beforeAccess_of_no_atoms {s : State} {k : Nat} {w : Wave} {p : Place} (hw : s.waves[k]? = some w)
    (ha : w.atoms = []) (hp : ∀ off, p ≠ .reg off) (n : Nat) : s.beforeAccess k p n = s := by
  cases p with
  | reg off => exact absurd rfl (hp off)
  | phys pa ms => simp [State.beforeAccess, State.orderAtoms, Wave.atomTouches, hw, ha]
  | scratch off => simp [State.beforeAccess, State.orderAtoms, Wave.atomTouches, hw, ha]

theorem putStore_pends {s : State} {k : Nat} {w : Wave} {p : Put} (hw : s.waves[k]? = some w) (ha : w.atoms = [])
    (hp : ∀ off, p.place ≠ .reg off) : s.putStore k p = s.modWave k (addPend [pendingOf s p]) := by
  obtain ⟨va, place, bytes, side⟩ := p
  unfold State.putStore
  rw [beforeAccess_of_no_atoms hw ha hp]
  cases place with
  | reg off => exact absurd rfl (hp off)
  | phys pa ms => rfl
  | scratch off => rfl

theorem putStores_pend {k : Nat} {ps : List Put} (hps : ∀ p ∈ ps, ∀ off, p.place ≠ .reg off) {s : State} {w : Wave}
    (hw : s.waves[k]? = some w) (ha : w.atoms = []) :
    ps.foldl (fun t p => t.putStore k p) s = s.modWave k (addPend (ps.map (pendingOf s))) := by
  induction ps generalizing s w with
  | nil => exact (modWave_addPend_nil s k).symm
  | cons p ps ih =>
    have hw' : (s.modWave k (addPend [pendingOf s p])).waves[k]? = some (addPend [pendingOf s p] w) := by
      rw [modWave_get, hw]
      rfl
    have rest := ih (fun q hq => hps q (List.mem_cons_of_mem p hq)) hw' ha
    rw [pendingOf_modWave] at rest
    rw [List.foldl_cons, putStore_pends hw ha (hps p List.mem_cons_self), rest, modWave_modWave, addPend_addPend]
    rfl

/-- Settles O23: the stores are one update of their own wave, which changes its pending stores and its PC. -/
theorem pendingStoresAreNotVisible : Obligations.PendingStoresAreNotVisible := by
  unfold Obligations.PendingStoresAreNotVisible
  intro s w ps hw ha hps
  rw [putStores_pend hps hw ha]
  dsimp only
  rw [State.advance, modWave_modWave]
  refine ⟨fun _ => rfl, rfl, rfl, rfl, rfl, fun k hk => modWave_get_other s s.cur k _ (Ne.symm hk), ?_⟩
  refine ⟨(addPend (ps.map (pendingOf s)) w).advance, by rw [modWave_get, hw]; rfl, ?_, rfl, rfl, rfl, rfl, rfl, rfl, rfl⟩
  simp only [advance_pend, addPend, List.map_append, List.map_map]
  rfl

/-! ### A wave's loads see its pending stores (05 R132) -/

/-- A store holds, at a place as far into it, each byte that it carries. -/
theorem byteAt_plus {q : PStore} {j : Nat} {b : BitVec 8} (hq : ∀ off, q.place ≠ .reg off)
    (hb : q.bytes[j]? = some (some b)) : q.byteAt (q.place.plus j) = some b := by
  have carried : q.bytes.getD j none = some b := by rw [List.getD_eq_getElem?_getD, hb, Option.getD_some]
  unfold PStore.byteAt
  cases hplace : q.place with
  | reg off => exact absurd hplace (hq off)
  | phys pa ms => simp [Place.plus, -List.getD_eq_getElem?_getD, carried]
  | scratch off => simp [Place.plus, -List.getD_eq_getElem?_getD, carried]

/-- The latest store that holds a byte settles it. -/
theorem pendingByte_latest {q : PStore} {r : Place} {b : BitVec 8} (h : q.byteAt r = some b) (l : List PStore) :
    pendingByte (l ++ [q]) r = some b := by
  simp [pendingByte, List.foldl_append, h]

theorem seenByte_pending {w : Wave} {r : Place} {b : BitVec 8} (h : pendingByte w.pend r = some b) (shared : BitVec 8) :
    w.seenByte r shared = b := by
  simp [Wave.seenByte, h]

/-- At the place of its latest pending store a wave sees the bytes of that store, whatever the memory side returns. -/
theorem gatherBytes_latest {w : Wave} {l : List PStore} {q : PStore} {bs : List (BitVec 8)} (hw : w.pend = l ++ [q])
    (hq : ∀ off, q.place ≠ .reg off) (hb : q.bytes = bs.map some) (shared : Place → BitVec 8) {n : Nat} (hn : n ≤ bs.length) :
    gatherBytes w shared q.place n = bs.take n := by
  induction n with
  | zero => rfl
  | succ n ih =>
    have carried : q.bytes[n]? = some (some bs[n]) := by simp [hb, List.getElem?_eq_getElem hn]
    have pending : pendingByte w.pend (q.place.plus n) = some bs[n] := by
      rw [hw]
      exact pendingByte_latest (byteAt_plus hq carried) l
    rw [gatherBytes, ih (Nat.le_of_succ_le hn), seenByte_pending pending, List.take_append_getElem]

/-- A load outside the register window gathers what the wave sees over what some source of shared bytes returns. -/
theorem load_gathers {s : State} {k : Nat} {w : Wave} {p : Place} (hw : s.waves[k]? = some w) (hp : ∀ off, p ≠ .reg off)
    (n : Nat) : ∃ shared, (s.load k p n).1 = gatherBytes w shared p n := by
  unfold State.load
  rw [hw]
  cases p with
  | reg off => exact absurd rfl (hp off)
  | scratch off => exact ⟨_, rfl⟩
  | phys pa ms =>
    dsimp only
    split
    · exact ⟨_, rfl⟩
    · exact ⟨_, rfl⟩

/-- Settles O24: the store is the wave's latest pending one, whose bytes every load of them gathers. -/
theorem loadSeesOwnStore : Obligations.LoadSeesOwnStore := by
  unfold Obligations.LoadSeesOwnStore
  intro s k w va v p hw ha hp
  let q := pendingOf s ⟨va, p, someBytes 8 v.toNat, none⟩
  have hw' : (s.modWave k (addPend [q])).waves[k]? = some (addPend [q] w) := by
    rw [modWave_get, hw]
    rfl
  rw [putStore_pends hw ha hp]
  obtain ⟨shared, gathers⟩ := load_gathers hw' hp 8
  have size : (bytesOfNat 8 v.toNat).length = 8 := bytesOfNat_length 8 v.toNat
  calc ((s.modWave k (addPend [q])).load k p 8).1
      = gatherBytes (addPend [q] w) shared q.place 8 := gathers
    _ = (bytesOfNat 8 v.toNat).take 8 := gatherBytes_latest rfl hp rfl shared (Nat.le_of_eq size.symm)
    _ = bytesOfNat 8 v.toNat := List.take_of_length_le (Nat.le_of_eq size)

/-! ### A store enters its coherence order (05 R131; 19 R407) -/

section
variable (s : State) (pa n : Nat)

@[simp] theorem countPeer_mem : (s.countPeer pa n).mem = s.mem := by
  unfold State.countPeer
  split <;> rfl

@[simp] theorem countPeer_groups : (s.countPeer pa n).groups = s.groups := by
  unfold State.countPeer
  split <;> rfl

@[simp] theorem countPeer_waves : (s.countPeer pa n).waves = s.waves := by
  unfold State.countPeer
  split <;> rfl

@[simp] theorem markPa_mem : (s.markPa pa).mem = s.mem := rfl
@[simp] theorem markPa_groups : (s.markPa pa).groups = s.groups := rfl
@[simp] theorem markPa_waves : (s.markPa pa).waves = s.waves := rfl

end

/-- The address lies at a peer that is not UP. -/
def AtLostPeer (s : State) (pa : Nat) : Prop := ∃ q, paKind pa = .peer q ∧ s.peerUp q = false

theorem atLostPeer_iff (s : State) (pa : Nat) : ((paKind pa).peerOf).any (fun q => !s.peerUp q) = true ↔ AtLostPeer s pa := by
  unfold AtLostPeer
  cases paKind pa <;> simp [PaKind.peerOf]

section
variable {s : State} {pa k core : Nat} {ms : Bool} {bytes : List (Option (BitVec 8))}

theorem enterPhys_discarded {who : Option (Nat × Nat)} {side : Option SideStore} (lost : AtLostPeer s pa) :
    s.enterPhys who pa ms bytes side = s :=
  if_pos ((atLostPeer_iff s pa).mpr lost)

/-- Bytes with no side-band that a wave stores are written; its core's copies of the line take them, it has them as its own,
and their granule is marked. -/
theorem enterPhys_enters (kept : ¬ AtLostPeer s pa) : let here := presentBytes 0 bytes
    let u := (s.homeAccess pa ms true here.length).countPeer pa here.length
    s.enterPhys (some (k, core)) pa ms bytes none = (((State.modCore { u with mem := u.mem.writeSome pa bytes } core
      (fun c => { c with l1 := c.l1.map (fun z => z.update pa here (some k) none c.fillSeq) })).modWave k
      (fun x => x.addOwn pa here)).markPa pa) :=
  if_neg (mt (atLostPeer_iff s pa).mp kept)

theorem enterPhys_mem (kept : ¬ AtLostPeer s pa) :
    (s.enterPhys (some (k, core)) pa ms bytes none).mem = s.mem.writeSome pa bytes := by
  simp [enterPhys_enters kept, (cacheOnly_homeAccess ..).mem]

theorem enterPhys_groups : (s.enterPhys (some (k, core)) pa ms bytes none).groups = s.groups := by
  by_cases lost : AtLostPeer s pa
  · rw [enterPhys_discarded lost]
  · simp [enterPhys_enters lost, (cacheOnly_homeAccess ..).groups]

/-- Of the storing wave only what it has as its own changes. -/
theorem enterPhys_wave {w : Wave} (hw : s.waves[k]? = some w) :
    ∃ own, (s.enterPhys (some (k, core)) pa ms bytes none).waves[k]? = some { w with own := own } := by
  by_cases lost : AtLostPeer s pa
  · rw [enterPhys_discarded lost]
    exact ⟨w.own, hw⟩
  · refine ⟨(w.addOwn pa (presentBytes 0 bytes)).own, ?_⟩
    simp [enterPhys_enters lost, (cacheOnly_homeAccess ..).waves, hw]
    rfl

end

/-! ### The bytes of a partial store -/

theorem byte_writeSome_present {m : Mem} (h : m.wf = true) {pa j : Nat} {b : BitVec 8} {bytes : List (Option (BitVec 8))}
    (hb : bytes[j]? = some (some b)) : (m.writeSome pa bytes).byte (pa + j) = b := by
  obtain ⟨hj, hb⟩ := List.getElem?_eq_some_iff.mp hb
  rw [byte_writeSome_inside m pa j bytes h hj, hb, Option.getD_some]

theorem byte_writeSome_absent {m : Mem} (h : m.wf = true) {pa j : Nat} {bytes : List (Option (BitVec 8))}
    (hb : bytes[j]? = some none) : (m.writeSome pa bytes).byte (pa + j) = m.byte (pa + j) := by
  obtain ⟨hj, hb⟩ := List.getElem?_eq_some_iff.mp hb
  rw [byte_writeSome_inside m pa j bytes h hj, hb, Option.getD_none]

/-! ### The pending store at a position is released (05 R130, R131) -/

section
variable {s : State} {k n : Nat} {w : Wave} {p : PStore}

theorem enterStore_phys {pa : Nat} {ms : Bool} (hplace : p.place = .phys pa ms) :
    s.enterStore k w p = (s.enterPhys (some (k, w.core)) pa ms p.bytes p.side).modWave k (fun x => { x with
      own := p.also.foldl (fun l c => updateSorted c.1 (some c.2) l) x.own }) := by
  simp only [State.enterStore, hplace]

theorem releaseStore_enters (hw : s.waves[k]? = some w) (hp : w.pend[n]? = some p) :
    s.releaseStore k n = (s.enterStore k w p).modWave k (fun x => { x with pend := x.pend.eraseIdx n }) := by
  simp only [State.releaseStore, hw, hp]

variable {pa : Nat} {ms : Bool} (hw : s.waves[k]? = some w) (hp : w.pend[n]? = some p) (hplace : p.place = .phys pa ms)
include hw hp hplace

theorem releaseStore_mem_lost (lost : AtLostPeer s pa) : (s.releaseStore k n).mem = s.mem := by
  simp [releaseStore_enters hw hp, enterStore_phys hplace, enterPhys_discarded lost]

variable (hside : p.side = none)
include hside

theorem releaseStore_mem (kept : ¬ AtLostPeer s pa) : (s.releaseStore k n).mem = s.mem.writeSome pa p.bytes := by
  simp [releaseStore_enters hw hp, enterStore_phys hplace, hside, enterPhys_mem kept]

theorem releaseStore_groups : (s.releaseStore k n).groups = s.groups := by
  simp [releaseStore_enters hw hp, enterStore_phys hplace, hside, enterPhys_groups]

/-- The storing wave has one pending store fewer, and may have more as its own. -/
theorem releaseStore_wave :
    ∃ own, (s.releaseStore k n).waves[k]? = some { w with own := own, pend := w.pend.eraseIdx n } := by
  obtain ⟨own, entered⟩ := enterPhys_wave (core := w.core) (pa := pa) (ms := ms) (bytes := p.bytes) hw
  refine ⟨p.also.foldl (fun l c => updateSorted c.1 (some c.2) l) own, ?_⟩
  rw [releaseStore_enters hw hp, enterStore_phys hplace, hside, modWave_get, modWave_get, entered]
  rfl

end

/-! ### The event, and the boundary that it may complete -/

theorem exec_storeEntersCoherenceOrder (s : State) (k n : Nat) :
    exec (.storeEntersCoherenceOrder k n) s = execStoreEntersCoherenceOrder k n s := rfl

theorem storeEnters_atBoundary {s : State} {k n scope : Nat} {w : Wave} {c : Cont} (hw : s.waves[k]? = some w)
    (hst : w.st = .wait (.release scope c)) (may : w.mayRelease n = true) :
    exec (.storeEntersCoherenceOrder k n) s = .next ((s.releaseStore k n).settleRelease k) := by
  simp [exec_storeEntersCoherenceOrder, execStoreEntersCoherenceOrder, hw, hst, may]

/-- With a store still pending the boundary is not complete. -/
theorem settleRelease_pending {s : State} {k : Nat} {w : Wave} (hw : s.waves[k]? = some w) (hp : w.pend ≠ []) :
    s.settleRelease k = s := by
  unfold State.settleRelease
  rw [hw]
  dsimp only
  split
  · exact if_neg (by simpa using hp)
  · rfl

/-- A boundary of a wave that has one pending store fewer is complete when that was the only one. -/
theorem settleRelease_eraseIdx {t : State} {k n scope : Nat} {x : Wave} {c : Cont} {l : List PStore}
    (hx : t.waves[k]? = some x) (hst : x.st = .wait (.release scope c)) (hp : x.pend = l.eraseIdx n) (hn : n < l.length) :
    t.settleRelease k = if l.length = 1 then (t.releaseDone k scope).runCont k c else t := by
  have left : x.pend.length = l.length - 1 := by rw [hp, List.length_eraseIdx_of_lt hn]
  by_cases last : l.length = 1
  · have entered : x.pend = [] := List.length_eq_zero_iff.mp (by omega)
    rw [if_pos last, CopyEngine.settleRelease_entered ⟨x, hx, hst, entered⟩]
  · have pending : x.pend ≠ [] := List.length_pos_iff.mp (by omega)
    rw [if_neg last, settleRelease_pending hx pending]

/-- Settles O25: the machine in which the store has entered is that of `State.releaseStore`, and the boundary is complete when no
store is left. -/
theorem releasedStoreWrites : Obligations.ReleasedStoreWrites := by
  unfold Obligations.ReleasedStoreWrites
  intro s k n w p scope c pa ms canon hw hst may hp hplace hside
  obtain ⟨hn, -⟩ := List.getElem?_eq_some_iff.mp hp
  obtain ⟨own, entered⟩ := releaseStore_wave hw hp hplace hside
  refine ⟨s.releaseStore k n, ?_, fun up => ?_, fun q at_ down => ?_, releaseStore_groups hw hp hplace hside, ?_⟩
  · rw [storeEnters_atBoundary hw hst may, settleRelease_eraseIdx entered hst rfl hn]
  · have kept : ¬ AtLostPeer s pa := fun ⟨q, at_, down⟩ => Bool.false_ne_true (down.symm.trans (up q at_))
    rw [releaseStore_mem hw hp hplace hside kept]
    exact ⟨fun _ _ => byte_writeSome_present canon, fun _ => byte_writeSome_absent canon,
      fun a => byte_writeSome_outside s.mem pa a p.bytes canon⟩
  · exact releaseStore_mem_lost hw hp hplace ⟨q, at_, down⟩
  · intro x hx
    obtain rfl := Option.some.inj (entered.symm.trans hx)
    exact ⟨rfl, rfl, rfl, rfl, rfl⟩

end Sys2Proof.Consistency

/-! PROOFS of 06_encoding: words and instructions (O36), registers and immediates (O4, O3), hint words (O10), special registers
(O8), the checks of R170 (O39), and the steps that run words (O37). -/

namespace Sys2Proof.InstructionWords

open Sys2Proof Sys2Proof.Machine Sys2Proof.Laws

/-! ### A word is the word of what it decodes to (06 R156, R157, R171, R172) -/

section
variable {w : Word} {i : Instr}

theorem fieldOf_toNat (w : Word) (lo len : Nat) : (fieldOf w lo len).toNat = w.toNat / 2 ^ lo % 2 ^ len := by
  simp [fieldOf, Nat.shiftRight_eq_div_pow]

/-- What a decoder's test of a field says of the word as a number. -/
theorem fieldOf_eq_iff {lo len : Nat} {c : BitVec len} : fieldOf w lo len = c ↔ w.toNat / 2 ^ lo % 2 ^ len = c.toNat := by
  rw [BitVec.toNat_eq, fieldOf_toNat]

/-- The word `w` is the word of what a decoder answers. -/
def Encodes (w : Word) (answer : Option Instr) : Prop := ∀ i, answer = some i → encode i = some w

theorem encodes_none : Encodes w none := nofun

theorem encodes_ite {c : Prop} [Decidable c] {a b : Option Instr} (h : c → Encodes w a) (h' : Encodes w b) :
    Encodes w (if c then a else b) := by
  split
  · exact h ‹c›
  · exact h'

theorem encodes_word {x : Word} (he : encode i = some x) (hx : x = fieldOf w 0 32) : Encodes w (some i) := by
  rintro _ ⟨⟩
  rw [he, hx, fieldOf, fieldAll]

/-- Fields that lie side by side make up a field. -/
theorem append_eq_fieldOf {n m lo : Nat} {x : BitVec n} {y : BitVec m} (hx : x = fieldOf w (lo + m) n)
    (hy : y = fieldOf w lo m) : x ++ y = fieldOf w lo (n + m) := by
  rw [hx, hy]
  exact BitVec.extractLsb'_append_extractLsb'_eq_extractLsb' rfl

theorem eq_ofNat_of_toNat {n k : Nat} {x : BitVec n} (h : x.toNat = k) : x = BitVec.ofNat n k := by
  rw [← h, BitVec.ofNat_toNat, BitVec.setWidth_eq]

/-- Each word of the map is put together again from the fields that its decoder has read or tested: primary, sub-codes and
zero bits stand as constants in the word of the instruction, operands as the fields themselves. -/
theorem decode_encodes (w : Word) : Encodes w (decode w) := by
  unfold decode
  split
  case' isTrue => unfold decodeV
  case' isFalse =>
    unfold decodeCompound decode60 decode66 decode6A decode6B decode6E decode6F decode70 decode71 decode72 decode73 decode75
      decode76 decode78 decode79 decode7A decode7B decode7C decode7F
  all_goals split
  all_goals repeat' apply encodes_ite
  any_goals exact encodes_none
  -- One goal is left for each word of the map.
  all_goals
    rename_i primary
    replace primary := eq_ofNat_of_toNat primary
    intros
    apply encodes_word rfl
    repeat' apply append_eq_fieldOf
    all_goals simp only [Nat.reduceAdd, @eq_comm _ (BitVec.ofNat _ _), *]
  -- What is left of them: constants of the encoder that cover several tested fields.
  all_goals
    simp only [fieldOf_eq_iff, BitVec.toNat_ofNat] at *
    omega

end

/-! ### The word of an instruction decodes to it -/

/-- The lemmas of the constructors, in the order of `Instr`. -/
theorem decode_encode (i : Instr) : Encoding.Statement i :=
  @Instr.casesOn Encoding.Statement i
    Encoding.vaddI32 Encoding.vsubI32 Encoding.vmulI32 Encoding.vmulhI32 Encoding.vmulhuI32 Encoding.vminI32
    Encoding.vmaxI32 Encoding.vminuI32 Encoding.vmaxuI32 Encoding.vand Encoding.vor Encoding.vxor Encoding.vshl
    Encoding.vshr Encoding.vsar Encoding.vmov Encoding.vpopc Encoding.vclz Encoding.vsel Encoding.vaddF32 Encoding.vsubF32
    Encoding.vmulF32 Encoding.vfmaF32 Encoding.vminF32 Encoding.vmaxF32 Encoding.vabsF32 Encoding.vnegF32
    Encoding.vaddBf16x2 Encoding.vmulBf16x2 Encoding.vfmaBf16x2 Encoding.vaddFp16x2 Encoding.vmulFp16x2
    Encoding.vfmaFp16x2 Encoding.vaddE4m3x4 Encoding.vmulE4m3x4 Encoding.vaddInt8x4 Encoding.vsubInt8x4
    Encoding.vaddUint8x4 Encoding.vsubUint8x4 Encoding.vdot2Bf16 Encoding.vdot2Fp16 Encoding.vdot4E4m3 Encoding.vdot4Int8
    Encoding.vcvt Encoding.vcvtpk Encoding.vcvtxp Encoding.vqblk Encoding.vdqblk Encoding.vrcp Encoding.vrsq
    Encoding.vsqrt Encoding.vexp2 Encoding.vlog2 Encoding.vsinpi Encoding.vcospi Encoding.add Encoding.sub Encoding.mul
    Encoding.mulh Encoding.mulhu Encoding.and Encoding.or Encoding.xor Encoding.andn Encoding.shl Encoding.shr
    Encoding.sar Encoding.shli Encoding.shri Encoding.sari Encoding.slt Encoding.sltu Encoding.min Encoding.max
    Encoding.minu Encoding.maxu Encoding.popc Encoding.clz Encoding.ctz Encoding.addi Encoding.andi Encoding.ori
    Encoding.xori Encoding.slti Encoding.sltiu Encoding.grd Encoding.gwr Encoding.gadd Encoding.bez Encoding.bnez
    Encoding.bra Encoding.bany Encoding.ball Encoding.bnone Encoding.call Encoding.jmpr Encoding.callr Encoding.ret
    Encoding.endWave Encoding.yield Encoding.trap Encoding.tret Encoding.srd Encoding.swr Encoding.fenceI Encoding.sld
    Encoding.sst Encoding.vldI8 Encoding.vldZ8 Encoding.vldI16 Encoding.vldZ16 Encoding.vld32 Encoding.vst8 Encoding.vst16
    Encoding.vst32 Encoding.vldl Encoding.vstl Encoding.vldb Encoding.vstb Encoding.vstc Encoding.phase Encoding.barInit
    Encoding.barArrive Encoding.barWait Encoding.wsq Encoding.aadd Encoding.aaddF32 Encoding.aand Encoding.aor
    Encoding.axor Encoding.amin Encoding.amax Encoding.aminu Encoding.amaxu Encoding.axchg Encoding.acas
    Encoding.vcmpEqI32 Encoding.vcmpNeI32 Encoding.vcmpLtI32 Encoding.vcmpLeI32 Encoding.vcmpLtuI32 Encoding.vcmpLeuI32
    Encoding.vcmpEqF32 Encoding.vcmpNeF32 Encoding.vcmpLtF32 Encoding.vcmpLeF32 Encoding.vcmpUnF32 Encoding.mand
    Encoding.mor Encoding.mxor Encoding.mandn Encoding.mnot Encoding.mfroms Encoding.mtos Encoding.mpopc Encoding.mffs
    Encoding.vshfl Encoding.vmatch Encoding.vmatchF Encoding.vreduceAddF32 Encoding.vreduceAddI32 Encoding.vreduceMinF32
    Encoding.vreduceMaxF32 Encoding.vreduceMinI32 Encoding.vreduceMaxI32 Encoding.vscanAddF32 Encoding.vscanAddI32
    Encoding.vmovs Encoding.vrdlane Encoding.vwrlane Encoding.vlaneid Encoding.mma Encoding.accz Encoding.accld
    Encoding.accst Encoding.acccvt Encoding.mwait Encoding.copyk Encoding.cpq Encoding.publ Encoding.hvxor Encoding.hvnot
    Encoding.hvmov Encoding.hvbund Encoding.hvbsub Encoding.hvmaj Encoding.hvbclr Encoding.hvgen Encoding.hvrot
    Encoding.hvdist Encoding.hvseed Encoding.hvrdtie Encoding.hvld Encoding.hvst Encoding.hvnear Encoding.hvbit
    Encoding.enq Encoding.sgfork Encoding.sgreward Encoding.sgwait Encoding.sgcancel Encoding.sgquery Encoding.srdp
    Encoding.swrp Encoding.icinv Encoding.tlbinv Encoding.wkill Encoding.wresume Encoding.acrd Encoding.halt
    Encoding.hintImm Encoding.hintMod Encoding.ipref Encoding.hintSched Encoding.hintSchedDelayEnd Encoding.resultWrite
    Encoding.atomicPerform Encoding.llcFill Encoding.llcWriteBack Encoding.pageWalk Encoding.wsRefreshWindowEnd
    Encoding.regionBaseWrite Encoding.regionLimitWrite Encoding.regionScaleWrite Encoding.regionCtlWrite
    Encoding.regionChangeApply Encoding.registerWrite Encoding.qwptrDoorbell Encoding.pad Encoding.kernel Encoding.graph
    Encoding.copy Encoding.waitValue Encoding.waitValueReread Encoding.signal Encoding.signalAdd Encoding.publish
    Encoding.checkpointClose Encoding.checkpointStopSave Encoding.launchComplete Encoding.binTimerExpiry
    Encoding.groupPlace Encoding.groupStart Encoding.groupPark Encoding.sgwaitSpinExpiry Encoding.sgoTimeout
    Encoding.trapEntry Encoding.boundaryTrap Encoding.waveKill Encoding.waveStop Encoding.copyRequestStart
    Encoding.copyPieceLand Encoding.copyRequestFail Encoding.copyRequestCancel Encoding.followOnIssue Encoding.publishStep
    Encoding.arrayPass Encoding.acczRun Encoding.accldRun Encoding.barWaitComplete Encoding.intervalClose
    Encoding.cutCapture Encoding.ckptintvExpiry Encoding.agStreamItem Encoding.agCommit Encoding.agPendUpdate
    Encoding.eccCorrectable Encoding.eccUncorrectable Encoding.logicError Encoding.linkFlitRetry Encoding.selfTestVerdict
    Encoding.hostHdmAccess Encoding.peerRequest Encoding.peerLinkDown Encoding.ckptPortDown Encoding.powerThrottleWindow
    Encoding.thermalThrottle Encoding.thermtrip Encoding.deviceReset Encoding.ctxCreate Encoding.ctxDestroy
    Encoding.ctxRead Encoding.ctxWrite Encoding.ctxStopClose Encoding.ctxStopSave Encoding.ctxResume Encoding.ctxKill
    Encoding.ctxInval Encoding.ringCreate Encoding.ringDestroy Encoding.objLoad Encoding.objUnload Encoding.graphSet
    Encoding.binSet Encoding.pbSet Encoding.domSet Encoding.domGet Encoding.snapshot Encoding.powerRead
    Encoding.powerWrite Encoding.lifeGet Encoding.peerSet Encoding.imagePush Encoding.serviceCompletion
    Encoding.getVersion Encoding.getCapabilities Encoding.negotiateAlgorithms Encoding.getDigests Encoding.getCertificate
    Encoding.challenge Encoding.getMeasurements Encoding.vendorDefinedRequest Encoding.storeEntersCoherenceOrder
    Encoding.instructionFetch Encoding.instructionCacheFill Encoding.badservice Encoding.checkpointPortUp
    Encoding.peerLinkRetrain Encoding.poweredOnHour

theorem encode_of_form {i : Instr} {f : Form} (hf : issueForm i = some f) : ∃ w, encode i = some w := by
  cases i <;> cases hf <;> exact ⟨_, rfl⟩

/-- Settles O36: each form has a word by the table of words, and the decoder and the table are each other's inverse. -/
theorem encodingRoundTrip : Obligations.EncodingRoundTrip := by
  unfold Obligations.EncodingRoundTrip
  exact ⟨fun _ _ => encode_of_form, fun _ => ⟨_, rfl⟩, fun _ _ _ _ _ _ _ => ⟨_, rfl⟩, decode_encode,
    fun i w => decode_encodes w i⟩

/-! ### Scalar registers and masks (06 R158) -/

section
variable (w : Wave) (n k : Nat) (v : DWord) (m : Word)

@[simp] theorem s_zero : w.s 0 = 0#64 := rfl
@[simp] theorem setS_zero : w.setS 0 v = w := rfl
@[simp] theorem m_seven : w.m 7 = 0xFFFFFFFF#32 := rfl
@[simp] theorem setM_seven : w.setM 7 m = w := rfl

variable {w n k}

theorem s_setS_same (h : n ≠ 0) (hn : n < w.sregs.length) : (w.setS n v).s n = v := by
  simp [Wave.s, Wave.setS, h, hn]

theorem s_setS_other (h : k ≠ n) : (w.setS n v).s k = w.s k := by
  by_cases hn : n = 0 <;> simp [Wave.s, Wave.setS, hn, List.getElem?_set_ne h.symm]

theorem m_setM_same (h : n ≠ 7) (hn : n < w.masks.length) : (w.setM n m).m n = m := by
  simp [Wave.m, Wave.setM, h, hn]

theorem m_setM_other (h : k ≠ n) : (w.setM n m).m k = w.m k := by
  by_cases hn : n = 7 <;> simp [Wave.m, Wave.setM, hn, List.getElem?_set_ne h.symm]

end

/-- Settles O4, from what a read gives after a write to the same and to another register. -/
theorem scalarAndMaskRegisters : Obligations.ScalarAndMaskRegisters := by
  unfold Obligations.ScalarAndMaskRegisters
  intro w n k v m scalars masks
  exact ⟨s_zero w, setS_zero w v, m_seven w, setM_seven w m,
    fun h hn => s_setS_same v h (by omega), s_setS_other v,
    fun hn => m_setM_same m (by omega) (by omega), m_setM_other m⟩

/-! ### Immediates (06 R166) -/

section
variable {w : Wave} {pc : DWord} {h : BitVec 20} {m : Option (BitVec 20)}

/-- The sum of ImmValue() in 32 bits is the sum of whole numbers: the hint in bits [31:12], the immediate of the word signed. -/
theorem hintSum_eq (h : BitVec 20) (i : BitVec 12) :
    (h.setWidth 32) <<< 12 + i.signExtend 32 = BitVec.ofInt 32 (h.toNat * 2 ^ 12 + i.toInt) := by
  have high : (h.setWidth 32) <<< 12 = BitVec.ofInt 32 (h.toNat * 2 ^ 12) := by
    apply BitVec.eq_of_toNat_eq
    have := h.isLt
    simp only [BitVec.toNat_shiftLeft, BitVec.toNat_setWidth, BitVec.toNat_ofInt, Nat.shiftLeft_eq]
    omega
  rw [high, BitVec.ofInt_add]
  rfl

theorem immValue_hinted (hp : w.pfx = some ⟨pc, some h, m⟩) (i : BitVec 12) :
    w.immValue i = (BitVec.ofInt 32 (h.toNat * 2 ^ 12 + i.toInt)).signExtend 64 := by
  rw [← hintSum_eq]
  simp [Wave.immValue, hp]

theorem immValue_unhinted (hp : w.pfx = some ⟨pc, none, m⟩) (i : BitVec 12) : w.immValue i = BitVec.ofInt 64 i.toInt := by
  simp [Wave.immValue, hp, BitVec.signExtend]

theorem immValue_alone (hp : w.pfx = none) (i : BitVec 12) : w.immValue i = BitVec.ofInt 64 i.toInt := by
  simp [Wave.immValue, hp, BitVec.signExtend]

/-- The split of a 32-bit value: the low 12 bits are read as signed, so that the hint is the nearest multiple of 2^12. -/
theorem hintSplit (v : Word) :
    BitVec.ofInt 32 ((BitVec.ofNat 20 ((v.toNat + 0x800) / 2 ^ 12)).toNat * 2 ^ 12 + (BitVec.ofNat 12 v.toNat).toInt) = v := by
  apply BitVec.eq_of_toNat_eq
  have := v.isLt
  simp only [BitVec.toNat_ofInt, BitVec.toNat_ofNat, BitVec.toInt_ofNat', Int.bmod]
  split <;> omega

end

/-- Settles O3: the hinted immediate is a sum of whole numbers modulo 2^32, which the split undoes. -/
theorem immediateValue : Obligations.ImmediateValue := by
  unfold Obligations.ImmediateValue
  intro w i
  refine ⟨fun pc h m hp => immValue_hinted hp i, fun pc m hp => immValue_unhinted hp i, fun hp => immValue_alone hp i,
    fun v pc m hp => ?_⟩
  rw [immValue_hinted hp, hintSplit]

/-! ### Hint words (06 R165) -/

section
variable {s : State} {w : Wave} (p : BitVec 20) (v : BitVec 1) (m : BitVec 2) (t z e cv : BitVec 1) (c : BitVec 8)

theorem exec_hintImm : exec (.hintImm p) s = execHintImm p s := rfl
theorem exec_hintMod : exec (.hintMod v m t z e cv c) s = execHintMod v m t z e cv c s := rfl

/-- The payload of a HINT.MOD as a group of words holds it. -/
def modPayload : BitVec 20 := v ++ m ++ t ++ z ++ e ++ cv ++ c ++ 0#5

/-- The machine that goes on after a hint word, with the group of words `x` and the marker `k` of its first word. -/
def hinted (s : State) (w : Wave) (x : Pfx) (k : Bool) : State :=
  s.modWave s.cur (fun _ => { w.advance with pfx := some x, marked := k })

variable (hw : s.waves[s.cur]? = some w)
include hw

theorem modWave_hinted {f : Wave → Wave} {x : Pfx} {k : Bool} (h : f w = { w.advance with pfx := some x, marked := k }) :
    s.modWave s.cur f = hinted s w x k :=
  modWave_congr s s.cur w _ _ hw h

theorem hintImm_opens (hp : w.pfx = none) : exec (.hintImm p) s = .next (hinted s w ⟨w.pc, some p, none⟩ false) := by
  rw [exec_hintImm]
  simp only [execHintImm, hw, hp]
  exact congrArg Host.Outcome.next (modWave_hinted hw rfl)

theorem hintImm_joins {pc : DWord} {y : BitVec 20} (hp : w.pfx = some ⟨pc, none, some y⟩) :
    exec (.hintImm p) s = .next (hinted s w ⟨pc, some p, some y⟩ w.marked) := by
  rw [exec_hintImm]
  simp only [execHintImm, hw, hp]
  exact congrArg Host.Outcome.next (modWave_hinted hw rfl)

theorem hintImm_again {pc : DWord} {y : BitVec 20} {x : Option (BitVec 20)} (hp : w.pfx = some ⟨pc, some y, x⟩) :
    exec (.hintImm p) s = .next (s.takeTrap s.cur (trapAt causeIllegal (wordAddr (.hintImm p))) false) := by
  rw [exec_hintImm]
  simp only [execHintImm, hw, hp]

theorem hintMod_opens (hp : w.pfx = none) :
    exec (.hintMod v m t z e cv c) s = .next (hinted s w ⟨w.pc, none, some (modPayload v m t z e cv c)⟩ false) := by
  rw [exec_hintMod]
  simp only [execHintMod, hw, hp]
  exact congrArg Host.Outcome.next (modWave_hinted hw rfl)

theorem hintMod_joins {pc : DWord} {y : BitVec 20} (hp : w.pfx = some ⟨pc, some y, none⟩) :
    exec (.hintMod v m t z e cv c) s = .next (hinted s w ⟨pc, some y, some (modPayload v m t z e cv c)⟩ w.marked) := by
  rw [exec_hintMod]
  simp only [execHintMod, hw, hp]
  exact congrArg Host.Outcome.next (modWave_hinted hw rfl)

theorem hintMod_again {pc : DWord} {y : BitVec 20} {x : Option (BitVec 20)} (hp : w.pfx = some ⟨pc, x, some y⟩) :
    exec (.hintMod v m t z e cv c) s =
      .next (s.takeTrap s.cur (trapAt causeIllegal (wordAddr (.hintMod v m t z e cv c))) false) := by
  rw [exec_hintMod]
  simp only [execHintMod, hw, hp]

end

/-- Settles O10, by what the group of words that is open holds. -/
theorem prefixResults : Obligations.PrefixResults := by
  unfold Obligations.PrefixResults
  intro s w p v m t z e cv c hw
  exact ⟨fun hp => ⟨hintImm_opens p hw hp, hintMod_opens v m t z e cv c hw hp⟩,
    fun pc y hp => ⟨hintImm_joins p hw hp, hintMod_again v m t z e cv c hw hp⟩,
    fun pc y hp => ⟨hintMod_joins v m t z e cv c hw hp, hintImm_again p hw hp⟩,
    fun pc y x hp => ⟨hintImm_again p hw hp, hintMod_again v m t z e cv c hw hp⟩⟩

/-! ### Special registers (06 R160; 07 R196, R197) -/

section
variable {s : State} {w : Wave} {g : Group} {c : Ctx}

theorem exec_srd (sw : BitVec 1) (x : BitVec 6) (i : BitVec 12) : exec (.srd sw x i) s = execSrd sw x i s := rfl
theorem exec_swr (sw : BitVec 1) (x : BitVec 6) (i : BitVec 12) : exec (.swr sw x i) s = execSwr sw x i s := rfl

theorem ofNat_mod_two_pow (k n : Nat) : BitVec.ofNat 64 (k % 2 ^ n) = (BitVec.ofNat n k).setWidth 64 := by
  apply BitVec.eq_of_toNat_eq
  simp

/-- The registers that describe a group hold fields of its state. -/
theorem specialReg_group (hg : s.groups[w.group]? = some g) :
    s.specialReg w 0x001#12 = (BitVec.ofNat 32 g.coord.1).setWidth 64 ∧
    s.specialReg w 0x002#12 = (BitVec.ofNat 32 g.coord.2.1).setWidth 64 ∧
    s.specialReg w 0x003#12 = (BitVec.ofNat 32 g.coord.2.2).setWidth 64 ∧
    s.specialReg w 0x004#12 = (BitVec.ofNat 32 g.extent.1).setWidth 64 ∧
    s.specialReg w 0x005#12 = (BitVec.ofNat 32 g.extent.2.1).setWidth 64 ∧
    s.specialReg w 0x006#12 = (BitVec.ofNat 32 g.extent.2.2).setWidth 64 ∧
    s.specialReg w 0x008#12 = (BitVec.ofNat 12 g.waves.length).setWidth 64 ∧
    s.specialReg w 0x042#12 = g.got := by
  simp only [← ofNat_mod_two_pow]
  simp [State.specialReg, hg]

/-- SR_SNAP has SNAP_CUR in bit 1 and SNAP_OVF in bit 0. -/
theorem specialReg_snap (k : Nat) :
    (s.specialReg w 0x021#12).getLsbD k = (k == 1 && w.snapCur || k == 0 && w.snapOvf) := by
  have value : s.specialReg w 0x021#12 = BitVec.ofNat 64 ((if w.snapCur then 2 else 0) + (if w.snapOvf then 1 else 0)) := by
    simp [State.specialReg]
  rw [value]
  match k with
  | 0 => cases w.snapCur <;> cases w.snapOvf <;> rfl
  | 1 => cases w.snapCur <;> cases w.snapOvf <;> rfl
  | k + 2 =>
    cases w.snapCur <;> cases w.snapOvf <;> simp [BitVec.getLsbD_ofNat, Nat.testBit_add_one]

theorem specialReg_domain (hc : s.ctxs[w.ctx]? = some c) :
    s.specialReg w 0x012#12 = (c.act.ctl.extractLsb' 0 6).setWidth 64 := by
  simp [State.specialReg, hc]

/-- The registers that describe the wave itself. -/
theorem specialReg_wave :
    s.specialReg w 0x000#12 = (BitVec.ofNat 11 w.index).setWidth 64 ∧
    s.specialReg w 0x007#12 = (BitVec.ofNat 2 w.stage).setWidth 64 ∧
    s.specialReg w 0x010#12 = BitVec.ofNat 64 (s.coreClock w.core) ∧
    s.specialReg w 0x011#12 = (BitVec.ofNat 8 w.core).setWidth 64 ∧
    s.specialReg w 0x020#12 = w.acqCnt ++ w.relCnt ∧
    s.specialReg w 0x022#12 = w.fpflags.setWidth 64 ∧
    s.specialReg w 0x030#12 = w.trapCause.setWidth 64 ∧
    s.specialReg w 0x031#12 = w.trapPc ∧
    s.specialReg w 0x032#12 = w.trapAddr := by
  simp only [← ofNat_mod_two_pow]
  simp [State.specialReg]

/-- The bases of the windows are constants. -/
theorem specialReg_windows :
    s.specialReg w 0x040#12 = 0xFF00000000000000#64 ∧ s.specialReg w 0x041#12 = 0xFF00000000200000#64 := by
  constructor <;> rfl

theorem gives_srd (sw : BitVec 1) (x : BitVec 6) (i : BitVec 12) :
    s.Gives w (.srd sw x i) (s.became sw (w.setS x.toNat (s.specialReg w i))) :=
  givesWave rfl (exec_srd sw x i) rfl rfl

theorem gives_swr (sw : BitVec 1) (x : BitVec 6) (i : BitVec 12) :
    s.Gives w (.swr sw x i) (s.became sw (w.writeSpecial i (w.s x.toNat))) :=
  givesWave rfl (exec_swr sw x i) rfl rfl

end

/-- Settles O8, register by register. -/
theorem specialRegisterResults : Obligations.SpecialRegisterResults := by
  unfold Obligations.SpecialRegisterResults
  intro s w g c sw x i hg hc
  obtain ⟨index, stage, clock, core, counts, flags, cause, trapPc, trapAddr⟩ := @specialReg_wave s w
  obtain ⟨coord0, coord1, coord2, extent0, extent1, extent2, size, got⟩ := specialReg_group hg
  obtain ⟨scratch, registers⟩ := @specialReg_windows s w
  exact ⟨gives_srd sw x i, index, coord0, coord1, coord2, extent0, extent1, extent2, stage, size, clock, core,
    specialReg_domain hc, counts, specialReg_snap, flags, cause, trapPc, trapAddr, scratch, registers, got,
    gives_swr sw x 0x021#12, gives_swr sw x 0x022#12, gives_swr sw x 0x031#12⟩

/-! ### How a word of a form issues (06 R170; 09 R245; 10 R258) -/

/-- The queue that a word needs an entry of, if it needs one: its core's kick queue, or that of an array. -/
def engineQueue : Instr → Option (Option Nat)
  | .copyk _ _ => some none
  | .mma _ _ _ c _ _ => some (some (c.toNat / 2))
  | .accz _ c => some (some (c.toNat / 2))
  | .accld _ c _ _ => some (some (c.toNat / 2))
  | _ => none

/-- The step `o` is the issue of the word `i` with its form and some checks and effect of its own. -/
def Issues (s : State) (i : Instr) (f : Form) (o : Step) : Prop := ∃ body, o = s.issue i f body

section
variable (s : State) (i : Instr) (f : Form)

theorem issue_issues (body : Nat → Wave → Except TrapInfo State) : Issues s i f (s.issue i f body) := ⟨_, rfl⟩

theorem onWave_issues (g : Wave → Wave) : Issues s i f (s.onWave i f g) := ⟨_, rfl⟩

theorem branchIf_issues (o : BitVec 18) (c : Wave → Bool) : Issues s i f (s.branchIf i f o c) := ⟨_, rfl⟩

theorem jump_issues (link : Bool) (target : Wave → DWord) : Issues s i f (s.jump i f link target) := ⟨_, rfl⟩

theorem gather_issues (sw : BitVec 1) (v o : BitVec 8) (b : BitVec 5) (n : Nat) (g : Nat → Word) :
    Issues s i { sw := sw, src := [.s b.toNat, .v o.toNat], dst := [.v v.toNat] } (s.gather i sw v o b n g) := ⟨_, rfl⟩

theorem scatter_issues (sw : BitVec 1) (v o : BitVec 8) (b : BitVec 5) (n : Nat) :
    Issues s i { sw := sw, src := [.v v.toNat, .s b.toNat, .v o.toNat] } (s.scatter i sw v o b n) := ⟨_, rfl⟩

theorem loadLine_issues (sw : BitVec 1) (x : BitVec 8) (a : BitVec 6) (block : Bool) :
    Issues s i { sw := sw, src := [.s a.toNat], dst := [.v x.toNat] } (s.loadLine i sw x a block) := ⟨_, rfl⟩

theorem storeLine_issues (sw : BitVec 1) (x : BitVec 8) (a : BitVec 6) (block : Bool) :
    Issues s i { sw := sw, src := [.v x.toNat, .s a.toNat] } (s.storeLine i sw x a block) := ⟨_, rfl⟩

theorem atomic_issues (op : AtomOp) (sw : BitVec 1) (o : BitVec 2) (c : BitVec 3) (v w : BitVec 1) (x a : BitVec 6) :
    Issues s i (formAtomic sw (op == .cas) v x a) (s.atomic i op sw o c v w x a) := by
  unfold State.atomic formAtomic
  exact issue_issues ..

end

/-- Every word that has a form and needs no entry of an engine's queue issues with that form. -/
theorem exec_issues {i : Instr} {f : Form} (hf : issueForm i = some f) (hq : engineQueue i = none) (s : State) :
    Issues s i f (exec i s) := by
  cases i
  all_goals cases hf
  case bez | bnez | bra | bany | ball | bnone => exact branchIf_issues ..
  case jmpr | callr | ret => exact jump_issues ..
  case vldI8 | vldZ8 | vldI16 | vldZ16 | vld32 => exact gather_issues ..
  case vst8 | vst16 | vst32 => exact scatter_issues ..
  case vldl | vldb => exact loadLine_issues ..
  case vstl | vstb => exact storeLine_issues ..
  case aadd | aaddF32 | aand | aor | axor | amin | amax | aminu | amaxu | axchg | acas => exact atomic_issues ..
  case copyk | mma | accz | accld => cases hq
  case grd | gwr | gadd | call | yield | trap | tret | fenceI | hintSched | endWave | srdp | swrp | icinv | tlbinv | wkill |
      wresume | halt | acrd | ipref | sld | sst | vstc | phase | barInit | barArrive | barWait | wsq | cpq | publ | accst |
      acccvt | mwait | hvld | hvst | hvnear | enq | sgfork | sgreward | sgwait | sgcancel | sgquery =>
    unfold exec; exact issue_issues ..
  all_goals exact onWave_issues ..

/-- A word of an engine issues once the engine's queue has an entry. -/
theorem exec_issueIf {i : Instr} {f : Form} {a : Option Nat} (hf : issueForm i = some f) (hq : engineQueue i = some a)
    (s : State) : ∃ body, exec i s = s.issueIf i f a body := by
  cases i
  all_goals cases hq
  case copyk | mma | accz | accld => cases hf; exact ⟨_, rfl⟩

/-- The words of the engines read scalar registers alone, which have no line in the register window. -/
theorem badSource_engine {i : Instr} {f : Form} {a : Option Nat} (hf : issueForm i = some f) (hq : engineQueue i = some a)
    (s : State) (k : Nat) (w : Wave) : s.badSource k w f = none := by
  have scalar : (f.sources w).flatMap RegRef.lines = [] ∧ f.greg = none := by
    cases i
    all_goals cases hq
    case copyk | mma | accz | accld => cases hf; exact ⟨rfl, rfl⟩
  simp [State.badSource, scalar]

/-! ### The checks before a word's own (06 R158 to R160, R163, R165 to R167, R170; 14 R336; 15 R373) -/

/-- What step 3 of 06 R170 asks of a word: fields of its own and hint words that it accepts, registers within the role's
budget, a feature that the context has. -/
def Known (s : State) (w : Wave) (i : Instr) (f : Form) : Prop :=
  i.wf = true ∧ f.accepts w = true ∧ (∀ r ∈ f.sources w ++ f.dst, r.inBudget w = true) ∧
    (∀ k, f.feat = some k → s.hasFeature w k = true)

section
variable {s : State} {w : Wave} {i : Instr} {f : Form}

/-- The checks of 06 R170 in their order: step 3, the privilege, the registers that strict mode covers. -/
theorem refuses_eq : s.refuses w i f =
    if !(i.wf && f.accepts w && (f.sources w).all (RegRef.inBudget w) && f.dst.all (RegRef.inBudget w) &&
      f.feat.all (s.hasFeature w)) then some (trapAt causeIllegal (wordAddr i))
    else if f.priv && !s.privileged w then some (trapAt causePriv (wordAddr i))
    else if s.strict w then ((f.sources w ++ f.dst).find? w.outstanding).map (fun r => trapAt causeMarker r.markerAddr)
    else none := by
  unfold State.refuses
  cases f.feat <;> cases (f.sources w ++ f.dst).find? w.outstanding <;> rfl

theorem known_iff : (i.wf && f.accepts w && (f.sources w).all (RegRef.inBudget w) && f.dst.all (RegRef.inBudget w) &&
    f.feat.all (s.hasFeature w)) = true ↔ Known s w i f := by
  simp only [Bool.and_eq_true, Option.all_eq_true, List.all_eq_true, Known, List.mem_append, or_imp, forall_and, and_assoc]

theorem refuses_unknown (h : ¬ Known s w i f) : s.refuses w i f = some (trapAt causeIllegal (wordAddr i)) := by
  rw [← known_iff, Bool.not_eq_true] at h
  rw [refuses_eq, h]
  rfl

theorem refuses_known (h : Known s w i f) : s.refuses w i f =
    if f.priv && !s.privileged w then some (trapAt causePriv (wordAddr i))
    else if s.strict w then ((f.sources w ++ f.dst).find? w.outstanding).map (fun r => trapAt causeMarker r.markerAddr)
    else none := by
  rw [refuses_eq, known_iff.mpr h]
  rfl

theorem refuses_unprivileged (h : Known s w i f) (priv : ¬ (f.priv = true → s.privileged w = true)) :
    s.refuses w i f = some (trapAt causePriv (wordAddr i)) := by
  obtain ⟨needs, lacks⟩ := Classical.not_imp.mp priv
  simp [refuses_known h, needs, lacks]

/-- What is left of the checks for a word that step 3 and the privilege let pass. -/
theorem refuses_allowed (h : Known s w i f) (priv : f.priv = true → s.privileged w = true) : s.refuses w i f =
    if s.strict w then ((f.sources w ++ f.dst).find? w.outstanding).map (fun r => trapAt causeMarker r.markerAddr)
    else none := by
  rw [refuses_known h]
  cases needs : f.priv
  · rfl
  · simp [priv needs]

theorem refuses_uncovered {l m : List RegRef} {r : RegRef} (h : Known s w i f) (priv : f.priv = true → s.privileged w = true)
    (strict : s.strict w = true) (named : f.sources w ++ f.dst = l ++ r :: m) (out : w.outstanding r = true)
    (before : ∀ x ∈ l, w.outstanding x = false) : s.refuses w i f = some (trapAt causeMarker r.markerAddr) := by
  have first : (l ++ r :: m).find? w.outstanding = some r := by
    rw [List.find?_append, List.find?_eq_none.mpr (by simpa using before)]
    simp [out]
  rw [refuses_allowed h priv, strict, named, first]
  rfl

theorem refuses_passes (h : Known s w i f) (priv : f.priv = true → s.privileged w = true)
    (covered : s.strict w = true → ∀ r ∈ f.sources w ++ f.dst, w.outstanding r = false) : s.refuses w i f = none := by
  rw [refuses_allowed h priv]
  cases strict : s.strict w
  · rfl
  · rw [List.find?_eq_none.mpr (by simpa using covered strict)]
    rfl

theorem badSource_none (h : s.bad = []) (k : Nat) : s.badSource k w f = none := by
  simp [State.badSource, h]

variable (hf : issueForm i = some f)
include hf

theorem turnedAway_of_refuses {t : TrapInfo} (hw : s.waves[s.cur]? = some w) (h : s.refuses w i f = some t) :
    s.TurnedAway w i t := ⟨hw, by rw [hf, ← h]; rfl⟩

theorem ready_of_passes (hw : s.waves[s.cur]? = some w) (h : s.refuses w i f = none) (whole : s.badSource s.cur w f = none) :
    s.Ready w i := ⟨hw, by rw [hf, ← h, ← whole]; rfl⟩

end

/-! ### What a word that does not pass does -/

section
variable {s : State} {w : Wave} {i : Instr} {t : TrapInfo} {va : DWord} {a : Option Nat}

/-- A word of a full queue is turned away as any other: its checks come first. -/
theorem issueIf_refused {f : Form} {body : Nat → Wave → Except TrapInfo State} (hw : s.waves[s.cur]? = some w)
    (hr : s.refuses w i f = some t) : s.issueIf i f a body = .next (s.takeTrap s.cur t false) := by
  simp [State.issueIf, hw, hr, issue_refused s w i f body t hw hr]

theorem exec_turnedAway (h : s.TurnedAway w i t) : exec i s = .next (s.takeTrap s.cur t false) := by
  obtain ⟨hw, checks⟩ := h
  obtain ⟨f, hf, hr⟩ := Option.map_eq_some_iff.mp checks
  cases hq : engineQueue i with
  | none =>
    obtain ⟨body, issues⟩ := exec_issues hf hq s
    rw [issues, issue_refused s w i f body t hw hr]
  | some a =>
    obtain ⟨body, issues⟩ := exec_issueIf hf hq s
    rw [issues, issueIf_refused hw hr]

theorem exec_meetsBadRegister (h : s.MeetsBadRegister w i va) : exec i s = .next (s.takeTrap s.cur (eccAt va 1) false) := by
  obtain ⟨hw, checks⟩ := h
  obtain ⟨f, hf, passed⟩ := Option.map_eq_some_iff.mp checks
  obtain ⟨hr, hg⟩ := Prod.mk.inj passed
  cases hq : engineQueue i with
  | none =>
    obtain ⟨body, issues⟩ := exec_issues hf hq s
    rw [issues, issue_bad s w i f body va hw hr hg]
  | some a =>
    rw [badSource_engine hf hq] at hg
    cases hg

theorem exec_fullQueue (hq : engineQueue i = some a) (full : s.hasEntry w.core a = false) (h : s.Ready w i) :
    exec i s = .next (s.setSt s.cur (.wait (.entry a))) := by
  obtain ⟨hw, checks⟩ := h
  obtain ⟨f, hf, passed⟩ := Option.map_eq_some_iff.mp checks
  obtain ⟨body, issues⟩ := exec_issueIf hf hq s
  rw [issues, issueIf_full s w i f a body hw (Prod.mk.inj passed).1 full]

end

/-! ### The hint words that a form accepts (06 R165, R167) -/

theorem allows_iff (a : ModAcc) (m : BitVec 20) : a.allows m = true ↔
    (a.rm = false → m.extractLsb' 17 3 = 0#3) ∧ (a.sat = false → m.getLsbD 16 = false) ∧
    (a.ftz = false → m.getLsbD 15 = false) ∧ (a.f8 = false → m.getLsbD 14 = false) ∧
    (a.c = false → m.extractLsb' 5 9 = 0#9) := by
  have either (x y : Bool) : (x || y) = true ↔ (x = false → y = true) := by cases x <;> simp
  simp only [ModAcc.allows, Bool.and_eq_true, either, beq_iff_eq, Bool.not_eq_true', and_assoc]

theorem accepts_iff (f : Form) (w : Wave) : f.accepts w = true ↔
    (∀ pc h m, w.pfx = some ⟨pc, some h, m⟩ → f.imm = true) ∧
    (∀ pc h m, w.pfx = some ⟨pc, h, some m⟩ → ∃ a, f.mods = some a ∧ a.allows m = true) := by
  unfold Form.accepts
  cases w.pfx with
  | none => simp
  | some p =>
    obtain ⟨pc, h, m⟩ := p
    cases h <;> cases m <;> cases f.mods <;> simp

/-- The words that accept a HINT.IMM. -/
def takesImm : Instr → Bool
  | .addi _ _ _ _ | .andi _ _ _ _ | .ori _ _ _ _ | .xori _ _ _ _ | .slti _ _ _ _ | .sltiu _ _ _ _ | .sld _ _ _ _
  | .sst _ _ _ _ | .jmpr _ _ _ | .callr _ _ _ => true
  | _ => false

theorem form_imm {i : Instr} {f : Form} (hf : issueForm i = some f) : f.imm = takesImm i := by
  cases i <;> cases hf <;> rfl

/-- The fields of a HINT.MOD that a word accepts. -/
def takenMods : Instr → Option ModAcc
  | .vaddI32 _ _ _ _ | .vsubI32 _ _ _ _ | .vmulI32 _ _ _ _ | .vaddInt8x4 _ _ _ _ | .vsubInt8x4 _ _ _ _
  | .vaddUint8x4 _ _ _ _ | .vsubUint8x4 _ _ _ _ => some { sat := true }
  | .vaddF32 _ _ _ _ | .vsubF32 _ _ _ _ | .vmulF32 _ _ _ _ | .vaddBf16x2 _ _ _ _ | .vmulBf16x2 _ _ _ _
  | .vaddFp16x2 _ _ _ _ | .vmulFp16x2 _ _ _ _ | .vcvt _ _ _ _ _ | .vcvtpk _ _ _ _ _ | .vcvtxp _ _ _ _ _ | .vrcp _ _ _
  | .vrsq _ _ _ | .vsqrt _ _ _ | .vexp2 _ _ _ | .vlog2 _ _ _ | .vsinpi _ _ _ | .vcospi _ _ _ =>
    some { rm := true, sat := true, ftz := true }
  | .vfmaF32 _ _ _ _ | .vfmaBf16x2 _ _ _ _ | .vfmaFp16x2 _ _ _ _ => some { rm := true, sat := true, ftz := true, c := true }
  | .vminF32 _ _ _ _ | .vmaxF32 _ _ _ _ | .vabsF32 _ _ _ | .vnegF32 _ _ _ => some { ftz := true }
  | .vaddE4m3x4 _ _ _ _ | .vmulE4m3x4 _ _ _ _ => some { rm := true, sat := true, f8 := true }
  | .vdot2Bf16 _ _ _ _ | .vdot2Fp16 _ _ _ _ => some { c := true }
  | .vdot4E4m3 _ _ _ _ => some { f8 := true, c := true }
  | .vdot4Int8 _ _ _ _ => some { sat := true, c := true }
  | .vqblk _ _ _ _ => some { rm := true }
  | _ => none

theorem form_mods {i : Instr} {f : Form} (hf : issueForm i = some f) : f.mods = takenMods i := by
  cases i <;> cases hf <;> rfl

/-! ### Numbers of registers that exist (06 R158 to R160) -/

theorem wf_srd (sw : BitVec 1) (x : BitVec 6) (n : BitVec 12) : (Instr.srd sw x n).wf = true ↔
    n.toNat ≤ 8 ∨ (0x10 ≤ n.toNat ∧ n.toNat ≤ 0x12) ∨ (0x20 ≤ n.toNat ∧ n.toNat ≤ 0x22) ∨
      (0x30 ≤ n.toNat ∧ n.toNat ≤ 0x32) ∨ (0x40 ≤ n.toNat ∧ n.toNat ≤ 0x42) := by
  simp [Instr.wf, srReadable, BitVec.le_def, or_assoc]

theorem wf_swr (sw : BitVec 1) (x : BitVec 6) (n : BitVec 12) :
    (Instr.swr sw x n).wf = true ↔ n = 0x021#12 ∨ n = 0x022#12 ∨ n = 0x031#12 := by
  simp [Instr.wf, srWritable, or_assoc]

theorem hasFeature_eq {s : State} {w : Wave} {c : Ctx} (hc : s.ctxs[w.ctx]? = some c) (k : Nat) :
    s.hasFeature w k = c.features.testBit k := by
  simp [State.hasFeature, hc]

/-- Settles O39: what a word does by the first of its checks that fails, and which check that is. -/
theorem checksComeFirst : Obligations.ChecksComeFirst := by
  unfold Obligations.ChecksComeFirst
  intro s w i t va queue
  refine ⟨exec_turnedAway, exec_meetsBadRegister, fun a hq full ready => exec_fullQueue hq full ready, fun f hf hw => ?_,
    fun n => ⟨decide_eq_true_iff, decide_eq_true_iff, decide_eq_true_iff, decide_eq_true_iff⟩,
    fun sw x n => ⟨wf_srd sw x n, wf_swr sw x n⟩, fun c k hc => hasFeature_eq hc k⟩
  refine ⟨fun unknown => turnedAway_of_refuses hf hw (refuses_unknown unknown),
    fun known priv => turnedAway_of_refuses hf hw (refuses_unprivileged known priv),
    fun l r m known priv strict split out before =>
      turnedAway_of_refuses hf hw (refuses_uncovered known priv strict split out before),
    fun known priv covered whole => ready_of_passes hf hw (refuses_passes known priv covered) (badSource_none whole s.cur),
    ?_, form_imm hf, form_mods hf⟩
  simp only [accepts_iff, allows_iff]

/-! ### Steps (06 R170; 12 R299; log 1) -/

section
variable {s s1 : State} {k : Nat} {w : Wave} {v : Word} {i : Instr}

theorem waveTurn_runs (hw : s.waves[k]? = some w) (may : s.mayIssue w = true) (fetched : s.fetch w = .word v s1)
    (hv : v ≠ 0#32) (hi : decode v = some i) : s.waveTurn k = s1.ifIssued k v (exec i (s1.atWord k w)) := by
  simp [State.waveTurn, hw, may, State.issueTurn, fetched, State.runWord, hv, hi]

theorem ifIssued_issued {r : State} (h : ∀ x a, r.waves[k]? = some x → x.st ≠ .wait (.entry a)) :
    s1.ifIssued k v (.next r) = .next r := by
  unfold State.ifIssued
  dsimp only
  split
  · rename_i a waits
    obtain ⟨x, hx, hst⟩ := Option.map_eq_some_iff.mp waits
    exact absurd hst (h x a hx)
  · rfl

theorem ifIssued_waits {r : State} {x : Wave} {a : Option Nat} (hx : r.waves[k]? = some x) (hst : x.st = .wait (.entry a)) :
    s1.ifIssued k v (.next r) =
      .next (s1.modWave k (fun y => { y with fetched := some (y.pc, v), st := .wait (.entry a) })) := by
  simp [State.ifIssued, hx, hst]

theorem step_wave {rest : List Turn} (h : s.agenda = .wave k :: rest) :
    let t := State.settleChanges (State.oneClock { s with agenda := rest })
    step s = settleAfter t ((t.waves[k]?).map (·.ctx)) (t.waveTurn k) := by
  simp only [step, h, State.runTurn]

theorem step_event {rest : List Turn} (h : s.agenda = .event i :: rest) (hi : isRegionEvent i = false) :
    let t := State.settleChanges (State.oneClock { s with agenda := rest })
    step s = settleAfter t (t.eventCtx i) (exec i t) := by
  simp [step, h, State.runTurn, hi]

theorem step_regionEvent {rest : List Turn} (h : s.agenda = .event i :: rest) (hi : isRegionEvent i = true) :
    let t := State.oneClock { s with agenda := rest }
    step s = settleAfter t (t.eventCtx i) (exec i t) := by
  simp [step, h, State.runTurn, hi]

theorem step_own (h : s.agenda = []) : step s = (State.settleChanges (State.oneClock s)).ownTurn := by
  simp only [step, h]

theorem ownTurn_stalls (nothing : firstChange s s.attempts = none)
    (stalled : s.issuable.find? (fun y => s.stalls y.1 y.2) = some (k, w)) :
    s.ownTurn = settleAfter s (some w.ctx) (s.waveTurn k) := by
  simp only [State.ownTurn, nothing, stalled]

theorem ownTurn_chooses {s2 : State} (nothing : firstChange s s.attempts = none)
    (room : s.issuable.find? (fun y => s.stalls y.1 y.2) = none) (chosen : s.chooseWave = some (k, s2)) :
    s.ownTurn = settleAfter s ((s.waves[k]?).map (·.ctx)) (s2.waveTurn k) := by
  simp only [State.ownTurn, nothing, room, chosen]

end

/-- Settles O37, by the kinds of turns: at the head of the agenda, and the device's own. -/
theorem stepRunsDecoded : Obligations.StepRunsDecoded := by
  unfold Obligations.StepRunsDecoded
  intro s k rest w v s1 s2 i t u
  refine ⟨fun head hw may fetched hv hi => ?_, fun r issued => ifIssued_issued issued,
    fun r x a hx hst => ifIssued_waits hx hst, step_event, step_regionEvent, fun own nothing stalled => ?_,
    fun own nothing room chosen hu hw may fetched hv hi => ?_⟩
  · rw [step_wave head, hw, waveTurn_runs hw may fetched hv hi]
    rfl
  · rw [step_own own, ownTurn_stalls nothing stalled]
  · rw [step_own own, ownTurn_chooses nothing room chosen, hu, waveTurn_runs hw may fetched hv hi]
    rfl

end Sys2Proof.InstructionWords

/-! PROOFS of 07_scalar_control: scalar arithmetic (O1, O2), branches and jumps (O5, O6), group registers and scheduling (O7, O9),
the modes (O40), TRAP and TRET (O42), the frame of the scalar forms (O45), the fetch of a word (O38), END (O44), and words of the
spec's listings (O35). -/

namespace Sys2Proof.ScalarControl

open Sys2Proof Sys2Proof.Machine Sys2Proof.Laws Sys2Proof.InstructionWords

/-! ### Words of the spec's listings (07 R191; 08 R222, R225; 09 R248) -/

/-- Settles O35: each word is the word of its instruction, and so decodes to it; the last one is none by its fields. -/
theorem wordsDecode : Obligations.WordsDecode := by
  unfold Obligations.WordsDecode
  refine ⟨?_, ?_, ?_, ?_, ?_, ?_, ?_, ?_, ?_, ?_, ?_, ?_, ?_, ?_, ?_, ?_, ?_, by decide⟩
  all_goals exact decode_encode _ _ rfl

/-! ### Words that are no instruction (06 R172) -/

theorem decode60_none {w : Word}
    (h : 0x18 ≤ (fieldOf w 18 6).toNat ∨ (0x15 ≤ (fieldOf w 18 6).toNat ∧ fieldOf w 0 6 ≠ 0#6)) : decode60 w = none := by
  simp only [decode60, ne_eq, BitVec.toNat_eq, BitVec.toNat_ofNat, Nat.reducePow, Nat.reduceMod] at h ⊢
  repeat rw [if_neg (by omega)]

theorem decode6E_none {w : Word}
    (h : 5 ≤ (fieldOf w 18 3).toNat ∨ ((fieldOf w 18 3 = 0#3 ∨ fieldOf w 18 3 = 4#3) ∧ fieldOf w 21 3 ≠ 0#3)) :
    decode6E w = none := by
  simp only [decode6E, ne_eq, BitVec.toNat_eq, BitVec.toNat_ofNat, Nat.reducePow, Nat.reduceMod] at h ⊢
  repeat rw [if_neg (by omega)]

theorem decode6F_none {w : Word} (code : fieldOf w 18 6 = 2#6) (h : fieldOf w 12 6 ≠ 0#6 ∨ fieldOf w 0 12 ≠ 0#12) :
    decode6F w = none := by
  have low : fieldOf w 0 18 ≠ 0#18 := by
    simp only [ne_eq, fieldOf_eq_iff, BitVec.toNat_ofNat, Nat.reducePow, Nat.reduceMod] at h ⊢
    omega
  simp [decode6F, code, low]

/-- The unassigned sub-codes of primary 0x60, and POPC, CLZ and CTZ with a second source (07 R183). -/
theorem decode_scalar_none (sw : BitVec 1) (d a b sub : BitVec 6)
    (h : 0x18 ≤ sub.toNat ∨ (0x15 ≤ sub.toNat ∧ b ≠ 0#6)) : decode (sw ++ 0x60#7 ++ sub ++ d ++ a ++ b) = none := by
  have primary : fieldOf (sw ++ 0x60#7 ++ sub ++ d ++ a ++ b) 24 7 = 0x60#7 := by
    simp (disch := decide) only [fieldOf, fieldHi, fieldLo, Nat.reduceSub, fieldAll]
  have code : fieldOf (sw ++ 0x60#7 ++ sub ++ d ++ a ++ b) 18 6 = sub := by
    simp (disch := decide) only [fieldOf, fieldHi, fieldLo, Nat.reduceSub, fieldAll]
  have low : fieldOf (sw ++ 0x60#7 ++ sub ++ d ++ a ++ b) 0 6 = b := by
    simp (disch := decide) only [fieldOf, fieldLo, fieldAll]
  rw [decode, decodeCompound, primary]
  exact decode60_none (by rwa [code, low])

/-- The unassigned conditions of primary 0x6E, and BRA and CALL with a mask (07 R188, R189). -/
theorem decode_branch_none (sw : BitVec 1) (cond k : BitVec 3) (o : BitVec 18)
    (h : 5 ≤ cond.toNat ∨ ((cond = 0#3 ∨ cond = 4#3) ∧ k ≠ 0#3)) : decode (sw ++ 0x6E#7 ++ k ++ cond ++ o) = none := by
  have primary : fieldOf (sw ++ 0x6E#7 ++ k ++ cond ++ o) 24 7 = 0x6E#7 := by
    simp (disch := decide) only [fieldOf, fieldHi, fieldLo, Nat.reduceSub, fieldAll]
  have code : fieldOf (sw ++ 0x6E#7 ++ k ++ cond ++ o) 18 3 = cond := by
    simp (disch := decide) only [fieldOf, fieldHi, fieldLo, Nat.reduceSub, fieldAll]
  have mask : fieldOf (sw ++ 0x6E#7 ++ k ++ cond ++ o) 21 3 = k := by
    simp (disch := decide) only [fieldOf, fieldHi, fieldLo, Nat.reduceSub, fieldAll]
  rw [decode, decodeCompound, primary]
  exact decode6E_none (by rwa [code, mask])

/-- RET with a register or an immediate (07 R190). -/
theorem decode_ret_none (sw : BitVec 1) {x : BitVec 6} {i : BitVec 12} (h : x ≠ 0#6 ∨ i ≠ 0#12) :
    decode (sw ++ 0x6F#7 ++ 2#6 ++ x ++ i) = none := by
  have primary : fieldOf (sw ++ 0x6F#7 ++ 2#6 ++ x ++ i) 24 7 = 0x6F#7 := by
    simp (disch := decide) only [fieldOf, fieldHi, fieldLo, Nat.reduceSub, fieldAll]
  have code : fieldOf (sw ++ 0x6F#7 ++ 2#6 ++ x ++ i) 18 6 = 2#6 := by
    simp (disch := decide) only [fieldOf, fieldHi, fieldLo, Nat.reduceSub, fieldAll]
  have register : fieldOf (sw ++ 0x6F#7 ++ 2#6 ++ x ++ i) 12 6 = x := by
    simp (disch := decide) only [fieldOf, fieldHi, fieldLo, Nat.reduceSub, fieldAll]
  have low : fieldOf (sw ++ 0x6F#7 ++ 2#6 ++ x ++ i) 0 12 = i := by
    simp (disch := decide) only [fieldOf, fieldLo, fieldAll]
  rw [decode, decodeCompound, primary]
  exact decode6F_none code (by rwa [register, low])

/-! ### Scalar arithmetic (07 R183, R184) -/

section
variable {s : State} {w : Wave} {i : Instr} {sw : BitVec 1} {d a b : BitVec 6} {v : DWord}

theorem gives_setRR {f : DWord → DWord → DWord} (hf : issueForm i = some (formRR sw d a b))
    (he : exec i s = s.onWave i (formRR sw d a b) (setRR d a b f)) (hv : f (w.s a.toNat) (w.s b.toNat) = v) :
    s.Gives w i (s.became sw (w.setS d.toNat v)) :=
  givesWave hf he rfl (congrArg (w.setS d.toNat) hv)

theorem gives_setR {f : DWord → DWord} (hf : issueForm i = some (formR sw d a))
    (he : exec i s = s.onWave i (formR sw d a) (setR d a f)) (hv : f (w.s a.toNat) = v) :
    s.Gives w i (s.became sw (w.setS d.toNat v)) :=
  givesWave hf he rfl (congrArg (w.setS d.toNat) hv)

theorem gives_setRI {n : BitVec 12} {f : DWord → DWord → DWord} (hf : issueForm i = some (formRI sw d a))
    (he : exec i s = s.onWave i (formRI sw d a) (setRI d a n f)) (hv : f (w.s a.toNat) (w.immValue n) = v) :
    s.Gives w i (s.became sw (w.setS d.toNat v)) :=
  givesWave hf he rfl (congrArg (w.setS d.toNat) hv)

end

section
variable (x y p q : DWord)

theorem bit64_slt : bit64 (x.slt y) = if x.toInt < y.toInt then 1#64 else 0#64 := by
  simp only [bit64, slt_toInt, decide_eq_true_eq]

theorem bit64_ult : bit64 (x.ult y) = if x.toNat < y.toNat then 1#64 else 0#64 := by
  simp only [bit64, ult_toNat, decide_eq_true_eq]

theorem ite_slt : (if x.slt y then p else q) = if x.toInt < y.toInt then p else q := by
  simp only [slt_toInt, decide_eq_true_eq]

theorem ite_ult : (if x.ult y then p else q) = if x.toNat < y.toNat then p else q := by
  simp only [ult_toNat, decide_eq_true_eq]

end

/-- Settles O1, form by form: each sets its destination to the value of a function of its sources, which the statement gives in
whole numbers or bit by bit. -/
theorem scalarRegisterResults : Obligations.ScalarRegisterResults := by
  unfold Obligations.ScalarRegisterResults
  intro s w sw d a b x y r
  obtain ⟨clzLe, clzZeros, clzOne⟩ := leadZeros_spec x 64
  obtain ⟨-, ctzLe, ctzZeros, ctzOne⟩ := lowestOne_spec x 64 0
  exact ⟨gives_setRR rfl rfl rfl, gives_setRR rfl rfl rfl, gives_setRR rfl rfl rfl, gives_setRR rfl rfl (mulHigh_eq x y),
    gives_setRR rfl rfl (mulHighU_eq x y), gives_setRR rfl rfl rfl, gives_setRR rfl rfl rfl, gives_setRR rfl rfl rfl,
    gives_setRR rfl rfl rfl, gives_setRR rfl rfl rfl, gives_setRR rfl rfl rfl, gives_setRR rfl rfl rfl, gives_setR rfl rfl rfl,
    gives_setR rfl rfl rfl, gives_setR rfl rfl rfl, gives_setRR rfl rfl (bit64_slt x y), gives_setRR rfl rfl (bit64_ult x y),
    gives_setRR rfl rfl (ite_slt y x y x), gives_setRR rfl rfl (ite_slt x y y x), gives_setRR rfl rfl (ite_ult y x y x),
    gives_setRR rfl rfl (ite_ult x y y x), gives_setR rfl rfl (congrArg (BitVec.ofNat 64) (popBits_countP x 64)),
    ⟨leadZeros x 64, clzLe, clzZeros, clzOne, gives_setR rfl rfl rfl⟩,
    ⟨lowestOne x 0 64, by omega, fun k => ctzZeros k (Nat.zero_le k), fun h => ctzOne (by omega), gives_setR rfl rfl rfl⟩,
    decode_scalar_none sw d a b⟩

/-! ### Which words pass the checks before their own (06 R158, R163, R165, R170; 07 R184, R199) -/

section
variable {s : State} {w : Wave} {i : Instr} {f : Form}

/-- Every number of a scalar register fits (06 R158). -/
@[simp] theorem inBudget_scalar (w : Wave) (a : BitVec 6) : (RegRef.s a.toNat).inBudget w = true := decide_eq_true a.isLt

/-- A group of words with no HINT.MOD, and with no HINT.IMM unless the form takes one, is accepted (06 R165). -/
theorem accepts_of_no_mod (himm : ∀ pc h m, w.pfx = some ⟨pc, some h, m⟩ → f.imm = true)
    (hmod : ∀ pc h m, w.pfx ≠ some ⟨pc, h, some m⟩) : f.accepts w = true :=
  (accepts_iff f w).mpr ⟨himm, fun pc h m hp => absurd hp (hmod pc h m)⟩

theorem accepts_alone (f : Form) (hp : w.pfx = none) : f.accepts w = true := by
  simp only [Form.accepts, hp]

/-- A form that takes no HINT.MOD does not accept one. -/
theorem not_accepts_mod (hm : f.mods = none) {pc : DWord} {h : Option (BitVec 20)} {m : BitVec 20}
    (hp : w.pfx = some ⟨pc, h, some m⟩) : ¬ f.accepts w = true := by
  intro acc
  obtain ⟨a, ha, -⟩ := ((accepts_iff f w).mp acc).2 pc h m hp
  rw [hm] at ha
  cases ha

/-- Outside strict mode, and with no uncorrectable error in a register, a word that is known and allowed is ready. -/
theorem ready_of_known (hf : issueForm i = some f) (hw : s.waves[s.cur]? = some w) (known : Known s w i f)
    (priv : f.priv = true → s.privileged w = true) (lax : s.strict w = false) (whole : s.badSource s.cur w f = none) :
    s.Ready w i :=
  ready_of_passes hf hw (refuses_passes known priv fun strict => absurd (lax.symm.trans strict) Bool.false_ne_true) whole

end

/-! ### Scalar immediate forms (07 R184) -/

section
variable {s : State} {w : Wave} {i : Instr} {sw : BitVec 1} {x a : BitVec 6}

theorem known_immediate (hf : i.wf = true) (hp : w.pfx = none ∨ ∃ pc h, w.pfx = some ⟨pc, some h, none⟩) :
    Known s w i (formRI sw x a) := by
  refine ⟨hf, accepts_of_no_mod (fun _ _ _ _ => rfl) ?_, by simp [formRI, Form.sources], nofun⟩
  rintro pc h m hm
  obtain none | ⟨_, _, some⟩ := hp
  · cases none.symm.trans hm
  · cases some.symm.trans hm

/-- A scalar immediate form accepts a HINT.IMM and no HINT.MOD. -/
theorem immediate_hints (hf : issueForm i = some (formRI sw x a)) (wf : i.wf = true) (hw : s.waves[s.cur]? = some w) :
    ((w.pfx = none ∨ ∃ pc h, w.pfx = some ⟨pc, some h, none⟩) → s.strict w = false → s.bad = [] → s.Ready w i) ∧
    (∀ pc h m, w.pfx = some ⟨pc, h, some m⟩ → s.TurnedAway w i (trapAt causeIllegal (wordAddr i))) := by
  refine ⟨fun hp lax whole => ready_of_known hf hw (known_immediate wf hp) nofun lax (badSource_none whole _),
    fun pc h m hp => turnedAway_of_refuses hf hw (refuses_unknown ?_)⟩
  rintro ⟨-, accepts, -⟩
  exact not_accepts_mod rfl hp accepts

end

/-- Settles O2, form by form: each sets its destination to the value of a function of its source and the immediate; all six have
one form, whose hint words `immediate_hints` gives. -/
theorem scalarImmediateResults : Obligations.ScalarImmediateResults := by
  unfold Obligations.ScalarImmediateResults
  intro s w sw x a i p q r
  refine ⟨gives_setRI rfl rfl rfl, gives_setRI rfl rfl rfl, gives_setRI rfl rfl rfl, gives_setRI rfl rfl rfl,
    gives_setRI rfl rfl (bit64_slt p q), gives_setRI rfl rfl (bit64_ult p q), fun j hj hw => ?_⟩
  simp only [List.mem_cons, List.not_mem_nil, or_false] at hj
  rcases hj with rfl | rfl | rfl | rfl | rfl | rfl
  all_goals exact immediate_hints rfl rfl hw

/-! ### The meanings of the words -/

section
variable (sw : BitVec 1) (d a : BitVec 6) (n : BitVec 8) (k : BitVec 12) (o : BitVec 18) (h : BitVec 4) (m : BitVec 2) (s : State)

theorem exec_call : exec (.call sw o) s = execCall sw o s := rfl
theorem exec_grd : exec (.grd sw d n) s = execGrd sw d n s := rfl
theorem exec_gwr : exec (.gwr sw a n) s = execGwr sw a n s := rfl
theorem exec_gadd : exec (.gadd sw d a n) s = execGadd sw d a n s := rfl
theorem exec_yield : exec (.yield sw) s = execYield sw s := rfl
theorem exec_fenceI : exec (.fenceI sw) s = execFenceI sw s := rfl
theorem exec_hintSched : exec (.hintSched sw h) s = execHintSched sw h s := rfl
theorem exec_ipref : exec (.ipref sw m o) s = execIpref sw m o s := rfl
theorem exec_trap : exec (.trap sw k) s = execTrap sw k s := rfl
theorem exec_tret : exec (.tret sw) s = execTret sw s := rfl
theorem exec_endWave : exec (.endWave sw) s = execEndWave sw s := rfl

end

/-! ### Words by their own effect -/

section
variable {s : State} {w : Wave} {i : Instr} {f : Form} {body : Nat → Wave → Except TrapInfo State} {sw : BitVec 1}

/-- A ready word whose own checks pass, with the machine that results named. -/
theorem gives_effect {t u : State} (hf : issueForm i = some f) (he : exec i s = s.issue i f body) (hs : f.sw = sw)
    (hb : body s.cur w = .ok t) (hu : s.waves[s.cur]? = some w → s.afterWord sw t = u) : s.Gives w i u := by
  intro ready
  rw [gives_issue hf he (fun _ => hb) ready, hs, hu ready.1]

/-- A ready word one of whose own checks fails with a cause that no translation raises. -/
theorem gives_trapAt {c : BitVec 6} {a : DWord} (hf : issueForm i = some f) (he : exec i s = s.issue i f body)
    (hb : body s.cur w = .error (trapAt c a)) (hc : c ∉ [causeXlateRd, causeXlateWr, causeXlateFetch, causeProt]) :
    s.Gives w i (s.takeTrap s.cur (trapAt c a) false) := by
  have traps := gives_error (w := w) hf he fun _ => hb
  rwa [failedLooks_other s s.cur _ hc] at traps

variable (hw : s.waves[s.cur]? = some w) (h : Wave → Wave)
include hw

theorem afterWord_modWave : s.afterWord sw (s.modWave s.cur h) = s.modWave s.cur (fun _ => (h w).issued sw) := by
  rw [State.afterWord, modWave_modWave]
  exact modWave_congr s s.cur w _ _ hw rfl

theorem afterWord_modWave_advance : s.afterWord sw (s.modWave s.cur (fun x => (h x).advance)) = s.became sw (h w) :=
  afterWord_modWave hw _

theorem afterWord_modGroup (g : Nat) (f : Group → Group) :
    s.afterWord sw ((s.modGroup g f).modWave s.cur (fun x => (h x).advance)) = (s.became sw (h w)).modGroup g f := by
  rw [← afterWord_modWave_advance hw]
  rfl

theorem afterWord_modCore (c : Nat) (f : Core → Core) :
    s.afterWord sw ((s.modCore c f).modWave s.cur (fun x => (h x).advance)) = (s.became sw (h w)).modCore c f := by
  rw [← afterWord_modWave_advance hw]
  rfl

end

/-! ### Branches and jumps (07 R187 to R190) -/

section
variable {s : State} {w : Wave} {i : Instr} {f : Form} {sw : BitVec 1} {o : BitVec 18}

/-- OFF18 counts words. -/
theorem target_eq (w : Wave) (o : BitVec 18) : w.target o = w.pc + BitVec.ofInt 64 (4 * o.toInt) := by
  have words : (o.signExtend 64) <<< 2 = BitVec.ofInt 64 (4 * o.toInt) := by
    rw [BitVec.shiftLeft_eq_mul_twoPow, BitVec.ofInt_mul, BitVec.mul_comm]
    rfl
  rw [Wave.target, words]

theorem gives_branchIf {c : Wave → Bool} {taken : Bool} (hf : issueForm i = some f) (he : exec i s = s.branchIf i f o c)
    (hs : f.sw = sw) (hc : c w = taken) : s.Gives w i (s.afterWord sw (s.modWave s.cur (fun x =>
      if taken then { x with pc := w.pc + BitVec.ofInt 64 (4 * o.toInt) } else x.advance))) :=
  gives_effect hf he hs rfl fun hw => congrArg (s.afterWord sw)
    (modWave_congr s s.cur w _ _ hw (by rw [Wave.branch, hc, target_eq]))

theorem gives_call (s : State) (w : Wave) (sw : BitVec 1) (o : BitVec 18) :
    s.Gives w (.call sw o) (s.afterWord sw (s.modWave s.cur (fun _ =>
      { w.setS 63 (w.pc + 4#64) with pc := w.pc + BitVec.ofInt 64 (4 * o.toInt) }))) :=
  gives_effect rfl (exec_call ..) rfl rfl fun hw => congrArg (s.afterWord sw) (modWave_congr s s.cur w _ _ hw (by rw [target_eq]))

/-- A target is a multiple of 4 when its bits [1:0] are 0. -/
theorem low_bits_eq_zero_iff (t : DWord) : t.extractLsb' 0 2 = 0#2 ↔ t.toNat % 4 = 0 := by
  rw [BitVec.toNat_eq, BitVec.extractLsb'_toNat, Nat.shiftRight_zero]
  rfl

variable {link : Bool} {target : Wave → DWord} {y : Wave} {t : DWord}

/-- A jump to an aligned target, which it computes before it writes the link. -/
theorem gives_jump (hf : issueForm i = some f) (he : exec i s = s.jump i f link target) (hs : f.sw = sw) (ht : target w = t)
    (hy : (if link then w.setS 63 (w.pc + 4#64) else w) = y) (aligned : t.toNat % 4 = 0) :
    s.Gives w i (s.afterWord sw (s.modWave s.cur (fun _ => { y with pc := t }))) := by
  subst ht hy
  have ok : (target w).extractLsb' 0 2 = 0#2 := (low_bits_eq_zero_iff _).mpr aligned
  exact gives_effect hf he hs (if_neg (not_not_intro ok)) fun hw => congrArg (s.afterWord sw) (modWave_congr s s.cur w _ _ hw rfl)

theorem gives_jump_misaligned (hf : issueForm i = some f) (he : exec i s = s.jump i f link target) (ht : target w = t)
    (misaligned : t.toNat % 4 ≠ 0) : s.Gives w i (s.takeTrap s.cur (trapAt causeMisalign t) false) := by
  subst ht
  exact gives_trapAt hf he (if_pos (mt (low_bits_eq_zero_iff _).mp misaligned)) (by decide)

end

/-- Settles O5: a branch goes by its condition on the wave, CALL by its offset; what is no instruction is so by its fields. -/
theorem branchResults : Obligations.BranchResults := by
  unfold Obligations.BranchResults
  intro s w sw a k o target t r
  exact ⟨gives_branchIf rfl rfl rfl rfl, gives_branchIf rfl rfl rfl rfl, gives_branchIf rfl rfl rfl rfl,
    gives_branchIf rfl rfl rfl rfl, gives_branchIf rfl rfl rfl rfl, gives_branchIf rfl rfl rfl rfl, gives_call s w sw o,
    fun cond => decode_branch_none sw cond k o⟩

/-- Settles O6: all three are jumps, which their target takes or traps. -/
theorem jumpResults : Obligations.JumpResults := by
  unfold Obligations.JumpResults
  intro s w sw x i target go
  exact ⟨gives_jump rfl rfl rfl rfl rfl, gives_jump rfl rfl rfl rfl rfl, gives_jump rfl rfl rfl rfl rfl,
    gives_jump_misaligned rfl rfl rfl, gives_jump_misaligned rfl rfl rfl, gives_jump_misaligned rfl rfl rfl, decode_ret_none sw⟩

/-! ### Group registers and scheduling (07 R185, R186, R193, R198) -/

theorem greg_eq {s : State} {w : Wave} {g : Group} (hg : s.groups[w.group]? = some g) (n : Nat) :
    s.greg w n = g.gregs.getD n 0#64 := by
  simp only [State.greg, hg, Group.greg]

/-- Settles O7: each is one update of the wave, GWR and GADD with one of its group beside it. -/
theorem groupRegisterResults : Obligations.GroupRegisterResults := by
  unfold Obligations.GroupRegisterResults
  intro s w g sw d a n hg old
  have read : s.greg w n.toNat = old := greg_eq hg n.toNat
  rw [← read]
  let loaded (x : Wave) : Wave := x.addOut (.s d.toNat (s.greg w n.toNat))
  exact ⟨CopyEngine.gives_became (g := loaded) rfl (exec_grd ..) rfl,
    gives_effect rfl (exec_gwr ..) rfl rfl fun hw => afterWord_modGroup hw id _ _,
    gives_effect rfl (exec_gadd ..) rfl rfl fun hw => afterWord_modGroup hw loaded _ _⟩

/-- The wave made the youngest of its core has the next age of the core. -/
theorem makeYoungest_eq {s : State} {w : Wave} {c : Core} (hc : s.cores[w.core]? = some c) (wid : Nat) :
    s.makeYoungest wid w =
      (s.modCore w.core (fun k => { k with ageSeq := k.ageSeq + 1 })).modWave wid (fun x => { x with age := c.ageSeq }) := by
  simp only [State.makeYoungest, hc]

/-- Settles O9: each is one update of the wave, YIELD and FENCE.I with one of its core beside it. -/
theorem schedulingResults : Obligations.SchedulingResults := by
  unfold Obligations.SchedulingResults
  intro s w c sw n m o hc
  refine ⟨gives_effect rfl (exec_yield ..) rfl rfl fun hw => ?_,
    gives_effect rfl (exec_fenceI ..) rfl rfl fun hw => afterWord_modCore hw id _ _,
    gives_effect rfl (exec_hintSched ..) rfl rfl fun hw => afterWord_modWave hw _,
    gives_effect rfl (exec_ipref ..) rfl rfl fun _ => rfl⟩
  rw [makeYoungest_eq hc, State.advance, modWave_modWave]
  exact afterWord_modCore hw (fun x => { x with age := c.ageSeq }) _ _

/-! ### Privileged and strict mode (07 R199; 14 R341) -/

/-- A scalar register that a field of a word names (06 R158). -/
def ScalarField (r : RegRef) : Prop := ∃ a : BitVec 6, r = .s a.toNat

@[simp] theorem scalarField_s (a : BitVec 6) : ScalarField (.s a.toNat) := ⟨a, rfl⟩

theorem ScalarField.inBudget {r : RegRef} (h : ScalarField r) (w : Wave) : r.inBudget w = true := by
  obtain ⟨a, rfl⟩ := h
  exact inBudget_scalar w a

section
variable {s : State} {w : Wave} {i : Instr} {f : Form}

/-- A word reads no register with an uncorrectable error when it reads scalar registers alone. -/
theorem badSource_scalars {sw : BitVec 1} {src dst : List RegRef} (hs : ∀ r ∈ src, ScalarField r) (k : Nat) :
    s.badSource k w (formP sw src dst) = none := by
  have lines : src.flatMap RegRef.lines = [] := by
    rw [List.flatMap_eq_nil_iff]
    intro r hr
    obtain ⟨a, rfl⟩ := hs r hr
    rfl
  simp [State.badSource, Form.sources, formP, lines]

/-- A privileged form of scalar registers, with no prefix before it: its mode decides. -/
theorem privileged_word {sw : BitVec 1} {src dst : List RegRef} (hf : issueForm i = some (formP sw src dst)) (wf : i.wf = true)
    (scalars : ∀ r ∈ src ++ dst, ScalarField r) (hw : s.waves[s.cur]? = some w) (hp : w.pfx = none) :
    (s.privileged w = false → exec i s = .next (s.takeTrap s.cur (trapAt causePriv (wordAddr i)) false)) ∧
    (s.privileged w = true → s.strict w = false → s.Ready w i) := by
  have known : Known s w i (formP sw src dst) :=
    ⟨wf, accepts_alone _ hp, fun r hr => (scalars r hr).inBudget w, nofun⟩
  refine ⟨fun lacks => exec_turnedAway (turnedAway_of_refuses hf hw (refuses_unprivileged known fun needs => ?_)), fun has lax =>
    ready_of_known hf hw known (fun _ => has) lax (badSource_scalars (fun r hr => scalars r (List.mem_append_left dst hr)) _)⟩
  exact Bool.false_ne_true (lacks.symm.trans (needs rfl))

/-- In strict mode a known word with no privilege traps MARKER at the first outstanding register that it names. -/
theorem marker_trap {l m : List RegRef} {r : RegRef} (hf : issueForm i = some f) (hw : s.waves[s.cur]? = some w)
    (known : Known s w i f) (plain : f.priv = false) (strict : s.strict w = true) (named : f.sources w ++ f.dst = l ++ r :: m)
    (out : w.outstanding r = true) (before : ∀ x ∈ l, w.outstanding x = false) :
    exec i s = .next (s.takeTrap s.cur (trapAt causeMarker r.markerAddr) false) :=
  exec_turnedAway (turnedAway_of_refuses hf hw (refuses_uncovered known
    (fun needs => absurd (plain.symm.trans needs) Bool.false_ne_true) strict named out before))

/-- The same for a word that names two sources and a destination. -/
theorem marker_traps {p q r : RegRef} (hf : issueForm i = some f) (hw : s.waves[s.cur]? = some w)
    (known : Known s w i f) (plain : f.priv = false) (strict : s.strict w = true) (named : f.sources w ++ f.dst = [p, q, r]) :
    (w.outstanding p = true → exec i s = .next (s.takeTrap s.cur (trapAt causeMarker p.markerAddr) false)) ∧
    (w.outstanding p = false → w.outstanding q = true →
      exec i s = .next (s.takeTrap s.cur (trapAt causeMarker q.markerAddr) false)) ∧
    (w.outstanding p = false → w.outstanding q = false → w.outstanding r = true →
      exec i s = .next (s.takeTrap s.cur (trapAt causeMarker r.markerAddr) false)) :=
  ⟨fun out => marker_trap (l := []) hf hw known plain strict named out (by simp),
    fun free out => marker_trap (l := [p]) hf hw known plain strict named out (by simp [free]),
    fun free free' out => marker_trap (l := [p, q]) hf hw known plain strict named out (by simp [free, free'])⟩

end

/-- Settles O40: the mode decides of every privileged form of scalar registers, and in strict mode the first of the three
registers that is outstanding. -/
theorem modeRules : Obligations.ModeRules := by
  unfold Obligations.ModeRules
  intro s w sw x d c a b n vd va vb hw hp
  refine ⟨fun i hi => ?_, fun strict hd ha hb => ?_⟩
  · simp only [List.mem_cons, List.not_mem_nil, or_false] at hi
    rcases hi with rfl | rfl | rfl | rfl | rfl | rfl | rfl | rfl
    all_goals exact privileged_word rfl rfl (by simp) hw hp
  · have scalar : Known s w (.add sw d a b) (formRR sw d a b) :=
      ⟨rfl, accepts_alone _ hp, by simp [formRR, Form.sources], nofun⟩
    have vector : Known s w (.vaddI32 sw vd va vb) (formVV sw vd va vb accSat) :=
      ⟨rfl, accepts_alone _ hp, by simp [formVV, Form.sources, RegRef.inBudget, hd, ha, hb], nofun⟩
    obtain ⟨onA, onB, onD⟩ := marker_traps rfl hw scalar rfl strict rfl
    exact ⟨onA, onB, onD, marker_traps rfl hw vector rfl strict rfl⟩

/-! ### TRAP and TRET (07 R194, R195; 14 R338) -/

section
variable {w : Wave}

/-- What writing a result leaves alone, writing all of them does. -/
theorem drainOuts_keeps {α : Type} (g : Wave → α) (hg : ∀ (x : Wave) o, g (x.applyOut o allUnits) = g x)
    (hg' : ∀ x : Wave, g { x with outs := [], far := [] } = g x) (w : Wave) : g w.drainOuts = g w := by
  rw [Wave.drainOuts, hg']
  exact List.foldlRecOn (motive := fun x => g x = g w) w.outs _ rfl (fun x hx o _ => (hg x o).trans hx)

theorem applyOut_trapState (w : Wave) (o : Out) (units : Nat) :
    (w.applyOut o units).frame = w.frame ∧ (w.applyOut o units).trapPc = w.trapPc := by
  cases o with
  | s n v => simp [Wave.applyOut]
  | v n lanes data side =>
    simp only [Wave.applyOut, Wave.writeLanes]
    split <;> exact ⟨rfl, rfl⟩
  | h n lines data => exact ⟨rfl, rfl⟩

@[simp] theorem drainOuts_frame (w : Wave) : w.drainOuts.frame = w.frame :=
  drainOuts_keeps (·.frame) (fun x o => (applyOut_trapState x o _).1) (fun _ => rfl) w

@[simp] theorem drainOuts_trapPc (w : Wave) : w.drainOuts.trapPc = w.trapPc :=
  drainOuts_keeps (·.trapPc) (fun x o => (applyOut_trapState x o _).2) (fun _ => rfl) w

/-- With no atomic issued there is none to perform. -/
theorem drainAtoms_none {s : State} {k : Nat} {w : Wave} (hw : s.waves[k]? = some w) (ha : w.atoms = []) : s.drainAtoms k = s := by
  simp [State.drainAtoms, hw, ha, State.drainFirst]

/-- TRET in handler mode. -/
theorem gives_tret {s : State} {w : Wave} (sw : BitVec 1) (h : w.handler = true) : s.Gives w (.tret sw) (s.afterWord sw
      (((s.drainAtoms s.cur).modWave s.cur Wave.drainOuts).modWave s.cur Wave.trapReturn)) :=
  gives_effect rfl (exec_tret ..) rfl (if_pos h) fun _ => rfl

end

/-- Settles O42, from the checks of each word; the results that TRET writes first leave the frame and SR_TRAPPC as they stand. -/
theorem trapWordResults : Obligations.TrapWordResults := by
  unfold Obligations.TrapWordResults
  intro s w sw n
  refine ⟨gives_effect rfl (exec_trap ..) rfl rfl fun _ => ?_, fun h ha ready => ?_, gives_tret sw,
    fun h => gives_trapAt rfl (exec_tret ..) (if_neg (by simp [h])) (by decide)⟩
  · rw [BitVec.ofNat_toNat]
  · rw [gives_tret sw h ready, drainAtoms_none ready.1 ha, modWave_modWave]
    exact congrArg (fun t => Host.Outcome.next (s.afterWord sw t)) (modWave_congr s s.cur w _ _ ready.1 (by simp [Wave.trapReturn]))

/-! ### The frame of a word that acts on its own wave alone (06 R158, R169; 07 R183 to R196; 08 R222) -/

section
variable {w x : Wave} {dst : List RegRef} {ms : List Nat} {tie : Bool}

theorem keptBut_refl (w : Wave) (dst : List RegRef) (ms : List Nat) (tie : Bool) : w.KeptBut w dst ms tie where
  scalar _ _ := rfl
  vector _ _ := rfl
  hyper _ _ := rfl
  bundle _ _ := rfl
  mask _ _ := rfl
  generator _ := rfl
  raised := ⟨0#6, by simp⟩
  special := rfl
  handler := ⟨rfl, rfl⟩
  memory := ⟨rfl, rfl, rfl, rfl⟩
  mirror := rfl
  place := rfl

theorem keptBut_setS {n : Nat} (hn : .s n ∈ dst) (v : DWord) : w.KeptBut (w.setS n v) dst ms tie := by
  have others (k : Nat) (hk : .s k ∉ dst) : (w.setS n v).s k = w.s k := s_setS_other v fun h => hk (h ▸ hn)
  revert others
  unfold Wave.setS
  split <;> intro others
  · exact keptBut_refl w dst ms tie
  · exact { keptBut_refl w dst ms tie with scalar := others }

theorem keptBut_setM {n : Nat} (hn : n ∈ ms) (v : Word) : w.KeptBut (w.setM n v) dst ms tie := by
  have others (k : Nat) (hk : k ∉ ms) : (w.setM n v).m k = w.m k := m_setM_other v fun h => hk (h ▸ hn)
  revert others
  unfold Wave.setM
  split <;> intro others
  · exact keptBut_refl w dst ms tie
  · exact { keptBut_refl w dst ms tie with mask := others }

/-- Where and when the wave goes on is no part of what a word keeps. -/
theorem keptBut_moved (kept : w.KeptBut x dst ms tie) (pc : DWord) (p : Option Pfx) (m r : Bool) (t : Option Nat)
    (f : Option (DWord × Word)) :
    w.KeptBut { x with pc := pc, pfx := p, marked := m, ran := r, delayUntil := t, fetched := f } dst ms tie := { kept with }

end

/-- A word that keeps all but its destinations, and raises no flag. -/
def Framed (s : State) (w : Wave) (i : Instr) : Prop :=
  s.RegisterFrame w i ∧ (s.Ready w i → ∃ t x, exec i s = .next t ∧ t.waves[s.cur]? = some x ∧ x.fpflags = w.fpflags)

section
variable {s : State} {w y : Wave} {i : Instr} {f : Form} {g : Wave → Wave}

/-- A word that leads from its wave `w` to the wave `y` and changes nothing else. -/
theorem framed_of_wave (h : s.Gives w i (s.modWave s.cur (fun _ => y))) (kept : w.KeptBut y (regDst i) (maskDst i) (tieDst i))
    (flags : y.fpflags = w.fpflags) : Framed s w i := by
  have here (ready : s.Ready w i) : (s.modWave s.cur (fun _ => y)).waves[s.cur]? = some y := by
    rw [modWave_get, ready.1]
    rfl
  have only : s.OnlyWave (s.modWave s.cur (fun _ => y)) :=
    ⟨rfl, fun k hk => modWave_get_other s s.cur k _ hk.symm, fun _ => rfl⟩
  exact ⟨fun ready => ⟨_, h ready, only, y, here ready, kept⟩, fun ready => ⟨_, y, h ready, here ready, flags⟩⟩

theorem framed_onWave (hf : issueForm i = some f) (he : exec i s = s.onWave i f g)
    (kept : w.KeptBut (g w) (regDst i) (maskDst i) (tieDst i)) (flags : (g w).fpflags = w.fpflags) : Framed s w i :=
  framed_of_wave (gives_onWave hf he) (keptBut_moved kept ..) flags

theorem regDst_eq (hf : issueForm i = some f) : regDst i = f.dst := by
  simp only [regDst, hf]

/-- A word whose effect is to set its scalar destination. -/
theorem framed_setS {n : Nat} {v : DWord} (hf : issueForm i = some f) (he : exec i s = s.onWave i f g) (hd : f.dst = [.s n])
    (hg : g w = w.setS n v) : Framed s w i := by
  have dst : .s n ∈ regDst i := by rw [regDst_eq hf, hd]; exact List.mem_singleton_self _
  exact framed_onWave hf he (hg ▸ keptBut_setS dst v) (by rw [hg, setS_fpflags])

/-- A word whose effect is to set its mask. -/
theorem framed_setM {n : Nat} {v : Word} (hf : issueForm i = some f) (he : exec i s = s.onWave i f g) (hd : maskDst i = [n])
    (hg : g w = w.setM n v) : Framed s w i := by
  have dst : n ∈ maskDst i := by rw [hd]; exact List.mem_singleton_self _
  exact framed_onWave hf he (hg ▸ keptBut_setM dst v) (by rw [hg, setM_fpflags])

/-- A branch sets the PC alone. -/
theorem framed_branchIf {o : BitVec 18} {c : Wave → Bool} (hf : issueForm i = some f) (he : exec i s = s.branchIf i f o c) :
    Framed s w i := by
  have goes := fun ready : s.Ready w i =>
    (gives_branchIf hf he rfl rfl ready).trans (congrArg Host.Outcome.next (afterWord_modWave ready.1 _))
  refine framed_of_wave goes ?_ ?_ <;> cases c w
  · exact keptBut_moved (keptBut_refl w ..) ..
  · exact keptBut_moved (keptBut_refl w ..) ..
  · rfl
  · rfl

theorem framed_call (s : State) (w : Wave) (sw : BitVec 1) (o : BitVec 18) : Framed s w (.call sw o) :=
  framed_of_wave
    (fun ready => (gives_call s w sw o ready).trans (congrArg Host.Outcome.next (afterWord_modWave ready.1 _)))
    (keptBut_moved (keptBut_setS (List.mem_singleton_self _) (w.pc + 4#64)) ..) (setS_fpflags w 63 (w.pc + 4#64))

theorem framed_hintSched (s : State) (w : Wave) (sw : BitVec 1) (n : BitVec 4) : Framed s w (.hintSched sw n) :=
  framed_of_wave (gives_effect rfl (exec_hintSched ..) rfl rfl fun hw => afterWord_modWave hw _)
    (keptBut_moved (keptBut_refl w ..) ..) rfl

end

/-- Settles O45, by what each word sets: a scalar register, a mask, the PC alone, or the link. -/
theorem scalarFrame : Obligations.ScalarFrame := by
  unfold Obligations.ScalarFrame
  intro s w sw d a b n o k m p h
  simp only [List.forall_mem_cons]
  refine ⟨?_, ?_, ?_, ?_, ?_, ?_, ?_, ?_, ?_, ?_, ?_, ?_, ?_, ?_, ?_, ?_, ?_, ?_, ?_, ?_, ?_, ?_, ?_, ?_, ?_, ?_, ?_, ?_, ?_, ?_,
    framed_branchIf rfl rfl, framed_branchIf rfl rfl, framed_branchIf rfl rfl, framed_branchIf rfl rfl, framed_branchIf rfl rfl,
    framed_branchIf rfl rfl, framed_call s w sw o, framed_setS rfl rfl rfl rfl, framed_hintSched s w sw h,
    framed_setM rfl rfl rfl rfl, framed_setM rfl rfl rfl rfl, framed_setM rfl rfl rfl rfl, framed_setM rfl rfl rfl rfl,
    framed_setM rfl rfl rfl rfl, framed_setM rfl rfl rfl rfl, framed_setS rfl rfl rfl rfl, framed_setS rfl rfl rfl rfl,
    framed_setS rfl rfl rfl rfl, nofun⟩
  all_goals exact framed_setS rfl rfl rfl rfl

/-! ### Words of a line (00 R5) -/

theorem natOfBytes_div (l : List (BitVec 8)) (o : Nat) : natOfBytes l / 256 ^ o = natOfBytes (l.drop o) := by
  induction o generalizing l with
  | zero => simp
  | succ o ih =>
    cases l with
    | nil => simp [natOfBytes]
    | cons b l =>
      have := b.isLt
      rw [List.drop_succ_cons, ← ih, Nat.pow_succ', ← Nat.div_div_eq_div_mul, natOfBytes]
      congr 1
      omega

theorem natOfBytes_mod (l : List (BitVec 8)) (n : Nat) : natOfBytes l % 256 ^ n = natOfBytes (l.take n) := by
  induction n generalizing l with
  | zero => simp [natOfBytes, Nat.mod_one]
  | succ n ih =>
    cases l with
    | nil => simp [natOfBytes]
    | cons b l =>
      have := b.isLt
      rw [List.take_succ_cons, natOfBytes, natOfBytes, ← ih, Nat.pow_succ', Nat.mod_mul, Nat.add_mul_mod_self_left,
        Nat.mod_eq_of_lt this]
      congr 3
      omega

/-- Some of the values of a function at consecutive numbers. -/
theorem take_drop_map_range {α : Type} (f : Nat → α) {n m o : Nat} (h : o + m ≤ n) :
    (((List.range n).map f).drop o).take m = (List.range m).map (fun j => f (o + j)) := by
  apply List.ext_getElem
  · simp; omega
  · intro j h1 h2
    simp

/-- A number of `n` bytes fits in `8 * n` bits. -/
theorem toNat_ofNat_natOfBytes {m n : Nat} {l : List (BitVec 8)} (hm : m = 8 * n) (h : l.length ≤ n) :
    (BitVec.ofNat m (natOfBytes l)).toNat = natOfBytes l := by
  have bytes : 2 ^ m = 256 ^ n := by rw [hm, Nat.pow_mul]
  rw [BitVec.toNat_ofNat, bytes, natOfBytes_mod, List.take_of_length_le h]

theorem lineOfBytes_toNat {l : List (BitVec 8)} (h : l.length ≤ 128) : (lineOfBytes l).toNat = natOfBytes l :=
  toNat_ofNat_natOfBytes rfl h

/-- The word of a line at an aligned address holds four bytes, the lowest address first. -/
theorem lineWord_lineOfBytes (f : Nat → BitVec 8) {va : DWord} (aligned : va.toNat % 4 = 0) :
    lineWord (lineOfBytes ((List.range 128).map f)) va =
      BitVec.ofNat 32 (natOfBytes ((List.range 4).map (fun j => f (va.toNat % 128 + j)))) := by
  have inside : va.toNat % 128 + 4 ≤ 128 := by omega
  apply BitVec.eq_of_toNat_eq
  rw [← take_drop_map_range f inside, ← natOfBytes_mod, ← natOfBytes_div, lineWord, BitVec.extractLsb'_toNat,
    lineOfBytes_toNat (by simp), BitVec.toNat_ofNat, Nat.shiftRight_eq_div_pow, Nat.pow_mul]
  exact (Nat.mod_mod _ _).symm

/-! ### What a fetch leaves in the instruction cache (02 R72; 15 R377) -/

section
variable {s : State} {w : Wave} {va : DWord} {c : Core}

/-- The lines that stay beside a new one were there before. -/
theorem putICacheLine_eq (all : List ICacheLine) (x : ICacheLine) :
    ∃ l, putICacheLine all x = l ++ [x] ∧ ∀ y ∈ l, y ∈ all := by
  refine ⟨_, rfl, fun y hy => ?_⟩
  split at hy
  · exact (List.mem_filter.mp hy).1
  · split at hy
    · exact (List.mem_filter.mp (List.mem_of_mem_erase hy)).1
    · exact (List.mem_filter.mp hy).1

/-- A wave that no line served before is served by the new one. -/
theorem find?_putICacheLine {all : List ICacheLine} {x : ICacheLine} (before : all.find? (fun l => l.serves w va) = none)
    (now : x.serves w va = true) : (putICacheLine all x).find? (fun l => l.serves w va) = some x := by
  obtain ⟨l, hl, old⟩ := putICacheLine_eq all x
  rw [List.find?_eq_none] at before
  rw [hl, List.find?_append, List.find?_eq_none.mpr fun y hy => before y (old y hy)]
  simp [now]

/-- A wave fetches through a Publish Buffer at the generation that it has adopted. -/
theorem fetchPb_gen {n : Nat} {g : Word} (h : s.fetchPb w va = some (n, g)) : w.gen n = g := by
  unfold State.fetchPb at h
  split at h
  · split at h
    · cases h; rfl
    · cases h
  · cases h

/-- The line that is filled for a wave serves it. -/
theorem filled_serves (s : State) (w : Wave) (va : DWord) (d : Line) :
    ICacheLine.serves ⟨w.ctx, va.toNat / 128, s.fetchPb w va, d⟩ w va = true := by
  unfold ICacheLine.serves
  cases h : s.fetchPb w va with
  | none => simp
  | some p => simp [fetchPb_gen h]

/-- A translation leaves the instruction cache of its core. -/
theorem lookUp_icache {core : Nat} (hc : s.cores[core]? = some c) (acc : Acc) (ctx : Nat) (gen : Nat → Word) (va : DWord) :
    ∃ y, (s.lookUp (some core) acc ctx gen va).cores[core]? = some y ∧ y.icache = c.icache := by
  obtain ⟨cores, -⟩ : MemoryPath.SameUnits s
    (MemoryPath.readTables s (s.xlatLines (some core) acc ctx gen (vaBits va))) := MemoryPath.sameUnits_readTables ..
  unfold State.lookUp
  dsimp only
  split
  · exact ⟨c, hc, rfl⟩
  · split
    · rename_i k e hk _
      cases hk
      refine ⟨_, MemoryPath.fillTlbs_core (cores ▸ hc) .., ?_⟩
      unfold MemoryPath.holdTlb
      split <;> rfl
    · exact ⟨c, cores ▸ hc, rfl⟩

theorem fetchLooks_icache (hc : s.cores[w.core]? = some c) (va : DWord) :
    ∃ y, (s.fetchLooks w va).cores[w.core]? = some y ∧ y.icache = c.icache :=
  lookUp_icache hc ..

theorem icacheHit_eq_none (hc : s.cores[w.core]? = some c) :
    s.icacheHit w va = none ↔ c.icache.find? (fun l => l.serves w va) = none := by
  simp only [State.icacheHit, hc, Option.map_eq_none_iff]

/-- After a fill the line serves the wave with what its place held. -/
theorem icacheHit_fillICache (x : Xlat) (hc : s.cores[w.core]? = some c) (miss : s.icacheHit w va = none) :
    (s.fillICache w va x).icacheHit w va =
      some (lineOfBytes ((List.range 128).map (fun k => s.agentByte (x.pa / 128 * 128 + k)))) := by
  obtain ⟨cores, -⟩ := MemoryPath.sameUnits_homeAccess s (x.pa / 128 * 128) x.ms false 128
  have found := find?_putICacheLine ((icacheHit_eq_none hc).mp miss) (filled_serves s w va
    (lineOfBytes ((List.range 128).map (fun k => s.agentByte (x.pa / 128 * 128 + k)))))
  simp [State.icacheHit, State.fillICache, cores, hc, found]

theorem cacheOnly_fillICache (s : State) (w : Wave) (va : DWord) (x : Xlat) : CacheOnly s (s.fillICache w va x) :=
  (cacheOnly_homeAccess s _ _ _ _).trans rfl

theorem agentByte_of_cacheOnly {s t : State} (h : CacheOnly s t) (pa : Nat) : t.agentByte pa = s.agentByte pa := by
  rw [h]
  rfl

end

/-! ### The fetch of a word (07 R191) -/

section
variable {s s1 : State} {k : Nat} {w : Wave} {c : Core} {x : Xlat} {t : TrapInfo} {v : Word}

theorem fetch_past (h : (w.ran && pastEnd w.pc) = true) : s.fetch w = .trap (trapAt causePcRange w.pc) := if_pos h

variable (here : (w.ran && pastEnd w.pc) = false)
include here

theorem fetch_fails (hx : s.fetchXlat w w.pc = .error t) : s.fetch w = .trap t := by
  simp [State.fetch, here, hx]

theorem fetch_demand (hx : s.fetchXlat w w.pc = .ok x) (held : w.heldWord = none) (miss : s.icacheHit w w.pc = none) :
    s.fetch w = if s.linePoisoned (x.pa / 128) then .poisoned (s.lineClass (x.pa / 128)) else
      .word (lineWord ((((s.fetchLooks w w.pc).fillICache w w.pc x).icacheHit w w.pc).getD 0#1024) w.pc)
        ((s.fetchLooks w w.pc).fillICache w w.pc x) := by
  simp [State.fetch, here, hx, held, miss]

/-- A demand fill gives the four bytes at the place of the word. -/
theorem fetch_fills (hc : s.cores[w.core]? = some c) (hx : s.fetchXlat w w.pc = .ok x) (held : w.heldWord = none)
    (miss : s.icacheHit w w.pc = none) (clean : s.linePoisoned (x.pa / 128) = false) (aligned : w.pc.toNat % 4 = 0) :
    s.fetch w = .word (BitVec.ofNat 32 (natOfBytes ((List.range 4).map (fun j =>
      s.agentByte (x.pa / 128 * 128 + w.pc.toNat % 128 + j))))) ((s.fetchLooks w w.pc).fillICache w w.pc x) := by
  obtain ⟨y, hy, same⟩ := fetchLooks_icache hc w.pc
  have looked : CacheOnly s (s.fetchLooks w w.pc) := cacheOnly_lookUp ..
  have miss' : (s.fetchLooks w w.pc).icacheHit w w.pc = none := by
    rw [icacheHit_eq_none hy, same]
    exact (icacheHit_eq_none hc).mp miss
  rw [fetch_demand here hx held miss, clean, icacheHit_fillICache x hy miss', Option.getD_some, lineWord_lineOfBytes _ aligned]
  simp only [agentByte_of_cacheOnly looked, Nat.add_assoc, Bool.false_eq_true, if_false]

end

/-! ### The turn of a wave that may issue (06 R170; 07 R191) -/

section
variable {s s1 : State} {k : Nat} {w : Wave} {t : TrapInfo} {v : Word} (hw : s.waves[k]? = some w) (may : s.mayIssue w = true)
include hw may

theorem waveTurn_issues : s.waveTurn k = s.issueTurn k w := by
  simp only [State.waveTurn, hw, may, if_true]

theorem waveTurn_of_trap (h : s.fetch w = .trap t) : s.waveTurn k = .next ((s.failedLooks k t).takeTrap k t false) := by
  simp only [waveTurn_issues hw may, State.issueTurn, h]

theorem waveTurn_of_poison {code : Nat} (h : s.fetch w = .poisoned code) : s.waveTurn k = .next (s.meetPoison k w.pc code) := by
  simp only [waveTurn_issues hw may, State.issueTurn, h]

theorem waveTurn_of_zero (h : s.fetch w = .word 0#32 s1) :
    s.waveTurn k = .next ((s1.atWord k w).takeTrap k (trapAt causeZeroWord w.trapPoint) false) := by
  simp only [waveTurn_issues hw may, State.issueTurn, h, State.runWord, if_true]

theorem waveTurn_of_no_instruction (h : s.fetch w = .word v s1) (hv : v ≠ 0#32) (none : decode v = none) :
    s.waveTurn k = .next ((s1.atWord k w).takeTrap k (trapAt causeIllegal (v.setWidth 64)) false) := by
  simp only [waveTurn_issues hw may, State.issueTurn, h, State.runWord, hv, none, if_false]

end

/-- Settles O38, by what the fetch gives: a trap, a poisoned line, a word. -/
theorem fetchRule : Obligations.FetchRule := by
  unfold Obligations.FetchRule
  intro s s1 k w c x t v hw may hc past
  refine ⟨fun beyond => ?_, fun here hx => waveTurn_of_trap hw may (fetch_fails here hx), fun here hx held miss bad => ?_,
    fun here hx held miss clean aligned => ⟨_, fetch_fills here hc hx held miss clean aligned, ?_⟩, waveTurn_of_zero hw may,
    waveTurn_of_no_instruction hw may⟩
  · rw [waveTurn_of_trap hw may (fetch_past beyond), failedLooks_other s k _ (by decide : causePcRange ∉ _)]
  · exact waveTurn_of_poison hw may (by rw [fetch_demand here hx held miss, bad]; rfl)
  · have caches : CacheOnly s ((s.fetchLooks w w.pc).fillICache w w.pc x) :=
      (cacheOnly_lookUp ..).trans (cacheOnly_fillICache ..)
    exact ⟨caches.waves, caches.mem⟩

/-! ### END, and what stays noted of results at peers (07 R192; 06 R164; 19 R407) -/

section
variable {s : State} {w : Wave} {k : Nat}

theorem releaseDone_wave (hw : s.waves[k]? = some w) (scope : Nat) :
    (s.releaseDone k scope).waves[k]? = some { w with relCnt := w.relCnt + 1#32 } := by
  unfold State.releaseDone
  by_cases h : 1 ≤ scope <;> simp [hw, h]

/-- Writing no result still clears what is noted of results at peers. -/
theorem drainOuts_none (ho : w.outs = []) : w.drainOuts = { w with far := [] } := by
  simp [Wave.drainOuts, ho]

/-- The machine of a wave that waits for its end. -/
def ending (s : State) (sw : BitVec 1) : State := s.afterWord sw ((s.releaseDone s.cur 5).setSt s.cur (.wait .ending))

theorem ending_far (hw : s.waves[s.cur]? = some w) (sw : BitVec 1) : ((ending s sw).waves[s.cur]?).map (·.far) = some w.far := by
  simp [ending, State.afterWord, State.setSt, releaseDone_wave hw]

/-- END of a wave with nothing under way: its results are written first, which clears what is noted of results at peers. -/
theorem exec_endWave_idle {sw : BitVec 1} (ready : s.Ready w (.endWave sw)) (ho : w.outs = []) (ha : w.atoms = [])
    (hp : w.pend = []) :
    exec (.endWave sw) s = .next (ending (s.modWave s.cur (fun _ => { w with far := [] })) sw) := by
  have drained : s.modWave s.cur Wave.drainOuts = s.modWave s.cur (fun _ => { w with far := [] }) :=
    modWave_congr s s.cur w _ _ ready.1 (drainOuts_none ho)
  have hw : (s.modWave s.cur (fun _ => { w with far := [] })).waves[s.cur]? = some { w with far := [] } := by
    rw [modWave_get, ready.1]
    rfl
  rw [gives_issue rfl (exec_endWave ..) (fun _ => rfl) ready, drainAtoms_none ready.1 ha, drained, release_empty hw hp]
  rfl

end

/-- A wave with no outstanding result, of which a result at a peer is noted all the same. -/
def notedWave : Wave := { Wave.fresh 0 0 0 0 0 0 bootRole 0#64 [] with far := [(0, .s 1 0#64, .s 1 0#64)] }

/-- The machine after reset with that wave alone. -/
def notedState : State := { State.reset with waves := [notedWave], cur := 0 }

theorem notedState_ready : notedState.Ready notedWave (.endWave 0#1) :=
  ready_of_known rfl rfl ⟨rfl, rfl, by simp [Form.sources], nofun⟩ nofun rfl (badSource_none rfl _)

/-- Refutes O44 at its first clause, for END of a wave with nothing under way: END writes what is outstanding first, which clears
what is noted of results at peers, where the clause leaves the note as it was. In `notedState` a note stands with no result
outstanding, so that the two machines differ. -/
theorem not_systemWordResults : ¬ Obligations.SystemWordResults := by
  unfold Obligations.SystemWordResults
  intro h
  obtain ⟨ends, -⟩ := h notedState notedWave 0#1 0#6 0#6 0#6 0#12
  have claimed : exec (.endWave 0#1) notedState = .next (ending notedState 0#1) := ends rfl rfl rfl notedState_ready
  have same := Host.Outcome.next.inj (claimed.symm.trans (exec_endWave_idle notedState_ready rfl rfl rfl))
  have far := congrArg (fun t : State => (t.waves[0]?).map (·.far)) same
  have kept : ((ending notedState 0#1).waves[0]?).map (·.far) = some notedWave.far := ending_far (s := notedState) rfl 0#1
  have cleared : ((ending (notedState.modWave 0 (fun _ => { notedWave with far := [] })) 0#1).waves[0]?).map (·.far) = some [] :=
    ending_far (s := notedState.modWave 0 (fun _ => { notedWave with far := [] })) rfl 0#1
  cases (kept.symm.trans far).trans cleared

end Sys2Proof.ScalarControl

/-! PROOFS of 08_vector: the lane rule (O11), integer, FP32 and packed forms (O12, O13, O14), conversions, blocks and special
functions (O15), comparisons and masks (O16, O17), cross-lane forms (O18), the frame of all of them and of the hypervector forms
(O46). -/

namespace Sys2Proof.VectorForms

open Sys2Proof Sys2Proof.Machine Sys2Proof.Laws Sys2Proof.InstructionWords Sys2Proof.ScalarControl

/-! ### Lanes of a line, and what writing them leaves (06 R173; 08 R205, R206) -/

theorem getLsbD_setBits {n len : Nat} (x : BitVec n) (lo : Nat) (v : BitVec len) {k : Nat} (hk : k < n) :
    (setBits x lo v).getLsbD k = if lo ≤ k ∧ k < lo + len then v.getLsbD (k - lo) else x.getLsbD k := by
  unfold setBits
  simp only [BitVec.getLsbD_or, BitVec.getLsbD_and, BitVec.getLsbD_not, BitVec.getLsbD_shiftLeft, BitVec.getLsbD_setWidth,
    BitVec.getLsbD_allOnes, hk, decide_true, Bool.true_and]
  by_cases low : k < lo
  · simp [low, Nat.not_le.mpr low]
  · have inside : k - lo < n := by omega
    by_cases high : k < lo + len
    · simp [low, high, inside, Nat.not_lt.mp low, show k - lo < len by omega]
    · simp [low, high, inside, show ¬ k - lo < len by omega, BitVec.getLsbD_of_ge v (k - lo) (by omega)]

theorem laneOf_setLane (x : Line) {n l : Nat} (v : Word) (hl : l < 32) :
    laneOf (setLane x n v) l = if l = n then v else laneOf x l := by
  apply BitVec.eq_of_getLsbD_eq
  intro k hk
  have inside : 32 * l + k < 1024 := by omega
  simp only [laneOf, setLane, BitVec.getLsbD_extractLsb', hk, decide_true, Bool.true_and, getLsbD_setBits _ _ _ inside]
  by_cases same : l = n
  · subst same
    rw [if_pos ⟨by omega, by omega⟩, if_pos rfl, Nat.add_sub_cancel_left]
  · rw [if_neg (by omega), if_neg same, BitVec.getLsbD_extractLsb', decide_eq_true hk, Bool.true_and]

theorem laneOf_mergeLanes (mask : Word) (old : Line) (f : Nat → Word) (n : Nat) {l : Nat} (hl : l < 32) :
    laneOf (mergeLanes mask old f n) l = if l < n ∧ mask.getLsbD l = true then f l else laneOf old l := by
  induction n with
  | zero => simp [mergeLanes]
  | succ n ih =>
    unfold mergeLanes
    split
    · rename_i active
      rw [laneOf_setLane _ _ hl, ih]
      by_cases same : l = n
      · simp [same, active]
      · simp only [same, if_false, show l < n + 1 ↔ l < n by omega]
    · rename_i inactive
      rw [ih]
      by_cases same : l = n
      · simp [same, inactive]
      · simp only [show l < n + 1 ↔ l < n by omega]

section
variable {w : Wave} {d n : Nat}

theorem vreg_setVreg_same (v : VReg) (hd : d < w.vregs.length) : (w.setVreg d v).vreg d = v := by
  simp [Wave.vreg, Wave.setVreg, hd]

theorem vreg_setVreg_other (v : VReg) (h : n ≠ d) : (w.setVreg d v).vreg n = w.vreg n := by
  simp [Wave.vreg, Wave.setVreg, List.getElem?_set_ne h.symm]

@[simp] theorem vreg_orFlags (w : Wave) (f : Flags) (n : Nat) : (w.orFlags f).vreg n = w.vreg n := rfl
@[simp] theorem v_orFlags (w : Wave) (f : Flags) (n l : Nat) : (w.orFlags f).v n l = w.v n l := rfl
@[simp] theorem fpflags_orFlags (w : Wave) (f : Flags) : (w.orFlags f).fpflags = w.fpflags ||| f := rfl

variable (mask : Word) (side : Side) (f : Nat → Word)

@[simp] theorem writeLanes_none (w : Wave) (d : Nat) : w.writeLanes d 0#32 side f = w := if_pos rfl

@[simp] theorem fpflags_writeLanes (w : Wave) (d : Nat) : (w.writeLanes d mask side f).fpflags = w.fpflags := by
  unfold Wave.writeLanes
  split <;> rfl

theorem vreg_writeLanes_other (h : n ≠ d) : (w.writeLanes d mask side f).vreg n = w.vreg n := by
  unfold Wave.writeLanes
  split
  · rfl
  · exact vreg_setVreg_other _ h

/-- Once a lane is written, the register has the new side-band. -/
theorem vreg_writeLanes_same {mask : Word} (h : mask ≠ 0#32) (hd : d < w.vregs.length) :
    (w.writeLanes d mask side f).vreg d = ⟨mergeLanes mask (w.vreg d).data f 32, side⟩ := by
  rw [Wave.writeLanes, if_neg h, vreg_setVreg_same _ hd]

/-- A lane of the mask takes its value, any other lane keeps its bits. -/
theorem v_writeLanes (hd : d < w.vregs.length) {l : Nat} (hl : l < 32) :
    (w.writeLanes d mask side f).v d l = if mask.getLsbD l then f l else w.v d l := by
  by_cases h : mask = 0#32
  · simp [h]
  · simp [Wave.v, vreg_writeLanes_same side f h hd, laneOf_mergeLanes _ _ _ _ hl, hl]

end

/-- A flag is among those of the lanes of a mask when one of these lanes raises it. -/
theorem getLsbD_laneFlags (mask : Word) (f : Nat → Flags) (n k : Nat) :
    (laneFlags mask f n).getLsbD k = true ↔ ∃ l, l < n ∧ mask.getLsbD l = true ∧ (f l).getLsbD k = true := by
  induction n with
  | zero => simp [laneFlags, flagNone]
  | succ n ih =>
    unfold laneFlags
    simp only [Nat.exists_lt_succ_right, ← ih]
    by_cases active : mask.getLsbD n = true <;> simp [active, BitVec.getLsbD_or]

@[simp] theorem laneFlags_none_active (f : Nat → Flags) (n : Nat) : laneFlags 0#32 f n = 0#6 := by
  induction n with
  | zero => rfl
  | succ n ih => simp [laneFlags, ih]

/-- Settles O11, from what `writeLanes` leaves of the lanes and of the side-band, and what `laneFlags` collects. -/
theorem laneRule : Obligations.LaneRule := by
  unfold Obligations.LaneRule
  intro w d g hd
  dsimp only [Wave.laneResult]
  refine ⟨fun l hl => ?_, fun n hn => ?_, fun some => ?_, fun none => ?_, fun k => ?_⟩
  · exact v_writeLanes _ _ _ hd hl
  · exact vreg_writeLanes_other _ _ _ hn
  · rw [vreg_orFlags, vreg_writeLanes_same _ _ some hd]
  · simp [none]
  · simp [BitVec.getLsbD_or, getLsbD_laneFlags, Wave.active]

/-! ### Integer and bit forms (08 R208) -/

section
variable {s : State} {w : Wave} {i : Instr} {f : Form} {sw : BitVec 1} {d a b : BitVec 8}

/-- A lane function gives what it gives lane by lane. -/
theorem laneResult_congr {n : Nat} {g h : Nat → Word × Flags} (e : ∀ l, g l = h l) : w.laneResult n g = w.laneResult n h :=
  congrArg (w.laneResult n) (funext e)

theorem gives_laneVV {op : Word → Word → Word} {g : Nat → Word} (hf : issueForm i = some f)
    (he : exec i s = s.onWave i f (laneVV d a b op)) (hs : f.sw = sw) (hop : ∀ l, op (w.v a.toNat l) (w.v b.toNat l) = g l) :
    s.Gives w i (s.became sw (w.laneResult d.toNat (fun l => (g l, flagNone)))) :=
  givesWave hf he hs (laneResult_congr fun l => Prod.ext (hop l) rfl)

theorem gives_laneV {op : Word → Word} {g : Nat → Word} (hf : issueForm i = some f)
    (he : exec i s = s.onWave i f (laneV d a op)) (hs : f.sw = sw) (hop : ∀ l, op (w.v a.toNat l) = g l) :
    s.Gives w i (s.became sw (w.laneResult d.toNat (fun l => (g l, flagNone)))) :=
  givesWave hf he hs (laneResult_congr fun l => Prod.ext (hop l) rfl)

end

section
variable (x y : Word)

/-- The high half of the unsigned product. -/
theorem mulHighU32_eq : (x.setWidth 64 * y.setWidth 64).extractLsb' 32 32 = BitVec.ofNat 32 (x.toNat * y.toNat / 2 ^ 32) := by
  apply BitVec.eq_of_toNat_eq
  have small : x.toNat * y.toNat < 2 ^ 64 := Nat.lt_of_lt_of_le (Nat.mul_lt_mul'' x.isLt y.isLt) (by decide)
  simp only [BitVec.extractLsb'_toNat, BitVec.toNat_mul, BitVec.toNat_setWidth, BitVec.toNat_ofNat, Nat.shiftRight_eq_div_pow]
  rw [Nat.mod_eq_of_lt (show x.toNat < 2 ^ 64 by omega), Nat.mod_eq_of_lt (show y.toNat < 2 ^ 64 by omega), Nat.mod_eq_of_lt small]

/-- The high half of the signed product. -/
theorem mulHigh32_eq : (x.signExtend 64 * y.signExtend 64).extractLsb' 32 32 = BitVec.ofInt 32 (x.toInt * y.toInt / 2 ^ 32) := by
  have product : x.signExtend 64 * y.signExtend 64 = BitVec.ofInt 64 (x.toInt * y.toInt) := by
    rw [BitVec.signExtend, BitVec.signExtend, BitVec.ofInt_mul]
  rw [product]
  apply BitVec.eq_of_toNat_eq
  simp only [BitVec.extractLsb'_toNat, BitVec.toNat_ofInt, Nat.shiftRight_eq_div_pow]
  omega

theorem ite_slt32 (p q : Word) : (if x.slt y then p else q) = if x.toInt < y.toInt then p else q := by
  simp only [BitVec.slt, decide_eq_true_eq]

theorem ite_ult32 (p q : Word) : (if x.ult y then p else q) = if x.toNat < y.toNat then p else q := by
  simp only [BitVec.ult, decide_eq_true_eq]

end

/-- Settles O12, form by form: each is a lane function, of which the statement gives the value in whole numbers or bit by bit. -/
theorem vectorIntegerResults : Obligations.VectorIntegerResults := by
  unfold Obligations.VectorIntegerResults
  intro s w sw d a b x y r ri
  exact ⟨givesWave rfl rfl rfl rfl, givesWave rfl rfl rfl rfl, givesWave rfl rfl rfl rfl,
    gives_laneVV rfl rfl rfl fun l => mulHigh32_eq (x l) (y l), gives_laneVV rfl rfl rfl fun l => mulHighU32_eq (x l) (y l),
    gives_laneVV rfl rfl rfl fun l => ite_slt32 (y l) (x l) (y l) (x l),
    gives_laneVV rfl rfl rfl fun l => ite_slt32 (x l) (y l) (y l) (x l),
    gives_laneVV rfl rfl rfl fun l => ite_ult32 (y l) (x l) (y l) (x l),
    gives_laneVV rfl rfl rfl fun l => ite_ult32 (x l) (y l) (y l) (x l),
    givesWave rfl rfl rfl rfl, givesWave rfl rfl rfl rfl, givesWave rfl rfl rfl rfl, givesWave rfl rfl rfl rfl,
    givesWave rfl rfl rfl rfl, givesWave rfl rfl rfl rfl,
    gives_laneV rfl rfl rfl fun l => congrArg (BitVec.ofNat 32) (popBits_countP (x l) 32), givesWave rfl rfl rfl rfl,
    givesWave rfl rfl rfl rfl, givesWave rfl rfl rfl rfl⟩

/-! ### Comparisons (08 R221) -/

/-- A comparison replaces the bits of the active lanes. -/
theorem getLsbD_cmpBits (active old : Word) (c : Nat → Bool) (n : Nat) {l : Nat} (hl : l < 32) :
    (cmpBits active old c n).getLsbD l = if l < n ∧ active.getLsbD l = true then c l else old.getLsbD l := by
  induction n with
  | zero => simp [cmpBits]
  | succ n ih =>
    have one : (1#32 <<< n).getLsbD l = decide (l = n) := by
      rw [BitVec.getLsbD_shiftLeft, BitVec.getLsbD_one]
      grind
    have put : (cmpBits active old c n ||| 1#32 <<< n).getLsbD l = ((cmpBits active old c n).getLsbD l || decide (l = n)) := by
      rw [BitVec.getLsbD_or, one]
    have drop : (cmpBits active old c n &&& ~~~(1#32 <<< n)).getLsbD l =
        ((cmpBits active old c n).getLsbD l && !decide (l = n)) := by
      rw [BitVec.getLsbD_and, BitVec.getLsbD_not, one, decide_eq_true hl, Bool.true_and]
    unfold cmpBits
    dsimp only
    rw [apply_ite (BitVec.getLsbD · l), apply_ite (BitVec.getLsbD · l), put, drop, ih]
    grind

section
variable {s : State} {w : Wave} {i : Instr} {f : Form} {sw : BitVec 1} {m : BitVec 3} {a b : BitVec 8}

theorem gives_compare {c : Word → Word → Bool} {c' : Nat → Bool} (hf : issueForm i = some f)
    (he : exec i s = s.onWave i f (compare m a b c)) (hs : f.sw = sw) (hc : ∀ l, c (w.v a.toNat l) (w.v b.toNat l) = c' l) :
    ∃ v : Word, (∀ l, l < 32 → v.getLsbD l = if w.active l then c' l else (w.m m.toNat).getLsbD l) ∧
      s.Gives w i (s.became sw (w.setM m.toNat v)) := by
  refine ⟨_, fun l hl => ?_, givesWave hf he hs rfl⟩
  rw [getLsbD_cmpBits _ _ _ _ hl, hc]
  simp [hl, Wave.active]

end

/-- Settles O16: a comparison differs from another in its condition alone. -/
theorem compareResults : Obligations.CompareResults := by
  unfold Obligations.CompareResults
  intro s w sw m a b x y writes
  exact ⟨gives_compare rfl rfl rfl fun _ => rfl, gives_compare rfl rfl rfl fun _ => rfl, gives_compare rfl rfl rfl fun _ => rfl,
    gives_compare rfl rfl rfl fun _ => rfl, gives_compare rfl rfl rfl fun _ => rfl, gives_compare rfl rfl rfl fun _ => rfl,
    gives_compare rfl rfl rfl fun _ => rfl, gives_compare rfl rfl rfl fun _ => rfl, gives_compare rfl rfl rfl fun _ => rfl,
    gives_compare rfl rfl rfl fun _ => rfl, gives_compare rfl rfl rfl fun _ => rfl⟩

/-! ### Whole masks (08 R222) -/

/-- What primary 0x71 leaves unassigned. -/
theorem decode71_none {w : Word} (h : 9 ≤ (fieldOf w 19 5).toNat ∨ fieldOf w 0 4 ≠ 0#4 ∨
      ((fieldOf w 19 5).toNat ≤ 4 ∧ fieldOf w 4 6 ≠ 0#6) ∨
      ((fieldOf w 19 5 = 4#5 ∨ fieldOf w 19 5 = 5#5) ∧ fieldOf w 10 3 ≠ 0#3) ∨ (fieldOf w 19 5 = 5#5 ∧ fieldOf w 13 3 ≠ 0#3) ∨
      (6 ≤ (fieldOf w 19 5).toNat ∧ (fieldOf w 16 3 ≠ 0#3 ∨ fieldOf w 10 3 ≠ 0#3))) : decode71 w = none := by
  simp only [decode71, ne_eq, fieldOf_eq_iff, fieldOf_toNat, BitVec.toNat_ofNat, Nat.reducePow, Nat.reduceMod] at h ⊢
  repeat rw [if_neg (by omega)]

theorem decode_mask_none (sw : BitVec 1) (d a b : BitVec 3) (n : BitVec 6) (sub : BitVec 5) (z : BitVec 4)
    (h : 9 ≤ sub.toNat ∨ z ≠ 0#4 ∨ (sub.toNat ≤ 4 ∧ n ≠ 0#6) ∨ ((sub = 4#5 ∨ sub = 5#5) ∧ b ≠ 0#3) ∨
      (sub = 5#5 ∧ a ≠ 0#3) ∨ (6 ≤ sub.toNat ∧ (d ≠ 0#3 ∨ b ≠ 0#3))) : decode (sw ++ 0x71#7 ++ sub ++ d ++ a ++ b ++ n ++ z) = none := by
  obtain ⟨word, hw⟩ : ∃ word, word = sw ++ 0x71#7 ++ sub ++ d ++ a ++ b ++ n ++ z := ⟨_, rfl⟩
  have primary : fieldOf word 24 7 = 0x71#7 := by
    simp (disch := decide) only [hw, fieldOf, fieldHi, fieldLo, Nat.reduceSub, fieldAll]
  have code : fieldOf word 19 5 = sub := by
    simp (disch := decide) only [hw, fieldOf, fieldHi, fieldLo, Nat.reduceSub, fieldAll]
  have first : fieldOf word 16 3 = d := by
    simp (disch := decide) only [hw, fieldOf, fieldHi, fieldLo, Nat.reduceSub, fieldAll]
  have second : fieldOf word 13 3 = a := by
    simp (disch := decide) only [hw, fieldOf, fieldHi, fieldLo, Nat.reduceSub, fieldAll]
  have third : fieldOf word 10 3 = b := by
    simp (disch := decide) only [hw, fieldOf, fieldHi, fieldLo, Nat.reduceSub, fieldAll]
  have scalar : fieldOf word 4 6 = n := by
    simp (disch := decide) only [hw, fieldOf, fieldHi, fieldLo, Nat.reduceSub, fieldAll]
  have low : fieldOf word 0 4 = z := by
    simp (disch := decide) only [hw, fieldOf, fieldLo, fieldAll]
  rw [← hw, decode, decodeCompound, primary]
  exact decode71_none (by rwa [code, first, second, third, scalar, low])

/-- Settles O17, form by form; MPOPC counts the bits, MFFS finds the lowest. -/
theorem maskResults : Obligations.MaskResults := by
  unfold Obligations.MaskResults
  intro s w sw d a b n x y r rs
  obtain ⟨-, atMost, zeros, one⟩ := lowestOne_spec x 32 0
  exact ⟨givesWave rfl rfl rfl rfl, givesWave rfl rfl rfl rfl, givesWave rfl rfl rfl rfl, givesWave rfl rfl rfl rfl,
    givesWave rfl rfl rfl rfl, givesWave rfl rfl rfl rfl, givesWave rfl rfl rfl rfl,
    givesWave rfl rfl rfl (congrArg (fun k => w.setS n.toNat (BitVec.ofNat 64 k)) (popBits_countP x 32)),
    ⟨lowestOne x 0 32, by omega, fun k => zeros k (Nat.zero_le k), fun h => one (by omega), givesWave rfl rfl rfl rfl⟩,
    decode_mask_none sw d a b n⟩

/-! ### Rounding a magnitude to a multiple of a step (01 R21) -/

/-- Does the quotient of a magnitude and its step round up? -/
def roundsUp (near away : Bool) (num den : Nat) : Bool :=
  if near then decide (den < 2 * (num % den)) || (decide (2 * (num % den) = den) && decide (num / den % 2 = 1))
  else away && decide (num % den ≠ 0)

/-- The quotient rounded. -/
def roundQuot (near away : Bool) (num den : Nat) : Nat := if roundsUp near away num den then num / den + 1 else num / den

section
variable (near away : Bool) {num den m : Nat} {e q : Int}

theorem roundQuot_le {k : Nat} (h : num < den * k) : roundQuot near away num den ≤ k := by
  have below : num / den < k := Nat.div_lt_of_lt_mul h
  unfold roundQuot
  split <;> omega

theorem le_roundQuot {k : Nat} (pos : 0 < den) (h : den * k ≤ num) : k ≤ roundQuot near away num den := by
  have above : k ≤ num / den := (Nat.le_div_iff_mul_le pos).mpr (by rwa [Nat.mul_comm])
  unfold roundQuot
  split <;> omega

/-- A multiple of the step stays. -/
theorem roundQuot_one (num : Nat) : roundQuot near away num 1 = num := by
  simp [roundQuot, roundsUp, Nat.mod_one]

/-- Less than half a step rounds to zero, or away from it. -/
theorem roundQuot_small (pos : num ≠ 0) (h : 2 * num < den) :
    roundQuot near away num den = if !near && away then 1 else 0 := by
  have below : num < den := by omega
  have notUp : ¬ den < 2 * num := by omega
  have noTie : 2 * num ≠ den := by omega
  cases near <;> simp [roundQuot, roundsUp, Nat.mod_eq_of_lt below, Nat.div_eq_of_lt below, pos, notUp, noTie]

/-- `roundMag` rounds the quotient, and says whether there is a rest. -/
theorem roundMag_eq (near away : Bool) (h : near = true → away = false) (m : Nat) (e q : Int) :
    roundMag near away m e q = (roundQuot near away (m * 2 ^ (e - q).toNat) (2 ^ (q - e).toNat),
      decide (m * 2 ^ (e - q).toNat % 2 ^ (q - e).toNat ≠ 0)) := by
  unfold roundMag
  split
  · subst m
    have pos : 0 < 2 ^ (q - e).toNat := Nat.two_pow_pos _
    have noTie : 0 ≠ 2 ^ (q - e).toNat := by omega
    simp [roundQuot, roundsUp, noTie]
  · rename_i nonzero
    split
    · rename_i multiple
      simp [Int.toNat_of_nonpos (show q - e ≤ 0 by omega), roundQuot_one, Nat.mod_one]
    · rename_i finer
      obtain ⟨d, hd⟩ : ∃ d, (q - e).toNat = d + 1 := ⟨(q - e).toNat - 1, by omega⟩
      simp only [Int.toNat_of_nonpos (show e - q ≤ 0 by omega), hd, Nat.pow_zero, Nat.mul_one, Nat.add_sub_cancel]
      have double : 2 ^ (d + 1) = 2 * 2 ^ d := Nat.pow_succ'
      split
      · rename_i far
        have small : m < 2 ^ d := Nat.lt_of_lt_of_le Nat.lt_log2_self (Nat.pow_le_pow_right (by decide) (by omega))
        rw [roundQuot_small near away nonzero (by omega), Nat.mod_eq_of_lt (show m < 2 ^ (d + 1) by omega)]
        cases near <;> simp_all
      · have half : 2 ^ (d + 1) < 2 * (m % 2 ^ (d + 1)) ↔ 2 ^ d < m % 2 ^ (d + 1) := by omega
        have tie : 2 * (m % 2 ^ (d + 1)) = 2 ^ (d + 1) ↔ m % 2 ^ (d + 1) = 2 ^ d := by omega
        simp only [roundQuot, roundsUp, half, tie]

end

/-- A mode to nearest is not directed. -/
theorem away_of_near {mode : RoundMode} {neg : Bool} (h : mode.near = true) : mode.away neg = false := by
  cases mode with
  | rne => rfl
  | rtz | rdn | rup => cases h

/-! ### Encodings of a format (01 R14, R15) -/

/-- The seven layouts. -/
def layouts : List FloatFmt := [FloatFmt.fp32, .bf16, .fp16, .e4m3, .e5m2, .e2m1, .fp64]

section
variable {f : FloatFmt} (neg : Bool)

theorem maxMag_lt (hf : f ∈ layouts) : f.maxMag < f.signBit := by
  revert f
  decide

theorem signed_mod {mag : Nat} (h : mag < f.signBit) : f.signed neg mag % f.signBit = mag := by
  unfold FloatFmt.signed
  cases neg <;> simp [Nat.mod_eq_of_lt h]

theorem signed_sign {mag : Nat} (h : mag < f.signBit) : decide (1 ≤ f.signed neg mag / f.signBit % 2) = neg := by
  have pos : 0 < f.signBit := by omega
  unfold FloatFmt.signed
  cases neg <;> simp [Nat.div_eq_of_lt h, Nat.add_div_left _ pos]

theorem signed_lt {mag : Nat} (h : mag < f.signBit) : f.signed neg mag < 2 * f.signBit := by
  unfold FloatFmt.signed
  split <;> omega

/-- A finite encoding, read by its fields. -/
theorem decodeFloat_signed (hf : f ∈ layouts) {mag : Nat} (h : mag ≤ f.maxMag) :
    decodeFloat f (f.signed neg mag) = if mag / 2 ^ f.frac = 0 then .fin neg (mag % 2 ^ f.frac) (1 - (f.bias : Int) - f.frac)
      else .fin neg (2 ^ f.frac + mag % 2 ^ f.frac) ((mag / 2 ^ f.frac : Nat) - (f.bias : Int) - f.frac) := by
  have small : mag < f.signBit := Nat.lt_of_le_of_lt h (maxMag_lt hf)
  simp only [decodeFloat, signed_sign neg small, signed_mod neg small, Nat.not_lt.mpr h, if_false]

/-- The encoding of `n` steps of the place that is `j` above the lowest one. -/
theorem decodeFloat_steps (hf : f ∈ layouts) {n j : Nat} (most : n ≤ 2 ^ (f.frac + 1)) (least : j ≠ 0 → 2 ^ f.frac ≤ n)
    (fits : n + j * 2 ^ f.frac ≤ f.maxMag) {q : Int} (hq : q = 1 - (f.bias : Int) - f.frac + j) :
    decodeFloat f (f.signed neg (n + j * 2 ^ f.frac)) =
      if n = 2 ^ (f.frac + 1) then .fin neg (2 ^ f.frac) (q + 1) else .fin neg n q := by
  have pos : 0 < 2 ^ f.frac := Nat.two_pow_pos _
  rw [decodeFloat_signed neg hf fits, Nat.add_mul_div_right _ _ pos, Nat.add_mul_mod_self_right]
  rw [Nat.pow_succ] at most ⊢
  generalize 2 ^ f.frac = p at *
  obtain subnormal | normal | next : n < p ∨ (p ≤ n ∧ n < 2 * p) ∨ n = 2 * p := by omega
  · have lowest : j = 0 := Decidable.byContradiction fun h => Nat.not_le.mpr subnormal (least h)
    rw [Nat.div_eq_of_lt subnormal, Nat.mod_eq_of_lt subnormal, lowest, if_pos rfl, if_neg (by omega), hq, lowest]
    simp
  · obtain ⟨r, rfl⟩ : ∃ r, n = p + r := ⟨n - p, by omega⟩
    rw [Nat.add_div_left _ pos, Nat.add_mod_left, Nat.div_eq_of_lt (by omega), Nat.mod_eq_of_lt (by omega), if_neg (by omega),
      if_neg (by omega), hq]
    congr 1
    push_cast
    omega
  · rw [next, Nat.mul_div_cancel _ pos, Nat.mul_mod_left, if_neg (by omega), if_pos (Nat.mul_comm _ _), hq]
    congr 1
    push_cast
    omega

end

/-! ### RoundTo of a finite value (01 R21 to R26) -/

section
variable (f : FloatFmt) (m : Nat) (e : Int)

/-- The exponent of the lowest place of a format. -/
def lowPlace : Int := 1 - (f.bias : Int) - f.frac

/-- The exponent of the step at a value's place. -/
def stepPlace : Int := max ((Nat.log2 m : Int) + e - f.frac) (lowPlace f)

variable {m}

theorem quot_lt : m * 2 ^ (e - stepPlace f m e).toNat < 2 ^ (stepPlace f m e - e).toNat * 2 ^ (f.frac + 1) := by
  have place : (Nat.log2 m : Int) + e - f.frac ≤ stepPlace f m e := Int.le_max_left _ _
  calc m * 2 ^ (e - stepPlace f m e).toNat
      < 2 ^ (Nat.log2 m + 1) * 2 ^ (e - stepPlace f m e).toNat :=
        Nat.mul_lt_mul_of_pos_right Nat.lt_log2_self (Nat.two_pow_pos _)
    _ ≤ 2 ^ (stepPlace f m e - e).toNat * 2 ^ (f.frac + 1) := by
        rw [← Nat.pow_add, ← Nat.pow_add]
        exact Nat.pow_le_pow_right (by decide) (by omega)

/-- Above the lowest place the leading bit of a value is a full step. -/
theorem le_quot (pos : m ≠ 0) (h : lowPlace f < stepPlace f m e) :
    2 ^ (stepPlace f m e - e).toNat * 2 ^ f.frac ≤ m * 2 ^ (e - stepPlace f m e).toNat := by
  have place : stepPlace f m e = (Nat.log2 m : Int) + e - f.frac := by
    unfold stepPlace at h ⊢
    omega
  calc 2 ^ (stepPlace f m e - e).toNat * 2 ^ f.frac
      ≤ 2 ^ Nat.log2 m * 2 ^ (e - stepPlace f m e).toNat := by
        rw [← Nat.pow_add, ← Nat.pow_add]
        exact Nat.pow_le_pow_right (by decide) (by omega)
    _ ≤ m * 2 ^ (e - stepPlace f m e).toNat := Nat.mul_le_mul_right _ (Nat.log2_self_le pos)

/-- The flags of a rounding that leaves a rest or none. -/
def roundFlags (inexact tiny : Bool) : Flags := flagIf inexact flagNX ||| flagIf (inexact && tiny) flagUF

theorem roundFlags_eq (rest : Nat) (tiny : Prop) [Decidable tiny] :
    roundFlags (decide (rest ≠ 0)) (decide tiny) = if rest = 0 then flagNone else if tiny then flagNX ||| flagUF else flagNX := by
  by_cases exact : rest = 0 <;> by_cases small : tiny <;> simp [roundFlags, exact, small, flagIf, flagNone]

/-- The value in steps of its place, rounded. -/
def roundedSteps (m : Nat) (mode : RoundMode) (neg : Bool) : Nat :=
  roundQuot mode.near (mode.away neg) (m * 2 ^ (e - stepPlace f m e).toNat) (2 ^ (stepPlace f m e - e).toNat)

/-- The magnitude of its encoding, were the format unbounded. -/
def roundedMag (m : Nat) (mode : RoundMode) (neg : Bool) : Nat :=
  roundedSteps f e m mode neg + (stepPlace f m e - lowPlace f).toNat * 2 ^ f.frac

theorem roundTo_zero (mode : RoundMode) (sat neg : Bool) (e : Int) :
    roundTo f mode sat (.fin neg 0 e) = (f.signed neg 0, flagNone) := rfl

theorem roundTo_fin (mode : RoundMode) (sat neg : Bool) (pos : m ≠ 0) :
    roundTo f mode sat (.fin neg m e) =
      if f.maxMag < roundedMag f e m mode neg then
        if sat then (f.signed neg f.maxMag, flagSA ||| flagNX) else (overflowResult f mode neg, flagOF ||| flagNX)
      else (f.signed neg (roundedMag f e m mode neg),
        roundFlags (decide (m * 2 ^ (e - stepPlace f m e).toNat % 2 ^ (stepPlace f m e - e).toNat ≠ 0))
          (decide ((Nat.log2 m : Int) + e < 1 - (f.bias : Int)))) := by
  unfold roundTo
  dsimp only
  rw [if_neg pos, roundMag_eq mode.near (mode.away neg) away_of_near]
  rfl

section
variable {f e} {mode : RoundMode} {neg : Bool} (pos : m ≠ 0)
include pos

theorem roundTo_fits (sat : Bool) (fits : roundedMag f e m mode neg ≤ f.maxMag) :
    roundTo f mode sat (.fin neg m e) = (f.signed neg (roundedMag f e m mode neg),
      roundFlags (decide (m * 2 ^ (e - stepPlace f m e).toNat % 2 ^ (stepPlace f m e - e).toNat ≠ 0))
        (decide ((Nat.log2 m : Int) + e < 1 - (f.bias : Int)))) := by
  rw [roundTo_fin f e mode sat neg pos, if_neg (Nat.not_lt.mpr fits)]

theorem roundTo_beyond_sat (beyond : f.maxMag < roundedMag f e m mode neg) :
    roundTo f mode true (.fin neg m e) = (f.signed neg f.maxMag, flagSA ||| flagNX) := by
  rw [roundTo_fin f e mode true neg pos, if_pos beyond, if_pos rfl]

theorem roundTo_beyond (beyond : f.maxMag < roundedMag f e m mode neg) :
    roundTo f mode false (.fin neg m e) = (overflowResult f mode neg, flagOF ||| flagNX) := by
  rw [roundTo_fin f e mode false neg pos, if_pos beyond, if_neg Bool.false_ne_true]

end

/-- A value that fits is read back as its rounded number of steps. -/
theorem decodeFloat_roundedMag {f : FloatFmt} (hf : f ∈ layouts) (mode : RoundMode) (neg : Bool) (pos : m ≠ 0)
    (fits : roundedMag f e m mode neg ≤ f.maxMag) :
    decodeFloat f (f.signed neg (roundedMag f e m mode neg)) =
      if roundedSteps f e m mode neg = 2 ^ (f.frac + 1) then .fin neg (2 ^ f.frac) (stepPlace f m e + 1)
      else .fin neg (roundedSteps f e m mode neg) (stepPlace f m e) := by
  have place : lowPlace f ≤ stepPlace f m e := Int.le_max_right _ _
  refine decodeFloat_steps neg hf (roundQuot_le _ _ (quot_lt f e)) (fun above => ?_) fits ?_
  · exact le_roundQuot _ _ (Nat.two_pow_pos _) (le_quot f e pos (by omega))
  · unfold lowPlace at place ⊢
    omega

end

/-- What R24 gives beyond the largest finite value. -/
theorem overflowResult_eq (f : FloatFmt) (mode : RoundMode) (neg : Bool) :
    overflowResult f mode neg =
      if mode = .rtz ∨ (mode = .rdn ∧ neg = false) ∨ (mode = .rup ∧ neg = true) then f.signed neg f.maxMag
      else if f.hasInf then f.signed neg (f.maxMag + 1) else f.canonNaN.getD (f.signed neg f.maxMag) := by
  cases canon : f.canonNaN <;> cases mode <;> cases neg <;> simp [overflowResult, canon, FloatFmt.infMag]

/-! ### Flushing (01 R27) -/

theorem isSubnormal_eq (l : FloatFmt) (c : Nat) :
    l.isSubnormal c = (decide (0 < c % l.signBit) && decide (c % l.signBit < 2 ^ l.frac)) := by
  rw [FloatFmt.isSubnormal, Bool.and_comm]
  simp [Nat.pos_iff_ne_zero]

theorem flushable_eq (f : ElemFmt) : flushable f = (f == .fp32 || f == .bf16 || f == .fp16) := by
  cases f <;> rfl

theorem one_le_mod_two (n : Nat) : decide (1 ≤ n % 2) = decide (n % 2 = 1) := by
  rcases Nat.mod_two_eq_zero_or_one n with h | h <;> simp [h]

theorem srcNum_eq {f : ElemFmt} {l : FloatFmt} (hl : f.float? = some l) (md : Modes) (b : Nat) :
    srcNum f md b = decodeFloat l (if md.ftz && (f == .fp32 || f == .bf16 || f == .fp16) &&
        (decide (0 < b % l.signBit) && decide (b % l.signBit < 2 ^ l.frac))
      then l.signed (decide (b / l.signBit % 2 = 1)) 0 else b) := by
  simp only [srcNum, flushSource, hl, isSubnormal_eq, flushable_eq, one_le_mod_two]

theorem flushResult_eq {f : ElemFmt} {l : FloatFmt} (hl : f.float? = some l) (ftz : Bool) (r : Nat × Flags) :
    flushResult f ftz r = if ftz && (f == .fp32 || f == .bf16 || f == .fp16) &&
        (decide (0 < r.1 % l.signBit) && decide (r.1 % l.signBit < 2 ^ l.frac))
      then (l.signed (decide (r.1 / l.signBit % 2 = 1)) 0, r.2 ||| flagUF ||| flagNX) else r := by
  simp only [flushResult, hl, isSubnormal_eq, flushable_eq, one_le_mod_two]

/-- One rounding, then the flush, beside the flags of the exact operation. -/
theorem fpResult_rounds {f : ElemFmt} {l : FloatFmt} (hl : f.float? = some l) (md : Modes) (x : Machine.Num × Flags) :
    fpResult f md x = ((flushResult f md.ftz (roundTo l md.round md.sat x.1)).1,
      x.2 ||| (flushResult f md.ftz (roundTo l md.round md.sat x.1)).2) := by
  simp only [fpResult, hl]

theorem fpResult_eq {f : ElemFmt} {l : FloatFmt} (hl : f.float? = some l) (md : Modes) (x : Machine.Num) (fl : Flags) :
    fpResult f md (x, fl) =
      let r := roundTo l (md.mode.getD .rne) md.sat x
      if md.ftz && (f == .fp32 || f == .bf16 || f == .fp16) &&
          (decide (0 < r.1 % l.signBit) && decide (r.1 % l.signBit < 2 ^ l.frac))
      then (l.signed (decide (r.1 / l.signBit % 2 = 1)) 0, fl ||| (r.2 ||| flagUF ||| flagNX)) else (r.1, fl ||| r.2) := by
  rw [fpResult_rounds hl, flushResult_eq hl, Modes.round]
  dsimp only
  split <;> rfl

/-! ### FP32 forms (08 R209, R210) -/

/-- Settles O13: the rounding of a finite value is that of its number of steps, and each FP32 form is a lane function of one
exact operation and one rounding. -/
theorem vectorFloatResults : Obligations.VectorFloatResults := by
  unfold Obligations.VectorFloatResults
  refine ⟨fun f mode sat neg m e hf => ?_, fun f l md x fl b hl => ⟨srcNum_eq hl md b, fpResult_eq hl md x fl⟩,
    fun s w sw d a b => ?_⟩
  · intro low top q num den rest up n tooBig r max
    have steps : n = roundedSteps f e m mode neg := by
      cases mode <;> rfl
    have big : tooBig ↔ f.maxMag < roundedMag f e m mode neg := by
      rw [roundedMag, ← steps]
      rfl
    refine ⟨fun pos notBig => ?_, fun pos tooBig sat => ?_, fun pos tooBig sat => ?_,
      roundTo_zero f mode sat neg e, rfl, rfl⟩
    · have fits : roundedMag f e m mode neg ≤ f.maxMag := Nat.not_lt.mp (mt big.mpr notBig)
      have value : r = _ := roundTo_fits (Nat.ne_of_gt pos) sat fits
      rw [value, decodeFloat_roundedMag e hf mode neg (Nat.ne_of_gt pos) fits, ← steps]
      exact ⟨rfl, roundFlags_eq rest (top < 1 - (f.bias : Int))⟩
    · subst sat
      exact roundTo_beyond_sat (Nat.ne_of_gt pos) (big.mp tooBig)
    · subst sat
      have value : r = _ := roundTo_beyond (Nat.ne_of_gt pos) (big.mp tooBig)
      rw [value]
      exact ⟨rfl, overflowResult_eq f mode neg⟩
  · intro x y z p q lanes r
    exact ⟨givesWave rfl rfl rfl rfl, givesWave rfl rfl rfl rfl, givesWave rfl rfl rfl rfl, givesWave rfl rfl rfl rfl,
      givesWave rfl rfl rfl rfl, givesWave rfl rfl rfl rfl, givesWave rfl rfl rfl rfl, givesWave rfl rfl rfl rfl⟩

/-! ### Lanes made of sub-elements (01 R31; 06 R173; 08 R211) -/

section
variable (w : Nat) (f : Nat → Nat × Flags)

theorem packLane_lt (n : Nat) : (packLane w f n).1 < 2 ^ (w * n) := by
  induction n with
  | zero => simp [packLane]
  | succ n ih =>
    have top : (f n).1 % 2 ^ w < 2 ^ w := Nat.mod_lt _ (Nat.two_pow_pos _)
    calc (packLane w f n).1 + (f n).1 % 2 ^ w * 2 ^ (w * n)
        < 2 ^ (w * n) + (f n).1 % 2 ^ w * 2 ^ (w * n) := Nat.add_lt_add_right ih _
      _ = ((f n).1 % 2 ^ w + 1) * 2 ^ (w * n) := by rw [Nat.add_mul, Nat.one_mul, Nat.add_comm]
      _ ≤ 2 ^ w * 2 ^ (w * n) := Nat.mul_le_mul_right _ top
      _ = 2 ^ (w * (n + 1)) := by rw [← Nat.pow_add, Nat.mul_succ, Nat.add_comm]

/-- Each sub-element of a packed lane is its own result. -/
theorem packLane_part {n j : Nat} (hj : j < n) : (packLane w f n).1 / 2 ^ (w * j) % 2 ^ w = (f j).1 % 2 ^ w := by
  induction n with
  | zero => omega
  | succ n ih =>
    unfold packLane
    dsimp only
    obtain rfl | below : j = n ∨ j < n := by omega
    · rw [Nat.add_mul_div_right _ _ (Nat.two_pow_pos _), Nat.div_eq_of_lt (packLane_lt w f j), Nat.zero_add, Nat.mod_mod]
    · obtain ⟨k, rfl⟩ : ∃ k, n = j + 1 + k := ⟨n - (j + 1), by omega⟩
      have place : (f (j + 1 + k)).1 % 2 ^ w * 2 ^ (w * (j + 1 + k)) =
          2 ^ w * ((f (j + 1 + k)).1 % 2 ^ w * 2 ^ (w * k)) * 2 ^ (w * j) := by
        rw [Nat.mul_add, Nat.mul_add, Nat.mul_one, Nat.pow_add, Nat.pow_add]
        ac_rfl
      rw [place, Nat.add_mul_div_right _ _ (Nat.two_pow_pos _), Nat.add_mul_mod_self_left, ih below]

theorem packLane_flags (n : Nat) : (packLane w f n).2 = (List.range n).foldl (fun a k => a ||| (f k).2) flagNone := by
  induction n with
  | zero => rfl
  | succ n ih => rw [List.range_succ, List.foldl_append, ← ih]; rfl

variable {w} {n : Nat} (fits : w * n ≤ 32)
include fits

theorem packWord_part {j : Nat} (hj : j < n) : (packWord w n f).1.toNat / 2 ^ (w * j) % 2 ^ w = (f j).1 % 2 ^ w := by
  have small : (packLane w f n).1 < 2 ^ 32 := Nat.lt_of_lt_of_le (packLane_lt w f n) (Nat.pow_le_pow_right (by decide) fits)
  rw [packWord, BitVec.toNat_ofNat, Nat.mod_eq_of_lt small, packLane_part w f hj]

end

/-! ### Results fit their format -/

theorem special_lt {l : FloatFmt} (hl : l ∈ layouts) :
    (l.hasInf = true → l.maxMag + 1 < l.signBit) ∧ ∀ n, l.canonNaN = some n → n < l.signBit := by
  simp only [layouts, List.mem_cons, List.not_mem_nil, or_false] at hl
  rcases hl with rfl | rfl | rfl | rfl | rfl | rfl | rfl <;> decide

theorem overflowResult_lt {l : FloatFmt} (hl : l ∈ layouts) (mode : RoundMode) (neg : Bool) :
    overflowResult l mode neg < 2 * l.signBit := by
  obtain ⟨inf, nan⟩ := special_lt hl
  have largest := signed_lt neg (maxMag_lt hl)
  rw [overflowResult_eq]
  split
  · exact largest
  · split
    · exact signed_lt neg (inf ‹_›)
    · cases canon : l.canonNaN with
      | none => exact largest
      | some n => have := nan n canon; simp; omega

theorem roundTo_lt {l : FloatFmt} (hl : l ∈ layouts) (mode : RoundMode) (sat : Bool) (x : Machine.Num) :
    (roundTo l mode sat x).1 < 2 * l.signBit := by
  obtain ⟨inf, nan⟩ := special_lt hl
  have max := maxMag_lt hl
  have largest (neg : Bool) := signed_lt neg max
  cases x with
  | nan =>
    cases canon : l.canonNaN with
    | none => simp [roundTo, canon]; omega
    | some n => have := nan n canon; simp [roundTo, canon]; omega
  | inf neg =>
    unfold roundTo
    dsimp only
    split
    · exact largest neg
    · split
      · exact signed_lt neg (inf ‹_›)
      · cases canon : l.canonNaN with
        | none => exact largest neg
        | some n => have := nan n canon; dsimp only; omega
  | fin neg m e =>
    by_cases zero : m = 0
    · rw [zero, roundTo_zero]
      exact signed_lt neg (by omega)
    · rw [roundTo_fin l e mode sat neg zero]
      split
      · split
        · exact largest neg
        · exact overflowResult_lt hl mode neg
      · exact signed_lt neg (by omega)

theorem flushResult_lt {f : ElemFmt} {l : FloatFmt} (hl : f.float? = some l) {r : Nat × Flags} (ftz : Bool)
    (h : r.1 < 2 * l.signBit) : (flushResult f ftz r).1 < 2 * l.signBit := by
  rw [flushResult_eq hl]
  split
  · exact signed_lt _ (by omega)
  · exact h

/-- The floating-point formats of the packed forms. -/
theorem packed_layout {f : ElemFmt} (hf : f ∈ [ElemFmt.bf16, .fp16, .e4m3, .e5m2]) :
    f.width * (32 / f.width) = 32 ∧ ∃ l ∈ layouts, f.float? = some l ∧ 2 * l.signBit = 2 ^ f.width := by
  simp only [List.mem_cons, List.not_mem_nil, or_false] at hf
  rcases hf with rfl | rfl | rfl | rfl
  · exact ⟨rfl, .bf16, by decide, rfl, rfl⟩
  · exact ⟨rfl, .fp16, by decide, rfl, rfl⟩
  · exact ⟨rfl, .e4m3, by decide, rfl, rfl⟩
  · exact ⟨rfl, .e5m2, by decide, rfl, rfl⟩

/-- A packed lane of floating-point results. -/
theorem packWord_float {f : ElemFmt} (hf : f ∈ [ElemFmt.bf16, .fp16, .e4m3, .e5m2]) (md : Modes)
    (x : Nat → Machine.Num × Flags) {j : Nat} (hj : j < 32 / f.width) :
    (packWord f.width (32 / f.width) (fun k => fpResult f md (x k))).1.toNat / 2 ^ (f.width * j) % 2 ^ f.width =
        (fpResult f md (x j)).1 ∧
      (packWord f.width (32 / f.width) (fun k => fpResult f md (x k))).2 =
        (List.range (32 / f.width)).foldl (fun a k => a ||| (fpResult f md (x k)).2) flagNone := by
  obtain ⟨whole, l, hl, layout, size⟩ := packed_layout hf
  have fits : (fpResult f md (x j)).1 < 2 ^ f.width := by
    rw [← size, fpResult_rounds layout]
    exact flushResult_lt layout _ (roundTo_lt hl ..)
  exact ⟨by rw [packWord_part _ (Nat.le_of_eq whole) hj, Nat.mod_eq_of_lt fits], packLane_flags ..⟩

/-! ### Packed integers (01 R16; 08 R212) -/

theorem clampInt_eq {lo hi : Int} (h : lo ≤ hi) (v : Int) :
    clampInt lo hi v = (max lo (min hi v), flagIf (decide (v < lo ∨ hi < v)) flagSA) := by
  unfold clampInt
  split
  · rename_i below
    have clamped : max lo (min hi v) = lo := by omega
    rw [clamped]
    simp [flagIf, below]
  · split
    · rename_i notBelow above
      have clamped : max lo (min hi v) = hi := by omega
      rw [clamped]
      simp [flagIf, above]
    · rename_i notBelow notAbove
      have kept : max lo (min hi v) = v := by omega
      rw [kept]
      simp [flagIf, notBelow, notAbove]

/-- A whole number narrowed to 8 bits, wrapping or clamped to a range. -/
def narrow8 (sat : Bool) (lo hi v : Int) : Nat × Flags :=
  (((if sat then max lo (min hi v) else v) % 256).toNat, flagIf (sat && decide (v < lo ∨ hi < v)) flagSA)

theorem signedResult8 (sat : Bool) (v : Int) :
    ((signedResult 8 sat v).1.toNat, (signedResult 8 sat v).2) = narrow8 sat (-128) 127 v := by
  have lo : intMin 8 = -128 := rfl
  have hi : intMax 8 = 127 := rfl
  rw [signedResult, lo, hi, clampInt_eq (by decide)]
  cases sat <;> simp [narrow8, BitVec.toNat_ofInt, flagIf]

theorem unsignedResult8 (sat : Bool) (v : Int) :
    ((unsignedResult 8 sat v).1.toNat, (unsignedResult 8 sat v).2) = narrow8 sat 0 255 v := by
  rw [unsignedResult, clampInt_eq (by decide)]
  cases sat <;> simp [narrow8, BitVec.toNat_ofInt, flagIf]

theorem foldl_flagIf (c : Nat → Bool) (x : Flags) (n : Nat) :
    (List.range n).foldl (fun a k => a ||| flagIf (c k) x) flagNone = flagIf ((List.range n).any c) x := by
  induction n with
  | zero => rfl
  | succ n ih =>
    rw [List.range_succ, List.foldl_append, ih, List.any_append]
    cases (List.range n).any c <;> cases h : c n <;> simp [flagIf, h, flagNone]

theorem decodeInt_int8 {n : Nat} (h : n < 256) : decodeInt .int8 n = if 128 ≤ n then (n : Int) - 256 else n := by
  simp only [decodeInt, BitVec.toInt_ofNat', Int.bmod]
  split <;> split <;> omega

/-- The value of a byte of an integer format. -/
def byteValue (signed : Bool) (n : Nat) : Int := if signed ∧ 128 ≤ n then (n : Int) - 256 else n

theorem byteValue_signed {n : Nat} (h : n < 256) : decodeInt .int8 n = byteValue true n := by
  simp [decodeInt_int8 h, byteValue]

theorem packInt_eq (signed : Bool) (w : Wave) (g : Int → Int → Int) (x y : Word) :
    packInt signed w g x y = packWord 8 4 (fun j => narrow8 w.modes.sat (if signed then -128 else 0) (if signed then 127 else 255)
      (g (byteValue signed (x.toNat / 2 ^ (8 * j) % 256)) (byteValue signed (y.toNat / 2 ^ (8 * j) % 256)))) := by
  unfold packInt
  congr 1
  funext j
  have byte (v : Word) : subElem v 8 j < 256 := Nat.mod_lt _ (by decide)
  cases signed
  · exact unsignedResult8 _ _
  · rw [byteValue_signed (byte x), byteValue_signed (byte y)]
    exact signedResult8 _ _

/-! ### Dot products (01 R36; 08 R213) -/

/-- One step of a dot product, with the flags so far. -/
def dotFold (a : Nat × Flags) (p : Machine.Num × Machine.Num) : Nat × Flags :=
  ((dotStep a.1 p.1 p.2).1, a.2 ||| (dotStep a.1 p.1 p.2).2)

theorem foldl_dotFold (l : List (Machine.Num × Machine.Num)) (acc : Nat) (fl : Flags) :
    l.foldl dotFold (acc, fl) = ((dot acc l).1, fl ||| (dot acc l).2) := by
  induction l generalizing acc fl with
  | nil => simp [dot, flagNone]
  | cons p l ih =>
    rw [List.foldl_cons, dotFold, ih, BitVec.or_assoc]
    rfl

theorem dot_eq_foldl (acc : Nat) (l : List (Machine.Num × Machine.Num)) : dot acc l = l.foldl dotFold (acc, flagNone) := by
  rw [foldl_dotFold]
  simp [flagNone]

theorem dotInt8_eq (w : Wave) (x y z : Word) :
    dotInt8 w x y z = signedResult 32 w.modes.sat
      (z.toInt + decodeInt .int8 (x.toNat % 256) * decodeInt .int8 (y.toNat % 256) +
        decodeInt .int8 (x.toNat / 256 % 256) * decodeInt .int8 (y.toNat / 256 % 256) +
        decodeInt .int8 (x.toNat / 65536 % 256) * decodeInt .int8 (y.toNat / 65536 % 256) +
        decodeInt .int8 (x.toNat / 16777216 % 256) * decodeInt .int8 (y.toNat / 16777216 % 256)) := by
  simp [dotInt8, satI32, subElem, List.range_succ]

/-- Settles O14: a packed lane is made of the results of its sub-elements, a dot product is a fold over them. -/
theorem vectorPackedResults : Obligations.VectorPackedResults := by
  unfold Obligations.VectorPackedResults
  refine ⟨fun w f g x y z j hf hj => ?_, fun w signed g x y j hj => ?_, fun f x y c => ?_, fun s w sw d a b => ?_⟩
  · obtain ⟨part2, flags2⟩ := packWord_float hf w.modes (fun k => g w.modes.round (srcNum f w.modes (subElem x f.width k))
      (srcNum f w.modes (subElem y f.width k))) hj
    obtain ⟨part3, flags3⟩ := packWord_float hf w.modes (fun k => Machine.Num.fma w.modes.round
      (srcNum f w.modes (subElem x f.width k)) (srcNum f w.modes (subElem y f.width k))
      (srcNum f w.modes (subElem z f.width k))) hj
    exact ⟨part2, flags2, part3, flags3⟩
  · intro part value exact lo hi r
    have whole : packInt signed w g x y = packWord 8 4 (fun k => narrow8 w.modes.sat lo hi (exact k)) := packInt_eq signed w g x y
    have flags : (packInt signed w g x y).2 =
        flagIf ((List.range 4).any (fun k => w.modes.sat && decide (exact k < lo ∨ hi < exact k))) flagSA := by
      rw [whole, packWord, packLane_flags]
      exact foldl_flagIf _ _ _
    refine ⟨?_, fun inside => ?_, fun sat ⟨k, hk, outside⟩ => ?_⟩
    · have byte : ((r % 256).toNat) < 256 := by omega
      rw [whole]
      exact (packWord_part _ (by decide) hj).trans (Nat.mod_eq_of_lt byte)
    · have none : (List.range 4).any (fun k => w.modes.sat && decide (exact k < lo ∨ hi < exact k)) = false := by
        rw [List.any_eq_false]
        intro k hk
        rcases inside with wraps | fits
        · simp [wraps]
        · have := fits k (List.mem_range.mp hk)
          simp [this]
      rw [flags, none]
      rfl
    · have one : (List.range 4).any (fun k => w.modes.sat && decide (exact k < lo ∨ hi < exact k)) = true :=
        List.any_eq_true.mpr ⟨k, List.mem_range.mpr hk, by simp [sat, outside]⟩
      rw [flags, one]
      rfl
  · intro at_ step total
    rw [dotLane, dot_eq_foldl, List.foldl_map]
    rfl
  · exact ⟨givesWave rfl rfl rfl rfl, givesWave rfl rfl rfl rfl, givesWave rfl rfl rfl rfl, givesWave rfl rfl rfl rfl,
      givesWave rfl rfl rfl rfl, givesWave rfl rfl rfl rfl, givesWave rfl rfl rfl rfl, givesWave rfl rfl rfl rfl,
      givesWave rfl rfl rfl rfl, givesWave rfl rfl rfl rfl, givesWave rfl rfl rfl rfl, givesWave rfl rfl rfl rfl,
      givesWave rfl rfl rfl rfl, givesWave rfl rfl rfl rfl, givesWave rfl rfl rfl rfl,
      givesWave rfl rfl rfl (laneResult_congr fun _ => dotInt8_eq ..)⟩

/-! ### Conversions (01 R32 to R34; 08 R214) -/

section
variable {d f : ElemFmt} {md : Modes} {b : Nat}

theorem encodeInt_eq (d : ElemFmt) (v : Int) : encodeInt d v = (v % 2 ^ d.width).toNat := by
  simp [encodeInt]

theorem intLo_le_intHi (d : ElemFmt) : d.intLo ≤ d.intHi := by
  cases d <;> decide

theorem convert_int_int (hf : f.isInt = true) (hd : d.isInt = true) :
    convert d f md b = narrowInt d f md.sat (decodeInt f b) := by
  simp [convert, hf, hd]

theorem convert_int_float (hf : f.isInt = true) (hd : d.isInt = false) :
    convert d f md b = fpResult d md (Machine.Num.ofInt (decodeInt f b), flagNone) := by
  simp [convert, hf, hd]

theorem convert_float_int (hf : f.isInt = false) (hd : d.isInt = true) :
    convert d f md b = toInt d (md.mode.getD .rtz) (srcNum f md b) := by
  simp [convert, hf, hd]

theorem convert_float_float (hf : f.isInt = false) (hd : d.isInt = false) :
    convert d f md b = fpResult d { md with sat := md.sat && !widens d f } (srcNum f md b, flagNone) := by
  simp [convert, hf, hd]

theorem narrowInt_wraps {sat : Bool} (h : f.width < d.width ∨ sat = false) (v : Int) :
    narrowInt d f sat v = ((v % 2 ^ d.width).toNat, flagNone) := by
  unfold narrowInt
  rw [encodeInt_eq]
  split
  · rfl
  · rcases h with wider | rfl
    · contradiction
    · rfl

theorem narrowInt_clamps (h : d.width ≤ f.width) (v : Int) :
    narrowInt d f true v = ((max d.intLo (min d.intHi v) % 2 ^ d.width).toNat,
      if d.intLo ≤ v ∧ v ≤ d.intHi then flagNone else flagSA) := by
  simp only [narrowInt, Nat.not_lt.mpr h, if_false, if_true, clampInt_eq (intLo_le_intHi d), encodeInt_eq]
  by_cases inside : d.intLo ≤ v ∧ v ≤ d.intHi
  · rw [if_pos inside, flagIf, if_neg (by simp; omega)]
  · rw [if_neg inside, flagIf, if_pos (by simp; omega)]

/-- A finite value is rounded to a whole number, which saturates with NV. -/
theorem toInt_fin (d : ElemFmt) (mode : RoundMode) (neg : Bool) (m : Nat) (e : Int) :
    toInt d mode (.fin neg m e) =
      let num : Nat := m * 2 ^ e.toNat
      let den : Nat := 2 ^ (-e).toNat
      let k := roundQuot mode.near (mode.away neg) num den
      let y : Int := if neg then -(k : Int) else k
      if y < d.intLo then ((d.intLo % 2 ^ d.width).toNat, flagNV) else if d.intHi < y then ((d.intHi % 2 ^ d.width).toNat, flagNV)
      else ((y % 2 ^ d.width).toNat, if num % den = 0 then flagNone else flagNX) := by
  unfold toInt
  simp only [roundMag_eq _ _ (away_of_near (neg := neg)), encodeInt_eq, Int.sub_zero, Int.zero_sub, flagIf]
  by_cases exact : m * 2 ^ e.toNat % 2 ^ (-e).toNat = 0 <;> simp [exact]

theorem widens_iff : widens d f = true ↔
    (d = .fp32 ∧ (f = .bf16 ∨ f = .fp16)) ∨ ((d = .fp32 ∨ d = .fp16 ∨ d = .bf16) ∧ (f = .e4m3 ∨ f = .e5m2)) := by
  cases f <;> simp [widens, or_assoc]

end

/-! ### Blocks (01 R35; 08 R217) -/

theorem joinFlags_map {α : Type} (g : α → Nat × Flags) (xs : List α) :
    joinFlags (xs.map g) = (xs.map (fun x => (g x).1), xs.foldl (fun a x => a ||| (g x).2) flagNone) := by
  have values : (joinFlags (xs.map g)).1 = xs.map (fun x => (g x).1) := by
    induction xs with
    | nil => rfl
    | cons x xs ih => rw [List.map_cons, List.map_cons, ← ih]; rfl
  have collect (a : Flags) : xs.foldl (fun a x => a ||| (g x).2) a = a ||| (joinFlags (xs.map g)).2 := by
    clear values
    induction xs generalizing a with
    | nil => simp [joinFlags, flagNone]
    | cons x xs ih => rw [List.foldl_cons, ih, BitVec.or_assoc]; rfl
  refine Prod.ext values ?_
  simp [collect, flagNone]

/-- The largest exponent of a block is that of one of its values, and none is above it. -/
theorem amaxLog_spec (xs : List Machine.Num) :
    (amaxLog xs = none → ∀ x ∈ xs, x.log2? = none) ∧
    (∀ t, amaxLog xs = some t → (∃ x ∈ xs, x.log2? = some t) ∧ ∀ x ∈ xs, ∀ u, x.log2? = some u → u ≤ t) := by
  induction xs with
  | nil => simp [amaxLog]
  | cons x xs ih =>
    obtain ⟨none, some⟩ := ih
    unfold amaxLog
    cases hx : x.log2? with
    | none => grind
    | some a => cases hr : amaxLog xs <;> grind

theorem amaxLog_none {xs : List Machine.Num} (h : ∀ x ∈ xs, x.log2? = none) : amaxLog xs = none := by
  cases top : amaxLog xs with
  | none => rfl
  | some t =>
    obtain ⟨⟨x, hx, some⟩, -⟩ := (amaxLog_spec xs).2 t top
    cases (h x hx).symm.trans some

theorem amaxLog_some {xs : List Machine.Num} {t : Int} (h : ∃ x ∈ xs, x.log2? = some t)
    (most : ∀ x ∈ xs, ∀ u, x.log2? = some u → u ≤ t) : amaxLog xs = some t := by
  obtain ⟨x, hx, some⟩ := h
  cases top : amaxLog xs with
  | none => cases ((amaxLog_spec xs).1 top x hx).symm.trans some
  | some v =>
    obtain ⟨⟨y, hy, is⟩, above⟩ := (amaxLog_spec xs).2 v top
    rw [Int.le_antisymm (most y hy v is) (above x hx t some)]

theorem clampScale_eq (v : Int) : (clampScale v : Int) = max 0 (min 254 v) := by
  unfold clampScale
  split
  · omega
  · split <;> omega

/-- The scale byte of a block whose largest value has the exponent `top`, if it has one, for an element format of the largest
exponent `emax`. -/
def blockScale (top : Option Int) (emax : Int) : Nat :=
  match top with
  | none => 0
  | some t => clampScale (t - emax + 127)

theorem blockScale_zero {xs : List Machine.Num} (h : ∀ x ∈ xs, x.log2? = none) (emax : Int) :
    blockScale (amaxLog xs) emax = 0 := by
  rw [amaxLog_none h]
  rfl

theorem blockScale_top {xs : List Machine.Num} {t : Int} (h : ∃ x ∈ xs, x.log2? = some t)
    (most : ∀ x ∈ xs, ∀ u, x.log2? = some u → u ≤ t) (emax : Int) :
    (blockScale (amaxLog xs) emax : Int) = max 0 (min 254 (t - emax + 127)) := by
  rw [amaxLog_some h most]
  exact clampScale_eq _

section
variable {f : ElemFmt} {mode : RoundMode} {xs : List Machine.Num}

/-- A block with a value that is not finite has the scale bytes 0xFF and no element but zeros. -/
theorem quantBlock_special (h : ∃ x ∈ xs, x.isFin = false) :
    quantBlock f mode xs = (xs.map (fun x => blockZero f x.neg), List.replicate f.scaleBytes 0xFF, flagNone) := by
  have special : ¬ xs.all Machine.Num.isFin = true := by
    obtain ⟨x, hx, notFin⟩ := h
    simpa using ⟨x, hx, notFin⟩
  unfold quantBlock
  rw [if_neg special]

theorem quantBlock_dx (h : ∀ x ∈ xs, x.isFin = true) (hf : f.isDx = true) :
    let ea := blockScale (amaxLog xs) 0
    let eb := ea - (if f = .dx8 then 5 else 2)
    quantBlock f mode xs = (xs.map (fun x => (quantDx (decide (f = .dx8)) mode ea eb x).1), [ea, eb],
      xs.foldl (fun a x => a ||| (quantDx (decide (f = .dx8)) mode ea eb x).2) flagNone) := by
  unfold quantBlock
  rw [if_pos (List.all_eq_true.mpr h), if_pos hf]
  simp only [joinFlags_map]
  cases amaxLog xs <;> simp [blockScale]

/-- The largest exponent of the elements of an MX format (01 R35). -/
def emaxOf (f : ElemFmt) : Int := if f = .mxe4m3 then 8 else if f = .mxe5m2 then 15 else 2

theorem quantBlock_mx (h : ∀ x ∈ xs, x.isFin = true) {l : FloatFmt}
    (hf : (f, l) ∈ [(ElemFmt.mxe4m3, FloatFmt.e4m3), (.mxe5m2, .e5m2), (.mxfp4, .e2m1)]) :
    let sc := blockScale (amaxLog xs) (emaxOf f)
    quantBlock f mode xs = (xs.map (fun x => (roundTo l mode true (x.scale (127 - (sc : Int)))).1), [sc],
      xs.foldl (fun a x => a ||| (roundTo l mode true (x.scale (127 - (sc : Int)))).2) flagNone) := by
  simp only [List.mem_cons, List.not_mem_nil, or_false, Prod.mk.injEq] at hf
  unfold quantBlock
  rw [if_pos (List.all_eq_true.mpr h)]
  rcases hf with ⟨rfl, rfl⟩ | ⟨rfl, rfl⟩ | ⟨rfl, rfl⟩
  all_goals
    simp only [ElemFmt.isDx, Bool.false_eq_true, if_false, ElemFmt.float?, joinFlags_map]
    rfl

end

/-- A DX element takes the finer scale where its rounded magnitude fits, else the coarser one, else the largest magnitude. -/
theorem quantDx_fin (dx8 neg : Bool) (mode : RoundMode) (ea eb m : Nat) (e : Int) :
    let top : Nat := if dx8 then 63 else 3
    let sel : Nat := if dx8 then 128 else 8
    let sign : Nat := if neg then sel / 2 else 0
    let rounded (sc : Nat) : Nat × Bool :=
      roundMag mode.near (decide (mode = .rup)) m (e + (if dx8 then 5 else 1) - ((sc : Int) - 127)) 0
    quantDx dx8 mode ea eb (.fin neg m e) =
      if (rounded eb).1 ≤ top then (sel + sign + (rounded eb).1, flagIf (rounded eb).2 flagNX)
      else if top < (rounded ea).1 then (sign + top, flagSA ||| flagNX)
      else (sign + (rounded ea).1, flagIf (rounded ea).2 flagNX) := by
  cases dx8 <;> rfl

/-- Settles O15: the conversions by the kinds of their two formats, the blocks by whether their values are finite and by the kind
of their format, the words form by form. -/
theorem vectorConversionResults : Obligations.VectorConversionResults := by
  unfold Obligations.VectorConversionResults
  refine ⟨fun d f md b => ⟨fun hf hd => ?_, convert_int_float, fun hf hd => ?_, fun hf hd => ?_⟩,
    fun f mode xs => ⟨fun special => ?_, fun fin => ⟨fun l hl => ?_, fun hf => ?_⟩⟩,
    fun dx8 neg mode ea eb m e => ?_, fun s w sw d a f g => ?_⟩
  · rw [convert_int_int hf hd]
    exact ⟨fun h => narrowInt_wraps h _, fun h sat => sat ▸ narrowInt_clamps h _⟩
  · rw [convert_float_int hf hd]
    refine ⟨fun nan => by rw [nan]; rfl, fun neg inf => by rw [inf, ← encodeInt_eq]; rfl, fun neg m e fin => ?_⟩
    rw [fin, toInt_fin]
    cases md.mode.getD .rtz <;> rfl
  · rw [convert_float_float hf hd]
    refine ⟨fun wider => ?_, fun notWider => ?_⟩
    · rw [widens_iff.mpr wider, Bool.not_true, Bool.and_false]
    · rw [Bool.eq_false_iff.mpr (mt widens_iff.mp notWider), Bool.not_false, Bool.and_true]
  · rw [quantBlock_special special]
    exact ⟨rfl, rfl, rfl⟩
  · rw [quantBlock_mx fin hl]
    exact ⟨_, rfl, rfl, rfl, fun h => blockScale_zero h _, fun t h most => blockScale_top h most _⟩
  · have dx : f.isDx = true := by rcases hf with rfl | rfl <;> rfl
    rw [quantBlock_dx fin dx]
    refine ⟨_, rfl, rfl, rfl, fun h => blockScale_zero h _, fun t h most => ?_⟩
    rw [blockScale_top h most, Int.sub_zero]
  · intro top sel sign rounded z
    have value : z = _ := quantDx_fin dx8 neg mode ea eb m e
    refine ⟨fun fine => ?_, fun notFine coarse => ?_, fun notFine notCoarse => ?_⟩
    · rw [value, if_pos fine]; rfl
    · rw [value, if_neg (Nat.not_le.mpr notFine), if_neg (Nat.not_lt.mpr coarse)]; rfl
    · rw [value, if_neg (Nat.not_le.mpr notFine), if_pos notCoarse]
  · intro one blocks special
    refine ⟨givesWave rfl rfl rfl (laneResult_congr fun l => ?_), givesWave rfl rfl rfl rfl, givesWave rfl rfl rfl rfl,
      fun none => givesWave rfl rfl rfl (if_pos none), fun some => givesWave rfl rfl rfl (if_neg some),
      givesWave rfl rfl rfl rfl, givesWave rfl rfl rfl rfl, givesWave rfl rfl rfl rfl, givesWave rfl rfl rfl rfl,
      givesWave rfl rfl rfl rfl, givesWave rfl rfl rfl rfl, givesWave rfl rfl rfl rfl, givesWave rfl rfl rfl rfl⟩
    rw [subElem, Nat.mul_zero, Nat.pow_zero, Nat.div_one]

/-! ### Accumulating over the active lanes (08 R225) -/

/-- An accumulation with its flags: the lanes taken in after the value `x`. -/
def accFold (op : Word → Word → Word × Flags) (v : Nat → Word) (x : Word) (ls : List Nat) : Word × Flags :=
  ls.foldl (fun y j => ((op y.1 (v j)).1, y.2 ||| (op y.1 (v j)).2)) (x, flagNone)

section
variable (op : Word → Word → Word × Flags) (v : Nat → Word)

theorem foldl_accFold (ls : List Nat) (x : Word) (fl : Flags) :
    ls.foldl (fun y j => ((op y.1 (v j)).1, y.2 ||| (op y.1 (v j)).2)) (x, fl) =
      ((accFold op v x ls).1, fl ||| (accFold op v x ls).2) := by
  unfold accFold
  induction ls generalizing x fl with
  | nil => simp [flagNone]
  | cons l ls ih =>
    simp only [List.foldl_cons]
    rw [ih, ih _ (flagNone ||| _)]
    simp [flagNone, BitVec.or_assoc]

theorem accFold_cons (x : Word) (l : Nat) (ls : List Nat) :
    accFold op v x (l :: ls) = ((accFold op v (op x (v l)).1 ls).1, (op x (v l)).2 ||| (accFold op v (op x (v l)).1 ls).2) := by
  rw [accFold, List.foldl_cons, foldl_accFold]
  simp [flagNone]

theorem scanVals_flags (ls : List Nat) (x : Word) : (scanVals op v ls x).2 = (accFold op v x ls).2 := by
  induction ls generalizing x with
  | nil => rfl
  | cons l ls ih =>
    rw [accFold_cons, ← ih]
    rfl

/-- The last value takes in every lane. -/
theorem getLast?_scanVals (ls : List Nat) (first : Nat) (x : Word) :
    (((first, x) :: (scanVals op v ls x).1).getLast?).map Prod.snd = some (accFold op v x ls).1 := by
  induction ls generalizing first x with
  | nil => rfl
  | cons l ls ih =>
    rw [accFold_cons, ← ih l]
    simp [scanVals, List.getLast?_cons_cons]

/-- The value at a lane takes in the lanes up to it. -/
theorem lookupSorted_scanVals {ls : List Nat} {first : Nat} (x : Word) (sorted : (first :: ls).Pairwise (· < ·)) {j l : Nat}
    (here : (first :: ls)[j]? = some l) :
    lookupSorted l ((first, x) :: (scanVals op v ls x).1) = some (accFold op v x (ls.take j)).1 := by
  induction ls generalizing first x j with
  | nil =>
    cases j with
    | zero =>
      cases here
      simp [lookupSorted, accFold]
    | succ j => cases here
  | cons k ls ih =>
    rw [List.pairwise_cons] at sorted
    obtain ⟨least, sorted⟩ := sorted
    cases j with
    | zero =>
      cases here
      simp [lookupSorted, accFold]
    | succ j =>
      have above : first < l := least l (List.mem_of_getElem? here)
      rw [List.take_succ_cons, accFold_cons, lookupSorted, if_neg (by omega), if_neg (by omega)]
      exact ih _ sorted here

end

section
variable {w : Wave} {d a : BitVec 8} {op : Word → Word → Word × Flags} {first : Nat} {rest : List Nat}

theorem activeLanes_sorted (w : Wave) : w.activeLanes.Pairwise (· < ·) := List.pairwise_lt_range.filter _

theorem mem_activeLanes {l : Nat} : l ∈ w.activeLanes ↔ l < 32 ∧ w.active l = true := by
  simp [Wave.activeLanes]

theorem reduce_eq (h : w.activeLanes = first :: rest) :
    reduce d a op w = (w.writeLanes d.toNat (w.m 0) Side.none (fun _ =>
      (accFold op (w.v a.toNat) (w.v a.toNat first) rest).1)).orFlags
        (accFold op (w.v a.toNat) (w.v a.toNat first) rest).2 := by
  have last := getLast?_scanVals op (w.v a.toNat) rest first (w.v a.toNat first)
  obtain ⟨p, hp, value⟩ := Option.map_eq_some_iff.mp last
  simp only [reduce, Wave.accumulate, h, hp, value, scanVals_flags]

theorem scan_eq (h : w.activeLanes = first :: rest) :
    scan d a op w = (w.writeLanes d.toNat (w.m 0) Side.none (fun l => (lookupSorted l
      ((first, w.v a.toNat first) :: (scanVals op (w.v a.toNat) rest (w.v a.toNat first)).1)).getD 0#32)).orFlags
        (accFold op (w.v a.toNat) (w.v a.toNat first) rest).2 := by
  simp only [scan, Wave.accumulate, h, scanVals_flags]

variable (hd : d.toNat < w.vregs.length) (h : w.activeLanes = first :: rest)
include hd h

theorem reduce_active {l : Nat} (hl : l ∈ w.activeLanes) :
    (reduce d a op w).v d.toNat l = (accFold op (w.v a.toNat) (w.v a.toNat first) rest).1 := by
  obtain ⟨lane, active⟩ := mem_activeLanes.mp hl
  rw [reduce_eq h, v_orFlags, v_writeLanes _ _ _ hd lane]
  exact if_pos active

theorem scan_active {j l : Nat} (hl : w.activeLanes[j]? = some l) :
    (scan d a op w).v d.toNat l = (accFold op (w.v a.toNat) (w.v a.toNat first) (rest.take j)).1 := by
  obtain ⟨lane, active⟩ := mem_activeLanes.mp (List.mem_of_getElem? hl)
  rw [scan_eq h, v_orFlags, v_writeLanes _ _ _ hd lane, lookupSorted_scanVals op _ _ (h ▸ activeLanes_sorted w) (h ▸ hl)]
  exact if_pos active

theorem reduce_scan_inactive {l : Nat} (lane : l < 32) (off : w.active l = false) :
    (reduce d a op w).v d.toNat l = w.v d.toNat l ∧ (scan d a op w).v d.toNat l = w.v d.toNat l := by
  have off' : ¬ (w.m 0).getLsbD l = true := Bool.eq_false_iff.mp off
  rw [reduce_eq h, scan_eq h, v_orFlags, v_orFlags, v_writeLanes _ _ _ hd lane, v_writeLanes _ _ _ hd lane]
  exact ⟨if_neg off', if_neg off'⟩

end

/-! ### Integer sums (08 R225) -/

/-- The sum of lanes modulo 2^32. -/
theorem accFold_add (v : Nat → Word) (first : Nat) (ls : List Nat) :
    (accFold (plainStep (· + ·)) v (v first) ls).1 = ((first :: ls).map v).foldl (· + ·) 0#32 := by
  have general (x : Word) : (accFold (plainStep (· + ·)) v x ls).1 = (ls.map v).foldl (· + ·) x := by
    induction ls generalizing x with
    | nil => rfl
    | cons l ls ih => rw [accFold_cons, ih]; rfl
  rw [general, List.map_cons, List.foldl_cons, BitVec.zero_add]

/-- The lanes up to one of a rising list are the first of it. -/
theorem filter_le_eq_take {ls : List Nat} (sorted : ls.Pairwise (· < ·)) {j l : Nat} (here : ls[j]? = some l) :
    ls.filter (fun k => decide (k ≤ l)) = ls.take (j + 1) := by
  induction ls generalizing j with
  | nil => simp at here
  | cons k ls ih =>
    rw [List.pairwise_cons] at sorted
    obtain ⟨least, sorted⟩ := sorted
    cases j with
    | zero =>
      cases here
      simpa using least
    | succ j =>
      have above : k < l := least l (List.mem_of_getElem? here)
      rw [List.filter_cons_of_pos (by simp; omega), ih sorted here, List.take_succ_cons]

theorem sum_active {w : Wave} {d a : BitVec 8} {l : Nat} (hd : d.toNat < w.vregs.length) (lane : l < 32)
    (active : w.active l = true) :
    (reduce d a (plainStep (· + ·)) w).v d.toNat l = (w.activeLanes.map (w.v a.toNat)).foldl (· + ·) 0#32 ∧
    (scan d a (plainStep (· + ·)) w).v d.toNat l =
      ((w.activeLanes.filter (fun j => decide (j ≤ l))).map (w.v a.toNat)).foldl (· + ·) 0#32 := by
  have here : l ∈ w.activeLanes := mem_activeLanes.mpr ⟨lane, active⟩
  obtain ⟨j, hj⟩ := List.mem_iff_getElem?.mp here
  obtain ⟨first, rest, h⟩ := List.exists_cons_of_ne_nil (List.ne_nil_of_mem here)
  rw [filter_le_eq_take (activeLanes_sorted w) hj, reduce_active hd h here, scan_active hd h hj, accFold_add, accFold_add, h,
    List.take_succ_cons]
  exact ⟨rfl, rfl⟩

/-- Settles O18: the reductions and scans are the accumulation over the active lanes, which rise in the list of them. -/
theorem crossLaneResults : Obligations.CrossLaneResults := by
  unfold Obligations.CrossLaneResults
  intro s w sw d a k p q r n red scn
  refine ⟨givesWave rfl rfl rfl (laneResult_congr fun l => ?_), givesWave rfl rfl rfl rfl, givesWave rfl rfl rfl rfl,
    givesWave rfl rfl rfl rfl, givesWave rfl rfl rfl rfl, givesWave rfl rfl rfl rfl, givesWave rfl rfl rfl rfl,
    givesWave rfl rfl rfl rfl, givesWave rfl rfl rfl rfl, givesWave rfl rfl rfl rfl, givesWave rfl rfl rfl rfl,
    givesWave rfl rfl rfl rfl, givesWave rfl rfl rfl rfl, givesWave rfl rfl rfl rfl, givesWave rfl rfl rfl rfl,
    fun l => sum_active, fun op first rest hd h => ⟨fun l => reduce_active hd h, fun j l => scan_active hd h,
      fun l => reduce_scan_inactive hd h, ?_, ?_⟩, rfl, fun _ _ => rfl⟩
  · simp only [Bool.and_eq_true, decide_eq_true_eq]
  · rw [reduce_eq h, fpflags_orFlags, fpflags_writeLanes]
    rfl
  · rw [scan_eq h, fpflags_orFlags, fpflags_writeLanes]
    rfl

/-! ### The frame of a word that acts on registers of its own wave (08 R205, R206, R221; 11 R268, R272) -/

section
variable {w x y : Wave} {dst : List RegRef} {ms : List Nat} {tie : Bool} {n : Nat}

theorem keptBut_trans (h : w.KeptBut x dst ms tie) (h' : x.KeptBut y dst ms tie) : w.KeptBut y dst ms tie where
  scalar n hn := (h'.scalar n hn).trans (h.scalar n hn)
  vector n hn := (h'.vector n hn).trans (h.vector n hn)
  hyper n hn := (h'.hyper n hn).trans (h.hyper n hn)
  bundle n hn := (h'.bundle n hn).trans (h.bundle n hn)
  mask n hn := (h'.mask n hn).trans (h.mask n hn)
  generator ht := (h'.generator ht).trans (h.generator ht)
  raised := by
    obtain ⟨f, hf⟩ := h.raised
    obtain ⟨g, hg⟩ := h'.raised
    exact ⟨f ||| g, by rw [hg, hf, BitVec.or_assoc]⟩
  special := h'.special.trans h.special
  handler := ⟨h'.handler.1.trans h.handler.1, h'.handler.2.trans h.handler.2⟩
  memory := by
    obtain ⟨pend, atoms, own, due⟩ := h.memory
    obtain ⟨pend', atoms', own', due'⟩ := h'.memory
    exact ⟨pend'.trans pend, atoms'.trans atoms, own'.trans own, due'.trans due⟩
  mirror := h'.mirror.trans h.mirror
  place := h'.place.trans h.place

theorem keptBut_setVreg (hn : .v n ∈ dst) (v : VReg) : w.KeptBut (w.setVreg n v) dst ms tie :=
  { keptBut_refl w dst ms tie with vector := fun _ hk => vreg_setVreg_other v fun h => hk (h ▸ hn) }

theorem hv_setHv_other {k : Nat} (v : Hyper) (h : k ≠ n) : (w.setHv n v).hv k = w.hv k := by
  simp [Wave.hv, Wave.setHv, Wave.setHvLines, List.getElem?_set_ne h.symm]

theorem ba_setBa_other {k : Nat} (v : Bundle) (h : k ≠ n) : (w.setBa n v).ba k = w.ba k := by
  simp [Wave.ba, Wave.setBa, Wave.setBaLines, List.getElem?_set_ne h.symm]

theorem keptBut_setHv (hn : .h n ∈ dst) (v : Hyper) : w.KeptBut (w.setHv n v) dst ms tie :=
  { keptBut_refl w dst ms tie with hyper := fun _ hk => hv_setHv_other v fun h => hk (h ▸ hn) }

theorem keptBut_setBa (hn : .b n ∈ dst) (v : Bundle) : w.KeptBut (w.setBa n v) dst ms tie :=
  { keptBut_refl w dst ms tie with bundle := fun _ hk => ba_setBa_other v fun h => hk (h ▸ hn) }

theorem keptBut_setTie (w : Wave) (t : DWord) : w.KeptBut { w with hvtie := t } dst ms true :=
  { keptBut_refl w dst ms true with generator := nofun }

theorem keptBut_orFlags (w : Wave) (f : Flags) : w.KeptBut (w.orFlags f) dst ms tie :=
  { keptBut_refl w dst ms tie with raised := ⟨f, rfl⟩ }

theorem keptBut_addOut (w : Wave) (o : Out) : w.KeptBut (w.addOut o) dst ms tie := by
  unfold Wave.addOut
  split
  · exact keptBut_refl ..
  · exact keptBut_refl ..
  · exact { keptBut_refl w dst ms tie with }

theorem keptBut_writeLanes (hn : .v n ∈ dst) (mask : Word) (side : Side) (f : Nat → Word) :
    w.KeptBut (w.writeLanes n mask side f) dst ms tie := by
  unfold Wave.writeLanes
  split
  · exact keptBut_refl ..
  · exact keptBut_setVreg hn _

/-- Lanes and flags together. -/
theorem keptBut_lanes (hn : .v n ∈ dst) (mask : Word) (side : Side) (f : Nat → Word) (fl : Flags) :
    w.KeptBut ((w.writeLanes n mask side f).orFlags fl) dst ms tie :=
  keptBut_trans (keptBut_writeLanes hn ..) (keptBut_orFlags ..)

end

section
variable {w : Wave} {d a : BitVec 8} {dst : List RegRef} {ms : List Nat} {tie : Bool}

theorem mem_vregs {k n : Nat} (h : k < n) : .v (d.toNat + k) ∈ vregs d n :=
  List.mem_map.mpr ⟨k, List.mem_range.mpr h, rfl⟩

theorem keptBut_unpackRegs (src : Wave) (f g : ElemFmt) (n : Nat) (h : ∀ k, k < n → .v (d.toNat + k) ∈ dst) :
    w.KeptBut (unpackRegs src d a f g n w) dst ms tie := by
  induction n with
  | zero => exact keptBut_refl ..
  | succ n ih => exact keptBut_trans (ih fun k hk => h k (by omega)) (keptBut_lanes (h n (by omega)) ..)

theorem keptBut_dequantRegs (src : VReg) (f : ElemFmt) (n : Nat) (h : ∀ k, k < n → .v (d.toNat + k) ∈ dst) :
    w.KeptBut (dequantRegs src f d n w) dst ms tie := by
  induction n with
  | zero => exact keptBut_refl ..
  | succ n ih => exact keptBut_trans (ih fun k hk => h k (by omega)) (keptBut_lanes (h n (by omega)) ..)

end

section
variable {s : State} {w : Wave} {i : Instr} {f : Form} {g : Wave → Wave} {n : Nat}

theorem frame_onWave (hf : issueForm i = some f) (he : exec i s = s.onWave i f g)
    (kept : w.KeptBut (g w) f.dst (maskDst i) (tieDst i)) : s.RegisterFrame w i := by
  intro ready
  have here : (s.became f.sw (g w)).waves[s.cur]? = some ((g w).advance.issued f.sw) := by
    rw [State.became, modWave_get, ready.1]
    rfl
  have only : s.OnlyWave (s.became f.sw (g w)) :=
    ⟨rfl, fun k hk => modWave_get_other s s.cur k _ hk.symm, fun _ => rfl⟩
  rw [← regDst_eq hf] at kept
  exact ⟨_, gives_onWave hf he ready, only, _, here, keptBut_moved kept ..⟩

/-- A word that writes lanes of one vector register, and raises flags. -/
theorem frame_lanes {mask : Word} {side : Side} {v : Nat → Word} {fl : Flags} (hf : issueForm i = some f)
    (he : exec i s = s.onWave i f g) (hd : f.dst = [.v n]) (hg : g w = (w.writeLanes n mask side v).orFlags fl) :
    s.RegisterFrame w i :=
  frame_onWave hf he (hg ▸ keptBut_lanes (hd ▸ List.mem_singleton_self _) ..)

/-- A word whose lanes are a variable-latency result. -/
theorem frame_out {o : Out} {fl : Flags} (hf : issueForm i = some f) (he : exec i s = s.onWave i f g)
    (hg : g w = (w.addOut o).orFlags fl) : s.RegisterFrame w i :=
  frame_onWave hf he (hg ▸ keptBut_trans (keptBut_addOut ..) (keptBut_orFlags ..))

theorem frame_hyper {v : Hyper} (hf : issueForm i = some f) (he : exec i s = s.onWave i f g) (hd : f.dst = [.h n])
    (hg : g w = w.setHv n v) : s.RegisterFrame w i :=
  frame_onWave hf he (hg ▸ keptBut_setHv (hd ▸ List.mem_singleton_self _) _)

theorem frame_bundle {v : Bundle} (hf : issueForm i = some f) (he : exec i s = s.onWave i f g) (hd : f.dst = [.b n])
    (hg : g w = w.setBa n v) : s.RegisterFrame w i :=
  frame_onWave hf he (hg ▸ keptBut_setBa (hd ▸ List.mem_singleton_self _) _)

/-- A word that advances the generator as well. -/
theorem frame_hyper_tie {v : Hyper} {t : DWord} (hf : issueForm i = some f) (he : exec i s = s.onWave i f g)
    (hd : f.dst = [.h n]) (ht : tieDst i = true) (hg : g w = { w.setHv n v with hvtie := t }) : s.RegisterFrame w i := by
  refine frame_onWave hf he ?_
  rw [ht, hg]
  exact keptBut_trans (keptBut_setHv (hd ▸ List.mem_singleton_self _) v) (keptBut_setTie ..)

end

section
variable (s : State) (w : Wave) (sw : BitVec 1) (d a : BitVec 8) (f g : BitVec 4) (p q : BitVec 6)

theorem frame_vmov : s.RegisterFrame w (.vmov sw d a) :=
  frame_onWave rfl rfl (keptBut_writeLanes (List.mem_singleton_self _) ..)

theorem frame_vcvtxp : s.RegisterFrame w (.vcvtxp sw d a f g) :=
  frame_onWave rfl rfl (keptBut_unpackRegs _ _ _ _ fun _ => mem_vregs)

theorem frame_vqblk : s.RegisterFrame w (.vqblk sw d a f) := by
  refine frame_onWave rfl rfl ?_
  dsimp only
  split
  · exact keptBut_refl ..
  · exact keptBut_lanes (List.mem_singleton_self _) ..

theorem frame_vdqblk : s.RegisterFrame w (.vdqblk sw d a f) :=
  frame_onWave rfl rfl (keptBut_dequantRegs _ _ _ fun _ => mem_vregs)

theorem frame_vwrlane : s.RegisterFrame w (.vwrlane sw d p q) := by
  refine frame_onWave rfl rfl ?_
  dsimp only
  split
  · exact keptBut_writeLanes (List.mem_singleton_self _) ..
  · exact keptBut_refl ..

end

/-- Settles O46, by what each word changes: lanes of a vector register, several registers, a result under way, a mask, a scalar
register, a hypervector or a bundle accumulator, the generator. -/
theorem vectorFrame : Obligations.VectorFrame := by
  unfold Obligations.VectorFrame
  intro s w sw d a b k p q f g u x y z
  simp only [List.forall_mem_cons]
  -- integer and bit forms; floating point, packed, dot products and the conversions to one register
  iterate 15 refine ⟨frame_lanes rfl rfl rfl rfl, ?_⟩
  refine ⟨frame_vmov s w sw d a, ?_⟩
  iterate 29 refine ⟨frame_lanes rfl rfl rfl rfl, ?_⟩
  refine ⟨frame_vcvtxp s w sw d a f g, frame_vqblk s w sw d a f, frame_vdqblk s w sw d a f, ?_⟩
  -- special functions, comparisons
  iterate 7 refine ⟨frame_out rfl rfl rfl, ?_⟩
  iterate 11 refine ⟨(framed_setM rfl rfl rfl rfl).1, ?_⟩
  -- cross-lane forms and lane moves
  iterate 12 refine ⟨frame_lanes rfl rfl rfl rfl, ?_⟩
  refine ⟨(framed_setS rfl rfl rfl rfl).1, frame_vwrlane s w sw d p q, frame_lanes rfl rfl rfl rfl, ?_⟩
  -- hypervector forms
  exact ⟨frame_hyper rfl rfl rfl rfl, frame_hyper rfl rfl rfl rfl, frame_hyper rfl rfl rfl rfl, frame_bundle rfl rfl rfl rfl,
    frame_bundle rfl rfl rfl rfl, frame_hyper_tie rfl rfl rfl rfl rfl, frame_bundle rfl rfl rfl rfl,
    frame_hyper_tie rfl rfl rfl rfl rfl, frame_hyper rfl rfl rfl rfl, (framed_setS rfl rfl rfl rfl).1,
    frame_onWave rfl rfl (keptBut_setTie ..), (framed_setS rfl rfl rfl rfl).1, (framed_setS rfl rfl rfl rfl).1, nofun⟩

end Sys2Proof.VectorForms

/-! PROOFS of 09_memory_sync_instructions: new values and units of atomics (O27, O26), what reading leaves alone (O47), PHASE (O28),
barrier words (O29), the effect of an atomic access (O48), loads and the checks of an access (O21). -/

namespace Sys2Proof.MemorySync

open Sys2Proof Sys2Proof.Machine Sys2Proof.Laws

/-! ### The meanings of the words -/

section
variable (s : State) (sw : BitVec 1) (c : BitVec 3) (a b : BitVec 6)

theorem exec_phase : exec (.phase sw c) s = execPhase sw c s := rfl
theorem exec_barInit : exec (.barInit sw a b) s = execBarInit sw a b s := rfl
theorem exec_barArrive : exec (.barArrive sw a) s = execBarArrive sw a s := rfl
theorem exec_barWait : exec (.barWait sw a b) s = execBarWait sw a b s := rfl

end

/-! ### New values of atomics (09 R237) -/

section
variable (op : AtomOp) (old : DWord) (x : AtomAccess)

/-- A wide atomic works on the location and its operands as they are. -/
theorem atomResult_wide : atomResult op true old x = atomNew op 64 old x.operand x.repl := rfl

/-- A narrow atomic works on the low halves, and its result is extended by zeros. -/
theorem atomResult_narrow : atomResult op false old x =
    (atomNew op 32 (old.setWidth 32) (x.operand.setWidth 32) (x.repl.setWidth 32)).setWidth 64 := rfl

/-- Every atomic but ACAS writes its location. -/
theorem atomWrites_of_ne_cas (h : op ≠ .cas) (wide : Bool) : atomWrites op wide old x = true := by
  cases op with
  | cas => exact absurd rfl h
  | _ => rfl

theorem atomWrites_cas_wide : atomWrites .cas true old x = true ↔ old = x.operand := decide_eq_true_iff

theorem atomWrites_cas_narrow : atomWrites .cas false old x = true ↔ old.setWidth 32 = x.operand.setWidth 32 :=
  decide_eq_true_iff

end

section
variable {n : Nat} (m v r : BitVec n)

theorem atomNew_min : atomNew .min n m v r = if v.toInt < m.toInt then v else m := by
  simp only [atomNew, BitVec.slt, decide_eq_true_eq]

theorem atomNew_max : atomNew .max n m v r = if m.toInt < v.toInt then v else m := by
  simp only [atomNew, BitVec.slt, decide_eq_true_eq]

theorem atomNew_minu : atomNew .minu n m v r = if v.toNat < m.toNat then v else m := rfl

theorem atomNew_maxu : atomNew .maxu n m v r = if m.toNat < v.toNat then v else m := rfl

end

/-- Settles O27: the order comparisons by `atomNew_min` to `atomNew_maxu`, the other rows as the operation stands. -/
theorem atomicNewValues : Obligations.AtomicNewValues := by
  unfold Obligations.AtomicNewValues
  intro old x
  refine ⟨rfl, rfl, rfl, rfl, rfl, rfl, rfl, rfl, rfl, ?_, ?_, ?_, ?_, rfl, rfl, rfl, rfl, rfl, rfl, rfl, rfl,
    fun op wide h => atomWrites_of_ne_cas op old x h wide, atomWrites_cas_wide old x, atomWrites_cas_narrow old x⟩
  · rw [atomResult_wide, atomNew_min]
  · rw [atomResult_narrow, atomNew_min]
  · rw [atomResult_wide, atomNew_max]
  · rw [atomResult_narrow, atomNew_max]

/-! ### Atomics go to their units (09 R236, R238, R239) -/

section
variable {s : State} {w : Wave} {sw : BitVec 1} {o : BitVec 2} {c : BitVec 3} {v wide : BitVec 1} {x a : BitVec 6}

/-- The register into which an atomic word returns the old value. -/
def retOf (v : BitVec 1) (x : BitVec 6) : AtomRet :=
  if v = 1#1 then .vector x.toNat else if x = 0#6 then .none else .scalar x.toNat

/-- The atomic that a word issues for the accesses `l`. -/
def atomOf (op : AtomOp) (w : Wave) (o : BitVec 2) (c : BitVec 3) (v wide : BitVec 1) (x : BitVec 6) (l : List AtomAccess) : Atom :=
  ⟨op, wide == 1#1, c.toNat, o.getLsbD 1, w.pc, retOf v x, l⟩

/-- An atomic whose accesses are found, in calm, makes its translations and goes to its units: with REL after a release. -/
theorem gives_atomic {i : Instr} {op : AtomOp} {l : List AtomAccess} (calm : s.Calm w)
    (hf : issueForm i = some (formAtomic sw (op == .cas) v x a)) (he : exec i s = s.atomic i op sw o c v wide x a)
    (hl : s.atomAccesses w (v == 1#1) (wide == 1#1) x a = .ok l) :
    let s1 := l.foldl (fun t z => t.waveLooks s.cur .wr z.va) s
    let atom := atomOf op w o c v wide x l
    s.Gives w i (s.afterWord sw
      (if o.getLsbD 0 then s1.release s.cur c.toNat (.atomic atom) else s1.sendAtomic s.cur atom)) := by
  intro s1 atom
  have caches : CacheOnly s s1 := .foldl _ (fun _ _ => cacheOnly_waveLooks ..) l s
  have calm1 : s1.Calm w := caches.calm calm
  have unpoisoned : l.find? (fun z => s1.poisoned s.cur w z.place) = none := by
    simp [List.find?_eq_none, poisoned_calm calm1]
  unfold State.atomic at he
  unfold formAtomic at hf
  refine gives_issue hf he fun _ => ?_
  simp only [hl, State.walks, List.foldl_map]
  refine congrArg Except.ok ((unlessRace_calm calm1 ..).trans ?_)
  simp only [unpoisoned, atom, atomOf, retOf, beq_iff_eq]

/-- An atomic word, in calm, once its accesses are found: at once, or with REL when no store of its wave is pending any more. -/
theorem atomic_toUnits {i : Instr} {op : AtomOp} (calm : s.Calm w)
    (hf : issueForm i = some (formAtomic sw (op == .cas) v x a)) (he : exec i s = s.atomic i op sw o c v wide x a)
    (l : List AtomAccess) (hl : s.atomAccesses w (v == 1#1) (wide == 1#1) x a = .ok l) :
    let atom := atomOf op w o c v wide x l
    let s1 := l.foldl (fun t z => t.waveLooks s.cur .wr z.va) s
    (o.getLsbD 0 = false → s.Gives w i (s.afterWord sw (s1.sendAtomic s.cur atom))) ∧
    (o.getLsbD 0 = true → w.pend = [] →
      s.Gives w i (s.afterWord sw ((s1.releaseDone s.cur c.toNat).sendAtomic s.cur atom))) ∧
    (o.getLsbD 0 = true → w.pend ≠ [] →
      s.Gives w i (s.afterWord sw (s1.setSt s.cur (.wait (.release c.toNat (.atomic atom)))))) ∧
    (∀ u : State, u.AllEntered s.cur c.toNat (.atomic atom) →
      u.settleRelease s.cur = (u.releaseDone s.cur c.toNat).sendAtomic s.cur atom) := by
  intro atom s1
  have same : s1.waves = s.waves := (CacheOnly.foldl _ (fun _ _ => cacheOnly_waveLooks ..) l s).waves
  have gives : s.Gives w i (s.afterWord sw
      (if o.getLsbD 0 then s1.release s.cur c.toNat (.atomic atom) else s1.sendAtomic s.cur atom)) := gives_atomic calm hf he hl
  refine ⟨fun plain => ?_, fun rel empty ready => ?_, fun rel pending ready => ?_,
    fun u entered => CopyEngine.settleRelease_entered entered⟩
  · rwa [if_neg (Bool.eq_false_iff.mp plain)] at gives
  · rw [if_pos rel, release_empty (same ▸ ready.1) empty] at gives
    exact gives ready
  · rw [if_pos rel, release_pending (same ▸ ready.1) pending] at gives
    exact gives ready

end

/-- Settles O26: one lemma for all eleven words, which differ in the operation. -/
theorem atomicResults : Obligations.AtomicResults := by
  unfold Obligations.AtomicResults
  intro s w sw o c v d x a calm
  exact ⟨atomic_toUnits calm rfl rfl, atomic_toUnits calm rfl rfl, atomic_toUnits calm rfl rfl, atomic_toUnits calm rfl rfl,
    atomic_toUnits calm rfl rfl, atomic_toUnits calm rfl rfl, atomic_toUnits calm rfl rfl, atomic_toUnits calm rfl rfl,
    atomic_toUnits calm rfl rfl, atomic_toUnits calm rfl rfl, atomic_toUnits calm rfl rfl⟩

/-! ### What reading changes of a wave: its stable view, and what is noted of results at peers -/

/-- A wave without its stable view and without what is noted of its results at peers (05 R139, R142; 19 R407). -/
def viewless (w : Wave) : Wave := { w with snapCur := false, snapOvf := false, floors := [], far := [] }

/-- Two states differ at most in the views of their waves, in caches and their counts. -/
structure ReadsOnly (s t : State) : Prop where
  mem : t.mem = s.mem
  groups : t.groups = s.groups
  ctxs : t.ctxs = s.ctxs
  waves : t.waves.map viewless = s.waves.map viewless

namespace ReadsOnly

variable {s t u : State}

theorem refl (s : State) : ReadsOnly s s := ⟨rfl, rfl, rfl, rfl⟩

theorem trans (h : ReadsOnly s t) (h' : ReadsOnly t u) : ReadsOnly s u :=
  ⟨h'.mem.trans h.mem, h'.groups.trans h.groups, h'.ctxs.trans h.ctxs, h'.waves.trans h.waves⟩

theorem foldl {α : Type} {f : State → α → State} (hf : ∀ s x, ReadsOnly s (f s x)) (l : List α) (s : State) :
    ReadsOnly s (l.foldl f s) := by
  induction l generalizing s with
  | nil => exact .refl s
  | cons x l ih => exact (hf s x).trans (ih _)

theorem of_cacheOnly (h : CacheOnly s t) : ReadsOnly s t :=
  ⟨h.mem, h.groups, h.ctxs, congrArg _ h.waves⟩

/-- Every wave is there again, with its view as the only difference. -/
theorem wave (h : ReadsOnly s t) {j : Nat} {y : Wave} (hy : s.waves[j]? = some y) :
    ∃ x, t.waves[j]? = some x ∧ viewless x = viewless y := by
  have same := congrArg (·[j]?) h.waves
  simpa [hy] using same

end ReadsOnly

/-- An update that leaves what `g` shows of the element leaves what it shows of the list. -/
theorem map_modify_of_eq {α β : Type} {g : α → β} {l : List α} {k : Nat} {f : α → α} (h : ∀ y, l[k]? = some y → g (f y) = g y) :
    (l.modify k f).map g = l.map g := by
  apply List.ext_getElem?
  intro j
  simp only [List.getElem?_map, List.getElem?_modify]
  by_cases hj : k = j
  · subst hj
    cases hy : l[k]? with
    | none => rfl
    | some y => simp [h y hy]
  · simp [hj]

section
variable (s : State) {k : Nat} {w : Wave}

theorem readsOnly_modWave {f : Wave → Wave} (h : ∀ y, s.waves[k]? = some y → viewless (f y) = viewless y) :
    ReadsOnly s (s.modWave k f) :=
  ⟨rfl, rfl, rfl, map_modify_of_eq h⟩

theorem readsOnly_modCore (c : Nat) (f : Core → Core) : ReadsOnly s (s.modCore c f) := ⟨rfl, rfl, rfl, rfl⟩

theorem readsOnly_countPeer (pa n : Nat) : ReadsOnly s (s.countPeer pa n) := by
  unfold State.countPeer
  split
  · exact ⟨rfl, rfl, rfl, rfl⟩
  · exact .refl s

/-- The readers of lost copies lose their stable view, and nothing else (05 R139, R142). -/
theorem readsOnly_loseCopies (out : List L1Copy) : ReadsOnly s (s.loseCopies out) := by
  unfold State.loseCopies
  refine .foldl (fun t z => ?_) out s
  refine .foldl (fun u j => ?_) z.readers t
  exact readsOnly_modWave u fun _ _ => rfl

theorem readsOnly_l1Fill (core line : Nat) (readers : List Nat) : ReadsOnly s (s.l1Fill core line readers) := by
  unfold State.l1Fill
  split
  · exact .refl s
  · refine ReadsOnly.trans ?_ (readsOnly_modCore ..)
    refine ReadsOnly.trans ?_ (readsOnly_loseCopies ..)
    exact .of_cacheOnly (CacheOnly.trans (t := { s with draws := _ }) rfl (cacheOnly_homeAccess ..))

theorem readsOnly_l1Read (wid : Nat) (w : Wave) (line : Nat) : ReadsOnly s (s.l1Read wid w line).2.2 := by
  unfold State.l1Read
  split
  · exact .refl s
  · split
    · exact readsOnly_modCore ..
    · exact readsOnly_l1Fill ..

/-- With no result outstanding, a look through the register window writes none. -/
theorem viewless_deliver {w : Wave} (ho : w.outs = []) (r : Nat × Nat) : viewless (w.deliver r) = viewless w := by
  simp [Wave.deliver, viewless, ho]

variable {s} (hw : s.waves[k]? = some w) (ho : w.outs = [])
include hw ho

theorem readsOnly_load (p : Place) (n : Nat) : ReadsOnly s (s.load k p n).2.2 := by
  unfold State.load
  rw [hw]
  cases p with
  | phys pa ms =>
    dsimp only
    split
    · exact readsOnly_l1Read ..
    · exact (ReadsOnly.of_cacheOnly (cacheOnly_homeAccess ..)).trans (readsOnly_countPeer ..)
  | scratch o => exact .refl s
  | reg o =>
    refine readsOnly_modWave s fun y hy => ?_
    obtain rfl := Option.some.inj (hw.symm.trans hy)
    exact viewless_deliver ho _

theorem readsOnly_beforeAccess (ha : w.atoms = []) (p : Place) (n : Nat) : ReadsOnly s (s.beforeAccess k p n) := by
  cases p with
  | phys pa ms =>
    rw [Consistency.beforeAccess_of_no_atoms (p := .phys pa ms) hw ha nofun]
    exact .refl s
  | scratch o =>
    rw [Consistency.beforeAccess_of_no_atoms (p := .scratch o) hw ha nofun]
    exact .refl s
  | reg o =>
    simp only [State.beforeAccess, hw, ha, List.any_nil, Bool.false_eq_true, if_false]
    refine readsOnly_modWave s fun y hy => ?_
    obtain rfl := Option.some.inj (hw.symm.trans hy)
    exact viewless_deliver ho _

end

/-- A wave with no result outstanding and no atomic issued has none after reading. -/
theorem idle_of_viewless {x w : Wave} (h : viewless x = viewless w) (ho : w.outs = []) (ha : w.atoms = []) :
    x.outs = [] ∧ x.atoms = [] :=
  ⟨(congrArg Wave.outs h).trans ho, (congrArg Wave.atoms h).trans ha⟩

theorem readsOnly_readAll {k : Nat} (l : List Touch) {s : State} {w : Wave} (hw : s.waves[k]? = some w) (ho : w.outs = [])
    (ha : w.atoms = []) : ReadsOnly s (s.readAll k l).2 := by
  induction l generalizing s w with
  | nil => exact .refl s
  | cons t l ih =>
    have before := readsOnly_beforeAccess hw ho ha t.place t.n
    obtain ⟨x, hx, kept⟩ := before.wave hw
    obtain ⟨xo, xa⟩ := idle_of_viewless kept ho ha
    have loaded := readsOnly_load hx xo t.place t.n
    obtain ⟨y, hy, kept'⟩ := loaded.wave hx
    obtain ⟨yo, ya⟩ := idle_of_viewless kept' xo xa
    exact (before.trans loaded).trans (ih hy yo ya)

/-- Settles O47: a read of a wave with nothing outstanding changes views and caches alone (`ReadsOnly`). -/
theorem readsChangeNoData : Obligations.ReadsChangeNoData := by
  unfold Obligations.ReadsChangeNoData
  intro s k w l hw ho ha
  have reads := readsOnly_readAll l hw ho ha
  refine ⟨fun a => congrArg (Mem.byte · a) reads.mem, reads.groups, reads.ctxs, fun j y hy => ?_⟩
  obtain ⟨x, hx, kept⟩ := reads.wave hy
  exact ⟨x, hx, congrArg (fun z => (z.sregs, z.masks, z.vregs, z.hvs, z.bas, z.hvtie, z.fpflags, z.pend, z.pc)) kept,
    congrArg (fun z => (z.frame, z.handler, z.trapCause, z.trapPc, z.trapAddr, z.acqCnt, z.relCnt, z.own, z.mirror, z.adopted)) kept⟩

/-! ### Acquiring boundaries (05 R130, R141, R142) -/

/-- A wave without what an acquiring boundary may change of it but its count. -/
def unacquired (w : Wave) : Wave :=
  { viewless w with due := [], acq := 0#32, own := [], adopted := [], gphase := 0 }

/-- Two states have the same memory, and waves that differ at most in what an acquire changes of them. -/
structure Refreshed (s t : State) : Prop where
  mem : t.mem = s.mem
  waves : t.waves.map unacquired = s.waves.map unacquired

namespace Refreshed

variable {s t u : State}

theorem trans (h : Refreshed s t) (h' : Refreshed t u) : Refreshed s u :=
  ⟨h'.mem.trans h.mem, h'.waves.trans h.waves⟩

theorem of_readsOnly (h : ReadsOnly s t) : Refreshed s t := by
  refine ⟨h.mem, ?_⟩
  have same := congrArg (List.map unacquired) h.waves
  rwa [List.map_map, List.map_map] at same

theorem of_modWave (s : State) (k : Nat) {f : Wave → Wave} (h : ∀ y, unacquired (f y) = unacquired y) :
    Refreshed s (s.modWave k f) :=
  ⟨rfl, map_modify_of_eq fun y _ => h y⟩

theorem wave (h : Refreshed s t) {j : Nat} {y : Wave} (hy : s.waves[j]? = some y) :
    ∃ x, t.waves[j]? = some x ∧ unacquired x = unacquired y := by
  have same := congrArg (·[j]?) h.waves
  simpa [hy] using same

end Refreshed

section
variable (s : State) (k : Nat)

/-- Lost data that a wave meets outside a word is due, or rolls its context back. -/
theorem refreshed_dueEcc (code : Nat) (addr : DWord) : Refreshed s (s.dueEcc k code addr) := by
  unfold State.dueEcc
  split
  · exact ⟨rfl, rfl⟩
  · split
    · exact ⟨rfl, rfl⟩
    · exact .of_modWave s k fun _ => rfl

theorem refreshed_readGens (c : Nat) : Refreshed s (s.readGens k c) := by
  unfold State.readGens
  split
  · exact ⟨rfl, rfl⟩
  · dsimp only
    split
    · exact ⟨rfl, rfl⟩
    · have read (pa : Nat) : Refreshed s (s.homeRange pa 8192 false) := .of_readsOnly (.of_cacheOnly (cacheOnly_homeRange ..))
      split
      · exact (read _).trans (refreshed_dueEcc ..)
      · exact read _

theorem readsOnly_dropStale (core : Nat) : ReadsOnly s (s.dropStale core) := by
  unfold State.dropStale
  split
  · exact .refl s
  · exact (readsOnly_loseCopies ..).trans (readsOnly_modCore ..)

theorem refreshed_freshView : Refreshed s (s.freshView k) := by
  unfold State.freshView
  split
  · exact ⟨rfl, rfl⟩
  · refine Refreshed.trans (.of_readsOnly ?_) (.of_modWave _ k fun _ => rfl)
    exact ((readsOnly_modCore ..).trans (readsOnly_dropStale ..)).trans (readsOnly_modCore ..)

end

section
variable {s : State} {k : Nat} {w : Wave} (hw : s.waves[k]? = some w)
include hw

theorem acquire_mem : (s.acquire k).mem = s.mem := by
  simp only [State.acquire, hw]
  exact ((refreshed_readGens s k w.ctx).trans (refreshed_freshView _ k)).mem

/-- After its acquiring boundary a wave has one more of them counted and a new phase, and is else as it was (05 R141). -/
theorem acquire_wave : ∃ x, (s.acquire k).waves[k]? = some x ∧ x.snapCur = false ∧
    unacquired x = unacquired { w with acqCnt := w.acqCnt + 1#32 } := by
  obtain ⟨y, hy, kept⟩ := ((refreshed_readGens s k w.ctx).trans (refreshed_freshView _ k)).wave hw
  simp only [State.acquire, hw, allWaves_waves, modWave_waves, List.getElem?_map, List.getElem?_modify, hy, if_true,
    Option.map_eq_map, Option.map_some]
  have counted : (unacquired y).acqCnt = (unacquired w).acqCnt := congrArg Wave.acqCnt kept
  change y.acqCnt = w.acqCnt at counted
  refine ⟨_, rfl, ?_, ?_⟩
  · split <;> rfl
  · refine Eq.trans (b := { unacquired y with acqCnt := y.acqCnt + 1#32 }) ?_ ?_
    · split <;> rfl
    · rw [kept, counted]
      rfl

end

/-! ### PHASE (09 R240) -/

@[simp] theorem releaseDone_mem (s : State) (k scope : Nat) : (s.releaseDone k scope).mem = s.mem := by
  unfold State.releaseDone
  cases s.waves[k]? with
  | none => rfl
  | some w => by_cases h : 1 ≤ scope <;> simp [h]

@[simp] theorem releaseDone_bad (s : State) (k scope : Nat) : (s.releaseDone k scope).bad = s.bad := by
  unfold State.releaseDone
  cases s.waves[k]? with
  | none => rfl
  | some w => by_cases h : 1 ≤ scope <;> simp [h]

section
variable {s : State} {w : Wave} {sw : BitVec 1} {c : BitVec 3}

theorem gives_phase : s.Gives w (.phase sw c) (s.afterWord sw (s.release s.cur c.toNat (.phase c.toNat))) :=
  gives_issue rfl (exec_phase ..) fun _ => rfl

/-- PHASE with no store pending: its machine, and its wave in it. -/
theorem phase_atOnce (empty : w.pend = []) (ready : s.Ready w (.phase sw c)) : ∃ t x, exec (.phase sw c) s = .next t ∧
    t.mem = s.mem ∧ t.waves[s.cur]? = some x ∧ x.snapCur = false ∧ x.st = .ready ∧ ∃ y : Wave,
      unacquired y = unacquired { w with relCnt := w.relCnt + 1#32, acqCnt := w.acqCnt + 1#32 } ∧
      x = ({ y.advance with st := .ready } : Wave).issued sw := by
  have released := ScalarControl.releaseDone_wave ready.1 c.toNat
  obtain ⟨y, hy, snap, kept⟩ := acquire_wave released
  have gives := gives_phase ready
  rw [release_empty ready.1 empty] at gives
  refine ⟨_, ({ y.advance with st := .ready } : Wave).issued sw, gives, ?_, ?_, snap, rfl, y, kept, rfl⟩
  · exact (acquire_mem released).trans (releaseDone_mem ..)
  · simp [State.afterWord, State.runCont, State.proceed, hy]

end

/-- Settles O28: at once, PHASE is a release and an acquire (`acquire_wave`); else the same follows the last store. -/
theorem phaseResults : Obligations.PhaseResults := by
  unfold Obligations.PhaseResults
  intro s w sw c
  refine ⟨fun empty ready => ?_, fun pending ready => ?_, fun u entered => CopyEngine.settleRelease_entered entered⟩
  · obtain ⟨t, x, runs, mem, hx, snap, st, y, kept, rfl⟩ := phase_atOnce empty ready
    exact ⟨t, _, runs, hx, (congrArg Wave.acqCnt kept :), (congrArg Wave.relCnt kept :), snap, st,
      (congrArg (fun z : Wave => z.pc + 4#64) kept :), (congrArg Wave.pend kept :).trans empty,
      (congrArg Wave.sregs kept :), (congrArg Wave.vregs kept :), (congrArg Wave.masks kept :), fun a => by rw [mem]⟩
  · rw [gives_phase ready, release_pending ready.1 pending]

/-! ### Barrier words (09 R241 to R244) -/

section
variable {s : State} {w : Wave} {sw : BitVec 1} {a b : BitVec 6} {off : Nat}

/-- BAR.INIT's new fields, as numbers (04 R122; 09 R242). -/
theorem barrierInit_eq (y : Barrier) (v : DWord) : y.init v =
    { y with ovr := false, arr := 0, landed := 0, expArr := v.toNat % 2 ^ 13, expBytes := v.toNat / 2 ^ 32 } := by
  have low : (v.extractLsb' 0 13).toNat = v.toNat % 2 ^ 13 := by simp
  have high : (v.extractLsb' 32 32).toNat = v.toNat / 2 ^ 32 := by
    rw [BitVec.extractLsb'_toNat, Nat.shiftRight_eq_div_pow]
    exact Nat.mod_eq_of_lt (by have := v.isLt; omega)
  rw [Barrier.init, low, high]

/-- An offset that passes its checks names a line that is whole (04 R110; 09 R241). -/
theorem barrierAt_whole {cause : BitVec 6} {v : DWord} (h : s.barrierAt w cause v = .ok off) :
    s.bad.contains (.groupPool w.group (off / 128)) = false := by
  unfold State.barrierAt at h
  dsimp only at h
  split at h
  · cases h
  · split at h
    · cases h
    · split at h
      · cases h
      · rename_i whole
        obtain rfl := Except.ok.inj h
        exact Bool.eq_false_iff.mpr whole

theorem gives_barArrive (hoff : s.barrierAt w causeXlateWr (w.s a.toNat) = .ok off) :
    s.Gives w (.barArrive sw a) (s.afterWord sw (s.release s.cur 1 (.barArrive off))) :=
  gives_issue rfl (exec_barArrive ..) fun _ => by simp only [hoff]

theorem gives_barWait_reached (hoff : s.barrierAt w causeXlateRd (w.s a.toNat) = .ok off)
    (reached : phaseReached (s.phaseOf w.group off) ((w.s b.toNat).extractLsb' 0 32) = true) :
    s.Gives w (.barWait sw a b) (s.afterWord sw (s.release s.cur 1 .barWait)) :=
  gives_issue rfl (exec_barWait ..) fun _ => by simp only [hoff, reached, if_true]

/-- The arrival that follows a release, at an object whose line is whole: a trap behind the word when it overruns (09 R243). -/
theorem barrierArrive_whole {u : State} {k : Nat} {y : Wave} (hy : u.waves[k]? = some y)
    (whole : u.bad.contains (.groupPool y.group (off / 128)) = false) :
    let made := (u.releaseDone k 1).arriveAt y.group off
    (u.releaseDone k 1).runCont k (.barArrive off) = if made.1 then (made.2.setSt k .ready).takeTrap k
      (trapAt causeBarrier (BitVec.ofNat 64 (scratchWindow + off))) true else made.2.proceed k := by
  have released := ScalarControl.releaseDone_wave hy 1
  simp only [State.runCont, State.barrierArrive, released, releaseDone_bad, whole, Bool.false_eq_true, if_false]

end

/-- Settles O29, word by word; BAR.ARRIVE and BAR.WAIT by their release, and by what follows it. -/
theorem barrierWordResults : Obligations.BarrierWordResults := by
  unfold Obligations.BarrierWordResults
  intro s w g sw a b off _
  dsimp only
  refine ⟨fun hoff => ?_, fun hoff empty fits ready => ?_, fun hoff empty excess ready => ?_,
    fun hoff empty reached ready => ?_, fun hoff pending ready => ?_, fun hoff pending reached ready => ?_,
    fun u y entered hy whole => ?_, fun u entered => CopyEngine.settleRelease_entered entered, fun hoff wait => ?_⟩
  · simp only [← barrierInit_eq]
    exact gives_issue rfl (exec_barInit ..) fun _ => by simp only [hoff]
  · rw [gives_barArrive hoff ready, release_empty ready.1 empty, barrierArrive_whole ready.1 (barrierAt_whole hoff),
      if_neg (Bool.eq_false_iff.mp fits)]
  · rw [gives_barArrive hoff ready, release_empty ready.1 empty, barrierArrive_whole ready.1 (barrierAt_whole hoff),
      if_pos excess]
  · rw [gives_barWait_reached hoff reached ready, release_empty ready.1 empty]
    rfl
  · rw [gives_barArrive hoff ready, release_pending ready.1 pending]
  · rw [gives_barWait_reached hoff reached ready, release_pending ready.1 pending]
  · rw [CopyEngine.settleRelease_entered entered, barrierArrive_whole hy whole]
  · exact gives_issue rfl (exec_barWait ..) fun _ => by simp only [hoff, wait, Bool.false_eq_true, if_false]

/-! ### One access of an atomic (09 R237, R238; 02 R61) -/

/-- A store of bytes that are all present is a write. -/
theorem writeSome_map_some (m : Mem) (pa : Nat) (bs : List (BitVec 8)) : m.writeSome pa (bs.map some) = m.write pa bs := by
  induction bs generalizing m pa with
  | nil => rfl
  | cons b bs ih => exact ih ..

@[simp] theorem noteReached_mem (s : State) (g : Nat) : (s.noteReached g).mem = s.mem := by
  unfold State.noteReached
  split <;> rfl

@[simp] theorem noteReached_groups (s : State) (g : Nat) : (s.noteReached g).groups = s.groups := by
  unfold State.noteReached
  split <;> rfl

/-- The memory after an atomic on `n` bytes that hold `old`: the result, where the operation writes. -/
def atomMem (m : Mem) (pa : Nat) (a : Atom) (x : AtomAccess) : Mem :=
  let old := BitVec.ofNat 64 (m.num pa a.size)
  if atomWrites a.op a.wide old x then m.write pa (bytesOfNat a.size (atomResult a.op a.wide old x).toNat) else m

section
variable {m : Mem} (wf : m.wf = true) (pa : Nat) (a : Atom) (x : AtomAccess)
include wf

theorem atomMem_byte {b : Nat} (outside : b < pa ∨ pa + a.size ≤ b) : (atomMem m pa a x).byte b = m.byte b := by
  unfold atomMem
  dsimp only
  split
  · exact byte_write_outside m pa b _ wf (by rwa [bytesOfNat_length])
  · rfl

theorem atomMem_num : let old := BitVec.ofNat 64 (m.num pa a.size)
    (atomMem m pa a x).num pa a.size = if atomWrites a.op a.wide old x then
      (atomResult a.op a.wide old x).toNat % 2 ^ (8 * a.size) else m.num pa a.size := by
  intro old
  unfold atomMem
  dsimp only
  split
  · rw [num_write m pa a.size _ wf, Nat.pow_mul]
  · rfl

end

section
variable {s : State} {w : Wave} {x : AtomAccess} (k : Nat) (a : Atom) {pa o : Nat} {ms : Bool}

/-- An atomic at a peer that is not UP is performed nowhere (19 R407). -/
theorem performAccess_lost (hp : x.place = .phys pa ms) (lost : Consistency.AtLostPeer s pa) :
    s.performAccess k w a x = (BitVec.ofNat 64 (2 ^ (8 * a.size) - 1), s) := by
  unfold State.performAccess
  rw [hp]
  exact if_pos ((Consistency.atLostPeer_iff s pa).mpr lost)

theorem performAccess_phys (hp : x.place = .phys pa ms) (up : ¬ Consistency.AtLostPeer s pa) :
    (s.performAccess k w a x).1 = BitVec.ofNat 64 (s.mem.num pa a.size) ∧
    (s.performAccess k w a x).2.mem = atomMem s.mem pa a x ∧ (s.performAccess k w a x).2.groups = s.groups := by
  let u := (((s.homeAccess pa ms false a.size).homeAccess pa ms true a.size).countPeer pa a.size).leaveMasks w.core k
        (some (pa / 128))
  have caches := (cacheOnly_homeAccess s pa ms false a.size).trans (cacheOnly_homeAccess _ pa ms true a.size)
  have mem : u.mem = s.mem := by simp [u, State.leaveMasks, caches.mem]
  have groups : u.groups = s.groups := by simp [u, State.leaveMasks, caches.groups]
  unfold State.performAccess
  rw [hp]
  dsimp only
  rw [if_neg (mt (Consistency.atLostPeer_iff s pa).mp up)]
  refine ⟨rfl, ?_, ?_⟩
  · dsimp only [modWave_mem, atomMem]
    split
    · exact congrArg (Mem.write · pa _) mem
    · exact mem
  · dsimp only [modWave_groups]
    split
    · exact groups
    · exact groups

theorem performAccess_scratch {g : Group} (hp : x.place = .scratch o) (hg : s.groups[w.group]? = some g) :
    (s.performAccess k w a x).1 = BitVec.ofNat 64 (g.scratch.num o a.size) ∧
    (s.performAccess k w a x).2.mem = s.mem ∧ ∃ h, (s.performAccess k w a x).2.groups[w.group]? = some h ∧
      h.scratch = atomMem g.scratch o a x ∧ h.gregs = g.gregs := by
  unfold State.performAccess atomMem
  simp only [hp, hg]
  split
  · refine ⟨rfl, by simp [State.storeScratch], ?_⟩
    simp [State.storeScratch, hg, Group.writeScratch, writeSome_map_some]
  · exact ⟨rfl, rfl, g, hg, rfl, rfl⟩

end

/-- Settles O48: at its place an access of an atomic leaves the memory that `atomMem` gives. -/
theorem atomicEffect : Obligations.AtomicEffect := by
  unfold Obligations.AtomicEffect
  intro s k w a x canon
  refine ⟨fun pa ms hp up => ?_, fun pa ms p hp at_ down => performAccess_lost k a hp ⟨p, at_, down⟩,
    fun o g hp hg canon' => ?_⟩
  · have kept : ¬ Consistency.AtLostPeer s pa := fun ⟨p, at_, down⟩ => Bool.false_ne_true (down.symm.trans (up p at_))
    obtain ⟨old, mem, groups⟩ := performAccess_phys k a hp kept
    dsimp only
    rw [mem]
    exact ⟨old, fun b => atomMem_byte canon pa a x, atomMem_num canon pa a x, groups⟩
  · obtain ⟨old, mem, h, hh, scratch, gregs⟩ := performAccess_scratch k a hp hg
    refine ⟨old, mem, h, hh, ?_⟩
    rw [scratch]
    exact ⟨fun b => atomMem_byte canon' o a x, atomMem_num canon' o a x, gregs⟩

/-! ### The checks of one access (02 R75; 04 R118; 09 R228) -/

/-- The first offset that fails a test is the first found to fail it. -/
theorem firstBad_eq_find? (ok : Nat → Bool) (l : List Nat) : firstBad ok l = l.find? (fun o => !ok o) := by
  induction l with
  | nil => rfl
  | cons o l ih => cases h : ok o <;> simp [firstBad, h, ih]

section
variable (s : State) (y : Wave) (acc : Acc) (atom : Bool) {al n off : Nat} {va : DWord}

theorem checkAccess_misaligned (h : va.toNat % al ≠ 0) :
    s.checkAccess y acc atom al va n = .error (trapAt causeMisalign va) := if_pos h

theorem checkAccess_aligned (h : va.toNat % al = 0) :
    s.checkAccess y acc atom al va n = s.placeOf y acc atom va (List.range n) := if_neg (not_not_intro h)

theorem placeOf_plain (offs : List Nat) (h : windowOf va = .none) :
    s.placeOf y acc atom va offs = (s.waveXlat y acc va).map (fun x => .phys x.pa x.ms) := by
  unfold State.placeOf
  rw [h]
  cases s.waveXlat y acc va <;> rfl

theorem placeOf_scratch_fits (h : windowOf va = .scratch off) (fits : off + n ≤ s.scratchSize y) :
    s.placeOf y acc atom va (List.range n) = .ok (.scratch off) := by
  have inside : firstBad (fun o => decide (off + o < s.scratchSize y)) (List.range n) = none := by
    rw [firstBad_eq_find?, List.find?_range_eq_none]
    intro o ho
    simp only [Bool.not_not, decide_eq_true_eq]
    omega
  unfold State.placeOf
  simp only [h, inside]

/-- An access that leaves the scratchpad fails at its first byte outside (04 R118). -/
theorem placeOf_scratch_exceeds (pos : 0 < n) (h : windowOf va = .scratch off) (exceeds : s.scratchSize y < off + n) :
    s.placeOf y acc atom va (List.range n) =
      .error { cause := acc.cause, kind := kindNotMapped, addr := va + BitVec.ofNat 64 (s.scratchSize y - off) } := by
  have outside : firstBad (fun o => decide (off + o < s.scratchSize y)) (List.range n) = some (s.scratchSize y - off) := by
    rw [firstBad_eq_find?, List.find?_range_eq_some]
    simp only [List.mem_range, Bool.not_not, Bool.not_eq_true', decide_eq_true_eq, decide_eq_false_iff_not]
    refine ⟨?_, ?_, fun j hj => ?_⟩ <;> omega
  unfold State.placeOf
  simp only [h, outside]

end

/-! ### The translation of an access (02 R72, R75) -/

section
variable (s : State) (y : Wave) (acc : Acc) (va : DWord)

theorem waveXlat_nonCanon (h : canonical va = false) :
    s.waveXlat y acc va = .error { cause := acc.cause, kind := kindNonCanon, addr := va } := by
  simp [State.waveXlat, State.translate, h]

variable {s y acc va} (canon : canonical va = true)
include canon

theorem waveXlat_poison {line : Nat} (h : s.walkPoison (some y.core) acc y.ctx y.gen (vaBits va) = some line) :
    s.waveXlat y acc va =
      .error { cause := causeEcc, detail := BitVec.ofNat 8 (s.lineClass line), addr := va &&& ~~~0x7F#64 } := by
  simp [State.waveXlat, State.translate, canon, h]

variable (whole : s.walkPoison (some y.core) acc y.ctx y.gen (vaBits va) = none)
include whole

theorem waveXlat_noLeaf {kind : BitVec 4} (h : s.leafOf (some y.core) acc y.ctx y.gen (vaBits va) = .error kind) :
    s.waveXlat y acc va = .error { cause := acc.cause, kind := kind, addr := va } := by
  simp [State.waveXlat, State.translate, canon, whole, h]

variable {e : DWord} (leaf : s.leafOf (some y.core) acc y.ctx y.gen (vaBits va) = .ok e)
include leaf

theorem waveXlat_unresolved {kind : BitVec 4} (h : s.resolveLeaf y.ctx y.gen (vaBits va) e = .error kind) :
    s.waveXlat y acc va = .error { cause := acc.cause, kind := kind, addr := va } := by
  simp [State.waveXlat, State.translate, canon, whole, leaf, h]

/-- Checks 6 to 8 of 02 R75 on an address whose leaf resolves, for an access that is no fetch. -/
theorem waveXlat_resolved {pa : Nat} (h : s.resolveLeaf y.ctx y.gen (vaBits va) e = .ok pa) (noFetch : acc ≠ .fetch) :
    s.waveXlat y acc va =
      if acc = .wr ∧ pteW e = false then .error { cause := causeProt, kind := kindNoWrite, addr := va }
      else if acc = .wr ∧ (paKind pa).isWs = true then .error { cause := causeProt, kind := kindWStore, addr := va }
      else .ok ⟨pa, pteMs e && (paKind pa).isHbm && !s.regionCovers pa⟩ := by
  simp [State.waveXlat, State.translate, canon, whole, leaf, h, noFetch]

end

/-- The checks of an access, as O21 orders them. -/
theorem access_checks (u : State) (y : Wave) (acc : Acc) (atom : Bool) (al n : Nat) (va : DWord) (pos : 0 < n) :
    let chk := u.checkAccess y acc atom al va n
    let found := u.waveXlat y acc va
    (va.toNat % al ≠ 0 → chk = .error (trapAt causeMisalign va)) ∧
    (va.toNat % al = 0 → windowOf va = .none → (∀ x, found = .ok x → chk = .ok (.phys x.pa x.ms)) ∧
      (∀ t, found = .error t → chk = .error t)) ∧
    (∀ off, va.toNat % al = 0 → windowOf va = .scratch off →
      (off + n ≤ u.scratchSize y → chk = .ok (.scratch off)) ∧
      (u.scratchSize y < off + n → chk =
        .error { cause := acc.cause, kind := kindNotMapped, addr := va + BitVec.ofNat 64 (u.scratchSize y - off) })) := by
  refine ⟨checkAccess_misaligned u y acc atom, fun aligned plain => ?_, fun off aligned window => ?_⟩
  · rw [checkAccess_aligned u y acc atom aligned, placeOf_plain u y acc atom _ plain]
    exact ⟨fun x hx => by rw [hx]; rfl, fun t ht => by rw [ht]; rfl⟩
  · rw [checkAccess_aligned u y acc atom aligned]
    exact ⟨placeOf_scratch_fits u y acc atom window, placeOf_scratch_exceeds u y acc atom pos window⟩

/-! ### The lanes of a form (02 R76) -/

/-- The lowest lane that fails is named, and the lanes before it are those whose places are found. -/
theorem lanes_first_failing {chk : DWord → Except TrapInfo Place} {pre rest : List (Nat × DWord)} {l : Nat} {va : DWord} {t : TrapInfo}
    (fails : chk va = .error t) (pass : ∀ e ∈ pre, ∃ p, chk e.2 = .ok p) :
    checkLanes chk (pre ++ (l, va) :: rest) = .error { t with lane := some l } ∧
    (lanesBefore chk (pre ++ (l, va) :: rest)).map (fun e => (e.1, e.2.1)) = pre := by
  induction pre with
  | nil => simp [checkLanes, lanesBefore, fails]
  | cons e pre ih =>
    obtain ⟨checked, before⟩ := ih fun x hx => pass x (List.mem_cons_of_mem _ hx)
    obtain ⟨p, hp⟩ := pass e List.mem_cons_self
    simp [checkLanes, lanesBefore, hp, checked, before]

/-! ### The bytes of a load (05 R132, R138, R142, R144) -/

theorem gatherBytes_length (w : Wave) (shared : Place → BitVec 8) (p : Place) (n : Nat) : (gatherBytes w shared p n).length = n := by
  induction n with
  | zero => rfl
  | succ n ih => simp [gatherBytes, ih]

/-- Byte `j` of a load is what the wave sees at the place `j` bytes on. -/
theorem gatherBytes_get (w : Wave) (shared : Place → BitVec 8) (p : Place) {n j : Nat} (hj : j < n) :
    (gatherBytes w shared p n)[j]? = some (w.seenByte (p.plus j) (shared (p.plus j))) := by
  induction n with
  | zero => omega
  | succ n ih =>
    obtain below | rfl := Nat.lt_succ_iff_lt_or_eq.mp hj
    · rw [gatherBytes, List.getElem?_append_left (by rwa [gatherBytes_length]), ih below]
    · rw [gatherBytes, List.getElem?_append_right (Nat.le_of_eq (gatherBytes_length ..)), gatherBytes_length, Nat.sub_self]
      rfl

/-- A byte of a line of memory. -/
theorem lineByte_line (m : Mem) (line : Nat) {i : Nat} (hi : i < 128) : lineByte (m.line line) i = m.byte (128 * line + i) := by
  have length := read_length m (128 * line) 128
  have here : (m.read (128 * line) 128)[i]? = some (m.byte (128 * line + i)) := read_get m _ _ _ hi
  obtain ⟨hlt, at_⟩ := List.getElem?_eq_some_iff.mp here
  apply BitVec.eq_of_toNat_eq
  rw [lineByte, BitVec.extractLsb'_toNat, Mem.line, ScalarControl.lineOfBytes_toNat (Nat.le_of_eq length), Nat.shiftRight_eq_div_pow,
    Nat.pow_mul, ScalarControl.natOfBytes_div, List.drop_eq_getElem_cons hlt, at_, natOfBytes]
  have small := (m.byte (128 * line + i)).isLt
  omega

section
variable {y : Wave} {shared : Place → BitVec 8}

theorem seenByte_scratch {o : Nat} (clear : pendingByte y.pend (.scratch o) = none) (b : BitVec 8) : y.seenByte (.scratch o) b = b := by
  simp [Wave.seenByte, clear]

theorem seenByte_uncached {a : Nat} {ms : Bool} (clear : pendingByte y.pend (.phys a ms) = none) (h : l1Holds a ms = false) (b : BitVec 8) :
    y.seenByte (.phys a ms) b = b := by
  simp [Wave.seenByte, clear, h]

theorem seenByte_cached {a : Nat} {ms : Bool} (clear : pendingByte y.pend (.phys a ms) = none) (h : l1Holds a ms = true) (b : BitVec 8) :
    y.seenByte (.phys a ms) b = (lookupSorted a y.own).getD b := by
  simp [Wave.seenByte, clear, h]

end

section
variable {u : State} {k : Nat} {y : Wave} (hy : u.waves[k]? = some y) (n : Nat)
include hy

theorem load_scratch (o : Nat) : (u.load k (.scratch o) n).1 = gatherBytes y (u.homeByte y) (.scratch o) n := by
  simp only [State.load, hy]

theorem load_uncached {a : Nat} {ms : Bool} (h : l1Holds a ms = false) :
    (u.load k (.phys a ms) n).1 = gatherBytes y (u.homeByte y) (.phys a ms) n := by
  simp only [State.load, hy, h, Bool.false_eq_true, if_false]

/-- A load of a line that the L1 holds gathers from the line that serves it. -/
theorem load_cached {a : Nat} {ms : Bool} (h : l1Holds a ms = true) :
    (u.load k (.phys a ms) n).2.2 = (u.l1Read k y (a / 128)).2.2 ∧
    ∃ shared, (u.load k (.phys a ms) n).1 = gatherBytes y shared (.phys a ms) n ∧
      ∀ b m, shared (.phys b m) = lineByte (u.l1Read k y (a / 128)).1 (b % 128) := by
  have loads : u.load k (.phys a ms) n = (gatherBytes y (fun q => match q with
      | .phys b _ => lineByte (u.l1Read k y (a / 128)).1 (b % 128)
      | _ => 0#8) (.phys a ms) n, u.ownSide y (a / 128) (u.l1Read k y (a / 128)).2.1, (u.l1Read k y (a / 128)).2.2) := by
    unfold State.load
    rw [hy]
    exact if_pos h
  rw [loads]
  exact ⟨rfl, _, rfl, fun _ _ => rfl⟩

end

/-- A copy of the line that may serve wave `k` (05 R142). -/
def MayServe (k : Nat) (y : Wave) (line : Nat) (z : L1Copy) : Prop :=
  z.line = line ∧ (k ∈ z.readers ∨ (stampReached z.fill y.acq = true ∧ y.floorOf line ≤ z.seq))

theorem usable_iff (z : L1Copy) (y : Wave) (line : Nat) :
    z.usable y line = true ↔ z.line = line ∧ stampReached z.fill y.acq = true ∧ y.floorOf line ≤ z.seq := by
  simp [L1Copy.usable, and_assoc]

section
variable {l1 : List L1Copy} {k : Nat} {y : Wave} {line : Nat}

theorem chooseCopy_some {z : L1Copy} (h : chooseCopy l1 k y line = some z) : z ∈ l1 ∧ MayServe k y line z := by
  unfold chooseCopy at h
  split at h
  · rename_i x hx
    obtain rfl := Option.some.inj h
    have reads := List.find?_some hx
    simp only [Bool.and_eq_true, beq_iff_eq, List.contains_iff_mem] at reads
    exact ⟨List.mem_of_find?_eq_some hx, reads.1, .inl reads.2⟩
  · have usable : z.usable y line = true := List.find?_some (p := fun x : L1Copy => x.usable y line) h
    obtain ⟨here, fresh⟩ := (usable_iff ..).mp usable
    exact ⟨List.mem_of_find?_eq_some h, here, .inr fresh⟩

theorem chooseCopy_none (h : chooseCopy l1 k y line = none) : ∀ z ∈ l1, ¬ MayServe k y line z := by
  unfold chooseCopy at h
  split at h
  · cases h
  · rename_i unread
    rintro z hz ⟨here, reads | fresh⟩
    · exact List.find?_eq_none.mp unread z hz (by simp [here, reads])
    · exact List.find?_eq_none.mp h z hz ((usable_iff ..).mpr ⟨here, fresh⟩)

end

/-! ### The line that serves a load (05 R142) -/

section
variable {u : State} {k : Nat} {y : Wave} {c : Core} (hc : u.cores[y.core]? = some c) {line : Nat}
include hc

theorem l1Read_chosen {z : L1Copy} (h : chooseCopy c.l1 k y line = some z) : (u.l1Read k y line).1 = z.data := by
  simp only [State.l1Read, hc, h]

theorem l1Read_filled (h : chooseCopy c.l1 k y line = none) : (u.l1Read k y line).1 = u.mem.line line ∧
    (u.l1Read k y line).2.2 = u.l1Fill y.core line [k] := by
  simp only [State.l1Read, hc, h, and_self]

omit hc in
@[simp] theorem loseCopies_cores (s : State) (out : List L1Copy) : (s.loseCopies out).cores = s.cores := by
  unfold State.loseCopies
  have inner (z : L1Copy) (l : List Nat) (t : State) : (l.foldl (fun u j => u.modWave j (fun x =>
      { x.raiseFloor z.line z.upd with snapCur := true, snapOvf := true })) t).cores = t.cores := by
    induction l generalizing t with
    | nil => rfl
    | cons j l ih => exact (ih _).trans rfl
  induction out generalizing s with
  | nil => rfl
  | cons z out ih => exact (ih _).trans (inner z z.readers s)

/-- A fill leaves a copy of the line as memory holds it, for its readers (05 R142). -/
theorem l1Fill_copies (readers : List Nat) : ∃ d z, (u.l1Fill y.core line readers).cores[y.core]? = some d ∧ z ∈ d.l1 ∧ z.line = line ∧
    z.data = u.mem.line line ∧ z.readers = readers := by
  let copy : L1Copy := ⟨line, u.mem.line line, u.lineSide line, c.stamp, c.fillSeq, c.fillSeq, readers⟩
  have cores (t : State) : (t.homeAccess (128 * line) false false 128).cores = t.cores := (MemoryPath.sameUnits_homeAccess ..).1
  have filled : ∃ kept, (u.l1Fill y.core line readers).cores[y.core]? =
      some { c with l1 := kept ++ [copy], fillSeq := c.fillSeq + 1 } := by
    simp only [State.l1Fill, hc, modCore_cores, loseCopies_cores, cores, List.getElem?_modify, if_true]
    exact ⟨_, rfl⟩
  obtain ⟨kept, hd⟩ := filled
  exact ⟨_, copy, hd, List.mem_append_right _ (List.mem_singleton_self _), rfl, rfl, rfl⟩

end

/-! ### Glint's check of one access (05 R151 to R155) -/

/-- What Glint records of an access of a wave. -/
def accessSector (g : Group) (y : Wave) (scope : Nat) (atom wr : Bool) : Sector := ⟨g.gid, y.gphase, y.index, scope, atom, wr⟩

/-- A sector that holds a record takes another. -/
theorem sectorOf_setSector {s : State} {line k : Nat} {r : Sector} (h : s.sectorOf line k = some r) (x : Sector) :
    (s.setSector line k x).sectorOf line k = some x := by
  unfold State.sectorOf at h
  split at h
  · rename_i l hl
    have inside : k < l.sectors.length := by
      refine Decidable.byContradiction fun outside => ?_
      simp [List.getD_eq_getElem?_getD, List.getElem?_eq_none (Nat.le_of_not_lt outside)] at h
    have here : l.line = line := by simpa using List.find?_some hl
    have lines : ((fun z : LlcLine => z.line == line) ∘ fun z : LlcLine =>
        if z.line = line then { z with sectors := z.sectors.set k (some x) } else z) = fun z => z.line == line := by
      funext z
      simp only [Function.comp_apply]
      split <;> rfl
    unfold State.sectorOf State.setSector
    simp only [List.find?_map, lines, hl, Option.map_some, here, if_true]
    simp [inside]
  · cases h

/-- The slice once an access is noted beside the record `r`. -/
def noted (s : State) (line k : Nat) (r a : Sector) : State := if glintKeep r a then s else s.setSector line k a

theorem sectorOf_noted {s : State} {line k : Nat} {r : Sector} (h : s.sectorOf line k = some r) (a : Sector) :
    (noted s line k r a).sectorOf line k = if glintKeep r a then some r else some a := by
  unfold noted
  split
  · exact h
  · exact sectorOf_setSector h a

section
variable {u : State} {y : Wave} {c : Ctx} {g : Group} (hc : u.ctxs[y.ctx]? = some c) (hg : u.groups[y.group]? = some g)
  (pc va : DWord) {pa : Nat} {ms : Bool} (atom wr : Bool) (scope : Nat)
include hc hg

theorem glintCheck_skips (h : c.glintMode = 0 ∨ c.glintOff = true ∨ ms = true ∨ (paKind pa).isHbm = false) :
    u.glintCheck y pc va pa ms atom wr scope = (u, none) := by
  simp only [State.glintCheck, hc, hg]
  refine if_pos ?_
  simpa [or_assoc] using h

variable (on : c.glintMode ≠ 0) (here : c.glintOff = false) (plain : ms = false) (hbm : (paKind pa).isHbm = true)
include on here plain hbm

theorem glintCheck_first (h : (u.llcFill (pa / 128)).sectorOf (pa / 128) (pa / 32 % 4) = none) :
    (u.glintCheck y pc va pa ms atom wr scope).2 = none := by
  simp [State.glintCheck, hc, hg, on, here, plain, hbm, h]

theorem glintCheck_seen {r : Sector} (h : (u.llcFill (pa / 128)).sectorOf (pa / 128) (pa / 32 % 4) = some r) :
    let a := accessSector g y scope atom wr
    let s2 := noted (u.llcFill (pa / 128)) (pa / 128) (pa / 32 % 4) r a
    u.glintCheck y pc va pa ms atom wr scope =
      if glintRace r a then (if c.glintMode = 1 then (s2.glintLog y pc va r a, none) else (s2, some r.wave)) else (s2, none) := by
  have checks : (decide (c.glintMode = 0) || c.glintOff || ms || !(paKind pa).isHbm) = false := by simp [on, here, plain, hbm]
  simp only [State.glintCheck, hc, hg]
  rw [if_neg (Bool.eq_false_iff.mp checks)]
  simp only [h]
  rfl

end

section
variable (r : Sector) (g : Group) (y : Wave) (scope : Nat) (atom wr : Bool)

theorem glintRace_iff : glintRace r (accessSector g y scope atom wr) = true ↔
    (r.gid = g.gid ∧ r.gphase = y.gphase) ∧ r.wave ≠ y.index ∧ ((r.wr = true ∧ r.atom = false) ∨ (wr = true ∧ atom = false) ∨
      (r.atom = true ∧ atom = true ∧ (r.scope = 0 ∨ scope = 0))) := by
  simp [glintRace, accessSector, and_assoc, or_assoc]

theorem glintKeep_iff : glintKeep r (accessSector g y scope atom wr) = true ↔
    (r.gid = g.gid ∧ r.gphase = y.gphase) ∧ r.wr = true ∧ r.atom = false ∧ ¬ (wr = true ∧ atom = false) := by
  cases wr <;> cases atom <;> simp [glintKeep, accessSector, and_assoc]

end

/-- A race in trap mode names an access of the form that raced (05 R155). -/
theorem glintList_race {u s2 : State} {y : Wave} {atom wr : Bool} {scope : Nat} {l : List Touch} {t : TrapInfo}
    (h : u.glintList y atom wr scope l = (s2, some t)) : ∃ e ∈ l, t.cause = causeRace ∧ t.addr = e.va ∧ t.lane = e.lane := by
  induction l generalizing u s2 t with
  | nil => cases h
  | cons e l ih =>
    have later {v s3 : State} (h : v.glintList y atom wr scope l = (s3, some t)) :
        ∃ x ∈ e :: l, t.cause = causeRace ∧ t.addr = x.va ∧ t.lane = x.lane := by
      obtain ⟨x, hx, race⟩ := ih h
      exact ⟨x, List.mem_cons_of_mem _ hx, race⟩
    unfold State.glintList at h
    split at h
    · dsimp only at h
      split at h
      · obtain rfl := Option.some.inj (Prod.mk.inj h).2
        exact ⟨e, List.mem_cons_self, rfl, rfl, rfl⟩
      · exact later h
    · exact later h

/-! ### Glint's log (05 R155) -/

section
variable (u : State) {k : Nat} {f : Ctx → Ctx} (act : ∀ x, (f x).act = x.act)
include act

/-- A context keeps its tables when its other fields change. -/
theorem modCtx_act (d : Nat) : ((u.modCtx k f).ctxs[d]?).map (·.act) = (u.ctxs[d]?).map (·.act) := by
  rw [modCtx_ctxs, List.getElem?_modify]
  cases u.ctxs[d]? with
  | none => rfl
  | some x =>
    by_cases h : k = d
    · simp [h, act]
    · simp [h]

theorem pbQuad_modCtx (c n j : Nat) : (u.modCtx k f).pbQuad c n j = u.pbQuad c n j := by
  have same := modCtx_act u act (k := k) c
  unfold State.pbQuad
  cases hx : (u.modCtx k f).ctxs[c]? <;> cases hy : u.ctxs[c]? <;> simp_all

theorem pbLine_modCtx (c n : Nat) : (u.modCtx k f).pbLine c n = u.pbLine c n := by
  have same := modCtx_act u act (k := k) c
  unfold State.pbLine State.pbEntry
  cases hx : (u.modCtx k f).ctxs[c]? <;> cases hy : u.ctxs[c]? <;> simp_all

theorem pbGen_modCtx (c : Nat) : (u.modCtx k f).pbGen c = u.pbGen c := by
  funext n
  rw [State.pbGen, pbQuad_modCtx u act, ← State.pbGen]

/-- A walk of an agent that is no wave begins at the root of its context. -/
theorem walkStart_modCtx (c va : Nat) : (u.modCtx k f).walkStart none c va = u.walkStart none c va := by
  have same := modCtx_act u act (k := k) c
  unfold State.walkStart
  cases hx : (u.modCtx k f).ctxs[c]? <;> cases hy : u.ctxs[c]? <;> simp_all

theorem leafOf_modCtx (acc : Acc) (c : Nat) (gen : Nat → Word) (va : Nat) :
    (u.modCtx k f).leafOf none acc c gen va = u.leafOf none acc c gen va := by
  have same := modCtx_act u act (k := k) c
  unfold State.leafOf
  rw [walkStart_modCtx u act]
  cases hx : (u.modCtx k f).ctxs[c]? <;> cases hy : u.ctxs[c]? <;> simp_all [State.tlbEntry]

theorem walkPoison_modCtx (acc : Acc) (c : Nat) (gen : Nat → Word) (va : Nat) :
    (u.modCtx k f).walkPoison none acc c gen va = u.walkPoison none acc c gen va := by
  have lines : (u.modCtx k f).xlatLines none acc c gen va = u.xlatLines none acc c gen va := by
    simp only [State.xlatLines, State.tlbEntry, walkStart_modCtx u act, leafOf_modCtx u act, pbLine_modCtx u act, modCtx_mem]
  unfold State.walkPoison
  rw [lines]
  rfl

theorem resolveLeaf_modCtx (c : Nat) (gen : Nat → Word) (va : Nat) (e : DWord) :
    (u.modCtx k f).resolveLeaf c gen va e = u.resolveLeaf c gen va e := by
  simp only [State.resolveLeaf, State.pbEnabled, State.pbBase, State.pbSize, State.pbBacking, pbQuad_modCtx u act]
  rfl

/-- What is no table of a context plays no part in its translations (02 R72, R73). -/
theorem agentXlat_modCtx (c : Nat) (acc : Acc) (va : DWord) : (u.modCtx k f).agentXlat c acc va = u.agentXlat c acc va := by
  simp only [State.agentXlat, State.translate, pbGen_modCtx u act, walkPoison_modCtx u act, leafOf_modCtx u act,
    resolveLeaf_modCtx u act]
  rfl

end

theorem cacheOnly_agentLooks (s : State) (c : Nat) (acc : Acc) (va : DWord) (n : Nat) : CacheOnly s (s.agentLooks c acc va n) :=
  .foldl _ (fun _ _ => cacheOnly_lookUp ..) _ s

@[simp] theorem raise_ctxs (s : State) (v : Nat) : (s.raise v).ctxs = s.ctxs := rfl

@[simp] theorem report_ctxs (s : State) (kind code : Nat) (ctx : BitVec 32) (addr : DWord) (place launch : Nat) :
    (s.report kind code ctx addr place launch).ctxs = s.ctxs := by
  unfold State.report
  by_cases full : s.errBase = 0#64 ∨ (s.errWptr - s.errRptr).toNat = s.errSlots
  · rw [if_pos full]
  · rw [if_neg full]
    dsimp only [raise_ctxs]

/-- Marking an item leaves Glint's number of records. -/
@[simp] theorem markItem_glintSeq (c : Ctx) (i : AgItem) : (c.markItem i).glintSeq = c.glintSeq := by
  unfold Ctx.markItem
  split <;> rfl

theorem markPa_glintSeq {s : State} {k : Nat} {c : Ctx} (h : s.ctxs[k]? = some c) (pa : Nat) :
    ∃ z, (s.markPa pa).ctxs[k]? = some z ∧ z.glintSeq = c.glintSeq := by
  simp only [State.markPa, List.getElem?_map, h, Option.map_some]
  refine ⟨_, rfl, ?_⟩
  split
  · exact markItem_glintSeq ..
  · rfl

/-- The record of a race between the earlier access `r` and the later one `a` (05 R155). -/
def logRecord (pc va : DWord) (r a : Sector) (seq : Word) : List (BitVec 8) :=
  bytesOfNat 8 va.toNat ++ bytesOfNat 8 pc.toNat ++
    bytesOfNat 8 (a.gid % 8192 + 2 ^ 13 * (a.wave % 2048) + 2 ^ 24 * (r.wave % 2048) + (if a.wr then 2 ^ 35 else 0) +
      (if a.atom then 2 ^ 36 else 0) + (if r.wr then 2 ^ 37 else 0) + (if r.atom then 2 ^ 38 else 0) +
      2 ^ 39 * (a.scope % 8) + 2 ^ 42 * (r.scope % 8)) ++ bytesOfNat 8 seq.toNat

theorem logRecord_length (pc va : DWord) (r a : Sector) (seq : Word) : (logRecord pc va r a seq).length = 32 := by
  simp [logRecord, bytesOfNat_length]

/-- Where the next record of a context lies (05 R155). -/
def recordAddr (c : Ctx) : DWord :=
  c.act.glintLog + BitVec.ofNat 64 (32 * (c.glintSeq.toNat % 2 ^ ((c.act.glintCtl.extractLsb' 4 4).toNat + 6)))

/-- The machine whose context has counted one more record. -/
def counted (u : State) (k : Nat) : State := u.modCtx k (fun x => { x with glintSeq := x.glintSeq + 1 })

section
variable {u : State} {y : Wave} {c : Ctx} (hc : u.ctxs[y.ctx]? = some c) (pc va : DWord) (r a : Sector)
include hc

omit hc in
theorem agentXlat_counted (k d : Nat) (acc : Acc) (v : DWord) : (counted u k).agentXlat d acc v = u.agentXlat d acc v :=
  agentXlat_modCtx (f := fun x => { x with glintSeq := x.glintSeq + 1 }) u (fun _ => rfl) d acc v

theorem counted_ctx : (counted u y.ctx).ctxs[y.ctx]? = some { c with glintSeq := c.glintSeq + 1 } := by
  simp [counted, hc]

theorem glintLog_suppressed (h : c.logErr = true) : u.glintLog y pc va r a = u := by
  simp [State.glintLog, hc, h]

variable (logging : c.logErr = false)
include logging

theorem glintLog_unwritten {t : TrapInfo} (h : (counted u y.ctx).agentXlat y.ctx .wr (recordAddr c) = .error t) :
    u.glintLog y pc va r a = (((counted u y.ctx).agentLooks y.ctx .wr (recordAddr c) 32).modCtx y.ctx
      (fun x => { x with logErr := true })).report errGlintLog 0 c.id (recordAddr c) 0 0 := by
  rw [agentXlat_counted] at h
  unfold recordAddr at h
  simp only [State.glintLog, hc, logging, h, Bool.false_eq_true, if_false]
  rfl

theorem glintLog_written {x : Xlat} (h : (counted u y.ctx).agentXlat y.ctx .wr (recordAddr c) = .ok x) :
    ∃ v : State, CacheOnly (counted u y.ctx) v ∧
      u.glintLog y pc va r a = ({ v with mem := v.mem.write x.pa (logRecord pc va r a c.glintSeq) } : State).markPa x.pa := by
  have caches := (cacheOnly_agentLooks (counted u y.ctx) y.ctx .wr (recordAddr c) 32).trans (cacheOnly_homeAccess _ x.pa x.ms true 32)
  refine ⟨_, caches, ?_⟩
  rw [agentXlat_counted] at h
  unfold recordAddr at h
  simp only [State.glintLog, hc, logging, h, Bool.false_eq_true, if_false]
  rfl

/-- A report counts as a record, whether it is written or not. -/
theorem glintLog_counts : ∃ z, (u.glintLog y pc va r a).ctxs[y.ctx]? = some z ∧ z.glintSeq = c.glintSeq + 1 := by
  have here := counted_ctx hc
  cases h : (counted u y.ctx).agentXlat y.ctx .wr (recordAddr c) with
  | error t =>
    rw [glintLog_unwritten hc pc va r a logging h]
    simp [(cacheOnly_agentLooks ..).ctxs, here]
  | ok x =>
    obtain ⟨v, caches, eq⟩ := glintLog_written hc pc va r a logging h
    have there : v.ctxs[y.ctx]? = some { c with glintSeq := c.glintSeq + 1 } := by rw [caches.ctxs, here]
    rw [eq]
    exact markPa_glintSeq (s := { v with mem := v.mem.write x.pa (logRecord pc va r a c.glintSeq) }) there x.pa

theorem glintLog_record {x : Xlat} (h : (counted u y.ctx).agentXlat y.ctx .wr (recordAddr c) = .ok x) (canon : u.mem.wf = true) :
    (u.glintLog y pc va r a).mem.read x.pa 32 = logRecord pc va r a c.glintSeq ∧
    (∀ b, b < x.pa ∨ x.pa + 32 ≤ b → (u.glintLog y pc va r a).mem.byte b = u.mem.byte b) := by
  obtain ⟨v, caches, eq⟩ := glintLog_written hc pc va r a logging h
  have mem : (u.glintLog y pc va r a).mem = u.mem.write x.pa (logRecord pc va r a c.glintSeq) := by
    rw [eq]
    exact congrArg (Mem.write · x.pa _) caches.mem
  rw [mem]
  refine ⟨?_, fun b hb => byte_write_outside u.mem x.pa b _ canon (by rwa [logRecord_length])⟩
  rw [← logRecord_length pc va r a c.glintSeq]
  exact read_write u.mem x.pa _ canon

end

/-! ### Byte `j` of a load -/

section
variable {u : State} {k n j : Nat} {y : Wave} (hy : u.waves[k]? = some y) (hj : j < n)
include hy hj

theorem load_pending {p : Place} {b : BitVec 8} (hp : ∀ o, p ≠ .reg o) (h : pendingByte y.pend (p.plus j) = some b) :
    (u.load k p n).1[j]? = some b := by
  obtain ⟨shared, gathers⟩ := Consistency.load_gathers hy hp n
  rw [gathers, gatherBytes_get y shared p hj, Consistency.seenByte_pending h]

theorem load_scratch_byte {g : Group} (hg : u.groups[y.group]? = some g) {o : Nat}
    (clear : pendingByte y.pend (.scratch (o + j)) = none) : (u.load k (.scratch o) n).1[j]? = some (g.scratch.byte (o + j)) := by
  rw [load_scratch hy, gatherBytes_get y _ _ hj, Place.plus, seenByte_scratch clear]
  simp only [State.homeByte, hg]

variable {a : Nat} {ms : Bool} (clear : pendingByte y.pend (.phys (a + j) ms) = none)
include clear

theorem load_uncached_byte (line : l1Holds a ms = false) (h : l1Holds (a + j) ms = false) :
    (u.load k (.phys a ms) n).1[j]? = some (u.homeByte y (.phys (a + j) ms)) := by
  rw [load_uncached hy n line, gatherBytes_get y _ _ hj, Place.plus, seenByte_uncached clear h]

theorem load_cached_byte (line : l1Holds a ms = true) (h : l1Holds (a + j) ms = true) : (u.load k (.phys a ms) n).1[j]? =
    some ((lookupSorted (a + j) y.own).getD (lineByte (u.l1Read k y (a / 128)).1 ((a + j) % 128))) := by
  obtain ⟨-, shared, gathers, bytes⟩ := load_cached hy n line
  rw [gathers, gatherBytes_get y shared _ hj, Place.plus, seenByte_cached clear h, bytes]

end

/-- Byte `j` of an access within one line, as a byte of that line of memory. -/
theorem lineByte_access (m : Mem) {a n j : Nat} (hj : j < n) (inside : a % 128 + n ≤ 128) :
    lineByte (m.line (a / 128)) ((a + j) % 128) = m.byte (a + j) := by
  have at_ : 128 * (a / 128) + (a + j) % 128 = a + j := by omega
  rw [lineByte_line m _ (Nat.mod_lt _ (by decide)), at_]

/-! ### Translations leave the L1 as it is (02 R72) -/

/-- Two states hold the same lines in the L1 of each core. -/
def SameL1 (s t : State) : Prop := t.cores.map (·.l1) = s.cores.map (·.l1)

theorem SameL1.of_cores {s t : State} (h : t.cores = s.cores) : SameL1 s t := congrArg _ h

theorem sameL1_lookUp (s : State) (core : Option Nat) (acc : Acc) (c : Nat) (gen : Nat → Word) (va : DWord) :
    SameL1 s (s.lookUp core acc c gen va) := by
  unfold State.lookUp
  dsimp only
  split
  · rfl
  · have tables := (MemoryPath.SameUnits.foldl (fun (t : State) l => t.homeAccess (128 * l) false false 128)
      (fun _ _ => MemoryPath.sameUnits_homeAccess ..) (s.xlatLines core acc c gen (vaBits va)) s).1
    split
    · refine Eq.trans ?_ (SameL1.of_cores tables)
      refine map_modify_of_eq fun x _ => ?_
      split <;> rfl
    · exact SameL1.of_cores tables

theorem sameL1_walks (s : State) (wid : Nat) (acc : Acc) (l : List Touch) : SameL1 s (s.walks wid acc l) := by
  unfold State.walks
  induction l generalizing s with
  | nil => rfl
  | cons t l ih =>
    refine (ih _).trans ?_
    unfold State.waveLooks
    dsimp only
    split
    · exact sameL1_lookUp ..
    · rfl

/-- Whether a load fills a line anew goes by what the L1 of the wave's core holds. -/
theorem wouldFill_eq (s : State) (wid : Nat) (w : Wave) (line : Nat) :
    s.wouldFill wid w line = ((s.cores.map (·.l1))[w.core]?).all (fun l1 => (chooseCopy l1 wid w line).isNone) := by
  unfold State.wouldFill
  rw [List.getElem?_map]
  cases s.cores[w.core]? <;> rfl

theorem reachesHome_walks (s : State) (wid : Nat) (acc : Acc) (l : List Touch) (k : Nat) (w : Wave) (p : Place) :
    (s.walks wid acc l).reachesHome k w p = s.reachesHome k w p := by
  cases p with
  | phys a ms =>
    have same : (s.walks wid acc l).cores.map (·.l1) = s.cores.map (·.l1) := sameL1_walks s wid acc l
    simp only [State.reachesHome, wouldFill_eq, same]
  | scratch o => rfl
  | reg o => rfl

/-! ### A word that reads, and a word that fails one of its checks (09 R228, R229) -/

/-- The word `j`, with reads `l` whose places are found, traps if Glint traps one of them, meets the first poisoned line, or else
makes what it has read its result and goes on (02 R49; 05 R138, R155). -/
def Reads (s : State) (w : Wave) (sw : BitVec 1) (j : Instr) (l : List Touch)
    (put : List (List (BitVec 8) × Side) → Wave → Wave) : Prop :=
  let s1 := s.walks s.cur .rd l
  let noted := s1.glintList w false false 0 (l.filter (fun e => s1.reachesHome s.cur w e.place))
  let r := noted.1.readAll s.cur l
  (∀ t, noted.2 = some t → s.Gives w j (s.afterWord sw (noted.1.takeTrap s.cur t false))) ∧
  (∀ e, noted.2 = none → l.find? (fun e => noted.1.meets s.cur w e.place) = some e →
    s.Gives w j (s.afterWord sw (noted.1.takeTrap s.cur (eccAt e.va (noted.1.placeClass e.place)) false))) ∧
  (noted.2 = none → (∀ e ∈ l, noted.1.meets s.cur w e.place = false) →
    s.Gives w j (s.afterWord sw (r.2.modWave s.cur (fun y => (y.addFar l r.1 put (put r.1 y)).advance))))

/-- The word `j`, of which an access fails a check with `t` after the reads `before`, traps, with no read or with Glint off
(02 R76). -/
def Stops (s : State) (w : Wave) (sw : BitVec 1) (j : Instr) (before : List Touch) (t : TrapInfo) : Prop :=
  (before = [] → s.Gives w j ((s.failedLooks s.cur t).takeTrap s.cur t false)) ∧
  (∀ c, before ≠ [] → s.ctxs[w.ctx]? = some c → c.glintMode = 0 →
    s.Gives w j (s.afterWord sw (((s.walks s.cur .rd before).failedLooks s.cur t).takeTrap s.cur t false)))

section
variable {s u : State} {wid : Nat} {w : Wave} {l : List Touch} (put : List (List (BitVec 8) × Side) → Wave → Wave)

/-- The reads of a form that are Glint's to check, after their translations. -/
def checkedReads (s : State) (wid : Nat) (w : Wave) (l : List Touch) : State × Option TrapInfo :=
  let s1 := s.walks wid .rd l
  s1.glintList w false false 0 (l.filter (fun e => s1.reachesHome wid w e.place))

theorem loads_of_race {t : TrapInfo} (h : checkedReads s wid w l = (u, some t)) : s.loads wid w l put = u.takeTrap wid t false := by
  simp only [checkedReads, reachesHome_walks] at h
  simp only [State.loads, State.unlessRace, h]

theorem loads_of_poison {e : Touch} (h : checkedReads s wid w l = (u, none))
    (met : l.find? (fun e => u.meets wid w e.place) = some e) :
    s.loads wid w l put = u.takeTrap wid (eccAt e.va (u.placeClass e.place)) false := by
  simp only [checkedReads, reachesHome_walks] at h
  simp only [State.loads, State.unlessRace, h, met]
  rfl

theorem loads_of_calm (h : checkedReads s wid w l = (u, none)) (met : ∀ e ∈ l, u.meets wid w e.place = false) :
    s.loads wid w l put = (u.readAll wid l).2.modWave wid
      (fun y => (y.addFar l (u.readAll wid l).1 put (put (u.readAll wid l).1 y)).advance) := by
  have clear : l.find? (fun e => u.meets wid w e.place) = none := by simpa [List.find?_eq_none] using met
  simp only [checkedReads, reachesHome_walks] at h
  simp only [State.loads, State.unlessRace, h, clear]

/-- With Glint off, the reads before a failing check have only made their translations. -/
theorem faultAfter_read_off {c : Ctx} (hc : s.ctxs[w.ctx]? = some c) (hm : c.glintMode = 0) (hl : l ≠ []) (t : TrapInfo) :
    s.faultAfter wid w false false 0 l t = .ok (((s.walks wid .rd l).failedLooks wid t).takeTrap wid t false) := by
  have hw : (s.walks wid .rd l).ctxs[w.ctx]? = some c := by rw [(cacheOnly_walks s wid .rd l).ctxs, hc]
  simp [State.faultAfter, MemoryPath.glintList_off hw hm, hl]

end

section
variable {s : State} {w : Wave} {j : Instr} {f : Form} {body : Nat → Wave → Except TrapInfo State} {sw : BitVec 1}
  (hf : issueForm j = some f) (hs : f.sw = sw) (he : exec j s = s.issue j f body)
include hf hs he

theorem reads_of_loads {l : List Touch} {put : List (List (BitVec 8) × Side) → Wave → Wave}
    (hb : body s.cur w = .ok (s.loads s.cur w l put)) : Reads s w sw j l put := by
  have gives : s.Gives w j (s.afterWord sw (s.loads s.cur w l put)) := by
    subst hs
    exact gives_issue hf he fun _ => hb
  refine ⟨fun t race => ?_, fun e clean met => ?_, fun clean met => ?_⟩
  · rwa [loads_of_race put (Prod.ext rfl race)] at gives
  · rwa [loads_of_poison put (Prod.ext rfl clean) met] at gives
  · rwa [loads_of_calm put (Prod.ext rfl clean) met] at gives

theorem stops_of_faultAfter {before : List Touch} {t : TrapInfo}
    (hb : body s.cur w = s.faultAfter s.cur w false false 0 before t) : Stops s w sw j before t := by
  subst hs
  refine ⟨fun first => ?_, fun c more hc hm => ?_⟩
  · subst first
    exact gives_error hf he fun _ => hb.trans (MemoryPath.faultAfter_first ..)
  · exact gives_issue hf he fun _ => hb.trans (faultAfter_read_off hc hm more t)

theorem stops_of_error {t : TrapInfo} (hb : body s.cur w = .error t) : Stops s w sw j [] t := by
  subst hs
  exact ⟨fun _ => gives_error hf he fun _ => hb, fun _ more => absurd rfl more⟩

end

/-! ### The loads (09 R230, R232 to R234; 11 R273) -/

section
variable (s : State) (w : Wave) (sw : BitVec 1)

theorem exec_sld (x a : BitVec 6) (i : BitVec 12) : exec (.sld sw x a i) s = execSld sw x a i s := rfl
theorem exec_hvld (h : BitVec 4) (a : BitVec 6) : exec (.hvld sw h a) s = execHvld sw h a s := rfl

section
variable (x a : BitVec 6) (i : BitVec 12)

theorem sld_reads {p : Place} (aligned : (w.s a.toNat + w.immValue i).toNat % 8 = 0) (named : x ≠ 0#6)
    (h : s.checkAccess w .rd false 8 (w.s a.toNat + w.immValue i) 8 = .ok p) :
    Reads s w sw (.sld sw x a i) [⟨none, w.s a.toNat + w.immValue i, p, 8⟩] (fun xs y =>
      y.addOut (.s x.toNat (BitVec.ofNat 64 (natOfBytes ((xs.head?.map (·.1)).getD []))))) :=
  reads_of_loads rfl rfl (exec_sld ..) (by simp only [if_neg (not_not_intro aligned), if_neg named, h])

theorem sld_stops {t : TrapInfo} (loads : (w.s a.toNat + w.immValue i).toNat % 8 ≠ 0 ∨ x ≠ 0#6)
    (h : s.checkAccess w .rd false 8 (w.s a.toNat + w.immValue i) 8 = .error t) : Stops s w sw (.sld sw x a i) [] t := by
  refine stops_of_error rfl rfl (exec_sld ..) ?_
  by_cases aligned : (w.s a.toNat + w.immValue i).toNat % 8 = 0
  · have named := loads.resolve_left (not_not_intro aligned)
    simp only [if_neg (not_not_intro aligned), if_neg named, h]
  · rw [checkAccess_misaligned s w .rd false aligned] at h
    obtain rfl := Except.error.inj h
    exact if_pos aligned

theorem sld_prefetches (aligned : (w.s a.toNat + w.immValue i).toNat % 8 = 0) :
    s.Gives w (.sld sw 0#6 a i) (s.afterWord sw ((s.prefetch w (w.s a.toNat + w.immValue i)).advance s.cur)) :=
  gives_issue rfl (exec_sld ..) fun _ => by simp only [if_neg (not_not_intro aligned), if_pos]

end

/-- A gather of elements of `n` bytes, for the word `j` that is one. -/
theorem gather_checked {j : Instr} {v o : BitVec 8} {b : BitVec 5} {n : Nat} {f : Nat → Word}
    (hf : issueForm j = some { sw := sw, src := [.s b.toNat, .v o.toNat], dst := [.v v.toNat] })
    (he : exec j s = s.gather j sw v o b n f) :
    let chk (e : DWord) : Except TrapInfo Place := s.checkAccess w .rd false n e n
    (∀ ps, checkLanes chk (w.gatherAddrs b.toNat o.toNat) = .ok ps →
      Reads s w sw j (touches n ps) (fun xs y => y.addOut (.v v.toNat (w.m 0) (lanesLine ps xs f) Side.none))) ∧
    (∀ t, checkLanes chk (w.gatherAddrs b.toNat o.toNat) = .error t →
      Stops s w sw j (touches n (lanesBefore chk (w.gatherAddrs b.toNat o.toNat))) t) := by
  refine ⟨fun ps h => reads_of_loads hf rfl he ?_, fun t h => stops_of_faultAfter hf rfl he ?_⟩
  · simp only [h]
  · simp only [h]

/-- A load of a line, with its side-band or without, for the word `j` that is one. -/
theorem loadLine_reads {j : Instr} {v : BitVec 8} {a : BitVec 6} (block : Bool) {ps : List (Nat × DWord × Place)}
    (hf : issueForm j = some { sw := sw, src := [.s a.toNat], dst := [.v v.toNat] }) (he : exec j s = s.loadLine j sw v a block)
    (h : s.linePlaces w .rd (w.s a.toNat) = .ok ps) :
    Reads s w sw j (touches 4 ps) (fun xs y => y.addOut (.v v.toNat (w.m 0) (lanesLine ps xs (BitVec.ofNat 32))
      (if block then (xs.head?.map (·.2)).getD Side.none else Side.none))) :=
  reads_of_loads hf rfl he (by simp only [h]; rfl)

theorem loadLine_stops {j : Instr} {v : BitVec 8} {a : BitVec 6} {block : Bool} {t : TrapInfo}
    (hf : issueForm j = some { sw := sw, src := [.s a.toNat], dst := [.v v.toNat] }) (he : exec j s = s.loadLine j sw v a block)
    (h : s.linePlaces w .rd (w.s a.toNat) = .error t) : Stops s w sw j (touches 4 (s.lineBefore w .rd (w.s a.toNat))) t :=
  stops_of_faultAfter hf rfl he (by simp only [h])

theorem hvld_reads (h : BitVec 4) (a : BitVec 6) {ps : List (DWord × Nat × Place)}
    (hp : s.hyperPlaces w .rd (w.s a.toNat) = .ok ps) :
    Reads s w sw (.hvld sw h a) (ps.flatMap lineSectors) (fun xs y =>
      y.addOut (.h h.toNat 0xFF#8 (BitVec.ofNat 8192 (natOfBytes (xs.flatMap (·.1)))))) :=
  reads_of_loads rfl rfl (exec_hvld ..) (by simp only [hp])

/-- An address that is not aligned to a line has no read before its failing check. -/
theorem hyperFault_load (wid : Nat) (va : DWord) (t : TrapInfo) :
    s.hyperFault wid w false va t = s.faultAfter wid w false false 0 (if va.toNat % 128 ≠ 0 then []
      else (s.linesBefore w .rd (rowLines va 1024)).flatMap lineSectors) t := by
  by_cases h : va.toNat % 128 = 0
  · simp [State.hyperFault, h]
  · simp [State.hyperFault, h, MemoryPath.faultAfter_first]

theorem hvld_stops (h : BitVec 4) (a : BitVec 6) {t : TrapInfo} (hp : s.hyperPlaces w .rd (w.s a.toNat) = .error t) :
    Stops s w sw (.hvld sw h a) (if (w.s a.toNat).toNat % 128 ≠ 0 then []
      else (s.linesBefore w .rd (rowLines (w.s a.toNat) 1024)).flatMap lineSectors) t :=
  stops_of_faultAfter rfl rfl (exec_hvld ..) (by simp only [hp]; exact hyperFault_load s w s.cur _ t)

end

/-! ### The bytes of a line that the L1 holds, and Glint's verdict on a sector -/

section
variable {u : State} {k n j a : Nat} {ms : Bool} {y : Wave} {c : Core} (hy : u.waves[k]? = some y) (hc : u.cores[y.core]? = some c)
  (line : l1Holds a ms = true)
include hy hc line

theorem load_filled (missing : chooseCopy c.l1 k y (a / 128) = none) : ∃ d z,
    (u.load k (.phys a ms) n).2.2.cores[y.core]? = some d ∧ z ∈ d.l1 ∧ z.line = a / 128 ∧ z.data = u.mem.line (a / 128) ∧
      z.readers = [k] := by
  rw [(load_cached hy n line).1, (l1Read_filled hc missing).2]
  exact l1Fill_copies hc [k]

variable (hj : j < n) (clear : pendingByte y.pend (.phys (a + j) ms) = none) (h : l1Holds (a + j) ms = true)
include hj clear h

theorem load_copy_byte {z : L1Copy} (chosen : chooseCopy c.l1 k y (a / 128) = some z) : (u.load k (.phys a ms) n).1[j]? =
    some ((lookupSorted (a + j) y.own).getD (lineByte z.data ((a + j) % 128))) := by
  rw [load_cached_byte hy hj clear line h, l1Read_chosen hc chosen]

theorem load_filled_byte (missing : chooseCopy c.l1 k y (a / 128) = none) (inside : a % 128 + n ≤ 128) :
    (u.load k (.phys a ms) n).1[j]? = some ((lookupSorted (a + j) y.own).getD (u.mem.byte (a + j))) := by
  rw [load_cached_byte hy hj clear line h, (l1Read_filled hc missing).1, lineByte_access u.mem hj inside]

end

section
variable {u : State} {y : Wave} {c : Ctx} {g : Group} (hc : u.ctxs[y.ctx]? = some c) (hg : u.groups[y.group]? = some g)
  (pc va : DWord) {pa : Nat} {ms : Bool} (atom wr : Bool) (scope : Nat)
include hc hg

/-- Against the record `r` of its sector an access races, and is recorded in its place unless `r` is to be kept (05 R152 to R155). -/
theorem glintCheck_verdict (on : c.glintMode ≠ 0) (here : c.glintOff = false) (plain : ms = false) (hbm : (paKind pa).isHbm = true)
    {r : Sector} (seen : (u.llcFill (pa / 128)).sectorOf (pa / 128) (pa / 32 % 4) = some r) :
    let a := accessSector g y scope atom wr
    let got := u.glintCheck y pc va pa ms atom wr scope
    let holds (s : State) (x : Sector) : Prop := s.sectorOf (pa / 128) (pa / 32 % 4) = some x
    (glintRace r a = true → c.glintMode ≠ 1 → got.2 = some r.wave) ∧
    (¬ glintRace r a = true ∨ c.glintMode = 1 → got.2 = none) ∧
    (¬ glintRace r a = true ∨ c.glintMode ≠ 1 → (glintKeep r a = true → holds got.1 r) ∧ (¬ glintKeep r a = true → holds got.1 a)) ∧
    (glintRace r a = true → c.glintMode = 1 → ∃ v : State, got.1 = v.glintLog y pc va r a ∧
      (glintKeep r a = true → holds v r) ∧ (¬ glintKeep r a = true → holds v a)) := by
  intro a got holds
  let v := noted (u.llcFill (pa / 128)) (pa / 128) (pa / 32 % 4) r a
  have left : (glintKeep r a = true → holds v r) ∧ (¬ glintKeep r a = true → holds v a) := by
    have sector := sectorOf_noted seen a
    exact ⟨fun keep => sector.trans (if_pos keep), fun new => sector.trans (if_neg new)⟩
  have checked : got = if glintRace r a then (if c.glintMode = 1 then (v.glintLog y pc va r a, none) else (v, some r.wave))
      else (v, none) := glintCheck_seen hc hg pc va atom wr scope on here plain hbm seen
  by_cases race : glintRace r a = true
  · by_cases report : c.glintMode = 1
    · rw [if_pos race, if_pos report] at checked
      rw [checked]
      exact ⟨fun _ trap => absurd report trap, fun _ => rfl, fun no => absurd no (by simp [race, report]), fun _ _ => ⟨v, rfl, left⟩⟩
    · rw [if_pos race, if_neg report] at checked
      rw [checked]
      exact ⟨fun _ _ => rfl, fun no => absurd no (by simp [race, report]), fun _ => left, fun _ log => absurd log report⟩
  · rw [if_neg race] at checked
    rw [checked]
    exact ⟨fun yes => absurd yes race, fun _ => rfl, fun _ => left, fun yes => absurd yes race⟩

end

/-- Settles O21: the checks (`access_checks`, `waveXlat_resolved`), the bytes (`load_pending` and its like), Glint's verdict
(`glintCheck_seen`) and log (`glintLog_written`), and each form by `reads_of_loads` and `stops_of_faultAfter`. -/
theorem loadResults : Obligations.LoadResults := by
  unfold Obligations.LoadResults
  refine ⟨fun u y acc atom al n va pos => ?_, fun chk pre rest l va t => lanes_first_failing,
    fun u k n j a o ms y g c hy hg hc hj => ?_, fun u y c g pc va pa scope ms atom wr l hc hg => ?_,
    fun s w sw x a i v o b h => ?_⟩
  · -- The checks of an access (02 R75; 04 R118).
    obtain ⟨misaligned, plain, scratch⟩ := access_checks u y acc atom al n va pos
    refine ⟨misaligned, plain, scratch, waveXlat_nonCanon u y acc va, fun canon => ⟨fun line => waveXlat_poison canon, fun whole =>
      ⟨fun kind => waveXlat_noLeaf canon whole, fun e leaf => ⟨fun kind => waveXlat_unresolved canon whole leaf,
        fun pa resolved => ?_⟩⟩⟩⟩
    refine ⟨?_, ?_, ?_, ?_⟩
    · rintro rfl
      exact waveXlat_resolved canon whole leaf resolved nofun
    · rintro rfl ro
      simp [waveXlat_resolved canon whole leaf resolved nofun, ro]
    · rintro rfl writable ws
      simp [waveXlat_resolved canon whole leaf resolved nofun, writable, ws]
    · rintro rfl writable ws
      simp [waveXlat_resolved canon whole leaf resolved nofun, writable, ws]
  · -- The bytes of a load (05 R132, R138, R142, R144).
    refine ⟨fun p b place pending => load_pending hy hj place pending, load_scratch_byte hy hj hg, fun clear line h => ?_,
      fun clear line h inside => ⟨fun z chosen => ?_, fun missing => ?_⟩⟩
    · exact load_uncached_byte hy hj clear line h
    · obtain ⟨here, may⟩ := chooseCopy_some chosen
      exact ⟨here, may, load_copy_byte hy hc line hj clear h chosen⟩
    · exact ⟨chooseCopy_none missing, load_filled_byte hy hc line hj clear h missing inside, load_filled hy hc line missing⟩
  · -- Glint's verdict and its log (05 R153, R155).
    refine ⟨fun off => MemoryPath.glintList_off hc off atom wr scope l, fun s2 t => glintList_race,
      glintCheck_skips hc hg pc va atom wr scope, fun on here plain hbm =>
        ⟨glintCheck_first hc hg pc va atom wr scope on here plain hbm, fun r seen => ?_⟩,
      fun r later => glintLog_suppressed hc pc va r later, fun r later logging => ⟨glintLog_counts hc pc va r later logging,
        fun f => glintLog_unwritten hc pc va r later logging, fun x => glintLog_record hc pc va r later logging⟩⟩
    have verdict := glintCheck_verdict hc hg pc va atom wr scope on here plain hbm seen
    simp only [glintRace_iff, glintKeep_iff] at verdict
    exact verdict
  · -- The words (09 R230, R232 to R234; 11 R273).
    refine ⟨fun old new l xs put => addFar_near old new l xs put, ?_⟩
    intro read stops va gather
    refine ⟨fun p => sld_reads s w sw x a i, fun t => sld_stops s w sw x a i, sld_prefetches s w sw a i,
      gather_checked s w sw rfl rfl, gather_checked s w sw rfl rfl, gather_checked s w sw rfl rfl, gather_checked s w sw rfl rfl,
      gather_checked s w sw rfl rfl, fun ps hp => ⟨loadLine_reads s w sw false rfl rfl hp, loadLine_reads s w sw true rfl rfl hp⟩,
      fun t ht j hj => ?_, fun ps => hvld_reads s w sw h a, fun t => hvld_stops s w sw h a⟩
    simp only [List.mem_cons, List.not_mem_nil, or_false] at hj
    obtain rfl | rfl := hj
    · exact loadLine_stops s w sw rfl rfl ht
    · exact loadLine_stops s w sw rfl rfl ht

end Sys2Proof.MemorySync

/-! PROOFS of 10_matrix: MMA, ACCZ, ACCLD and MWAIT (O32). -/

namespace Sys2Proof.MatrixWords

open Sys2Proof Sys2Proof.Machine Sys2Proof.Laws

/-! ### The meanings of the words -/

section
variable (sw : BitVec 1) (p q : BitVec 4) (c : BitVec 3) (z : BitVec 1) (a b : BitVec 6) (s : State)

theorem exec_mma : exec (.mma sw p q c z a) s = execMma sw p q c z a s := rfl
theorem exec_accz : exec (.accz sw c) s = execAccz sw c s := rfl
theorem exec_accld : exec (.accld sw c a b) s = execAccld sw c a b s := rfl
theorem exec_mwait : exec (.mwait sw c) s = execMwait sw c s := rfl

end

/-! ### The queue of an array (10 R258) -/

section
variable {s : State} {core array : Nat}

theorem hasEntry_array (room : s.queueFull core array = false) : s.hasEntry core (some array) = true := by
  simp only [State.hasEntry, room, Bool.not_false]

theorem hasEntry_array_full (full : s.queueFull core array = true) : s.hasEntry core (some array) = false := by
  simp only [State.hasEntry, full, Bool.not_true]

end

/-! ### The words that queue a command (10 R256 to R258, R260, R261) -/

section
variable {s : State} {w : Wave} (sw : BitVec 1) {c : BitVec 3}

/-- An MMA whose operands pass makes what its wave stored to the A range enter, and queues its command. -/
theorem mma_queues (p q : BitVec 4) {z : BitVec 1} {a : BitVec 6} (claim : s.hasClaim w = true)
    (room : s.queueFull w.core (c.toNat / 2) = false) :
    let r (k : Nat) : DWord := w.s (a.toNat + k)
    let d := mmaDesc c.toNat (z == 1#1) p.toNat q.toNat (r 0) (r 1) (r 2) (r 3)
    mmaRegsZero (r 0) (r 1) (r 2) (r 3) = true → mmaCheck (s.scratchSize w) d = none →
    s.Gives w (.mma sw p q c z a) (s.afterWord sw (((s.enterRows s.cur d).enqueueCmd
      ⟨w.core, d, .mma, .queued, 0, s.cur, w.group, w.ctx, false⟩ (c.toNat / 2)).advance s.cur)) := by
  intro r d zeros passes
  simp only [r, d] at zeros passes ⊢
  exact CopyEngine.gives_issueIf_ok rfl (exec_mma ..) (hasEntry_array room)
    (by simp only [claim, zeros, passes, Bool.not_true, Bool.false_eq_true, if_false])

theorem accz_queues (claim : s.hasClaim w = true) (room : s.queueFull w.core (c.toNat / 2) = false) :
    s.Gives w (.accz sw c) (s.afterWord sw
      ((s.enqueueCmd (accCmd s.cur w .accz c.toNat 0#64 0#64) (c.toNat / 2)).advance s.cur)) :=
  CopyEngine.gives_issueIf_ok rfl (exec_accz ..) (hasEntry_array room) (if_neg (by simp [claim]))

/-- An ACCLD whose rows are found (the claim is among the checks of `accCheck`) makes its translations and what its wave stored to
the rows enter, and queues its command. -/
theorem accld_queues {a b : BitVec 6} {rows : List (List (DWord × Nat × Place))}
    (room : s.queueFull w.core (c.toNat / 2) = false)
    (passes : s.accCheck w false .rd (w.s a.toNat) (w.s b.toNat) 512 = .ok rows) :
    s.Gives w (.accld sw c a b) (s.afterWord sw (((s.enterLines s.cur rows.flatten).enqueueCmd
      (accCmd s.cur w .accld c.toNat (w.s a.toNat) (w.s b.toNat)) (c.toNat / 2)).advance s.cur)) :=
  CopyEngine.gives_issueIf_ok rfl (exec_accld ..) (hasEntry_array room) (by simp only [passes])

/-- A word of an array, once the array's queue is full, waits for an entry. -/
theorem waits_for_entry {i : Instr} (queues : InstructionWords.engineQueue i = some (some (c.toNat / 2)))
    (full : s.queueFull w.core (c.toNat / 2) = true) : s.Gives w i (s.setSt s.cur (.wait (.entry (some (c.toNat / 2))))) :=
  InstructionWords.exec_fullQueue queues (hasEntry_array_full full)

/-! ### MWAIT (10 R263) -/

theorem mwait_passes (claim : s.hasClaim w = true) (done : s.cmdsOn w.core c.toNat = []) :
    s.Gives w (.mwait sw c) (s.afterWord sw (s.advance s.cur)) :=
  gives_issue rfl (exec_mwait ..) fun _ => by simp [claim, done]

theorem mwait_waits (claim : s.hasClaim w = true) (left : s.cmdsOn w.core c.toNat ≠ []) :
    s.Gives w (.mwait sw c) (s.afterWord sw (s.setSt s.cur (.wait (.mwait c.toNat (s.cmdsOn w.core c.toNat))))) :=
  gives_issue rfl (exec_mwait ..) fun _ => by simp [claim, left]

end

/-- Settles O32, word by word; the three that queue a command wait for an entry alike. -/
theorem matrixWordResults : Obligations.MatrixWordResults := by
  unfold Obligations.MatrixWordResults
  intro s w sw p q c z a b claim
  refine ⟨mma_queues sw p q claim, accz_queues sw claim, fun rows => accld_queues sw, fun full i hi => ?_,
    mwait_passes sw claim, mwait_waits sw claim⟩
  simp only [List.mem_cons, List.not_mem_nil, or_false] at hi
  obtain rfl | rfl | rfl := hi
  · exact waits_for_entry rfl full
  · exact waits_for_entry rfl full
  · exact waits_for_entry rfl full

end Sys2Proof.MatrixWords

/-! PROOFS of 11_hypervectors: the hypervector forms (O19), the generator, the bundle step and the majority (O20), HVNEAR and the
steps of its scan (O33). -/

namespace Sys2Proof.Hypervectors

open Sys2Proof Sys2Proof.Machine Sys2Proof.Laws Sys2Proof.InstructionWords Sys2Proof.VectorForms

/-! ### The generator (11 R267) -/

section
variable {n k : Nat} {x : BitVec n}

/-- A word with its bits moved up xored in is zero only for zero: each bit equals one further down, and the lowest are zero. -/
theorem eq_zero_of_xor_shiftLeft (hk : 0 < k) (h : x ^^^ x <<< k = 0#n) : x = 0#n := by
  have same : x = x <<< k := BitVec.xor_eq_zero_iff.mp h
  have clear (i : Nat) : x.getLsbD i = false := by
    induction i using Nat.strong_induction_on with
    | h i below =>
      rw [same, BitVec.getLsbD_shiftLeft]
      by_cases low : i < k
      · simp [low]
      · simp [below (i - k) (by omega)]
  exact BitVec.eq_of_getLsbD_eq fun i _ => by rw [clear, BitVec.getLsbD_zero]

/-- A word with its bits moved down xored in is zero only for zero: a division by a power of two makes any other number smaller. -/
theorem eq_zero_of_xor_shiftRight (hk : 0 < k) (h : x ^^^ x >>> k = 0#n) : x = 0#n := by
  have same : x.toNat = x.toNat / 2 ^ k := by
    rw [← Nat.shiftRight_eq_div_pow, ← BitVec.toNat_ushiftRight, ← BitVec.xor_eq_zero_iff.mp h]
  by_contra other
  have positive : 0 < x.toNat := Nat.pos_of_ne_zero fun zero => other (BitVec.eq_of_toNat_eq (by simpa using zero))
  exact absurd same (Nat.ne_of_gt (Nat.div_lt_self positive (Nat.one_lt_two_pow hk.ne')))

end

section
variable (x : DWord)

theorem tieStep_ne_zero (h : x ≠ 0#64) : tieStep x ≠ 0#64 := fun zero =>
  h (eq_zero_of_xor_shiftLeft (by decide) (eq_zero_of_xor_shiftRight (by decide) (eq_zero_of_xor_shiftLeft (by decide) zero)))

theorem tieStep_bit0 : (tieStep x).getLsbD 0 = (x.getLsbD 0 != x.getLsbD 7) := by
  simp [tieStep]

theorem tieStep_bit7 : (tieStep x).getLsbD 7 = (x.getLsbD 7 != (x.getLsbD 14 != x.getLsbD 1)) := by
  simp [tieStep]

theorem tieStep_tieStep_bit0 : (tieStep (tieStep x)).getLsbD 0 = ((x.getLsbD 0 != x.getLsbD 1) != x.getLsbD 14) := by
  rw [tieStep_bit0, tieStep_bit0, tieStep_bit7, Bool.bne_assoc, Bool.bne_self_left, bne_comm (a := x.getLsbD 14),
    Bool.bne_assoc]

end

/-! ### Counters of an accumulator, and a bundle step (11 R266, R269) -/

section
variable {n i : Nat}

theorem counter_setBits (b : Bundle) (v : BitVec 8) (hi : i < 8192) :
    counter (setBits b (8 * n) v) i = if i = n then v.toInt else counter b i := by
  have byte : (setBits b (8 * n) v).extractLsb' (8 * i) 8 = if i = n then v else b.extractLsb' (8 * i) 8 := by
    apply BitVec.eq_of_getLsbD_eq
    intro k hk
    have inside : 8 * i + k < 65536 := by omega
    simp only [BitVec.getLsbD_extractLsb', hk, decide_true, Bool.true_and, getLsbD_setBits _ _ _ inside]
    by_cases same : i = n
    · subst same
      rw [if_pos ⟨by omega, by omega⟩, if_pos rfl, Nat.add_sub_cancel_left]
    · rw [if_neg (by omega), if_neg same, BitVec.getLsbD_extractLsb', decide_eq_true hk, Bool.true_and]
  rw [counter, byte, apply_ite BitVec.toInt]
  rfl

theorem bund_eq (sign : Int) (bit : Bool) (c : Int) : bund sign bit c =
    let v := c + sign * (if bit then 1 else -1)
    if v < -127 then -127 else if 127 < v then 127 else v := by
  rw [bund, clampInt, apply_ite Prod.fst, apply_ite Prod.fst]

/-- A new counter fits its byte. -/
theorem toInt_ofInt_bund (sign : Int) (bit : Bool) (c : Int) : (BitVec.ofInt 8 (bund sign bit c)).toInt = bund sign bit c := by
  have bounds : -127 ≤ bund sign bit c ∧ bund sign bit c ≤ 127 := by
    rw [bund_eq]
    dsimp only
    split
    · omega
    · split <;> omega
  rw [BitVec.toInt_ofInt, Int.bmod]
  omega

theorem counter_bundle (sign : Int) (h : Hyper) (b : Bundle) (n : Nat) (hi : i < 8192) :
    counter (bundle sign h b n) i = if i < n then bund sign (h.getLsbD i) (counter b i) else counter b i := by
  induction n with
  | zero => rfl
  | succ n ih =>
    rw [bundle, counter_setBits _ _ hi, toInt_ofInt_bund, ih]
    by_cases same : i = n
    · simp [same]
    · simp [same, show i < n + 1 ↔ i < n by omega]

end

/-! ### The majority of an accumulator (11 R270) -/

/-- The counters of zero below counter `n`. -/
def tiesBelow (b : Bundle) (n : Nat) : Nat := (List.range n).countP (fun j => counter b j == 0)

/-- Bit `i` of the majority: the sign of the counter, or the generator after one step for each counter of zero so far. -/
def majorityBit (b : Bundle) (tie : DWord) (i : Nat) : Bool :=
  if counter b i = 0 then (Nat.repeat tieStep (tiesBelow b i + 1) tie).getLsbD 0 else decide (0 < counter b i)

section
variable (b : Bundle) (tie : DWord)

theorem tiesBelow_succ (n : Nat) : tiesBelow b (n + 1) = if counter b n = 0 then tiesBelow b n + 1 else tiesBelow b n := by
  simp only [tiesBelow, List.range_succ, List.countP_append, List.countP_singleton, beq_iff_eq]
  split
  · rfl
  · rfl

variable {b} {n : Nat}

theorem majorityBit_positive (h : 0 < counter b n) : majorityBit b tie n = true :=
  (if_neg (Int.ne_of_gt h)).trans (decide_eq_true h)

theorem majorityBit_negative (h : counter b n < 0) : majorityBit b tie n = false :=
  (if_neg (Int.ne_of_lt h)).trans (decide_eq_false (Int.lt_asymm h))

theorem majorityBit_tie (h : counter b n = 0) :
    majorityBit b tie n = (Nat.repeat tieStep (tiesBelow b n + 1) tie).getLsbD 0 := if_pos h

theorem majority_positive (h : 0 < counter b n) :
    majority b tie (n + 1) = (setBits (majority b tie n).1 n 1#1, (majority b tie n).2) := if_pos h

theorem majority_negative (h : counter b n < 0) : majority b tie (n + 1) = majority b tie n :=
  (if_neg (by omega)).trans (if_pos h)

theorem majority_tie (h : counter b n = 0) : majority b tie (n + 1) =
    (setBits (majority b tie n).1 n ((tieStep (majority b tie n).2).extractLsb' 0 1), tieStep (majority b tie n).2) :=
  (if_neg (by omega)).trans (if_neg (by omega))

variable (b) (n)

theorem majority_generator : (majority b tie n).2 = Nat.repeat tieStep (tiesBelow b n) tie := by
  induction n with
  | zero => rfl
  | succ n ih =>
    rw [tiesBelow_succ]
    obtain positive | zero | negative := Int.lt_trichotomy 0 (counter b n)
    · rw [majority_positive tie positive, if_neg (by omega), ih]
    · rw [majority_tie tie zero.symm, if_pos zero.symm, ih, Nat.repeat]
    · rw [majority_negative tie negative, if_neg (by omega), ih]

/-- A bit put into a hypervector. -/
theorem getLsbD_setBit (h : Hyper) (v : BitVec 1) {i : Nat} (hi : i < 8192) :
    (setBits h n v).getLsbD i = if i = n then v.getLsbD 0 else h.getLsbD i := by
  rw [getLsbD_setBits _ _ _ hi]
  by_cases same : i = n
  · simp [same]
  · rw [if_neg (by omega), if_neg same]

/-- The majority of the first counters: their bits, and no other. -/
theorem getLsbD_majority {i : Nat} (hi : i < 8192) :
    (majority b tie n).1.getLsbD i = (decide (i < n) && majorityBit b tie i) := by
  induction n with
  | zero => simp [majority]
  | succ n ih =>
    have put (v : BitVec 1) (hv : v.getLsbD 0 = majorityBit b tie n) :
        (setBits (majority b tie n).1 n v).getLsbD i = (decide (i < n + 1) && majorityBit b tie i) := by
      rw [getLsbD_setBit _ _ _ hi, ih]
      by_cases same : i = n
      · rw [if_pos same, hv, same, decide_eq_true (Nat.lt_succ_self n), Bool.true_and]
      · simp only [same, if_false, show i < n + 1 ↔ i < n by omega]
    obtain positive | zero | negative := Int.lt_trichotomy 0 (counter b n)
    · rw [majority_positive tie positive]
      exact put _ (majorityBit_positive tie positive).symm
    · rw [majority_tie tie zero.symm, majority_generator]
      exact put _ (by rw [majorityBit_tie tie zero.symm, Nat.repeat]; simp)
    · rw [majority_negative tie negative, ih]
      by_cases same : i = n
      · simp only [same, majorityBit_negative tie negative, Bool.and_false]
      · simp only [show i < n + 1 ↔ i < n by omega]

end

/-- Settles O20, from what a step of the loops does to each counter and to each bit. -/
theorem accumulatorRules : Obligations.AccumulatorRules := by
  unfold Obligations.AccumulatorRules
  refine ⟨fun x => ⟨rfl, tieStep_ne_zero x, tieStep_bit0 x, tieStep_tieStep_bit0 x⟩, fun h b tie i hi => ?_⟩
  intro c clamp ties
  have bit : (majority b tie 8192).1.getLsbD i = majorityBit b tie i := by
    rw [getLsbD_majority _ _ _ hi, decide_eq_true hi, Bool.true_and]
  have step (sign : Int) : c (bundle sign h b 8192) i = clamp (c b i + sign * (if h.getLsbD i then 1 else -1)) := by
    have value := counter_bundle sign h b 8192 hi
    rwa [if_pos hi, bund_eq] at value
  exact ⟨by rw [step, Int.one_mul], by rw [step, Int.neg_one_mul, Int.sub_eq_add_neg],
    fun positive => bit.trans (majorityBit_positive tie positive), fun negative => bit.trans (majorityBit_negative tie negative),
    fun zero => bit.trans (majorityBit_tie tie zero), majority_generator b tie 8192⟩

/-! ### The forms on registers (11 R268, R272) -/

/-- The distance of two hypervectors counts the bits that differ. -/
theorem hamDist_eq (a b : Hyper) : hamDist a b = (List.range 8192).countP (fun i => a.getLsbD i != b.getLsbD i) := by
  simp only [hamDist, popBits_countP, BitVec.getLsbD_xor]

/-- Settles O19, form by form. -/
theorem hyperResults : Obligations.HyperResults := by
  unfold Obligations.HyperResults
  intro s w sw d a b k x y h r
  exact ⟨givesWave rfl rfl rfl rfl, givesWave rfl rfl rfl rfl, givesWave rfl rfl rfl rfl, givesWave rfl rfl rfl rfl,
    givesWave rfl rfl rfl rfl, givesWave rfl rfl rfl rfl, givesWave rfl rfl rfl rfl, givesWave rfl rfl rfl rfl,
    givesWave rfl rfl rfl rfl, givesWave rfl rfl rfl (congrArg (fun n => w.setS x.toNat (BitVec.ofNat 64 n)) (hamDist_eq (h a) (h b))),
    givesWave rfl rfl rfl rfl, givesWave rfl rfl rfl rfl, givesWave rfl rfl rfl rfl⟩

/-! ### HVNEAR (11 R274 to R276) -/

theorem mirrorCount_eq (ctl : DWord) : mirrorCount ctl = ctl.toNat % 2 ^ 13 := by
  rw [mirrorCount, bitsOf, Nat.pow_zero, Nat.div_one]

section
variable (sw : BitVec 1) (a : BitVec 4) (x y : BitVec 6) {s : State} {w : Wave}

theorem exec_hvnear (s : State) : exec (.hvnear sw a x y) s = execHvnear sw a x y s := rfl

/-- The machine in which the scan of an HVNEAR is under way. -/
def scanBegun (s : State) (w : Wave) : State :=
  (s.tableLooks w (w.s y.toNat) (1024 * mirrorCount (w.s (y.toNat + 1)))).modWave s.cur (fun z => { z with
    mirror := z.mirror.clear
    st := .wait (.hvnear x.toNat (w.hv a.toNat) (w.s y.toNat) (w.s (y.toNat + 1)) w.mirror.start) })

theorem hvnear_ends (passes : s.mirrorCheck w (w.s y.toNat) (w.s (y.toNat + 1)) = none)
    (none_left : mirrorCount (w.s (y.toNat + 1)) ≤ w.mirror.start.next) : s.Gives w (.hvnear sw a x y)
      (s.afterWord sw ((scanBegun a x y s w).mirrorFinish s.cur x.toNat w.mirror.start)) :=
  gives_issue rfl (exec_hvnear ..) fun _ => by simp only [passes, none_left, if_true, scanBegun]

theorem hvnear_begins (passes : s.mirrorCheck w (w.s y.toNat) (w.s (y.toNat + 1)) = none)
    (left : w.mirror.start.next < mirrorCount (w.s (y.toNat + 1))) :
    s.Gives w (.hvnear sw a x y) (s.afterWord sw (scanBegun a x y s w)) :=
  gives_issue rfl (exec_hvnear ..) fun _ => by simp only [passes, Nat.not_le.mpr left, if_false, scanBegun]

theorem hvnear_traps {t : TrapInfo} (fails : s.mirrorCheck w (w.s y.toNat) (w.s (y.toNat + 1)) = some t) :
    s.Gives w (.hvnear sw a x y) (s.afterWord sw
      (((s.failedLooks s.cur t).modWave s.cur (fun z => { z with mirror := z.mirror.clear })).takeTrap s.cur t false)) :=
  gives_issue rfl (exec_hvnear ..) fun _ => by simp only [fails]

end

/-! ### A step of the scan (11 R276 to R278) -/

section
variable {s : State} {k d : Nat} {v : Wave} {q : Hyper} {tb tc : DWord} {scan : Mirror}

@[simp] theorem take_next (m : Mirror) (dist : Nat) : (m.take dist).next = m.next + 1 := by
  unfold Mirror.take
  split <;> rfl

theorem length_sregs_setS (w : Wave) (n : Nat) (x : DWord) : (w.setS n x).sregs.length = w.sregs.length := by
  unfold Wave.setS
  split
  · rfl
  · exact List.length_set

/-- The wave whose scan ends has both results, its record is cleared, and it goes on. -/
theorem mirrorFinish_wave (hv : s.waves[k]? = some v) (best : Mirror) : (s.mirrorFinish k d best).waves[k]? = some
    { ((v.setS d (BitVec.ofNat 64 best.bestI)).setS (d + 1) (BitVec.ofNat 64 best.bestD)).advance with
      mirror := v.mirror.clear, st := .ready } := by
  simp only [State.mirrorFinish, State.proceed, modWave_get, hv, Option.map_some]
  rfl

variable (hv : s.waves[k]? = some v) (hst : v.st = .wait (.hvnear d q tb tc scan))
include hv hst

theorem mirrorStep_ends (none_left : mirrorCount tc ≤ scan.next) : s.mirrorStep k = s.mirrorFinish k d scan := by
  simp only [State.mirrorStep, hv, hst, none_left, if_true]

variable (left : scan.next < mirrorCount tc)
include left

/-- An entry that is whole is compared; the scan ends with it or goes on. -/
theorem mirrorStep_compares (whole : s.entryPoison k v (tb + BitVec.ofNat 64 (1024 * scan.next)) = none) :
    let e := s.entryBytes k v (tb + BitVec.ofNat 64 (1024 * scan.next)) 8
    let dist := hamDist q (BitVec.ofNat 8192 (natOfBytes e.1))
    s.mirrorStep k = if dist < mirrorStop tc ∨ mirrorCount tc ≤ scan.next + 1 then e.2.mirrorFinish k d (scan.take dist)
      else e.2.setSt k (.wait (.hvnear d q tb tc (scan.take dist))) := by
  simp only [State.mirrorStep, hv, hst, Nat.not_le.mpr left, if_false, whole, take_next]

/-- A poisoned line stops the scan before the entry. -/
theorem mirrorStep_stops {line : DWord} {code : Nat}
    (lost : s.entryPoison k v (tb + BitVec.ofNat 64 (1024 * scan.next)) = some (line, code)) : s.mirrorStep k =
    (s.modWave k (fun z => { z with mirror := { scan with valid := true }, st := .ready })).meetPoison k line code := by
  simp only [State.mirrorStep, hv, hst, Nat.not_le.mpr left, if_false, lost]

end

/-- Settles O33: HVNEAR by its checks and what is left of the table, a step of its scan by what is left and by the entry. -/
theorem mirrorResults : Obligations.MirrorResults := by
  unfold Obligations.MirrorResults
  intro s w sw a x y
  simp only [← mirrorCount_eq, ← hamDist_eq]
  refine ⟨fun passes => ⟨hvnear_ends sw a x y passes, hvnear_begins sw a x y passes⟩, fun t => hvnear_traps sw a x y,
    fun k d v q tb tc scan hv hst => ⟨mirrorStep_ends hv hst, mirrorStep_compares hv hst,
      fun line code left => mirrorStep_stops hv hst left, fun best size fits => ⟨_, mirrorFinish_wave hv best, ?_⟩⟩⟩
  refine ⟨fun h => ?_, ?_, fun n h h' => ?_, rfl, rfl, ?_⟩
  · exact (s_setS_other _ (by omega)).trans (s_setS_same _ h (by omega))
  · exact s_setS_same _ (by omega) (by rw [length_sregs_setS]; omega)
  · exact (s_setS_other _ h').trans (s_setS_other _ h)
  · exact congrArg (· + 4#64) ((setS_pc ..).trans (setS_pc ..))

end Sys2Proof.Hypervectors

/-! PROOFS of 12_execution_model: what the shared effects of the events leave in the state (O60). -/

namespace Sys2Proof.ExecutionModel

open Sys2Proof Sys2Proof.Machine Sys2Proof.Laws Sys2Proof.MemoryPath Sys2Proof.MemorySync

/-! ### What an agent's reads and writes leave: launches, trees, runs, requests, and what the front end goes by of a context -/

/-- The registers in force and the bins of a context. -/
def ctxWork (c : Ctx) : CtxRegs × List (Nat × Bin) := (c.act, c.bins)

/-- A copy request without whether the phase that it waits for has been reached (04 R126). -/
def unreached (q : CopyReq) : CopyReq := { q with reached := false }

/-- Two states have the same launches, trees and graph runs, contexts with the same registers and bins, and copy requests that
differ at most in whether their phase has been reached. -/
structure WorkKept (s t : State) : Prop where
  launches : t.launches = s.launches
  trees : t.trees = s.trees
  runs : t.runs = s.runs
  copies : t.copies.map unreached = s.copies.map unreached
  ctxs : t.ctxs.map ctxWork = s.ctxs.map ctxWork

namespace WorkKept

variable {s t u : State}

theorem refl (s : State) : WorkKept s s := ⟨rfl, rfl, rfl, rfl, rfl⟩

theorem trans (h : WorkKept s t) (h' : WorkKept t u) : WorkKept s u :=
  ⟨h'.launches.trans h.launches, h'.trees.trans h.trees, h'.runs.trans h.runs, h'.copies.trans h.copies, h'.ctxs.trans h.ctxs⟩

theorem foldl {α : Type} {f : State → α → State} (hf : ∀ s x, WorkKept s (f s x)) (l : List α) (s : State) :
    WorkKept s (l.foldl f s) := by
  induction l generalizing s with
  | nil => exact .refl s
  | cons x l ih => exact (hf s x).trans (ih _)

theorem of_cacheOnly (h : CacheOnly s t) : WorkKept s t := by
  rw [h]
  exact ⟨rfl, rfl, rfl, rfl, rfl⟩

theorem of_modCtx (s : State) (c : Nat) {f : Ctx → Ctx} (h : ∀ y, ctxWork (f y) = ctxWork y) : WorkKept s (s.modCtx c f) :=
  ⟨rfl, rfl, rfl, rfl, map_modify_of_eq fun y _ => h y⟩

/-- A context is there again, with its registers and its bins. -/
theorem ctx (h : WorkKept s t) (c : Nat) : (t.ctxs[c]?).map ctxWork = (s.ctxs[c]?).map ctxWork := by
  simpa only [List.getElem?_map] using congrArg (·[c]?) h.ctxs

/-- A request is there again, but for whether its phase has been reached. -/
theorem copy (h : WorkKept s t) {k : Nat} {q : CopyReq} (hq : s.copies[k]? = some q) :
    ∃ p, t.copies[k]? = some p ∧ unreached p = unreached q := by
  simpa [hq] using congrArg (·[k]?) h.copies

theorem recBase (h : WorkKept s t) (c : Nat) : t.recBase c = s.recBase c := by
  have same (v : State) : v.recBase c = (((v.ctxs[c]?).map ctxWork).map (·.1.recBase)).getD 0#64 := by
    unfold State.recBase
    cases v.ctxs[c]? <;> rfl
  rw [same, same, h.ctx]

theorem binOf (h : WorkKept s t) (c b : Nat) : t.binOf c b = s.binOf c b := by
  have same (v : State) : v.binOf c b = ((v.ctxs[c]?).map ctxWork).bind (fun p => (p.2.find? (fun y => y.1 == b)).map (·.2)) := by
    unfold State.binOf
    cases v.ctxs[c]? <;> rfl
  rw [same, same, h.ctx]

end WorkKept

/-! ### Reads and writes of agents, and the data that they find lost -/

section
variable (s : State)

theorem workKept_lifeAdd (off : Nat) : WorkKept s (s.lifeAdd off) := by
  unfold State.lifeAdd
  dsimp only
  split <;> exact ⟨rfl, rfl, rfl, rfl, rfl⟩

theorem workKept_errorRing (m : Mem) (wptr seq dropped : Word) (v : Nat) : WorkKept s
    (State.raise { s with mem := m, errWptr := wptr, errSeq := seq, errDropped := dropped } v) := ⟨rfl, rfl, rfl, rfl, rfl⟩

theorem workKept_report (kind code : Nat) (ctx : BitVec 32) (addr : DWord) (place launch : Nat) :
    WorkKept s (s.report kind code ctx addr place launch) := by
  unfold State.report
  by_cases full : s.errBase = 0#64 ∨ (s.errWptr - s.errRptr).toNat = s.errSlots
  · rw [if_pos full]
    exact ⟨rfl, rfl, rfl, rfl, rfl⟩
  · rw [if_neg full]
    exact workKept_errorRing ..

theorem workKept_settleFaulted (g : Nat) : WorkKept s (s.settleFaulted g) := by
  unfold State.settleFaulted
  split
  · exact .refl s
  · dsimp only
    split
    · split <;> exact ⟨rfl, rfl, rfl, rfl, rfl⟩
    · exact .refl s

theorem workKept_settleFaults (c : Nat) : WorkKept s (s.settleFaults c) := by
  refine .foldl (fun t g => ?_) _ s
  split
  · exact workKept_settleFaulted t g
  · exact .refl t

theorem workKept_contextFault (c : Nat) (kind : BitVec 4) (f : Frame) (who : Nat × Nat) (wave : DWord) :
    WorkKept s (s.contextFault c kind f who wave) := by
  unfold State.contextFault
  split
  · exact .refl s
  · split
    · exact .refl s
    · refine WorkKept.trans ?_ ((workKept_settleFaults ..).trans (workKept_report ..))
      split
      · refine (WorkKept.of_modCtx s c ?_).trans (workKept_lifeAdd ..)
        exact fun _ => rfl
      · exact .of_modCtx s c fun _ => rfl

theorem workKept_unitLost (c code : Nat) (addr : DWord) : WorkKept s (s.unitLost c code addr) := by
  unfold State.unitLost
  split
  · exact .of_modCtx s c fun _ => rfl
  · exact workKept_contextFault ..

theorem workKept_countPeer (pa n : Nat) : WorkKept s (s.countPeer pa n) := by
  unfold State.countPeer
  split <;> exact ⟨rfl, rfl, rfl, rfl, rfl⟩

theorem workKept_homeAccess (pa : Nat) (ms write : Bool) (n : Nat) : WorkKept s (s.homeAccess pa ms write n) :=
  .of_cacheOnly (cacheOnly_homeAccess ..)

theorem workKept_agentReads (xs : List Xlat) : WorkKept s (s.agentReads xs) :=
  .foldl (fun t _ => (workKept_homeAccess t ..).trans (workKept_countPeer ..)) xs s

theorem workKept_agentLooks (c : Nat) (acc : Acc) (va : DWord) (n : Nat) : WorkKept s (s.agentLooks c acc va n) :=
  .of_cacheOnly (cacheOnly_agentLooks ..)

theorem workKept_feRead (c : Nat) (va : DWord) (n : Nat) : WorkKept s (s.feRead c va n).2 := by
  unfold State.feRead
  have looked := workKept_agentLooks s c .rd va n
  dsimp only
  split
  · split
    · exact looked.trans (workKept_unitLost ..)
    · exact looked
  · have read (xs : List Xlat) := looked.trans (workKept_agentReads _ xs)
    split
    · exact (read _).trans (workKept_unitLost ..)
    · exact read _

theorem workKept_readHome (c : Nat) (k : Kernel) (args : DWord) : WorkKept s (s.readHome c k args).2 := by
  unfold State.readHome
  split
  · exact .refl s
  · exact workKept_feRead ..

theorem workKept_tableReads (l : List (Nat × Nat)) : WorkKept s (s.tableReads l) :=
  .foldl (fun _ _ => .of_cacheOnly (cacheOnly_homeRange ..)) l s

theorem workKept_readTable (c : Nat) (l : List (Nat × Nat)) : WorkKept s (s.readTable c l) := by
  unfold State.readTable
  split
  · exact (workKept_tableReads s l).trans (workKept_unitLost ..)
  · exact workKept_tableReads s l

theorem workKept_lastErr (l : List ((HwUnit × Bool) × Nat)) : WorkKept s { s with lastErr := l } := ⟨rfl, rfl, rfl, rfl, rfl⟩

theorem workKept_mem (m : Mem) : WorkKept s { s with mem := m } := ⟨rfl, rfl, rfl, rfl, rfl⟩

theorem workKept_countError (u : HwUnit) (code : Nat) : WorkKept s (s.countError u code) := by
  unfold State.countError
  have counted := workKept_lifeAdd s (ltUe code)
  refine WorkKept.trans ?_ (workKept_lastErr ..)
  split
  · refine WorkKept.trans ?_ (workKept_lifeAdd ..)
    split
    · exact counted.trans (workKept_lifeAdd ..)
    · exact counted
  · split
    · exact counted.trans (workKept_lifeAdd ..)
    · exact counted

theorem workKept_frontError : WorkKept s s.frontError :=
  (workKept_countError s .frontEnd 8).trans ⟨rfl, rfl, rfl, rfl, rfl⟩

variable {s}

theorem workKept_loadCap {core r idx : Nat} {gen : BitVec 16} {t : State} (h : s.loadCap core r idx gen = some t) :
    WorkKept s t := by
  unfold State.loadCap at h
  split at h
  · split at h
    · obtain rfl := Option.some.inj h
      exact ⟨rfl, rfl, rfl, rfl, rfl⟩
    · cases h
  · cases h

theorem workKept_capFor {r : Nat} {o : CapObj} {c off n : Nat} {write : Bool} {t : State}
    (h : s.capFor r o c off n write = some t) : WorkKept s t := by
  obtain ⟨used, -⟩ := Option.filter_eq_some_iff.mp h
  obtain ⟨k, -, found⟩ := Option.bind_eq_some_iff.mp used
  obtain ⟨x, -, loaded⟩ := Option.bind_eq_some_iff.mp found
  exact workKept_loadCap loaded

variable (s)

theorem workKept_viaCap (r : Nat) (o : CapObj) (c off n : Nat) (write : Bool) {f : State → State} (hf : ∀ t, WorkKept t (f t)) :
    WorkKept s (s.viaCap r o c off n write f) := by
  unfold State.viaCap
  split
  next t loaded => exact (workKept_capFor loaded).trans (hf t)
  next => exact workKept_frontError s

theorem ctxWork_markItem (c : Ctx) (i : AgItem) : ctxWork (c.markItem i) = ctxWork c := by
  unfold Ctx.markItem
  split <;> rfl

theorem workKept_markPa (pa : Nat) : WorkKept s (s.markPa pa) := by
  refine ⟨rfl, rfl, rfl, rfl, ?_⟩
  simp only [State.markPa, List.map_map]
  refine List.map_congr_left fun c _ => ?_
  dsimp only [Function.comp]
  split
  · exact ctxWork_markItem ..
  · rfl

theorem workKept_storeSide (line : Nat) (d : SideStore) : WorkKept s (s.storeSide line d) := by
  unfold State.storeSide
  split
  · exact ⟨rfl, rfl, rfl, rfl, rfl⟩
  · split <;> exact ⟨rfl, rfl, rfl, rfl, rfl⟩

theorem workKept_touchScales (line : Nat) : WorkKept s (s.touchScales line) := by
  unfold State.touchScales
  split
  · exact (workKept_homeAccess ..).trans (workKept_markPa ..)
  · exact .refl s

/-- Bytes that an agent which is no wave writes. -/
theorem workKept_enterPhys (a : Nat) (ms : Bool) (bytes : List (Option (BitVec 8))) (side : Option SideStore) :
    WorkKept s (s.enterPhys none a ms bytes side) := by
  unfold State.enterPhys
  split
  · exact .refl s
  · refine WorkKept.trans ?_ (workKept_markPa ..)
    have written := ((workKept_homeAccess s a ms true (presentBytes 0 bytes).length).trans
      (workKept_countPeer _ a (presentBytes 0 bytes).length)).trans
        (workKept_mem _ ((s.homeAccess a ms true (presentBytes 0 bytes).length).countPeer a
          (presentBytes 0 bytes).length |>.mem.writeSome a bytes))
    cases side with
    | some d => exact written.trans ((workKept_touchScales ..).trans (workKept_storeSide ..))
    | none => exact written

theorem workKept_agentWrites (l : List (Xlat × BitVec 8)) (side : Option SideStore) : WorkKept s (s.agentWrites l side) := by
  induction l generalizing s side with
  | nil => exact .refl s
  | cons x l ih => exact (workKept_enterPhys ..).trans (ih ..)

theorem workKept_feWrite (c : Nat) (va : DWord) (bs : List (BitVec 8)) : WorkKept s (s.feWrite c va bs) := by
  refine workKept_viaCap s _ _ _ _ _ _ fun t => ?_
  have looked := workKept_agentLooks t c .rd va bs.length
  split
  · exact looked
  · split
    · exact looked
    · exact looked.trans (workKept_agentWrites ..)

end

/-! ### Waves and groups that start (10 R251; 12 R282, R297; 14 R357) -/

/-- Two states have the same groups, and cores with the same arrays. -/
structure ArraysKept (s t : State) : Prop where
  groups : t.groups = s.groups
  arrays : t.cores.map (·.arrays) = s.cores.map (·.arrays)

namespace ArraysKept

variable {s t u : State}

theorem refl (s : State) : ArraysKept s s := ⟨rfl, rfl⟩

theorem trans (h : ArraysKept s t) (h' : ArraysKept t u) : ArraysKept s u :=
  ⟨h'.groups.trans h.groups, h'.arrays.trans h.arrays⟩

theorem foldl {α : Type} {f : State → α → State} (hf : ∀ s x, ArraysKept s (f s x)) (l : List α) (s : State) :
    ArraysKept s (l.foldl f s) := by
  induction l generalizing s with
  | nil => exact .refl s
  | cons x l ih => exact (hf s x).trans (ih _)

theorem of_modCore (s : State) (c : Nat) {f : Core → Core} (h : ∀ y, (f y).arrays = y.arrays) : ArraysKept s (s.modCore c f) :=
  ⟨rfl, map_modify_of_eq fun y _ => h y⟩

end ArraysKept

/-- A wave that has started, with its age (12 R282, R299). -/
def startedWave (w : Wave) (age : Nat) : Wave :=
  { w with st := if w.st = .unstarted then .ready else w.st, stopped := false, age := age, pass := 0 }

/-- The next wave to start on a core is younger (12 R299). -/
def ageUp (c : Core) : Core := { c with ageSeq := c.ageSeq + 1 }

theorem nextAge_state (s : State) (core : Nat) : (s.nextAge core).2 = s.modCore core ageUp := by
  unfold State.nextAge
  split
  · rfl
  next none =>
    have same : s.cores.modify core ageUp = s.cores := List.modify_eq_self (List.getElem?_eq_none_iff.mp none)
    simp only [State.modCore, same]

theorem readyWave_eq (s : State) (n core : Nat) :
    s.readyWave n core = (s.modCore core ageUp).modWave n (fun x => startedWave x (s.nextAge core).1) := by
  rw [← nextAge_state]
  rfl

section
variable (s : State) (k : Nat)

theorem arraysKept_homeRange (pa n : Nat) (write : Bool) : ArraysKept s (s.homeRange pa n write) :=
  .foldl (fun t _ => ⟨(cacheOnly_homeAccess t ..).groups, congrArg _ (sameUnits_homeAccess t ..).1⟩) _ s

theorem arraysKept_dueEcc (code : Nat) (addr : DWord) : ArraysKept s (s.dueEcc k code addr) := by
  unfold State.dueEcc
  split
  · exact .refl s
  · split <;> exact ⟨rfl, rfl⟩

theorem arraysKept_readGens (c : Nat) : ArraysKept s (s.readGens k c) := by
  unfold State.readGens
  split
  · exact .refl s
  · dsimp only
    split
    · exact .refl s
    · split
      · exact (arraysKept_homeRange ..).trans (arraysKept_dueEcc ..)
      · exact arraysKept_homeRange ..

theorem arraysKept_dropStale (core : Nat) : ArraysKept s (s.dropStale core) := by
  unfold State.dropStale
  split
  · exact .refl s
  · refine ArraysKept.trans ⟨(readsOnly_loseCopies ..).groups, congrArg _ (loseCopies_cores ..)⟩ (.of_modCore _ _ ?_)
    exact fun _ => rfl

theorem arraysKept_freshView : ArraysKept s (s.freshView k) := by
  unfold State.freshView
  split
  · exact .refl s
  next w _ =>
    have stamped : ArraysKept s (s.modCore w.core (fun c => { c with stamp := c.stamp + 1#32 })) := .of_modCore s _ fun _ => rfl
    have left (t : State) : ArraysKept t (t.leaveMasks w.core k none) := .of_modCore t _ fun _ => rfl
    exact ((stamped.trans (arraysKept_dropStale ..)).trans (left _)).trans ⟨rfl, rfl⟩

theorem arraysKept_acquire : ArraysKept s (s.acquire k) := by
  unfold State.acquire
  split
  · exact .refl s
  · exact ((arraysKept_readGens ..).trans (arraysKept_freshView ..)).trans ⟨rfl, rfl⟩

theorem arraysKept_readyWave (core : Nat) : ArraysKept s (s.readyWave k core) := by
  rw [readyWave_eq]
  exact (ArraysKept.of_modCore s core (f := ageUp) fun _ => rfl).trans ⟨rfl, rfl⟩

theorem arraysKept_startWave (fresh wake : Bool) : ArraysKept s (s.startWave fresh wake k) := by
  unfold State.startWave
  split
  · exact .refl s
  next w _ =>
    have ready := arraysKept_readyWave s k w.core
    split
    · exact .refl s
    · split
      · exact (ready.trans (arraysKept_acquire ..)).trans ⟨rfl, rfl⟩
      · split
        · exact ready.trans (arraysKept_acquire ..)
        · exact (ready.trans (arraysKept_freshView ..)).trans ⟨rfl, rfl⟩

end

/-- What an acquire leaves of a wave that has started. -/
theorem started_of_unacquired {x w : Wave} {age : Nat} {n : Word}
    (h : unacquired x = unacquired { startedWave w age with acqCnt := n }) :
    x.acqCnt = n ∧ x.st = (if w.st = .unstarted then .ready else w.st) ∧ x.stopped = false ∧ x.pc = w.pc ∧
      x.sregs = w.sregs ∧ x.masks = w.masks ∧ x.vregs = w.vregs := by
  have shown {α : Type} (f : Wave → α) := congrArg f h
  exact ⟨shown Wave.acqCnt, shown Wave.st, shown Wave.stopped, shown Wave.pc, shown Wave.sregs, shown Wave.masks, shown Wave.vregs⟩

section
variable {s : State} {n : Nat} {w : Wave} (hw : s.waves[n]? = some w)
include hw

theorem readyWave_wave (core : Nat) : (s.readyWave n core).waves[n]? = some (startedWave w (s.nextAge core).1) := by
  rw [readyWave_eq, modWave_get, modCore_waves, hw]
  rfl

omit hw in
/-- Making a wave ready changes no generation of a Publish Buffer. -/
theorem readyWave_allGens (core c : Nat) : (s.readyWave n core).allGens c = s.allGens c := by
  rw [readyWave_eq]
  rfl

/-- After its acquiring boundary a wave has adopted the generations of its context (05 R136). -/
theorem acquire_adopted {x : Wave} (hx : (s.acquire n).waves[n]? = some x) : x.adopted = s.allGens w.ctx := by
  obtain ⟨y, hy, -⟩ := ((refreshed_readGens s n w.ctx).trans (refreshed_freshView _ n)).wave hw
  simp only [State.acquire, hw, allWaves_waves, modWave_get, List.getElem?_map, hy, Option.map_some, Option.some.injEq] at hx
  subst hx
  split <;> rfl

/-- A wave that starts with an acquiring boundary. -/
theorem startWave_acquires (live : w.st ≠ .retired) {fresh wake : Bool} (acquires : fresh = true ∨ wake = true) :
    ∃ x, (s.startWave fresh wake n).waves[n]? = some { x with acqCnt := if fresh then 0#32 else x.acqCnt } ∧
      x.snapCur = false ∧ x.adopted = s.allGens w.ctx ∧
      unacquired x = unacquired { startedWave w (s.nextAge w.core).1 with acqCnt := w.acqCnt + 1#32 } := by
  have ready := readyWave_wave hw w.core
  obtain ⟨x, hx, view, kept⟩ := acquire_wave ready
  have gens := (acquire_adopted ready hx).trans (readyWave_allGens w.core w.ctx)
  refine ⟨x, ?_, view, gens, kept⟩
  simp only [State.startWave, hw, live, if_false]
  cases fresh with
  | true => simp only [if_true, modWave_get, hx, Option.map_some]
  | false =>
    obtain rfl : wake = true := acquires.resolve_left Bool.false_ne_true
    simpa using hx

/-- A wave that starts as a resume restored it has SNAP_CUR and SNAP_OVF set (14 R357). -/
theorem startWave_resumes (live : w.st ≠ .retired) :
    ∃ x, (s.startWave false false n).waves[n]? = some { x with snapCur := true, snapOvf := true } ∧
      unacquired x = unacquired (startedWave w (s.nextAge w.core).1) := by
  obtain ⟨x, hx, kept⟩ := (refreshed_freshView (s.readyWave n w.core) n).wave (readyWave_wave hw w.core)
  refine ⟨x, ?_, kept⟩
  simp only [State.startWave, hw, live, if_false, Bool.false_eq_true, modWave_get, hx, Option.map_some]

theorem startWave_wave (live : w.st ≠ .retired) (fresh wake : Bool) : ∃ u, (s.startWave fresh wake n).waves[n]? = some u ∧
    u.st = (if w.st = .unstarted then .ready else w.st) ∧ u.stopped = false ∧ u.pc = w.pc ∧ u.sregs = w.sregs ∧ u.masks = w.masks ∧
    u.vregs = w.vregs ∧ u.snapCur = (!fresh && !wake) ∧ (fresh = true → u.acqCnt = 0#32) ∧
    (fresh = false → wake = true → u.acqCnt = w.acqCnt + 1#32) ∧ (fresh = true ∨ wake = true → u.adopted = s.allGens w.ctx) := by
  by_cases acquires : fresh = true ∨ wake = true
  · obtain ⟨x, hx, view, gens, kept⟩ := startWave_acquires hw live acquires
    obtain ⟨count, st, stopped, pc, sregs, masks, vregs⟩ := started_of_unacquired kept
    refine ⟨_, hx, st, stopped, pc, sregs, masks, vregs, view.trans ?_, fun h => if_pos h,
      fun h _ => (if_neg (by simp [h])).trans count, fun _ => gens⟩
    rcases acquires with rfl | rfl <;> simp
  · obtain ⟨rfl, rfl⟩ : fresh = false ∧ wake = false := by simpa using acquires
    obtain ⟨x, hx, kept⟩ := startWave_resumes hw live
    obtain ⟨-, st, stopped, pc, sregs, masks, vregs⟩ := started_of_unacquired (n := w.acqCnt) kept
    exact ⟨_, hx, st, stopped, pc, sregs, masks, vregs, rfl, nofun, nofun, by simp⟩

end

/-! #### A group -/

theorem setArrays_groups (s : State) (y : Group) (sets : List (List ArrayUnit)) : (s.setArrays y sets).groups = s.groups := by
  unfold State.setArrays
  generalize y.cores.zip sets = l
  induction l generalizing s with
  | nil => rfl
  | cons x l ih => exact ih _

/-- The arrays of a core are zero after the members of a list that it is one of have taken zero arrays. -/
theorem foldl_zeroArrays (l : List Nat) {s : State} {i : Nat}
    (zeroed : i ∈ l ∨ ∀ e, s.cores[i]? = some e → e.arrays = List.replicate 4 ArrayUnit.zero) {e : Core}
    (he : ((l.map fun k => (k, List.replicate 4 ArrayUnit.zero)).foldl
      (fun (t : State) x => t.modCore x.1 (fun c => { c with arrays := x.2 })) s).cores[i]? = some e) :
    e.arrays = List.replicate 4 ArrayUnit.zero := by
  induction l generalizing s with
  | nil => exact zeroed.elim nofun fun h => h e he
  | cons k l ih =>
    refine ih ?_ he
    by_cases here : k = i
    · refine .inr fun z hz => ?_
      simp only [modCore_cores, List.getElem?_modify, here, if_true, Option.map_eq_map] at hz
      obtain ⟨y, -, rfl⟩ := Option.map_eq_some_iff.mp hz
      rfl
    · refine zeroed.imp (fun h => (List.mem_cons.mp h).resolve_left (Ne.symm here)) fun h z hz => h z ?_
      simpa only [modCore_cores, List.getElem?_modify, here, if_false, id_map'] using hz

theorem setArrays_zero (s : State) (y : Group) {i : Nat} (member : i ∈ y.cores) {e : Core}
    (he : (s.setArrays y (List.replicate y.cores.length (List.replicate 4 ArrayUnit.zero))).cores[i]? = some e) :
    e.arrays = List.replicate 4 ArrayUnit.zero := by
  refine foldl_zeroArrays y.cores (.inl member) (s := s) ?_
  have zip (l : List Nat) (a : List ArrayUnit) : l.zip (List.replicate l.length a) = l.map fun k => (k, a) := by
    induction l with
    | nil => rfl
    | cons k l ih => simp [List.replicate_succ, ih]
  rwa [State.setArrays, zip] at he

section
variable {s : State} {g : Nat} {y : Group} (hy : s.groups[g]? = some y)
include hy

theorem startGroup_eq : s.startGroup g = (y.waves.foldl (fun t i => t.startWave y.fresh y.wake i)
      (if y.claim then s.setArrays y (if y.fresh then List.replicate y.cores.length (List.replicate 4 ArrayUnit.zero) else y.saved)
        else s)).modGroup g (fun h => { h with
      st := if (s.ctxs[y.ctx]?).any (fun e => e.st == .faulted) then .faulted else .running
      fresh := false, started := true, wake := false, saved := [] }) := by
  simp only [State.startGroup, hy]
  cases s.ctxs[y.ctx]? <;> rfl

theorem startGroup_group : ∃ h, (s.startGroup g).groups[g]? = some h ∧ h.started = true ∧ h.fresh = false ∧ h.wake = false ∧
    h.st = (if (s.ctxs[y.ctx]?).any (fun e => e.st == .faulted) then .faulted else .running) ∧ h.gregs = y.gregs := by
  have groups := (ArraysKept.foldl (fun t i => arraysKept_startWave t i y.fresh y.wake) y.waves (if y.claim then s.setArrays y
    (if y.fresh then List.replicate y.cores.length (List.replicate 4 ArrayUnit.zero) else y.saved) else s)).groups
  have same : (if y.claim then s.setArrays y (if y.fresh then List.replicate y.cores.length (List.replicate 4 ArrayUnit.zero)
      else y.saved) else s).groups = s.groups := by
    split
    · exact setArrays_groups ..
    · rfl
  rw [startGroup_eq hy, modGroup_groups]
  simp only [List.getElem?_modify, if_true, groups, same, hy]
  exact ⟨_, rfl, rfl, rfl, rfl, rfl, rfl⟩

theorem startGroup_arrays (claims : y.claim = true) (fresh : y.fresh = true) {i : Nat} (member : i ∈ y.cores) {e : Core}
    (he : (s.startGroup g).cores[i]? = some e) : e.arrays = List.replicate 4 ArrayUnit.zero := by
  rw [startGroup_eq hy, modGroup_cores, if_pos claims, if_pos fresh] at he
  have kept := congrArg (·[i]?) (ArraysKept.foldl (fun t i => arraysKept_startWave t i y.fresh y.wake) y.waves
    (s.setArrays y (List.replicate y.cores.length (List.replicate 4 ArrayUnit.zero)))).arrays
  simp only [List.getElem?_map, he, Option.map_some] at kept
  obtain ⟨z, hz, arrays⟩ := Option.map_eq_some_iff.mp kept.symm
  exact arrays.symm.trans (setArrays_zero s y member hz)

end

/-! ### A group that is placed (12 R280, R281, R285, R293) -/

section
variable (group ctx index stage core slot : Nat) (r : Role) (args : DWord) (regs : List DWord)

/-- s1 holds the address of the arguments, s2 to s5 the registers of the launch, and the others zero (12 R285). -/
theorem fresh_s (m : Nat) : (Wave.fresh group ctx index stage core slot r args regs).s m =
    if m = 1 then args else if 2 ≤ m ∧ m ≤ 5 then regs.getD (m - 2) 0#64 else 0#64 := by
  by_cases zero : m = 0
  · simp [zero]
  · rw [Wave.s, if_neg zero]
    simp only [Wave.fresh, List.getD_eq_getElem?_getD, List.getElem?_mapIdx, List.getElem?_set, List.getElem?_replicate,
      List.length_replicate]
    by_cases one : m = 1
    · simp [one]
    · by_cases inside : m < 64
      · simp [one, Ne.symm one, inside]
      · simp [Ne.symm one, one, inside, show ¬ (2 ≤ m ∧ m ≤ 5) by omega]

/-- m0 is all ones, and the other masks that can be written are zero (12 R285). -/
theorem fresh_m {m : Nat} (h : m ≤ 6) : (Wave.fresh group ctx index stage core slot r args regs).m m =
    if m = 0 then 0xFFFFFFFF#32 else 0#32 := by
  interval_cases m <;> rfl

end

section
variable (w : Wave) (m : Nat)

theorem s_killed (b : Bool) : ({ w with killed := b } : Wave).s m = w.s m := rfl

theorem m_killed (b : Bool) : ({ w with killed := b } : Wave).m m = w.m m := rfl

theorem s_reseated (slot : Nat) (dirty : List Nat) : ({ w with slot := slot, dirty := dirty } : Wave).s m = w.s m := rfl

theorem m_reseated (slot : Nat) (dirty : List Nat) : ({ w with slot := slot, dirty := dirty } : Wave).m m = w.m m := rfl

end

/-! #### Seating waves -/

/-- Slots are given to the waves and on the cores that are listed. -/
theorem mem_giveSlots {used : Nat → List Nat} {l : List (Nat × Nat)} {e : Nat × Nat × Nat} (h : e ∈ giveSlots used l) :
    (e.1, e.2.1) ∈ l := by
  induction l generalizing used with
  | nil => cases h
  | cons x l ih =>
    rcases List.mem_cons.mp h with rfl | h
    · exact List.mem_cons_self
    · exact List.mem_cons_of_mem _ (ih h)

section
variable {s : State} {i : Nat}

theorem seat_other {l : List (Nat × Nat × Nat)} (others : ∀ e ∈ l, e.1 ≠ i) : (s.seat l).waves[i]? = s.waves[i]? := by
  induction l generalizing s with
  | nil => rfl
  | cons e l ih =>
    refine (ih fun e he => others e (List.mem_cons_of_mem _ he)).trans ?_
    exact modWave_get_other _ _ _ _ (others e List.mem_cons_self)

/-- A wave that is seated on its own core takes a slot, and its lines are marked. -/
theorem seat_wave {l : List (Nat × Nat × Nat)} {w : Wave} (hw : s.waves[i]? = some w) (own : ∀ e ∈ l, e.1 = i → e.2.1 = w.core) :
    ∃ slot dirty, (s.seat l).waves[i]? = some { w with slot := slot, dirty := dirty } := by
  induction l generalizing s w with
  | nil => exact ⟨w.slot, w.dirty, hw⟩
  | cons e l ih =>
    have later (z : Wave) (h : z.core = w.core) (e' : Nat × Nat × Nat) (he : e' ∈ l) (at_i : e'.1 = i) : e'.2.1 = z.core :=
      (own e' (List.mem_cons_of_mem _ he) at_i).trans h.symm
    by_cases here : e.1 = i
    · have core := own e List.mem_cons_self here
      obtain ⟨slot, dirty, hu⟩ := ih (s := s.modWave e.1 (fun w => { w with
        core := e.2.1, slot := e.2.2, dirty := poolMarks w.numV w.numH w.numB })) (by rw [here, modWave_get, hw]; rfl)
          (later _ core)
      exact ⟨slot, dirty, hu.trans (by rw [core])⟩
    · exact ih ((modWave_get_other _ _ _ _ here).trans hw) (later w rfl)

theorem seat_groups (s : State) (l : List (Nat × Nat × Nat)) : (s.seat l).groups = s.groups := by
  unfold State.seat
  induction l generalizing s with
  | nil => rfl
  | cons e l ih => exact ih _

theorem seat_launches (s : State) (l : List (Nat × Nat × Nat)) : (s.seat l).launches = s.launches := by
  unfold State.seat
  induction l generalizing s with
  | nil => rfl
  | cons e l ih => exact ih _

end

/-- The live waves of a group that are given slots, with the cores of their span members. -/
theorem seatGroup_waves {s : State} {g : Nat} {y : Group} (hy : s.groups[g]? = some y) (q : Nat) (cores : List Nat) :
    ∃ l, (s.seatGroup g q cores).waves = (s.seat l).waves ∧
      ∀ e ∈ l, ∃ i, y.waves[i]? = some e.1 ∧ e.2.1 = cores.getD (i / q) 0 := by
  simp only [State.seatGroup, hy]
  refine ⟨_, rfl, fun e he => ?_⟩
  obtain ⟨z, live, same⟩ := List.mem_map.mp (mem_giveSlots he)
  obtain ⟨wave, core⟩ := Prod.mk.inj same
  exact ⟨z.2, wave ▸ List.mem_zipIdx_iff_getElem?.mp (List.mem_of_mem_filter live), core.symm⟩

theorem seatGroup_group {s : State} {g : Nat} {y : Group} (hy : s.groups[g]? = some y) (q : Nat) (cores : List Nat) :
    (s.seatGroup g q cores).groups[g]? = some { y with
      cores := cores, spanQ := q, st := .starting, started := false, dirty := List.range (32 * y.blockGranules) } := by
  simp only [State.seatGroup, hy, modGroup_groups, seat_groups, List.getElem?_modify, if_true]
  rfl

theorem seatGroup_launches (s : State) (g q : Nat) (cores : List Nat) : (s.seatGroup g q cores).launches = s.launches := by
  unfold State.seatGroup
  split
  · rfl
  · exact seat_launches ..

/-! #### The head group of a launch -/

theorem pick_state (s : State) (free : Nat → Bool) (n : Nat) : (s.pick free n).2 = { s with draws := s.draws + 1 } := by
  unfold State.pick State.draw
  dsimp only
  split <;> rfl

theorem pickTag_kept (s : State) (c : Nat) : (s.pickTag c).2.2.groups = s.groups ∧ (s.pickTag c).2.2.waves = s.waves ∧
    (s.pickTag c).2.2.launches = s.launches := by
  unfold State.pickTag
  extract_lets inUse past phase
  rcases picked : s.pick _ glintTags with ⟨_ | k, u⟩
  all_goals
    obtain rfl : u = { s with draws := s.draws + 1 } := (congrArg Prod.snd picked).symm.trans (pick_state ..)
    exact ⟨rfl, rfl, rfl⟩

/-- Wave `i` of the head group of a launch, in the role `p` of its kernel (12 R281, R285). -/
def freshWave (s : State) (x : Launch) (q : Nat) (cores : List Nat) (i : Nat) (p : Nat × Role) : Wave :=
  { Wave.fresh s.groups.length x.ctx i p.1 (cores.getD (i / q) 0) 0 p.2 x.args x.regs with killed := x.dead }

def freshWaves (s : State) (x : Launch) (q : Nat) (cores : List Nat) : List Wave :=
  x.kernel.waveRoles.zipIdx.map (fun y => freshWave s x q cores y.2 y.1)

theorem freshWaves_get (s : State) {x : Launch} (q : Nat) (cores : List Nat) {i : Nat} {p : Nat × Role}
    (hp : x.kernel.waveRoles[i]? = some p) : (freshWaves s x q cores)[i]? = some (freshWave s x q cores i p) := by
  simp only [freshWaves, List.getElem?_map, List.getElem?_zipIdx, hp, Option.map_some, Nat.zero_add]

/-- The head group of a launch before it takes its place. -/
def IsHead (s : State) (g : Nat) (x : Launch) (y : Group) : Prop :=
  y.ctx = x.ctx ∧ y.launch = g ∧ y.index = x.next ∧ y.coord = coordOf x.extent x.next ∧ y.extent = x.extent ∧
    y.gregs = List.replicate 256 0#64 ∧ y.scratch = Mem.empty ∧ y.depth = x.depth ∧ y.sib = x.sib ∧ y.slots = x.slots ∧
    y.tree = x.tree ∧ y.claim = x.mclaim ∧ y.waves = (List.range x.kernel.waveRoles.length).map (· + s.waves.length)

/-- The head group and its waves enter the tables, and then take their places. -/
theorem placeNew_enters (s : State) (g : Nat) (x : Launch) (q : Nat) (cores : List Nat) : ∃ (u : State) (y : Group),
    s.placeNew g x q cores = u.seatGroup s.groups.length q cores ∧ u.groups = s.groups ++ [y] ∧ IsHead s g x y ∧
      u.waves = s.waves ++ freshWaves s x q cores ∧ u.launches = s.launches.modify g (fun l => { l with
        next := l.next + 1, listed := !decide (x.extent.1 * x.extent.2.1 * x.extent.2.2 ≤ x.next + 1) }) := by
  obtain ⟨groups, waves, launches⟩ := pickTag_kept s x.ctx
  refine ⟨_, _, rfl, congrArg (· ++ [_]) groups, ?_, congrArg (· ++ freshWaves s x q cores) waves,
    congrArg (List.modify · g _) launches⟩
  exact ⟨rfl, rfl, rfl, rfl, rfl, rfl, rfl, rfl, rfl, rfl, rfl, rfl, rfl⟩

section
variable {s : State} {g : Nat} {x : Launch} (hx : s.launches[g]? = some x) (q : Nat) (cores : List Nat)

theorem placeNew_group : ∃ h, (s.placeNew g x q cores).groups[s.groups.length]? = some h ∧ h.st = .starting ∧ h.cores = cores ∧
    IsHead s g x h := by
  obtain ⟨u, y, placed, groups, head, -⟩ := placeNew_enters s g x q cores
  have entered : u.groups[s.groups.length]? = some y := by simp [groups]
  have seated := seatGroup_group entered q cores
  rw [placed]
  exact ⟨_, seated, rfl, rfl, head⟩

include hx in
theorem placeNew_launch : ∃ l, (s.placeNew g x q cores).launches[g]? = some l ∧ l.next = x.next + 1 ∧
    l.listed = !decide (x.extent.1 * x.extent.2.1 * x.extent.2.2 ≤ x.next + 1) := by
  obtain ⟨u, y, placed, -, -, -, launches⟩ := placeNew_enters s g x q cores
  rw [placed, seatGroup_launches, launches]
  simp only [List.getElem?_modify, hx, if_true]
  exact ⟨_, rfl, rfl, rfl⟩

/-- The waves that are seated are those of the head group, on the cores of their span members. -/
theorem placeNew_waves : ∃ (u : State) (l : List (Nat × Nat × Nat)),
    (s.placeNew g x q cores).waves = (u.seat l).waves ∧ u.waves = s.waves ++ freshWaves s x q cores ∧
    ∀ e ∈ l, ∃ i, i < x.kernel.waveRoles.length ∧ e.1 = s.waves.length + i ∧ e.2.1 = cores.getD (i / q) 0 := by
  obtain ⟨u, y, placed, groups, head, waves, -⟩ := placeNew_enters s g x q cores
  obtain ⟨-, -, -, -, -, -, -, -, -, -, -, -, list⟩ := head
  obtain ⟨l, seated, members⟩ := seatGroup_waves (s := u) (g := s.groups.length) (y := y) (by simp [groups]) q cores
  refine ⟨u, l, placed ▸ seated, waves, fun e he => ?_⟩
  obtain ⟨i, wave, core⟩ := members e he
  rw [list, List.getElem?_map, Option.map_eq_some_iff] at wave
  obtain ⟨k, hk, wave⟩ := wave
  obtain ⟨inside, rfl⟩ := List.getElem?_eq_some_iff.mp hk
  rw [List.getElem_range] at wave
  rw [List.length_range] at inside
  exact ⟨i, inside, by omega, core⟩

theorem placeNew_wave {i : Nat} {p : Nat × Role} (hp : x.kernel.waveRoles[i]? = some p) : ∃ slot dirty,
    (s.placeNew g x q cores).waves[s.waves.length + i]? = some
      { freshWave s x q cores i p with slot := slot, dirty := dirty } := by
  obtain ⟨u, l, placed, entered, seated⟩ := placeNew_waves (s := s) (g := g) (x := x) q cores
  rw [placed]
  have unseated : u.waves[s.waves.length + i]? = some (freshWave s x q cores i p) := by
    rw [entered, List.getElem?_append_right (Nat.le_add_right ..), Nat.add_sub_cancel_left]
    exact freshWaves_get s q cores hp
  refine seat_wave unseated fun e he at_i => ?_
  obtain ⟨j, -, wave, core⟩ := seated e he
  obtain rfl : j = i := by omega
  exact core

/-- The registers that a wave of the head group starts with (12 R285). -/
theorem placeNew_wave_entry {i : Nat} {p : Nat × Role} (hp : x.kernel.waveRoles[i]? = some p) : ∃ u : Wave,
    (s.placeNew g x q cores).waves[s.waves.length + i]? = some u ∧ u.group = s.groups.length ∧ u.ctx = x.ctx ∧ u.index = i ∧
      u.stage = p.1 ∧ u.core = cores.getD (i / q) 0 ∧ u.st = .unstarted ∧ u.handler = false ∧ u.pc = p.2.entry ∧
      (∀ m, u.s m = if m = 1 then x.args else if 2 ≤ m ∧ m ≤ 5 then x.regs.getD (m - 2) 0#64 else 0#64) ∧
      (∀ m, m ≤ 6 → u.m m = if m = 0 then 0xFFFFFFFF#32 else 0#32) ∧ u.vregs = List.replicate p.2.numV VReg.zero ∧
      u.hvs = List.replicate p.2.numH 0#8192 ∧ u.bas = List.replicate p.2.numB 0#65536 ∧ u.hvtie = 0x9E3779B97F4A7C15#64 ∧
      u.fpflags = flagNone ∧ u.snapCur = false ∧ u.snapOvf = false ∧ u.mirror.valid = false := by
  obtain ⟨slot, dirty, hu⟩ := placeNew_wave (s := s) (g := g) q cores hp
  refine ⟨_, hu, rfl, rfl, rfl, rfl, rfl, rfl, rfl, rfl, fun m => ?_, fun m h => ?_, rfl, rfl, rfl, rfl, rfl, rfl, rfl, rfl⟩
  · rw [s_reseated, freshWave, s_killed, fresh_s]
  · rw [m_reseated, freshWave, m_killed, fresh_m _ _ _ _ _ _ _ _ _ h]

theorem placeNew_other {i : Nat} (old : i < s.waves.length) : (s.placeNew g x q cores).waves[i]? = s.waves[i]? := by
  obtain ⟨u, l, placed, entered, seated⟩ := placeNew_waves (s := s) (g := g) (x := x) q cores
  rw [placed, seat_other fun e he => ?_, entered, List.getElem?_append_left old]
  obtain ⟨j, -, wave, -⟩ := seated e he
  omega

end

/-! ### Sample groups and sets of records that are dropped (13 R316, R323, R324) -/

section
variable (s : State)

theorem workKept_wakeGroup (g : Nat) : WorkKept s (s.wakeGroup g) := by
  unfold State.wakeGroup
  split
  · exact .refl s
  · split
    · split <;> exact ⟨rfl, rfl, rfl, rfl, rfl⟩
    · split
      · exact ⟨rfl, rfl, rfl, rfl, rfl⟩
      · exact .refl s

theorem workKept_modSgo (c : Nat) (r : SibRef) (f : Sgo → Sgo) : WorkKept s (s.modSgo c r f) := .of_modCtx s c fun _ => rfl

theorem workKept_settleSgo (c : Nat) (r : SibRef) : WorkKept s (s.settleSgo c r) := by
  unfold State.settleSgo
  split
  · exact .refl s
  next o _ =>
    extract_lets finalised
    have final : WorkKept s finalised := by
      unfold finalised
      split
      · exact (workKept_modSgo ..).trans (.foldl workKept_wakeGroup ..)
      · exact .refl s
    split
    · split
      · exact final.trans (workKept_modSgo ..)
      · exact final
    · exact final

theorem workKept_sgTimeout (c : Nat) (o : Sgo) (clock : Nat) : WorkKept s (s.sgTimeout c o clock) := by
  unfold State.sgTimeout
  split
  · split
    · exact (workKept_modSgo ..).trans (workKept_settleSgo ..)
    · exact .refl s
  · exact .refl s

theorem workKept_sibEnded (c : Nat) (r : SibRef) : WorkKept s (s.sibEnded c r) := by
  have expired : WorkKept s (s.sgExpire c r) := by
    unfold State.sgExpire
    split
    · exact workKept_sgTimeout ..
    · exact .refl s
  exact (expired.trans (workKept_modSgo ..)).trans (workKept_settleSgo ..)

/-- A set that is dropped leaves as many trees as there were. -/
theorem dropSet_trees_length (c b : Nat) (x : Bin) : (s.dropSet c b x).trees.length = s.trees.length := by
  unfold State.dropSet
  extract_lets dropped
  have same : dropped.trees.length = s.trees.length := List.length_modify ..
  split
  · rw [(workKept_sibEnded ..).trees, same]
  · exact same

end

/-! ### The launch of a bin that fires (13 R314, R315, R316) -/

section
variable {s : State} {c b : Nat}

theorem recBase_modCtx (s : State) (c d : Nat) {f : Ctx → Ctx} (h : ∀ y, (f y).act = y.act) :
    (s.modCtx c f).recBase d = s.recBase d := by
  simp only [State.recBase, modCtx_ctxs, List.getElem?_modify]
  by_cases here : c = d
  · cases s.ctxs[d]? <;> simp [here, h]
  · simp [here]

/-- The entry of a bin after a change of it. -/
theorem binOf_modBin {e : Bin} (he : s.binOf c b = some e) (f : Bin → Bin) : (s.modBin c b f).binOf c b = some (f e) := by
  simp only [State.binOf] at he
  cases hz : s.ctxs[c]? with
  | none => simp [hz] at he
  | some z =>
    simp only [hz, Option.map_eq_some_iff] at he
    obtain ⟨p, found, rfl⟩ := he
    have named : p.1 = b := by simpa using List.find?_some found
    have keys : (fun y : Nat × Bin => y.1 == b) ∘ (fun y => if y.1 = b then (y.1, f y.2) else y) = fun y => y.1 == b := by
      funext y
      dsimp only [Function.comp]
      split <;> rfl
    simp only [State.binOf, State.modBin, modCtx_ctxs, List.getElem?_modify, if_true, hz, Option.map_eq_map, Option.map_some,
      List.find?_map, keys, found, if_pos named]

theorem workKept_pickTable {len off : Nat} {v : State} (picked : s.pickTable c len = some (off, v)) : WorkKept s v := by
  obtain ⟨gap, -, same⟩ := Option.map_eq_some_iff.mp picked
  obtain rfl : s.draw.2 = v := congrArg Prod.snd same
  exact ⟨rfl, rfl, rfl, rfl, rfl⟩

/-- A bin's launch without a table gets one, whose place its registers name, or stays as it is (13 R314; log 11). -/
theorem giveTable_cases {u : State} {k : Nat} {l : Launch} (hl : u.launches[k]? = some l) (bin : l.origin = .bin b)
    (without : l.table = none) (listed : l.listed = true) : u.giveTable k = u ∨ ∃ v off, WorkKept u v ∧
      u.giveTable k = v.modLaunch k (fun y => { y with
        table := some (off, 8 * l.slots.length)
        regs := [u.recBase l.ctx + BitVec.ofNat 64 (tableArea + off), BitVec.ofNat 64 l.slots.length, BitVec.ofNat 64 l.depth,
          (l.sib.map SibRef.word).getD (BitVec.ofNat 64 b)] }) := by
  simp only [State.giveTable, hl, bin, without, listed, Option.isSome_none, Bool.not_true, Bool.or_false, Bool.false_eq_true, if_false]
  rcases picked : u.pickTable l.ctx (8 * l.slots.length) with _ | ⟨off, v⟩
  · exact .inl rfl
  · have kept := workKept_pickTable picked
    generalize l.sib = sib
    cases sib
    all_goals
      refine .inr ⟨_, off, ?_, rfl⟩
      refine (kept.trans (workKept_feWrite ..)).trans (.of_modCtx _ _ ?_)
      exact fun _ => rfl

/-- The launch that a set of records becomes, as it enters the dispatch list (13 R316). -/
def binLaunch (s : State) (c b : Nat) (e : Bin) (k : Kernel) : Launch :=
  { ctx := c, num := (s.readHome c k (qAt e.quads 2)).2.nextLaunch, tree := e.tree, origin := .bin b, kernel := k,
    args := qAt e.quads 2, extent := (1, 1, 1), mclaim := (qAt e.quads 0).getLsbD 1, home := (s.readHome c k (qAt e.quads 2)).1,
    stride := (0#64, 0#64, 0#64), next := 0, regs := [], depth := e.depth, sib := e.sib, slots := e.slots, table := none,
    listed := true, dead := false }

/-- The machine after the home pointer has been read, in which the launch has entered and the bin is empty, its tables aside. -/
def binEntered (s : State) (c b : Nat) (e : Bin) (k : Kernel) : State :=
  let u := (s.readHome c k (qAt e.quads 2)).2
  (({ u with launches := u.launches ++ [binLaunch s c b e k] } : State).modTree e.tree
    (fun t => { t with pend := t.pend - e.slots.length + 1 })).modBin c b (fun y => { y with slots := [], sib := none })

variable {e : Bin} {k : Kernel}

theorem binEntered_launch : (binEntered s c b e k).launches[s.launches.length]? = some (binLaunch s c b e k) := by
  have kept := workKept_readHome s c k (qAt e.quads 2)
  have same : (binEntered s c b e k).launches = s.launches ++ [binLaunch s c b e k] := congrArg (· ++ [_]) kept.launches
  rw [same, List.getElem?_concat_length]

theorem binEntered_recBase : (binEntered s c b e k).recBase c = s.recBase c := by
  have kept := workKept_readHome s c k (qAt e.quads 2)
  refine (recBase_modCtx _ c c ?_).trans (kept.recBase c)
  exact fun _ => rfl

variable (he : s.binOf c b = some e)
include he

theorem binEntered_bin : (binEntered s c b e k).binOf c b = some { e with slots := [], sib := none } := by
  have kept := workKept_readHome s c k (qAt e.quads 2)
  exact binOf_modBin (f := fun y => { y with slots := [], sib := none }) (e := e) ((kept.binOf c b).trans he)

variable (set : e.slots ≠ []) (hk : s.kernelOf c (qAt e.quads 1) = some k)
include set hk

/-- A set whose kernel fits becomes a launch of one group, which looks for a place of its table at once. -/
theorem fireBin_fits (fits : s.couldPlace (s.domainOf c) (k.needs (fun _ => true)) = true) :
    s.fireBin c b = (binEntered s c b e k).giveTable s.launches.length := by
  have kept := workKept_readHome s c k (qAt e.quads 2)
  rw [← kept.launches]
  simp only [State.fireBin, he, set, if_false, hk, fits, if_true]
  rfl

theorem fireBin_launch (fits : s.couldPlace (s.domainOf c) (k.needs (fun _ => true)) = true) :
    (∃ table regs, (s.fireBin c b).launches[s.launches.length]? = some { binLaunch s c b e k with table := table, regs := regs } ∧
      (table = none ∧ regs = [] ∨ ∃ off, table = some (off, 8 * e.slots.length) ∧
        regs = [s.recBase c + BitVec.ofNat 64 (tableArea + off), BitVec.ofNat 64 e.slots.length, BitVec.ofNat 64 e.depth,
          (e.sib.map SibRef.word).getD (BitVec.ofNat 64 b)])) ∧
      (s.fireBin c b).binOf c b = some { e with slots := [], sib := none } := by
  have launch := binEntered_launch (s := s) (c := c) (b := b) (e := e) (k := k)
  have bin := binEntered_bin (k := k) he
  rw [fireBin_fits he set hk fits]
  obtain same | ⟨v, off, kept, same⟩ := giveTable_cases launch rfl rfl rfl
  · rw [same]
    exact ⟨⟨_, _, launch, .inl ⟨rfl, rfl⟩⟩, bin⟩
  · have base : (binEntered s c b e k).recBase (binLaunch s c b e k).ctx = s.recBase c := binEntered_recBase
    rw [base] at same
    refine ⟨⟨_, _, ?_, .inr ⟨off, rfl, rfl⟩⟩, ?_⟩
    · rw [same, modLaunch_launches, kept.launches, List.getElem?_modify_eq, launch]
      rfl
    · rw [same]
      exact (kept.binOf c b).trans bin

/-- A set whose kernel fits on no core is dropped, and its tree has failed (12 R287; log 40). -/
theorem fireBin_fails (fits : s.couldPlace (s.domainOf c) (k.needs (fun _ => true)) = false) (tree : e.tree < s.trees.length) :
    ∃ u, (s.fireBin c b).trees[e.tree]? = some u ∧ u.failed = true := by
  simp only [State.fireBin, he, set, if_false, hk, fits, Bool.false_eq_true]
  rw [← dropSet_trees_length s c b e] at tree
  rw [modTree_trees, List.getElem?_modify_eq, List.getElem?_eq_getElem tree]
  exact ⟨_, rfl, rfl⟩

end

/-! ### A launch with a tree of its own (12 R287; 13 R310, R318) -/

section
variable (s : State) (c : Nat) (o : Origin) (k : Kernel) (args : DWord) (e : Nat × Nat × Nat) (claim : Bool)
  (stride : DWord × DWord × DWord)

/-- Does the kernel fit on some core, as the machine stands after its home pointer has been read? -/
def launchFits : Bool :=
  let h := s.readHome c k args
  h.2.couldPlace (h.2.domainOf c) (k.needs (fun _ => true))

def ownLaunch : Launch :=
  { ctx := c, num := (s.readHome c k args).2.nextLaunch, tree := s.trees.length, origin := o, kernel := k, args := args, extent := e,
    mclaim := claim, home := (s.readHome c k args).1, stride := stride, next := 0, regs := [], depth := 0, sib := none, slots := [],
    table := none, listed := launchFits s c k args, dead := false }

def ownTree : Tree :=
  { ctx := c, origin := o, live := 0, pend := 0, infl := 0
    unplaced := if launchFits s c k args then e.1 * e.2.1 * e.2.2 else 0, done := 0, ended := 0
    failed := !launchFits s c k args, abandoned := false, isOpen := true }

theorem launch_enters : (s.launch c o k args e claim stride).launches = s.launches ++ [ownLaunch s c o k args e claim stride] ∧
    (s.launch c o k args e claim stride).trees = s.trees ++ [ownTree s c o k args e] ∧
    (s.launch c o k args e claim stride).runs = s.runs := by
  have kept := workKept_readHome s c k args
  refine ⟨?_, congrArg (· ++ [_]) kept.trees, kept.runs⟩
  unfold ownLaunch
  rw [← kept.launches, ← kept.trees]
  rfl

theorem launch_launch : (s.launch c o k args e claim stride).launches[s.launches.length]? =
    some (ownLaunch s c o k args e claim stride) := by
  rw [(launch_enters ..).1, List.getElem?_concat_length]

theorem launch_tree : (s.launch c o k args e claim stride).trees[s.trees.length]? = some (ownTree s c o k args e) := by
  rw [(launch_enters ..).2.1, List.getElem?_concat_length]

end

/-! ### A graph that begins, and a node that becomes ready (13 R312) -/

theorem beginGraph_eq (s : State) (c b ring pkt : Nat) :
    let h := s.graphHeader c b
    let l := List.range (graphNodes s.mem h)
    s.beginGraph c b ring pkt = (l.filter (fun i => nodePreds s.mem h i == 0)).foldl (fun t i => t.startNode s.runs.length i)
      (State.tableReads { s with runs := s.runs ++ [{ ctx := c, table := b, ring := ring, pkt := pkt
                                                      counts := l.map (nodePreds s.mem h), waiting := [], running := 0
                                                      retired := 0, ended := 0, failed := none, live := true }] }
        (graphRanges s.mem h)) := by
  intro h l
  have counted : l.filter (fun i => (l.map (nodePreds s.mem h)).getD i 0 == 0) = l.filter (fun i => nodePreds s.mem h i == 0) := by
    refine List.filter_congr fun i hi => ?_
    rw [List.getD_eq_getElem?_getD, List.getElem?_map, List.getElem?_range (List.mem_range.mp hi)]
    rfl
  rw [← counted]
  rfl

section
variable {s : State} {n j : Nat} {r : GraphRun} (hr : s.runs[n]? = some r)
include hr

theorem startNode_waits (full : 4096 ≤ s.openTrees r.ctx ∨ s.sealing r.ctx = true) :
    s.startNode n j = s.modRun n (fun e => { e with waiting := e.waiting ++ [j] }) := by
  have held : (decide (4096 ≤ s.openTrees r.ctx) || s.sealing r.ctx) = true := by simpa using full
  simp only [State.startNode, hr, held, if_true]

omit hr in
/-- What becomes of the run once the tree of its node is open: a tree that has failed fails the run at the node. -/
theorem nodeOpened {t u : State} {f : Tree} (trees : t.trees = s.trees ++ [f])
    (same : u = if t.trees.getLast?.any (·.failed) then t.failRun n j else t) :
    u.trees[s.trees.length]? = some f ∧ u.launches = t.launches ∧ u.runs[n]? = (t.runs[n]?).map (fun x => { x with
      failed := if f.failed then some ((x.failed.map (min j)).getD j) else x.failed }) := by
  subst same
  rw [trees, List.getLast?_concat, Option.any_some]
  cases f.failed with
  | true =>
    refine ⟨?_, rfl, ?_⟩
    · rw [if_pos rfl, State.failRun, modRun_trees, trees, List.getElem?_concat_length]
    · rw [if_pos rfl, State.failRun, modRun_runs, List.getElem?_modify_eq]
      rfl
  | false =>
    refine ⟨?_, rfl, ?_⟩
    · rw [if_neg Bool.false_ne_true, trees, List.getElem?_concat_length]
    · rw [if_neg Bool.false_ne_true]
      cases t.runs[n]? <;> rfl

/-- The tree of a node that is not launched (12 R287; 19 R408). -/
def failedNode (c run j : Nat) : Tree :=
  { ctx := c, origin := .node run j, live := 0, pend := 0, infl := 0, unplaced := 0, done := 0, ended := 0, failed := true
    abandoned := false, isOpen := true }

/-- One more node of a run is running. -/
def oneMore (x : GraphRun) : GraphRun := { x with running := x.running + 1 }

variable (free : s.openTrees r.ctx < 4096) (unsealed : s.sealing r.ctx = false)
include free unsealed

/-- A node that Lantern's entry does not hold is not read, and its tree has failed (19 R408; log 84). -/
theorem startNode_noEntry (cap : s.capFor 3 (.graph r.ctx r.table 1) r.ctx (64 * j) 64 false = none) :
    (s.startNode n j).trees[s.trees.length]? = some (failedNode r.ctx n j) := by
  have held : (decide (4096 ≤ s.openTrees r.ctx) || s.sealing r.ctx) = false := by simp [free, unsealed]
  refine (nodeOpened (n := n) (t := (s.frontError.modRun n oneMore).openTree (failedNode r.ctx n j)) (j := j)
    (congrArg (· ++ [_]) (workKept_frontError s).trees) ?_).1
  simp only [State.startNode, hr, held, Bool.false_eq_true, if_false, cap, Option.map_none, Option.getD_none, Option.bind_none]
  rfl

variable {v : State} (cap : s.capFor 3 (.graph r.ctx r.table 1) r.ctx (64 * j) 64 false = some v)
include cap

/-- The machine after the front end has read a node through the entry. -/
theorem startNode_read {u : State} (read : u = v.readTable r.ctx [nodeRange v.mem (s.graphHeader r.ctx r.table) j]) :
    let quad (i : Nat) : DWord := nodeQuad u.mem (s.graphHeader r.ctx r.table) j i
    WorkKept s u ∧ ∃ t : State, (s.startNode n j = if t.trees.getLast?.any (·.failed) then t.failRun n j else t) ∧
      (u.kernelOf r.ctx (quad 0) = none → t = (u.modRun n oneMore).openTree (failedNode r.ctx n j)) ∧
      ∀ i, u.kernelOf r.ctx (quad 0) = some i → t = (u.modRun n oneMore).launch r.ctx (.node n j) i (quad 1)
        (bitsOf (quad 2) 0 32, bitsOf (quad 2) 32 32, bitsOf (quad 3) 0 32) ((quad 3).getLsbD 32) (quad 5, quad 6, quad 7) := by
  have held : (decide (4096 ≤ s.openTrees r.ctx) || s.sealing r.ctx) = false := by simp [free, unsealed]
  subst read
  refine ⟨(workKept_capFor cap).trans (workKept_readTable ..), ?_⟩
  simp only [State.startNode, hr, held, Bool.false_eq_true, if_false, cap, Option.map_some, Option.getD_some, Option.bind_some]
  refine ⟨_, rfl, fun none => ?_, fun i found => ?_⟩
  · simp only [none]
    rfl
  · simp only [found]
    rfl

theorem startNode_opens {u : State} (read : u = v.readTable r.ctx [nodeRange v.mem (s.graphHeader r.ctx r.table) j]) :
    let t := s.startNode n j
    let quad (i : Nat) : DWord := nodeQuad u.mem (s.graphHeader r.ctx r.table) j i
    ∃ e f, t.runs[n]? = some e ∧ t.trees[s.trees.length]? = some f ∧ e.running = r.running + 1 ∧ f.origin = .node n j ∧ f.ctx = r.ctx ∧
      e.failed = (if f.failed then some ((r.failed.map (min j)).getD j) else r.failed) ∧
      (u.kernelOf r.ctx (quad 0) = none → f.failed = true) ∧
      ∀ i, u.kernelOf r.ctx (quad 0) = some i → ∃ l, t.launches[s.launches.length]? = some l ∧ l.tree = s.trees.length ∧ l.kernel = i ∧
        l.args = quad 1 ∧ l.extent = (bitsOf (quad 2) 0 32, bitsOf (quad 2) 32 32, bitsOf (quad 3) 0 32) ∧
        l.mclaim = (quad 3).getLsbD 32 ∧ l.stride = (quad 5, quad 6, quad 7) ∧ l.listed = !f.failed := by
  obtain ⟨kept, t, same, failing, launching⟩ := startNode_read hr free unsealed cap read
  have counted : (u.modRun n oneMore).runs[n]? = some (oneMore r) := by
    rw [modRun_runs, List.getElem?_modify_eq, kept.runs, hr]
    rfl
  intro t' quad
  cases found : u.kernelOf r.ctx (quad 0) with
  | none =>
    obtain rfl := failing found
    obtain ⟨tree, -, run⟩ := nodeOpened (s := s) (n := n) (congrArg (· ++ [failedNode r.ctx n j]) kept.trees) same
    exact ⟨_, _, run.trans (congrArg _ counted), tree, rfl, rfl, rfl, rfl, fun _ => rfl, nofun⟩
  | some i =>
    obtain rfl := launching i found
    obtain ⟨launches, trees, runs⟩ := launch_enters (u.modRun n oneMore) r.ctx (.node n j) i (quad 1)
      (bitsOf (quad 2) 0 32, bitsOf (quad 2) 32 32, bitsOf (quad 3) 0 32) ((quad 3).getLsbD 32) (quad 5, quad 6, quad 7)
    rw [modRun_trees, kept.trees] at trees
    rw [modRun_launches, kept.launches] at launches
    obtain ⟨tree, entered, run⟩ := nodeOpened trees same
    rw [runs, counted] at run
    refine ⟨_, _, run, tree, rfl, rfl, rfl, rfl, nofun, fun k this => ?_⟩
    obtain rfl := Option.some.inj this
    have launch := congrArg (·[s.launches.length]?) (entered.trans launches)
    rw [List.getElem?_concat_length] at launch
    exact ⟨_, launch, congrArg List.length kept.trees, rfl, rfl, rfl, rfl, rfl, (Bool.not_not _).symm⟩

end

/-! ### Context faults, traps and requests for closes (14 R334, R339, R347) -/

theorem lifeAdd_ctxs (s : State) (off : Nat) : (s.lifeAdd off).ctxs = s.ctxs := by
  unfold State.lifeAdd
  dsimp only
  split <;> rfl

theorem settleFaulted_ctxs (s : State) (g : Nat) : (s.settleFaulted g).ctxs = s.ctxs := by
  unfold State.settleFaulted
  split
  · rfl
  · extract_lets faulted
    split <;> rfl

theorem settleFaults_ctxs (s : State) (c : Nat) : (s.settleFaults c).ctxs = s.ctxs := by
  unfold State.settleFaults
  generalize List.range s.groups.length = l
  induction l generalizing s with
  | nil => rfl
  | cons g l ih =>
    refine (ih _).trans ?_
    dsimp only
    split
    · exact settleFaulted_ctxs s g
    · rfl

/-- A context that is not FAULTED yet takes the fault (14 R339). -/
theorem contextFault_ctx {s : State} {c : Nat} {z : Ctx} (hz : s.ctxs[c]? = some z) (live : z.st ≠ .faulted) (kind : BitVec 4)
    (f : Frame) (who : Nat × Nat) (wave : DWord) : ∃ e, (s.contextFault c kind f who wave).ctxs[c]? = some e ∧
      e.st = .faulted ∧ e.faultFrame = f ∧ e.faultWave = wave ∧ e.faultKind = kind := by
  simp only [State.contextFault, hz, live, if_false, report_ctxs, settleFaults_ctxs]
  have counted (b : Prop) [Decidable b] (t : State) (off : Nat) : (if b then t.lifeAdd off else t).ctxs = t.ctxs := by
    split
    · exact lifeAdd_ctxs ..
    · rfl
  rw [counted, modCtx_ctxs, List.getElem?_modify_eq, hz]
  exact ⟨_, rfl, rfl, rfl, rfl, rfl⟩

section
variable {s : State} {n : Nat} {w : Wave} (hw : s.waves[n]? = some w) (f : Frame) (after : Bool)
include hw

/-- Steps 3 to 5 of 14 R334 with a handler to go to. -/
theorem enterTrap_handles (free : w.handler = false) (vec : s.trapVec w ≠ 0#64) : s.enterTrap n f after =
    s.modWave n (fun x => { (x.setM 0 0xFFFFFFFF#32) with
      frame := f, trapCause := f.cause, trapAddr := f.addr, trapPc := resumePc f after, handler := true, pc := s.trapVec w
      pfx := none, held := none, st := .ready, ran := false, fetched := none }) := by
  have open_ : (w.handler || s.trapVec w == 0#64) = false := by simp [free, vec]
  simp only [State.enterTrap, hw, open_, Bool.false_eq_true, if_false]

theorem enterTrap_wave (free : w.handler = false) (vec : s.trapVec w ≠ 0#64) (masks : w.masks ≠ []) :
    ∃ u, (s.enterTrap n f after).waves[n]? = some u ∧ u.frame = f ∧ u.handler = true ∧
      u.pc = s.trapVec w ∧ u.trapCause = f.cause ∧ u.trapAddr = f.addr ∧ u.trapPc = (if after then f.tpc + 4#64 else f.tpc) ∧
      u.m 0 = 0xFFFFFFFF#32 ∧ u.sregs = w.sregs ∧ u.vregs = w.vregs ∧ u.pend = w.pend ∧ u.st = .ready ∧
      (s.enterTrap n f after).ctxs = s.ctxs ∧ (s.enterTrap n f after).mem = s.mem := by
  rw [enterTrap_handles hw f after free vec, modWave_get, hw]
  exact ⟨_, rfl, rfl, rfl, rfl, rfl, rfl, rfl, InstructionWords.m_setM_same _ (by decide) (List.length_pos_of_ne_nil masks), rfl, rfl,
    rfl, rfl, rfl, rfl⟩

/-- A trap in a handler, or without a trap vector, is a fault of the context (14 R339). -/
theorem enterTrap_faults {z : Ctx} (hz : s.ctxs[w.ctx]? = some z) (live : z.st ≠ .faulted)
    (closed : w.handler = true ∨ s.trapVec w = 0#64) : ∃ e, (s.enterTrap n f after).ctxs[w.ctx]? = some e ∧ e.st = .faulted ∧
      e.faultFrame = f ∧ e.faultWave = BitVec.ofNat 64 w.index ∧
      e.faultKind = (if w.handler then faultDouble else if f.cause = causeEcc then faultLost else faultUnhandled) := by
  have closed : (w.handler || s.trapVec w == 0#64) = true := by simpa using closed
  simp only [State.enterTrap, hw, closed, if_true, settleFaulted_ctxs]
  exact contextFault_ctx (s := s.modWave n _) hz live ..

end

section
variable {s : State} {c : Nat} {z : Ctx} (hz : s.ctxs[c]? = some z)
include hz

theorem requestClose_queues (r : CloseReq) (region : z.act.ckptSize ≠ 0#64) :
    s.requestClose c r = s.modCtx c (fun e => { e with agQueue := e.agQueue ++ [r] }) := by
  simp only [State.requestClose, hz, region, if_false]

/-- Without a checkpoint region a close fails at once (14 R347), and a save that the device wanted is a FENCE fault. -/
theorem requestClose_fails (r : CloseReq) (region : z.act.ckptSize = 0#64) :
    s.requestClose c r = if r.origin = .device && r.save then (s.answerClose r 0 false).fenceFault c else s.answerClose r 0 false := by
  simp only [State.requestClose, hz, region, if_true]

theorem fenceFault_ctx : ∃ e, (s.fenceFault c).ctxs[c]? = some e ∧ e.st = .faulted ∧
    (z.st ≠ .faulted → e.faultKind = faultFence) := by
  by_cases live : z.st = .faulted
  · have same : s.fenceFault c = s := by simp only [State.fenceFault, State.contextFault, hz, live, if_true]
    exact ⟨z, same.symm ▸ hz, live, absurd live⟩
  · obtain ⟨e, he, st, -, -, kind⟩ := contextFault_ctx hz live faultFence Frame.zero (0, 0) 0#64
    exact ⟨e, he, st, fun _ => kind⟩

end

/-! ### A request that looks for an active slot, and a piece of one that lands (03 R78, R90, R93, R97) -/

section
variable (s : State)

section
variable {s} {v : CopyReq} (free : s.toWeightStore v = false ∨ s.liveKernel v.ctx = false)
include free

theorem prepare_ringwait (ring : v.d.ring = true) (waits : v.reached = false) : s.prepare v = { v with st := .ringwait } := by
  have go : (s.toWeightStore v && s.liveKernel v.ctx) = false := Bool.and_eq_false_iff.mpr free
  simp [State.prepare, go, ring, waits]

variable (ready : v.d.ring = false ∨ v.reached = true)
include ready

theorem prepare_unbound (bound : s.bind v = none) : s.prepare v = { v with st := .pubhold } := by
  have go : (s.toWeightStore v && s.liveKernel v.ctx) = false := Bool.and_eq_false_iff.mpr free
  have slot : (v.d.ring && !v.reached) = false := by rcases ready with h | h <;> simp [h]
  simp [State.prepare, go, slot, bound]

theorem prepare_bound {e : CopyReq} (bound : s.bind v = some e) : s.prepare v =
    if e.pbv && s.held e then { e with st := .pubhold } else { e with st := .running, reached := false } := by
  have go : (s.toWeightStore v && s.liveKernel v.ctx) = false := Bool.and_eq_false_iff.mpr free
  have slot : (v.d.ring && !v.reached) = false := by rcases ready with h | h <;> simp [h]
  simp only [State.prepare, go, slot, bound, Bool.false_eq_true, if_false]

end

theorem workKept_noteReached (g : Nat) : WorkKept s (s.noteReached g) := by
  unfold State.noteReached
  split
  · exact .refl s
  · refine ⟨rfl, rfl, rfl, ?_, rfl⟩
    rw [List.map_map]
    refine List.map_congr_left fun q _ => ?_
    dsimp only [Function.comp]
    split
    · split <;> rfl
    · rfl

theorem workKept_storeScratch (g o : Nat) (bytes : List (Option (BitVec 8))) : WorkKept s (s.storeScratch g o bytes) :=
  WorkKept.trans (t := s.modGroup g fun x => x.writeScratch o bytes) ⟨rfl, rfl, rfl, rfl, rfl⟩ (workKept_noteReached ..)

theorem workKept_markItem (c : Nat) (i : AgItem) : WorkKept s (s.markItem c i) := .of_modCtx s c (ctxWork_markItem · i)

theorem workKept_writeWbuf (q : CopyReq) (off : Nat) (bs : List (BitVec 8)) (side : Option SideStore) :
    WorkKept s (s.writeWbuf q off bs side) := by
  have written (f : ArrayUnit → ArrayUnit) : WorkKept s (s.modArray q.core q.d.arr f) := ⟨rfl, rfl, rfl, rfl, rfl⟩
  unfold State.writeWbuf
  extract_lets t
  split
  · exact (written _).trans ((workKept_markItem ..).trans (workKept_markItem ..))
  · exact written _

variable {s}

theorem workKept_copyRead {q : CopyReq} {l n : Nat} {bs : List (BitVec 8)} {band : BitVec 128} {t : State}
    (read : s.copyRead q l n = .ok (bs, band, t)) : WorkKept s t := by
  unfold State.copyRead at read
  dsimp only at read
  split at read
  · split at read
    · split at read
      · cases read
      · cases read
        exact .refl s
    · cases read
      exact .refl s
  · split at read
    · cases read
    · split at read
      · cases read
      · cases read
        exact (workKept_agentLooks ..).trans (workKept_agentReads ..)

theorem workKept_readElems {q : CopyReq} {l n : Nat} {xs : List (Nat × List Nat)} {t : State}
    (read : s.readElems q l n = .ok (xs, t)) : WorkKept s t := by
  induction n generalizing xs t with
  | zero =>
    cases read
    exact .refl s
  | succ n ih =>
    rw [State.readElems] at read
    split at read
    · cases read
    next before =>
      dsimp only at read
      split at read
      · cases read
      next element =>
        cases read
        exact (ih before).trans (workKept_copyRead element)

theorem workKept_unitValue {q : CopyReq} {l : Nat} {bs : List (BitVec 8)} {sc : List Nat} {t : State}
    (read : s.unitValue q l = .ok (bs, sc, t)) : WorkKept s t := by
  unfold State.unitValue at read
  split at read
  · cases read
  next elements =>
    have kept := workKept_readElems elements
    dsimp only at read
    split at read
    · cases read
      exact kept
    · split at read
      · cases read
      · split at read
        all_goals
          cases read
          exact kept

theorem workKept_copyWrite {q : CopyReq} {l : Nat} {bs : List (BitVec 8)} {sc : List Nat} {t : State}
    (wrote : s.copyWrite q l bs sc = .ok t) : WorkKept s t := by
  unfold State.copyWrite at wrote
  dsimp only at wrote
  split at wrote
  · cases wrote
    have stored := workKept_storeScratch s q.group (q.dstNib l / 2) (bs.map some)
    split
    · exact stored.trans ⟨rfl, rfl, rfl, rfl, rfl⟩
    · exact stored
  · split at wrote
    · cases wrote
      exact workKept_writeWbuf ..
    · split at wrote
      · cases wrote
      · cases wrote
        have looked : WorkKept s (s.lookUps none .wr q.ctx (s.copyGen q) (BitVec.ofNat 64 (q.dstNib l / 2)) bs.length) :=
          .foldl (fun _ _ => .of_cacheOnly (cacheOnly_lookUp ..)) _ s
        exact looked.trans (workKept_agentWrites ..)

theorem workKept_landUnit {q : CopyReq} {l : Nat} {t : State} (landed : s.landUnit q l = .ok t) : WorkKept s t := by
  unfold State.landUnit at landed
  split at landed
  · dsimp only at landed
    split at landed <;> cases landed
  next value => exact (workKept_unitValue value).trans (workKept_copyWrite landed)

/-- Whole units land, as many as are asked for or fewer. -/
theorem landUnits_units (q : CopyReq) (n l : Nat) : ∃ u, u ≤ n ∧ (s.landUnits q n l).2 = l + u * q.d.unit ∧
    WorkKept s (s.landUnits q n l).1 := by
  have stays : ∃ u, u ≤ n ∧ l = l + u * q.d.unit ∧ WorkKept s s := ⟨0, Nat.zero_le n, by simp, .refl s⟩
  induction n generalizing s l with
  | zero => exact stays
  | succ n ih =>
    rw [State.landUnits]
    split
    · exact stays
    · split
      · exact stays
      next t landed =>
        obtain ⟨u, few, low, kept⟩ := ih (s := t) (l + q.d.unit) ⟨0, Nat.zero_le n, by simp, .refl t⟩
        exact ⟨u + 1, by omega, by rw [low, Nat.add_mul, Nat.one_mul]; omega, (workKept_landUnit landed).trans kept⟩

theorem pieceUnits_le (q : CopyReq) {n most : Nat} (h : n ≤ most) : q.pieceUnits n most ≤ most := by
  unfold CopyReq.pieceUnits
  split
  · extract_lets ends
    have bound (u : Nat) (hu : u ∈ ends) : u ≤ most := by
      have := List.mem_range.mp (List.mem_of_mem_filter hu)
      omega
    cases found : ends.find? (fun u => decide (n ≤ u)) with
    | some u => exact bound u (List.mem_of_find?_eq_some found)
    | none =>
      rw [Option.getD_none]
      cases last : ends.getLast? with
      | some u => exact bound u (List.mem_of_getLast? last)
      | none => exact Nat.le_refl most
  · exact h

variable {k : Nat} {v : CopyReq} (hv : s.copies[k]? = some v) (n : Nat)

/-- The units that a piece asks for (03 R90; 04 R110). -/
def askedUnits (s : State) (v : CopyReq) (n : Nat) : Nat :=
  let most := 4096 * 2 / (v.d.dstNibs * v.d.unit)
  let left := (v.d.count - v.low) / v.d.unit
  if s.barrierBad v then 0 else v.pieceUnits (min (min (n / v.d.unit) most) left) (min most left)

/-- A piece is at most 4 KiB of the destination. -/
theorem askedUnits_bytes (s : State) (v : CopyReq) (n : Nat) : askedUnits s v n * v.d.unit * v.d.dstNibs ≤ 8192 := by
  have few : askedUnits s v n ≤ 8192 / (v.d.dstNibs * v.d.unit) := by
    unfold askedUnits
    extract_lets most left
    split
    · exact Nat.zero_le _
    · exact (pieceUnits_le v (by omega)).trans (Nat.min_le_left ..)
  calc askedUnits s v n * v.d.unit * v.d.dstNibs = askedUnits s v n * (v.d.dstNibs * v.d.unit) := by ring
    _ ≤ 8192 / (v.d.dstNibs * v.d.unit) * (v.d.dstNibs * v.d.unit) := Nat.mul_le_mul_right _ few
    _ ≤ 8192 := Nat.div_mul_le_self ..

/-- The state of a request once all below `low` has landed. -/
def landedSt (s : State) (v : CopyReq) (low : Nat) : CopySt :=
  if low < v.d.count then (if s.needsBind v low then .pubhold else .running) else if v.d.follow then .followwait else .done

/-- The landed bytes are counted at the completion barrier, if the request has one (03 R83). -/
def barrierLanded (s : State) (v : CopyReq) (bytes : Nat) : State :=
  match v.barrierOff with
  | some off => if bytes = 0 then s else s.landAt v.group off bytes
  | none => s

theorem workKept_barrierLanded (s : State) (v : CopyReq) (bytes : Nat) : WorkKept s (barrierLanded s v bytes) := by
  unfold barrierLanded
  split
  next off _ =>
    split
    · exact .refl s
    · exact WorkKept.trans (t := s.modGroup v.group fun y => y.setBarrier off ((y.barrier off).land bytes))
        ⟨rfl, rfl, rfl, rfl, rfl⟩ (workKept_noteReached ..)
  · exact .refl s

/-- The request `x` after a piece that has ended at `low` with so many bytes. -/
def pieceLanded (t : State) (v : CopyReq) (low bytes : Nat) (x : CopyReq) : CopyReq :=
  { x with low := low, counted := x.counted + bytes, st := landedSt t v low, reached := false }

include hv in
theorem landPiece_eq : let landed := s.landUnits v (askedUnits s v n) v.low
    let bytes := (landed.2 - v.low) * v.d.dstNibs / 2
    let t := barrierLanded landed.1 v bytes
    s.landPiece k n = ((t.account (s.domainOf v.ctx) cntCopyB bytes).modCopy k (pieceLanded t v landed.2 bytes)).noteReached
      v.group := by
  simp only [State.landPiece, hv]
  rfl

include hv in
/-- The request after a piece: what has landed lies below LOW and is counted, and the request runs on, waits, or is done. -/
theorem landPiece_copy : ∃ (e : CopyReq) (u : Nat) (t : State), (s.landPiece k n).copies[k]? = some e ∧ u ≤ askedUnits s v n ∧
    e.low = v.low + u * v.d.unit ∧ e.counted = v.counted + u * v.d.unit * v.d.dstNibs / 2 ∧ e.st = landedSt t v e.low := by
  obtain ⟨u, few, low, landed⟩ := landUnits_units (s := s) v (askedUnits s v n) v.low
  have same := landPiece_eq hv n
  dsimp only at same
  rw [low, Nat.add_sub_cancel_left] at same
  generalize (s.landUnits v (askedUnits s v n) v.low).1 = r at same landed
  have counted := workKept_barrierLanded r v (u * v.d.unit * v.d.dstNibs / 2)
  generalize barrierLanded r v (u * v.d.unit * v.d.dstNibs / 2) = t at same counted
  obtain ⟨x, hx, request⟩ := (landed.trans counted).copy hv
  have changed : ((t.account (s.domainOf v.ctx) cntCopyB (u * v.d.unit * v.d.dstNibs / 2)).modCopy k
      (pieceLanded t v (v.low + u * v.d.unit) (u * v.d.unit * v.d.dstNibs / 2))).copies[k]? = some
        (pieceLanded t v (v.low + u * v.d.unit) (u * v.d.unit * v.d.dstNibs / 2) x) := by
    rw [modCopy_copies, List.getElem?_modify_eq]
    exact congrArg _ hx
  obtain ⟨e, he, ends⟩ := (workKept_noteReached _ v.group).copy changed
  have shown {α : Type} (f : CopyReq → α) := congrArg f ends
  have known {α : Type} (f : CopyReq → α) := congrArg f request
  have before : x.counted = v.counted := known CopyReq.counted
  have at_low : e.low = v.low + u * v.d.unit := shown CopyReq.low
  refine ⟨e, u, t, same ▸ he, few, at_low, (shown CopyReq.counted).trans ?_, (shown CopyReq.st).trans ?_⟩
  · exact congrArg (· + u * v.d.unit * v.d.dstNibs / 2) before
  · exact congrArg (landedSt t v) at_low.symm

end

/-! ### Self-tests, replays and the traps of errors (14 R361, R362) -/

theorem beginTest_eq (s : State) (u : HwUnit) (code : Nat) (cls : ErrClass) : ∃ e : SelfTest, (s.beginTest u code cls) =
      e.parked.foldl State.parkForTest { s with tests := s.tests ++ [e] } ∧ e.unit = u ∧ e.code = code ∧ e.cls = cls ∧
      e.verdict = false ∧ e.parked = ((unitCore u).map s.groupsToPark).getD [] := by
  refine ⟨⟨u, code, cls, s.unitItem u, ((unitCore u).map s.groupsToPark).getD [], (s.errorWave u).1, (s.errorWave u).2, false⟩,
    ?_, rfl, rfl, rfl, rfl, rfl⟩
  cases found : unitCore u with
  | some c => simp only [State.beginTest, found]; rfl
  | none => simp only [State.beginTest, found]; rfl

/-! #### The tests that are under way stay when a group is parked -/

section
variable (s : State)

theorem raise_tests (v : Nat) : (s.raise v).tests = s.tests := rfl

theorem lifeAdd_tests (off : Nat) : (s.lifeAdd off).tests = s.tests := by
  unfold State.lifeAdd
  dsimp only
  split <;> rfl

theorem report_tests (kind code : Nat) (ctx : BitVec 32) (addr : DWord) (place launch : Nat) :
    (s.report kind code ctx addr place launch).tests = s.tests := by
  unfold State.report
  by_cases full : s.errBase = 0#64 ∨ (s.errWptr - s.errRptr).toNat = s.errSlots
  · rw [if_pos full]
  · rw [if_neg full]
    dsimp only [raise_tests]

theorem settleFaulted_tests (g : Nat) : (s.settleFaulted g).tests = s.tests := by
  unfold State.settleFaulted
  split
  · rfl
  · extract_lets faulted
    split <;> rfl

theorem settleFaults_tests (c : Nat) : (s.settleFaults c).tests = s.tests :=
  List.foldlRecOn (motive := fun t : State => t.tests = s.tests) _ _ rfl fun t kept g _ => by
    split
    · exact (settleFaulted_tests t g).trans kept
    · exact kept

theorem contextFault_tests (c : Nat) (kind : BitVec 4) (f : Frame) (who : Nat × Nat) (wave : DWord) :
    (s.contextFault c kind f who wave).tests = s.tests := by
  unfold State.contextFault
  split
  · rfl
  · split
    · rfl
    · refine (report_tests ..).trans ((settleFaults_tests ..).trans ?_)
      split
      · exact lifeAdd_tests ..
      · rfl

/-- A close that the device itself requests answers no one, so that it leaves the tests. -/
theorem requestClose_device_tests (c : Nat) (save : Bool) : (s.requestClose c ⟨.device, save⟩).tests = s.tests := by
  unfold State.requestClose
  split
  · rfl
  · split
    · dsimp only
      split
      · exact contextFault_tests ..
      · rfl
    · rfl

theorem parkForTest_tests (g : Nat) : (s.parkForTest g).tests = s.tests := by
  unfold State.parkForTest
  split
  · rfl
  · extract_lets size
    split
    · rfl
    · split
      · rfl
      · exact requestClose_device_tests ..

theorem parkedForTest_tests (l : List Nat) : (l.foldl State.parkForTest s).tests = s.tests :=
  List.foldlRecOn (motive := fun t : State => t.tests = s.tests) _ _ rfl fun t kept g _ => (parkForTest_tests t g).trans kept

end

section
variable {s : State} {g : Nat} {y : Group} {z : Ctx} (hy : s.groups[g]? = some y) (hz : s.ctxs[y.ctx]? = some z)
include hy hz

theorem parkForTest_parks (on : y.st = .running ∨ y.st = .starting)
    (room : s.savedBytes y.ctx + s.groupBytes g y ≤ z.act.saveSize.toNat) :
    s.parkForTest g = s.modGroup g (fun e => { e with st := .parking, wake := false }) := by
  simp [State.parkForTest, hy, hz, on, room]

theorem parkForTest_saves (full : z.act.saveSize.toNat < s.savedBytes y.ctx + s.groupBytes g y)
    (asked : z.agQueue.any (·.save) = false) (closing : z.agBy.any (·.save) = false) :
    s.parkForTest g = s.requestClose y.ctx ⟨.device, true⟩ := by
  simp only [State.parkForTest, hy, hz, Nat.not_le.mpr full, decide_false, Bool.and_false, Bool.false_eq_true, if_false,
    Option.any_some, asked, closing, Bool.or_self]

end

section
variable {s : State} {t : SelfTest}

theorem replay_again (few : s.replayCount (workUnit t.unit) t.wave < 3) : s.replay t = { s with
    replays := ⟨workUnit t.unit, t.wave, t.code, s.replayCount (workUnit t.unit) t.wave + 1⟩ ::
      s.replays.filter (fun r => !r.isOf (workUnit t.unit) t.wave) } := by
  simp only [State.replay, Nat.not_le.mpr few, if_false]

theorem replay_abandons (many : 3 ≤ s.replayCount (workUnit t.unit) t.wave) : s.replay t = s.abandonWork t := by
  simp only [State.replay, many, if_true]

variable {c : Nat} (hc : s.workCtx t = some c)
include hc

theorem abandonWork_rollsBack (image : s.hasImage c = true) : s.abandonWork t =
    State.charging { s with replays := s.replays.filter (fun r => !r.isOf (workUnit t.unit) t.wave) } c
      (fun e => e.rollbackFor c t.code) := by
  simp only [State.abandonWork, hc, image, if_true]

theorem abandonWork_traps (image : s.hasImage c = false) {n : Nat} {w : Wave} (wave : t.wave = some n) (hw : s.waves[n]? = some w) :
    s.abandonWork t = (((State.charging { s with replays := s.replays.filter (fun r => !r.isOf (workUnit t.unit) t.wave) } c
      (fun e => e.dropWork t.unit t.wave)).lifeAdd (ltAbort t.code)).errorTrap n t.boundary causeReplayAbort 0).tryEnd w.group := by
  simp only [State.abandonWork, hc, image, wave, hw, Bool.false_eq_true, if_false]

end

theorem errorTrap_due {s : State} {n : Nat} {w : Wave} (hw : s.waves[n]? = some w) (live : w.st ≠ .retired) {engine : Bool}
    (boundary : w.handler = false ∨ engine = true) (cause : BitVec 6) (code : Nat) :
    s.errorTrap n engine cause code = s.modWave n (fun e => { e with
      due := e.due ++ [⟨cause, BitVec.ofNat 8 code, 0#4, 0#6, 0#64, 0#16, 0#40⟩] }) := by
  have later : (w.handler && !engine) = false := by rcases boundary with h | h <;> simp [h]
  simp only [State.errorTrap, hw, live, if_false, later, Bool.false_eq_true]

/-- Settles O60, effect by effect: each clause is what a section above says of its operation. -/
theorem eventEffects : Obligations.EventEffects := by
  unfold Obligations.EventEffects
  intro s c g n q b j x cores w y z k v
  refine ⟨?placed, ?wave, ?group, ?fires, ?launch, beginGraph_eq s c b, ?node, ?trap, ?close, ?prepare, ?piece, ?test, ?park,
    ?replay, ?errorTrap⟩
  case placed =>
    intro t hx
    refine ⟨?_, placeNew_launch hx q cores, fun i p hp => ?_, fun i => placeNew_other q cores⟩
    · obtain ⟨h, hh, st, seats, ctx, launch, index, coord, extent, gregs, scratch, depth, sib, slots, tree, claim, waves⟩ :=
        placeNew_group (s := s) (g := g) (x := x) q cores
      exact ⟨h, hh, st, ctx, launch, index, coord, extent, gregs, scratch, depth, sib, slots, tree, claim, seats, waves⟩
    · obtain ⟨u, hu, group, ctx, index, stage, core, st, handler, pc, scalars, masks, rest⟩ :=
        placeNew_wave_entry (s := s) (g := g) q cores hp
      refine ⟨u, hu, group, ctx, index, stage, core, st, handler, pc, (scalars 1).trans (if_pos rfl), fun m low high => ?_,
        fun m others => ?_, (masks 0 (by omega)).trans (if_pos rfl), fun m low high => ?_, rest⟩
      · rw [scalars, if_neg (by omega), if_pos ⟨low, high⟩]
      · rw [scalars, if_neg (by omega), if_neg (by omega)]
      · rw [masks m high, if_neg (by omega)]
  case wave => exact fun hw live fresh wake => startWave_wave hw live fresh wake
  case group =>
    intro hy
    obtain ⟨h, hh, started, fresh, wake, st, gregs⟩ := startGroup_group hy
    exact ⟨h, hh, started, fresh, wake, st, gregs, (congrArg State.waves (startGroup_eq hy)).trans (modGroup_waves ..),
      fun claims fresh i e member => startGroup_arrays hy claims fresh member⟩
  case fires =>
    intro e he set hk
    refine ⟨fun fits => ?_, fireBin_fails he set hk⟩
    obtain ⟨⟨table, regs, hl, place⟩, bin⟩ := fireBin_launch he set hk fits
    exact ⟨⟨_, hl, rfl, rfl, rfl, rfl, rfl, rfl, rfl, rfl, rfl, rfl, rfl, rfl, rfl, rfl, place⟩, _, bin, rfl, rfl, rfl⟩
  case launch =>
    exact fun o args e claim stride => ⟨⟨_, launch_launch .., rfl, rfl, rfl, rfl, rfl, rfl, rfl, rfl, rfl, rfl, rfl, rfl, rfl, rfl⟩,
      _, launch_tree .., rfl, rfl, rfl, rfl, rfl, rfl, rfl⟩
  case node =>
    exact fun r hr => ⟨startNode_waits hr, fun free unsealed cap => ⟨_, startNode_noEntry hr free unsealed cap, rfl, rfl⟩,
      fun v free unsealed cap => startNode_opens hr free unsealed cap rfl⟩
  case trap => exact fun f after hw => ⟨enterTrap_wave hw f after, fun hz => enterTrap_faults hw f after hz⟩
  case close =>
    intro hz
    refine ⟨requestClose_queues hz, fun i p save region => ⟨?_, ?_, ?_, ?_⟩⟩
    · exact requestClose_fails hz _ region
    · exact requestClose_fails hz _ region
    · exact requestClose_fails hz _ region
    · rw [requestClose_fails hz _ region]
      exact fenceFault_ctx hz
  case prepare =>
    refine ⟨fun held => ?_, fun free => ⟨prepare_ringwait free, fun ready => ⟨prepare_unbound free ready, fun e =>
      prepare_bound free ready⟩⟩⟩
    simp only [State.prepare, held, Bool.and_self, if_true]
  case piece =>
    intro hv
    obtain ⟨e, u, t, he, few, low, counted, st⟩ := landPiece_copy hv n
    refine ⟨e, u, he, low, ?_, fun bad => ?_, counted, fun all => ?_, fun left => ?_⟩
    · calc u * v.d.unit * v.d.dstNibs ≤ askedUnits s v n * v.d.unit * v.d.dstNibs := by gcongr
        _ ≤ 8192 := askedUnits_bytes s v n
    · rw [askedUnits, if_pos bad] at few
      exact Nat.le_zero.mp few
    · rw [st, landedSt, if_neg (Nat.not_lt.mpr all)]
    · rw [st, landedSt, if_pos left]
      split
      · exact .inr rfl
      · exact .inl rfl
  case test =>
    intro u code cls
    obtain ⟨e, begun, unit, of_code, of_cls, verdict, parked⟩ := beginTest_eq s u code cls
    exact ⟨e, begun ▸ parkedForTest_tests .., unit, of_code, of_cls, verdict, parked, begun⟩
  case park => exact fun hy hz => ⟨parkForTest_parks hy hz, parkForTest_saves hy hz⟩
  case replay =>
    intro t
    refine ⟨replay_again, fun many hc image => ?_, fun many hc image wave hw => ?_⟩
    · exact (replay_abandons many).trans (abandonWork_rollsBack hc image)
    · exact (replay_abandons many).trans (abandonWork_traps hc image wave hw)
  case errorTrap => exact fun engine cause code hw live boundary => errorTrap_due hw live boundary cause code
end Sys2Proof.ExecutionModel

/-! PROOFS of 14_faults_checkpoints taking a trap (O41) and context faults (O43). -/

namespace Sys2Proof.Faults

open Sys2Proof Sys2Proof.Machine Sys2Proof.Laws Sys2Proof.ScalarControl Sys2Proof.ExecutionModel

/-! ### Writing the results first (06 R164; 14 R334) -/

section
variable (w : Wave)

/-- Writing a result changes registers and their marks alone. -/
theorem applyOut_eq (o : Out) (units : Nat) : ∃ sregs vregs hvs dirty, w.applyOut o units =
    { w with sregs := sregs, vregs := vregs, hvs := hvs, dirty := dirty } := by
  cases o with
  | s n v =>
    simp only [Wave.applyOut, Wave.setS]
    split
    · exact ⟨w.sregs, w.vregs, w.hvs, w.dirty, rfl⟩
    · exact ⟨_, w.vregs, w.hvs, w.dirty, rfl⟩
  | v n lanes data side =>
    simp only [Wave.applyOut, Wave.writeLanes]
    split
    · exact ⟨w.sregs, w.vregs, w.hvs, w.dirty, rfl⟩
    · exact ⟨w.sregs, _, w.hvs, _, rfl⟩
  | h n lines data => exact ⟨w.sregs, w.vregs, _, _, rfl⟩

theorem drainOuts_eq : ∃ sregs vregs hvs dirty, w.drainOuts =
    { w with sregs := sregs, vregs := vregs, hvs := hvs, dirty := dirty, outs := [], far := [] } := by
  have written (l : List Out) : ∀ x : Wave, ∃ sregs vregs hvs dirty, l.foldl (fun v o => v.applyOut o allUnits) x =
      { x with sregs := sregs, vregs := vregs, hvs := hvs, dirty := dirty } := by
    induction l with
    | nil => exact fun x => ⟨x.sregs, x.vregs, x.hvs, x.dirty, rfl⟩
    | cons o l ih =>
      intro x
      obtain ⟨a, b, c, d, e⟩ := applyOut_eq x o allUnits
      obtain ⟨a', b', c', d', e'⟩ := ih (x.applyOut o allUnits)
      exact ⟨a', b', c', d', by rw [List.foldl_cons, e', e]⟩
  obtain ⟨a, b, c, d, e⟩ := written w.outs w
  exact ⟨a, b, c, d, by rw [Wave.drainOuts, e]⟩

end

/-! ### Taking a trap (14 R334) -/

section
variable {s : State} {k : Nat} {w : Wave} (hw : s.waves[k]? = some w) (ha : w.atoms = []) (t : TrapInfo) (after : Bool)
include hw ha

/-- With no atomic issued, a trap first writes the results of its wave; what follows is by lost data that rolls back, by a context that
is FAULTED, or by the handler. -/
theorem takeTrap_eq : s.takeTrap k t after =
    let u := s.modWave k Wave.drainOuts
    if t.cause = causeEcc ∧ s.hasImage w.ctx = true then u.modCtx w.ctx (fun x => { x with rollBy := some t.detail.toNat })
    else if s.ctxState w = .faulted then
      u.modWave k (fun x => { x with
        held := some (w.drainOuts.frameFor t, after), pc := w.trapPoint, pfx := none, st := .ready, fetched := none })
    else u.enterTrap k (w.drainOuts.frameFor t) after := by
  obtain ⟨a, b, c, d, e⟩ := drainOuts_eq w
  have hu : (s.modWave k Wave.drainOuts).waves[k]? = some w.drainOuts := by rw [modWave_get, hw, Option.map_some]
  have hctx : w.drainOuts.ctx = w.ctx := by rw [e]
  have htp : (w.drainOuts.frameFor t).tpc = w.trapPoint := by rw [e]; rfl
  have hst : (s.modWave k Wave.drainOuts).ctxState w.drainOuts = s.ctxState w := by simp only [State.ctxState, hctx, modWave_ctxs]
  have himg : (s.modWave k Wave.drainOuts).hasImage w.ctx = s.hasImage w.ctx := rfl
  simp only [State.takeTrap, drainAtoms_none hw ha, hu, hctx, himg, hst, htp]

end

/-- Settles O41: the frame and the handler are those of the wave with its results written, and writing them leaves the rest of the wave. -/
theorem trapEntry : Obligations.TrapEntry := by
  unfold Obligations.TrapEntry
  intro s k w c t after hw hc ha free masks live vec image
  dsimp only
  have vecOf : s.trapVec w = c.act.trapvec := by simp only [State.trapVec, hc]
  have hctx : s.ctxState w ≠ .faulted := by simpa only [State.ctxState, hc] using live
  obtain ⟨a, b, h, d, e⟩ := drainOuts_eq w
  have hu : (s.modWave k Wave.drainOuts).waves[k]? = some w.drainOuts := by rw [modWave_get, hw, Option.map_some]
  have taken : s.takeTrap k t after = s.modWave k (fun _ => { (w.drainOuts.setM 0 0xFFFFFFFF#32) with
      frame := w.drainOuts.frameFor t, trapCause := t.cause, trapAddr := t.addr
      trapPc := resumePc (w.drainOuts.frameFor t) after, handler := true, pc := c.act.trapvec
      pfx := none, held := none, st := .ready, ran := false, fetched := none }) := by
    have open_ : (s.modWave k Wave.drainOuts).trapVec w.drainOuts = c.act.trapvec := by
      rw [← vecOf, e]
      rfl
    have noRoll : ¬ (t.cause = causeEcc ∧ s.hasImage w.ctx = true) := fun h => by simp [image h.1] at h
    rw [takeTrap_eq hw ha]
    dsimp only
    rw [if_neg noRoll, if_neg hctx, enterTrap_handles hu _ after (by rw [e]; exact free) (by rw [open_]; exact vec), open_,
      modWave_modWave]
    exact modWave_congr s k w _ _ hw rfl
  rw [taken]
  refine ⟨rfl, fun j hj => modWave_get_other s k j _ (Ne.symm hj), _, by rw [modWave_get, hw, Option.map_some], ?_⟩
  have m0 : (w.drainOuts.setM 0 0xFFFFFFFF#32).m 0 = 0xFFFFFFFF#32 :=
    InstructionWords.m_setM_same _ (by decide) (by rw [e]; simp [masks])
  have same : w.drainOuts.trapPoint = w.trapPoint ∧ w.drainOuts.pend = w.pend ∧ w.drainOuts.outs = [] ∧
      w.drainOuts.adopted = w.adopted ∧ (w.drainOuts.acqCnt, w.drainOuts.relCnt, w.drainOuts.snapCur, w.drainOuts.snapOvf) =
        (w.acqCnt, w.relCnt, w.snapCur, w.snapOvf) := by
    rw [e]
    exact ⟨rfl, rfl, rfl, rfl, rfl⟩
  obtain ⟨point, pend, outs, adopted, counts⟩ := same
  refine ⟨rfl, rfl, rfl, rfl, rfl, rfl, ?_, rfl, rfl, rfl, rfl, rfl, rfl, rfl, rfl, point, rfl, rfl, rfl, rfl, m0,
    fun n hn => InstructionWords.m_setM_other _ hn, rfl, rfl, rfl, rfl, rfl, rfl, pend, outs, adopted, counts⟩
  rw [← point]
  rfl

/-! ### Groups of a context that is FAULTED (12 R295; 14 R339) -/

/-- Have all waves of a group stopped or retired? -/
def allOver (s : State) (y : Group) : Bool := y.waves.all (fun w => (s.waves[w]?).all (fun x => x.stopped || x.st == .retired))

/-- A running group of a FAULTED context, FAULTED itself when its waves are over. -/
def settled (ended : Bool) (y : Group) : Group := if ended then { y with st := .faulted } else y

theorem settleFaulted_waves (s : State) (g : Nat) : (s.settleFaulted g).waves = s.waves := by
  unfold State.settleFaulted
  split
  · rfl
  · extract_lets faulted
    split <;> rfl

theorem settleFaulted_other (s : State) {g h : Nat} (other : g ≠ h) : (s.settleFaulted g).groups[h]? = s.groups[h]? := by
  unfold State.settleFaulted
  split
  · rfl
  · extract_lets faulted
    split
    · simp [other]
    · rfl

section
variable {s : State} {g c : Nat} {y : Group} {d : Ctx} (hd : s.ctxs[y.ctx]? = some d) (faulted : d.st = .faulted) (run : y.st = .running)
include hd faulted run

theorem settleFaulted_running (hy : s.groups[g]? = some y) : (s.settleFaulted g).groups[g]? = some (settled (allOver s y) y) := by
  unfold State.settleFaulted settled
  simp only [hy, hd, faulted, run, beq_self_eq_true, Bool.true_and]
  change (if allOver s y = true then _ else s).groups[g]? = _
  split
  · simp [hy]
  · exact hy

/-- A group that is settled stays so. -/
theorem settleFaulted_settled (hy : s.groups[g]? = some (settled (allOver s y) y)) :
    (s.settleFaulted g).groups[g]? = some (settled (allOver s y) y) := by
  by_cases ended : allOver s y = true
  · have hy' : s.groups[g]? = some { y with st := .faulted } := by rw [hy, settled, if_pos ended]
    simp [State.settleFaulted, hy', settled, ended]
  · have hy' : s.groups[g]? = some y := by rw [hy, settled, if_neg ended]
    exact settleFaulted_running hd faulted run hy'

/-- Once the groups of its context have been settled, a running group is settled. -/
theorem settleFaults_group (hy : s.groups[g]? = some y) :
    (s.settleFaults y.ctx).groups[g]? = some (settled (allOver s y) y) := by
  have member : g ∈ List.range s.groups.length := List.mem_range.mpr (List.getElem?_eq_some_iff.mp hy).1
  unfold State.settleFaults
  generalize List.range s.groups.length = l at member
  have step (t : State) (h : Nat) (hw : t.waves = s.waves) (hc : t.ctxs = s.ctxs)
      (ht : t.groups[g]? = some y ∨ t.groups[g]? = some (settled (allOver s y) y)) :
      let u := if (t.groups[h]?).any (fun x => x.ctx == y.ctx) then t.settleFaulted h else t
      u.waves = s.waves ∧ u.ctxs = s.ctxs ∧ (u.groups[g]? = t.groups[g]? ∨ u.groups[g]? = some (settled (allOver s y) y)) ∧
        (h = g → u.groups[g]? = some (settled (allOver s y) y)) := by
    have same : allOver s y = allOver t y := by simp only [allOver, hw]
    have hd' : t.ctxs[y.ctx]? = some d := hc ▸ hd
    have own : h = g → (t.settleFaulted g).groups[g]? = some (settled (allOver s y) y) := by
      rw [same]
      rw [same] at ht
      rcases ht with ht | ht
      · exact fun _ => settleFaulted_running hd' faulted run ht
      · exact fun _ => settleFaulted_settled hd' faulted run ht
    have mine : (t.groups[g]?).any (fun x => x.ctx == y.ctx) = true := by
      rcases ht with ht | ht
      · simp [ht]
      · by_cases ended : allOver s y = true <;> simp [ht, settled, ended]
    dsimp only
    by_cases hg : h = g
    · subst hg
      rw [if_pos mine]
      exact ⟨(settleFaulted_waves ..).trans hw, (settleFaulted_ctxs ..).trans hc, .inr (own rfl), fun _ => own rfl⟩
    · split
      · exact ⟨(settleFaulted_waves ..).trans hw, (settleFaulted_ctxs ..).trans hc, .inl (settleFaulted_other t hg), fun e => absurd e hg⟩
      · exact ⟨hw, hc, .inl rfl, fun e => absurd e hg⟩
  have all (l : List Nat) : ∀ t : State, t.waves = s.waves → t.ctxs = s.ctxs →
      (t.groups[g]? = some y ∨ t.groups[g]? = some (settled (allOver s y) y)) →
      let u := l.foldl (fun t h => if (t.groups[h]?).any (fun x => x.ctx == y.ctx) then t.settleFaulted h else t) t
      (t.groups[g]? = some (settled (allOver s y) y) ∨ g ∈ l → u.groups[g]? = some (settled (allOver s y) y)) := by
    induction l with
    | nil => exact fun t _ _ _ h => h.resolve_right (by simp)
    | cons h l ih =>
      intro t hw hc ht u hm
      obtain ⟨hw', hc', hu, own⟩ := step t h hw hc ht
      refine ih _ hw' hc' ?_ ?_
      · rcases hu with hu | hu
        · rw [hu]
          exact ht
        · exact .inr hu
      · rcases hm with hm | hm
        · rcases hu with hu | hu
          · exact .inl (hu.trans hm)
          · exact .inl hu
        · rcases List.mem_cons.mp hm with e | hm
          · exact .inl (own e.symm)
          · exact .inr hm
  exact all l s rfl rfl (.inl hy) (.inr member)

end

theorem report_waves (s : State) (kind code : Nat) (ctx : BitVec 32) (addr : DWord) (place launch : Nat) :
    (s.report kind code ctx addr place launch).waves = s.waves := by
  unfold State.report
  by_cases full : s.errBase = 0#64 ∨ (s.errWptr - s.errRptr).toNat = s.errSlots
  · rw [if_pos full]
  · rw [if_neg full]
    dsimp only [State.raise]

theorem report_groups (s : State) (kind code : Nat) (ctx : BitVec 32) (addr : DWord) (place launch : Nat) :
    (s.report kind code ctx addr place launch).groups = s.groups := by
  unfold State.report
  by_cases full : s.errBase = 0#64 ∨ (s.errWptr - s.errRptr).toNat = s.errSlots
  · rw [if_pos full]
  · rw [if_neg full]
    dsimp only [State.raise]

theorem lifeAdd_waves (s : State) (off : Nat) : (s.lifeAdd off).waves = s.waves := by
  unfold State.lifeAdd
  dsimp only
  split <;> rfl

theorem lifeAdd_groups (s : State) (off : Nat) : (s.lifeAdd off).groups = s.groups := by
  unfold State.lifeAdd
  dsimp only
  split <;> rfl

theorem settleFaults_waves (s : State) (c : Nat) : (s.settleFaults c).waves = s.waves := by
  unfold State.settleFaults
  refine List.foldlRecOn (motive := fun t : State => t.waves = s.waves) _ _ rfl fun t ht g _ => ?_
  split
  · exact (settleFaulted_waves ..).trans ht
  · exact ht

/-- A context fault changes no wave: its waves stop at their boundaries (14 R339). -/
theorem contextFault_waves (s : State) (c : Nat) (kind : BitVec 4) (f : Frame) (who : Nat × Nat) (wave : DWord) :
    (s.contextFault c kind f who wave).waves = s.waves := by
  unfold State.contextFault
  split
  · rfl
  · split
    · rfl
    · rw [report_waves, settleFaults_waves]
      split
      · exact lifeAdd_waves ..
      · rfl

/-- A running group of a context that faults is settled (12 R295; 14 R339). -/
theorem contextFault_group {s : State} {g : Nat} {y : Group} {z : Ctx} (hz : s.ctxs[y.ctx]? = some z) (live : z.st ≠ .faulted)
    (run : y.st = .running) (hy : s.groups[g]? = some y) (kind : BitVec 4) (f : Frame) (who : Nat × Nat) (wave : DWord) :
    (s.contextFault y.ctx kind f who wave).groups[g]? = some (settled (allOver s y) y) := by
  simp only [State.contextFault, hz, live, if_false, report_groups]
  generalize hm : s.modCtx y.ctx _ = m
  have hw : m.waves = s.waves := hm ▸ rfl
  have hg : m.groups = s.groups := hm ▸ rfl
  have hc : ∃ e, m.ctxs[y.ctx]? = some e ∧ e.st = .faulted := by
    rw [← hm, modCtx_ctxs, List.getElem?_modify_eq, hz]
    exact ⟨_, rfl, rfl⟩
  obtain ⟨e, he, faulted⟩ := hc
  have same : allOver m y = allOver s y := by simp only [allOver, hw]
  split
  · have counted : allOver (m.lifeAdd (ltAbort f.detail.toNat)) y = allOver s y := by simp only [allOver, lifeAdd_waves, hw]
    rw [← counted]
    exact settleFaults_group (by rw [lifeAdd_ctxs]; exact he) faulted run (by rw [lifeAdd_groups, hg]; exact hy)
  · rw [← same]
    exact settleFaults_group he faulted run (by rw [hg]; exact hy)

/-! ### A trap with no handler, in a handler, or while the context is FAULTED (14 R334, R339, R362) -/

/-- The wave whose trap is a fault of its context stops at its trap PC, or past the instruction (14 R339). -/
def stoppedAt (f : Frame) (after : Bool) (x : Wave) : Wave :=
  { x with
    pc := resumePc f after, pfx := none, held := none, fetched := none, stopped := true
    ran := if after then lastWord f.tpc else x.ran }

/-- The fault that a trap is where it can go to no handler. -/
def trapFault (w : Wave) (f : Frame) : BitVec 4 := if w.handler then faultDouble else if f.cause = causeEcc then faultLost else faultUnhandled

section
variable {s : State} {n : Nat} {w : Wave} (hw : s.waves[n]? = some w) (f : Frame) (after : Bool)
include hw

theorem enterTrap_closed (closed : w.handler = true ∨ s.trapVec w = 0#64) : s.enterTrap n f after =
    ((s.modWave n (stoppedAt f after)).contextFault w.ctx (trapFault w f) f (s.whoOf w) (BitVec.ofNat 64 w.index)).settleFaulted
      w.group := by
  have closed : (w.handler || s.trapVec w == 0#64) = true := by simpa using closed
  simp only [State.enterTrap, hw, closed, if_true]
  rfl

/-- The wave of a trap that faults its context has stopped, and is otherwise as it was. -/
theorem enterTrap_stops (closed : w.handler = true ∨ s.trapVec w = 0#64) :
    (s.enterTrap n f after).waves = s.waves.modify n (stoppedAt f after) := by
  rw [enterTrap_closed hw f after closed, settleFaulted_waves, contextFault_waves]
  rfl

/-- The running group of the wave is settled with it. -/
theorem enterTrap_group {z : Ctx} {y : Group} (hz : s.ctxs[w.ctx]? = some z) (live : z.st ≠ .faulted)
    (closed : w.handler = true ∨ s.trapVec w = 0#64) (hy : s.groups[w.group]? = some y) (own : y.ctx = w.ctx) (run : y.st = .running) :
    (s.enterTrap n f after).groups[w.group]? = some (settled (allOver (s.modWave n (stoppedAt f after)) y) y) := by
  rw [enterTrap_closed hw f after closed]
  rw [← own] at hz ⊢
  have group := contextFault_group (s := s.modWave n (stoppedAt f after)) hz live run hy (trapFault w f) f (s.whoOf w)
    (BitVec.ofNat 64 w.index)
  obtain ⟨e, he, faulted, -⟩ := contextFault_ctx (s := s.modWave n (stoppedAt f after)) hz live (trapFault w f) f (s.whoOf w)
    (BitVec.ofNat 64 w.index)
  have same : allOver (s.modWave n (stoppedAt f after)) y = allOver ((s.modWave n (stoppedAt f after)).contextFault y.ctx (trapFault w f) f
      (s.whoOf w) (BitVec.ofNat 64 w.index)) y := by simp only [allOver, contextFault_waves]
  rw [same] at group ⊢
  exact settleFaulted_settled he faulted run group

end

/-- Settles O43, from what a trap does of a wave with nothing outstanding: it rolls back, is held, or faults the context. -/
theorem contextFaults : Obligations.ContextFaults := by
  unfold Obligations.ContextFaults
  intro s k w c t after hw hc ha ho u kept rolls
  have drained : w.drainOuts = { w with far := [] } := drainOuts_none ho
  have state : s.ctxState w = c.st := by simp only [State.ctxState, hc]
  have wave : (s.modWave k Wave.drainOuts).waves[k]? = some { w with far := [] } := by rw [modWave_get, hw, Option.map_some, drained]
  have frame : w.drainOuts.frameFor t = w.frameFor t := by rw [drained]; rfl
  have taken : u = _ := takeTrap_eq hw ha t after
  dsimp only at taken
  rw [frame] at taken
  refine ⟨fun noRoll live closed => ?_, fun roll => ?_, fun noRoll faulted => ?_⟩
  · rw [if_neg noRoll, if_neg (state ▸ live)] at taken
    have vec : (s.modWave k Wave.drainOuts).trapVec { w with far := [] } = c.act.trapvec := by
      simp only [State.trapVec, modWave_ctxs, hc]
    have closed' : ({ w with far := [] } : Wave).handler = true ∨ (s.modWave k Wave.drainOuts).trapVec { w with far := [] } = 0#64 := by
      rw [vec]
      exact closed
    obtain ⟨d, hd, st, fr, -, kind⟩ := enterTrap_faults wave (w.frameFor t) after (z := c) hc live closed'
    refine ⟨?_, d, taken ▸ hd, st, fr, kind, fun y hy own run => ?_⟩
    · rw [taken, enterTrap_stops wave _ after closed', List.getElem?_modify_eq, wave]
      exact ⟨_, rfl, ⟨rfl, rfl, rfl, rfl, rfl, rfl, rfl, rfl⟩, rfl, rfl⟩
    · have group := enterTrap_group wave (w.frameFor t) after (z := c) (y := y) hc live closed' hy own run
      refine ⟨_, taken ▸ group, fun all => ?_, fun v q hv other hq running live' => ?_⟩
      · have ended : allOver ((s.modWave k Wave.drainOuts).modWave k (stoppedAt (w.frameFor t) after)) y = true := by
          refine List.all_eq_true.mpr fun v hv => ?_
          by_cases hk : v = k
          · subst hk
            rw [modWave_get, wave]
            rfl
          · rw [modWave_get_other _ _ _ _ (Ne.symm hk), modWave_get_other _ _ _ _ (Ne.symm hk)]
            cases hq : s.waves[v]? with
            | none => rfl
            | some q => simpa using all v hv hk q hq
        rw [settled, if_pos ended]
      · have running' : ¬ allOver ((s.modWave k Wave.drainOuts).modWave k (stoppedAt (w.frameFor t) after)) y = true := by
          intro ended
          have this := List.all_eq_true.mp ended v hv
          rw [modWave_get_other _ _ _ _ (Ne.symm other), modWave_get_other _ _ _ _ (Ne.symm other), hq] at this
          simp [running, live'] at this
        rw [settled, if_neg running']
        exact run
  · rw [if_pos roll] at taken
    rw [taken]
    have rolled : ((s.modWave k Wave.drainOuts).modCtx w.ctx (fun x => { x with rollBy := some t.detail.toNat })).ctxs[w.ctx]? =
        some { c with rollBy := some t.detail.toNat } := by
      rw [modCtx_ctxs, List.getElem?_modify_eq, modWave_ctxs, hc]
      rfl
    exact ⟨⟨_, rolled, rfl, rfl⟩, rfl, rfl, _, wave, ⟨rfl, rfl, rfl, rfl, rfl, rfl, rfl, rfl⟩, rfl⟩
  · rw [if_neg noRoll, if_pos (state.trans faulted)] at taken
    rw [taken]
    refine ⟨rfl, rfl, rfl, _, (modWave_get ..).trans (congrArg (Option.map _) wave), ⟨rfl, rfl, rfl, rfl, rfl, rfl, rfl, rfl⟩, rfl, rfl⟩

end Sys2Proof.Faults

/-! PROOFS of 13_work_and_sample_groups: the events of the front end (O53). -/

namespace Sys2Proof.FrontEnd

open Sys2Proof Sys2Proof.Machine Sys2Proof.Laws

/-! ### Doorbells (13 R304) -/

/-- The last of the numbers below `m` that satisfy `p`. -/
theorem range_filter_getLast? {p : Nat → Bool} {m y : Nat} (hy : y < m) (hp : p y = true) (last : ∀ j, y < j → j < m → p j = false) :
    ((List.range m).filter p).getLast? = some y := by
  obtain ⟨d, rfl⟩ := Nat.exists_eq_add_of_lt hy
  have above : ((List.range d).map (y + 1 + ·)).filter p = [] := by
    refine List.filter_eq_nil_iff.mpr fun j hj => ?_
    obtain ⟨i, hi, rfl⟩ := List.mem_map.mp hj
    have := List.mem_range.mp hi
    simp [last (y + 1 + i) (by omega) (by omega)]
  rw [show y + d + 1 = y + 1 + d by omega, List.range_add, List.filter_append, above, List.append_nil, List.range_succ,
    List.filter_append]
  simp [hp]

/-- The block of a number shows the ring made last. -/
theorem lastRingAt_eq {s : State} {z y num : Nat} {t : Ring} (ht : s.rings[y]? = some t) (hz : t.ctx = z) (hn : t.num = num)
    (last : ∀ (j : Nat) (u : Ring), y < j → s.rings[j]? = some u → u.ctx = z → u.num ≠ num) : s.lastRingAt z num = some y := by
  refine range_filter_getLast? (List.getElem?_eq_some_iff.mp ht).1 (by simp [ht, hz, hn]) fun j hj _ => ?_
  cases hu : s.rings[j]? with
  | none => rfl
  | some u =>
    simp only [Option.any_some, Bool.and_eq_false_imp, beq_iff_eq]
    exact fun hc => beq_false_of_ne (last j u hj hu hc)

theorem doorbell_writes {s : State} {slot z y : Nat} {t : Ring} (hslot : s.ctxInSlot (slot / 1024) = some z)
    (ht : s.rings[y]? = some t) (hz : t.ctx = z) (hn : t.num = slot % 1024)
    (last : ∀ (j : Nat) (u : Ring), y < j → s.rings[j]? = some u → u.ctx = z → u.num ≠ slot % 1024) (v : DWord) :
    exec (.qwptrDoorbell slot v) s = .next (s.modRing y (fun z => { z with wptr := v.extractLsb' 0 32 })) := by
  simp only [MemoryPath.exec_qwptrDoorbell, execQwptrDoorbell, State.doorbell, hslot, Option.bind_some, lastRingAt_eq ht hz hn last]

theorem doorbell_ignored {s : State} {slot : Nat} (hslot : s.ctxInSlot (slot / 1024) = none) (v : DWord) :
    exec (.qwptrDoorbell slot v) s = .next s := by
  simp only [MemoryPath.exec_qwptrDoorbell, execQwptrDoorbell, State.doorbell, hslot, Option.bind_none]

/-! ### A ring that is served (13 R307, R309; 19 R408) -/

section
variable {s t : State} {c k type : Nat} {r : Ring} {q : List DWord} (act : State → Ring → List DWord → Nat → State)

/-- The next packet of a type is handed on, with Lantern's register loaded. -/
theorem serve_serves (h : s.Serves c k r q type t) : s.serve c k type act = act t r q r.pkts.length := by
  obtain ⟨⟨hr, hc, hn, hl, ht⟩, hcap⟩ := h
  simp [State.serve, hr, hc, hn, hl, ht, State.viaRing, State.viaCap, hcap]

/-- Without Lantern's entry of the ring nothing is read. -/
theorem serve_noEntry (h : s.Dispatches c k r q type)
    (hcap : s.capFor 0 (.ring k) c (16 * (r.rptr.toNat % 2 ^ r.logsz)) (16 * pktLen q) false = none) :
    s.serve c k type act = s.frontError := by
  obtain ⟨hr, hc, hn, hl, ht⟩ := h
  simp [State.serve, hr, hc, hn, hl, ht, State.viaRing, State.viaCap, hcap]

theorem viaCap_some {s t : State} {reg : Nat} {o : CapObj} {off n : Nat} {write : Bool} (f : State → State)
    (h : s.capFor reg o c off n write = some t) : s.viaCap reg o c off n write f = f t := by
  rw [State.viaCap, h]

end

/-! ### The meanings of the packets (13 R306) -/

section
variable (s : State) (c k core : Nat)

theorem exec_pad : exec (.pad c k) s = .next (s.serve c k 0 fun t r q p => (t.takePacket k r q 0).completePacket k p stOk 0 0 0#64) := rfl
theorem exec_kernel : exec (.kernel c k) s = execKernel c k s := rfl
theorem exec_graph : exec (.graph c k) s = execGraph c k s := rfl
theorem exec_copy : exec (.copy c k core) s = execCopy c k core s := rfl
theorem exec_waitValue : exec (.waitValue c k) s = .next (s.serve c k 4 fun t r q p => (t.takePacket k r q 0).rereadPacket k p) := rfl
theorem exec_waitValueReread : exec (.waitValueReread c k) s = execWaitValueReread c k s := rfl
theorem exec_signal (add : Bool) : exec (if add then .signalAdd c k else .signal c k) s = .next (s.signalPacket c k add) := by
  cases add <;> rfl
theorem exec_publish : exec (.publish c k) s = execPublish c k s := rfl

end

section
variable {s t : State} {c k core : Nat} {r : Ring} {q : List DWord}

theorem pad_completes (h : s.Serves c k r q 0 t) :
    exec (.pad c k) s = .next ((t.takePacket k r q 0).completePacket k r.pkts.length stOk 0 0 0#64) := by
  rw [exec_pad, serve_serves _ h]

theorem kernel_launches (h : s.Serves c k r q 1 t) {y : Kernel} (hy : t.kernelOf c (qAt q 2) = some y) :
    exec (.kernel c k) s = .next ((t.takePacket k r q t.trees.length).launch c (.packet k r.pkts.length) y (qAt q 3) (pktExtent q)
      ((qAt q 5).getLsbD 32) (qAt q 6, qAt q 7, qAt q 8)) := by
  simp only [exec_kernel, execKernel, serve_serves _ h, hy]

theorem graph_begins (h : s.Serves c k r q 2 t) {u l : State} (clean : t.graphPoison c (bitsOf (qAt q 2) 0 8) = none)
    (header : t.capFor 3 (.graph c (bitsOf (qAt q 2) 0 8) 0) c 0 32 false = some u)
    (nodes : u.capFor 3 (.graph c (bitsOf (qAt q 2) 0 8) 1) c 0
      (64 * graphNodes u.mem (u.graphHeader c (bitsOf (qAt q 2) 0 8))) false = some l) :
    exec (.graph c k) s = .next ((l.takePacket k r q l.runs.length).beginGraph c (bitsOf (qAt q 2) 0 8) k r.pkts.length) := by
  simp only [exec_graph, execGraph, serve_serves _ h, clean, viaCap_some _ header, viaCap_some _ nodes]

theorem copyDetail_eq {y : Ctx} (hy : t.ctxs[c]? = some y) :
    t.copyDetail c q = acceptDetail y.features 0 false true (q.drop 2) [] := by
  simp only [State.copyDetail, hy]

theorem copy_queues (h : s.Serves c k r q 3 t) {y : Ctx} (hy : t.ctxs[c]? = some y)
    (accepted : acceptDetail y.features 0 false true (q.drop 2) [] = none) (room : t.copyCore c (CopyDesc.of (q.drop 2)) core = true) :
    exec (.copy c k core) s = .next { t.takePacket k r q t.copies.length with
      copies := (t.takePacket k r q t.copies.length).copies ++
        [CopyReq.fresh core c 0 0 (some (k, r.pkts.length)) (q.drop 2) [] .queued] } := by
  simp only [exec_copy, execCopy, serve_serves _ h, copyDetail_eq hy, accepted, room, if_true]

theorem copy_fails (h : s.Serves c k r q 3 t) {y : Ctx} (hy : t.ctxs[c]? = some y) {d : Nat}
    (refused : acceptDetail y.features 0 false true (q.drop 2) [] = some d) :
    exec (.copy c k core) s = .next ((t.takePacket k r q 0).completePacket k r.pkts.length stCopyFail d 0 0#64) := by
  simp only [exec_copy, execCopy, serve_serves _ h, copyDetail_eq hy, refused]

theorem waitValue_reads (h : s.Serves c k r q 4 t) :
    exec (.waitValue c k) s = .next ((t.takePacket k r q 0).rereadPacket k r.pkts.length) := by
  rw [exec_waitValue, serve_serves _ h]

theorem waitValueReread_reads (hr : s.rings[k]? = some r) (hc : r.ctx = c) {y : Packet} (one : r.pkts = [y]) :
    exec (.waitValueReread c k) s = .next (s.rereadPacket k 0) := by
  simp [exec_waitValueReread, execWaitValueReread, hr, hc, one]

theorem publish_waits (h : s.Serves c k r q 6 t) (clean : t.pbPoison c (bitsOf (qAt q 2) 0 8) = none)
    (enabled : (t.readPb c (bitsOf (qAt q 2) 0 8)).pbEnabled c (bitsOf (qAt q 2) 0 8) = true) :
    exec (.publish c k) s = .next ((t.readPb c (bitsOf (qAt q 2) 0 8)).takePacket k r q
      ((t.readPb c (bitsOf (qAt q 2) 0 8)).pbGen c (bitsOf (qAt q 2) 0 8)).toNat) := by
  simp only [exec_publish, execPublish, serve_serves _ h, clean, enabled, if_true]

theorem publish_fails (h : s.Serves c k r q 6 t) (clean : t.pbPoison c (bitsOf (qAt q 2) 0 8) = none)
    (closed : (t.readPb c (bitsOf (qAt q 2) 0 8)).pbEnabled c (bitsOf (qAt q 2) 0 8) = false) :
    exec (.publish c k) s =
      .next (((t.readPb c (bitsOf (qAt q 2) 0 8)).takePacket k r q 0).completePacket k r.pkts.length stPubFail 0x0F 0 0#64) := by
  simp only [exec_publish, execPublish, serve_serves _ h, clean, closed, Bool.false_eq_true, if_false]

theorem checkpointPacket_requests (h : s.Serves c k r q 7 t) {save : Bool} (mode : (qAt q 2).getLsbD 0 = save) :
    s.checkpointPacket c k save = (t.takePacket k r q 0).requestClose c ⟨.packet k r.pkts.length, save⟩ := by
  simp only [State.checkpointPacket, serve_serves _ h, mode, bne_self_eq_false, Bool.false_eq_true, if_false]

/-- A packet that Lantern's entry of its ring does not hold is an error of the front end, of whatever type it is (19 R408). -/
theorem packet_noEntry {type : Nat} (h : s.Dispatches c k r q type)
    (hcap : s.capFor 0 (.ring k) c (16 * (r.rptr.toNat % 2 ^ r.logsz)) (16 * pktLen q) false = none) {i : Instr}
    (hi : (type, i) ∈ [(0, Instr.pad c k), (1, .kernel c k), (2, .graph c k), (3, .copy c k core), (4, .waitValue c k), (6, .publish c k),
      (7, .checkpointClose c k), (7, .checkpointStopSave c k)]) : exec i s = .next s.frontError := by
  simp only [List.mem_cons, Prod.mk.injEq, List.not_mem_nil, or_false] at hi
  rcases hi with ⟨rfl, rfl⟩ | ⟨rfl, rfl⟩ | ⟨rfl, rfl⟩ | ⟨rfl, rfl⟩ | ⟨rfl, rfl⟩ | ⟨rfl, rfl⟩ | ⟨rfl, rfl⟩ | ⟨rfl, rfl⟩ <;>
    exact congrArg Host.Outcome.next (serve_noEntry _ h hcap)

end

/-! ### WAIT_VALUE and SIGNAL at their addresses (13 R306) -/

section
variable {s u : State} {k n : Nat} {y : Ring} {z : Packet} {l : Kept}

/-- A packet acts through the translation that it has kept, found again, and Lantern's entry of its address. -/
theorem atField_acts {acc : Acc} {bytes : Nat} (f : State → Kept → State) (found : z.found.bind (s.refind y.ctx acc) = some l)
    (cap : (z.found.elim s (s.keptLooks y.ctx acc)).capFor 5 (.field k n 1) y.ctx 0 bytes (acc == .wr) = some u) :
    s.atField k n bytes acc y z f = f u l := by
  simp only [State.atField, found, viaCap_some _ cap]

theorem rereadPacket_reads (hp : s.packetOf k n = some (y, z)) (open_ : z.done = false) (type : pktType z.quads = 4)
    (runs : s.ctxRuns y.ctx = true) (front : s.frontStopped = false) (found : z.found.bind (s.refind y.ctx .rd) = some l)
    (cap : (z.found.elim s (s.keptLooks y.ctx .rd)).capFor 5 (.field k n 1) y.ctx 0 (waitBytes z.quads) false = some u) :
    let t := (u.modPacket k n (fun x => { x with found := some l })).homeAccess l.pa l.ms false (waitBytes z.quads)
    t.linePoisoned (l.pa / 128) = false →
    s.rereadPacket k n = if t.waitHolds z.quads l.pa then t.completePacket k n stOk 0 0 0#64 else t := by
  intro t clean
  have closed : (z.done || pktType z.quads != 4 || !s.ctxRuns y.ctx || s.frontStopped) = false := by simp [open_, type, runs, front]
  simp only [State.rereadPacket, hp, closed, Bool.false_eq_true, if_false]
  rw [atField_acts _ found cap]
  rw [if_neg (show ¬ t.linePoisoned (l.pa / 128) = true by rw [clean]; exact Bool.false_ne_true)]

theorem performSignal_acts (hp : s.packetOf k n = some (y, z)) (due : s.signalDue k n = true)
    (found : z.found.bind (s.refind y.ctx .wr) = some l)
    (cap : (z.found.elim s (s.keptLooks y.ctx .wr)).capFor 5 (.field k n 1) y.ctx 0 (signalBytes z.quads) true = some u)
    (clean : signalAdds z.quads = true → u.linePoisoned (l.pa / 128) = false) :
    s.performSignal k n = ((u.signalWrite z.quads l).completePacket k n stOk 0 0 0#64).rereadAll := by
  have passes : (signalAdds z.quads && u.linePoisoned (l.pa / 128)) = false := by
    cases adds : signalAdds z.quads with
    | false => rfl
    | true => exact clean adds
  simp only [State.performSignal, hp, due, Bool.not_true, Bool.false_eq_true, if_false]
  rw [atField_acts _ found cap]
  simp only [passes, Bool.false_eq_true, if_false]

theorem performSignal_waits (due : s.signalDue k n = false) : s.performSignal k n = s := by
  unfold State.performSignal
  split
  · rfl
  · simp only [due, Bool.not_false, if_true]

variable {c : Nat} {r : Ring} {q : List DWord} {add : Bool}

theorem signalPacket_due (hr : s.rings[k]? = some r) (hc : r.ctx = c) {j : Nat} (due : s.dueSignal k add = some j) :
    s.signalPacket c k add = s.performSignal k j := by
  simp only [State.signalPacket, due, hr, hc, Option.any_some, beq_self_eq_true, if_true]

theorem signalPacket_serves {t : State} (h : s.Serves c k r q 5 t) (adds : signalAdds q = add) (due : s.dueSignal k add = none) :
    s.signalPacket c k add = (t.takePacket k r q 0).performSignal k r.pkts.length := by
  simp only [State.signalPacket, due, serve_serves _ h, adds, bne_self_eq_false, Bool.false_eq_true, if_false]

end

/-! ### Launches, bins, groups (12 R282, R289 to R298; 13 R310, R315, R320) -/

section
variable (s : State) (c n g o : Nat)

theorem exec_groupPlace : exec .groupPlace s = execGroupPlace s := rfl
theorem exec_groupStart : exec (.groupStart g) s = execGroupStart g s := rfl
theorem exec_sgwaitSpinExpiry : exec (.sgwaitSpinExpiry n) s = execSgwaitSpinExpiry n s := rfl
theorem exec_sgoTimeout : exec (.sgoTimeout c o) s = execSgoTimeout c o s := rfl

end

section
variable {s : State}

theorem closeTree_packet {n k p : Nat} {t : Tree} (ht : s.trees[n]? = some t) (open_ : t.isOpen = true) (quiet : t.quiet = true)
    (fits : t.failed = false) (kept : t.abandoned = false) (origin : t.origin = .packet k p) :
    s.closeTree n = ((s.modTree n (fun y => { y with isOpen := false })).completePacket k p stOk 0 t.done 0#64).retryNodes t.ctx := by
  simp [State.closeTree, ht, open_, quiet, fits, kept, origin]

theorem binExpire_fires {c n : Nat} {x : Ctx} {y : Bin} (hy : s.binOf c n = some y) (hx : s.ctxs[c]? = some x) (set : y.slots ≠ [])
    (due : y.due ≤ x.resClock) (runs : s.ctxRuns c = true) : s.binExpire c n = s.fireDue c n (x.resClock - y.due) := by
  simp [State.binExpire, hy, hx, set, due, runs]

/-- A set before which none was due fires alone. -/
theorem fireDue_alone {c n late : Nat} (first : ∀ d ∈ s.dueBins, d.before ⟨late, (s.ownerOf c).toNat, n, c⟩ = false) :
    s.fireDue c n late = s.fireBin c n := by
  have none_ : s.dueBins.filter (fun y => y.before ⟨late, (s.ownerOf c).toNat, n, c⟩) = [] :=
    List.filter_eq_nil_iff.mpr fun d hd => by simp [first d hd]
  simp only [State.fireDue, none_]
  rfl

theorem groupPlace_places {x : Candidate} {cores : List Nat} (h : s.seekTables.noteSpanWait.placeable = some (x, cores)) :
    exec .groupPlace s = .next (s.seekTables.noteSpanWait.charging (s.seekTables.noteSpanWait.candidateCtx x) (fun u => u.place x cores)) := by
  simp only [exec_groupPlace, execGroupPlace, h]

theorem charging_congr (c : Nat) {f f' : State → State} (h : f s = f' s) : s.charging c f = s.charging c f' := by
  rw [State.charging, State.charging, h]

theorem groupStart_starts {g : Nat} {y : Group} (hy : s.groups[g]? = some y) (st : y.st = .starting) :
    exec (.groupStart g) s = .next (s.startGroup g) := by
  simp only [exec_groupStart, execGroupStart, hy, st, if_true]

theorem parkGroup_parks {g : Nat} {y : Group} (hy : s.groups[g]? = some y) (st : y.st = .parking) (stopped : s.allStopped y = true)
    (sleeps : y.wake = false) : s.parkGroup g = (s.leaveCores g .parked).modGroup g (fun z => { z with wake := false }) := by
  simp [State.parkGroup, hy, st, stopped, sleeps]

end

/-! ### Sample groups (13 R324, R327) -/

section
variable {s : State} {n d t : Nat} {w : Wave} {b : SibRef} (hw : s.waves[n]? = some w) (spins : w.st = .wait (.sgspin d t))
  (runs : s.groupRuns w = true) (bound : s.binding w = some b)
include hw spins runs bound

theorem spinExpiry_returns {u : State} {x : Wave} (look : s.sgWaitLook n d w b = some u) (hx : u.waves[n]? = some x)
    (ready : x.st = .ready) : exec (.sgwaitSpinExpiry n) s = .next u := by
  simp [exec_sgwaitSpinExpiry, execSgwaitSpinExpiry, State.sgWaitPoll, hw, runs, spins, bound, look, hx, ready]

/-- A wave whose spin has run out stops before its SGWAIT, and its group is to park. -/
theorem spinExpiry_parks (look : s.sgWaitLook n d w b = none) (late : t ≤ s.coreClock w.core) : exec (.sgwaitSpinExpiry n) s =
    .next ((s.setSt n .ready).modGroup w.group (fun z => { z with st := .parking })) := by
  have running : ∃ y, s.groups[w.group]? = some y ∧ y.st = .running := by
    have := (Bool.and_eq_true_iff.mp runs).2
    cases hy : s.groups[w.group]? with
    | none => simp [hy] at this
    | some y => exact ⟨y, rfl, by simpa [hy] using this⟩
  obtain ⟨y, hy, hrun⟩ := running
  have parked : (s.setSt n .ready).requestPark w.group = (s.setSt n .ready).modGroup w.group (fun z => { z with st := .parking }) := by
    have hy' : (s.setSt n .ready).groups[w.group]? = some y := hy
    simp only [State.requestPark, hy', hrun, if_true]
  simp [exec_sgwaitSpinExpiry, execSgwaitSpinExpiry, State.sgWaitPoll, hw, runs, spins, bound, look, late, parked]

end

theorem sgoTimeout_expires {s : State} {c o d : Nat} {x : Ctx} {y : Sgo} (hx : s.ctxs[c]? = some x)
    (hy : x.sgos.find? (fun z => z.num == o && z.live) = some y) (runs : s.ctxRuns c = true) (due : y.due = some d)
    (open_ : y.final = false) (timed : y.timeout ≠ 0) (late : d ≤ x.resClock) : exec (.sgoTimeout c o) s =
      .next ((s.modSgo c ⟨y.num, y.gen, 0⟩ (fun z => { z with
        expired := true, sibs := z.sibs.map (fun b => if b.kind = .waiting then { b with kind := .timedout } else b) })).settleSgo c
          ⟨y.num, y.gen, 0⟩) := by
  have live : y.live = true := by
    have := List.find?_some hy
    simp only [Bool.and_eq_true] at this
    exact this.2
  simp [exec_sgoTimeout, execSgoTimeout, hx, hy, runs, State.sgTimeout, due, live, open_, timed, late]

/-- Settles O53, event by event. -/
theorem frontEventResults : Obligations.FrontEventResults := by
  unfold Obligations.FrontEventResults
  intro s c k core slot n g o v r q x w p b
  refine ⟨fun z y t hslot ht hz hn last => doorbell_writes hslot ht hz hn last v, fun hslot => doorbell_ignored hslot v,
    fun t h => pad_completes h, fun t y h hy => kernel_launches h hy, fun t u l h clean header nodes => graph_begins h clean header nodes,
    fun t y h hy => ⟨copy_queues h hy, fun d => copy_fails h hy⟩, fun t h => waitValue_reads h,
    fun type h hcap i hi => packet_noEntry h hcap hi, ?reread, fun y hr hc one => waitValueReread_reads hr hc one, ?signal,
    fun t h clean => ⟨publish_waits h clean, publish_fails h clean⟩, ?checkpoint, ?complete, ?bin, fun late => fireDue_alone, ?place,
    fun y => groupStart_starts, fun y hy st stopped sleeps => congrArg Host.Outcome.next (parkGroup_parks hy st stopped sleeps),
    fun d t b hw spins runs bound => ⟨fun u x => spinExpiry_returns hw spins runs bound, spinExpiry_parks hw spins runs bound⟩,
    fun y d hx hy runs due open_ timed late => sgoTimeout_expires hx hy runs due open_ timed late⟩
  case reread =>
    exact fun y z l u hp open_ type runs front found cap => rereadPacket_reads hp open_ type runs front found cap
  case signal =>
    refine ⟨fun add j hr hc due y z l u hp turn found cap clean => ?_, fun add t h adds due => ⟨fun y z l u hp turn found cap clean => ?_,
      fun waits => ?_⟩⟩
    · rw [exec_signal, signalPacket_due hr hc due, performSignal_acts hp turn found cap clean]
    · rw [exec_signal, signalPacket_serves h adds due, performSignal_acts hp turn found cap clean]
    · rw [exec_signal, signalPacket_serves h adds due, performSignal_waits waits]
  case checkpoint =>
    exact fun t h => ⟨fun mode => congrArg Host.Outcome.next (checkpointPacket_requests h mode),
      fun mode => congrArg Host.Outcome.next (checkpointPacket_requests h mode)⟩
  case complete =>
    exact fun t ht open_ quiet fits kept origin =>
      congrArg Host.Outcome.next (closeTree_packet ht open_ quiet fits kept origin)
  case bin =>
    exact fun y hy hx set due runs => congrArg Host.Outcome.next (binExpire_fires hy hx set due runs)
  case place =>
    intro t got
    refine ⟨fun none_ => ?_, fun l y cores h hy => ?_, fun z y cores h hy => ?_⟩
    · simp only [exec_groupPlace, execGroupPlace]
      rw [none_]
    · rw [groupPlace_places h]
      have ctx : t.candidateCtx (.launch l) = y.ctx := by simp only [State.candidateCtx, hy, Option.map_some, Option.getD_some]
      refine congrArg Host.Outcome.next ((congrArg (t.charging · _) ctx).trans (charging_congr _ ?_))
      simp only [State.place, hy]
      rfl
    · rw [groupPlace_places h]
      have ctx : t.candidateCtx (.group z) = y.ctx := by simp only [State.candidateCtx, hy, Option.map_some, Option.getD_some]
      refine congrArg Host.Outcome.next ((congrArg (t.charging · _) ctx).trans (charging_congr _ ?_))
      simp only [State.place, hy]
      rfl

end Sys2Proof.FrontEnd

/-! PROOFS of 14_faults_checkpoints: the events of traps, kills, stops, copies and arrays (O54). -/

namespace Sys2Proof.EngineEvents

open Sys2Proof Sys2Proof.Machine Sys2Proof.Laws Sys2Proof.ScalarControl

section
variable (s : State) (n m c core a q : Nat)

theorem exec_trapEntry : exec (.trapEntry n) s = execTrapEntry n s := rfl
theorem exec_boundaryTrap : exec (.boundaryTrap n) s = execBoundaryTrap n s := rfl
theorem exec_waveKill : exec (.waveKill n) s = execWaveKill n s := rfl
theorem exec_waveStop : exec (.waveStop n m) s = execWaveStop n m s := rfl
theorem exec_barWaitComplete : exec (.barWaitComplete n) s = execBarWaitComplete n s := rfl
theorem exec_copyRequestStart : exec (.copyRequestStart core) s = execCopyRequestStart core s := rfl
theorem exec_copyPieceLand : exec (.copyPieceLand q m) s = execCopyPieceLand q m s := rfl
theorem exec_copyRequestFail : exec (.copyRequestFail q) s = execCopyRequestFail q s := rfl
theorem exec_copyRequestCancel : exec (.copyRequestCancel q) s = execCopyRequestCancel q s := rfl
theorem exec_followOnIssue : exec (.followOnIssue q) s = execFollowOnIssue q s := rfl
theorem exec_publishStep : exec (.publishStep c m) s = execPublishStep c m s := rfl
theorem exec_arrayPass : exec (.arrayPass core a) s = execArrayPass core a s := rfl
theorem exec_acczRun : exec (.acczRun core a) s = execAcczRun core a s := rfl
theorem exec_accldRun : exec (.accldRun core a) s = execAccldRun core a s := rfl

end

/-! ### Traps, kills and stops of a wave (14 R334, R339, R344) -/

section
variable {s : State} {n : Nat} {w : Wave} (hw : s.waves[n]? = some w)
include hw

theorem trapEntry_enters {f : Frame} {after : Bool} (runs : s.groupRuns w = true) (moving : w.stopped = false) (alive : w.killed = false)
    (held : w.held = some (f, after)) (live : s.ctxState w ≠ .faulted) : exec (.trapEntry n) s = .next (s.enterTrap n f after) := by
  simp [exec_trapEntry, execTrapEntry, State.takeHeld, hw, runs, moving, alive, held, live]

theorem boundaryTrap_takes {d : DueTrap} (runs : s.groupRuns w = true) (moving : w.stopped = false) (alive : w.killed = false)
    (free : w.held = none) (boundary : w.atBoundary = true) (due : firstDue w.due = some d) : exec (.boundaryTrap n) s =
      .next ((s.modWave n (fun y => { y with due := y.due.erase d, st := .ready })).takeTrap n d.info false) := by
  simp [exec_boundaryTrap, execBoundaryTrap, State.boundaryTrap, hw, runs, moving, alive, free, boundary, due]

theorem waveKill_retires (killed : w.killed = true) (killable : w.killable = true) (ha : w.atoms = []) :
    exec (.waveKill n) s = .next ((s.retireWave n).settleFaulted w.group) := by
  simp [exec_waveKill, execWaveKill, State.killWave, hw, killed, killable, drainAtoms_none hw ha]

/-- A wave that is ready, with nothing outstanding, goes back to the first word of its group (log 51). -/
theorem waveStop_stops (asked : s.stopAsked w = true) (moving : w.stopped = false) (ready : w.st = .ready) (ho : w.outs = [])
    (ha : w.atoms = []) : exec (.waveStop n 0) s = .next ((s.modWave n (fun _ => { w with
      pc := (match w.pfx with
        | some p => p.pc
        | none => w.pc), pfx := none, delayUntil := none, marked := false, fetched := none, far := [], stopped := true
      })).settleFaulted w.group) := by
  have may : w.stoppable = true := by simp only [Wave.stoppable, moving, ready, Bool.not_false, Bool.true_and]
  simp only [exec_waveStop, execWaveStop, hw, asked, may, Bool.true_and, if_true, drainAtoms_none hw ha, State.mirrorSteps,
    modWave_modWave]
  refine congrArg (fun t : State => Host.Outcome.next (t.settleFaulted w.group)) (modWave_congr s n w _ _ hw ?_)
  simp only [Function.comp, drainOuts_none ho]
  have none_ : ({ w with far := [] } : Wave).drainOuts = { w with far := [] } := drainOuts_none ho
  rw [none_]
  simp only [Wave.atStop, ready]
  rfl

end

/-! ### Barriers (04 R126; 09 R244) -/

/-- Completion of a phase is noted for the waves of the group whose line of the scratchpad is whole. -/
theorem noteReached_blocked {s : State} {n g off : Nat} {ph : Word} {y : Group} {w : Wave} (hy : s.groups[g]? = some y)
    (hw : s.waves[n]? = some w) (st : w.st = .blocked off ph) (hg : w.group = g) : (s.noteReached g).waves[n]? =
      some (if s.barBad g off = false ∧ phaseReached (s.phaseOf g off) ph then { w with reached := true } else w) := by
  have phase : s.phaseOf g off = y.phaseAt off := by
    simp only [State.phaseOf, hy]
    rfl
  simp only [State.noteReached, hy, List.getElem?_map, hw, Option.map_some, st, hg, true_and, phase]

section
variable {s : State} {n off : Nat} {ph : Word} {w : Wave} (hw : s.waves[n]? = some w) (st : w.st = .blocked off ph)
  (runs : s.groupRuns w = true) (calm : w.dueNow = false) (alive : w.killed = false)
include hw st runs calm alive

theorem barWaitComplete_poison (waits : w.reached = false) (bad : s.barBad w.group off = true) : exec (.barWaitComplete n) s =
    .next ((s.setSt n .ready).meetPoison n (BitVec.ofNat 64 (scratchWindow + off)) 1) := by
  simp [exec_barWaitComplete, execBarWaitComplete, hw, st, runs, calm, alive, waits, bad]

theorem barWaitComplete_completes (reached : w.reached = true) (hp : w.pend = []) : exec (.barWaitComplete n) s =
    .next (((s.setSt n .ready).releaseDone n 1).acquire n |>.proceed n) := by
  have hw' : (s.setSt n .ready).waves[n]? = some { w with st := .ready } := by simp [State.setSt, hw]
  simp only [exec_barWaitComplete, execBarWaitComplete, hw, st, runs, calm, alive, reached, Bool.not_true, Bool.or_self,
    Bool.false_eq_true, if_false, if_true, release_empty hw' hp, State.runCont]

end

/-! ### The copy engines (03 R90, R95, R104; 12 R295) -/

section
variable {s : State} {q : Nat} {x : CopyReq} (hx : s.copies[q]? = some x)

theorem copyRequestStart_starts {core z : Nat} {rest : List Nat} (free : s.coreHeld core = false) (room : s.activeUsed core < 8)
    (first : s.waiting core = z :: rest) (hz : s.copies[z]? = some x) (starts : (s.prepare x).st = .running) :
    exec (.copyRequestStart core) s = .next (s.modCopy z (fun _ => s.prepare x)) := by
  simp [exec_copyRequestStart, execCopyRequestStart, State.startCopy, free, room, first, State.startFirst, hz, starts]

include hx

/-- A piece lands; the copy of a packet ends with its last. -/
theorem copyPieceLand_lands (goes : s.copyGoes q x = true) (m : Nat) {y : CopyReq} :
    let t := (s.landPiece q m).workDone (.copyEngine x.core) (if x.host.isSome then none else some x.wave)
    t.copies[q]? = some y →
      exec (.copyPieceLand q m) s = .next (if y.st = .done then t.endHostCopy y stOk 0 0#64 else t) := by
  intro t hy
  simp only [exec_copyPieceLand, execCopyPieceLand, hx, goes, if_true]
  rw [hy]

section
variable {t : TrapInfo} (may : s.copyGoes q x = true ∨ s.phaseFails x = true) (fault : s.copyFault q = some t)
include may fault

theorem copyRequestFail_fails (kept : t.cause ≠ causeEcc) : exec (.copyRequestFail q) s =
    .next ((s.failCopy q t).endHostCopy x stCopyFail t.detail.toNat t.addr) := by
  have may : (s.copyGoes q x || s.phaseFails x) = true := by simpa using may
  simp [exec_copyRequestFail, execCopyRequestFail, hx, fault, may, kept]

/-- Lost data in a context with an image fails no copy: the context rolls back (14 R362). -/
theorem copyRequestFail_rollsBack (lost : t.cause = causeEcc) (image : s.hasImage x.ctx = true) : exec (.copyRequestFail q) s =
    .next (s.rollbackFor x.ctx t.detail.toNat) := by
  have may : (s.copyGoes q x || s.phaseFails x) = true := by simpa using may
  simp [exec_copyRequestFail, execCopyRequestFail, hx, fault, may, lost, image]

end

theorem copyRequestCancel_cancels (killed : s.copyKilled x = true) (open_ : x.st.ended = false) (entered : x.st ≠ .reserved) :
    let t := s.modCopy q (fun y => { y with st := .cancelled })
    exec (.copyRequestCancel q) s = .next (if x.host.isSome then t.retryNodes x.ctx else t.tryEnd x.group) := by
  simp [exec_copyRequestCancel, execCopyRequestCancel, hx, killed, open_, entered]

/-- A follow-on whose codes and addresses are good joins the queue of its array (10 R261). -/
theorem followOnIssue_issues {d : Ctx} {g : Group} (may : s.copyMay x = true) (alive : s.copyKilled x = false)
    (free : s.coreHeld x.core = false) (ready : s.followReady x = true) (hd : s.ctxs[x.ctx]? = some d)
    (okA : codeOk d.features (mmaAcode (followQuads x.ext)) = true) (okB : codeOk d.features (mmaBcode (followQuads x.ext)) = true)
    (codeA : mmaCode (mmaAcode (followQuads x.ext)) = true) (codeB : mmaCode (mmaBcode (followQuads x.ext)) = true)
    (hg : s.groups[x.group]? = some g) (fits : mmaCheck g.scratchSize (followQuads x.ext) = none)
    (room : s.queueFull x.core (mmaArr (followQuads x.ext)) = false) :
    let f := followQuads x.ext
    exec (.followOnIssue q) s = .next ((((s.enterRows x.wave f).enqueueCmd ⟨x.core, f, .follow, .queued, 0, x.wave, x.group, x.ctx, true⟩
      (mmaArr f)).modCopy q (fun y => { y with st := .done })).tryEnd x.group) := by
  simp [exec_followOnIssue, execFollowOnIssue, State.issueFollow, hx, may, alive, free, ready, hd, okA, okB, codeA, codeB, hg, fits, room]

end

/-- A table that nothing is bound under moves to its next generation, and its PUBLs and packets complete (03 R78, R99; 09 R247). -/
theorem publishStep_publishes {s : State} {c m : Nat} (runs : s.ctxRuns c = true) (waits : s.publishWaits c m = true)
    (whole : s.pbPoison c m = none) (free : s.boundUnder c m (s.pbGen c m + 1#32) = false) :
    let t := s.setPbGen c m (s.pbGen c m + 1#32)
    exec (.publishStep c m) s = .next ((t.donePublishes c m).foldl
      (fun y z => y.completePacket z.1 z.2 stOk 0 0 0#64) (t.endPubls c m)) := by
  simp [exec_publishStep, execPublishStep, State.publishStep, runs, waits, whole, free]

/-! ### The matrix arrays (10 R256 to R261) -/

section
variable {s : State} {core a j : Nat} {k : MCmd} (hk : s.headCmd core a = some (j, k)) (free : s.coreHeld core = false)
include hk free

theorem afterArray_ok {kinds : List MKind} (kind : kinds.contains k.kind = true) (t : State) :
    s.afterArray core a kinds (.ok t) = (t.workDone (.array core a) (some k.wave)).tryEnd k.group := by
  simp only [State.afterArray, hk, free, kind, Bool.not_true, Bool.or_self, Bool.false_eq_true, if_false]

theorem afterArray_lost {kinds : List MKind} (kind : kinds.contains k.kind = true) (image : s.hasImage k.ctx = true) (t : TrapInfo) :
    s.afterArray core a kinds (.error t) = s.rollbackFor k.ctx t.detail.toNat := by
  simp only [State.afterArray, hk, free, kind, image, Bool.not_true, Bool.or_self, Bool.false_eq_true, if_false, if_true]

section
variable {u : ArrayUnit} (hu : s.arrayOf core a = some u)
include hu

section
variable {g : Group} (kind : k.kind = .mma ∨ k.kind = .follow) (hg : s.groups[k.group]? = some g)
include kind hg

theorem arrayPass_passes (whole : s.passPoison g k = none) :
    let rows := chunkTile k.desc g.scratch u.wbuf k.nextc (u.tileRows k.tile)
    let len := chunkLen k.desc
    let t := ((s.writeTile k rows).account (s.domainOf k.ctx) (macCounter k.desc)
      (mmaM k.desc * mmaN k.desc * min len (mmaK k.desc - k.nextc * len))).modCmd j
      (fun y => { y with st := .running, nextc := k.nextc + 1 })
    exec (.arrayPass core a) s = .next (((if mmaK k.desc ≤ (k.nextc + 1) * len then t.finishCmd j k else t).workDone
      (.array core a) (some k.wave)).tryEnd k.group) := by
  have runs := afterArray_ok hk free (kinds := [.mma, .follow]) (by rcases kind with e | e <;> rw [e] <;> rfl)
  rcases kind with e | e <;> simp only [exec_arrayPass, execArrayPass, State.arrayPass, hk, hu, e, hg, whole, runs]

theorem arrayPass_rollsBack {code : Nat} (lost : s.passPoison g k = some code) (image : s.hasImage k.ctx = true) :
    exec (.arrayPass core a) s = .next (s.rollbackFor k.ctx (code % 2 ^ 8)) := by
  have lostRuns := afterArray_lost hk free (kinds := [.mma, .follow]) (by rcases kind with e | e <;> rw [e] <;> rfl) image
  rcases kind with e | e <;>
    simp only [exec_arrayPass, execArrayPass, State.arrayPass, hk, hu, e, hg, lost, lostRuns, BitVec.toNat_ofNat]

end

theorem accldRun_loads {rows : List (BitVec 4096)} {t : State} (kind : k.kind = .accld)
    (loads : s.accldRows k (u.tileRows k.tile) (rowsOf (qAt k.desc 2)) = .ok (rows, t)) : exec (.accldRun core a) s =
      .next ((((t.writeTile k rows).finishCmd j k).workDone (.array core a) (some k.wave)).tryEnd k.group) := by
  have runs := afterArray_ok hk free (kinds := [.accld]) (by rw [kind]; rfl)
  simp only [exec_accldRun, execAccldRun, State.accldRun, hk, hu, kind, if_true, loads, runs]

end

theorem acczRun_clears (kind : k.kind = .accz) : exec (.acczRun core a) s =
    .next ((((s.writeTile k (List.replicate 256 0#4096)).finishCmd j k).workDone (.array core a) (some k.wave)).tryEnd k.group) := by
  have runs := afterArray_ok hk free (kinds := [.accz]) (by rw [kind]; rfl)
  simp only [exec_acczRun, execAcczRun, State.acczRun, hk, kind, if_true, runs]

end

/-- Settles O54, event by event. -/
theorem engineEventResults : Obligations.EngineEventResults := by
  unfold Obligations.EngineEventResults
  intro s n m c core a q w x k j u
  refine ⟨fun f after hw => trapEntry_enters hw, fun d hw => boundaryTrap_takes hw, waveKill_retires, waveStop_stops,
    fun g y off ph => noteReached_blocked, fun off ph hw st waits bad runs calm alive => barWaitComplete_poison hw st runs calm alive waits bad,
    fun off ph hw st reached runs calm alive hp => barWaitComplete_completes hw st runs calm alive reached hp,
    fun z rest => copyRequestStart_starts, ?land, fun t hx may fault => ⟨copyRequestFail_fails hx may fault, copyRequestFail_rollsBack hx may fault⟩,
    copyRequestCancel_cancels, ?follow, publishStep_publishes, fun hk hu free => ⟨fun g kind hg => ⟨?pass, fun code => ?lost⟩,
      acczRun_clears hk free, fun rows t => accldRun_loads hk free hu⟩⟩
  case land =>
    intro hx goes t y hy
    rw [copyPieceLand_lands hx goes m hy]
    exact ⟨fun open_ => by rw [if_neg open_], fun done => by rw [if_pos done]⟩
  case follow =>
    intro hx may alive free ready f ⟨d, hd, okA, okB⟩ codeA codeB ⟨g, hg, fits⟩ room
    exact followOnIssue_issues hx may alive free ready hd okA okB codeA codeB hg fits room
  case pass => exact arrayPass_passes hk free hu kind hg
  case lost => exact arrayPass_rollsBack hk free hu kind hg

end Sys2Proof.EngineEvents

/-! PROOFS of 14_faults_checkpoints: the events of Afterglow and of hardware errors (O55). -/

namespace Sys2Proof.AfterglowEvents

open Sys2Proof Sys2Proof.Machine Sys2Proof.Laws Sys2Proof.ExecutionModel Sys2Proof.MemorySync

section
variable (s : State) (c k : Nat) (u : HwUnit) (ok : Bool)

theorem exec_intervalClose : exec (.intervalClose c) s = execIntervalClose c s := rfl
theorem exec_cutCapture : exec (.cutCapture c) s = execCutCapture c s := rfl
theorem exec_ckptintvExpiry : exec (.ckptintvExpiry c) s = execCkptintvExpiry c s := rfl
theorem exec_agStreamItem : exec (.agStreamItem c k) s = execAgStreamItem c k s := rfl
theorem exec_agCommit : exec (.agCommit c) s = execAgCommit c s := rfl
theorem exec_agPendUpdate : exec (.agPendUpdate c) s = execAgPendUpdate c s := rfl
theorem exec_eccCorrectable : exec (.eccCorrectable u) s = execEccCorrectable u s := rfl
theorem exec_eccUncorrectable : exec (.eccUncorrectable u) s = execEccUncorrectable u s := rfl
theorem exec_logicError : exec (.logicError u) s = execLogicError u s := rfl
theorem exec_selfTestVerdict : exec (.selfTestVerdict k ok) s = execSelfTestVerdict k ok s := rfl

end

/-! ### A context after a change -/

/-- Two changes of a context that agree on what it is are one. -/
theorem modCtx_congr {s : State} {c : Nat} {x : Ctx} (hx : s.ctxs[c]? = some x) {f g : Ctx → Ctx} (h : f x = g x) :
    s.modCtx c f = s.modCtx c g := by
  have same : s.ctxs.modify c f = s.ctxs.modify c g := by
    refine List.ext_getElem? fun j => ?_
    rw [List.getElem?_modify, List.getElem?_modify]
    split
    next e => simp only [← e, hx, Option.map_eq_map, Option.map_some, h]
    next => rfl
  simp only [State.modCtx, same]

theorem modCtx_ctx {s : State} {c : Nat} {x : Ctx} (hx : s.ctxs[c]? = some x) (f : Ctx → Ctx) :
    (s.modCtx c f).ctxs[c]? = some (f x) := by
  rw [modCtx_ctxs, List.getElem?_modify_eq, hx]
  rfl

/-- What an interval has of a context. -/
def agParts (z : Ctx) : Option Image × Option Image × List AgItem × List AgItem × List (AgItem × Nat × Nat) × Bool × Option Nat × Nat :=
  (z.image, z.agCut, z.agPend, z.agDone, z.agNew, z.agPort, z.agDown, z.agPtr)

/-! ### Closes (14 R347, R348) -/

theorem mayClose_iff (x : Ctx) (r : CloseReq) : x.mayClose r = true ↔ x.st = .resident ∨ x.st = .faulted ∧ r.save = true := by
  simp [Ctx.mayClose]

section
variable {s : State} {c : Nat} {x : Ctx} (hx : s.ctxs[c]? = some x)
include hx

/-- The first request that may begin does; those before it wait on. -/
theorem intervalClose_begins {held rest : List CloseReq} {r : CloseReq} (queue : x.agQueue = held ++ r :: rest) (free : x.closing = false)
    (may : x.st = .resident ∨ x.st = .faulted ∧ r.save = true) (wait : ∀ y ∈ held, ¬ (x.st = .resident ∨ x.st = .faulted ∧ y.save = true)) :
    exec (.intervalClose c) s =
      .next (s.modCtx c (fun y => { y with agStop := true, agFrom := x.st, agBy := [r], agQueue := held ++ rest })) := by
  have may' : x.mayClose r = true := (mayClose_iff x r).mpr may
  have wait' : ∀ y ∈ held, ¬ x.mayClose y = true := fun y hy h => wait y hy ((mayClose_iff x y).mp h)
  have first : x.agQueue.find? x.mayClose = some r := by
    rw [queue, List.find?_append, List.find?_eq_none.mpr wait', List.find?_cons_of_pos may', Option.none_or]
  have left : x.agQueue.eraseP x.mayClose = held ++ rest := by
    rw [queue, List.eraseP_append_right _ wait', List.eraseP_cons_of_pos may']
  simp only [exec_intervalClose, execIntervalClose, State.beginClose, hx, first, free, Bool.false_eq_true, if_false]
  exact congrArg Host.Outcome.next (modCtx_congr hx (by rw [left]))

theorem cutCapture_captures (stop : x.agStop = true) (none_ : x.agCut = none) (stopped : s.ctxStopped c = true) :
    ∃ t y, exec (.cutCapture c) s = .next t ∧ t.ctxs[c]? = some y ∧ y.agCut.isSome = true ∧ y.agOpen = x.agOpen + 1 ∧
      y.agDirty = [] ∧ y.agStop = x.agBy.any (·.save) ∧ t.mem = s.mem ∧ y.st = (if x.agBy.any (·.save) then .stopping else x.st) := by
  have cuts : (x.agStop && x.agCut.isNone && s.ctxStopped c) = true := by rw [stop, none_, stopped]; rfl
  simp only [exec_cutCapture, execCutCapture, State.cut, hx, cuts, if_true]
  cases x.agBy.any (·.save) with
  | true => exact ⟨_, _, rfl, modCtx_ctx hx _, rfl, rfl, rfl, rfl, rfl, rfl⟩
  | false => exact ⟨_, _, rfl, modCtx_ctx hx _, rfl, rfl, rfl, rfl, rfl, rfl⟩

theorem ckptintvExpiry_requests (st : x.st = .resident) (period : x.ckptPeriod ≠ 0) (region : x.act.ckptSize ≠ 0#64)
    (due : x.ckptPeriod ≤ x.resClock - x.ckptStart) : exec (.ckptintvExpiry c) s = .next (s.modCtx c (fun y => { y with
      agQueue := y.agQueue ++ [⟨.device, false⟩], ckptStart := y.resClock })) := by
  simp only [exec_ckptintvExpiry, execCkptintvExpiry, hx, st, true_and]
  rw [if_pos ⟨period, region, due⟩, requestClose_queues hx _ region]
  simp only [State.modCtx, List.modify_modify_eq]
  rfl

/-! ### Streaming (14 R349) -/

section
variable {k : Nat} {i : AgItem} {img : Image} (hi : x.agPend[k]? = some i) (cut : x.agCut = some img)
include hi cut

/-- An item is streamed behind those of its own quadrant alone. -/
theorem agStreamItem_streams (first : ∀ j ∈ x.agPend.take k, s.itemQuad x j ≠ s.itemQuad x i) : exec (.agStreamItem c k) s =
    .next (State.layRecords (s.modCtx c (fun y => { y with agPend := y.agPend.eraseIdx k, agDone := y.agDone ++ [i] })) c) := by
  have first : (x.agPend.take k).any (fun j => s.itemQuad x j == s.itemQuad x i) = false :=
    List.any_eq_false.mpr fun j hj h => first j hj (beq_iff_eq.mp h)
  simp only [exec_agStreamItem, execAgStreamItem, State.streamItem, hx, hi, cut, first, Bool.false_eq_true, if_false]

theorem agStreamItem_waits (behind : ∃ j ∈ x.agPend.take k, s.itemQuad x j = s.itemQuad x i) : exec (.agStreamItem c k) s = .next s := by
  obtain ⟨j, hj, same⟩ := behind
  have behind : (x.agPend.take k).any (fun j => s.itemQuad x j == s.itemQuad x i) = true :=
    List.any_eq_true.mpr ⟨j, hj, beq_iff_eq.mpr same⟩
  simp only [exec_agStreamItem, execAgStreamItem, State.streamItem, hx, hi, cut, behind, if_true]

end

/-- What is lost with a unit of a context changes nothing of its interval (14 R362). -/
theorem unitLost_agParts (code : Nat) (addr : DWord) : ∃ e, (s.unitLost c code addr).ctxs[c]? = some e ∧ agParts e = agParts x := by
  unfold State.unitLost
  split
  · exact ⟨_, modCtx_ctx hx _, rfl⟩
  · unfold State.contextFault
    simp only [hx]
    split
    · exact ⟨x, hx, rfl⟩
    · rw [report_ctxs, settleFaults_ctxs, if_pos trivial, lifeAdd_ctxs]
      exact ⟨_, modCtx_ctx hx _, rfl⟩

end

theorem readGranules_ctxs (s : State) (x : Ctx) (l : List AgItem) : (s.readGranules x l).ctxs = s.ctxs :=
  CacheOnly.ctxs (CacheOnly.foldl _ (fun t pa => cacheOnly_homeRange t pa 65536 false) _ s)

section
variable {s : State} {c : Nat} {x : Ctx} (hx : s.ctxs[c]? = some x)
include hx

/-- The records of granules with lost data leave the interval without a port (log 76). -/
theorem meetGranules_poison {l : List AgItem} {line : Nat} (lost : s.granulePoison x l = some line) :
    ∃ e, (s.meetGranules c x l).ctxs[c]? = some e ∧ agParts e = agParts { x with agPort := true } := by
  simp only [State.meetGranules, lost]
  have hx' : (s.readGranules x l).ctxs[c]? = some x := by rw [readGranules_ctxs, hx]
  exact unitLost_agParts (modCtx_ctx hx' _) ..

theorem meetGranules_whole {l : List AgItem} (whole : s.granulePoison x l = none) : (s.meetGranules c x l).ctxs[c]? = some x := by
  simp only [State.meetGranules, whole]
  rw [readGranules_ctxs, hx]

section
variable {img : Image} (cut : x.agCut = some img)
include cut

theorem layRecords_port (port : x.agPort = true) : (s.layRecords c).ctxs[c]? =
    some { x with agNew := x.agNew ++ (x.agDone.drop x.agNew.length).map (fun i => (i, x.agPtr, 0)) } := by
  have laid : s.layRecords c = s.modCtx c (fun y => { y with
      agNew := y.agNew ++ (x.agDone.drop x.agNew.length).map (fun i => (i, x.agPtr, 0)) }) := by
    simp only [State.layRecords, hx, cut, port, if_true]
  rw [laid]
  exact modCtx_ctx hx _

/-- Records are laid one after the other, behind those that stand, around the end of the area (14 R349). -/
def recordsFrom (img : Image) (size ptr : Nat) (fresh : List AgItem) : List (AgItem × Nat × Nat) × Nat :=
  fresh.foldl (fun acc i => (acc.1 ++ [(i, acc.2 % size, i.span img.pieces)], acc.2 + i.span img.pieces)) ([], ptr)

omit hx cut in
theorem recordsFrom_one (img : Image) (size ptr : Nat) (i : AgItem) :
    recordsFrom img size ptr [i] = ([(i, ptr % size, i.span img.pieces)], ptr + i.span img.pieces) := rfl

/-- What laying the records of a context leaves of it, once their granules have been read. -/
theorem layRecords_laid (port : x.agPort = false) {e : Ctx}
    (met : (s.meetGranules c x (x.agDone.drop x.agNew.length)).ctxs[c]? = some e) :
    let placed := recordsFrom img x.act.ckptSize.toNat x.agPtr (x.agDone.drop x.agNew.length)
    (s.layRecords c).ctxs[c]? = some { e with
      agNew := e.agNew ++ placed.1, agPtr := placed.2 % x.act.ckptSize.toNat
      agDown := match e.agDown with
        | some p => some p
        | none => s.downPort } := by
  simp only [State.layRecords, hx, cut, port, Bool.false_eq_true, if_false]
  exact modCtx_ctx (s := State.account ..) met _

/-- Laying records leaves the image of a context, and what it has still to stream. -/
theorem layRecords_keeps : ∃ e, (s.layRecords c).ctxs[c]? = some e ∧ e.image = x.image ∧ e.agPend = x.agPend := by
  cases port : x.agPort with
  | true => exact ⟨_, layRecords_port hx cut port, rfl, rfl⟩
  | false =>
    have met : ∃ e, (s.meetGranules c x (x.agDone.drop x.agNew.length)).ctxs[c]? = some e ∧ e.image = x.image ∧ e.agPend = x.agPend := by
      cases lost : s.granulePoison x (x.agDone.drop x.agNew.length) with
      | none => exact ⟨x, meetGranules_whole hx lost, rfl, rfl⟩
      | some line =>
        obtain ⟨e, he, same⟩ := meetGranules_poison hx lost
        exact ⟨e, he, congrArg (·.1) same, congrArg (·.2.2.1) same⟩
    obtain ⟨e, he, image, pend⟩ := met
    exact ⟨_, layRecords_laid hx cut port he, image, pend⟩

theorem layRecords_lays {i : AgItem} (port : x.agPort = false) (done : x.agDone = x.agNew.map (·.1) ++ [i])
    (whole : s.granulePoison x [i] = none) :
    ∃ y, (s.layRecords c).ctxs[c]? = some y ∧ y.agNew = x.agNew ++ [(i, x.agPtr % x.act.ckptSize.toNat, i.span img.pieces)] ∧
      y.agPtr = (x.agPtr + i.span img.pieces) % x.act.ckptSize.toNat ∧ y.image = x.image ∧ y.agDown = (x.agDown <|> s.downPort) := by
  have fresh : x.agDone.drop x.agNew.length = [i] := by rw [done]; exact List.drop_left' (List.length_map _)
  have laid := layRecords_laid hx cut port (meetGranules_whole hx (fresh ▸ whole))
  rw [fresh, recordsFrom_one] at laid
  refine ⟨_, laid, rfl, rfl, rfl, ?_⟩
  cases x.agDown <;> rfl

theorem layRecords_spoils {line : Nat} (port : x.agPort = false)
    (lost : s.granulePoison x (x.agDone.drop x.agNew.length) = some line) :
    ∃ y, (s.layRecords c).ctxs[c]? = some y ∧ y.agPort = true := by
  obtain ⟨e, he, same⟩ := meetGranules_poison hx lost
  exact ⟨_, layRecords_laid hx cut port he, congrArg (·.2.2.2.2.2.1) same⟩

end

end

theorem downPort_some {s : State} {j : Nat} (down : s.ports[j]? = some false) : s.downPort.isSome = true := by
  rw [State.downPort, List.find?_isSome]
  exact ⟨j, List.mem_range.mpr (List.getElem?_eq_some_iff.mp down).1, by simp [List.getD_eq_getElem?_getD, down]⟩

theorem downPort_none {s : State} (up : ∀ j : Nat, s.ports.getD j true = true) : s.downPort = none :=
  List.find?_eq_none.mpr fun j _ => by rw [up j]; decide

/-! ### The answers of a close (14 R347, R353) -/

/-- An interval of a context has been withdrawn: nothing of it is left, and the image stands. -/
def Withdrawn (c : Nat) (image : Option Image) (s : State) : Prop :=
  ∃ z, s.ctxs[c]? = some z ∧ z.image = image ∧ z.agCut = none ∧ z.agPend = [] ∧ z.agDone = [] ∧ z.agNew = []

section
variable {s t : State} {c : Nat} {image : Option Image} (h : Withdrawn c image s)
include h

theorem Withdrawn.of_ctxs (e : t.ctxs = s.ctxs) : Withdrawn c image t := by
  unfold Withdrawn
  rwa [e]

/-- Writing marks what it changes, and streams nothing again where nothing is left to stream. -/
theorem Withdrawn.markPa (pa : Nat) : Withdrawn c image (s.markPa pa) := by
  obtain ⟨z, hz, hi, hc, hp, hd, hn⟩ := h
  simp only [Withdrawn, State.markPa, List.getElem?_map, hz, Option.map_some]
  cases s.extentOf z pa with
  | none => exact ⟨z, rfl, hi, hc, hp, hd, hn⟩
  | some e =>
    have unmarked (i : AgItem) : z.markItem i = { z with agDirty := addMark z.agDirty i } := by
      rw [Ctx.markItem, if_neg (by simp [hp])]
    exact ⟨_, congrArg some (unmarked _), hi, hc, hp, hd, hn⟩

end

theorem countError_ctxs (s : State) (u : HwUnit) (code : Nat) : (s.countError u code).ctxs = s.ctxs := by
  unfold State.countError
  have counted (b : Option Nat) (t : State) (off : Nat → Nat) : (match b with
      | some k => t.lifeAdd (off k)
      | none => t).ctxs = t.ctxs := by
    cases b
    · rfl
    · exact lifeAdd_ctxs ..
  dsimp only
  split <;> split <;> simp only [lifeAdd_ctxs]

theorem capFor_ctxs {s t : State} {r : Nat} {o : CapObj} {c off n : Nat} {write : Bool} (h : s.capFor r o c off n write = some t) :
    t.ctxs = s.ctxs := by
  obtain ⟨used, -⟩ := Option.filter_eq_some_iff.mp h
  obtain ⟨k, -, found⟩ := Option.bind_eq_some_iff.mp used
  obtain ⟨x, -, loaded⟩ := Option.bind_eq_some_iff.mp found
  unfold State.loadCap at loaded
  split at loaded
  · split at loaded
    · exact Option.some.inj loaded ▸ rfl
    · cases loaded
  · cases loaded

section
variable {s : State} {c : Nat} {image : Option Image} (h : Withdrawn c image s)
include h

theorem Withdrawn.enterPhys (a : Nat) (ms : Bool) (bytes : List (Option (BitVec 8))) :
    Withdrawn c image (s.enterPhys none a ms bytes none) := by
  unfold State.enterPhys
  split
  · exact h
  · have counted (t : State) (n : Nat) : (t.countPeer a n).ctxs = t.ctxs := by
      unfold State.countPeer
      split <;> rfl
    refine Withdrawn.markPa (h.of_ctxs ?_) a
    exact (counted _ _).trans (cacheOnly_homeAccess s a ms true (presentBytes 0 bytes).length).ctxs

theorem Withdrawn.writeRecord (z : Nat) (k : Kept) (qs : List Nat) : Withdrawn c image (s.writeRecord z k qs) := by
  have looks : Withdrawn c image (s.keptLooks z .wr k) := by
    unfold State.keptLooks
    split
    · exact h.of_ctxs (cacheOnly_agentLooks ..).ctxs
    · exact h
  unfold State.writeRecord
  split
  · exact looks.enterPhys ..
  · exact looks

theorem Withdrawn.viaCap {r z off n : Nat} {o : CapObj} {write : Bool} {f : State → State}
    (hf : ∀ t, Withdrawn c image t → Withdrawn c image (f t)) : Withdrawn c image (s.viaCap r o z off n write f) := by
  unfold State.viaCap
  split
  next loaded => exact hf _ (h.of_ctxs (capFor_ctxs loaded))
  next => exact h.of_ctxs (t := s.frontError) (countError_ctxs s .frontEnd 8)

/-- The completion of a packet writes its record, and no more of a context. -/
theorem Withdrawn.completePacket (r p status detail count : Nat) (addr : DWord) :
    Withdrawn c image (s.completePacket r p status detail count addr) := by
  unfold State.completePacket
  split
  · exact h
  · split
    · exact h
    · have entered (t : State) (ht : Withdrawn c image t) :
          Withdrawn c image (((t.modPacket r p (fun k => { k with done := true })).modRing r (fun k => { k with done := k.done + 1#64 })).dropFields
            r p) := ht.of_ctxs rfl
      refine entered _ ?_
      split
      · exact h.viaCap fun t ht => ht.writeRecord ..
      · exact h

theorem Withdrawn.answerClose (r : CloseReq) (ivl : Nat) (ok : Bool) : Withdrawn c image (s.answerClose r ivl ok) := by
  unfold State.answerClose
  split
  · exact h.completePacket ..
  · exact h.of_ctxs rfl
  · exact h

end

/-- A close that is not to save the context leaves it without the interval; its image stands. -/
theorem failClose_withdrawn {s : State} {c : Nat} {x y : Ctx} (hx : s.ctxs[c]? = some x) (pend : x.agPend = [])
    (plain : y.agBy.any (·.save) = false) (ivl : Nat) (down : Option Nat) : Withdrawn c x.image (s.failClose c y ivl down) := by
  have fence : y.agBy.any (fun r => r.origin == .device && r.save) = false :=
    List.any_eq_false.mpr fun r hr h => List.any_eq_false.mp plain r hr (Bool.and_eq_true_iff.mp h).2
  simp only [State.failClose, plain, fence, Bool.false_eq_true, if_false]
  have answered (t : State) (ht : Withdrawn c x.image t) : Withdrawn c x.image (y.agBy.foldl (fun t r => t.answerClose r ivl false) t) :=
    List.foldlRecOn (motive := Withdrawn c x.image) _ _ ht fun t ht r _ => ht.answerClose r ivl false
  have withdrawn := answered _ ⟨_, modCtx_ctx hx (fun z => { z with
    agCut := none, agDirty := z.agDone.foldl addMark z.agDirty, agDone := [], agNew := [], agBy := [], agDown := none
    agPtr := (z.agNew.head?.map (·.2.1)).getD z.agPtr }), rfl, rfl, pend, rfl, rfl⟩
  cases down with
  | none => exact withdrawn
  | some p => exact withdrawn.of_ctxs (report_ctxs ..)

/-! ### Commits (14 R352, R353) -/

section
variable {s : State} {c : Nat} {x y : Ctx} {img : Image} (hx : s.ctxs[c]? = some x) (cut : x.agCut = some img) (pend : x.agPend = [])
  (hy : (s.layRecords c).ctxs[c]? = some y) (plain : y.agBy.any (·.save) = false)
include hx cut pend hy plain

theorem agCommit_commits (port : y.agPort = false) (own : y.agDown = none) (up : (s.layRecords c).downPort = none) :
    ∃ t z, exec (.agCommit c) s = .next (y.agBy.foldl (fun u r => u.answerClose r img.ivl true) t) ∧ t.ctxs[c]? = some z ∧
      z.image = some img ∧ z.agCut = none ∧ z.agFirst = false ∧ z.agPtr = (y.agPtr + commitBytes) % y.act.ckptSize.toNat := by
  simp only [exec_agCommit, execAgCommit, State.commit, hx, cut, pend, hy, plain, port, own, up, ne_eq, not_true_eq_false,
    Option.isSome_none, Bool.or_self, Bool.false_eq_true, if_false]
  exact ⟨_, _, rfl, modCtx_ctx (s := State.account ..) hy _, rfl, rfl, rfl, rfl⟩

theorem agCommit_withdraws (down : (y.agPort || y.agDown.isSome || (s.layRecords c).downPort.isSome) = true) :
    ∃ t z, exec (.agCommit c) s = .next t ∧ t.ctxs[c]? = some z ∧ z.image = x.image ∧ z.agCut = none ∧ z.agDone = [] ∧ z.agNew = [] := by
  obtain ⟨e, he, image, left⟩ := layRecords_keeps hx cut
  obtain rfl := Option.some.inj (hy.symm.trans he)
  obtain ⟨z, hz, hi, hc, -, hd, hn⟩ := failClose_withdrawn hy (left.trans pend) plain img.ivl
    (match y.agDown with
      | some p => some p
      | none => (s.layRecords c).downPort)
  refine ⟨_, z, ?_, hz, hi.trans image, hc, hd, hn⟩
  simp only [exec_agCommit, execAgCommit, State.commit, hx, cut, pend, hy, ne_eq, not_true_eq_false, if_false]
  cases own : y.agDown <;> simp only [own, Option.isSome_none, Option.isSome_some, Bool.or_false, Bool.or_true, Bool.true_or] at down ⊢
  · rw [if_pos down]
  · rfl

end

/-! ### Hardware errors (14 R355, R360 to R365) -/

theorem agPendUpdate_updates {s : State} {c : Nat} {x : Ctx} (hx : s.ctxs[c]? = some x) (st : x.st = .resident) :
    exec (.agPendUpdate c) s = .next (s.modCtx c (fun y => { y with
      agPendReg := BitVec.ofNat 64 (s.saveCost c x)
      agEstReg := BitVec.ofNat 64 ((s.saveCost c x + 319) / 320 + 2560), agSeen := s.feClock })) := by
  simp only [exec_agPendUpdate, execAgPendUpdate, hx, st, if_true, State.updatePend]

section
variable {s : State} {u : HwUnit} {code : Nat}

/-- A correctable error of the store of a core counts at the core too (04 R108). -/
theorem eccCorrectable_store {d : Nat} {l : PoolLine} (correct : s.correctableCode (.coreStore d l) = some code) :
    exec (.eccCorrectable (.coreStore d l)) s = .next ((s.lifeAdd (ltCe code)).modCore d (fun y => { y with csErr := y.csErr + 1#64 })) := by
  simp only [exec_eccCorrectable, execEccCorrectable, correct]
  rfl

/-- One of a cache line does where the line is one of L1 (04 R110). -/
theorem eccCorrectable_line {d l : Nat} {y : Core} (correct : s.correctableCode (.cacheLine d l) = some code) (hy : s.cores[d]? = some y) :
    exec (.eccCorrectable (.cacheLine d l)) s = .next (if y.l1.any (fun z => z.line == l) then
      (s.lifeAdd (ltCe code)).modCore d (fun y => { y with csErr := y.csErr + 1#64 }) else s.lifeAdd (ltCe code)) := by
  simp only [exec_eccCorrectable, execEccCorrectable, correct, hy, Option.any_some]
  rfl

theorem eccCorrectable_other (correct : s.correctableCode u = some code) (other : ∀ d l m, u ≠ .coreStore d l ∧ u ≠ .cacheLine d m) :
    exec (.eccCorrectable u) s = .next (s.lifeAdd (ltCe code)) := by
  simp only [exec_eccCorrectable, execEccCorrectable, correct]
  split
  · exact absurd rfl (other _ _ 0).1
  · exact absurd rfl (other _ .free _).2
  · rfl

theorem linkFlitRetry_counts (link : Nat) :
    let recent := s.retries.filter (fun y => y.1 == link && decide (s.feClock < y.2 + 2 ^ 20))
    let others := s.retries.filter (fun y => y.1 != link)
    recent.length < 15 → exec (.linkFlitRetry link) s = .next { s with retries := others ++ recent ++ [(link, s.feClock)] } := by
  intro recent others few
  have few : ¬ 16 ≤ recent.length + 1 := by omega
  exact congrArg Host.Outcome.next (if_neg few)

/-- The sixteenth retry within 2^20 clocks starts the test of the lane (14 R360). -/
theorem linkFlitRetry_tests (link : Nat) :
    let recent := s.retries.filter (fun y => y.1 == link && decide (s.feClock < y.2 + 2 ^ 20))
    let others := s.retries.filter (fun y => y.1 != link)
    15 ≤ recent.length → exec (.linkFlitRetry link) s = .next (State.beginTest { s with retries := others } (.link link) 0 .lane) := by
  intro recent others many
  have many : 16 ≤ recent.length + 1 := by omega
  exact congrArg Host.Outcome.next (if_pos many)

end

/-- Has a test of a unit of a core to wait for groups on it (log 49)? -/
def busyTest (s : State) (t : SelfTest) : Bool :=
  match unitCore t.unit with
  | some c => (s.groupsOn c).any (fun g => (s.groups[g]?).any (fun x => x.st != .faulted))
  | none => false

theorem busyTest_free {s : State} {t : SelfTest}
    (free : ∀ d g y, unitCore t.unit = some d → g ∈ s.groupsOn d → s.groups[g]? = some y → y.st = .faulted) :
    busyTest s t = false := by
  unfold busyTest
  split
  next d core =>
    refine List.any_eq_false.mpr fun g hg h => ?_
    cases hy : s.groups[g]? with
    | none => simp [hy] at h
    | some y => simp [hy, free d g y core hg hy] at h
  next => rfl

section
variable {s : State} {k : Nat} {t : SelfTest} (ht : s.tests[k]? = some t) (ok : Bool)
include ht

theorem verdict_eq : s.verdict k ok = if t.verdict || busyTest s t then s else
    let s1 := State.countVerdict { s with tests := s.tests.set k { t with verdict := true } } t ok
    let s2 := t.parked.foldl State.wakeGroup (if ok then s1 else (s1.fence t).measureFeatures)
    { (match t.cls with
      | .lane => s2
      | .lost => s2.lostData t
      | _ => s2.replay t) with stall := false } := by
  simp only [State.verdict, ht]
  rfl

theorem selfTestVerdict_waits {d g : Nat} {y : Group} (core : unitCore t.unit = some d) (hg : g ∈ s.groupsOn d) (hy : s.groups[g]? = some y)
    (live : y.st ≠ .faulted) : exec (.selfTestVerdict k ok) s = .next s := by
  have busy : busyTest s t = true := by
    simp only [busyTest, core]
    exact List.any_eq_true.mpr ⟨g, hg, by simpa [hy] using live⟩
  rw [exec_selfTestVerdict, execSelfTestVerdict, verdict_eq ht, busy, Bool.or_true, if_pos rfl]

end

/-- Settles O55, event by event. -/
theorem afterglowEventResults : Obligations.AfterglowEventResults := by
  unfold Obligations.AfterglowEventResults
  intro s c k link code x r rest i u ok cls st hx
  refine ⟨fun held => intervalClose_begins hx, cutCapture_captures hx, ckptintvExpiry_requests hx,
    fun img hi cut => ⟨agStreamItem_streams hx hi cut, agStreamItem_waits hx hi cut⟩, fun img cut => layRecords_lays hx cut,
    fun j => downPort_some, downPort_none, fun img line cut => layRecords_spoils hx cut, fun img y cut pend hy plain => ⟨fun up => ?commits,
      agCommit_withdraws hx cut pend hy plain⟩, agPendUpdate_updates hx, fun correct => ⟨eccCorrectable_other correct, ?store, ?line⟩,
    ?lost, ?clean, ?logic, ⟨linkFlitRetry_counts link, linkFlitRetry_tests link⟩, ?verdict,
    fun d g y ht => selfTestVerdict_waits ht ok, rfl⟩
  case commits =>
    simp only [Bool.or_eq_false_iff, Option.isSome_eq_false_iff, Option.isNone_iff_eq_none] at up
    obtain ⟨⟨port, own⟩, up⟩ := up
    exact agCommit_commits hx cut pend hy plain port own up
  case store =>
    rintro d l rfl
    exact eccCorrectable_store correct
  case line =>
    rintro d l y rfl hy
    exact eccCorrectable_line correct hy
  case lost => exact fun class_ => by simp only [exec_eccUncorrectable, execEccUncorrectable, class_]
  case clean => exact fun class_ => by simp only [exec_eccUncorrectable, execEccUncorrectable, class_]
  case logic => exact fun unit => by simp only [exec_logicError, execLogicError, unit, if_true]
  case verdict =>
    rintro ht open_ rfl free
    rw [exec_selfTestVerdict, execSelfTestVerdict, verdict_eq ht, open_, busyTest_free free]
    rfl

end Sys2Proof.AfterglowEvents

/-! PROOFS of 19_host_peers_security: the events of the host, peers, ports, power, heat and reset (O56). -/

namespace Sys2Proof.DeviceEvents

open Sys2Proof Sys2Proof.Machine Sys2Proof.Laws Sys2Proof.MemoryPath Sys2Proof.ExecutionModel Sys2Proof.MemorySync Sys2Proof.Consistency

section
variable (s : State) (p mw : Nat) (op : HostOp) (fails : List BootFailure)

theorem exec_peerRequest : exec (.peerRequest p op) s = execPeerRequest p op s := rfl
theorem exec_peerLinkDown : exec (.peerLinkDown p) s = execPeerLinkDown p s := rfl
theorem exec_peerLinkRetrain : exec (.peerLinkRetrain p) s = execPeerLinkRetrain p s := rfl
theorem exec_powerThrottleWindow : exec (.powerThrottleWindow mw) s = execPowerThrottleWindow mw s := rfl
theorem exec_thermtrip : exec .thermtrip s = execThermtrip s := rfl

end

/-! ### Accesses of the host and of peers (19 R402, R406) -/

theorem isHbm_of_lt {pa : Nat} (h : pa < 0x8000000000) : (paKind pa).isHbm = true := by
  rw [paKind, if_pos h]
  rfl

section
variable {s : State} {p : Nat} {op : HostOp}

theorem hostHdmAccess_reaches (inside : opEnd op ≤ 0x8000000000) : exec (.hostHdmAccess op) s = .next (s.outsideAccess false op) :=
  congrArg Host.Outcome.next (if_pos inside)

theorem peerRequest_reaches (up : s.peerUp p = true) (inside : opEnd op ≤ 0x8000000000) :
    exec (.peerRequest p op) s = .next (s.outsideAccess true op) := by
  simp only [exec_peerRequest, execPeerRequest, up, inside, decide_true, Bool.and_self, if_true]

theorem hostHdmAccess_refused (outside : 0x8000000000 < opEnd op) :
    exec (.hostHdmAccess op) s = .next { s with refusedHost := s.refusedHost ++ [opAddr op] } :=
  congrArg Host.Outcome.next (if_neg (Nat.not_le.mpr outside))

theorem peerRequest_refused (refused : s.peerUp p = false ∨ 0x8000000000 < opEnd op) : exec (.peerRequest p op) s = .next s := by
  refine congrArg Host.Outcome.next (if_neg ?_)
  rcases refused with down | outside
  · simp [down]
  · simp [Nat.not_le.mpr outside]

end

section
variable (s : State) (die : Bool) {pa : Nat}

theorem outsideAccess_write (bs : List (BitVec 8)) (hpa : pa < 0x8000000000) : s.outsideAccess die (.write pa bs) =
    s.agentWrites ((bs.zipIdx).map (fun b => (⟨pa + b.2, s.memorySide (pa + b.2)⟩, b.1))) none :=
  if_pos (isHbm_of_lt hpa)

/-- A read goes to the home of each of its lines. -/
theorem outsideAccess_read {n : Nat} (hn : 0 < n) (hpa : pa + n ≤ 0x8000000000) : s.outsideAccess die (.read pa n) =
    (linesOf pa n).foldl (fun t l =>
      let lo := max pa (128 * l)
      t.homeAccess lo (t.memorySide lo) false (min (pa + n) (128 * l + 128) - lo)) s :=
  if_pos ⟨isHbm_of_lt (by omega), hn⟩

theorem outsideAccess_read_cache {n : Nat} (hn : 0 < n) (hpa : pa + n ≤ 0x8000000000) :
    CacheOnly s (s.outsideAccess die (.read pa n)) := by
  rw [outsideAccess_read s die hn hpa]
  exact CacheOnly.foldl _ (fun t l => cacheOnly_homeAccess t ..) _ s

theorem linesOf_line {n : Nat} (hn : 0 < n) (one : (pa + n - 1) / 128 = pa / 128) : linesOf pa n = [pa / 128] := by
  have count : (pa % 128 + n + 127) / 128 = 1 := by omega
  rw [linesOf, count]
  simp

theorem outsideAccess_read_line {n : Nat} (hn : 0 < n) (hpa : pa + n ≤ 0x8000000000) (one : (pa + n - 1) / 128 = pa / 128) :
    s.outsideAccess die (.read pa n) = s.homeAccess pa (s.memorySide pa) false n := by
  rw [outsideAccess_read s die hn hpa, linesOf_line hn one]
  have low : max pa (128 * (pa / 128)) = pa := by omega
  have high : min (pa + n) (128 * (pa / 128) + 128) - pa = n := by omega
  simp only [List.foldl_cons, List.foldl_nil, low, high]

end

/-- An address of HBM lies at no peer. -/
theorem kept_of_hbm (s : State) {pa : Nat} (hpa : pa < 0x8000000000) : ((paKind pa).peerOf).any (fun p => !s.peerUp p) = false := by
  rw [paKind, if_pos hpa]
  rfl

/-- Bytes that an outside agent writes to HBM change no wave, and no other memory. -/
theorem enterPhys_outside (s : State) {pa : Nat} (hpa : pa < 0x8000000000) (ms : Bool) (bytes : List (Option (BitVec 8))) :
    (s.enterPhys none pa ms bytes none).waves = s.waves ∧ (s.enterPhys none pa ms bytes none).mem = s.mem.writeSome pa bytes := by
  have cache := cacheOnly_homeAccess s pa ms true (presentBytes 0 bytes).length
  simp only [State.enterPhys, kept_of_hbm s hpa, Bool.false_eq_true, if_false]
  refine ⟨(countPeer_waves ..).trans cache.waves, congrArg (·.writeSome pa bytes) ((countPeer_mem ..).trans cache.mem)⟩

/-- An atomic of an outside agent changes its own bytes alone, and those where the operation writes. -/
theorem outsideAccess_atomic {s : State} (die : Bool) {pa : Nat} (op : AtomOp) (wide : Bool) (x r : DWord) (wf : s.mem.wf = true)
    (aligned : pa % (if wide then 8 else 4) = 0) (inside : pa + (if wide then 8 else 4) ≤ 0x8000000000) :
    let n := if wide then 8 else 4
    let old := BitVec.ofNat 64 (s.mem.num pa n)
    let y : AtomAccess := ⟨0, 0#64, .phys pa true, x, r⟩
    let t := s.outsideAccess die (.atomic op wide pa x r)
    t.waves = s.waves ∧ (∀ a, a < pa ∨ pa + n ≤ a → t.mem.byte a = s.mem.byte a) ∧
      (atomWrites op wide old y = true → ∀ j, j < n →
        t.mem.byte (pa + j) = (bytesOfNat n (atomResult op wide old y).toNat).getD j 0#8) ∧
      (atomWrites op wide old y = false → t.mem = s.mem) := by
  intro n old y t
  have hpa : pa < 0x8000000000 := by
    have : 4 ≤ (if wide then 8 else 4) := by cases wide <;> decide
    omega
  generalize hms : (die || s.memorySide pa) = ms
  have cache := cacheOnly_homeAccess s pa ms false n
  have taken : t = if atomWrites op wide old y then (s.homeAccess pa ms false n).enterPhys none pa ms
      ((bytesOfNat n (atomResult op wide old y).toNat).map some) none else s.homeAccess pa ms false n := by
    subst hms
    exact if_pos ⟨isHbm_of_lt hpa, aligned⟩
  cases writes : atomWrites op wide old y with
  | false =>
    rw [writes, if_neg Bool.false_ne_true] at taken
    rw [taken]
    exact ⟨cache.waves, fun a _ => by rw [cache.mem], fun h => absurd h Bool.false_ne_true, fun _ => cache.mem⟩
  | true =>
    obtain ⟨waves, mem⟩ := enterPhys_outside (s.homeAccess pa ms false n) hpa ms ((bytesOfNat n (atomResult op wide old y).toNat).map some)
    rw [writes, if_pos rfl] at taken
    rw [taken, mem, cache.mem]
    have length : ((bytesOfNat n (atomResult op wide old y).toNat).map some).length = n := by
      rw [List.length_map, bytesOfNat_length]
    refine ⟨waves.trans cache.waves, fun a ha => byte_writeSome_outside _ _ _ _ wf (by rwa [length]), fun _ j hj => ?_,
      fun h => absurd h.symm Bool.false_ne_true⟩
    have hj' : j < (bytesOfNat n (atomResult op wide old y).toNat).length := by rwa [bytesOfNat_length]
    rw [List.getD_eq_getElem _ _ hj']
    exact byte_writeSome_present wf (by rw [List.getElem?_map, List.getElem?_eq_getElem hj', Option.map_some])

/-! ### Peers (19 R407) -/

section
variable {s : State} {p : Nat} {e : Peer} (he : s.peers[p]? = some e)

theorem peerLinkDown_ignored (down : s.peerUp p = false) : exec (.peerLinkDown p) s = .next s := by
  simp only [exec_peerLinkDown, execPeerLinkDown, down, Bool.false_eq_true, if_false]

include he

/-- The peers that the failed ports alone reach are lost. -/
theorem peerLinkDown_loses (up : e.st = .up) :
    let t : State := { s with linkPorts := s.linkPorts &&& ~~~e.ports }
    exec (.peerLinkDown p) s = .next (((List.range 64).filter (fun k => k == p ||
      (t.peers[k]?).any (fun y => y.st == .up && (y.ports &&& t.linkPorts) == 0#16))).foldl State.peerLost t) := by
  intro t
  have isUp : s.peerUp p = true := by simp [State.peerUp, he, up]
  have ports : s.peerPorts p = e.ports := by simp [State.peerPorts, he]
  have cut (k : Nat) : t.cutOff k = (t.peers[k]?).any (fun y => y.st == .up && (y.ports &&& t.linkPorts) == 0#16) := by
    unfold State.cutOff State.peerUp State.peerPorts
    cases t.peers[k]? <;> rfl
  simp only [exec_peerLinkDown, execPeerLinkDown, isUp, if_true, ports]
  exact congrArg (fun f => Host.Outcome.next (((List.range 64).filter f).foldl State.peerLost t)) (funext fun k => by rw [← cut])

theorem modify_peers (f : Peer → Peer) : s.peers.modify p f = s.peers.set p (f e) := by
  rw [List.modify_eq_set_getElem?, he]
  rfl

theorem peerLost_ends :
    let t := State.report { s with peers := s.peers.set p { e with st := .down } } errPeerDown p noContext 0#64 0 0
    s.peerLost p = (List.range t.waves.length).foldl (fun u k => u.losePeer p k) t := by
  intro t
  simp only [State.peerLost, modify_peers he]
  rfl

theorem peerLinkRetrain_fails (untrained : e.ports &&& ~~~s.deadPorts = 0#16) : exec (.peerLinkRetrain p) s = .next s := by
  have ports : s.trainable p = 0#16 := by simpa [State.trainable, State.peerPorts, he] using untrained
  simp [exec_peerLinkRetrain, execPeerLinkRetrain, ports]

section
variable (down : e.st = .down)
include down

theorem peerLinkRetrain_trains (trained : e.ports &&& ~~~s.deadPorts ≠ 0#16) : exec (.peerLinkRetrain p) s = .next { s with
    peers := s.peers.set p { e with st := .up }, linkPorts := s.linkPorts ||| (e.ports &&& ~~~s.deadPorts) } := by
  have ports : s.trainable p = e.ports &&& ~~~s.deadPorts := by simp [State.trainable, State.peerPorts, he]
  simp only [exec_peerLinkRetrain, execPeerLinkRetrain, ports, modify_peers he]
  exact congrArg Host.Outcome.next (if_pos (by simp [he, down, trained]))

end

end

/-! ### Checkpoint ports, power and heat (19 R404, R419, R420) -/

theorem ckptPortDown_keeps {s : State} {p : Nat} (hp : p < s.ports.length) :
    ∃ t, exec (.ckptPortDown p) s = .next t ∧ t.ports = s.ports.set p false ∧ t.mem = s.mem ∧ t.waves = s.waves ∧
      ∀ (c : Nat) (x : Ctx), s.ctxs[c]? = some x → ∃ y, t.ctxs[c]? = some y ∧ y.image = x.image ∧
        y.agDown = (if x.agCut.isSome then some (x.agDown.getD p) else x.agDown) := by
  refine ⟨_, rfl, rfl, rfl, rfl, fun c x hx => ⟨_, by rw [List.getElem?_map, hx, Option.map_some], ?_, ?_⟩⟩
  · split <;> rfl
  · cases cut : x.agCut <;> simp [hp]

theorem addEnergy_keeps (s : State) : s.addEnergy.waves = s.waves ∧ s.addEnergy.mem = s.mem := by
  unfold State.addEnergy
  generalize List.range 64 = l
  induction l generalizing s with
  | nil => exact ⟨rfl, rfl⟩
  | cons d l ih =>
    rw [List.foldl_cons]
    split
    · exact ih _
    · exact ih s

theorem powerThrottleWindow_calm {s : State} {mw : Nat} (low : mw ≤ s.addEnergy.powerCap * 1000) (cool : s.addEnergy.hot = false) :
    exec (.powerThrottleWindow mw) s = .next { s.addEnergy with withheld := 0, throttle := false } :=
  congrArg Host.Outcome.next (if_neg (by simp [cool, Nat.not_lt.mpr low]))

theorem powerThrottleWindow_withholds {s : State} {mw : Nat} (above : s.addEnergy.powerCap * 1000 < mw) :
    ∃ n t, 1 ≤ n ∧ n ≤ 64 ∧ t.withheld = n ∧ t.throttle = true ∧ exec (.powerThrottleWindow mw) s = .next t ∧
      t.waves = s.waves ∧ t.mem = s.mem := by
  obtain ⟨waves, mem⟩ := addEnergy_keeps s
  rw [exec_powerThrottleWindow, execPowerThrottleWindow]
  generalize s.addEnergy = u at above waves mem
  exact ⟨u.draw.1.toNat % 64 + 1, { u.draw.2 with withheld := u.draw.1.toNat % 64 + 1, throttle := true },
    by omega, by omega, rfl, rfl, congrArg Host.Outcome.next (if_pos (.inl above)), waves, mem⟩

/-- Has the device tripped, and has issue halted? -/
def thermal (s : State) : Bool × Bool := (s.thermtrip, s.issueHalt)

theorem lifeAdd_thermal (s : State) (off : Nat) : thermal (s.lifeAdd off) = thermal s := by
  unfold State.lifeAdd
  dsimp only
  split <;> rfl

theorem settleFaults_thermal (s : State) (c : Nat) : thermal (s.settleFaults c) = thermal s := by
  refine List.foldlRecOn (motive := fun t : State => thermal t = thermal s) _ _ rfl fun t ht g _ => ?_
  split
  · refine Eq.trans ?_ ht
    unfold State.settleFaulted
    split
    · rfl
    · extract_lets faulted
      split <;> rfl
  · exact ht

theorem report_thermal (s : State) (kind code : Nat) (ctx : BitVec 32) (addr : DWord) (place launch : Nat) :
    thermal (s.report kind code ctx addr place launch) = thermal s := by
  unfold State.report
  by_cases full : s.errBase = 0#64 ∨ (s.errWptr - s.errRptr).toNat = s.errSlots
  · rw [if_pos full]
    rfl
  · rw [if_neg full]
    simp only [thermal, State.raise]

theorem contextFault_thermal (s : State) (c : Nat) (kind : BitVec 4) (f : Frame) (who : Nat × Nat) (wave : DWord) :
    thermal (s.contextFault c kind f who wave) = thermal s := by
  unfold State.contextFault
  split
  · rfl
  · split
    · rfl
    · rw [report_thermal, settleFaults_thermal]
      split
      · exact lifeAdd_thermal ..
      · rfl

theorem contextFault_other (s : State) {c d : Nat} (other : c ≠ d) (kind : BitVec 4) (f : Frame) (who : Nat × Nat) (wave : DWord) :
    (s.contextFault c kind f who wave).ctxs[d]? = s.ctxs[d]? := by
  unfold State.contextFault
  split
  · rfl
  · split
    · rfl
    · rw [report_ctxs, settleFaults_ctxs]
      split
      · rw [lifeAdd_ctxs, modCtx_ctxs, List.getElem?_modify_ne _ _ other]
      · rw [modCtx_ctxs, List.getElem?_modify_ne _ _ other]

/-- A save that the device asks for changes no other context, and no other stop of the device. -/
theorem requestClose_device (s : State) (c : Nat) : thermal (s.requestClose c ⟨.device, true⟩) = thermal s ∧
    ∀ d, c ≠ d → (s.requestClose c ⟨.device, true⟩).ctxs[d]? = s.ctxs[d]? := by
  cases hx : s.ctxs[c]? with
  | none => simp [State.requestClose, hx]
  | some x =>
    by_cases region : x.act.ckptSize = 0#64
    · have faults : s.requestClose c ⟨.device, true⟩ = s.fenceFault c := by rw [requestClose_fails hx _ region]; rfl
      rw [faults]
      exact ⟨contextFault_thermal .., fun d other => contextFault_other s other ..⟩
    · rw [requestClose_queues hx _ region]
      exact ⟨rfl, fun d other => by rw [modCtx_ctxs, List.getElem?_modify_ne _ _ other]⟩

/-- The saves that a list of contexts is asked for. -/
def askSaves (s : State) (l : List Nat) : State := l.foldl (fun t c => t.requestClose c ⟨.device, true⟩) s

theorem askSaves_thermal (s : State) (l : List Nat) : thermal (askSaves s l) = thermal s :=
  List.foldlRecOn (motive := fun t : State => thermal t = thermal s) _ _ rfl fun t ht c _ => (requestClose_device t c).1.trans ht

theorem askSaves_other (s : State) (l : List Nat) {d : Nat} (hd : d ∉ l) : (askSaves s l).ctxs[d]? = s.ctxs[d]? :=
  List.foldlRecOn (motive := fun t : State => t.ctxs[d]? = s.ctxs[d]?) _ _ rfl fun t ht c hc =>
    ((requestClose_device t c).2 d fun e => hd (e ▸ hc)).trans ht

/-- A context that is asked once is as if it had been asked alone. -/
theorem askSaves_own {l : List Nat} (once : l.Nodup) {d : Nat} (hd : d ∈ l) (s : State) :
    ∃ u : State, u.ctxs[d]? = s.ctxs[d]? ∧ (askSaves s l).ctxs[d]? = (u.requestClose d ⟨.device, true⟩).ctxs[d]? := by
  induction l generalizing s with
  | nil => simp at hd
  | cons c l ih =>
    obtain ⟨hc, once⟩ := List.nodup_cons.mp once
    by_cases e : c = d
    · subst e
      exact ⟨s, rfl, askSaves_other _ l hc⟩
    · obtain ⟨u, hu, asked⟩ := ih once ((List.mem_cons.mp hd).resolve_left fun h => e h.symm) (s.requestClose c ⟨.device, true⟩)
      exact ⟨u, hu.trans ((requestClose_device s c).2 d e), asked⟩

/-- Every context that the stop concerns is to be saved, or FAULTED where it has no region. -/
theorem thermtrip_trips {s : State} (first : s.thermtrip = false) :
    ∃ t : State, exec .thermtrip s = .next t.settleThermal ∧ t.thermtrip = true ∧ t.issueHalt = s.issueHalt ∧
      ∀ (c : Nat) (x : Ctx), s.ctxs[c]? = some x → x.onDevice = true → ∃ y : Ctx, t.ctxs[c]? = some y ∧
        (x.act.ckptSize ≠ 0#64 → y.agQueue = x.agQueue ++ [⟨.device, true⟩]) ∧ (x.act.ckptSize = 0#64 → y.st = .faulted) := by
  generalize hl : (List.range s.ctxs.length).filter (fun c => match s.ctxs[c]? with
    | some x => x.onDevice
    | none => false) = l
  have same := askSaves_thermal { s with thermtrip := true } l
  refine ⟨askSaves { s with thermtrip := true } l, ?_, congrArg Prod.fst same, congrArg Prod.snd same, fun c x hx on => ?_⟩
  · subst hl
    simp only [exec_thermtrip, execThermtrip, first, Bool.false_eq_true, if_false]
    rfl
  · have member : c ∈ l := by
      rw [← hl, List.mem_filter]
      exact ⟨List.mem_range.mpr (List.getElem?_eq_some_iff.mp hx).1, by rw [hx]; exact on⟩
    obtain ⟨u, hu, asked⟩ := askSaves_own (hl ▸ List.nodup_range.filter _) member { s with thermtrip := true }
    have hu : u.ctxs[c]? = some x := hu.trans hx
    rw [asked]
    by_cases region : x.act.ckptSize = 0#64
    · obtain ⟨y, hy, st, -⟩ := fenceFault_ctx hu
      rw [requestClose_fails hu _ region]
      exact ⟨y, hy, fun h => absurd region h, fun _ => st⟩
    · rw [requestClose_queues hu _ region, modCtx_ctxs, List.getElem?_modify_eq, hu]
      exact ⟨_, rfl, fun _ => rfl, fun h => absurd h region⟩

theorem thermtrip_again {s : State} (tripped : s.thermtrip = true) : exec .thermtrip s = .next s := by
  simp only [exec_thermtrip, execThermtrip, tripped, if_true]

section
variable {s : State} (tripped : s.thermtrip = true) (running : s.issueHalt = false)
include tripped running

theorem settleThermal_halts (saved : ∀ x ∈ s.ctxs, x.savePending = false) :
    s.settleThermal = State.report { s with issueHalt := true } errThermal 0 noContext 0#64 0 0 := by
  have saved : s.ctxs.any Ctx.savePending = false := List.any_eq_false.mpr fun x hx => by rw [saved x hx]; exact Bool.false_ne_true
  simp only [State.settleThermal, tripped, running, saved, Bool.not_false, Bool.and_self, if_true]

end

theorem settleThermal_waits {s : State} (pending : ∃ x ∈ s.ctxs, x.savePending = true) : s.settleThermal = s := by
  have pending : s.ctxs.any Ctx.savePending = true := List.any_eq_true.mpr pending
  simp [State.settleThermal, pending]

theorem mayIssue_halted {s : State} (halt : s.issueHalt = true) (w : Wave) : s.mayIssue w = false := by
  simp [State.mayIssue, halt]

/-! ### Reset and bring-up (19 R413, R415, R422; 14 R357) -/

/-- What the bring-up leaves as it is. -/
def bootParts (s : State) : (List Wave × List Group × List Ctx × List Ring × List CopyReq) × (Bool × Word × DWord × DWord × List (Nat × DWord)) ×
    (List (BitVec 8) × DevForm × Nat × List TierImage × Bool) :=
  ((s.waves, s.groups, s.ctxs, s.rings, s.copies), (s.thermtrip, s.epoch, s.snapSeq, s.hours, s.life),
    (s.firmware, s.form, s.powerCap, s.tier, s.recovery))

/-- What the bring-up settles. -/
def bootMarks (s : State) : List (BitVec 256) × Bool := (s.measurements, s.ready)

theorem fenceWay_cache (s : State) (line : Nat) : CacheOnly { s with llcFences := s.llcFences ++ [llcSet line] } (s.fenceWay line) := by
  unfold State.fenceWay
  dsimp only
  split
  · exact cacheOnly_llcRoom ..
  · exact .refl _

section
variable (s : State) (f : BootFailure)

theorem bootFail_parts : bootParts (s.bootFail f) = bootParts s ∧ bootMarks (s.bootFail f) = bootMarks s := by
  cases f with
  | llcSet pa =>
    simp only [State.bootFail]
    split
    · have same := fenceWay_cache s (pa / 128)
      unfold CacheOnly at same
      rw [same]
      exact ⟨rfl, rfl⟩
    · exact ⟨rfl, rfl⟩
  | channel pa => simp only [State.bootFail]; split <;> exact ⟨rfl, rfl⟩
  | bankGroup pa => simp only [State.bootFail]; split <;> exact ⟨rfl, rfl⟩
  | core k => simp only [State.bootFail]; split <;> exact ⟨rfl, rfl⟩
  | hostLink => exact ⟨rfl, rfl⟩
  | ckptPort p => exact ⟨rfl, rfl⟩
  | peerPort p => exact ⟨rfl, rfl⟩

/-- What a slice does for room leaves the cores as they are. -/
theorem llcRoom_cores (line : Nat) : (s.llcRoom line).cores = s.cores := by
  have written (t : State) (l : Nat) : (t.writeUnit l).cores = t.cores := by
    unfold State.writeUnit
    dsimp only
    split
    · rfl
    · split <;> rfl
  have dropped (t : State) (l : Nat) : (t.llcDrop l).cores = t.cores := by
    unfold State.llcDrop
    dsimp only
    split
    · exact written ..
    · rfl
  unfold State.llcRoom
  dsimp only
  split
  · rfl
  · exact dropped ..

theorem fenceWay_cores (line : Nat) : (s.fenceWay line).cores = s.cores := by
  unfold State.fenceWay
  dsimp only
  split
  · exact llcRoom_cores ..
  · rfl

/-- What a failure of the bring-up can take out of use. -/
structure Links where
  cores : List Core
  ports : List Bool
  up : BitVec 16
  dead : BitVec 16

def linksOf (s : State) : Links := ⟨s.cores, s.ports, s.linkPorts, s.deadPorts⟩

/-- What each failure takes out of use (19 R422). -/
def Links.fail (d : Links) : BootFailure → Links
  | .core k => if k < 160 then { d with cores := d.cores.modify k (fun c => { c with fenced := true }) } else d
  | .ckptPort p => { d with ports := d.ports.set p false }
  | .peerPort p => { d with up := d.up &&& ~~~(1#16 <<< p), dead := d.dead ||| (1#16 <<< p) }
  | _ => d

theorem bootFail_links : linksOf (s.bootFail f) = (linksOf s).fail f := by
  cases f with
  | llcSet pa =>
    simp only [State.bootFail]
    split
    · have same := fenceWay_cache s (pa / 128)
      unfold CacheOnly at same
      have ports : (s.fenceWay (pa / 128)).ports = s.ports := by rw [same]
      have up : (s.fenceWay (pa / 128)).linkPorts = s.linkPorts := by rw [same]
      have dead : (s.fenceWay (pa / 128)).deadPorts = s.deadPorts := by rw [same]
      simp only [linksOf, Links.fail, fenceWay_cores, ports, up, dead]
    · rfl
  | channel pa => simp only [State.bootFail]; split <;> rfl
  | bankGroup pa => simp only [State.bootFail]; split <;> rfl
  | core k => simp only [State.bootFail, Links.fail]; split <;> rfl
  | hostLink => rfl
  | ckptPort p => rfl
  | peerPort p => rfl

end

/-- What some failures leave, one after the other. -/
theorem bootFails (s : State) (fails : List BootFailure) : bootParts (fails.foldl State.bootFail s) = bootParts s ∧
    bootMarks (fails.foldl State.bootFail s) = bootMarks s ∧
      linksOf (fails.foldl State.bootFail s) = fails.foldl Links.fail (linksOf s) := by
  induction fails generalizing s with
  | nil => exact ⟨rfl, rfl, rfl⟩
  | cons f fails ih =>
    obtain ⟨parts, marks, links⟩ := ih (s.bootFail f)
    obtain ⟨parts', marks'⟩ := bootFail_parts s f
    rw [bootFail_links] at links
    exact ⟨parts.trans parts', marks.trans marks', links⟩

/-- What a failure has taken out of use stays so: a property that it brings about, and that no other failure undoes. -/
theorem foldl_fail {P I : Links → Prop} {f : BootFailure} (keepI : ∀ d g, I d → I (d.fail g)) (keep : ∀ d g, P d → P (d.fail g))
    (now : ∀ d, I d → P (d.fail f)) {fails : List BootFailure} (hf : f ∈ fails) {d : Links} (hI : I d) : P (fails.foldl Links.fail d) := by
  have stays (l : List BootFailure) : ∀ d, P d → P (l.foldl Links.fail d) := by
    induction l with
    | nil => exact fun d h => h
    | cons g l ih => exact fun d h => ih _ (keep d g h)
  induction fails generalizing d with
  | nil => simp at hf
  | cons g fails ih =>
    rcases List.mem_cons.mp hf with rfl | hf
    · exact stays fails _ (now d hI)
    · exact ih hf (keepI d g hI)

section
variable {fails : List BootFailure} {d : Links} {k : Nat}

theorem fails_core (hf : .core k ∈ fails) (hk : k < 160) (hd : d.cores.length = 160) :
    ∃ y, (fails.foldl Links.fail d).cores[k]? = some y ∧ y.fenced = true := by
  refine foldl_fail (P := fun d => ∃ y, d.cores[k]? = some y ∧ y.fenced = true) (I := fun d => d.cores.length = 160) ?_ ?_ ?_ hf hd
  · intro d g h
    cases g with
    | core j =>
      simp only [Links.fail]
      split
      · simpa using h
      · exact h
    | _ => exact h
  · rintro d g ⟨y, hy, fenced⟩
    cases g with
    | core j =>
      simp only [Links.fail]
      split
      · by_cases e : j = k
        · subst e
          exact ⟨_, by rw [List.getElem?_modify_eq, hy]; rfl, rfl⟩
        · exact ⟨y, by rw [List.getElem?_modify_ne _ _ e, hy], fenced⟩
      · exact ⟨y, hy, fenced⟩
    | _ => exact ⟨y, hy, fenced⟩
  · intro d h
    simp only [Links.fail, if_pos hk]
    exact ⟨_, by rw [List.getElem?_modify_eq, List.getElem?_eq_getElem (by omega)]; rfl, rfl⟩

theorem fails_port (hf : .ckptPort k ∈ fails) (hk : k < 2) (hd : d.ports.length = 2) :
    (fails.foldl Links.fail d).ports[k]? = some false := by
  refine foldl_fail (P := fun d => d.ports[k]? = some false) (I := fun d => d.ports.length = 2) ?_ ?_ ?_ hf hd
  · intro d g h
    cases g with
    | ckptPort p => simpa [Links.fail] using h
    | core j => simp only [Links.fail]; split <;> exact h
    | _ => exact h
  · intro d g h
    cases g with
    | ckptPort p =>
      simp only [Links.fail, List.getElem?_set]
      have inside := (List.getElem?_eq_some_iff.mp h).1
      split
      · simp_all
      · exact h
    | core j => simp only [Links.fail]; split <;> exact h
    | _ => exact h
  · intro d h
    simp [Links.fail, h, hk]

theorem fails_peerPort (hf : .peerPort k ∈ fails) (hk : k < 16) :
    (fails.foldl Links.fail d).up.getLsbD k = false ∧ (fails.foldl Links.fail d).dead.getLsbD k = true := by
  refine foldl_fail (P := fun d => d.up.getLsbD k = false ∧ d.dead.getLsbD k = true) (I := fun _ => True) (fun _ _ h => h) ?_ ?_ hf trivial
  · rintro d g ⟨up, dead⟩
    cases g with
    | peerPort p => simp [Links.fail, up, dead]
    | core j => simp only [Links.fail]; split <;> exact ⟨up, dead⟩
    | _ => exact ⟨up, dead⟩
  · intro d _
    simp [Links.fail, hk]

end

/-- The machine after a reset, before what the ROM finds: the state of reset, with what the device keeps (log 55). -/
def keptState (s : State) : State :=
  { State.reset with
    agenda := s.agenda, draws := s.draws, epoch := s.epoch + 1#32, snapSeq := s.snapSeq, hours := s.hours, life := s.life,
    lastErr := s.lastErr, firmware := s.firmware, fusedVersion := s.fusedVersion, form := s.form
    powerCap := s.form.maxPower, tier := s.tier ++ s.tierImages
    mem := ⟨s.mem.cells.filter (fun c => match paKind c.1 with
      | .host => true
      | .peer _ => true
      | _ => false), []⟩ }

theorem deviceReset_eq (s : State) (fails : List BootFailure) : exec (.deviceReset fails) s = .next (
    if s.imageOk s.firmware then (keptState s).measureBoot.bringUp fails else { (keptState s).measureBoot with recovery := true }) := rfl

/-- The bring-up has taken out of use what failed, and READY is set when step 4 has not failed (19 R422). -/
theorem bringUp_keeps (s : State) (fails : List BootFailure) : bootParts (s.bringUp fails) = bootParts s ∧
    (s.bringUp fails).measurements.length = s.measurements.length ∧
      (s.bringUp fails).ready = (!fails.any BootFailure.inTraining || s.ready) ∧
        linksOf (s.bringUp fails) = fails.foldl Links.fail (linksOf s) := by
  obtain ⟨parts, marks, links⟩ := bootFails s fails
  obtain ⟨measured, ready⟩ := Prod.ext_iff.mp marks
  unfold State.bringUp
  dsimp only
  split
  next training => exact ⟨parts, congrArg List.length measured, by rw [training]; exact ready, links⟩
  next free =>
    refine ⟨parts, ?_, by rw [Bool.not_eq_true] at free; rw [free]; rfl, links⟩
    exact List.length_set.trans (congrArg List.length measured)

/-- The device after a reset whose image the ROM accepts, and after one whose image it does not. -/
theorem deviceReset_brings (s : State) (fails : List BootFailure) : ∃ t, exec (.deviceReset fails) s = .next t ∧
    bootParts { t with recovery := false } = bootParts (keptState s) ∧ t.measurements.length = 5 ∧ t.recovery = !s.imageOk s.firmware ∧
      t.ready = (s.imageOk s.firmware && !fails.any BootFailure.inTraining) ∧
        (t.recovery = false → linksOf t = fails.foldl Links.fail (linksOf State.reset)) := by
  rw [deviceReset_eq]
  cases s.imageOk s.firmware with
  | false => exact ⟨_, rfl, rfl, rfl, rfl, rfl, fun h => absurd h.symm Bool.false_ne_true⟩
  | true =>
    obtain ⟨parts, measured, ready, links⟩ := bringUp_keeps (keptState s).measureBoot fails
    have normal : ((keptState s).measureBoot.bringUp fails).recovery = false := congrArg (·.2.2.2.2.2.2) parts
    refine ⟨_, rfl, ?_, measured, normal, ready.trans (Bool.or_false _), fun _ => links⟩
    rw [← normal]
    exact parts

/-- Settles O56, event by event. -/
theorem deviceEventResults : Obligations.DeviceEventResults := by
  unfold Obligations.DeviceEventResults
  intro s p pa mw fails bs on e op
  refine ⟨?write, fun n hn inside => ?read, ?atomic,
    fun outside => ⟨hostHdmAccess_refused outside, peerRequest_refused (.inr outside)⟩,
    fun down => ⟨peerRequest_refused (.inl down), peerLinkDown_ignored down⟩, fun he up => peerLinkDown_loses he up, peerLost_ends,
    fun he down => ⟨peerLinkRetrain_trains he down, peerLinkRetrain_fails he⟩, ckptPortDown_keeps, rfl, powerThrottleWindow_calm,
    powerThrottleWindow_withholds, rfl, thermtrip_again, thermtrip_trips, fun tripped running => ⟨settleThermal_halts tripped running,
      settleThermal_waits⟩, fun halt w n _ => mayIssue_halted halt w, ?reset⟩
  case write =>
    intro written hpa inside
    have inside : opEnd (.write pa bs) ≤ 0x8000000000 := inside
    refine ⟨?_, fun up => ?_⟩
    · rw [hostHdmAccess_reaches inside, outsideAccess_write s _ bs hpa]
    · rw [peerRequest_reaches up inside, outsideAccess_write s _ bs hpa]
  case read =>
    have cache := outsideAccess_read_cache s false hn inside
    exact ⟨_, hostHdmAccess_reaches inside, fun up => peerRequest_reaches up inside, cache.mem, cache.waves, cache.ctxs,
      outsideAccess_read_line s false hn inside⟩
  case atomic =>
    intro at_ wide x r n old y canonical aligned inside i hi
    rcases hi with rfl | ⟨up, rfl⟩
    · exact ⟨_, hostHdmAccess_reaches inside, outsideAccess_atomic false at_ wide x r canonical aligned inside⟩
    · exact ⟨_, peerRequest_reaches up inside, outsideAccess_atomic true at_ wide x r canonical aligned inside⟩
  case reset =>
    obtain ⟨t, ht, parts, measured, recovery, ready, links⟩ := deviceReset_brings s fails
    simp only [bootParts, Prod.mk.injEq] at parts
    obtain ⟨⟨waves, groups, ctxs, rings, copies⟩, ⟨tripped, epoch, seq, hours, life⟩, firmware, form, cap, tier, -⟩ := parts
    refine ⟨t, ht, waves, groups, ctxs, rings, copies, tripped, epoch, seq, hours, life, firmware, form, cap, tier, measured, recovery,
      ready, fun normal => ?_⟩
    have links := links normal
    refine ⟨fun k hf hk => ?_, fun k hf hk => ?_, fun k hf hk => ?_⟩
    · obtain ⟨y, hy, fenced⟩ := fails_core (d := linksOf State.reset) hf hk (List.length_replicate ..)
      exact ⟨y, by rw [← hy, ← links]; rfl, fenced⟩
    · rw [← fails_port (d := linksOf State.reset) hf hk rfl, ← links]
      rfl
    · have down := fails_peerPort (d := linksOf State.reset) hf hk
      rwa [← links] at down

end Sys2Proof.DeviceEvents

/-! PROOFS of 00_scope: every step keeps main memory in its canonical form (O50, O51; log 2). -/

namespace Sys2Proof.CanonicalMemory

open Sys2Proof Sys2Proof.Machine Sys2Proof.Laws

/-- The main memory of what an operation may leave is canonical: of the state in its answer, if it gives one. -/
def WfOption {α : Type} (st : α → State) : Option α → Prop
  | none => True
  | some x => (st x).mem.wf = true

def WfExcept {ε α : Type} (st : α → State) : Except ε α → Prop
  | .error _ => True
  | .ok x => (st x).mem.wf = true

def WfStep : Step → Prop
  | .next t => t.mem.wf = true
  | _ => True

def WfFetched : Fetched → Prop
  | .word _ t => t.mem.wf = true
  | _ => True

theorem of_word {o : Fetched} {v : Word} {t : State} (e : o = .word v t) (h : WfFetched o) : t.mem.wf = true := by
  subst e
  exact h

theorem of_some {o : Option State} {t : State} (e : o = some t) (h : WfOption id o) : t.mem.wf = true := by
  subst e
  exact h

theorem of_some_snd {α : Type} {o : Option (α × State)} {a : α} {t : State} (e : o = some (a, t)) (h : WfOption (·.2) o) :
    t.mem.wf = true := by
  subst e
  exact h

theorem of_ok {ε : Type} {o : Except ε State} {t : State} (e : o = .ok t) (h : WfExcept id o) : t.mem.wf = true := by
  subst e
  exact h

theorem of_ok_snd {ε α : Type} {o : Except ε (α × State)} {a : α} {t : State} (e : o = .ok (a, t)) (h : WfExcept (·.2) o) :
    t.mem.wf = true := by
  subst e
  exact h

theorem of_ok_last {ε α β : Type} {o : Except ε (α × β × State)} {a : α} {b : β} {t : State} (e : o = .ok (a, b, t))
    (h : WfExcept (·.2.2) o) : t.mem.wf = true := by
  subst e
  exact h

theorem of_next {o : Step} {t : State} (e : o = .next t) (h : WfStep o) : t.mem.wf = true := by
  subst e
  exact h

theorem of_pair {α : Type} {p : α × State} {a : α} {t : State} (e : p = (a, t)) (h : p.2.mem.wf = true) : t.mem.wf = true := by
  subst e
  exact h

theorem of_triple {α β : Type} {p : α × β × State} {a : α} {b : β} {t : State} (e : p = (a, b, t)) (h : p.2.2.mem.wf = true) :
    t.mem.wf = true := by
  subst e
  exact h

theorem of_pair_fst {α : Type} {p : State × α} {a : α} {t : State} (e : p = (t, a)) (h : p.1.mem.wf = true) : t.mem.wf = true := by
  subst e
  exact h

theorem foldl_wf {α : Type} {f : State → α → State} {l : List α} {s : State}
    (hf : ∀ t x, t.mem.wf = true → (f t x).mem.wf = true) (h : s.mem.wf = true) : (l.foldl f s).mem.wf = true := by
  induction l generalizing s with
  | nil => exact h
  | cons x l ih => exact ih (hf s x h)

theorem ite_wf {c : Prop} [Decidable c] {s t : State} (h : s.mem.wf = true) (h' : t.mem.wf = true) :
  (if c then s else t).mem.wf = true := by
  split
  · exact h
  · exact h'

theorem optionBind_wf {α : Type} {o : Option α} {f : α → Option State} (hf : ∀ x, WfOption id (f x)) : WfOption id (o.bind f) := by
  cases o with
  | none => trivial
  | some x => exact hf x

theorem filter_wf {o : Option State} {p : State → Bool} (h : WfOption id o) : WfOption id (o.filter p) := by
  cases o with
  | none => trivial
  | some x =>
    rw [Option.filter_some]
    split
    · exact h
    · trivial

theorem elim_wf {α : Type} {o : Option α} {s : State} {f : α → State} (h : s.mem.wf = true) (hf : ∀ x, (f x).mem.wf = true) :
    (o.elim s f).mem.wf = true := by
  cases o with
  | none => exact h
  | some x => exact hf x

theorem map_wf {α β : Type} {o : Option α} {f : α → β} {st : β → State} (hf : ∀ x, (st (f x)).mem.wf = true) :
    WfOption st (o.map f) := by
  cases o with
  | none => trivial
  | some x => exact hf x

theorem getD_wf {o : Option State} {s : State} (ho : WfOption id o) (h : s.mem.wf = true) : (o.getD s).mem.wf = true := by
  cases o with
  | none => exact h
  | some t => exact ho

theorem bind_state_wf {o : Option State} {f : State → Option State} (h : WfOption id o)
    (hf : ∀ t, t.mem.wf = true → WfOption id (f t)) : WfOption id (o.bind f) := by
  cases o with
  | none => trivial
  | some t => exact hf t h

theorem map_state_wf {β : Type} {o : Option State} {f : State → β} {st : β → State} (h : WfOption id o)
    (hf : ∀ t, t.mem.wf = true → (st (f t)).mem.wf = true) : WfOption st (o.map f) := by
  cases o with
  | none => trivial
  | some t => exact hf t h

theorem foldl_bind_wf {α : Type} {f : State → α → Option State} {l : List α} {o : Option State}
    (hf : ∀ t x, t.mem.wf = true → WfOption id (f t x)) (h : WfOption id o) : WfOption id (l.foldl (fun o x => o.bind
      (fun t => f t x)) o) := by
  induction l generalizing o with
  | nil => exact h
  | cons x l ih => exact ih (bind_state_wf h (fun t => hf t x))

theorem ite_answer_wf {c : Prop} [Decidable c] {a b : Answer} (h : a.state.mem.wf = true) (h' : b.state.mem.wf = true) :
    (if c then a else b).state.mem.wf = true := by
  split
  · exact h
  · exact h'

theorem ite_step_wf {c : Prop} [Decidable c] {a b : Step} (h : WfStep a) (h' : WfStep b) : WfStep (if c then a else b) := by
  split
  · exact h
  · exact h'

theorem of_cacheOnly {s t : State} (c : CacheOnly s t) (h : s.mem.wf = true) : t.mem.wf = true := by
  rw [c.mem]
  exact h

/-! ### Memory -/

theorem storeSide_wf {s : State} {line d} (h : s.mem.wf = true) : (s.storeSide line d).mem.wf = true := by
  unfold State.storeSide
  split
  · dsimp only
    exact wf_writeScales _ _ _ _ h
  · split
    · dsimp only
      exact wf_setSide _ _ _ h
    · exact h

theorem modWave_wf {s : State} {w f} (h : s.mem.wf = true) : (s.modWave w f).mem.wf = true := h

theorem modGroup_wf {s : State} {g f} (h : s.mem.wf = true) : (s.modGroup g f).mem.wf = true := h

theorem modCtx_wf {s : State} {c f} (h : s.mem.wf = true) : (s.modCtx c f).mem.wf = true := h

theorem modCore_wf {s : State} {c f} (h : s.mem.wf = true) : (s.modCore c f).mem.wf = true := h

theorem modQuad_wf {s : State} {q f} (h : s.mem.wf = true) : (s.modQuad q f).mem.wf = true := h

theorem modCopy_wf {s : State} {q f} (h : s.mem.wf = true) : (s.modCopy q f).mem.wf = true := h

theorem modCmd_wf {s : State} {k f} (h : s.mem.wf = true) : (s.modCmd k f).mem.wf = true := h

theorem modArray_wf {s : State} {core a f} (h : s.mem.wf = true) : (s.modArray core a f).mem.wf = true := h

theorem allWaves_wf {s : State} {f} (h : s.mem.wf = true) : (s.allWaves f).mem.wf = true := h

theorem allGroups_wf {s : State} {f} (h : s.mem.wf = true) : (s.allGroups f).mem.wf = true := h

theorem allCores_wf {s : State} {f} (h : s.mem.wf = true) : (s.allCores f).mem.wf = true := h

theorem modLaunch_wf {s : State} {l f} (h : s.mem.wf = true) : (s.modLaunch l f).mem.wf = true := h

theorem modTree_wf {s : State} {t f} (h : s.mem.wf = true) : (s.modTree t f).mem.wf = true := h

theorem modRing_wf {s : State} {r f} (h : s.mem.wf = true) : (s.modRing r f).mem.wf = true := h

theorem modRun_wf {s : State} {r f} (h : s.mem.wf = true) : (s.modRun r f).mem.wf = true := h

theorem modObj_wf {s : State} {o f} (h : s.mem.wf = true) : (s.modObj o f).mem.wf = true := h

theorem modBegun_wf {s : State} {k f} (h : s.mem.wf = true) : (s.modBegun k f).mem.wf = true := h

theorem modDomain_wf {s : State} {d f} (h : s.mem.wf = true) : (s.modDomain d f).mem.wf = true := h

theorem draw_wf {s : State} (h : s.mem.wf = true) : (s.draw).2.mem.wf = true := h

/-! ### Translation -/

theorem fillTlbs_wf {s : State} {core acc t va} (h : s.mem.wf = true) : (s.fillTlbs core acc t va).mem.wf = true := h

theorem dropXlats_wf {s : State} {t e} (h : s.mem.wf = true) : (s.dropXlats t e).mem.wf = true := h

/-! ### Reports and the lifetime record -/

theorem raise_wf {s : State} {v} (h : s.mem.wf = true) : (s.raise v).mem.wf = true := h

theorem report_wf {s : State} {kind code ctx addr place launch} (h : s.mem.wf = true) :
    (s.report kind code ctx addr place launch).mem.wf = true := by
  unfold State.report
  dsimp only
  split
  · exact h
  · refine raise_wf ?_
    dsimp only
    exact wf_write _ _ _ h

theorem lifeAdd_wf {s : State} {off} (h : s.mem.wf = true) : (s.lifeAdd off).mem.wf = true := by
  unfold State.lifeAdd
  dsimp only
  exact ite_wf h h

theorem workDone_wf {s : State} {u wave} (h : s.mem.wf = true) : (s.workDone u wave).mem.wf = true := by
  unfold State.workDone
  exact foldl_wf (fun _ _ h' => lifeAdd_wf h') h

/-! ### What a barrier lets go on -/

theorem noteReached_wf {s : State} {g} (h : s.mem.wf = true) : (s.noteReached g).mem.wf = true := by
  unfold State.noteReached
  split
  · exact h
  · exact h

/-! ### Caches, translations and accesses -/

theorem llcDrop_wf {s : State} {line} (h : s.mem.wf = true) : (s.llcDrop line).mem.wf = true :=
  of_cacheOnly (cacheOnly_llcDrop ..) h

theorem llcRoom_wf {s : State} {line} (h : s.mem.wf = true) : (s.llcRoom line).mem.wf = true :=
  of_cacheOnly (cacheOnly_llcRoom ..) h

theorem llcFill_wf {s : State} {line} (h : s.mem.wf = true) : (s.llcFill line).mem.wf = true :=
  of_cacheOnly (cacheOnly_llcFill ..) h

theorem homeAccess_wf {s0 : State} {pa ms write n} (h : s0.mem.wf = true) : (s0.homeAccess pa ms write n).mem.wf = true :=
  of_cacheOnly (cacheOnly_homeAccess ..) h

theorem homeRange_wf {s : State} {pa n write} (h : s.mem.wf = true) : (s.homeRange pa n write).mem.wf = true :=
  of_cacheOnly (cacheOnly_homeRange ..) h

theorem readPb_wf {s : State} {c n} (h : s.mem.wf = true) : (s.readPb c n).mem.wf = true :=
  of_cacheOnly (CopyEngine.cacheOnly_readPb ..) h

theorem lookUp_wf {s : State} {core acc c gen va} (h : s.mem.wf = true) : (s.lookUp core acc c gen va).mem.wf = true := by
  unfold State.lookUp
  dsimp only
  split
  · exact h
  · split
    · exact fillTlbs_wf (foldl_wf (fun _ _ h' => homeAccess_wf h') h)
    · exact foldl_wf (fun _ _ h' => homeAccess_wf h') h

theorem lookUps_wf {s : State} {core acc c gen va n} (h : s.mem.wf = true) : (s.lookUps core acc c gen va n).mem.wf = true := by
  unfold State.lookUps
  exact foldl_wf (fun _ _ h' => lookUp_wf h') h

theorem agentLooks_wf {s : State} {c acc va n} (h : s.mem.wf = true) : (s.agentLooks c acc va n).mem.wf = true :=
  of_cacheOnly (MemorySync.cacheOnly_agentLooks ..) h

theorem waveLooks_wf {s : State} {wid acc va} (h : s.mem.wf = true) : (s.waveLooks wid acc va).mem.wf = true :=
  of_cacheOnly (cacheOnly_waveLooks ..) h

theorem failedLooks_wf {s : State} {wid t} (h : s.mem.wf = true) : (s.failedLooks wid t).mem.wf = true := by
  unfold State.failedLooks
  exact ite_wf (waveLooks_wf h) (ite_wf (waveLooks_wf h) (ite_wf (waveLooks_wf h) (ite_wf (waveLooks_wf h) h)))

theorem dropRegion_wf {s : State} {r} (h : s.mem.wf = true) : (s.dropRegion r).mem.wf = true := by
  unfold State.dropRegion
  exact ite_wf (foldl_wf (fun _ _ h' => llcDrop_wf h') h) h

theorem applyRegion_wf {s : State} {q k new} (h : s.mem.wf = true) : (s.applyRegion q k new).mem.wf = true := by
  unfold State.applyRegion
  dsimp only
  exact modQuad_wf (dropRegion_wf (dropRegion_wf h))

theorem markPa_wf {s : State} {pa} (h : s.mem.wf = true) : (s.markPa pa).mem.wf = true := h

theorem agentStore_wf {s : State} {pa bs} (h : s.mem.wf = true) : (s.agentStore pa bs).mem.wf = true := by
  unfold State.agentStore
  dsimp only
  refine foldl_wf (fun _ _ h' => markPa_wf h') ?_
  dsimp only
  exact wf_write _ _ _ (homeRange_wf h)

theorem glintLog_wf {s : State} {w pc va r a} (h : s.mem.wf = true) : (s.glintLog w pc va r a).mem.wf = true := by
  unfold State.glintLog
  dsimp only
  split
  · exact h
  · split
    · exact h
    · split
      · exact report_wf (modCtx_wf (agentLooks_wf (modCtx_wf h)))
      · refine markPa_wf ?_
        dsimp only
        exact wf_write _ _ _ (homeAccess_wf (agentLooks_wf (modCtx_wf h)))

theorem setSector_wf {s : State} {line k x} (h : s.mem.wf = true) : (s.setSector line k x).mem.wf = true := h

theorem glintCheck_wf {s : State} {w pc va pa ms atom wr scope} (h : s.mem.wf = true) :
    (s.glintCheck w pc va pa ms atom wr scope).1.mem.wf = true := by
  unfold State.glintCheck
  dsimp only
  split
  · split
    · exact h
    · split
      · dsimp only
        exact setSector_wf (llcFill_wf h)
      · split
        · split
          · dsimp only
            exact glintLog_wf (ite_wf (llcFill_wf h) (setSector_wf (llcFill_wf h)))
          · dsimp only
            exact ite_wf (llcFill_wf h) (setSector_wf (llcFill_wf h))
        · dsimp only
          exact ite_wf (llcFill_wf h) (setSector_wf (llcFill_wf h))
  · exact h

theorem loseCopies_wf {s : State} {out} (h : s.mem.wf = true) : (s.loseCopies out).mem.wf = true := by
  unfold State.loseCopies
  dsimp only
  exact foldl_wf (fun _ _ h' => foldl_wf (fun _ _ h'' => modWave_wf h'') h') h

theorem l1Fill_wf {s : State} {core line readers} (h : s.mem.wf = true) : (s.l1Fill core line readers).mem.wf = true := by
  unfold State.l1Fill
  dsimp only
  split
  · exact h
  · exact modCore_wf (loseCopies_wf (homeAccess_wf h))

theorem l1Read_wf {s : State} {wid w line} (h : s.mem.wf = true) : (s.l1Read wid w line).2.2.mem.wf = true := by
  unfold State.l1Read
  split
  · exact h
  · split
    · dsimp only
      exact modCore_wf h
    · dsimp only
      exact l1Fill_wf h

theorem leaveMasks_wf {s : State} {core wid line} (h : s.mem.wf = true) : (s.leaveMasks core wid line).mem.wf = true := h

theorem countPeer_wf {s : State} {pa n} (h : s.mem.wf = true) : (s.countPeer pa n).mem.wf = true := by
  unfold State.countPeer
  split
  · exact h
  · exact h

theorem load_wf {s : State} {wid p n} (h : s.mem.wf = true) : (s.load wid p n).2.2.mem.wf = true := by
  unfold State.load
  dsimp only
  split
  · exact h
  · split
    · split
      · dsimp only
        exact l1Read_wf h
      · dsimp only
        exact countPeer_wf (homeAccess_wf h)
    · exact h
    · dsimp only
      exact modWave_wf h

theorem dueEcc_wf {s : State} {wid code addr} (h : s.mem.wf = true) : (s.dueEcc wid code addr).mem.wf = true := by
  unfold State.dueEcc
  split
  · exact h
  · exact ite_wf (modCtx_wf h) (modWave_wf h)

theorem touchScales_wf {s : State} {line} (h : s.mem.wf = true) : (s.touchScales line).mem.wf = true := by
  unfold State.touchScales
  split
  · exact markPa_wf (homeAccess_wf h)
  · exact h

theorem enterPhys_wf {s : State} {who a ms bytes side} (h : s.mem.wf = true) : (s.enterPhys who a ms bytes side).mem.wf = true := by
  unfold State.enterPhys
  dsimp only
  split
  · exact h
  · refine markPa_wf ?_
    split
    · refine modWave_wf ?_
      refine modCore_wf ?_
      split
      · refine storeSide_wf ?_
        refine touchScales_wf ?_
        dsimp only
        exact wf_writeSome _ _ _ (countPeer_wf (homeAccess_wf h))
      · dsimp only
        exact wf_writeSome _ _ _ (countPeer_wf (homeAccess_wf h))
    · split
      · refine storeSide_wf ?_
        refine touchScales_wf ?_
        dsimp only
        exact wf_writeSome _ _ _ (countPeer_wf (homeAccess_wf h))
      · dsimp only
        exact wf_writeSome _ _ _ (countPeer_wf (homeAccess_wf h))

theorem storeScratch_wf {s : State} {g o bytes} (h : s.mem.wf = true) : (s.storeScratch g o bytes).mem.wf = true := by
  unfold State.storeScratch
  exact noteReached_wf (modGroup_wf h)

theorem enterStore_wf {s : State} {wid w p} (h : s.mem.wf = true) : (s.enterStore wid w p).mem.wf = true := by
  unfold State.enterStore
  dsimp only
  split
  · exact modWave_wf (enterPhys_wf h)
  · split
    · exact modGroup_wf (storeScratch_wf h)
    · exact storeScratch_wf h
  · exact h

theorem releaseStore_wf {s : State} {wid k} (h : s.mem.wf = true) : (s.releaseStore wid k).mem.wf = true := by
  unfold State.releaseStore
  split
  · exact h
  · split
    · exact h
    · exact modWave_wf (enterStore_wf h)

theorem performAccess_wf {s : State} {wid w a x} (h : s.mem.wf = true) : (s.performAccess wid w a x).2.mem.wf = true := by
  unfold State.performAccess
  dsimp only
  split
  · split
    · exact h
    · dsimp only
      refine modWave_wf ?_
      split
      · refine markPa_wf ?_
        dsimp only
        exact wf_write _ _ _ (leaveMasks_wf (countPeer_wf (homeAccess_wf (homeAccess_wf h))))
      · exact leaveMasks_wf (countPeer_wf (homeAccess_wf (homeAccess_wf h)))
  · split
    · split
      · dsimp only
        exact storeScratch_wf h
      · exact h
    · split
      · dsimp only
        exact storeScratch_wf h
      · exact h
  · exact h

theorem performSame_wf {s : State} {wid a p a4} (h : s.mem.wf = true) : (s.performSame wid a p a4).2.mem.wf = true := by
  induction a4 generalizing s wid a p with
  | nil =>
    unfold State.performSame
    exact h
  | cons x l ih =>
    unfold State.performSame
    dsimp only
    split
    · split
      · exact h
      · split
        · exact ih (dueEcc_wf h)
        · refine ih ?_
          split
          · exact modWave_wf (performAccess_wf h)
          · exact performAccess_wf h
    · dsimp only
      exact ih h

theorem performAtomic_wf {s : State} {wid k lane} (h : s.mem.wf = true) : (s.performAtomic wid k lane).mem.wf = true := by
  unfold State.performAtomic
  split
  · exact h
  · split
    · exact h
    · split
      · exact h
      · split
        · exact modWave_wf (of_pair ‹_› (performSame_wf h))

theorem drainFirst_wf {s : State} {wid a2} (h : s.mem.wf = true) : (s.drainFirst wid a2).mem.wf = true := by
  induction a2 generalizing s wid with
  | zero =>
    unfold State.drainFirst
    exact h
  | succ n ih =>
    unfold State.drainFirst
    split
    · exact h
    · split
      · exact h
      · split
        · exact modWave_wf h
        · exact ih (performAtomic_wf h)

theorem drainAtoms_wf {s : State} {wid} (h : s.mem.wf = true) : (s.drainAtoms wid).mem.wf = true := by
  unfold State.drainAtoms
  split
  · exact h
  · exact drainFirst_wf h

theorem orderAtoms_wf {s : State} {wid p n} (h : s.mem.wf = true) : (s.orderAtoms wid p n).mem.wf = true := by
  unfold State.orderAtoms
  split
  · exact h
  · exact ite_wf (drainAtoms_wf h) h

theorem enterOverlapping_wf {s : State} {wid p n} (h : s.mem.wf = true) : (s.enterOverlapping wid p n).mem.wf = true := by
  unfold State.enterOverlapping
  split
  · exact h
  · exact ite_wf (modWave_wf (foldl_wf (fun _ _ h' => enterStore_wf h') h)) h

theorem beforeAccess_wf {s : State} {wid p n} (h : s.mem.wf = true) : (s.beforeAccess wid p n).mem.wf = true := by
  unfold State.beforeAccess
  dsimp only
  split
  · exact modWave_wf (ite_wf (drainAtoms_wf h) h)
  · exact orderAtoms_wf h

theorem showBytes_wf {s : State} {wid p n} (h : s.mem.wf = true) : (s.showBytes wid p n).mem.wf = true := by
  unfold State.showBytes
  exact enterOverlapping_wf (beforeAccess_wf h)

/-! ### Traps, context faults and phases -/

theorem settleFaulted_wf {s : State} {g} (h : s.mem.wf = true) : (s.settleFaulted g).mem.wf = true := by
  unfold State.settleFaulted
  dsimp only
  split
  · exact h
  · exact ite_wf (modGroup_wf h) h

theorem settleFaults_wf {s : State} {c} (h : s.mem.wf = true) : (s.settleFaults c).mem.wf = true := by
  unfold State.settleFaults
  exact foldl_wf (fun _ _ h' => ite_wf (settleFaulted_wf h') h') h

theorem contextFault_wf {s : State} {c kind f who wave} (h : s.mem.wf = true) : (s.contextFault c kind f who wave).mem.wf = true := by
  unfold State.contextFault
  dsimp only
  split
  · exact h
  · exact ite_wf h (report_wf (settleFaults_wf (ite_wf (lifeAdd_wf (modCtx_wf h)) (modCtx_wf h))))

theorem unitLost_wf {s : State} {c code addr} (h : s.mem.wf = true) : (s.unitLost c code addr).mem.wf = true := by
  unfold State.unitLost
  dsimp only
  exact ite_wf (modCtx_wf h) (contextFault_wf h)

theorem enterTrap_wf {s : State} {wid f after} (h : s.mem.wf = true) : (s.enterTrap wid f after).mem.wf = true := by
  unfold State.enterTrap
  dsimp only
  split
  · exact h
  · exact ite_wf (settleFaulted_wf (contextFault_wf (modWave_wf h))) (modWave_wf h)

theorem takeTrap_wf {s : State} {wid t after} (h : s.mem.wf = true) : (s.takeTrap wid t after).mem.wf = true := by
  unfold State.takeTrap
  dsimp only
  split
  · exact modWave_wf (drainAtoms_wf h)
  · exact ite_wf (modCtx_wf (modWave_wf (drainAtoms_wf h))) (ite_wf (modWave_wf (modWave_wf (drainAtoms_wf h))) (enterTrap_wf (modWave_wf
      (drainAtoms_wf h))))

theorem takeHeld_wf {s : State} {wid} (h : s.mem.wf = true) : (s.takeHeld wid).mem.wf = true := by
  unfold State.takeHeld
  split
  · exact h
  · split
    · exact h
    · exact ite_wf h (enterTrap_wf h)

theorem boundaryTrap_wf {s : State} {wid} (h : s.mem.wf = true) : (s.boundaryTrap wid).mem.wf = true := by
  unfold State.boundaryTrap
  split
  · exact h
  · split
    · exact h
    · exact ite_wf (takeTrap_wf (modWave_wf h)) h

theorem dropStale_wf {s : State} {core} (h : s.mem.wf = true) : (s.dropStale core).mem.wf = true := by
  unfold State.dropStale
  dsimp only
  split
  · exact h
  · exact modCore_wf (loseCopies_wf h)

theorem readGens_wf {s : State} {wid c} (h : s.mem.wf = true) : (s.readGens wid c).mem.wf = true := by
  unfold State.readGens
  dsimp only
  split
  · exact h
  · split
    · exact h
    · split
      · exact dueEcc_wf (homeRange_wf h)
      · exact homeRange_wf h

theorem freshView_wf {s : State} {wid} (h : s.mem.wf = true) : (s.freshView wid).mem.wf = true := by
  unfold State.freshView
  dsimp only
  split
  · exact h
  · exact modWave_wf (leaveMasks_wf (dropStale_wf (modCore_wf h)))

theorem acquire_wf {s : State} {wid} (h : s.mem.wf = true) : (s.acquire wid).mem.wf = true := by
  unfold State.acquire
  dsimp only
  split
  · exact h
  · exact allWaves_wf (modWave_wf (freshView_wf (readGens_wf h)))

theorem releaseDone_wf {s : State} {wid scope} (h : s.mem.wf = true) : (s.releaseDone wid scope).mem.wf = true := by
  unfold State.releaseDone
  dsimp only
  split
  · exact h
  · exact ite_wf (modGroup_wf (modWave_wf h)) (modWave_wf h)

theorem advance_wf {s : State} {wid} (h : s.mem.wf = true) : (s.advance wid).mem.wf = true := h

theorem proceed_wf {s : State} {wid} (h : s.mem.wf = true) : (s.proceed wid).mem.wf = true := h

theorem setSt_wf {s : State} {wid st} (h : s.mem.wf = true) : (s.setSt wid st).mem.wf = true := h

/-! ### Barriers -/

theorem arriveAt_wf {s : State} {g off} (h : s.mem.wf = true) : (s.arriveAt g off).2.mem.wf = true := by
  unfold State.arriveAt
  split
  · dsimp only
    exact noteReached_wf (modGroup_wf h)
  · exact h

theorem landAt_wf {s : State} {g off n} (h : s.mem.wf = true) : (s.landAt g off n).mem.wf = true := by
  unfold State.landAt
  exact noteReached_wf (modGroup_wf h)

/-! ### Capabilities -/

theorem countError_wf {s : State} {u code} (h : s.mem.wf = true) : (s.countError u code).mem.wf = true := by
  unfold State.countError
  dsimp only
  split
  · refine lifeAdd_wf ?_
    split
    · exact lifeAdd_wf (lifeAdd_wf h)
    · exact lifeAdd_wf h
  · split
    · exact lifeAdd_wf (lifeAdd_wf h)
    · exact lifeAdd_wf h

theorem frontError_wf {s : State} (h : s.mem.wf = true) : (s.frontError).mem.wf = true := by
  unfold State.frontError
  dsimp only
  exact countError_wf h

theorem grant_wf {s : State} {o base len rd wr owner} (h : s.mem.wf = true) : (s.grant o base len rd wr owner).mem.wf = true := by
  unfold State.grant
  dsimp only
  split
  · exact h
  · exact h

theorem revoke_wf {s : State} {p} (h : s.mem.wf = true) : (s.revoke p).mem.wf = true := h

theorem revokeObj_wf {s : State} {o} (h : s.mem.wf = true) : (s.revokeObj o).mem.wf = true := h

theorem loadCap_wf {s : State} {core r idx gen} (h : s.mem.wf = true) : WfOption id (s.loadCap core r idx gen) := by
  unfold State.loadCap
  split
  · split
    · exact h
    · trivial
  · trivial

theorem useCap_wf {s : State} {r o} (h : s.mem.wf = true) : WfOption id (s.useCap r o) := by
  unfold State.useCap
  exact optionBind_wf (fun _ => optionBind_wf (fun _ => loadCap_wf h))

theorem capFor_wf {s : State} {r o c off n write} (h : s.mem.wf = true) : WfOption id (s.capFor r o c off n write) := by
  unfold State.capFor
  exact filter_wf (useCap_wf h)

theorem viaCap_wf {s : State} {r o c off n write f} (h : s.mem.wf = true) (hf : ∀ t, t.mem.wf = true → (f t).mem.wf = true) :
    (s.viaCap r o c off n write f).mem.wf = true := by
  unfold State.viaCap
  split
  · exact hf _ (of_some ‹_› (capFor_wf h))
  · exact frontError_wf h

theorem grantCtx_wf {s : State} {c} (h : s.mem.wf = true) : (s.grantCtx c).mem.wf = true := by
  unfold State.grantCtx
  exact grant_wf (grant_wf h)

theorem grantRegs_wf {s : State} {c r} (h : s.mem.wf = true) : (s.grantRegs c r).mem.wf = true := by
  unfold State.grantRegs
  dsimp only
  exact grant_wf (ite_wf (ite_wf (revokeObj_wf (revokeObj_wf (revokeObj_wf h))) (grant_wf (revokeObj_wf (revokeObj_wf
    (revokeObj_wf h))))) (grant_wf (ite_wf (revokeObj_wf (revokeObj_wf (revokeObj_wf h))) (grant_wf (revokeObj_wf (revokeObj_wf
    (revokeObj_wf h)))))))

theorem putPbGen_wf {s : State} {c n g} (h : s.mem.wf = true) : (s.putPbGen c n g).mem.wf = true := by
  unfold State.putPbGen
  exact elim_wf h (fun _ => viaCap_wf h (fun _ h' => agentStore_wf h'))

theorem setPbGen_wf {s : State} {c n g} (h : s.mem.wf = true) : (s.setPbGen c n g).mem.wf = true := by
  unfold State.setPbGen
  exact ite_wf h (putPbGen_wf h)

/-! ### Words that a wave issues -/

theorem issue_wf {s : State} {i : Instr} {f : Form} {body : Nat → Wave → Except TrapInfo State} (h : s.mem.wf = true)
    (hb : ∀ w, WfExcept id (body s.cur w)) : WfStep (s.issue i f body) := by
  unfold State.issue
  split
  · trivial
  · split
    · exact takeTrap_wf h
    · split
      · exact takeTrap_wf h
      · split
        · exact takeTrap_wf (failedLooks_wf h)
        · exact modWave_wf (of_ok ‹_› (hb _))

theorem onWave_wf {s : State} {i : Instr} {f : Form} {g : Wave → Wave} (h : s.mem.wf = true) : WfStep (s.onWave i f g) :=
  issue_wf h fun _ => modWave_wf h

/-! ### Scalar words -/

theorem execGrd_wf {sw d g} {s : State} (h : s.mem.wf = true) : WfStep (execGrd sw d g s) := by
  unfold execGrd
  exact issue_wf h (fun _ => modWave_wf h)

theorem execGwr_wf {sw a g} {s : State} (h : s.mem.wf = true) : WfStep (execGwr sw a g s) := by
  unfold execGwr
  exact issue_wf h (fun _ => advance_wf (modGroup_wf h))

theorem execGadd_wf {sw d a g} {s : State} (h : s.mem.wf = true) : WfStep (execGadd sw d a g s) := by
  unfold execGadd
  dsimp only
  exact issue_wf h (fun _ => modWave_wf (modGroup_wf h))

theorem branchIf_wf {s : State} {i f o c} (h : s.mem.wf = true) : WfStep (s.branchIf i f o c) := by
  unfold State.branchIf
  exact issue_wf h (fun _ => modWave_wf h)

theorem execCall_wf {sw o} {s : State} (h : s.mem.wf = true) : WfStep (execCall sw o s) := by
  unfold execCall
  dsimp only
  exact issue_wf h (fun _ => modWave_wf h)

theorem jump_wf {s : State} {i f link target} (h : s.mem.wf = true) : WfStep (s.jump i f link target) := by
  unfold State.jump
  dsimp only
  refine issue_wf h fun _ => ?_
  split
  · trivial
  · exact modWave_wf h

theorem makeYoungest_wf {s : State} {wid w} (h : s.mem.wf = true) : (s.makeYoungest wid w).mem.wf = true := h

theorem execYield_wf {sw} {s : State} (h : s.mem.wf = true) : WfStep (execYield sw s) := by
  unfold execYield
  exact issue_wf h (fun _ => advance_wf (makeYoungest_wf h))

theorem execTrap_wf {sw i} {s : State} (h : s.mem.wf = true) : WfStep (execTrap sw i s) := by
  unfold execTrap
  exact issue_wf h (fun _ => takeTrap_wf h)

theorem execTret_wf {sw} {s : State} (h : s.mem.wf = true) : WfStep (execTret sw s) := by
  unfold execTret
  refine issue_wf h fun _ => ?_
  split
  · exact modWave_wf (modWave_wf (drainAtoms_wf h))
  · trivial

theorem execFenceI_wf {sw} {s : State} (h : s.mem.wf = true) : WfStep (execFenceI sw s) := by
  unfold execFenceI
  exact issue_wf h (fun _ => advance_wf (modCore_wf h))

theorem execHintImm_wf {p} {s : State} (h : s.mem.wf = true) : WfStep (execHintImm p s) := by
  unfold execHintImm
  dsimp only
  split
  · trivial
  · split
    · exact takeTrap_wf h
    · exact modWave_wf h
    · exact modWave_wf h

theorem execHintMod_wf {v m t z e w c} {s : State} (h : s.mem.wf = true) : WfStep (execHintMod v m t z e w c s) := by
  unfold execHintMod
  dsimp only
  split
  · trivial
  · split
    · exact takeTrap_wf h
    · exact modWave_wf h
    · exact modWave_wf h

theorem execHintSched_wf {sw n} {s : State} (h : s.mem.wf = true) : WfStep (execHintSched sw n s) := by
  unfold execHintSched
  dsimp only
  exact issue_wf h (fun _ => modWave_wf h)

theorem execHintSchedDelayEnd_wf {w} {s : State} (h : s.mem.wf = true) : WfStep (execHintSchedDelayEnd w s) := by
  unfold execHintSchedDelayEnd
  split
  · split
    · exact ite_step_wf (modWave_wf h) h
    · exact h
  · exact h

/-! ### Copy engines -/

theorem agentReads_wf {s : State} {xs} (h : s.mem.wf = true) : (s.agentReads xs).mem.wf = true := by
  unfold State.agentReads
  exact foldl_wf (fun _ _ h' => countPeer_wf (homeAccess_wf h')) h

theorem copyRead_wf {s : State} {q l n} (h : s.mem.wf = true) : WfExcept (·.2.2) (s.copyRead q l n) := by
  unfold State.copyRead
  dsimp only
  split
  · split
    · split
      · trivial
      · exact h
    · exact h
  · split
    · trivial
    · split
      · trivial
      · dsimp only [WfStep, WfOption, WfExcept]
        exact agentReads_wf (agentLooks_wf h)

theorem readElems_wf {s : State} {q l a3} (h : s.mem.wf = true) : WfExcept (·.2) (s.readElems q l a3) := by
  induction a3 generalizing s q l with
  | zero =>
    unfold State.readElems
    exact h
  | succ n ih =>
    unfold State.readElems
    dsimp only
    split
    · trivial
    · split
      · trivial
      · dsimp only [WfStep, WfOption, WfExcept]
        exact of_ok_last ‹_› (copyRead_wf (of_ok_snd ‹_› (ih h)))

theorem unitValue_wf {s : State} {q l} (h : s.mem.wf = true) : WfExcept (·.2.2) (s.unitValue q l) := by
  unfold State.unitValue
  dsimp only
  split
  · trivial
  · split
    · dsimp only [WfStep, WfOption, WfExcept]
      exact of_ok_snd ‹_› (readElems_wf h)
    · split
      · trivial
      · split
        · dsimp only [WfStep, WfOption, WfExcept]
          exact of_ok_snd ‹_› (readElems_wf h)
        · dsimp only [WfStep, WfOption, WfExcept]
          exact of_ok_snd ‹_› (readElems_wf h)

theorem markItem_wf {s : State} {c i} (h : s.mem.wf = true) : (s.markItem c i).mem.wf = true := h

theorem writeWbuf_wf {s : State} {q off bs side} (h : s.mem.wf = true) : (s.writeWbuf q off bs side).mem.wf = true := by
  unfold State.writeWbuf
  dsimp only
  split
  · exact markItem_wf (markItem_wf (modArray_wf h))
  · exact modArray_wf h

theorem agentWrites_wf {s : State} {a1 a2} (h : s.mem.wf = true) : (s.agentWrites a1 a2).mem.wf = true := by
  induction a1 generalizing s a2 with
  | nil =>
    unfold State.agentWrites
    exact h
  | cons x l ih =>
    unfold State.agentWrites
    exact ih (enterPhys_wf h)

theorem copyWrite_wf {s : State} {q l bs sc} (h : s.mem.wf = true) : WfExcept id (s.copyWrite q l bs sc) := by
  unfold State.copyWrite
  dsimp only
  split
  · dsimp only [WfStep, WfOption, WfExcept]
    split
    · exact modGroup_wf (storeScratch_wf h)
    · exact storeScratch_wf h
  · split
    · exact writeWbuf_wf h
    · split
      · trivial
      · exact agentWrites_wf (lookUps_wf h)

theorem landUnit_wf {s : State} {q l} (h : s.mem.wf = true) : WfExcept id (s.landUnit q l) := by
  unfold State.landUnit
  dsimp only
  split
  · split
    · trivial
    · trivial
  · exact copyWrite_wf (of_ok_last ‹_› (unitValue_wf h))

theorem landUnits_wf {s : State} {q a2 a3} (h : s.mem.wf = true) : (s.landUnits q a2 a3).1.mem.wf = true := by
  induction a2 generalizing s q a3 with
  | zero =>
    unfold State.landUnits
    exact h
  | succ n ih =>
    unfold State.landUnits
    split
    · exact h
    · split
      · exact h
      · exact ih (of_ok ‹_› (landUnit_wf h))

theorem account_wf {s : State} {dom k n} (h : s.mem.wf = true) : (s.account dom k n).mem.wf = true := h

theorem accountDiff_wf {s : State} {now before c} (h : s.mem.wf = true) :
    (s.accountDiff now before c).mem.wf = true :=
  account_wf (account_wf (account_wf (account_wf h)))

theorem accountFrom_wf {s : State} {before c} (h : s.mem.wf = true) : (s.accountFrom before c).mem.wf = true := by
  unfold State.accountFrom
  split
  · exact h
  · exact accountDiff_wf h

theorem charging_wf {s : State} {c f} (h : s.mem.wf = true) (hf : ∀ t, t.mem.wf = true → (f t).mem.wf = true) :
    (s.charging c f).mem.wf = true := by
  unfold State.charging
  exact accountFrom_wf (hf _ h)

theorem chargingOther_wf {s : State} {own c f} (h : s.mem.wf = true) (hf : ∀ t, t.mem.wf = true → (f t).mem.wf = true) :
    (s.chargingOther own c f).mem.wf = true := by
  unfold State.chargingOther
  exact ite_wf (hf _ h) (accountDiff_wf (charging_wf h (fun _ h' => hf _ h')))

theorem landPiece_wf {s : State} {k n} (h : s.mem.wf = true) : (s.landPiece k n).mem.wf = true := by
  unfold State.landPiece
  dsimp only
  split
  · exact h
  · refine noteReached_wf ?_
    refine modCopy_wf ?_
    refine account_wf ?_
    split
    · exact ite_wf (landUnits_wf h) (landAt_wf (landUnits_wf h))
    · exact landUnits_wf h

theorem failCopy_wf {s : State} {k t} (h : s.mem.wf = true) : (s.failCopy k t).mem.wf = true := by
  unfold State.failCopy
  dsimp only
  split
  · exact h
  · exact ite_wf (modCopy_wf h) (modWave_wf (modCopy_wf h))

theorem startFirst_wf {s : State} {a1} (h : s.mem.wf = true) : (s.startFirst a1).mem.wf = true := by
  induction a1 generalizing s with
  | nil =>
    unfold State.startFirst
    exact h
  | cons x l ih =>
    unfold State.startFirst
    dsimp only
    split
    · exact ih h
    · exact ite_wf (modCopy_wf h) (ih (modCopy_wf h))

theorem startCopy_wf {s : State} {core} (h : s.mem.wf = true) : (s.startCopy core).mem.wf = true := by
  unfold State.startCopy
  exact ite_wf (startFirst_wf h) h

theorem publishStep_wf {s : State} {c n g0} (h : s.mem.wf = true) : (s.publishStep c n g0).mem.wf = true := by
  unfold State.publishStep
  split
  · exact unitLost_wf h
  · exact ite_wf (setPbGen_wf h) h

/-! ### Matrix arrays -/

theorem enqueueCmd_wf {s : State} {c a} (h : s.mem.wf = true) : (s.enqueueCmd c a).mem.wf = true := h

theorem finishCmd_wf {s : State} {k c} (h : s.mem.wf = true) : (s.finishCmd k c).mem.wf = true := by
  unfold State.finishCmd
  dsimp only
  split
  · exact ite_wf (arriveAt_wf (modCmd_wf (modArray_wf h))) (modCmd_wf (modArray_wf h))
  · exact ite_wf (arriveAt_wf (modCmd_wf (modArray_wf h))) (modCmd_wf (modArray_wf h))
  · exact modCmd_wf (modArray_wf h)

theorem writeTile_wf {s : State} {c rows} (h : s.mem.wf = true) : (s.writeTile c rows).mem.wf = true := by
  unfold State.writeTile
  dsimp only
  split
  · exact markItem_wf (modArray_wf h)
  · exact modArray_wf h

theorem arrayPass_wf {s : State} {core a} (h : s.mem.wf = true) : WfExcept id (s.arrayPass core a) := by
  unfold State.arrayPass
  dsimp only
  split
  · split
    · split
      · exact h
      · split
        · trivial
        · exact ite_wf (finishCmd_wf (modCmd_wf (account_wf (writeTile_wf h)))) (modCmd_wf (account_wf (writeTile_wf h)))
    · split
      · exact h
      · split
        · trivial
        · exact ite_wf (finishCmd_wf (modCmd_wf (account_wf (writeTile_wf h)))) (modCmd_wf (account_wf (writeTile_wf h)))
    · exact h
  · exact h

theorem acczRun_wf {s : State} {core a} (h : s.mem.wf = true) : (s.acczRun core a).mem.wf = true := by
  unfold State.acczRun
  split
  · exact ite_wf (finishCmd_wf (writeTile_wf h)) h
  · exact h

theorem freeBytes_wf {s : State} {a1} (h : s.mem.wf = true) : (s.freeBytes a1).2.mem.wf = true := by
  induction a1 generalizing s with
  | zero =>
    unfold State.freeBytes
    exact h
  | succ n ih =>
    unfold State.freeBytes
    split
    · split
      · dsimp only
        exact of_pair ‹_› (draw_wf (of_pair ‹_› (ih h)))

theorem rowByte_wf {s : State} {c gen va} (h : s.mem.wf = true) : (s.rowByte c gen va).2.mem.wf = true := by
  unfold State.rowByte
  split
  · dsimp only
    exact agentReads_wf h
  · split
    · exact h
    · dsimp only
      exact draw_wf h

theorem rowBytes_wf {s : State} {c gen va a4} (h : s.mem.wf = true) : (s.rowBytes c gen va a4).2.mem.wf = true := by
  induction a4 generalizing s c va with
  | zero =>
    unfold State.rowBytes
    exact h
  | succ n ih =>
    unfold State.rowBytes
    split
    · split
      · dsimp only
        exact of_pair ‹_› (ih (of_pair ‹_› (rowByte_wf h)))

theorem rowRead_wf {s : State} {wid va n} (h : s.mem.wf = true) : WfExcept (·.2) (s.rowRead wid va n) := by
  unfold State.rowRead
  split
  · exact h
  · split
    · split
      · trivial
      · exact h
    · split
      · trivial
      · exact h
    · split
      · trivial
      · exact rowBytes_wf (lookUps_wf h)

theorem accldRows_wf {s : State} {c rows a3} (h : s.mem.wf = true) : WfExcept (·.2) (s.accldRows c rows a3) := by
  induction a3 generalizing s c rows with
  | zero =>
    unfold State.accldRows
    exact h
  | succ n ih =>
    unfold State.accldRows
    split
    · trivial
    · split
      · trivial
      · dsimp only [WfStep, WfOption, WfExcept]
        exact of_ok_snd ‹_› (rowRead_wf (of_ok_snd ‹_› (ih h)))

theorem accldRun_wf {s : State} {core a} (h : s.mem.wf = true) : WfExcept id (s.accldRun core a) := by
  unfold State.accldRun
  split
  · split
    · split
      · trivial
      · exact finishCmd_wf (writeTile_wf (of_ok_snd ‹_› (accldRows_wf h)))
    · exact h
  · exact h

theorem enterRows_wf {s : State} {wid q} (h : s.mem.wf = true) : (s.enterRows wid q).mem.wf = true := by
  unfold State.enterRows
  exact showBytes_wf h

theorem issueFollow_wf {s : State} {k} (h : s.mem.wf = true) : (s.issueFollow k).mem.wf = true := by
  unfold State.issueFollow
  dsimp only
  split
  · exact h
  · exact ite_wf h (ite_wf (failCopy_wf h) (ite_wf h (modCopy_wf (enqueueCmd_wf (enterRows_wf h)))))

/-! ### Placement -/

theorem homeLooks_wf {s : State} {c home stride coord} (h : s.mem.wf = true) : (s.homeLooks c home stride coord).mem.wf = true := by
  unfold State.homeLooks
  exact elim_wf h (fun _ => agentLooks_wf h)

theorem beginSpanWait_wf {s : State} {c} (h : s.mem.wf = true) : (s.beginSpanWait c).mem.wf = true := by
  unfold State.beginSpanWait
  split
  · exact ite_wf h h
  · exact h

theorem noteSpanWait_wf {s : State} (h : s.mem.wf = true) : (s.noteSpanWait).mem.wf = true := by
  unfold State.noteSpanWait
  exact foldl_wf (fun _ _ h' => beginSpanWait_wf h') h

theorem pick_wf {s : State} {free n} (h : s.mem.wf = true) : (s.pick free n).2.mem.wf = true := by
  unfold State.pick
  split
  · split
    · dsimp only
      exact of_pair ‹_› (draw_wf h)
    · dsimp only
      exact of_pair ‹_› (draw_wf h)

theorem nextAge_wf {s : State} {core} (h : s.mem.wf = true) : (s.nextAge core).2.mem.wf = true := by
  unfold State.nextAge
  split
  · dsimp only
    exact modCore_wf h
  · exact h

theorem seat_wf {s : State} {l} (h : s.mem.wf = true) : (s.seat l).mem.wf = true := by
  unfold State.seat
  exact foldl_wf (fun _ _ h' => modWave_wf h') h

theorem seatGroup_wf {s : State} {g q cores} (h : s.mem.wf = true) : (s.seatGroup g q cores).mem.wf = true := by
  unfold State.seatGroup
  dsimp only
  split
  · exact h
  · refine modGroup_wf ?_
    dsimp only
    exact seat_wf h

theorem pickTag_wf {s : State} {c} (h : s.mem.wf = true) : (s.pickTag c).2.2.mem.wf = true := by
  unfold State.pickTag
  dsimp only
  split
  · exact pick_wf h
  · exact modCtx_wf (pick_wf h)

theorem placeNew_wf {s : State} {l x q cores} (h : s.mem.wf = true) : (s.placeNew l x q cores).mem.wf = true := by
  unfold State.placeNew
  dsimp only
  refine seatGroup_wf ?_
  refine modTree_wf ?_
  refine modLaunch_wf ?_
  dsimp only
  exact pickTag_wf h

theorem setArrays_wf {s : State} {g sets} (h : s.mem.wf = true) : (s.setArrays g sets).mem.wf = true := by
  unfold State.setArrays
  exact foldl_wf (fun _ _ h' => modCore_wf h') h

theorem readyWave_wf {s : State} {wid core} (h : s.mem.wf = true) : (s.readyWave wid core).mem.wf = true := by
  unfold State.readyWave
  split
  · exact modWave_wf (of_pair ‹_› (nextAge_wf h))

theorem startWave_wf {s : State} {fresh wake wid} (h : s.mem.wf = true) : (s.startWave fresh wake wid).mem.wf = true := by
  unfold State.startWave
  dsimp only
  split
  · exact h
  · exact ite_wf h (ite_wf (modWave_wf (acquire_wf (readyWave_wf h))) (ite_wf (acquire_wf (readyWave_wf h)) (modWave_wf (freshView_wf
      (readyWave_wf h)))))

theorem startGroup_wf {s : State} {g} (h : s.mem.wf = true) : (s.startGroup g).mem.wf = true := by
  unfold State.startGroup
  dsimp only
  split
  · exact h
  · exact modGroup_wf (foldl_wf (fun _ _ h' => startWave_wf h') (ite_wf (setArrays_wf h) h))

/-! ### Work and sample groups -/

theorem feRead_wf {s : State} {c va n} (h : s.mem.wf = true) : (s.feRead c va n).2.mem.wf = true := by
  unfold State.feRead
  dsimp only
  split
  · dsimp only
    exact ite_wf (unitLost_wf (agentLooks_wf h)) (agentLooks_wf h)
  · split
    · dsimp only
      exact unitLost_wf (agentReads_wf (agentLooks_wf h))
    · dsimp only
      exact agentReads_wf (agentLooks_wf h)

theorem feWrite_wf {s0 : State} {c va bs} (h : s0.mem.wf = true) : (s0.feWrite c va bs).mem.wf = true := by
  unfold State.feWrite
  refine viaCap_wf h fun _ h' => ?_
  split
  · exact agentLooks_wf h'
  · exact ite_wf (agentLooks_wf h') (agentWrites_wf (agentLooks_wf h'))

theorem readHome_wf {s : State} {c k args} (h : s.mem.wf = true) : (s.readHome c k args).2.mem.wf = true := by
  unfold State.readHome
  split
  · exact h
  · split
    · dsimp only
      exact of_pair ‹_› (feRead_wf h)

theorem openTree_wf {s : State} {t} (h : s.mem.wf = true) : (s.openTree t).mem.wf = true := h

theorem launch_wf {s0 : State} {c o k args e claim stride} (h : s0.mem.wf = true) :
  (s0.launch c o k args e claim stride).mem.wf = true := by
  unfold State.launch
  dsimp only
  exact openTree_wf (readHome_wf h)

theorem pickTable_wf {s : State} {c len} (h : s.mem.wf = true) : WfOption (·.2) (s.pickTable c len) := by
  unfold State.pickTable
  dsimp only
  refine map_wf fun _ => ?_
  dsimp only
  exact draw_wf h

theorem pickSlotOf_wf {s : State} {c} (h : s.mem.wf = true) : (s.pickSlotOf c).2.mem.wf = true := by
  unfold State.pickSlotOf
  dsimp only
  exact pick_wf h

theorem takeSlot_wf {s : State} {c i} (h : s.mem.wf = true) : (s.takeSlot c i).mem.wf = true := h

theorem freeSlots_wf {s : State} {c l} (h : s.mem.wf = true) : (s.freeSlots c l).mem.wf = true := h

theorem freeTable_wf {s : State} {c t} (h : s.mem.wf = true) : (s.freeTable c t).mem.wf = true := h

theorem modSgo_wf {s : State} {c r f} (h : s.mem.wf = true) : (s.modSgo c r f).mem.wf = true := h

theorem wakeGroup_wf {s : State} {g} (h : s.mem.wf = true) : (s.wakeGroup g).mem.wf = true := by
  unfold State.wakeGroup
  dsimp only
  split
  · exact h
  · split
    · split
      · dsimp only
        exact modGroup_wf h
      · exact modGroup_wf h
    · exact ite_wf (modGroup_wf h) h

theorem settleSgo_wf {s : State} {c r} (h : s.mem.wf = true) : (s.settleSgo c r).mem.wf = true := by
  unfold State.settleSgo
  dsimp only
  split
  · exact h
  · split
    · exact ite_wf (modSgo_wf (ite_wf (foldl_wf (fun _ _ h' => wakeGroup_wf h') (modSgo_wf h)) h)) (ite_wf (foldl_wf
        (fun _ _ h' => wakeGroup_wf h') (modSgo_wf h)) h)
    · exact ite_wf (foldl_wf (fun _ _ h' => wakeGroup_wf h') (modSgo_wf h)) h

theorem sgTimeout_wf {s : State} {c o clock} (h : s.mem.wf = true) : (s.sgTimeout c o clock).mem.wf = true := by
  unfold State.sgTimeout
  split
  · exact ite_wf (settleSgo_wf (modSgo_wf h)) h
  · exact h

theorem sgExpire_wf {s : State} {c r} (h : s.mem.wf = true) : (s.sgExpire c r).mem.wf = true := by
  unfold State.sgExpire
  split
  · exact sgTimeout_wf h
  · exact h

theorem sibEnded_wf {s : State} {c r} (h : s.mem.wf = true) : (s.sibEnded c r).mem.wf = true := by
  unfold State.sibEnded
  exact settleSgo_wf (modSgo_wf (sgExpire_wf h))

theorem sgReward_wf {s0 : State} {c r rew} (h : s0.mem.wf = true) : (s0.sgReward c r rew).2.mem.wf = true := by
  unfold State.sgReward
  dsimp only
  split
  · dsimp only
    exact sgExpire_wf h
  · split
    · dsimp only
      exact sgExpire_wf h
    · split
      · dsimp only
        exact settleSgo_wf (modSgo_wf (sgExpire_wf h))
      · dsimp only
        exact sgExpire_wf h

theorem modBin_wf {s : State} {c b f} (h : s.mem.wf = true) : (s.modBin c b f).mem.wf = true := h

theorem dropSet_wf {s : State} {c b x} (h : s.mem.wf = true) : (s.dropSet c b x).mem.wf = true := by
  unfold State.dropSet
  dsimp only
  split
  · exact sibEnded_wf (modBin_wf (modTree_wf (freeSlots_wf h)))
  · exact modBin_wf (modTree_wf (freeSlots_wf h))

theorem giveTable_wf {s : State} {k} (h : s.mem.wf = true) : (s.giveTable k).mem.wf = true := by
  unfold State.giveTable
  dsimp only
  split
  · exact h
  · split
    · split
      · exact h
      · split
        · exact h
        · exact modLaunch_wf (modCtx_wf (feWrite_wf (of_some_snd ‹_› (pickTable_wf h))))
    · exact h

theorem seekTables_wf {s : State} (h : s.mem.wf = true) : (s.seekTables).mem.wf = true := by
  unfold State.seekTables
  refine foldl_wf ?_ h
  intro _ _ h'
  split
  · exact charging_wf h' (fun _ h'' => giveTable_wf h'')
  · exact h'

theorem fireBin_wf {s : State} {c b} (h : s.mem.wf = true) : (s.fireBin c b).mem.wf = true := by
  unfold State.fireBin
  dsimp only
  split
  · exact h
  · split
    · exact h
    · split
      · exact modTree_wf (dropSet_wf h)
      · split
        · refine giveTable_wf ?_
          refine modBin_wf ?_
          refine modTree_wf ?_
          dsimp only
          exact readHome_wf h
        · exact modTree_wf (dropSet_wf h)

theorem fireDue_wf {s : State} {c b late} (h : s.mem.wf = true) : (s.fireDue c b late).mem.wf = true := by
  unfold State.fireDue
  dsimp only
  exact fireBin_wf (foldl_wf (fun _ _ h' => chargingOther_wf h' (fun _ h'' => fireBin_wf h'')) h)

theorem binExpire_wf {s : State} {c b} (h : s.mem.wf = true) : (s.binExpire c b).mem.wf = true := by
  unfold State.binExpire
  split
  · exact ite_wf (fireDue_wf h) h
  · exact h

theorem addRecord_wf {s0 : State} {c b slot tree depth sib} (h : s0.mem.wf = true) :
    (s0.addRecord c b slot tree depth sib).mem.wf = true := by
  unfold State.addRecord
  dsimp only
  split
  · exact binExpire_wf h
  · split
    · exact ite_wf (fireDue_wf (modTree_wf (modBin_wf (ite_wf (fireDue_wf (binExpire_wf h)) (binExpire_wf h))))) (modTree_wf (modBin_wf
        (ite_wf (fireDue_wf (binExpire_wf h)) (binExpire_wf h))))
    · exact modTree_wf (modBin_wf (ite_wf (fireDue_wf (binExpire_wf h)) (binExpire_wf h)))

theorem tryEnd_wf {s : State} {g} (h : s.mem.wf = true) : (s.tryEnd g).mem.wf = true := by
  unfold State.tryEnd
  dsimp only
  split
  · exact h
  · split
    · exact h
    · split
      · refine sibEnded_wf ?_
        refine modTree_wf ?_
        refine freeTable_wf ?_
        refine freeSlots_wf ?_
        refine modCtx_wf ?_
        dsimp only
        exact modGroup_wf h
      · refine modTree_wf ?_
        refine freeTable_wf ?_
        refine freeSlots_wf ?_
        refine modCtx_wf ?_
        dsimp only
        exact modGroup_wf h

theorem retireWave_wf {s : State} {wid} (h : s.mem.wf = true) : (s.retireWave wid).mem.wf = true := by
  unfold State.retireWave
  split
  · exact h
  · exact tryEnd_wf (modWave_wf (leaveMasks_wf h))

theorem killWave_wf {s : State} {wid} (h : s.mem.wf = true) : (s.killWave wid).mem.wf = true := by
  unfold State.killWave
  exact retireWave_wf (drainAtoms_wf h)

theorem cancelCopies_wf {s : State} {g} (h : s.mem.wf = true) : (s.cancelCopies g).mem.wf = true := h

theorem dropCmds_wf {s : State} {g} (h : s.mem.wf = true) : (s.dropCmds g).mem.wf = true := h

theorem killGroup_wf {s : State} {g} (h : s.mem.wf = true) : (s.killGroup g).mem.wf = true := by
  unfold State.killGroup
  dsimp only
  split
  · exact h
  · exact ite_wf h (ite_wf (foldl_wf (fun _ _ h' => modWave_wf h') h) (foldl_wf (fun _ _ h' => retireWave_wf h') (dropCmds_wf
      (cancelCopies_wf (foldl_wf (fun _ _ h' => modWave_wf h') h)))))

theorem discardLaunch_wf {s : State} {k} (h : s.mem.wf = true) : (s.discardLaunch k).mem.wf = true := by
  unfold State.discardLaunch
  dsimp only
  split
  · exact h
  · split
    · split
      · exact sibEnded_wf (modTree_wf (freeTable_wf (freeSlots_wf (modLaunch_wf h))))
      · exact modTree_wf (freeTable_wf (freeSlots_wf (modLaunch_wf h)))
    · exact h

theorem sgCancel_wf {s0 : State} {c r} (h : s0.mem.wf = true) : (s0.sgCancel c r).mem.wf = true := by
  unfold State.sgCancel
  dsimp only
  split
  · exact sgExpire_wf h
  · exact foldl_wf (fun _ _ h' => dropSet_wf h') (foldl_wf (fun _ _ h' => modLaunch_wf h') (foldl_wf (fun _ _ h' => killGroup_wf h')
      (ite_wf (sgExpire_wf h) (settleSgo_wf (modSgo_wf (sgExpire_wf h))))))

theorem endTrees_wf {s : State} {inSet} (h : s.mem.wf = true) : (s.endTrees inSet).2.mem.wf = true := by
  unfold State.endTrees
  dsimp only
  exact foldl_wf (fun _ _ h' => killGroup_wf h') (foldl_wf (fun _ _ h' => dropSet_wf h') (foldl_wf (fun _ _ h' => discardLaunch_wf h') h))

theorem requestPark_wf {s : State} {g} (h : s.mem.wf = true) : (s.requestPark g).mem.wf = true := by
  unfold State.requestPark
  split
  · exact ite_wf (modGroup_wf h) h
  · exact h

theorem leaveCores_wf {s : State} {g st} (h : s.mem.wf = true) : (s.leaveCores g st).mem.wf = true := by
  unfold State.leaveCores
  dsimp only
  split
  · exact h
  · refine modGroup_wf ?_
    split
    · refine foldl_wf (fun _ _ h' => modCore_wf h') ?_
      refine foldl_wf ?_ h
      intro _ _ h'
      split
      · exact leaveMasks_wf h'
      · exact h'
    · refine foldl_wf ?_ h
      intro _ _ h'
      split
      · exact leaveMasks_wf h'
      · exact h'

theorem parkGroup_wf {s : State} {g} (h : s.mem.wf = true) : (s.parkGroup g).mem.wf = true := by
  unfold State.parkGroup
  dsimp only
  split
  · exact h
  · exact ite_wf (ite_wf (wakeGroup_wf (modGroup_wf (leaveCores_wf h))) (modGroup_wf (leaveCores_wf h))) h

/-! ### The front end -/

theorem modPacket_wf {s : State} {r p f} (h : s.mem.wf = true) : (s.modPacket r p f).mem.wf = true := h

theorem staleKept_wf {s : State} {p} (h : s.mem.wf = true) : (s.staleKept p).mem.wf = true := h

theorem keptLooks_wf {s : State} {c acc k} (h : s.mem.wf = true) : (s.keptLooks c acc k).mem.wf = true := by
  unfold State.keptLooks
  exact ite_wf (agentLooks_wf h) h

theorem writeRecord_wf {s : State} {c k qs} (h : s.mem.wf = true) : (s.writeRecord c k qs).mem.wf = true := by
  unfold State.writeRecord
  split
  · exact enterPhys_wf (keptLooks_wf h)
  · exact keptLooks_wf h

theorem dropFields_wf {s : State} {r p} (h : s.mem.wf = true) : (s.dropFields r p).mem.wf = true := h

theorem completePacket_wf {s : State} {r p status detail count addr} (h : s.mem.wf = true) :
    (s.completePacket r p status detail count addr).mem.wf = true := by
  unfold State.completePacket
  dsimp only
  split
  · exact h
  · split
    · exact h
    · refine dropFields_wf ?_
      refine modRing_wf ?_
      refine modPacket_wf ?_
      split
      · exact viaCap_wf h (fun _ h' => writeRecord_wf h')
      · exact h

theorem doorbell_wf {s : State} {block v} (h : s.mem.wf = true) : (s.doorbell block v).mem.wf = true := by
  unfold State.doorbell
  split
  · exact modRing_wf h
  · exact h

theorem served_wf {s : State} {r} (h : s.mem.wf = true) : (s.served r).mem.wf = true := h

theorem fieldLooks_wf {s : State} {c q addr} (h : s.mem.wf = true) : (s.fieldLooks c q addr).mem.wf = true := by
  unfold State.fieldLooks
  dsimp only
  exact ite_wf (agentLooks_wf (ite_wf (agentLooks_wf h) h)) (ite_wf (agentLooks_wf (ite_wf (agentLooks_wf h) h)) (ite_wf
    (agentLooks_wf h) h))

theorem faultLooks_wf {s : State} {r err} (h : s.mem.wf = true) : (s.faultLooks r err).mem.wf = true := by
  unfold State.faultLooks
  dsimp only
  exact ite_wf (fieldLooks_wf h) (ite_wf (fieldLooks_wf h) h)

theorem haltRing_wf {s : State} {k err} (h : s.mem.wf = true) : (s.haltRing k err).mem.wf = true := by
  unfold State.haltRing
  dsimp only
  split
  · exact h
  · exact report_wf (modRing_wf (homeRange_wf (faultLooks_wf h)))

theorem holdFields_wf {s : State} {k p own q} (h : s.mem.wf = true) : (s.holdFields k p own q).mem.wf = true := by
  unfold State.holdFields
  dsimp only
  exact ite_wf (grant_wf (ite_wf (grant_wf h) h)) (ite_wf (grant_wf (ite_wf (grant_wf h) h)) (ite_wf (grant_wf h) h))

theorem holdPacket_wf {s : State} {r k q} (h : s.mem.wf = true) : (s.holdPacket r k q).mem.wf = true := by
  unfold State.holdPacket
  exact holdFields_wf (getD_wf (optionBind_wf (fun _ => useCap_wf h)) h)

theorem takePacket_wf {s0 : State} {k r q ref} (h : s0.mem.wf = true) : (s0.takePacket k r q ref).mem.wf = true := by
  unfold State.takePacket
  dsimp only
  exact workDone_wf (served_wf (modRing_wf (homeRange_wf (fieldLooks_wf (holdPacket_wf h)))))

theorem viaRing_wf {s : State} {k r n f} (h : s.mem.wf = true) (hf : ∀ t, t.mem.wf = true → (f t).mem.wf = true) :
    (s.viaRing k r n f).mem.wf = true := by
  unfold State.viaRing
  exact viaCap_wf h (fun _ h' => hf _ h')

theorem serve_wf {s : State} {c k type act} (h : s.mem.wf = true) (hact : ∀ t y2 y3 y4, t.mem.wf = true → (act t y2 y3 y4).mem.wf = true) :
    (s.serve c k type act).mem.wf = true := by
  unfold State.serve
  split
  · exact h
  · split
    · exact h
    · split
      · exact h
      · exact viaRing_wf h (fun _ h' => served_wf (haltRing_wf h'))
      · exact ite_wf (viaRing_wf h (fun _ h' => hact _ _ _ _ h')) h

theorem signalWrite_wf {s : State} {q x} (h : s.mem.wf = true) : (s.signalWrite q x).mem.wf = true := by
  unfold State.signalWrite
  dsimp only
  exact enterPhys_wf (ite_wf (homeAccess_wf h) h)

theorem abandonPacket_wf {s : State} {r p} (h : s.mem.wf = true) : (s.abandonPacket r p).mem.wf = true := by
  unfold State.abandonPacket
  dsimp only
  split
  · exact h
  · exact completePacket_wf (report_wf (modRing_wf h))

theorem atField_wf {s : State} {r p n acc ring k f} (h : s.mem.wf = true) (hf : ∀ t y2, t.mem.wf = true → (f t y2).mem.wf = true) :
    (s.atField r p n acc ring k f).mem.wf = true := by
  unfold State.atField
  dsimp only
  split
  · exact abandonPacket_wf (elim_wf h (fun _ => keptLooks_wf h))
  · exact viaCap_wf (elim_wf h (fun _ => keptLooks_wf h)) (fun _ h' => hf _ _ h')

theorem rereadPacket_wf {s : State} {r p} (h : s.mem.wf = true) : (s.rereadPacket r p).mem.wf = true := by
  unfold State.rereadPacket
  dsimp only
  split
  · exact h
  · exact ite_wf h (atField_wf h (fun _ _ h' => ite_wf (unitLost_wf (homeAccess_wf (modPacket_wf h'))) (ite_wf (completePacket_wf
      (homeAccess_wf (modPacket_wf h'))) (homeAccess_wf (modPacket_wf h')))))

theorem rereadAll_wf {s : State} (h : s.mem.wf = true) : (s.rereadAll).mem.wf = true := by
  unfold State.rereadAll
  exact foldl_wf (fun _ _ h' => rereadPacket_wf h') h

theorem performSignal_wf {s : State} {r p} (h : s.mem.wf = true) : (s.performSignal r p).mem.wf = true := by
  unfold State.performSignal
  split
  · exact h
  · exact ite_wf h (atField_wf h (fun _ _ h' => ite_wf (unitLost_wf h') (rereadAll_wf (completePacket_wf (signalWrite_wf h')))))

theorem tableReads_wf {s : State} {l} (h : s.mem.wf = true) : (s.tableReads l).mem.wf = true := by
  unfold State.tableReads
  exact foldl_wf (fun _ _ h' => homeRange_wf h') h

theorem readTable_wf {s : State} {c l} (h : s.mem.wf = true) : (s.readTable c l).mem.wf = true := by
  unfold State.readTable
  split
  · exact unitLost_wf (tableReads_wf h)
  · exact tableReads_wf h

theorem failRun_wf {s : State} {run j} (h : s.mem.wf = true) : (s.failRun run j).mem.wf = true := h

theorem startNode_wf {s0 : State} {run j} (h : s0.mem.wf = true) : (s0.startNode run j).mem.wf = true := by
  unfold State.startNode
  split
  · exact h
  · rename_i r _
    dsimp only
    generalize ec : s0.capFor 3 (.graph r.ctx r.table 1) r.ctx (64 * j) 64 false = cap
    have hs : ((cap.map (fun t => t.readTable r.ctx [nodeRange t.mem (s0.graphHeader r.ctx r.table) j])).getD s0.frontError).mem.wf =
        true := getD_wf (map_state_wf (ec ▸ capFor_wf h) (fun _ h' => readTable_wf h')) (frontError_wf h)
    generalize (cap.map (fun t => t.readTable r.ctx [nodeRange t.mem (s0.graphHeader r.ctx r.table) j])).getD s0.frontError = s at hs
    split
    · exact modRun_wf h
    · generalize cap.bind _ = k
      cases k with
      | none => exact ite_wf (failRun_wf (openTree_wf (modRun_wf hs))) (openTree_wf (modRun_wf hs))
      | some k => exact ite_wf (failRun_wf (launch_wf (modRun_wf hs))) (launch_wf (modRun_wf hs))

theorem startNodes_wf {s : State} {run l} (h : s.mem.wf = true) : (s.startNodes run l).mem.wf = true := by
  unfold State.startNodes
  exact foldl_wf (fun _ _ h' => startNode_wf h') h

theorem beginGraph_wf {s : State} {c t ring pkt} (h : s.mem.wf = true) : (s.beginGraph c t ring pkt).mem.wf = true := by
  unfold State.beginGraph
  dsimp only
  exact startNodes_wf (tableReads_wf h)

theorem settleRun_wf {s : State} {run status} (h : s.mem.wf = true) : (s.settleRun run status).mem.wf = true := by
  unfold State.settleRun
  dsimp only
  split
  · exact h
  · split
    · split
      · exact completePacket_wf (modRun_wf h)
      · split
        · exact completePacket_wf (modRun_wf h)
        · exact completePacket_wf (modRun_wf h)
    · exact h

theorem succCap_wf {s : State} {r hh j} (h : s.mem.wf = true) : WfOption id (s.succCap r hh j) := by
  unfold State.succCap
  dsimp only
  split
  · exact h
  · exact capFor_wf h

theorem nodeDone_wf {s0 : State} {run j done ended failed0 abandoned} (h : s0.mem.wf = true) :
    (s0.nodeDone run j done ended failed0 abandoned).mem.wf = true := by
  unfold State.nodeDone
  dsimp only
  split
  · exact h
  · refine settleRun_wf ?_
    refine startNodes_wf ?_
    split
    · exact ite_wf (failRun_wf (modRun_wf (ite_wf (readTable_wf (getD_wf (succCap_wf h) (frontError_wf h))) (getD_wf (succCap_wf h)
        (frontError_wf h))))) (modRun_wf (ite_wf (readTable_wf (getD_wf (succCap_wf h) (frontError_wf h))) (getD_wf (succCap_wf h)
        (frontError_wf h))))
    · exact ite_wf (failRun_wf (modRun_wf (ite_wf (readTable_wf (getD_wf h (frontError_wf h))) (getD_wf h (frontError_wf h)))))
        (modRun_wf (ite_wf (readTable_wf (getD_wf h (frontError_wf h))) (getD_wf h (frontError_wf h))))

theorem retryNodes_wf {s : State} {c} (h : s.mem.wf = true) : (s.retryNodes c).mem.wf = true := by
  unfold State.retryNodes
  exact foldl_wf (fun _ _ h' => startNode_wf (modRun_wf h')) h

theorem closeTree_wf {s : State} {t} (h : s.mem.wf = true) : (s.closeTree t).mem.wf = true := by
  unfold State.closeTree
  dsimp only
  split
  · exact h
  · split
    · refine retryNodes_wf ?_
      split
      · exact completePacket_wf (modTree_wf h)
      · exact nodeDone_wf (modTree_wf h)
      · exact modTree_wf h
    · exact h

/-! ### Afterglow -/

theorem updatePend_wf {s : State} {c} (h : s.mem.wf = true) : (s.updatePend c).mem.wf = true := by
  unfold State.updatePend
  dsimp only
  split
  · exact h
  · exact modCtx_wf h

theorem answerClose_wf {s : State} {r ivl ok} (h : s.mem.wf = true) : (s.answerClose r ivl ok).mem.wf = true := by
  unfold State.answerClose
  split
  · exact completePacket_wf h
  · exact modBegun_wf h
  · exact h

theorem fenceFault_wf {s : State} {c} (h : s.mem.wf = true) : (s.fenceFault c).mem.wf = true := by
  unfold State.fenceFault
  exact contextFault_wf h

theorem requestClose_wf {s : State} {c r} (h : s.mem.wf = true) : (s.requestClose c r).mem.wf = true := by
  unfold State.requestClose
  dsimp only
  split
  · exact h
  · exact ite_wf (ite_wf (fenceFault_wf (answerClose_wf h)) (answerClose_wf h)) (modCtx_wf h)

theorem beginClose_wf {s : State} {c} (h : s.mem.wf = true) : (s.beginClose c).mem.wf = true := by
  unfold State.beginClose
  split
  · exact h
  · split
    · exact h
    · exact ite_wf h (modCtx_wf h)

theorem goOn_wf {s : State} {c} (h : s.mem.wf = true) : (s.goOn c).mem.wf = true := h

theorem cut_wf {s : State} {c} (h : s.mem.wf = true) : (s.cut c).mem.wf = true := by
  unfold State.cut
  split
  · exact h
  · exact ite_wf (ite_wf (allGroups_wf (allWaves_wf (modCtx_wf h))) (goOn_wf (allGroups_wf (allWaves_wf (modCtx_wf h))))) h

theorem declLooks_wf {s : State} {c d} (h : s.mem.wf = true) : (s.declLooks c d).mem.wf = true := by
  unfold State.declLooks
  exact foldl_wf (fun _ _ h' => agentLooks_wf (agentLooks_wf h')) h

theorem programRegion_wf {s : State} {c q r} (h : s.mem.wf = true) : WfOption id (s.programRegion c q r) := by
  unfold State.programRegion
  split
  · trivial
  · split
    · trivial
    · split
      · exact modCtx_wf (applyRegion_wf h)
      · trivial

theorem programAll_wf {s : State} {c a2} (h : s.mem.wf = true) : WfOption id (s.programAll c a2) := by
  induction a2 generalizing s c with
  | nil =>
    unfold State.programAll
    exact h
  | cons x l ih =>
    unfold State.programAll
    split
    · exact ih (of_some ‹_› (programRegion_wf h))
    · trivial

theorem programDecls_wf {s : State} {c x a3 a4} (h : s.mem.wf = true) : WfExcept id (s.programDecls c x a3 a4) := by
  induction a3 generalizing s c x a4 with
  | zero =>
    unfold State.programDecls
    exact h
  | succ n ih =>
    unfold State.programDecls
    split
    · trivial
    · split
      · trivial
      · exact ih (of_some ‹_› (programAll_wf (declLooks_wf h)))

theorem dropDecls_wf {s : State} {c} (h : s.mem.wf = true) : (s.dropDecls c).mem.wf = true := by
  unfold State.dropDecls
  exact foldl_wf (fun _ _ h' => applyRegion_wf h') (modCtx_wf h)

theorem readGranules_wf {s : State} {x l} (h : s.mem.wf = true) : (s.readGranules x l).mem.wf = true := by
  unfold State.readGranules
  exact foldl_wf (fun _ _ h' => homeRange_wf h') h

theorem meetGranules_wf {s : State} {c x l} (h : s.mem.wf = true) : (s.meetGranules c x l).mem.wf = true := by
  unfold State.meetGranules
  split
  · exact unitLost_wf (modCtx_wf (readGranules_wf h))
  · exact readGranules_wf h

theorem layRecords_wf {s : State} {c} (h : s.mem.wf = true) : (s.layRecords c).mem.wf = true := by
  unfold State.layRecords
  dsimp only
  split
  · exact h
  · split
    · exact h
    · exact ite_wf (modCtx_wf h) (modCtx_wf (account_wf (meetGranules_wf h)))

theorem streamItem_wf {s : State} {c k} (h : s.mem.wf = true) : (s.streamItem c k).mem.wf = true := by
  unfold State.streamItem
  split
  · exact h
  · split
    · exact ite_wf h (layRecords_wf (modCtx_wf h))
    · exact h

theorem hasten_wf {s : State} {c} (h : s.mem.wf = true) : (s.hasten c).mem.wf = true := by
  unfold State.hasten
  dsimp only
  split
  · exact h
  · exact ite_wf h (ite_wf h (layRecords_wf (modCtx_wf h)))

theorem saveGroups_wf {s0 : State} {c} (h : s0.mem.wf = true) : (s0.saveGroups c).mem.wf = true := by
  unfold State.saveGroups
  dsimp only
  refine modCtx_wf ?_
  refine foldl_wf ?_ (dropDecls_wf h)
  intro _ _ h'
  split
  · exact ite_wf (leaveCores_wf h') h'
  · exact h'

theorem shelve_wf {s : State} {c} (h : s.mem.wf = true) : (s.shelve c).mem.wf = true := h

theorem enterWoken_wf {s : State} {c} (h : s.mem.wf = true) : (s.enterWoken c).mem.wf = true := by
  unfold State.enterWoken
  dsimp only
  exact foldl_wf (fun _ _ h' => modGroup_wf h') h

theorem unsave_wf {s : State} {c was} (h : s.mem.wf = true) : (s.unsave c was).mem.wf = true := by
  unfold State.unsave
  dsimp only
  exact enterWoken_wf (goOn_wf (modCtx_wf (allGroups_wf h)))

theorem failClose_wf {s : State} {c y ivl down} (h : s.mem.wf = true) : (s.failClose c y ivl down).mem.wf = true := by
  unfold State.failClose
  dsimp only
  split
  · refine fenceFault_wf ?_
    split
    · exact report_wf (foldl_wf (fun _ _ h' => answerClose_wf h') (ite_wf (unsave_wf (modCtx_wf h)) (modCtx_wf h)))
    · exact foldl_wf (fun _ _ h' => answerClose_wf h') (ite_wf (unsave_wf (modCtx_wf h)) (modCtx_wf h))
  · split
    · exact report_wf (foldl_wf (fun _ _ h' => answerClose_wf h') (ite_wf (unsave_wf (modCtx_wf h)) (modCtx_wf h)))
    · exact foldl_wf (fun _ _ h' => answerClose_wf h') (ite_wf (unsave_wf (modCtx_wf h)) (modCtx_wf h))

theorem commit_wf {s : State} {c} (h : s.mem.wf = true) : (s.commit c).mem.wf = true := by
  unfold State.commit
  dsimp only
  split
  · exact h
  · split
    · exact h
    · split
      · exact h
      · split
        · exact layRecords_wf h
        · split
          · split
            · exact failClose_wf (layRecords_wf h)
            · refine foldl_wf (fun _ _ h' => answerClose_wf h') ?_
              split
              · refine shelve_wf ?_
                refine saveGroups_wf ?_
                dsimp only
                exact modCtx_wf (account_wf (layRecords_wf h))
              · dsimp only
                exact modCtx_wf (account_wf (layRecords_wf h))
          · split
            · exact failClose_wf (layRecords_wf h)
            · refine foldl_wf (fun _ _ h' => answerClose_wf h') ?_
              split
              · refine shelve_wf ?_
                refine saveGroups_wf ?_
                dsimp only
                exact modCtx_wf (account_wf (layRecords_wf h))
              · dsimp only
                exact modCtx_wf (account_wf (layRecords_wf h))

theorem restoreHome_wf {s : State} {x img held} (h : s.mem.wf = true) : (s.restoreHome x img held).mem.wf = true := by
  unfold State.restoreHome
  dsimp only
  refine foldl_wf (fun _ _ h' => homeRange_wf h') ?_
  dsimp only
  exact wf_restoreExts _ _ _ _ h

theorem putImage_wf {s : State} {c img} (h : s.mem.wf = true) : (s.putImage c img).mem.wf = true := h

theorem holdOpen_wf {s : State} {c} (h : s.mem.wf = true) : (s.holdOpen c).mem.wf = true := by
  unfold State.holdOpen
  dsimp only
  exact foldl_wf (fun _ _ h' => ite_wf (foldl_wf (fun _ _ h'' => ite_wf h'' (holdFields_wf h'')) h') h') (revoke_wf h)

theorem dropCaches_wf {s : State} {c x} (h : s.mem.wf = true) : (s.dropCaches c x).mem.wf = true := h

theorem pendLooks_wf {s : State} {c} (h : s.mem.wf = true) : (s.pendLooks c).mem.wf = true := by
  unfold State.pendLooks
  refine foldl_wf ?_ h
  intro _ _ h'
  refine foldl_wf ?_ h'
  intro _ _ h''
  split
  · exact lookUps_wf h''
  · exact h''

theorem replacePending_wf {s : State} {c} (h : s.mem.wf = true) : (s.replacePending c).mem.wf = true := h

theorem enterGroups_wf {s : State} {c first} (h : s.mem.wf = true) : (s.enterGroups c first).mem.wf = true := by
  unfold State.enterGroups
  dsimp only
  exact foldl_wf (fun _ _ h' => modGroup_wf h') h

theorem settleRestore_wf {s : State} {c} (h : s.mem.wf = true) : (s.settleRestore c).mem.wf = true := by
  unfold State.settleRestore
  split
  · exact h
  · exact ite_wf (modCtx_wf h) h

theorem vacate_wf {s : State} {c} (h : s.mem.wf = true) : (s.vacate c).mem.wf = true := by
  unfold State.vacate
  exact foldl_wf (fun _ _ h' => leaveCores_wf h') h

theorem readLists_wf {s : State} {x} (h : s.mem.wf = true) : (s.readLists x).mem.wf = true := by
  unfold State.readLists
  exact foldl_wf (fun _ _ h' => homeRange_wf h') h

theorem readyLists_wf {s : State} {c x exts} (h : s.mem.wf = true) : WfExcept id (s.readyLists c x exts) := by
  unfold State.readyLists
  split
  · trivial
  · trivial
  · split
    · trivial
    · exact of_ok ‹_› (programDecls_wf (readLists_wf h))

theorem restore_wf {s : State} {c img} (h : s.mem.wf = true) : WfExcept id (s.restore c img) := by
  unfold State.restore
  dsimp only
  split
  · trivial
  · split
    · trivial
    · split
      · trivial
      · split
        · exact contextFault_wf (pendLooks_wf (modCtx_wf (dropCaches_wf (holdOpen_wf (putImage_wf (restoreHome_wf (foldl_wf
            (fun _ _ h' => putPbGen_wf h') (vacate_wf (of_ok ‹_› (readyLists_wf h))))))))))
        · exact settleRestore_wf (enterGroups_wf (modCtx_wf (replacePending_wf (pendLooks_wf (modCtx_wf (dropCaches_wf (holdOpen_wf
            (putImage_wf (restoreHome_wf (foldl_wf (fun _ _ h' => putPbGen_wf h') (vacate_wf (of_ok ‹_› (readyLists_wf h)))))))))))))

theorem rollback_wf {s : State} {c} (h : s.mem.wf = true) : (s.rollback c).mem.wf = true := by
  unfold State.rollback
  dsimp only
  split
  · exact h
  · split
    · exact h
    · split
      · exact contextFault_wf (report_wf (foldl_wf (fun _ _ h' => answerClose_wf h') (dropDecls_wf (modCtx_wf h))))
      · refine contextFault_wf ?_
        refine of_ok ‹_› ?_
        split
        · exact restore_wf (foldl_wf (fun _ _ h' => answerClose_wf h') (dropDecls_wf (modCtx_wf h)))
        · trivial

/-! ### Hardware errors -/

theorem parkForTest_wf {s : State} {g} (h : s.mem.wf = true) : (s.parkForTest g).mem.wf = true := by
  unfold State.parkForTest
  dsimp only
  split
  · exact h
  · exact ite_wf (modGroup_wf h) (ite_wf h (requestClose_wf h))

theorem beginTest_wf {s : State} {u code cls} (h : s.mem.wf = true) : (s.beginTest u code cls).mem.wf = true := by
  unfold State.beginTest
  dsimp only
  exact foldl_wf (fun _ _ h' => parkForTest_wf h') h

theorem rollbackFor_wf {s : State} {c code} (h : s.mem.wf = true) : (s.rollbackFor c code).mem.wf = true := by
  unfold State.rollbackFor
  exact lifeAdd_wf (rollback_wf h)

theorem settleRollback_wf {s : State} {c} (h : s.mem.wf = true) : (s.settleRollback c).mem.wf = true := by
  unfold State.settleRollback
  split
  · exact rollbackFor_wf (modCtx_wf h)
  · exact h

theorem errorTrap_wf {s : State} {wid engine cause code} (h : s.mem.wf = true) : (s.errorTrap wid engine cause code).mem.wf = true := by
  unfold State.errorTrap
  split
  · exact h
  · exact ite_wf h (ite_wf (takeTrap_wf h) (modWave_wf h))

theorem meetPoison_wf {s : State} {wid va code} (h : s.mem.wf = true) : (s.meetPoison wid va code).mem.wf = true := by
  unfold State.meetPoison
  exact takeTrap_wf h

theorem enginePoison_wf {s : State} {c wid code} (h : s.mem.wf = true) : (s.enginePoison c wid code).mem.wf = true := by
  unfold State.enginePoison
  split
  · exact modCtx_wf h
  · split
    · exact errorTrap_wf h
    · exact h

theorem lostData_wf {s : State} {t} (h : s.mem.wf = true) : (s.lostData t).mem.wf = true := by
  unfold State.lostData
  dsimp only
  exact foldl_wf (fun _ _ h' => charging_wf h' (fun _ h'' => rollbackFor_wf h'')) h

theorem dropPacket_wf {s : State} (h : s.mem.wf = true) : (s.dropPacket).mem.wf = true := by
  unfold State.dropPacket
  split
  · exact completePacket_wf (takePacket_wf h)
  · exact h

theorem dropWork_wf {s : State} {u wave} (h : s.mem.wf = true) : (s.dropWork u wave).mem.wf = true := by
  unfold State.dropWork
  dsimp only
  split
  · split
    · split
      · split
        · exact completePacket_wf (draw_wf (modCopy_wf h))
        · exact modCopy_wf h
      · exact h
    · exact h
  · split
    · exact modCmd_wf (modArray_wf h)
    · exact h
  · exact dropPacket_wf h
  · exact h

theorem abandonWork_wf {s : State} {t} (h : s.mem.wf = true) : (s.abandonWork t).mem.wf = true := by
  unfold State.abandonWork
  dsimp only
  split
  · exact h
  · split
    · exact charging_wf h (fun _ h' => rollbackFor_wf h')
    · split
      · exact charging_wf h (fun _ h' => dropWork_wf h')
      · split
        · exact charging_wf h (fun _ h' => dropWork_wf h')
        · exact tryEnd_wf (errorTrap_wf (lifeAdd_wf (charging_wf h (fun _ h' => dropWork_wf h'))))

theorem replay_wf {s : State} {t} (h : s.mem.wf = true) : (s.replay t).mem.wf = true := by
  unfold State.replay
  dsimp only
  exact ite_wf (abandonWork_wf h) h

theorem moveHostCopies_wf {s : State} {core} (h : s.mem.wf = true) : (s.moveHostCopies core).mem.wf = true := h

theorem fenceWay_wf {s : State} {line} (h : s.mem.wf = true) : (s.fenceWay line).mem.wf = true := by
  unfold State.fenceWay
  dsimp only
  exact ite_wf (llcRoom_wf h) h

theorem fence_wf {s : State} {t} (h : s.mem.wf = true) : (s.fence t).mem.wf = true := by
  unfold State.fence
  dsimp only
  split
  · exact ite_wf (fenceWay_wf h) (foldl_wf (fun _ _ h' => requestClose_wf (fenceFault_wf h')) h)
  · exact report_wf h
  · exact lifeAdd_wf h
  · split
    · exact foldl_wf (fun _ _ h' => requestClose_wf h') (moveHostCopies_wf (modCore_wf h))
    · exact h

theorem measureFeatures_wf {s : State} (h : s.mem.wf = true) : (s.measureFeatures).mem.wf = true := h

theorem countVerdict_wf {s : State} {t ok} (h : s.mem.wf = true) : (s.countVerdict t ok).mem.wf = true := by
  unfold State.countVerdict
  exact ite_wf h (lifeAdd_wf h)

theorem verdict_wf {s : State} {k ok} (h : s.mem.wf = true) : (s.verdict k ok).mem.wf = true := by
  unfold State.verdict
  dsimp only
  split
  · exact h
  · split
    · split
      · exact h
      · dsimp only
        split
        · exact foldl_wf (fun _ _ h' => wakeGroup_wf h') (ite_wf (countVerdict_wf h) (measureFeatures_wf (fence_wf (countVerdict_wf h))))
        · exact lostData_wf (foldl_wf (fun _ _ h' => wakeGroup_wf h') (ite_wf (countVerdict_wf h) (measureFeatures_wf (fence_wf
            (countVerdict_wf h)))))
        · exact replay_wf (foldl_wf (fun _ _ h' => wakeGroup_wf h') (ite_wf (countVerdict_wf h) (measureFeatures_wf (fence_wf
            (countVerdict_wf h)))))
    · split
      · exact h
      · dsimp only
        split
        · exact foldl_wf (fun _ _ h' => wakeGroup_wf h') (ite_wf (countVerdict_wf h) (measureFeatures_wf (fence_wf (countVerdict_wf h))))
        · exact lostData_wf (foldl_wf (fun _ _ h' => wakeGroup_wf h') (ite_wf (countVerdict_wf h) (measureFeatures_wf (fence_wf
            (countVerdict_wf h)))))
        · exact replay_wf (foldl_wf (fun _ _ h' => wakeGroup_wf h') (ite_wf (countVerdict_wf h) (measureFeatures_wf (fence_wf
            (countVerdict_wf h)))))

/-! ### Releases and acquires -/

theorem sendAtomic_wf {s : State} {wid a} (h : s.mem.wf = true) : (s.sendAtomic wid a).mem.wf = true := by
  unfold State.sendAtomic
  dsimp only
  exact ite_wf (ite_wf (proceed_wf (acquire_wf (ite_wf (foldl_wf (fun _ _ h' => enterOverlapping_wf h') h) (modWave_wf (foldl_wf
    (fun _ _ h' => enterOverlapping_wf h') h))))) (setSt_wf (ite_wf (foldl_wf (fun _ _ h' => enterOverlapping_wf h') h) (modWave_wf
    (foldl_wf (fun _ _ h' => enterOverlapping_wf h') h))))) (proceed_wf (ite_wf (foldl_wf (fun _ _ h' => enterOverlapping_wf h') h)
    (modWave_wf (foldl_wf (fun _ _ h' => enterOverlapping_wf h') h))))

theorem barrierArrive_wf {s : State} {wid off} (h : s.mem.wf = true) : (s.barrierArrive wid off).mem.wf = true := by
  unfold State.barrierArrive
  split
  · exact h
  · split
    · exact meetPoison_wf (setSt_wf h)
    · split
      · exact ite_wf (takeTrap_wf (setSt_wf (of_pair ‹_› (arriveAt_wf h)))) (proceed_wf (of_pair ‹_› (arriveAt_wf h)))

theorem recordOf_wf {s : State} {wid p} (h : s.mem.wf = true) : (s.recordOf wid p).2.mem.wf = true := by
  unfold State.recordOf
  split
  · dsimp only
    exact of_triple ‹_› (load_wf (beforeAccess_wf h))

theorem enqRest_wf {s0 : State} {wid d va p bin} (h : s0.mem.wf = true) : (s0.enqRest wid d va p bin).mem.wf = true := by
  unfold State.enqRest
  dsimp only
  split
  · exact h
  · split
    · exact h
    · split
      · split
        · exact proceed_wf (modTree_wf h)
        · split
          · exact meetPoison_wf (setSt_wf (modTree_wf h))
          · split
            · exact proceed_wf (modWave_wf (modTree_wf h))
            · split
              · exact proceed_wf (modWave_wf (of_pair ‹_› (pickSlotOf_wf (modTree_wf h))))
              · exact proceed_wf (modWave_wf (addRecord_wf (feWrite_wf (takeSlot_wf (recordOf_wf (of_pair ‹_› (pickSlotOf_wf
                  (modTree_wf h))))))))
      · split
        · exact proceed_wf (modTree_wf h)
        · split
          · exact meetPoison_wf (setSt_wf (modTree_wf h))
          · split
            · exact proceed_wf (modWave_wf (modTree_wf h))
            · split
              · exact proceed_wf (modWave_wf (of_pair ‹_› (pickSlotOf_wf (modTree_wf h))))
              · exact proceed_wf (modWave_wf (addRecord_wf (feWrite_wf (takeSlot_wf (recordOf_wf (of_pair ‹_› (pickSlotOf_wf
                  (modTree_wf h))))))))

theorem rewardRest_wf {s : State} {wid d a} (h : s.mem.wf = true) : (s.rewardRest wid d a).mem.wf = true := by
  unfold State.rewardRest
  split
  · exact h
  · split
    · exact proceed_wf h
    · split
      · exact proceed_wf (modWave_wf (of_pair ‹_› (sgReward_wf h)))

theorem runCont_wf {s : State} {wid k} (h : s.mem.wf = true) : (s.runCont wid k).mem.wf = true := by
  unfold State.runCont
  dsimp only
  split
  · exact proceed_wf (acquire_wf h)
  · exact sendAtomic_wf h
  · exact barrierArrive_wf h
  · exact proceed_wf (acquire_wf h)
  · exact proceed_wf (noteReached_wf (modCopy_wf h))
  · exact setSt_wf h
  · exact enqRest_wf h
  · exact rewardRest_wf h
  · exact setSt_wf h

theorem release_wf {s : State} {wid scope k} (h : s.mem.wf = true) : (s.release wid scope k).mem.wf = true := by
  unfold State.release
  split
  · exact h
  · exact ite_wf (runCont_wf (releaseDone_wf h)) (setSt_wf h)

theorem settleRelease_wf {s : State} {wid} (h : s.mem.wf = true) : (s.settleRelease wid).mem.wf = true := by
  unfold State.settleRelease
  split
  · exact h
  · split
    · exact ite_wf (runCont_wf (releaseDone_wf h)) h
    · exact h

theorem settleAcquire_wf {s : State} {wid} (h : s.mem.wf = true) : (s.settleAcquire wid).mem.wf = true := by
  unfold State.settleAcquire
  dsimp only
  split
  · exact h
  · split
    · exact ite_wf h (proceed_wf (acquire_wf h))
    · exact h

/-! ### Loads, stores and atomics -/

theorem glintList_wf {s : State} {w atom wr scope a5} (h : s.mem.wf = true) : (s.glintList w atom wr scope a5).1.mem.wf = true := by
  induction a5 generalizing s w atom wr scope with
  | nil =>
    unfold State.glintList
    exact h
  | cons x l ih =>
    unfold State.glintList
    split
    · split
      · split
        · split
          · dsimp only
            exact of_pair_fst ‹_› (ih (of_pair_fst ‹_› (glintCheck_wf h)))
          · dsimp only
            exact of_pair_fst ‹_› (ih (of_pair_fst ‹_› (glintCheck_wf h)))
    · exact ih h

theorem unlessRace_wf {s : State} {wid w atom wr scope l k} (h : s.mem.wf = true) (hk : ∀ t, t.mem.wf = true → (k t).mem.wf = true) :
    (s.unlessRace wid w atom wr scope l k).mem.wf = true := by
  unfold State.unlessRace
  split
  · exact takeTrap_wf (of_pair_fst ‹_› (glintList_wf h))
  · exact hk _ (of_pair_fst ‹_› (glintList_wf h))

theorem walks_wf {s : State} {wid acc l} (h : s.mem.wf = true) : (s.walks wid acc l).mem.wf = true :=
  of_cacheOnly (cacheOnly_walks ..) h

theorem faultAfter_wf {s : State} {wid w atom wr scope l t} (h : s.mem.wf = true) : WfExcept id (s.faultAfter wid w atom wr scope l t) := by
  unfold State.faultAfter
  dsimp only
  split
  · exact takeTrap_wf (of_pair_fst ‹_› (glintList_wf (walks_wf h)))
  · split
    · trivial
    · exact takeTrap_wf (failedLooks_wf (walks_wf h))

theorem readAll_wf {s : State} {wid a2} (h : s.mem.wf = true) : (s.readAll wid a2).2.mem.wf = true := by
  induction a2 generalizing s wid with
  | nil =>
    unfold State.readAll
    exact h
  | cons x l ih =>
    unfold State.readAll
    split
    · split
      · dsimp only
        exact of_pair ‹_› (ih (of_triple ‹_› (load_wf (beforeAccess_wf h))))

theorem loads_wf {s : State} {wid w l put} (h : s.mem.wf = true) : (s.loads wid w l put).mem.wf = true := by
  unfold State.loads
  refine unlessRace_wf (walks_wf h) fun _ h' => ?_
  split
  · exact meetPoison_wf h'
  · split
    · exact modWave_wf (of_pair ‹_› (readAll_wf h'))

theorem putStore_wf {s : State} {wid p} (h : s.mem.wf = true) : (s.putStore wid p).mem.wf = true := by
  unfold State.putStore
  dsimp only
  split
  · exact modWave_wf (beforeAccess_wf h)
  · exact modWave_wf (beforeAccess_wf h)
  · exact modWave_wf (beforeAccess_wf h)

theorem stores_wf {s : State} {wid w l ps} (h : s.mem.wf = true) : (s.stores wid w l ps).mem.wf = true := by
  unfold State.stores
  exact unlessRace_wf (walks_wf h) (fun _ h' => advance_wf (foldl_wf (fun _ _ h'' => putStore_wf h'') h'))

theorem prefetch_wf {s0 : State} {w va} (h : s0.mem.wf = true) : (s0.prefetch w va).mem.wf = true := by
  unfold State.prefetch
  dsimp only
  split
  · split
    · exact lookUp_wf h
    · exact ite_wf (l1Fill_wf (lookUp_wf h)) (lookUp_wf h)
  · exact h

theorem execSld_wf {sw x a i} {s : State} (h : s.mem.wf = true) : WfStep (execSld sw x a i s) := by
  unfold execSld
  dsimp only
  refine issue_wf h fun _ => ?_
  split
  · trivial
  · split
    · exact advance_wf (prefetch_wf h)
    · split
      · trivial
      · exact loads_wf h

theorem execSst_wf {sw x a i} {s : State} (h : s.mem.wf = true) : WfStep (execSst sw x a i s) := by
  unfold execSst
  dsimp only
  refine issue_wf h fun _ => ?_
  split
  · trivial
  · exact stores_wf h

theorem gather_wf {s : State} {i sw v o b n f} (h : s.mem.wf = true) : WfStep (s.gather i sw v o b n f) := by
  unfold State.gather
  dsimp only
  refine issue_wf h fun _ => ?_
  split
  · exact faultAfter_wf h
  · exact loads_wf h

theorem scatter_wf {s : State} {i sw v o b n} (h : s.mem.wf = true) : WfStep (s.scatter i sw v o b n) := by
  unfold State.scatter
  dsimp only
  refine issue_wf h fun _ => ?_
  split
  · exact faultAfter_wf h
  · exact stores_wf h

theorem loadLine_wf {s : State} {i sw x a block} (h : s.mem.wf = true) : WfStep (s.loadLine i sw x a block) := by
  unfold State.loadLine
  refine issue_wf h fun _ => ?_
  split
  · exact faultAfter_wf h
  · exact loads_wf h

theorem storeLine_wf {s : State} {i sw x a block} (h : s.mem.wf = true) : WfStep (s.storeLine i sw x a block) := by
  unfold State.storeLine
  dsimp only
  refine issue_wf h fun _ => ?_
  split
  · exact faultAfter_wf h
  · exact stores_wf h

theorem performNow_wf {s : State} {wid a x} (h : s.mem.wf = true) : (s.performNow wid a x).2.mem.wf = true := by
  unfold State.performNow
  dsimp only
  split
  · dsimp only
    exact showBytes_wf h
  · exact performAccess_wf (showBytes_wf h)

theorem execVstc_wf {sw x a b} {s : State} (h : s.mem.wf = true) : WfStep (execVstc sw x a b s) := by
  unfold execVstc
  dsimp only
  refine issue_wf h fun _ => ?_
  split
  · trivial
  · split
    · exact advance_wf h
    · split
      · trivial
      · dsimp only [WfExcept]
        refine unlessRace_wf (waveLooks_wf h) fun _ h' => ?_
        split
        · exact meetPoison_wf h'
        · split
          · exact performNow_wf h'
          · split
            · exact unlessRace_wf (failedLooks_wf (walks_wf (performNow_wf h'))) (fun _ h'' => takeTrap_wf h'')
            · exact stores_wf (performNow_wf h')

theorem atomic_wf {s : State} {i op sw o c v w x a} (h : s.mem.wf = true) : WfStep (s.atomic i op sw o c v w x a) := by
  unfold State.atomic
  dsimp only
  refine issue_wf h fun _ => ?_
  split
  · exact faultAfter_wf h
  · dsimp only [WfExcept]
    refine unlessRace_wf (walks_wf h) fun _ h' => ?_
    split
    · exact meetPoison_wf h'
    · exact ite_wf (release_wf h') (sendAtomic_wf h')

/-! ### Synchronisation words -/

theorem execPhase_wf {sw c} {s : State} (h : s.mem.wf = true) : WfStep (execPhase sw c s) := by
  unfold execPhase
  exact issue_wf h (fun _ => release_wf h)

theorem settleObject_wf {s : State} {wid off} (h : s.mem.wf = true) : (s.settleObject wid off).mem.wf = true := by
  unfold State.settleObject
  exact showBytes_wf h

theorem execBarInit_wf {sw a b} {s : State} (h : s.mem.wf = true) : WfStep (execBarInit sw a b s) := by
  unfold execBarInit
  refine issue_wf h fun _ => ?_
  split
  · trivial
  · exact advance_wf (noteReached_wf (modGroup_wf (settleObject_wf h)))

theorem execBarArrive_wf {sw a} {s : State} (h : s.mem.wf = true) : WfStep (execBarArrive sw a s) := by
  unfold execBarArrive
  refine issue_wf h fun _ => ?_
  split
  · trivial
  · exact release_wf h

theorem execBarWait_wf {sw a b} {s : State} (h : s.mem.wf = true) : WfStep (execBarWait sw a b s) := by
  unfold execBarWait
  dsimp only
  refine issue_wf h fun _ => ?_
  split
  · trivial
  · split
    · exact release_wf h
    · exact modWave_wf h

theorem execWsq_wf {sw x a} {s : State} (h : s.mem.wf = true) : WfStep (execWsq sw x a s) := by
  unfold execWsq
  refine issue_wf h fun _ => ?_
  split
  · trivial
  · exact modWave_wf (waveLooks_wf h)

theorem issueIf_wf {s : State} {i : Instr} {f : Form} {array : Option Nat} {body : Nat → Wave → Except TrapInfo State}
    (h : s.mem.wf = true) (hb : ∀ w, WfExcept id (body s.cur w)) : WfStep (s.issueIf i f array body) := by
  unfold State.issueIf
  split
  · trivial
  · split
    · exact setSt_wf h
    · exact issue_wf h hb

theorem showDescriptor_wf {s : State} {wid w off} (h : s.mem.wf = true) : (s.showDescriptor wid w off).mem.wf = true := by
  unfold State.showDescriptor
  dsimp only
  exact orderAtoms_wf (orderAtoms_wf h)

theorem execCopyk_wf {sw a} {s : State} (h : s.mem.wf = true) : WfStep (execCopyk sw a s) := by
  unfold execCopyk
  dsimp only
  refine issueIf_wf h fun _ => ?_
  split
  · trivial
  · trivial
  · dsimp only [WfExcept]
    refine release_wf ?_
    dsimp only
    exact showDescriptor_wf h

theorem execCpq_wf {sw d a} {s : State} (h : s.mem.wf = true) : WfStep (execCpq sw d a s) := by
  unfold execCpq
  exact issue_wf h (fun _ => modWave_wf h)

theorem execPubl_wf {sw n} {s : State} (h : s.mem.wf = true) : WfStep (execPubl sw n s) := by
  unfold execPubl
  dsimp only
  refine issue_wf h fun _ => ?_
  split
  · exact meetPoison_wf (readPb_wf h)
  · split
    · trivial
    · split
      · trivial
      · exact release_wf (readPb_wf h)

/-! ### Matrix words -/

theorem execMma_wf {sw p q c z a} {s : State} (h : s.mem.wf = true) : WfStep (execMma sw p q c z a s) := by
  unfold execMma
  dsimp only
  refine issueIf_wf h fun _ => ?_
  split
  · trivial
  · split
    · trivial
    · split
      · trivial
      · exact advance_wf (enqueueCmd_wf (enterRows_wf h))

theorem execAccz_wf {sw c} {s : State} (h : s.mem.wf = true) : WfStep (execAccz sw c s) := by
  unfold execAccz
  refine issueIf_wf h fun _ => ?_
  split
  · trivial
  · exact advance_wf (enqueueCmd_wf h)

theorem enterLines_wf {s : State} {wid l} (h : s.mem.wf = true) : (s.enterLines wid l).mem.wf = true := by
  unfold State.enterLines
  exact foldl_wf (fun _ _ h' => showBytes_wf (waveLooks_wf h')) h

theorem execAccld_wf {sw c a b} {s : State} (h : s.mem.wf = true) : WfStep (execAccld sw c a b s) := by
  unfold execAccld
  dsimp only
  refine issueIf_wf h fun _ => ?_
  split
  · split
    · trivial
    · split
      · trivial
      · exact takeTrap_wf (failedLooks_wf (foldl_wf (fun _ _ h' => waveLooks_wf h') h))
  · exact advance_wf (enqueueCmd_wf (enterLines_wf h))

theorem glintRows_wf {s : State} {w a2} (h : s.mem.wf = true) : (s.glintRows w a2).1.mem.wf = true := by
  induction a2 generalizing s w with
  | nil =>
    unfold State.glintRows
    exact h
  | cons x l ih =>
    unfold State.glintRows
    split
    · split
      · split
        · dsimp only
          exact of_pair_fst ‹_› (ih (of_pair_fst ‹_› (glintList_wf h)))
        · dsimp only
          exact of_pair_fst ‹_› (ih (of_pair_fst ‹_› (glintList_wf h)))

theorem rowFault_wf {s : State} {wid w a b bytes t} (h : s.mem.wf = true) : WfExcept id (s.rowFault wid w a b bytes t) := by
  unfold State.rowFault
  dsimp only
  split
  · trivial
  · split
    · exact takeTrap_wf (of_pair_fst ‹_› (glintRows_wf (walks_wf h)))
    · exact takeTrap_wf (failedLooks_wf (walks_wf h))

theorem storeRows_wf {s : State} {wid w acc rows f} (h : s.mem.wf = true) : (s.storeRows wid w acc rows f).mem.wf = true := by
  unfold State.storeRows
  split
  · exact meetPoison_wf h
  · split
    · exact takeTrap_wf (of_pair_fst ‹_› (glintRows_wf (walks_wf h)))
    · exact advance_wf (foldl_wf (fun _ _ h' => putStore_wf h') (of_pair_fst ‹_› (glintRows_wf (walks_wf h))))

theorem execAccst_wf {sw c a b} {s : State} (h : s.mem.wf = true) : WfStep (execAccst sw c a b s) := by
  unfold execAccst
  refine issue_wf h fun _ => ?_
  split
  · exact rowFault_wf h
  · exact storeRows_wf h

theorem execAcccvt_wf {sw c a b f} {s : State} (h : s.mem.wf = true) : WfStep (execAcccvt sw c a b f s) := by
  unfold execAcccvt
  refine issue_wf h fun _ => ?_
  split
  · exact rowFault_wf h
  · exact storeRows_wf h

theorem execMwait_wf {sw c} {s : State} (h : s.mem.wf = true) : WfStep (execMwait sw c s) := by
  unfold execMwait
  dsimp only
  refine issue_wf h fun _ => ?_
  split
  · trivial
  · split
    · exact advance_wf h
    · exact setSt_wf h

/-! ### Hypervector words -/

theorem hyperFault_wf {s : State} {wid w wr va t} (h : s.mem.wf = true) : WfExcept id (s.hyperFault wid w wr va t) := by
  unfold State.hyperFault
  split
  · trivial
  · exact faultAfter_wf h

theorem execHvld_wf {sw a y} {s : State} (h : s.mem.wf = true) : WfStep (execHvld sw a y s) := by
  unfold execHvld
  refine issue_wf h fun _ => ?_
  split
  · exact hyperFault_wf h
  · exact loads_wf h

theorem execHvst_wf {sw a y} {s : State} (h : s.mem.wf = true) : WfStep (execHvst sw a y s) := by
  unfold execHvst
  refine issue_wf h fun _ => ?_
  split
  · exact hyperFault_wf h
  · exact stores_wf h

theorem mirrorFinish_wf {s : State} {wid x m} (h : s.mem.wf = true) : (s.mirrorFinish wid x m).mem.wf = true := h

theorem entryBytes_wf {s : State} {wid w va a4} (h : s.mem.wf = true) : (s.entryBytes wid w va a4).2.mem.wf = true := by
  induction a4 generalizing s wid w va with
  | zero =>
    unfold State.entryBytes
    exact h
  | succ n ih =>
    unfold State.entryBytes
    dsimp only
    split
    · split
      · dsimp only
        exact waveLooks_wf (ih h)
      · dsimp only
        exact freeBytes_wf (waveLooks_wf (ih h))
    · dsimp only
      exact load_wf (beforeAccess_wf (waveLooks_wf (ih h)))

theorem mirrorStep_wf {s : State} {wid} (h : s.mem.wf = true) : (s.mirrorStep wid).mem.wf = true := by
  unfold State.mirrorStep
  dsimp only
  split
  · exact h
  · split
    · split
      · exact mirrorFinish_wf h
      · split
        · exact meetPoison_wf (modWave_wf h)
        · exact ite_wf (mirrorFinish_wf (entryBytes_wf h)) (setSt_wf (entryBytes_wf h))
    · exact h

theorem tableLooks_wf {s : State} {w va n} (h : s.mem.wf = true) : (s.tableLooks w va n).mem.wf = true := by
  unfold State.tableLooks
  split
  · exact lookUps_wf h
  · exact h

theorem mirrorSteps_wf {s : State} {wid a2} (h : s.mem.wf = true) : (s.mirrorSteps wid a2).mem.wf = true := by
  induction a2 generalizing s wid with
  | zero =>
    unfold State.mirrorSteps
    exact h
  | succ n ih =>
    unfold State.mirrorSteps
    exact ih (mirrorStep_wf h)

theorem execHvnear_wf {sw a x y} {s : State} (h : s.mem.wf = true) : WfStep (execHvnear sw a x y s) := by
  unfold execHvnear
  dsimp only
  refine issue_wf h fun _ => ?_
  split
  · exact takeTrap_wf (modWave_wf (failedLooks_wf h))
  · split
    · exact mirrorFinish_wf (modWave_wf (tableLooks_wf h))
    · exact modWave_wf (tableLooks_wf h)

/-! ### ENQ and the words of sample groups -/

theorem execEnq_wf {sw d a b} {s : State} (h : s.mem.wf = true) : WfStep (execEnq sw d a b s) := by
  unfold execEnq
  dsimp only
  refine issue_wf h fun _ => ?_
  split
  · trivial
  · split
    · trivial
    · split
      · trivial
      · split
        · trivial
        · exact unlessRace_wf (waveLooks_wf h) (fun _ h' => release_wf (modTree_wf h'))

theorem forkRecords_wf {s : State} {c bin num gen tree depth bs a8} (h : s.mem.wf = true) :
    (s.forkRecords c bin num gen tree depth bs a8).mem.wf = true := by
  induction a8 generalizing s c bin num gen tree depth bs with
  | zero =>
    unfold State.forkRecords
    exact h
  | succ n ih =>
    unfold State.forkRecords
    dsimp only
    split
    · exact of_pair ‹_› (pickSlotOf_wf (ih h))
    · exact addRecord_wf (feWrite_wf (takeSlot_wf (of_pair ‹_› (pickSlotOf_wf (ih h)))))

theorem fork_wf {s : State} {c g n bin timeout eps bs} (h : s.mem.wf = true) : (s.fork c g n bin timeout eps bs).2.mem.wf = true := by
  unfold State.fork
  cases s.ctxs[c]? <;>
  · dsimp only
    split
    · exact h
    · split
      · exact h
      · split
        · exact h
        · exact forkRecords_wf (modCtx_wf h)

theorem execSgfork_wf {sw d a b} {s : State} (h : s.mem.wf = true) : WfStep (execSgfork sw d a b s) := by
  unfold execSgfork
  dsimp only
  refine issue_wf h fun _ => ?_
  split
  · trivial
  · split
    · trivial
    · split
      · trivial
      · exact unlessRace_wf (waveLooks_wf h) (fun _ h' => ite_wf (meetPoison_wf h') (modWave_wf (fork_wf (load_wf (beforeAccess_wf h')))))
      · exact advance_wf h

theorem execSgreward_wf {sw d a} {s : State} (h : s.mem.wf = true) : WfStep (execSgreward sw d a s) := by
  unfold execSgreward
  dsimp only
  refine issue_wf h fun _ => ?_
  split
  · trivial
  · exact release_wf h

theorem sgWaitLook_wf {s0 : State} {wid d w r} (h : s0.mem.wf = true) : WfOption id (s0.sgWaitLook wid d w r) := by
  unfold State.sgWaitLook
  dsimp only
  split
  · exact proceed_wf (acquire_wf (modWave_wf (sgExpire_wf h)))
  · split
    · exact proceed_wf (acquire_wf (modWave_wf (sgExpire_wf h)))
    · split
      · exact proceed_wf (acquire_wf (modWave_wf (sgExpire_wf h)))
      · split
        · exact proceed_wf (modWave_wf (sgExpire_wf h))
        · trivial

theorem execSgwait_wf {sw d} {s : State} (h : s.mem.wf = true) : WfStep (execSgwait sw d s) := by
  unfold execSgwait
  refine issue_wf h fun _ => ?_
  split
  · trivial
  · split
    · exact of_some ‹_› (sgWaitLook_wf h)
    · exact setSt_wf h

theorem sgWaitPoll_wf {s : State} {wid} (h : s.mem.wf = true) : (s.sgWaitPoll wid).mem.wf = true := by
  unfold State.sgWaitPoll
  split
  · exact h
  · split
    · exact getD_wf (sgWaitLook_wf h) h
    · exact h

theorem execSgcancel_wf {sw a} {s : State} (h : s.mem.wf = true) : WfStep (execSgcancel sw a s) := by
  unfold execSgcancel
  dsimp only
  refine issue_wf h fun _ => ?_
  split
  · trivial
  · split
    · trivial
    · exact sgCancel_wf (advance_wf h)

theorem execSgquery_wf {sw d a} {s : State} (h : s.mem.wf = true) : WfStep (execSgquery sw d a s) := by
  unfold execSgquery
  dsimp only
  refine issue_wf h fun _ => ?_
  split
  · trivial
  · split
    · trivial
    · exact modWave_wf (sgExpire_wf h)

/-! ### Fetching -/

theorem fetchLooks_wf {s : State} {w va} (h : s.mem.wf = true) : (s.fetchLooks w va).mem.wf = true := by
  unfold State.fetchLooks
  exact lookUp_wf h

theorem fillICache_wf {s : State} {w va x} (h : s.mem.wf = true) : (s.fillICache w va x).mem.wf = true :=
  of_cacheOnly (ScalarControl.cacheOnly_fillICache ..) h

theorem prefetchLine_wf {s : State} {w va} (h : s.mem.wf = true) : (s.prefetchLine w va).mem.wf = true := by
  unfold State.prefetchLine
  split
  · exact h
  · split
    · exact h
    · exact ite_wf h (fillICache_wf (fetchLooks_wf h))

theorem fetch_wf {s : State} {w : Wave} (h : s.mem.wf = true) : WfFetched (s.fetch w) := by
  unfold State.fetch
  split
  · trivial
  · split
    · trivial
    · split
      · exact h
      · split
        · exact fetchLooks_wf h
        · split
          · trivial
          · exact fillICache_wf (fetchLooks_wf h)

theorem execInstructionFetch_wf {w} {s : State} (h : s.mem.wf = true) : WfStep (execInstructionFetch w s) := by
  unfold execInstructionFetch
  split
  · exact h
  · split
    · split
      · exact takeTrap_wf (failedLooks_wf h)
      · exact meetPoison_wf h
      · exact modWave_wf (of_word ‹_› (fetch_wf h))
    · exact h

theorem execInstructionCacheFill_wf {core c va} {s : State} (h : s.mem.wf = true) : WfStep (execInstructionCacheFill core c va s) := by
  unfold execInstructionCacheFill
  dsimp only [WfStep]
  split
  · exact prefetchLine_wf h
  · exact h

/-! ### System words -/

theorem execEndWave_wf {sw} {s : State} (h : s.mem.wf = true) : WfStep (execEndWave sw s) := by
  unfold execEndWave
  exact issue_wf h (fun _ => release_wf (modWave_wf (drainAtoms_wf h)))

theorem execSrdp_wf {sw x i} {s : State} (h : s.mem.wf = true) : WfStep (execSrdp sw x i s) := by
  unfold execSrdp
  refine issue_wf h fun _ => ?_
  split
  · trivial
  · exact modWave_wf h

theorem execSwrp_wf {sw x i} {s : State} (h : s.mem.wf = true) : WfStep (execSwrp sw x i s) := by
  unfold execSwrp
  refine issue_wf h fun _ => ?_
  split
  · exact advance_wf (modCore_wf h)
  · trivial

theorem execIcinv_wf {sw} {s : State} (h : s.mem.wf = true) : WfStep (execIcinv sw s) := by
  unfold execIcinv
  exact issue_wf h (fun _ => advance_wf (allWaves_wf (allCores_wf h)))

theorem execTlbinv_wf {sw x} {s : State} (h : s.mem.wf = true) : WfStep (execTlbinv sw x s) := by
  unfold execTlbinv
  dsimp only
  refine issue_wf h fun _ => ?_
  split
  · trivial
  · split
    · exact advance_wf (staleKept_wf (dropXlats_wf h))
    · exact setSt_wf (staleKept_wf (dropXlats_wf h))

theorem execWkill_wf {sw x} {s : State} (h : s.mem.wf = true) : WfStep (execWkill sw x s) := by
  unfold execWkill
  dsimp only
  refine issue_wf h fun _ => ?_
  split
  · trivial
  · split
    · exact advance_wf h
    · split
      · exact advance_wf (modWave_wf h)
      · exact setSt_wf (modWave_wf h)

theorem execWresume_wf {sw x} {s : State} (h : s.mem.wf = true) : WfStep (execWresume sw x s) := by
  unfold execWresume
  refine issue_wf h fun _ => ?_
  split
  · trivial
  · split
    · exact advance_wf h
    · exact advance_wf (modWave_wf h)

theorem execHalt_wf {sw} {s : State} (h : s.mem.wf = true) : WfStep (execHalt sw s) := by
  unfold execHalt
  exact issue_wf h (fun _ => setSt_wf (advance_wf (modWave_wf (drainAtoms_wf h))))

theorem execAcrd_wf {sw x d c} {s : State} (h : s.mem.wf = true) : WfStep (execAcrd sw x d c s) := by
  unfold execAcrd
  refine issue_wf h fun _ => ?_
  split
  · trivial
  · exact modWave_wf h

theorem execIpref_wf {sw n o} {s : State} (h : s.mem.wf = true) : WfStep (execIpref sw n o s) := by
  unfold execIpref
  exact issue_wf h (fun _ => advance_wf (foldl_wf (fun _ _ h' => prefetchLine_wf h') h))

/-! ### Events of memory and registers -/

theorem execResultWrite_wf {w k units} {s : State} (h : s.mem.wf = true) : WfStep (execResultWrite w k units s) := by
  unfold execResultWrite
  exact settleAcquire_wf (modWave_wf h)

theorem execAtomicPerform_wf {w lane} {s : State} (h : s.mem.wf = true) : WfStep (execAtomicPerform w lane s) := by
  unfold execAtomicPerform
  split
  · exact h
  · split
    · exact h
    · exact settleAcquire_wf (performAtomic_wf h)

theorem execStoreEntersCoherenceOrder_wf {w k} {s : State} (h : s.mem.wf = true) : WfStep (execStoreEntersCoherenceOrder w k s) := by
  unfold execStoreEntersCoherenceOrder
  split
  · exact h
  · split
    · exact ite_step_wf (settleRelease_wf (releaseStore_wf h)) h
    · exact h

theorem execLlcFill_wf {pa} {s : State} (h : s.mem.wf = true) : WfStep (execLlcFill pa s) := by
  unfold execLlcFill
  exact ite_wf (llcFill_wf h) h

theorem execLlcWriteBack_wf {pa} {s : State} (h : s.mem.wf = true) : WfStep (execLlcWriteBack pa s) := by
  unfold execLlcWriteBack
  exact ite_wf (llcDrop_wf h) h

theorem execPageWalk_wf {core c va} {s : State} (h : s.mem.wf = true) : WfStep (execPageWalk core c va s) := by
  unfold execPageWalk
  dsimp only [WfStep]
  split
  · exact h
  · split
    · exact h
    · exact fillTlbs_wf (foldl_wf (fun _ _ h' => homeAccess_wf h') h)

theorem tick_wf {s : State} {q fe} (h : s.mem.wf = true) : (s.tick q fe).mem.wf = true := by
  unfold State.tick
  dsimp only
  refine foldl_wf ?_ h
  intro _ _ h'
  split
  · exact ite_wf (account_wf h') h'
  · exact h'

theorem execWsRefreshWindowEnd_wf {q} {s : State} (h : s.mem.wf = true) : WfStep (execWsRefreshWindowEnd q s) := by
  unfold execWsRefreshWindowEnd
  dsimp only [WfStep]
  split
  · exact tick_wf h
  · exact h

theorem writeRegion_wf {s : State} {q k f} (h : s.mem.wf = true) : (s.writeRegion q k f).mem.wf = true := by
  unfold State.writeRegion
  dsimp only
  split
  · exact h
  · exact ite_wf h (modQuad_wf h)

theorem writeBase_wf {s : State} {q r v} (h : s.mem.wf = true) : (s.writeBase q r v).mem.wf = true := by
  unfold State.writeBase
  exact writeRegion_wf h

theorem writeLimit_wf {s : State} {q r v} (h : s.mem.wf = true) : (s.writeLimit q r v).mem.wf = true := by
  unfold State.writeLimit
  exact writeRegion_wf h

theorem writeScale_wf {s : State} {q r v} (h : s.mem.wf = true) : (s.writeScale q r v).mem.wf = true := by
  unfold State.writeScale
  exact writeRegion_wf h

theorem writeCtl_wf {s : State} {q r v} (h : s.mem.wf = true) : (s.writeCtl q r v).mem.wf = true := by
  unfold State.writeCtl
  dsimp only
  exact writeRegion_wf h

theorem applyChange_wf {s : State} {c} (h : s.mem.wf = true) : (s.applyChange c).mem.wf = true := by
  unfold State.applyChange
  dsimp only
  exact applyRegion_wf h

theorem execRegionChangeApply_wf {q r} {s : State} (h : s.mem.wf = true) : WfStep (execRegionChangeApply q r s) := by
  unfold execRegionChangeApply
  dsimp only [WfStep]
  split
  · exact applyChange_wf h
  · exact h

theorem mcWrite_wf {s : State} {q off v} (h : s.mem.wf = true) : (s.mcWrite q off v).mem.wf = true := by
  unfold State.mcWrite
  dsimp only
  split
  · exact modQuad_wf h
  · split
    · split
      · exact writeBase_wf h
      · exact writeLimit_wf h
      · exact writeScale_wf h
      · exact writeCtl_wf h
      · exact h
    · exact h

theorem execRegisterWrite_wf {off v} {s : State} (h : s.mem.wf = true) : WfStep (execRegisterWrite off v s) := by
  unfold execRegisterWrite
  exact ite_wf h (ite_wf h (ite_wf h (ite_wf (ite_wf h h) (ite_wf (ite_wf h h) (ite_wf (ite_wf (doorbell_wf h) h) (ite_wf
    (mcWrite_wf h) h))))))

/-! ### Events of the front end -/

theorem execPad_wf {c r} {s : State} (h : s.mem.wf = true) : WfStep (execPad c r s) := by
  unfold execPad
  exact serve_wf h (fun _ _ _ _ h' => completePacket_wf (takePacket_wf h'))

theorem execKernel_wf {c r} {s : State} (h : s.mem.wf = true) : WfStep (execKernel c r s) := by
  unfold execKernel
  dsimp only [WfStep]
  refine serve_wf h fun _ _ _ _ h' => ?_
  split
  · exact h'
  · exact launch_wf (takePacket_wf h')

theorem execGraph_wf {c r} {s : State} (h : s.mem.wf = true) : WfStep (execGraph c r s) := by
  unfold execGraph
  dsimp only [WfStep]
  refine serve_wf h fun _ _ _ _ h' => ?_
  split
  · exact unitLost_wf h'
  · exact viaCap_wf h' (fun _ h'' => viaCap_wf h'' (fun _ h''' => beginGraph_wf (takePacket_wf h''')))

theorem execCopy_wf {c r core} {s : State} (h : s.mem.wf = true) : WfStep (execCopy c r core s) := by
  unfold execCopy
  dsimp only [WfStep]
  refine serve_wf h fun _ _ _ _ h' => ?_
  split
  · exact completePacket_wf (takePacket_wf h')
  · split
    · dsimp only
      exact takePacket_wf h'
    · exact h'

theorem execWaitValue_wf {c r} {s : State} (h : s.mem.wf = true) : WfStep (execWaitValue c r s) := by
  unfold execWaitValue
  exact serve_wf h (fun _ _ _ _ h' => rereadPacket_wf (takePacket_wf h'))

theorem execWaitValueReread_wf {c r} {s : State} (h : s.mem.wf = true) : WfStep (execWaitValueReread c r s) := by
  unfold execWaitValueReread
  dsimp only [WfStep]
  split
  · exact ite_wf (foldl_wf (fun _ _ h' => rereadPacket_wf h') h) h
  · exact h

theorem signalPacket_wf {s : State} {c r add} (h : s.mem.wf = true) : (s.signalPacket c r add).mem.wf = true := by
  unfold State.signalPacket
  split
  · exact ite_wf (performSignal_wf h) h
  · exact serve_wf h (fun _ _ _ _ h' => ite_wf h' (performSignal_wf (takePacket_wf h')))

theorem execSignal_wf {c r} {s : State} (h : s.mem.wf = true) : WfStep (execSignal c r s) := by
  unfold execSignal
  exact signalPacket_wf h

theorem execSignalAdd_wf {c r} {s : State} (h : s.mem.wf = true) : WfStep (execSignalAdd c r s) := by
  unfold execSignalAdd
  exact signalPacket_wf h

theorem execPublish_wf {c r} {s : State} (h : s.mem.wf = true) : WfStep (execPublish c r s) := by
  unfold execPublish
  dsimp only [WfStep]
  refine serve_wf h fun _ _ _ _ h' => ?_
  split
  · exact unitLost_wf h'
  · exact ite_wf (takePacket_wf (readPb_wf h')) (completePacket_wf (takePacket_wf (readPb_wf h')))

theorem checkpointPacket_wf {s : State} {c r save} (h : s.mem.wf = true) : (s.checkpointPacket c r save).mem.wf = true := by
  unfold State.checkpointPacket
  exact serve_wf h (fun _ _ _ _ h' => ite_wf h' (requestClose_wf (takePacket_wf h')))

theorem execCheckpointClose_wf {c r} {s : State} (h : s.mem.wf = true) : WfStep (execCheckpointClose c r s) := by
  unfold execCheckpointClose
  exact checkpointPacket_wf h

theorem execCheckpointStopSave_wf {c r} {s : State} (h : s.mem.wf = true) : WfStep (execCheckpointStopSave c r s) := by
  unfold execCheckpointStopSave
  exact checkpointPacket_wf h

theorem execLaunchComplete_wf {l} {s : State} (h : s.mem.wf = true) : WfStep (execLaunchComplete l s) := by
  unfold execLaunchComplete
  exact closeTree_wf h

theorem execBinTimerExpiry_wf {c b} {s : State} (h : s.mem.wf = true) : WfStep (execBinTimerExpiry c b s) := by
  unfold execBinTimerExpiry
  exact binExpire_wf h

theorem place_wf {s0 : State} {c cores} (h : s0.mem.wf = true) : (s0.place c cores).mem.wf = true := by
  unfold State.place
  dsimp only
  split
  · split
    · refine settleRestore_wf ?_
      dsimp only
      exact seatGroup_wf (homeLooks_wf h)
    · exact h
  · split
    · exact placeNew_wf (homeLooks_wf h)
    · exact h

theorem execGroupPlace_wf {s : State} (h : s.mem.wf = true) : WfStep (execGroupPlace s) := by
  unfold execGroupPlace
  dsimp only
  dsimp only [WfStep]
  split
  · exact noteSpanWait_wf (seekTables_wf h)
  · exact charging_wf (noteSpanWait_wf (seekTables_wf h)) (fun _ h' => place_wf h')

theorem execGroupStart_wf {g} {s : State} (h : s.mem.wf = true) : WfStep (execGroupStart g s) := by
  unfold execGroupStart
  dsimp only [WfStep]
  split
  · exact ite_wf (startGroup_wf h) h
  · exact h

theorem execGroupPark_wf {g} {s : State} (h : s.mem.wf = true) : WfStep (execGroupPark g s) := by
  unfold execGroupPark
  exact parkGroup_wf h

theorem execSgwaitSpinExpiry_wf {w} {s0 : State} (h : s0.mem.wf = true) : WfStep (execSgwaitSpinExpiry w s0) := by
  unfold execSgwaitSpinExpiry
  dsimp only
  dsimp only [WfStep]
  split
  · split
    · split
      · exact ite_wf (requestPark_wf (setSt_wf (ite_wf (sgWaitPoll_wf h) h))) (ite_wf (sgWaitPoll_wf h) h)
      · exact ite_wf (requestPark_wf (setSt_wf h)) h
    · split
      · exact ite_wf (sgWaitPoll_wf h) h
      · exact h
  · split
    · exact ite_wf (sgWaitPoll_wf h) h
    · exact h

theorem execSgoTimeout_wf {c o} {s : State} (h : s.mem.wf = true) : WfStep (execSgoTimeout c o s) := by
  unfold execSgoTimeout
  dsimp only [WfStep]
  split
  · split
    · exact ite_wf (sgTimeout_wf h) h
    · exact h
  · exact h

/-! ### Events of waves, copies and arrays -/

theorem execTrapEntry_wf {w} {s : State} (h : s.mem.wf = true) : WfStep (execTrapEntry w s) := by
  unfold execTrapEntry
  dsimp only [WfStep]
  split
  · exact ite_wf (takeHeld_wf h) h
  · exact h

theorem execBoundaryTrap_wf {w} {s : State} (h : s.mem.wf = true) : WfStep (execBoundaryTrap w s) := by
  unfold execBoundaryTrap
  dsimp only [WfStep]
  split
  · exact ite_wf (boundaryTrap_wf h) h
  · exact h

theorem execWaveKill_wf {w} {s : State} (h : s.mem.wf = true) : WfStep (execWaveKill w s) := by
  unfold execWaveKill
  dsimp only [WfStep]
  split
  · exact ite_wf (settleFaulted_wf (killWave_wf h)) h
  · exact h

theorem execWaveStop_wf {w k} {s : State} (h : s.mem.wf = true) : WfStep (execWaveStop w k s) := by
  unfold execWaveStop
  dsimp only [WfStep]
  split
  · exact h
  · exact ite_wf (settleFaulted_wf (modWave_wf (mirrorSteps_wf (modWave_wf (drainAtoms_wf h))))) h

theorem execBarWaitComplete_wf {w} {s : State} (h : s.mem.wf = true) : WfStep (execBarWaitComplete w s) := by
  unfold execBarWaitComplete
  dsimp only [WfStep]
  split
  · exact h
  · split
    · exact ite_wf h (ite_wf (release_wf (setSt_wf h)) (ite_wf (meetPoison_wf (setSt_wf h)) h))
    · exact h

theorem endHostCopy_wf {s : State} {q status detail addr} (h : s.mem.wf = true) : (s.endHostCopy q status detail addr).mem.wf = true := by
  unfold State.endHostCopy
  split
  · exact retryNodes_wf (completePacket_wf h)
  · exact tryEnd_wf h

theorem execCopyRequestStart_wf {core} {s : State} (h : s.mem.wf = true) : WfStep (execCopyRequestStart core s) := by
  unfold execCopyRequestStart
  exact ite_wf h (startCopy_wf h)

theorem execCopyPieceLand_wf {q n} {s : State} (h : s.mem.wf = true) : WfStep (execCopyPieceLand q n s) := by
  unfold execCopyPieceLand
  dsimp only [WfStep]
  split
  · exact h
  · split
    · split
      · exact ite_wf (endHostCopy_wf (workDone_wf (landPiece_wf h))) (workDone_wf (landPiece_wf h))
      · exact workDone_wf (landPiece_wf h)
    · exact h

theorem execCopyRequestFail_wf {q} {s : State} (h : s.mem.wf = true) : WfStep (execCopyRequestFail q s) := by
  unfold execCopyRequestFail
  dsimp only [WfStep]
  split
  · exact ite_wf (ite_wf (rollbackFor_wf h) (endHostCopy_wf (failCopy_wf (ite_wf (draw_wf h) h)))) h
  · exact h

theorem execCopyRequestCancel_wf {q} {s : State} (h : s.mem.wf = true) : WfStep (execCopyRequestCancel q s) := by
  unfold execCopyRequestCancel
  dsimp only [WfStep]
  split
  · exact ite_wf (ite_wf (retryNodes_wf (modCopy_wf h)) (tryEnd_wf (modCopy_wf h))) h
  · exact h

theorem execFollowOnIssue_wf {q} {s : State} (h : s.mem.wf = true) : WfStep (execFollowOnIssue q s) := by
  unfold execFollowOnIssue
  dsimp only [WfStep]
  split
  · exact ite_wf (tryEnd_wf (issueFollow_wf h)) h
  · exact h

theorem endPubls_wf {s : State} {c n} (h : s.mem.wf = true) : (s.endPubls c n).mem.wf = true := by
  unfold State.endPubls
  exact foldl_wf (fun _ _ h' => proceed_wf h') h

theorem execPublishStep_wf {c n} {s : State} (h : s.mem.wf = true) : WfStep (execPublishStep c n s) := by
  unfold execPublishStep
  dsimp only [WfStep]
  exact ite_wf (foldl_wf (fun _ _ h' => completePacket_wf h') (endPubls_wf (ite_wf (publishStep_wf h) h))) h

theorem afterArray_wf {s : State} {core a kinds r} (h : s.mem.wf = true) (hr : WfExcept id r) :
    (s.afterArray core a kinds r).mem.wf = true := by
  unfold State.afterArray
  split
  · refine ite_wf h ?_
    split
    · rename_i s1
      exact tryEnd_wf (workDone_wf (s := s1) hr)
    · exact ite_wf (rollbackFor_wf h) (tryEnd_wf (enginePoison_wf (finishCmd_wf h)))
  · exact h

theorem execArrayPass_wf {core a} {s : State} (h : s.mem.wf = true) : WfStep (execArrayPass core a s) := by
  unfold execArrayPass
  exact afterArray_wf h (arrayPass_wf h)

theorem execAcczRun_wf {core a} {s : State} (h : s.mem.wf = true) : WfStep (execAcczRun core a s) := by
  unfold execAcczRun
  exact afterArray_wf h (acczRun_wf h)

theorem execAccldRun_wf {core a} {s : State} (h : s.mem.wf = true) : WfStep (execAccldRun core a s) := by
  unfold execAccldRun
  exact afterArray_wf h (accldRun_wf h)

/-! ### Events of Afterglow and of errors -/

theorem execIntervalClose_wf {c} {s : State} (h : s.mem.wf = true) : WfStep (execIntervalClose c s) := by
  unfold execIntervalClose
  exact beginClose_wf h

theorem execCutCapture_wf {c} {s : State} (h : s.mem.wf = true) : WfStep (execCutCapture c s) := by
  unfold execCutCapture
  exact cut_wf h

theorem execCkptintvExpiry_wf {c} {s : State} (h : s.mem.wf = true) : WfStep (execCkptintvExpiry c s) := by
  unfold execCkptintvExpiry
  dsimp only [WfStep]
  split
  · exact ite_wf (modCtx_wf (requestClose_wf h)) h
  · exact h

theorem execAgStreamItem_wf {c k} {s : State} (h : s.mem.wf = true) : WfStep (execAgStreamItem c k s) := by
  unfold execAgStreamItem
  exact streamItem_wf h

theorem execAgCommit_wf {c} {s : State} (h : s.mem.wf = true) : WfStep (execAgCommit c s) := by
  unfold execAgCommit
  exact commit_wf h

theorem execAgPendUpdate_wf {c} {s : State} (h : s.mem.wf = true) : WfStep (execAgPendUpdate c s) := by
  unfold execAgPendUpdate
  dsimp only [WfStep]
  split
  · exact ite_wf (updatePend_wf h) h
  · exact h

theorem countCs_wf {s : State} {c} (h : s.mem.wf = true) : (s.countCs c).mem.wf = true := h

theorem execEccCorrectable_wf {u} {s : State} (h : s.mem.wf = true) : WfStep (execEccCorrectable u s) := by
  unfold execEccCorrectable
  dsimp only [WfStep]
  split
  · exact h
  · split
    · exact countCs_wf (lifeAdd_wf h)
    · exact ite_wf (countCs_wf (lifeAdd_wf h)) (lifeAdd_wf h)
    · exact lifeAdd_wf h

theorem dropClean_wf {s : State} {u} (h : s.mem.wf = true) : (s.dropClean u).mem.wf = true := by
  unfold State.dropClean
  dsimp only
  split
  · exact llcDrop_wf h
  · exact modCore_wf (loseCopies_wf h)
  · exact h

theorem poisonUnit_wf {s : State} {u} (h : s.mem.wf = true) : (s.poisonUnit u).mem.wf = true := by
  unfold State.poisonUnit
  split
  · exact h
  · split
    · exact h
    · exact h

theorem execEccUncorrectable_wf {u} {s : State} (h : s.mem.wf = true) : WfStep (execEccUncorrectable u s) := by
  unfold execEccUncorrectable
  dsimp only [WfStep]
  split
  · exact h
  · exact beginTest_wf (dropClean_wf (countError_wf h))
  · exact beginTest_wf (poisonUnit_wf (countError_wf h))

theorem execLogicError_wf {u} {s : State} (h : s.mem.wf = true) : WfStep (execLogicError u s) := by
  unfold execLogicError
  exact ite_wf (beginTest_wf (countError_wf h)) h

theorem execLinkFlitRetry_wf {link} {s : State} (h : s.mem.wf = true) : WfStep (execLinkFlitRetry link s) := by
  unfold execLinkFlitRetry
  dsimp only [WfStep]
  exact ite_wf (beginTest_wf h) h

theorem execSelfTestVerdict_wf {k ok} {s : State} (h : s.mem.wf = true) : WfStep (execSelfTestVerdict k ok s) := by
  unfold execSelfTestVerdict
  exact verdict_wf h

/-! ### Images from the tier -/

theorem makeRoom_wf {s : State} {c img} (h : s.mem.wf = true) : (s.makeRoom c img).mem.wf = true := h

theorem holdRings_wf {s : State} {c first} (h : s.mem.wf = true) : (s.holdRings c first).mem.wf = true := by
  unfold State.holdRings
  exact foldl_wf (fun _ _ h' => grant_wf h') h

theorem renumber_wf {s : State} {c num} (h : s.mem.wf = true) : (s.renumber c num).mem.wf = true := by
  unfold State.renumber
  dsimp only
  split
  · exact h
  · dsimp only
    exact modCtx_wf h

theorem adopt_wf {s0 : State} {c t} (h : s0.mem.wf = true) : (s0.adopt c t).mem.wf = true := by
  unfold State.adopt
  dsimp only
  exact modCtx_wf (holdRings_wf (makeRoom_wf (renumber_wf h)))

/-! ### Events of the device -/

theorem outsideAccess_wf {s : State} {die op} (h : s.mem.wf = true) : (s.outsideAccess die op).mem.wf = true := by
  unfold State.outsideAccess
  dsimp only
  split
  · exact ite_wf (foldl_wf (fun _ _ h' => homeAccess_wf h') h) h
  · exact ite_wf (agentWrites_wf h) h
  · exact ite_wf (ite_wf (enterPhys_wf (homeAccess_wf h)) (homeAccess_wf h)) h

theorem execHostHdmAccess_wf {op} {s : State} (h : s.mem.wf = true) : WfStep (execHostHdmAccess op s) := by
  unfold execHostHdmAccess
  exact ite_wf (outsideAccess_wf h) h

theorem execPeerRequest_wf {p op} {s : State} (h : s.mem.wf = true) : WfStep (execPeerRequest p op s) := by
  unfold execPeerRequest
  exact ite_wf (outsideAccess_wf h) h

theorem endPeerAtoms_wf {s : State} {p wid a3} (h : s.mem.wf = true) : (s.endPeerAtoms p wid a3).mem.wf = true := by
  induction a3 generalizing s p wid with
  | zero =>
    unfold State.endPeerAtoms
    exact h
  | succ n ih =>
    unfold State.endPeerAtoms
    split
    · exact ih (performAtomic_wf h)
    · exact h

theorem losePeer_wf {s : State} {p wid} (h : s.mem.wf = true) : (s.losePeer p wid).mem.wf = true := by
  unfold State.losePeer
  dsimp only
  split
  · exact h
  · exact settleRelease_wf (settleAcquire_wf (modWave_wf (endPeerAtoms_wf (modWave_wf h))))

theorem peerLost_wf {s : State} {p} (h : s.mem.wf = true) : (s.peerLost p).mem.wf = true := by
  unfold State.peerLost
  dsimp only
  exact foldl_wf (fun _ _ h' => losePeer_wf h') (report_wf h)

theorem execPeerLinkDown_wf {p} {s : State} (h : s.mem.wf = true) : WfStep (execPeerLinkDown p s) := by
  unfold execPeerLinkDown
  dsimp only [WfStep]
  exact ite_wf (foldl_wf (fun _ _ h' => peerLost_wf h') h) h

theorem execPeerLinkRetrain_wf {p} {s : State} (h : s.mem.wf = true) : WfStep (execPeerLinkRetrain p s) := by
  unfold execPeerLinkRetrain
  exact ite_wf h h

theorem addEnergy_wf {s : State} (h : s.mem.wf = true) : (s.addEnergy).mem.wf = true := by
  unfold State.addEnergy
  refine foldl_wf ?_ h
  intro _ _ h'
  split
  · split
    · exact account_wf (of_pair ‹_› (draw_wf h'))
  · exact h'

theorem execPowerThrottleWindow_wf {mw} {s : State} (h : s.mem.wf = true) : WfStep (execPowerThrottleWindow mw s) := by
  unfold execPowerThrottleWindow
  dsimp only [WfStep]
  split
  · dsimp only
    exact draw_wf (addEnergy_wf h)
  · dsimp only
    exact addEnergy_wf h

theorem settleThermal_wf {s : State} (h : s.mem.wf = true) : (s.settleThermal).mem.wf = true := by
  unfold State.settleThermal
  exact ite_wf (report_wf h) h

theorem execThermtrip_wf {s : State} (h : s.mem.wf = true) : WfStep (execThermtrip s) := by
  unfold execThermtrip
  dsimp only [WfStep]
  exact ite_wf h (settleThermal_wf (foldl_wf (fun _ _ h' => requestClose_wf h') h))

theorem measureBoot_wf {s : State} (h : s.mem.wf = true) : (s.measureBoot).mem.wf = true := h

theorem bootFail_wf {s : State} {a1} (h : s.mem.wf = true) : (s.bootFail a1).mem.wf = true := by
  unfold State.bootFail
  dsimp only
  split
  · exact ite_wf h h
  · exact ite_wf h h
  · split
    · dsimp only
      exact fenceWay_wf h
    · exact h
  · split
    · dsimp only
      exact modCore_wf h
    · exact h
  · exact h
  · exact h
  · exact h

theorem bringUp_wf {s : State} {fails} (h : s.mem.wf = true) : (s.bringUp fails).mem.wf = true := by
  unfold State.bringUp
  dsimp only
  split
  · exact foldl_wf (fun _ _ h' => bootFail_wf h') h
  · dsimp only
    exact measureFeatures_wf (foldl_wf (fun _ _ h' => bootFail_wf h') h)

theorem execDeviceReset_wf {fails} {s : State} (h : s.mem.wf = true) : WfStep (execDeviceReset fails s) :=
  ite_wf (bringUp_wf (wf_filter_bare _ _ h)) (wf_filter_bare _ _ h)

/-! ### Services -/

theorem refuse_wf {s : State} {result detail : Nat} (h : s.mem.wf = true) : (s.refuse result detail).state.mem.wf = true := h

theorem answer_wf {s t : State} {body : List (BitVec 8)} (h : t.mem.wf = true) : (s.answer t body).state.mem.wf = true := h

theorem respond_wf {s : State} {a : Answer} (ha : a.state.mem.wf = true) : (s.respond a).mem.wf = true := by
  unfold State.respond
  exact raise_wf (ite_wf ha (report_wf ha))

theorem serve0_wf {s : State} {code : Nat} {lenOk : Nat → Bool} {f : State → Answer} (h : s.mem.wf = true)
    (hf : (f s).state.mem.wf = true) : (s.serve0 code lenOk f).mem.wf = true := by
  unfold State.serve0
  split
  · refine respond_wf ?_
    split
    · exact hf
    · exact h
  · exact h

theorem answerCtx_wf {s : State} {lenOk : Nat → Bool} {f : State → Nat → Ctx → Answer} (h : s.mem.wf = true)
    (hf : ∀ c x, (f s c x).state.mem.wf = true) : (s.answerCtx lenOk f).state.mem.wf = true := by
  unfold State.answerCtx
  split
  · split
    · exact h
    · split
      · exact h
      · exact hf ..
  · exact h

theorem serveCtx_wf {s : State} {code : Nat} {lenOk : Nat → Bool} {f : State → Nat → Ctx → Answer} (h : s.mem.wf = true)
    (hf : ∀ c x, (f s c x).state.mem.wf = true) : (s.serveCtx code lenOk f).mem.wf = true :=
  ite_wf (respond_wf (answerCtx_wf h hf)) h

theorem serveInval_wf {s : State} {code : Nat} {lenOk : Nat → Bool} {f : State → Nat → Ctx → Answer} (h : s.mem.wf = true)
    (hf : ∀ c x, (f s c x).state.mem.wf = true) : (s.serveInval code lenOk f).mem.wf = true :=
  ite_wf (ite_wf (answerCtx_wf h hf) (respond_wf (answerCtx_wf h hf))) h

theorem serveQuiet_wf {s : State} {code : Nat} {lenOk : Nat → Bool} {f : State → Nat → Ctx → Answer} (h : s.mem.wf = true)
    (hf : ∀ c x, (f s c x).state.mem.wf = true) : (s.serveQuiet code lenOk f).mem.wf = true :=
  ite_wf (ite_wf h (respond_wf (answerCtx_wf h hf))) h

theorem begin_wf {s : State} {code c arg counts} (h : s.mem.wf = true) : (s.begin_ code c arg counts).mem.wf = true := h

theorem freshNumber_wf {s : State} {w used most} (h : s.mem.wf = true) : (s.freshNumber w used most).2.mem.wf = true := by
  unfold State.freshNumber
  dsimp only
  split
  · dsimp only
    exact draw_wf h
  · dsimp only
    exact draw_wf h

theorem execCtxCreate_wf {s : State} (h : s.mem.wf = true) : WfStep (execCtxCreate s) := by
  unfold execCtxCreate
  dsimp only [WfStep]
  refine serve0_wf h ?_
  split
  · exact refuse_wf h
  · dsimp only
    refine grantCtx_wf ?_
    dsimp only
    exact freshNumber_wf h

theorem answerVia_wf {s : State} {o : CapObj} {c off n : Nat} {write : Bool} {f : State → Answer} (h : s.mem.wf = true)
    (hf : ∀ t, t.mem.wf = true → (f t).state.mem.wf = true) : (s.answerVia o c off n write f).state.mem.wf = true := by
  unfold State.answerVia
  split
  · exact hf _ (of_some ‹_› (capFor_wf h))
  · exact frontError_wf h

theorem execCtxRead_wf {s : State} (h : s.mem.wf = true) : WfStep (execCtxRead s) := by
  unfold execCtxRead
  dsimp only [WfStep]
  exact serveCtx_wf h (fun _ _ => ite_answer_wf (refuse_wf h) (answerVia_wf h (fun _ h' => answer_wf h')))

theorem appendExtents_wf {s : State} {c} (h : s.mem.wf = true) : (s.appendExtents c).mem.wf = true := by
  unfold State.appendExtents
  dsimp only
  split
  · exact h
  · exact ite_wf (modCtx_wf h) h

theorem execCtxWrite_wf {s : State} (h : s.mem.wf = true) : WfStep (execCtxWrite s) := by
  unfold execCtxWrite
  dsimp only [WfStep]
  exact serveCtx_wf h ((fun _ _ => ite_answer_wf (refuse_wf h) (ite_answer_wf (refuse_wf h) (ite_answer_wf (refuse_wf h) (answerVia_wf h
    (fun _ h' => answer_wf (ite_wf (appendExtents_wf (modCtx_wf h')) (modCtx_wf h'))))))))

theorem ctxStop_wf {s : State} {save} (h : s.mem.wf = true) : (s.ctxStop save).mem.wf = true := by
  unfold State.ctxStop
  dsimp only
  exact ite_wf h (serveCtx_wf h (fun _ _ => ite_answer_wf (refuse_wf h) (ite_answer_wf (refuse_wf h) (answer_wf (requestClose_wf
    (begin_wf h))))))

theorem execCtxStopClose_wf {s : State} (h : s.mem.wf = true) : WfStep (execCtxStopClose s) := by
  unfold execCtxStopClose
  exact ctxStop_wf h

theorem execCtxStopSave_wf {s : State} (h : s.mem.wf = true) : WfStep (execCtxStopSave s) := by
  unfold execCtxStopSave
  exact ctxStop_wf h

theorem giveTag_wf {s : State} {c} (h : s.mem.wf = true) : WfOption id (s.giveTag c) := by
  unfold State.giveTag
  dsimp only
  split
  · exact modCtx_wf (of_pair ‹_› (pick_wf h))
  · trivial

theorem putRegs_wf {s : State} {c x} (h : s.mem.wf = true) : (s.putRegs c x).mem.wf = true := by
  unfold State.putRegs
  exact dropXlats_wf (allCores_wf (grantRegs_wf (modCtx_wf h)))

theorem refuseResume_wf {s : State} {x r} (h : s.mem.wf = true) : (s.refuseResume x r).state.mem.wf = true := by
  unfold State.refuseResume
  dsimp only
  exact report_wf h

theorem startBare_wf {s : State} {c x} (h : s.mem.wf = true) : WfExcept id (s.startBare c x) := by
  unfold State.startBare
  split
  · trivial
  · exact modCtx_wf (of_ok ‹_› (readyLists_wf h))

theorem takeTier_wf {s : State} {c x} (h : s.mem.wf = true) : (s.takeTier c x).mem.wf = true := by
  unfold State.takeTier
  split
  · exact adopt_wf h
  · exact h

theorem resumeSaved_wf {s : State} {c x} (h : s.mem.wf = true) : (s.resumeSaved c x).state.mem.wf = true := by
  unfold State.resumeSaved
  dsimp only
  split
  · exact refuse_wf h
  · split
    · exact refuseResume_wf h
    · refine answer_wf ?_
      refine modCtx_wf ?_
      refine of_ok ‹_› ?_
      split
      · split
        · split
          · exact restore_wf (putRegs_wf (takeTier_wf (of_some ‹_› (giveTag_wf h))))
          · trivial
        · exact startBare_wf (putRegs_wf (takeTier_wf (of_some ‹_› (giveTag_wf h))))
      · exact startBare_wf (putRegs_wf (takeTier_wf (of_some ‹_› (giveTag_wf h))))

theorem badResume_wf {s : State} {c w} (h : s.mem.wf = true) : (s.badResume c w).mem.wf = true := by
  unfold State.badResume
  dsimp only
  exact contextFault_wf (modCtx_wf h)

theorem unfault_wf {s : State} {c x} (h : s.mem.wf = true) : (s.unfault c x).mem.wf = true := by
  unfold State.unfault
  dsimp only
  split
  · exact badResume_wf h
  · exact settleRestore_wf (enterGroups_wf (modCtx_wf (goOn_wf (allGroups_wf (ite_wf (replacePending_wf h) h)))))

theorem resumeFaulted_wf {s : State} {c x} (h : s.mem.wf = true) : (s.resumeFaulted c x).state.mem.wf = true := by
  unfold State.resumeFaulted
  dsimp only
  split
  · exact refuse_wf h
  · split
    · exact refuseResume_wf h
    · exact answer_wf (modCtx_wf (unfault_wf (modCtx_wf (of_ok ‹_› (readyLists_wf (putRegs_wf (dropDecls_wf (of_some ‹_›
        (giveTag_wf h)))))))))

theorem execCtxResume_wf {s : State} (h : s.mem.wf = true) : WfStep (execCtxResume s) := by
  unfold execCtxResume
  dsimp only [WfStep]
  refine serveCtx_wf h fun _ _ => ?_
  split
  · exact resumeSaved_wf h
  · exact resumeFaulted_wf h
  · exact refuse_wf h

theorem endRuns_wf {s : State} {ring} (h : s.mem.wf = true) : (s.endRuns ring).mem.wf = true := by
  unfold State.endRuns
  refine foldl_wf ?_ h
  intro _ _ h'
  split
  · exact ite_wf (settleRun_wf (modRun_wf h')) h'
  · exact h'

theorem endWork_wf {s : State} {ring} (h : s.mem.wf = true) : (s.endWork ring).2.mem.wf = true := by
  unfold State.endWork
  dsimp only
  exact foldl_wf (fun _ _ h' => completePacket_wf h') (foldl_wf (fun _ _ h' => retryNodes_wf h') (endRuns_wf (foldl_wf
    (fun _ _ h' => modCopy_wf h') (endTrees_wf h))))

theorem dropTier_wf {s : State} {c} (h : s.mem.wf = true) : (s.dropTier c).mem.wf = true := by
  unfold State.dropTier
  split
  · exact h
  · exact h

theorem killCtx_wf {s : State} {c} (h : s.mem.wf = true) : (s.killCtx c).2.mem.wf = true := by
  unfold State.killCtx
  dsimp only
  exact endWork_wf (modCtx_wf (dropTier_wf h))

theorem execCtxKill_wf {s : State} (h : s.mem.wf = true) : WfStep (execCtxKill s) :=
  serveCtx_wf h fun _ _ => ite_answer_wf (refuse_wf h) (killCtx_wf h)

theorem execCtxDestroy_wf {s : State} (h : s.mem.wf = true) : WfStep (execCtxDestroy s) :=
  serveCtx_wf h fun _ _ => ite_answer_wf (refuse_wf h) (killCtx_wf h)

theorem dropRange_wf {s : State} {c base len} (h : s.mem.wf = true) : (s.dropRange c base len).mem.wf = true := h

theorem execCtxInval_wf {s : State} (h : s.mem.wf = true) : WfStep (execCtxInval s) := by
  unfold execCtxInval
  exact serveCtx_wf h (fun _ _ => ite_answer_wf (refuse_wf h) (answer_wf (begin_wf (dropRange_wf h))))

theorem execRingCreate_wf {s : State} (h : s.mem.wf = true) : WfStep (execRingCreate s) := by
  unfold execRingCreate
  dsimp only [WfStep]
  refine serveCtx_wf h fun _ _ => ?_
  split
  · exact refuse_wf h
  · split
    · refine answer_wf ?_
      refine grant_wf ?_
      refine modCtx_wf ?_
      dsimp only
      refine pick_wf ?_
      split
      · exact h
      · exact pick_wf h
    · exact refuse_wf h

theorem execRingDestroy_wf {s : State} (h : s.mem.wf = true) : WfStep (execRingDestroy s) := by
  refine serveCtx_wf h fun c x => ite_answer_wf (refuse_wf h) ?_
  split
  · exact h
  · split
    · exact h
    · exact ite_answer_wf (refuse_wf h) (endWork_wf (modRing_wf h))

theorem dropTable_wf {s : State} {c t} (h : s.mem.wf = true) : (s.dropTable c t).mem.wf = true := h

theorem holdTable_wf {s : State} {c t} (h : s.mem.wf = true) : (s.holdTable c t).mem.wf = true := by
  unfold State.holdTable
  dsimp only
  exact grant_wf (grant_wf (grant_wf (dropTable_wf h)))

theorem execGraphSet_wf {s : State} (h : s.mem.wf = true) : WfStep (execGraphSet s) := by
  unfold execGraphSet
  dsimp only [WfStep]
  refine serveCtx_wf h fun _ _ => ?_
  split
  · split
    · exact refuse_wf (readTable_wf h)
    · split
      · exact refuse_wf (readTable_wf h)
      · split
        · exact answer_wf (dropTable_wf (modCtx_wf (readTable_wf h)))
        · split
          · exact refuse_wf (readTable_wf h)
          · split
            · exact refuse_wf (readTable_wf h)
            · split
              · exact refuse_wf (readTable_wf h)
              · split
                · exact answer_wf (holdTable_wf (modCtx_wf (readTable_wf h)))
                · dsimp only
                  exact draw_wf (readTable_wf h)
  · split
    · exact refuse_wf h
    · split
      · exact refuse_wf h
      · split
        · exact answer_wf (dropTable_wf (modCtx_wf h))
        · split
          · exact refuse_wf h
          · split
            · exact refuse_wf h
            · split
              · exact refuse_wf h
              · split
                · exact answer_wf (holdTable_wf (modCtx_wf h))
                · dsimp only
                  exact draw_wf h

theorem execBinSet_wf {s : State} (h : s.mem.wf = true) : WfStep (execBinSet s) := by
  unfold execBinSet
  dsimp only [WfStep]
  refine serveCtx_wf h fun _ _ => ?_
  split
  · exact refuse_wf (binExpire_wf h)
  · split
    · exact refuse_wf (binExpire_wf h)
    · split
      · split
        · exact refuse_wf (binExpire_wf h)
        · split
          · exact refuse_wf (binExpire_wf h)
          · refine answerVia_wf (ite_wf (fireDue_wf (binExpire_wf h)) (binExpire_wf h)) fun _ h' => ?_
            split
            · exact answer_wf (modBin_wf h')
            · exact answer_wf (modCtx_wf h')
      · split
        · exact refuse_wf (binExpire_wf h)
        · split
          · exact refuse_wf (binExpire_wf h)
          · refine answerVia_wf (ite_wf (fireDue_wf (binExpire_wf h)) (binExpire_wf h)) fun _ h' => ?_
            split
            · exact answer_wf (modBin_wf h')
            · exact answer_wf (modCtx_wf h')

theorem holdPb_wf {s : State} {c x} (h : s.mem.wf = true) : (s.holdPb c x).mem.wf = true := by
  unfold State.holdPb
  exact ite_wf (grant_wf (revokeObj_wf h)) h

theorem execPbSet_wf {s : State} (h : s.mem.wf = true) : WfStep (execPbSet s) := by
  unfold execPbSet
  dsimp only [WfStep]
  exact serveInval_wf h ((fun _ _ => ite_answer_wf (refuse_wf h) (ite_answer_wf (refuse_wf h) (ite_answer_wf (refuse_wf h) (answerVia_wf
    (holdPb_wf h) (fun _ h' => answer_wf (dropRange_wf (dropXlats_wf (agentStore_wf h')))))))))

/-! ### The loader -/

theorem takeBlock_wf {s : State} {more align size} (h : s.mem.wf = true) : (s.takeBlock more align size).2.mem.wf = true := by
  unfold State.takeBlock
  dsimp only
  split
  · dsimp only
    exact draw_wf h
  · dsimp only
    exact draw_wf h

theorem mapPage_wf {busy leaf va a3 a4} {a5 : State} (h : a5.mem.wf = true) : WfOption id (a5.mapPage busy leaf va a3 a4) := by
  induction a3 generalizing busy leaf va a4 a5 with
  | zero =>
    unfold State.mapPage
    exact agentStore_wf h
  | succ n ih =>
    unfold State.mapPage
    dsimp only
    split
    · split
      · exact ih h
      · trivial
    · split
      · trivial
      · refine ih ?_
        dsimp only
        exact agentStore_wf (agentStore_wf (of_pair ‹_› (takeBlock_wf h)))

theorem unmapPage_wf {va a1 a2} {a3 : State} (h : a3.mem.wf = true) : (a3.unmapPage va a1 a2).mem.wf = true := by
  induction a1 generalizing va a2 a3 with
  | zero =>
    unfold State.unmapPage
    exact agentStore_wf h
  | succ n ih =>
    unfold State.unmapPage
    dsimp only
    exact ite_wf (ih h) h

theorem mapRange_wf {s : State} {busy root va pa bytes x w} (h : s.mem.wf = true) : WfOption id (s.mapRange busy root va pa bytes x w) := by
  unfold State.mapRange
  exact foldl_bind_wf (fun _ _ h' => mapPage_wf h') h

theorem appendExtent_wf {s : State} {c pa va size shared} (h : s.mem.wf = true) : (s.appendExtent c pa va size shared).mem.wf = true := by
  unfold State.appendExtent
  dsimp only
  split
  · exact h
  · exact ite_wf h (modCtx_wf (agentStore_wf h))

theorem putRange_wf {s : State} {b pa off bytes} (h : s.mem.wf = true) : (s.putRange b pa off bytes).mem.wf = true := by
  unfold State.putRange
  exact agentStore_wf h

theorem install_wf {s : State} {c x hh img base values b key} (h : s.mem.wf = true) :
    WfExcept (·.2) (s.install c x hh img base values b key) := by
  unfold State.install
  dsimp only
  split
  · trivial
  · split
    · trivial
    · split
      · trivial
      · dsimp only [WfStep, WfOption, WfExcept]
        split
        · refine appendExtent_wf ?_
          refine appendExtent_wf ?_
          refine grant_wf ?_
          dsimp only
          split
          · dsimp only
            refine of_some ‹_› ?_
            refine filter_wf ?_
            refine foldl_bind_wf (fun _ _ h' => mapRange_wf h') ?_
            dsimp only [WfStep, WfOption, WfExcept]
            refine foldl_wf (fun _ _ h' => ite_wf (putRange_wf h') h') ?_
            split
            · refine takeBlock_wf ?_
              split
              · exact h
              · exact takeBlock_wf h
            · refine takeBlock_wf ?_
              split
              · exact h
              · exact takeBlock_wf h
          · refine freshNumber_wf ?_
            refine of_some ‹_› ?_
            refine filter_wf ?_
            refine foldl_bind_wf (fun _ _ h' => mapRange_wf h') ?_
            dsimp only [WfStep, WfOption, WfExcept]
            refine foldl_wf (fun _ _ h' => ite_wf (putRange_wf h') h') ?_
            split
            · refine takeBlock_wf ?_
              split
              · exact h
              · exact takeBlock_wf h
            · refine takeBlock_wf ?_
              split
              · exact h
              · exact takeBlock_wf h
        · refine appendExtent_wf ?_
          refine grant_wf ?_
          dsimp only
          split
          · dsimp only
            refine of_some ‹_› ?_
            refine filter_wf ?_
            refine foldl_bind_wf (fun _ _ h' => mapRange_wf h') ?_
            dsimp only [WfStep, WfOption, WfExcept]
            refine foldl_wf (fun _ _ h' => ite_wf (putRange_wf h') h') ?_
            split
            · refine takeBlock_wf ?_
              split
              · exact h
              · exact takeBlock_wf h
            · dsimp only
              split
              · exact h
              · exact takeBlock_wf h
          · refine freshNumber_wf ?_
            refine of_some ‹_› ?_
            refine filter_wf ?_
            refine foldl_bind_wf (fun _ _ h' => mapRange_wf h') ?_
            dsimp only [WfStep, WfOption, WfExcept]
            refine foldl_wf (fun _ _ h' => ite_wf (putRange_wf h') h') ?_
            split
            · refine takeBlock_wf ?_
              split
              · exact h
              · exact takeBlock_wf h
            · dsimp only
              split
              · exact h
              · exact takeBlock_wf h

theorem dropCode_wf {s : State} {c base len} (h : s.mem.wf = true) : (s.dropCode c base len).mem.wf = true := h

theorem loadObj_wf {s0 : State} {c x f size base} (h : s0.mem.wf = true) : WfExcept (·.2.2) (s0.load_ c x f size base) := by
  unfold State.load_
  dsimp only
  split
  · trivial
  · split
    · trivial
    · split
      · trivial
      · split
        · trivial
        · split
          · trivial
          · split
            · trivial
            · split
              · trivial
              · dsimp only [WfStep, WfOption, WfExcept]
                exact dropCode_wf (of_ok_snd ‹_› (install_wf (readTable_wf h)))

theorem execObjLoad_wf {s : State} (h : s.mem.wf = true) : WfStep (execObjLoad s) := by
  unfold execObjLoad
  refine serveQuiet_wf h fun _ _ => ?_
  dsimp only
  split
  · exact h
  · split
    · exact h
    · exact of_ok_last ‹_› (loadObj_wf h)

theorem execObjUnload_wf {s : State} (h : s.mem.wf = true) : WfStep (execObjUnload s) := by
  unfold execObjUnload
  dsimp only [WfStep]
  refine serveCtx_wf h fun _ _ => ?_
  split
  · exact refuse_wf h
  · split
    · exact refuse_wf h
    · split
      · exact refuse_wf h
      · split
        · exact refuse_wf h
        · split
          · exact refuse_wf h
          · exact refuse_wf h
          · exact answer_wf (begin_wf (revokeObj_wf (modObj_wf h)))

theorem unloadObj_wf {s : State} {k} (h : s.mem.wf = true) : (s.unloadObj k).mem.wf = true := by
  unfold State.unloadObj
  dsimp only
  split
  · exact h
  · exact dropCode_wf (revokeObj_wf (modObj_wf (foldl_wf (fun _ _ h' => foldl_wf (fun _ _ h'' => unmapPage_wf h'') h') h)))

/-! ### Services of the device -/

theorem execDomSet_wf {s : State} (h : s.mem.wf = true) : WfStep (execDomSet s) := by
  unfold execDomSet
  dsimp only [WfStep]
  exact serve0_wf h (ite_answer_wf (refuse_wf h) (answer_wf (modDomain_wf h)))

theorem execDomGet_wf {s : State} (h : s.mem.wf = true) : WfStep (execDomGet s) := by
  unfold execDomGet
  exact serve0_wf h (ite_answer_wf (refuse_wf h) (answer_wf h))

theorem nextSnapshot_wf {s : State} (h : s.mem.wf = true) : (s.nextSnapshot).mem.wf = true := h

theorem execSnapshot_wf {s : State} (h : s.mem.wf = true) : WfStep (execSnapshot s) := by
  unfold execSnapshot
  exact serve0_wf h (ite_answer_wf (refuse_wf h) (answer_wf (nextSnapshot_wf h)))

theorem power_wf {s : State} {write} (h : s.mem.wf = true) : (s.power write).mem.wf = true := by
  unfold State.power
  dsimp only
  exact ite_wf h (serve0_wf h (ite_answer_wf (refuse_wf h) (answer_wf (ite_wf h h))))

theorem execPowerRead_wf {s : State} (h : s.mem.wf = true) : WfStep (execPowerRead s) := by
  unfold execPowerRead
  exact power_wf h

theorem execPowerWrite_wf {s : State} (h : s.mem.wf = true) : WfStep (execPowerWrite s) := by
  unfold execPowerWrite
  exact power_wf h

theorem execLifeGet_wf {s : State} (h : s.mem.wf = true) : WfStep (execLifeGet s) := by
  unfold execLifeGet
  dsimp only [WfStep]
  exact serve0_wf h (ite_answer_wf (refuse_wf h) (answer_wf h))

theorem execPeerSet_wf {s : State} (h : s.mem.wf = true) : WfStep (execPeerSet s) := by
  unfold execPeerSet
  dsimp only [WfStep]
  refine serve0_wf h ?_
  split
  · exact refuse_wf h
  · refine answer_wf ?_
    dsimp only
    exact draw_wf h

theorem execImagePush_wf {s : State} (h : s.mem.wf = true) : WfStep (execImagePush s) := by
  unfold execImagePush
  dsimp only [WfStep]
  refine serve0_wf h ?_
  split
  · exact refuse_wf h
  · split
    · exact refuse_wf h
    · split
      · refine answer_wf ?_
        refine bringUp_wf ?_
        refine measureBoot_wf ?_
        dsimp only
        exact homeRange_wf h
      · refine answer_wf ?_
        dsimp only
        exact homeRange_wf h

theorem finishKill_wf {s : State} {c} (h : s.mem.wf = true) : (s.finishKill c).mem.wf = true := by
  unfold State.finishKill
  dsimp only
  exact modCtx_wf (dropDecls_wf h)

theorem finishDestroy_wf {s : State} {c} (h : s.mem.wf = true) : (s.finishDestroy c).mem.wf = true := by
  unfold State.finishDestroy
  dsimp only
  refine modCtx_wf ?_
  refine revoke_wf ?_
  dsimp only
  exact foldl_wf (fun _ _ h' => unloadObj_wf h') (finishKill_wf h)

theorem finishRing_wf {s : State} {c k} (h : s.mem.wf = true) : (s.finishRing c k).mem.wf = true := h

theorem serviceEnd_wf {s : State} {k b} (h : s.mem.wf = true) : WfOption (·.2) (s.serviceEnd k b) := by
  unfold State.serviceEnd
  split
  · split
    · exact h
    · split
      · exact h
      · split
        · dsimp only [WfStep, WfOption, WfExcept]
          exact modCtx_wf h
        · trivial
  · split
    · dsimp only [WfStep, WfOption, WfExcept]
      exact finishKill_wf h
    · trivial
  · split
    · dsimp only [WfStep, WfOption, WfExcept]
      exact finishDestroy_wf h
    · trivial
  · split
    · exact h
    · trivial
  · split
    · dsimp only [WfStep, WfOption, WfExcept]
      exact finishRing_wf h
    · trivial
  · split
    · exact h
    · split
      · trivial
      · dsimp only [WfStep, WfOption, WfExcept]
        exact unloadObj_wf h

theorem execServiceCompletion_wf {k} {s : State} (h : s.mem.wf = true) : WfStep (execServiceCompletion k s) := by
  unfold execServiceCompletion
  dsimp only [WfStep]
  split
  · exact h
  · split
    · exact h
    · split
      · exact h
      · exact ite_wf (modBegun_wf (of_some_snd ‹_› (serviceEnd_wf h))) (raise_wf (enterPhys_wf (modBegun_wf (of_some_snd ‹_›
          (serviceEnd_wf h)))))

theorem spdmReply_wf {s : State} {resp content after} (h : s.mem.wf = true) (hafter : ∀ t, t.mem.wf = true → (after t).mem.wf = true) :
    (s.spdmReply resp content after).mem.wf = true := by
  unfold State.spdmReply
  dsimp only
  split
  · exact h
  · dsimp only
    exact hafter _ h

theorem spdm_wf {s : State} {req resp content after} (h : s.mem.wf = true) (hafter : ∀ t, t.mem.wf = true → (after t).mem.wf = true) :
    (s.spdm req resp content after).mem.wf = true := by
  unfold State.spdm
  dsimp only
  split
  · exact ite_wf (serve0_wf h (answer_wf (hafter _ h))) h
  · split
    · exact h
    · exact ite_wf (spdmReply_wf h (fun _ h' => hafter _ h')) h

theorem execGetVersion_wf {s : State} (h : s.mem.wf = true) : WfStep (execGetVersion s) := by
  unfold execGetVersion
  exact spdm_wf h (fun _ h' => h')

theorem execGetCapabilities_wf {s : State} (h : s.mem.wf = true) : WfStep (execGetCapabilities s) := by
  unfold execGetCapabilities
  exact spdm_wf h (fun _ h' => h')

theorem execNegotiateAlgorithms_wf {s : State} (h : s.mem.wf = true) : WfStep (execNegotiateAlgorithms s) := by
  unfold execNegotiateAlgorithms
  exact spdm_wf h (fun _ h' => h')

theorem execGetDigests_wf {s : State} (h : s.mem.wf = true) : WfStep (execGetDigests s) := by
  unfold execGetDigests
  exact spdm_wf h (fun _ h' => h')

theorem execGetCertificate_wf {s : State} (h : s.mem.wf = true) : WfStep (execGetCertificate s) := by
  unfold execGetCertificate
  exact spdm_wf h (fun _ h' => h')

theorem execChallenge_wf {_nonce} {s : State} (h : s.mem.wf = true) : WfStep (execChallenge _nonce s) := by
  unfold execChallenge
  exact spdm_wf h (fun _ h' => h')

theorem execGetMeasurements_wf {_nonce} {s : State} (h : s.mem.wf = true) : WfStep (execGetMeasurements _nonce s) := by
  unfold execGetMeasurements
  exact spdm_wf h (fun _ h' => h')

theorem execVendorDefinedRequest_wf {_dom _nonce} {s : State} (h : s.mem.wf = true) : WfStep (execVendorDefinedRequest _dom _nonce s) := by
  unfold execVendorDefinedRequest
  exact spdm_wf h (fun _ h' => nextSnapshot_wf h')

theorem execBadservice_wf {s : State} (h : s.mem.wf = true) : WfStep (execBadservice s) := by
  unfold execBadservice
  dsimp only [WfStep]
  split
  · exact respond_wf (refuse_wf h)
  · split
    · exact ite_wf h (spdm_wf h (fun _ h' => h'))
    · split
      · exact h
      · exact ite_wf h (spdmReply_wf h (fun _ h' => h'))

theorem serveSpdm_wf {s : State} (h : s.mem.wf = true) : WfStep (s.serveSpdm) := by
  unfold State.serveSpdm
  split
  · exact execGetVersion_wf h
  · exact execGetCapabilities_wf h
  · exact execNegotiateAlgorithms_wf h
  · exact execGetDigests_wf h
  · exact execGetCertificate_wf h
  · exact execChallenge_wf h
  · exact execGetMeasurements_wf h
  · exact execVendorDefinedRequest_wf h
  · exact execBadservice_wf h

theorem serveMailbox_wf {s : State} (h : s.mem.wf = true) : WfStep (s.serveMailbox) := by
  unfold State.serveMailbox
  split
  · exact execCtxCreate_wf h
  · exact execCtxDestroy_wf h
  · exact execCtxRead_wf h
  · exact execCtxWrite_wf h
  · exact ite_step_wf (execCtxStopSave_wf h) (execCtxStopClose_wf h)
  · exact execCtxResume_wf h
  · exact execCtxKill_wf h
  · exact execCtxInval_wf h
  · exact execRingCreate_wf h
  · exact execRingDestroy_wf h
  · exact execObjLoad_wf h
  · exact execObjUnload_wf h
  · exact execGraphSet_wf h
  · exact execBinSet_wf h
  · exact execPbSet_wf h
  · exact execDomSet_wf h
  · exact execDomGet_wf h
  · exact execSnapshot_wf h
  · exact ite_step_wf (execPowerWrite_wf h) (execPowerRead_wf h)
  · exact execLifeGet_wf h
  · exact execPeerSet_wf h
  · exact execImagePush_wf h
  · exact serveSpdm_wf h
  · exact execBadservice_wf h

/-! ### Every word and every event -/

/-- Every word and every event keeps main memory canonical. -/
theorem exec_wf (i : Instr) {s : State} (h : s.mem.wf = true) : WfStep (exec i s) := by
  cases i with
  | vaddI32 | vsubI32 | vmulI32 | vmulhI32 | vmulhuI32 | vminI32 | vmaxI32 | vminuI32 | vmaxuI32 | vand | vor | vxor | vshl
  | vshr | vsar | vmov | vpopc | vclz | vsel | vaddF32 | vsubF32 | vmulF32 | vfmaF32 | vminF32 | vmaxF32 | vabsF32 | vnegF32
  | vaddBf16x2 | vmulBf16x2 | vfmaBf16x2 | vaddFp16x2 | vmulFp16x2 | vfmaFp16x2 | vaddE4m3x4 | vmulE4m3x4 | vaddInt8x4
  | vsubInt8x4 | vaddUint8x4 | vsubUint8x4 | vdot2Bf16 | vdot2Fp16 | vdot4E4m3 | vdot4Int8 | vcvt | vcvtpk | vcvtxp | vqblk
  | vdqblk | vrcp | vrsq | vsqrt | vexp2 | vlog2 | vsinpi | vcospi | add | sub | mul | mulh | mulhu | and | or | xor | andn | shl
  | shr | sar | shli | shri | sari | slt | sltu | min | max | minu | maxu | popc | clz | ctz | addi | andi | ori | xori | slti
  | sltiu | srd | swr | vcmpEqI32 | vcmpNeI32 | vcmpLtI32 | vcmpLeI32 | vcmpLtuI32 | vcmpLeuI32 | vcmpEqF32 | vcmpNeF32
  | vcmpLtF32 | vcmpLeF32 | vcmpUnF32 | mand | mor | mxor | mandn | mnot | mfroms | mtos | mpopc | mffs | vshfl | vmatch
  | vmatchF | vreduceAddF32 | vreduceAddI32 | vreduceMinF32 | vreduceMaxF32 | vreduceMinI32 | vreduceMaxI32 | vscanAddF32
  | vscanAddI32 | vmovs | vrdlane | vwrlane | vlaneid | hvxor | hvnot | hvmov | hvbund | hvbsub | hvmaj | hvbclr | hvgen | hvrot
  | hvdist | hvseed | hvrdtie | hvbit => exact onWave_wf h
  | grd => exact execGrd_wf h
  | gwr => exact execGwr_wf h
  | gadd => exact execGadd_wf h
  | bez | bnez | bra | bany | ball | bnone => exact branchIf_wf h
  | call => exact execCall_wf h
  | jmpr | callr | ret => exact jump_wf h
  | endWave => exact execEndWave_wf h
  | yield => exact execYield_wf h
  | trap => exact execTrap_wf h
  | tret => exact execTret_wf h
  | fenceI => exact execFenceI_wf h
  | sld => exact execSld_wf h
  | sst => exact execSst_wf h
  | vldI8 | vldZ8 | vldI16 | vldZ16 | vld32 => exact gather_wf h
  | vst8 | vst16 | vst32 => exact scatter_wf h
  | vldl | vldb => exact loadLine_wf h
  | vstl | vstb => exact storeLine_wf h
  | vstc => exact execVstc_wf h
  | phase => exact execPhase_wf h
  | barInit => exact execBarInit_wf h
  | barArrive => exact execBarArrive_wf h
  | barWait => exact execBarWait_wf h
  | wsq => exact execWsq_wf h
  | aadd | aaddF32 | aand | aor | axor | amin | amax | aminu | amaxu | axchg | acas => exact atomic_wf h
  | mma => exact execMma_wf h
  | accz => exact execAccz_wf h
  | accld => exact execAccld_wf h
  | accst => exact execAccst_wf h
  | acccvt => exact execAcccvt_wf h
  | mwait => exact execMwait_wf h
  | copyk => exact execCopyk_wf h
  | cpq => exact execCpq_wf h
  | publ => exact execPubl_wf h
  | hvld => exact execHvld_wf h
  | hvst => exact execHvst_wf h
  | hvnear => exact execHvnear_wf h
  | enq => exact execEnq_wf h
  | sgfork => exact execSgfork_wf h
  | sgreward => exact execSgreward_wf h
  | sgwait => exact execSgwait_wf h
  | sgcancel => exact execSgcancel_wf h
  | sgquery => exact execSgquery_wf h
  | srdp => exact execSrdp_wf h
  | swrp => exact execSwrp_wf h
  | icinv => exact execIcinv_wf h
  | tlbinv => exact execTlbinv_wf h
  | wkill => exact execWkill_wf h
  | wresume => exact execWresume_wf h
  | acrd => exact execAcrd_wf h
  | halt => exact execHalt_wf h
  | hintImm => exact execHintImm_wf h
  | hintMod => exact execHintMod_wf h
  | ipref => exact execIpref_wf h
  | hintSched => exact execHintSched_wf h
  | hintSchedDelayEnd => exact execHintSchedDelayEnd_wf h
  | resultWrite => exact execResultWrite_wf h
  | atomicPerform => exact execAtomicPerform_wf h
  | llcFill => exact execLlcFill_wf h
  | llcWriteBack => exact execLlcWriteBack_wf h
  | pageWalk => exact execPageWalk_wf h
  | wsRefreshWindowEnd => exact execWsRefreshWindowEnd_wf h
  | regionBaseWrite => exact writeBase_wf h
  | regionLimitWrite => exact writeLimit_wf h
  | regionScaleWrite => exact writeScale_wf h
  | regionCtlWrite => exact writeCtl_wf h
  | regionChangeApply => exact execRegionChangeApply_wf h
  | registerWrite => exact execRegisterWrite_wf h
  | qwptrDoorbell => exact doorbell_wf h
  | pad => exact execPad_wf h
  | kernel => exact execKernel_wf h
  | graph => exact execGraph_wf h
  | copy => exact execCopy_wf h
  | waitValue => exact execWaitValue_wf h
  | waitValueReread => exact execWaitValueReread_wf h
  | signal | signalAdd => exact signalPacket_wf h
  | publish => exact execPublish_wf h
  | checkpointClose | checkpointStopSave => exact checkpointPacket_wf h
  | launchComplete => exact closeTree_wf h
  | binTimerExpiry => exact binExpire_wf h
  | groupPlace => exact execGroupPlace_wf h
  | groupStart => exact execGroupStart_wf h
  | groupPark => exact parkGroup_wf h
  | sgwaitSpinExpiry => exact execSgwaitSpinExpiry_wf h
  | sgoTimeout => exact execSgoTimeout_wf h
  | trapEntry => exact execTrapEntry_wf h
  | boundaryTrap => exact execBoundaryTrap_wf h
  | waveKill => exact execWaveKill_wf h
  | waveStop => exact execWaveStop_wf h
  | copyRequestStart => exact execCopyRequestStart_wf h
  | copyPieceLand => exact execCopyPieceLand_wf h
  | copyRequestFail => exact execCopyRequestFail_wf h
  | copyRequestCancel => exact execCopyRequestCancel_wf h
  | followOnIssue => exact execFollowOnIssue_wf h
  | publishStep => exact execPublishStep_wf h
  | arrayPass => exact execArrayPass_wf h
  | acczRun => exact execAcczRun_wf h
  | accldRun => exact execAccldRun_wf h
  | barWaitComplete => exact execBarWaitComplete_wf h
  | intervalClose => exact beginClose_wf h
  | cutCapture => exact cut_wf h
  | ckptintvExpiry => exact execCkptintvExpiry_wf h
  | agStreamItem => exact streamItem_wf h
  | agCommit => exact commit_wf h
  | agPendUpdate => exact execAgPendUpdate_wf h
  | eccCorrectable => exact execEccCorrectable_wf h
  | eccUncorrectable => exact execEccUncorrectable_wf h
  | logicError => exact execLogicError_wf h
  | linkFlitRetry => exact execLinkFlitRetry_wf h
  | selfTestVerdict => exact verdict_wf h
  | hostHdmAccess => exact execHostHdmAccess_wf h
  | peerRequest => exact execPeerRequest_wf h
  | peerLinkDown => exact execPeerLinkDown_wf h
  | ckptPortDown | thermalThrottle | checkpointPortUp => exact h
  | powerThrottleWindow => exact execPowerThrottleWindow_wf h
  | thermtrip => exact execThermtrip_wf h
  | deviceReset => exact execDeviceReset_wf h
  | ctxCreate => exact execCtxCreate_wf h
  | ctxDestroy => exact execCtxDestroy_wf h
  | ctxRead => exact execCtxRead_wf h
  | ctxWrite => exact execCtxWrite_wf h
  | ctxStopClose | ctxStopSave => exact ctxStop_wf h
  | ctxResume => exact execCtxResume_wf h
  | ctxKill => exact execCtxKill_wf h
  | ctxInval => exact execCtxInval_wf h
  | ringCreate => exact execRingCreate_wf h
  | ringDestroy => exact execRingDestroy_wf h
  | objLoad => exact execObjLoad_wf h
  | objUnload => exact execObjUnload_wf h
  | graphSet => exact execGraphSet_wf h
  | binSet => exact execBinSet_wf h
  | pbSet => exact execPbSet_wf h
  | domSet => exact execDomSet_wf h
  | domGet => exact execDomGet_wf h
  | snapshot => exact execSnapshot_wf h
  | powerRead | powerWrite => exact power_wf h
  | lifeGet => exact execLifeGet_wf h
  | peerSet => exact execPeerSet_wf h
  | imagePush => exact execImagePush_wf h
  | serviceCompletion => exact execServiceCompletion_wf h
  | getVersion => exact execGetVersion_wf h
  | getCapabilities => exact execGetCapabilities_wf h
  | negotiateAlgorithms => exact execNegotiateAlgorithms_wf h
  | getDigests => exact execGetDigests_wf h
  | getCertificate => exact execGetCertificate_wf h
  | challenge | getMeasurements => exact spdm_wf h (fun _ h' => h')
  | vendorDefinedRequest => exact spdm_wf h (fun _ h' => nextSnapshot_wf h')
  | storeEntersCoherenceOrder => exact execStoreEntersCoherenceOrder_wf h
  | instructionFetch => exact execInstructionFetch_wf h
  | instructionCacheFill => exact execInstructionCacheFill_wf h
  | badservice => exact execBadservice_wf h
  | peerLinkRetrain => exact execPeerLinkRetrain_wf h
  | poweredOnHour => exact lifeAdd_wf h

/-! ### Turns -/

theorem settleChanges_wf {s : State} (h : s.mem.wf = true) : (s.settleChanges).mem.wf = true := by
  unfold State.settleChanges
  exact foldl_wf (fun _ _ h' => applyChange_wf h') h

theorem settle_wf {s : State} (h : s.mem.wf = true) : (s.settle).mem.wf = true := by
  unfold State.settle
  dsimp only
  exact settleThermal_wf (foldl_wf (fun _ _ h' => charging_wf h' (fun _ h'' => settleRollback_wf (hasten_wf h''))) h)

theorem settleAfter_wf {s : State} {c : Option Nat} {o : Step} (h : s.mem.wf = true) (ho : WfStep o) : WfStep (settleAfter s c o) := by
  unfold settleAfter
  split
  · split
    · exact h
    · exact settle_wf (accountFrom_wf ho)
  · exact ho

theorem atWord_wf {s : State} {wid w} (h : s.mem.wf = true) : (s.atWord wid w).mem.wf = true := by
  unfold State.atWord
  exact workDone_wf (account_wf (modWave_wf h))

theorem ifIssued_wf {s : State} {wid : Nat} {v : Word} {o : Step} (h : s.mem.wf = true) (ho : WfStep o) : WfStep (s.ifIssued wid v o) := by
  unfold State.ifIssued
  split
  · split
    · exact modWave_wf h
    · exact ho
  · exact ho

theorem runWord_wf {s : State} {wid w v} (h : s.mem.wf = true) : WfStep (s.runWord wid w v) := by
  unfold State.runWord
  refine ite_step_wf (takeTrap_wf (atWord_wf h)) ?_
  split
  · exact takeTrap_wf (atWord_wf h)
  · exact ifIssued_wf h (exec_wf _ (atWord_wf h))

theorem issueTurn_wf {s : State} {wid w} (h : s.mem.wf = true) : WfStep (s.issueTurn wid w) := by
  unfold State.issueTurn
  split
  · exact takeTrap_wf (failedLooks_wf h)
  · exact meetPoison_wf h
  · exact runWord_wf (of_word ‹_› (fetch_wf h))

theorem lookTurn_wf {s : State} {wid w} (h : s.mem.wf = true) : WfStep (s.lookTurn wid w) := by
  unfold State.lookTurn
  split
  · exact h
  · split
    · exact execBoundaryTrap_wf h
    · split
      · exact ite_step_wf (execTrapEntry_wf h) (execHintSchedDelayEnd_wf h)
      · exact ite_wf (setSt_wf h) h
      · exact settleRelease_wf h
      · exact settleAcquire_wf h
      · exact ite_wf (proceed_wf h) h
      · exact ite_wf (mirrorStep_wf h) h
      · exact ite_wf (sgWaitPoll_wf h) h
      · exact ite_wf (settleFaulted_wf (retireWave_wf h)) h
      · dsimp only [WfStep]
        split
        · exact ite_wf (proceed_wf h) h
        · exact proceed_wf h
      · exact ite_wf (proceed_wf h) h
      · exact h
      · exact execBarWaitComplete_wf h
      · exact h
      · exact h
      · exact h

theorem waveTurn_wf {s : State} {wid} (h : s.mem.wf = true) : WfStep (s.waveTurn wid) := by
  unfold State.waveTurn
  split
  · exact h
  · exact ite_step_wf (issueTurn_wf h) (lookTurn_wf h)

theorem chooseWave_wf {s t : State} {w : Nat} (h : s.mem.wf = true) (chosen : s.chooseWave = some (w, t)) : t.mem.wf = true := by
  unfold State.chooseWave at chosen
  dsimp only at chosen
  split at chosen
  · cases chosen
  · split at chosen
    · cases chosen
    · split at chosen
      · cases chosen
        exact h
      · cases chosen
        exact foldl_wf (fun _ _ h' => modWave_wf h') h

theorem rereadTurn_wf {s : State} {c r} (h : s.mem.wf = true) : WfStep (s.rereadTurn c r) := by
  unfold State.rereadTurn
  split
  · exact ite_step_wf h (of_next ‹_› (execWaitValueReread_wf h))
  · exact execWaitValueReread_wf h

theorem testTurn_wf {s : State} {k} (h : s.mem.wf = true) : WfStep (s.testTurn k) := by
  unfold State.testTurn
  split
  · split
    · exact ite_step_wf h (of_next ‹_› (execSelfTestVerdict_wf (of_pair ‹_› (draw_wf h))))
    · exact execSelfTestVerdict_wf (of_pair ‹_› (draw_wf h))

theorem hostStores_wf {s : State} {pa : Nat} {bytes : List (BitVec 8)} (h : s.mem.wf = true) : (s.hostStores pa bytes).mem.wf = true :=
  wf_hostStores s pa bytes h

theorem oneClock_wf {s : State} (h : s.mem.wf = true) : (s.oneClock).mem.wf = true := by
  unfold State.oneClock
  dsimp only
  exact tick_wf h

/-! ### The device's own choice (12 R293; log 1) -/

/-- Every attempt of a list keeps main memory canonical, wherever it is made. -/
def WfAttempts (l : List Attempt) : Prop := ∀ a ∈ l, ∀ t : State, t.mem.wf = true → WfStep (a.2 t)

theorem wfAttempts_nil : WfAttempts [] := fun _ ha => absurd ha List.not_mem_nil

theorem wfAttempts_cons {c : Option Nat} {f : State → Step} {l : List Attempt} (hf : ∀ t : State, t.mem.wf = true → WfStep (f t))
    (hl : WfAttempts l) : WfAttempts ((c, f) :: l) :=
  List.forall_mem_cons.mpr ⟨hf, hl⟩

theorem wfAttempts_one {c : Option Nat} {f : State → Step} (hf : ∀ t : State, t.mem.wf = true → WfStep (f t)) : WfAttempts [(c, f)] :=
  wfAttempts_cons hf wfAttempts_nil

theorem wfAttempts_append {l m : List Attempt} (hl : WfAttempts l) (hm : WfAttempts m) : WfAttempts (l ++ m) :=
  List.forall_mem_append.mpr ⟨hl, hm⟩

theorem wfAttempts_ite {c : Prop} [Decidable c] {l m : List Attempt} (hl : WfAttempts l) (hm : WfAttempts m) :
    WfAttempts (if c then l else m) := by
  split
  · exact hl
  · exact hm

theorem wfAttempts_map {α : Type} {l : List α} {c : Option Nat} {f : α → State → Step}
    (hf : ∀ x, ∀ t : State, t.mem.wf = true → WfStep (f x t)) : WfAttempts (l.map (fun x => (c, f x))) :=
  List.forall_mem_map.mpr fun x _ => hf x

theorem wfAttempts_flatMap {α : Type} {l : List α} {f : α → List Attempt} (hf : ∀ x, WfAttempts (f x)) : WfAttempts (l.flatMap f) :=
  List.forall_mem_flatMap.mpr fun x _ => hf x

theorem wave_attempts_wf (w : Wave) (k : Nat) : WfAttempts (w.attempts k) := by
  refine wfAttempts_ite wfAttempts_nil (wfAttempts_append (wfAttempts_append (wfAttempts_append (wfAttempts_append ?events ?results)
    ?atoms) ?stores) ?looks)
  case events =>
    exact wfAttempts_cons (fun _ => execWaveKill_wf) (wfAttempts_cons (fun _ => execWaveStop_wf) (wfAttempts_one
      fun _ => execSgwaitSpinExpiry_wf))
  case results => exact wfAttempts_ite wfAttempts_nil (wfAttempts_one fun _ => execResultWrite_wf)
  case atoms =>
    split
    · exact wfAttempts_nil
    · exact wfAttempts_map fun _ _ => execAtomicPerform_wf
  case stores => exact wfAttempts_map fun _ _ => execStoreEntersCoherenceOrder_wf
  case looks =>
    refine wfAttempts_ite wfAttempts_nil (wfAttempts_one fun t h => ?_)
    split
    · exact lookTurn_wf h
    · exact h

theorem engineAttempts_wf (s : State) : WfAttempts s.engineAttempts := by
  refine wfAttempts_append (wfAttempts_flatMap fun y => wfAttempts_ite wfAttempts_nil ?copies) (wfAttempts_flatMap fun c => ?arrays)
  case copies =>
    exact wfAttempts_cons (fun _ => execCopyRequestCancel_wf) (wfAttempts_cons (fun _ => execCopyRequestStart_wf)
      (wfAttempts_cons (fun _ => execCopyRequestFail_wf) (wfAttempts_cons (fun _ => execCopyPieceLand_wf)
        (wfAttempts_one fun _ => execFollowOnIssue_wf))))
  case arrays =>
    exact wfAttempts_cons (fun _ => execArrayPass_wf) (wfAttempts_cons (fun _ => execAcczRun_wf) (wfAttempts_one
      fun _ => execAccldRun_wf))

theorem ctx_attempts_wf (x : Ctx) (c : Nat) : WfAttempts (x.attempts c) := by
  refine wfAttempts_ite wfAttempts_nil (wfAttempts_append (wfAttempts_append (wfAttempts_append (wfAttempts_append ?closes
    (wfAttempts_map fun _ _ => execBinTimerExpiry_wf)) (wfAttempts_map fun _ _ => execSgoTimeout_wf)) (wfAttempts_one fun t h => ?_))
    (wfAttempts_map fun _ _ => execPublishStep_wf))
  case closes =>
    exact wfAttempts_cons (fun _ => execIntervalClose_wf) (wfAttempts_cons (fun _ => execCutCapture_wf) (wfAttempts_cons
      (fun _ => execAgStreamItem_wf) (wfAttempts_cons (fun _ => execAgCommit_wf) (wfAttempts_one fun _ => execCkptintvExpiry_wf))))
  · exact ite_step_wf (execAgPendUpdate_wf h) h

theorem packetAttempt_wf {c r type : Nat} {q : List DWord} {core : Nat} {s : State} (h : s.mem.wf = true) :
    WfStep (packetAttempt c r type q core s) := by
  unfold packetAttempt
  split
  · exact execPad_wf h
  · exact execKernel_wf h
  · exact execGraph_wf h
  · exact execCopy_wf h
  · exact execWaitValue_wf h
  · split
    · exact execSignalAdd_wf h
    · exact execSignal_wf h
  · exact execPublish_wf h
  · split
    · exact execCheckpointStopSave_wf h
    · exact execCheckpointClose_wf h

theorem frontAttempts_wf (s : State) : WfAttempts s.frontAttempts := by
  refine wfAttempts_append (wfAttempts_append (wfAttempts_append (wfAttempts_append (wfAttempts_append (wfAttempts_flatMap fun y => ?groups)
    (wfAttempts_flatMap fun y => ?trees)) (wfAttempts_one fun _ => execGroupPlace_wf)) ?packet) (wfAttempts_flatMap fun y => ?rings))
    (wfAttempts_flatMap fun y => ?begun)
  case groups =>
    split
    · exact wfAttempts_one fun _ => execGroupStart_wf
    · exact wfAttempts_one fun _ => execGroupPark_wf
    · exact wfAttempts_nil
  case trees => exact wfAttempts_ite (wfAttempts_one fun _ => execLaunchComplete_wf) wfAttempts_nil
  case packet =>
    split
    · exact wfAttempts_nil
    · split
      · exact wfAttempts_nil
      · exact wfAttempts_one fun _ => packetAttempt_wf
  case rings =>
    exact wfAttempts_append (wfAttempts_append (wfAttempts_ite (wfAttempts_one fun _ => rereadTurn_wf) wfAttempts_nil)
      (wfAttempts_ite (wfAttempts_one fun _ => execSignal_wf) wfAttempts_nil))
      (wfAttempts_ite (wfAttempts_one fun _ => execSignalAdd_wf) wfAttempts_nil)
  case begun => exact wfAttempts_ite wfAttempts_nil (wfAttempts_one fun _ => execServiceCompletion_wf)

theorem attempts_wf (s : State) : WfAttempts s.attempts := by
  refine wfAttempts_append (wfAttempts_append (wfAttempts_append (wfAttempts_append (wfAttempts_append (wfAttempts_append ?mailbox ?spdm)
    ?tests) (wfAttempts_flatMap fun y => wave_attempts_wf y.2 y.1)) (engineAttempts_wf s)) (frontAttempts_wf s))
    (wfAttempts_flatMap fun y => ctx_attempts_wf y.2 y.1)
  case mailbox => exact wfAttempts_ite (wfAttempts_one fun _ => serveMailbox_wf) wfAttempts_nil
  case spdm => exact wfAttempts_ite wfAttempts_nil (wfAttempts_one fun _ => serveSpdm_wf)
  case tests => exact wfAttempts_flatMap fun y => wfAttempts_ite wfAttempts_nil (wfAttempts_one fun _ => testTurn_wf)

theorem firstChange_wf {s : State} (h : s.mem.wf = true) {l : List Attempt} (hl : WfAttempts l) {c : Option Nat} {o : Step}
    (found : firstChange s l = some (c, o)) : WfStep o := by
  induction l with
  | nil => cases found
  | cons a l ih =>
    obtain ⟨d, f⟩ := a
    obtain ⟨hf, hl⟩ := List.forall_mem_cons.mp hl
    have acts := hf s h
    unfold firstChange at found
    split at found
    next t e =>
      split at found
      · exact ih hl found
      · cases found
        exact e ▸ acts
    next =>
      cases found
      exact acts

theorem ownTurn_wf {s : State} (h : s.mem.wf = true) : WfStep s.ownTurn := by
  unfold State.ownTurn
  split
  next found => exact settleAfter_wf h (firstChange_wf h (attempts_wf s) found)
  next =>
    split
    · exact settleAfter_wf h (waveTurn_wf h)
    · split
      · exact h
      next chosen => exact settleAfter_wf h (waveTurn_wf (chooseWave_wf h chosen))

/-! ### A step -/

theorem runTurn_wf {s : State} (h : s.mem.wf = true) (t : Turn) : WfStep (s.runTurn t) := by
  have clock : s.oneClock.mem.wf = true := oneClock_wf h
  have settled : s.oneClock.settleChanges.mem.wf = true := settleChanges_wf clock
  cases t with
  | wave w => exact settleAfter_wf settled (waveTurn_wf settled)
  | event i =>
    have begins : (if isRegionEvent i then s.oneClock else s.oneClock.settleChanges).mem.wf = true := ite_wf clock settled
    exact settleAfter_wf begins (exec_wf i begins)
  | pass q0 q1 q2 q3 fe => exact tick_wf h
  | hostStore pa bytes => exact hostStores_wf h
  | expander c => exact modCtx_wf h
  | spdm via msg => exact h
  | tier t => exact h

theorem step_wf {s : State} (h : s.mem.wf = true) : WfStep (step s) := by
  unfold step
  split
  next t rest _ => exact runTurn_wf (s := { s with agenda := rest }) h t
  · exact ownTurn_wf (settleChanges_wf (oneClock_wf h))

/-- Settles O51: what acts in a step, a turn or the device's own choice, changes memory by writes and restores alone. -/
theorem stepKeepsMemoryCanonical : Obligations.StepKeepsMemoryCanonical := by
  unfold Obligations.StepKeepsMemoryCanonical
  intro s t canonical next
  exact of_next next (step_wf canonical)

/-- Settles O50: the machine begins with an empty memory. -/
theorem resetMemoryCanonical : Obligations.ResetMemoryCanonical := wf_reset

end Sys2Proof.CanonicalMemory

/-! PROOFS of 19_services: what a request in the mailbox that passes its checks is answered, for every service (19 R409, R410). -/

namespace Sys2Proof.Services

open Sys2Proof.Machine

variable {s t : State} {code len c : Nat} {x : Ctx} {a : Answer}

/-! ### A request that passes the checks before a service's own -/

theorem asked_of_busy (hb : s.mbBusy = true) (hn : s.spdmBefore = 0) (hc : s.mbService = code) : s.asked code = true := by
  simp [State.asked, State.mbNext, hb, hn, hc]

/-- A service without a context answers with what it does. -/
theorem serve0_passes (h : s.Request code len noContext) (h8 : len % 8 = 0) (hmax : len ≤ 4064) {lenOk : Nat → Bool}
    (hlen : lenOk len = true) (f : State → Answer) : s.serve0 code lenOk f = s.respond (f s) := by
  obtain ⟨hb, hn, hs, hl, hh, hr, hx⟩ := h
  have hcheck : ∀ served, s.mbCheck false served lenOk = 0 := by
    simp [State.mbCheck, hl, hh, hr, hx, h8, hlen, resOk, Nat.not_lt.mpr hmax]
  simp only [State.serve0, asked_of_busy hb hn hs, hcheck, if_true]

/-- A service on a context answers with what it does for that context. -/
theorem answerCtx_passes (h : s.RequestFor code len c x) (h8 : len % 8 = 0) (hmax : len ≤ 4064) {lenOk : Nat → Bool}
    (hlen : lenOk len = true) (f : State → Nat → Ctx → Answer) : s.answerCtx lenOk f = f s c x := by
  obtain ⟨⟨-, -, -, hl, hh, hr, -⟩, hc, hx⟩ := h
  have hcheck : s.mbCheck true false lenOk = 0 := by
    simp [State.mbCheck, hl, hh, hr, hc, h8, hlen, resOk, Nat.not_lt.mpr hmax]
  simp only [State.answerCtx, hcheck, hc, hx]

theorem requestFor_asked (h : s.RequestFor code len c x) : s.asked code = true := by
  obtain ⟨⟨hb, hn, hs, -⟩, -⟩ := h
  exact asked_of_busy hb hn hs

theorem serveCtx_passes (h : s.RequestFor code len c x) (h8 : len % 8 = 0) (hmax : len ≤ 4064) {lenOk : Nat → Bool}
    (hlen : lenOk len = true) (f : State → Nat → Ctx → Answer) : s.serveCtx code lenOk f = s.respond (f s c x) := by
  simp only [State.serveCtx, requestFor_asked h, answerCtx_passes h h8 hmax hlen, if_true]

/-- An access through a capability register changes nothing but the registers. -/
theorem capFor_eq {r o n off} {write : Bool} (h : s.capFor r o c off n write = some t) : ∃ regs, t = { s with capRegs := regs } := by
  obtain ⟨hu, -⟩ := Option.filter_eq_some_iff.mp h
  obtain ⟨k, -, hk⟩ := Option.bind_eq_some_iff.mp hu
  obtain ⟨e, -, he⟩ := Option.bind_eq_some_iff.mp hk
  unfold State.loadCap at he
  split at he
  · split at he
    · exact ⟨_, (Option.some.inj he).symm⟩
    · cases he
  · cases he

theorem capFor_mbCtx {r o n off} {write : Bool} (h : s.capFor r o c off n write = some t) : t.mbCtx = s.mbCtx := by
  obtain ⟨regs, rfl⟩ := capFor_eq h
  rfl

end Sys2Proof.Services

/-! PROOFS of 19_context_services: what the services on contexts do with a request that passes its checks (O57). -/

namespace Sys2Proof.Services

open Sys2Proof.Machine

variable {s t u : State} {c : Nat} {x y : Ctx}

theorem exec_ctxCreate (s : State) : exec .ctxCreate s = execCtxCreate s := rfl
theorem exec_ctxDestroy (s : State) : exec .ctxDestroy s = execCtxDestroy s := rfl
theorem exec_ctxRead (s : State) : exec .ctxRead s = execCtxRead s := rfl
theorem exec_ctxWrite (s : State) : exec .ctxWrite s = execCtxWrite s := rfl
theorem exec_ctxResume (s : State) : exec .ctxResume s = execCtxResume s := rfl
theorem exec_ctxKill (s : State) : exec .ctxKill s = execCtxKill s := rfl
theorem exec_ctxInval (s : State) : exec .ctxInval s = execCtxInval s := rfl

theorem onlyBits_iff (v : DWord) (n : Nat) : onlyBits v n = true ↔ v.toNat < 2 ^ n := by
  simp [onlyBits]

/-! ### Creating, reading and writing a context record (14 R342) -/

theorem ctxCreate_answers (h : s.Request 0x01 8 noContext) (h0 : (s.mbB 0).toNat < 2 ^ 8) :
    let used (n : Nat) : Bool := n == 0xFFFFFFFF || s.ctxs.any (fun y => y.id.toNat == n && !y.destroyed)
    let f := s.freshNumber 32 used s.ctxs.length
    s.Answers .ctxCreate (State.grantCtx { f.2 with ctxs := f.2.ctxs ++ [Ctx.fresh (BitVec.ofNat 32 f.1) (s.mbB 0)
      (s.availableTo (bitsOf (s.mbB 0) 0 6))] } f.2.ctxs.length) (BitVec.ofNat 32 f.1) [] := by
  intro used f
  rw [State.Answers, exec_ctxCreate, execCtxCreate, serve0_passes h (by decide) (by decide) rfl]
  simp only [(onlyBits_iff _ _).mpr h0, Bool.not_true, Bool.false_eq_true, if_false, resOk, used, f]

theorem ctxRead_answers (h : s.RequestFor 0x03 16 c x) (h0 : (s.mbB 0).toNat % 8 = 0) (h1 : (s.mbB 1).toNat % 8 = 0)
    (hsize : (s.mbB 0).toNat + (s.mbB 1).toNat ≤ recordSize) :
    (s.capFor 4 (.record c) c (s.mbB 0).toNat (s.mbB 1).toNat false = none →
      exec .ctxRead s = .next (s.respond { s.refuse resRefused 0 with state := s.frontError })) ∧
    (s.capFor 4 (.record c) c (s.mbB 0).toNat (s.mbB 1).toNat false = some t → s.Answers .ctxRead t s.mbCtx
      ((List.range ((s.mbB 1).toNat / 8)).flatMap (fun k => bytesOfNat 8 (x.record ((s.mbB 0).toNat + 8 * k)).toNat))) := by
  have hserve : exec .ctxRead s = .next (s.respond (s.answerVia (.record c) c (s.mbB 0).toNat (s.mbB 1).toNat false (fun t =>
      t.answer t ((List.range ((s.mbB 1).toNat / 8)).flatMap (fun k => bytesOfNat 8 (x.record ((s.mbB 0).toNat + 8 * k)).toNat))))) := by
    rw [exec_ctxRead, execCtxRead, serveCtx_passes h (by decide) (by decide) rfl]
    simp [h0, h1, Nat.not_lt.mpr hsize]
  rw [State.Answers, hserve, State.answerVia]
  constructor
  · intro hcap
    rw [hcap]
  · intro hcap
    rw [hcap]
    simp only [State.answer, capFor_mbCtx hcap, resOk]

theorem ctxWrite_answers (h : s.RequestFor 0x04 16 c x) (h0 : (s.mbB 0).toNat % 8 = 0) (hsize : (s.mbB 0).toNat + 8 ≤ recordSize)
    (hro : recordRo (s.mbB 0).toNat = false) (hok : recordFieldOk (s.mbB 0).toNat (s.mbB 1) = true)
    (hplain : (s.mbB 0).toNat ∉ [0x030, 0x060, 0x0A8]) (hcap : s.capFor 4 (.record c) c (s.mbB 0).toNat 8 true = some t) :
    s.Answers .ctxWrite (t.modCtx c (fun y => { y with regs := y.regs.put (s.mbB 0).toNat (s.mbB 1) })) s.mbCtx [] := by
  obtain ⟨-, -, -, hlen, -⟩ := h.1
  simp only [List.mem_cons, List.not_mem_nil, or_false, not_or] at hplain
  obtain ⟨hglint, halloc, hrec⟩ := hplain
  have hkeeps : ((s.mbB 0).toNat == 48) = false := beq_false_of_ne hglint
  rw [State.Answers, exec_ctxWrite, execCtxWrite, serveCtx_passes h (by decide) (by decide) rfl]
  simp [hlen, h0, Nat.not_lt.mpr hsize, hro, hok, hkeeps, halloc, hrec, State.answerVia, hcap, State.answer, capFor_mbCtx hcap, resOk]

/-! ### Stopping a context (14 R347, R356) -/

theorem ctxStop_answers (h : s.RequestFor 0x05 16 c x) (h0 : completionOk (s.mbB 0) = true) (save : Bool)
    (h1 : s.mbB 1 = if save then 1#64 else 0#64) (hst : x.st = .resident ∨ (save = true ∧ x.st = .faulted)) :
    s.ctxStop save = s.respond (s.answer ((s.begin_ 0x05 c (if save then 1 else 0) []).requestClose c
      ⟨.service s.begun.length, save⟩) []) := by
  have hbit : (s.mbB 1).getLsbD 0 = save := by rw [h1]; cases save <;> rfl
  have hwide : onlyBits (s.mbB 1) 1 = true := by rw [h1]; cases save <;> rfl
  have hstate : (x.st == .resident || (save && x.st == .faulted)) = true := by simpa using hst
  rw [State.ctxStop, hbit, serveCtx_passes h (by decide) (by decide) rfl]
  simp [h0, hwide, hstate]

/-! ### Resuming a context (14 R339, R357; 17 R387) -/

theorem resumeSaved_answers (h : s.RequestFor 0x06 0 c x) (hst : x.st = .saved) (htag : s.giveTag c = some t)
    (hy : ((t.takeTier c x).putRegs c x).ctxs[c]? = some y)
    (himage : ∀ img, y.image = some img → ((t.takeTier c x).putRegs c x).imageReadable y = true ∧
      ((t.takeTier c x).putRegs c x).restore c img = .ok u)
    (hbare : y.image = none → ((t.takeTier c x).putRegs c x).startBare c x = .ok u) :
    s.Answers .ctxResume (u.modCtx c (fun y => { y with ckptStart := y.resClock })) s.mbCtx [] := by
  rw [State.Answers, exec_ctxResume, execCtxResume, serveCtx_passes h (by decide) (by decide) rfl]
  simp only [hst, State.resumeSaved, htag, hy]
  cases hi : y.image with
  | none => simp only [hbare hi, State.answer, resOk]
  | some img =>
    obtain ⟨hread, hrestore⟩ := himage img hi
    simp only [hread, hrestore, if_true, State.answer, resOk]

theorem resumeFaulted_answers (h : s.RequestFor 0x06 0 c x) (hst : x.st = .faulted) (htag : s.giveTag c = some t)
    (hlists : ((t.dropDecls c).putRegs c x).readyLists c { x with act := x.regs } [] = .ok u) :
    s.Answers .ctxResume (((u.modCtx c (fun y => { y with
      agDirty := (newGranules s.mem x { x with act := x.regs }).foldl addMark y.agDirty })).unfault c x).modCtx c
        (fun y => { y with ckptStart := y.resClock })) s.mbCtx [] := by
  rw [State.Answers, exec_ctxResume, execCtxResume, serveCtx_passes h (by decide) (by decide) rfl]
  simp only [hst]
  simp only [State.resumeFaulted, htag, hlists, State.answer, resOk]
  rfl

theorem grant_ctxs (s : State) (o : CapObj) (base : DWord) (len : Nat) (rd wr : Bool) (owner : BitVec 32) :
    (s.grant o base len rd wr owner).ctxs = s.ctxs := by
  unfold State.grant
  split <;> rfl

theorem holdRings_ctxs (s : State) (c first : Nat) : (s.holdRings c first).ctxs = s.ctxs := by
  unfold State.holdRings
  generalize (s.rings.zipIdx).drop first = l
  generalize s.ownerOf c = owner
  induction l generalizing s with
  | nil => rfl
  | cons e l ih => rw [List.foldl_cons, ih, grant_ctxs]

/-- The context keeps its written registers when it takes another number. -/
theorem renumber_ctx (num : BitVec 32) (hx : s.ctxs[c]? = some x) :
    ∃ y, (s.renumber c num).ctxs[c]? = some y ∧ y.regs = x.regs := by
  unfold State.renumber
  split
  · exact ⟨x, hx, rfl⟩
  · exact ⟨_, AfterglowEvents.modCtx_ctx hx _, rfl⟩

theorem adopt_ctx (r : TierImage) (hx : s.ctxs[c]? = some x) :
    ∃ y img, (s.adopt c r).ctxs[c]? = some y ∧ y.image = some img ∧ img.ivl = r.image.ivl ∧ y.regs = x.regs := by
  obtain ⟨z, hz, hregs⟩ := renumber_ctx r.num hx
  have hroom : (((s.renumber c r.num).makeRoom c r.image).holdRings c (s.renumber c r.num).rings.length).ctxs[c]? = some z := by
    rw [holdRings_ctxs]
    exact hz
  exact ⟨_, _, AfterglowEvents.modCtx_ctx hroom _, rfl, rfl, hregs⟩

theorem takeTier_none (h : t.tierFor x = none) : t.takeTier c x = t := by
  rw [State.takeTier, h]

theorem takeTier_image {r : TierImage} (h : t.tierFor x = some r) (hx : t.ctxs[c]? = some x) :
    ∃ y img, (t.takeTier c x).ctxs[c]? = some y ∧ y.image = some img ∧ img.ivl = r.image.ivl ∧ y.regs = x.regs := by
  rw [State.takeTier, h]
  exact adopt_ctx r hx

/-! ### Killing and destroying a context, and invalidation (14 R339; 02 R74) -/

theorem ctxDestroy_answers (h : s.RequestFor 0x02 8 c x) (h0 : completionOk (s.mbB 0) = true) :
    s.Answers .ctxDestroy { (s.killCtx c).2 with
      begun := (s.begin_ 0x02 c 0 [(s.killCtx c).1]).begun
      rings := (s.killCtx c).2.rings.map (fun (r : Ring) => if r.ctx = c ∧ r.st ≠ .free then { r with st := .destroying } else r) }
      s.mbCtx [] := by
  rw [State.Answers, exec_ctxDestroy, execCtxDestroy, serveCtx_passes h (by decide) (by decide) rfl]
  simp only [h0, Bool.not_true, Bool.false_eq_true, if_false, State.answer, resOk]

theorem ctxKill_answers (h : s.RequestFor 0x07 8 c x) (h0 : completionOk (s.mbB 0) = true) :
    s.Answers .ctxKill { (s.killCtx c).2 with begun := (s.begin_ 0x07 c 0 [(s.killCtx c).1]).begun } s.mbCtx [] := by
  rw [State.Answers, exec_ctxKill, execCtxKill, serveCtx_passes h (by decide) (by decide) rfl]
  simp only [h0, Bool.not_true, Bool.false_eq_true, if_false, State.answer, resOk]

theorem ctxInval_answers (h : s.RequestFor 0x08 24 c x) (h0 : completionOk (s.mbB 0) = true) (h1 : (s.mbB 1).toNat % 4096 = 0)
    (h2 : (s.mbB 2).toNat % 4096 = 0) :
    s.Answers .ctxInval ((s.dropRange c (vaBits (s.mbB 1)) (s.mbB 2).toNat).begin_ 0x08 c 0 []) s.mbCtx [] := by
  rw [State.Answers, exec_ctxInval, execCtxInval, serveCtx_passes h (by decide) (by decide) rfl]
  simp [h0, h1, h2, State.answer, resOk]

/-- Settles O57. -/
theorem contextServiceResults : Obligations.ContextServiceResults := by
  unfold Obligations.ContextServiceResults
  intro s c x
  refine ⟨ctxCreate_answers, ctxDestroy_answers, fun t h h0 h1 => ctxRead_answers h h0 h1, fun t h => ctxWrite_answers h, fun h h0 => ⟨?close, ?save⟩,
    fun t y u h => resumeSaved_answers h, fun t => ⟨takeTier_none, fun r hr => takeTier_image hr⟩, fun t u h => resumeFaulted_answers h,
    ctxKill_answers, ctxInval_answers⟩
  case close =>
    intro h1 hst
    exact congrArg _ (ctxStop_answers h h0 false h1 (.inl hst))
  case save =>
    intro h1 hst
    exact congrArg _ (ctxStop_answers h h0 true h1 (hst.imp_right (⟨rfl, ·⟩)))

end Sys2Proof.Services

/-! PROOFS of 19_queue_services: OBJ_UNLOAD takes back Lantern's capability to the object, which O58 leaves out (O58). -/

namespace Sys2Proof.Services
open Sys2Proof.Machine

/-! ### OBJ_UNLOAD (15 R376; 19 R408, R411) -/

theorem exec_objUnload (s : State) : exec .objUnload s = execObjUnload s := rfl

/-- OBJ_UNLOAD takes back the capability to the object too. -/
theorem objUnload_answers {s : State} {c n : Nat} {x : Ctx} {o : Obj} (h : s.RequestFor 0x21 16 c x) (h0 : completionOk (s.mbB 0) = true)
    (hf : s.objs.findIdx? (fun y => y.ctx == c && y.num == (s.mbB 1).toNat && !y.unloaded) = some n) (ho : s.objs[n]? = some o)
    (hr : o.revoked = false) (ht : s.tableNaming x (s.mbB 1).toNat = none) (hb : x.binNaming (s.mbB 1).toNat = none) :
    s.Answers .objUnload (((s.modObj n (fun y => { y with revoked := true })).revokeObj (.object n)).begin_ 0x21 c n []) s.mbCtx [] := by
  rw [State.Answers, exec_objUnload, execObjUnload, serveCtx_passes h (by decide) (by decide) rfl]
  simp only [h0, hf, ho, hr, ht, hb, State.answer, resOk, Bool.not_true, Bool.false_eq_true, if_false]

/-- An object of context 0, with number 0. -/
def unloadObject : Obj :=
  { num := 0, ctx := 0, key := ⟨0#256, 0#64, []⟩, base := 0#64, gotb := 0#64, limit := 0#64, ro := 0, rw := 0, pages := [], kernels := [],
    globals := [], revoked := false, unloaded := false }

/-- Lantern's capability to it. -/
def unloadCap : Cap :=
  { obj := .object 0, base := 0#64, len := 0#48, rd := true, wr := true, owner := 0#32, gen := 0#16, live := true }

/-- A device asked to unload object 0 of context 0: 16 bytes of body, all zero, in a request with code 0x21. -/
def unloadState : State :=
  { State.reset with
    mbBusy := true, mbBuf := ⟨[(0, 0x21#8), (4, 0x10#8)], []⟩, ctxs := [Ctx.fresh 0#32 0#64 0], objs := [unloadObject], caps := [unloadCap] }

theorem unloadState_requests : unloadState.RequestFor 0x21 16 0 (Ctx.fresh 0#32 0#64 0) := by
  refine ⟨⟨rfl, rfl, ?_, ?_, ?_, rfl, rfl⟩, ?_, rfl⟩ <;> decide

/-- Refutes O58: its clause for OBJ_UNLOAD leaves Lantern's capability to the object as it was, and the model takes it back at once with
the handles (19 R408), as `unloadState` shows. -/
theorem not_queueServiceResults : ¬ Obligations.QueueServiceResults := by
  intro h
  obtain ⟨-, -, -, -, -, -, -, -, hunload⟩ := h unloadState 0 0 0 (Ctx.fresh 0#32 0#64 0) (Ring.fresh 0 0 0#64 4) unloadObject
  have hclaim := hunload unloadState_requests (by decide) (by decide) rfl rfl (by decide) (by decide)
  have hmodel := objUnload_answers unloadState_requests (by decide) (n := 0) (by decide) rfl rfl (by decide) (by decide)
  have hcaps := congrArg State.caps (Host.Outcome.next.inj (hclaim.symm.trans hmodel))
  have hkept : [unloadCap] = [{ unloadCap with live := false, gen := 1#16 }] := hcaps
  exact absurd hkept (by decide)
end Sys2Proof.Services

/-! PROOFS of 13_sample_group_objects: the words of sample groups, their objects and advantages (O34). -/

namespace Sys2Proof.SampleGroups

open Sys2Proof Sys2Proof.Machine Sys2Proof.Laws

/-! ### Finalisation (13 R330) -/

/-- What a sibling has once the reported ones before it have taken `given` advantages of `advs`. -/
def settledSib (advs : List Word) (given : Nat) (b : Sib) : Sib :=
  if b.kind = .reported then
    match advs[given]? with
    | some a => { b with adv := a, degenerate := false }
    | none => { b with adv := 0#32, degenerate := true }
  else { b with adv := 0#32, degenerate := false }

/-- The siblings of a list that have reported. -/
def reported (l : List Sib) : List Sib := l.filter (fun b => b.kind == .reported)

theorem reported_cons_of {b : Sib} (h : b.kind = .reported) (l : List Sib) : reported (b :: l) = b :: reported l := by
  simp [reported, h]

theorem reported_cons_of_ne {b : Sib} (h : b.kind ≠ .reported) (l : List Sib) : reported (b :: l) = reported l := by
  simp [reported, h]

theorem settledSib_cons (a : Word) (more : List Word) (n : Nat) (b : Sib) :
    settledSib (a :: more) (n + 1) b = settledSib more n b := by
  simp [settledSib]

theorem settledSib_nil (n : Nat) (b : Sib) : settledSib [] n b = settledSib [] 0 b := by
  simp [settledSib]

theorem spread_given {x : Sib} (h : x.kind = .reported) (l : List Sib) (a : Word) (more : List Word) :
    spread (x :: l) (a :: more) = { x with adv := a, degenerate := false } :: spread l more := by
  simp [spread, h]

theorem spread_without {x : Sib} (h : x.kind = .reported) (l : List Sib) :
    spread (x :: l) [] = { x with adv := 0#32, degenerate := true } :: spread l [] := by
  simp [spread, h]

theorem spread_other {x : Sib} (h : x.kind ≠ .reported) (l : List Sib) (advs : List Word) :
    spread (x :: l) advs = { x with adv := 0#32, degenerate := false } :: spread l advs := by
  simp [spread, h]

theorem spread_getElem? {l : List Sib} {b : Sib} {i : Nat} (h : l[i]? = some b) (advs : List Word) :
    (spread l advs)[i]? = some (settledSib advs (reported (l.take i)).length b) := by
  induction l generalizing advs i with
  | nil => simp at h
  | cons x l ih =>
    cases i with
    | zero =>
      obtain rfl : x = b := by simpa using h
      by_cases hx : x.kind = .reported
      · cases advs with
        | nil => simp [spread_without hx, settledSib, reported, hx]
        | cons a more => simp [spread_given hx, settledSib, reported, hx]
      · simp [spread_other hx, settledSib, hx]
    | succ i =>
      rw [List.getElem?_cons_succ] at h
      by_cases hx : x.kind = .reported
      · rw [List.take_succ_cons, reported_cons_of hx, List.length_cons]
        cases advs with
        | nil => rw [spread_without hx, List.getElem?_cons_succ, ih h, settledSib_nil, ← settledSib_nil (_ + 1)]
        | cons a more => rw [spread_given hx, List.getElem?_cons_succ, ih h, settledSib_cons]
      · rw [List.take_succ_cons, reported_cons_of_ne hx, spread_other hx, List.getElem?_cons_succ, ih h]

theorem spread_length (l : List Sib) (advs : List Word) : (spread l advs).length = l.length := by
  induction l generalizing advs with
  | nil => rfl
  | cons x l ih =>
    by_cases hx : x.kind = .reported
    · cases advs with
      | nil => simp [spread_without hx, ih]
      | cons a more => simp [spread_given hx, ih]
    · simp [spread_other hx, ih]

/-- Finalisation takes no sibling away. -/
theorem spread_gone (l : List Sib) (advs : List Word) : (spread l advs).all (·.gone) = l.all (·.gone) := by
  induction l generalizing advs with
  | nil => rfl
  | cons x l ih =>
    by_cases hx : x.kind = .reported
    · cases advs with
      | nil => simp [spread_without hx, ih]
      | cons a more => simp [spread_given hx, ih]
    · simp [spread_other hx, ih]

theorem advantages_length (eps : Word) (rewards : List Machine.Num) : (advantages eps rewards).length = rewards.length := by
  simp [advantages]

/-- The rewards of the siblings that have reported, in index order. -/
def rewardsOf (o : Sgo) : List Machine.Num := (reported o.sibs).map (fun b => decodeFloat .fp32 b.reward.toNat)

/-- A sibling that has reported comes after fewer of them than there are. -/
theorem reported_take_lt {l : List Sib} {b : Sib} {i : Nat} (h : l[i]? = some b) (hb : b.kind = .reported) :
    (reported (l.take i)).length < (reported l).length := by
  have hi : i < l.length := (List.getElem?_eq_some_iff.mp h).1
  have whole : reported l = reported (l.take i) ++ reported (l.drop i) := by
    rw [reported, reported, reported, ← List.filter_append, List.take_append_drop]
  have next : l.drop i = b :: l.drop (i + 1) := by
    rw [List.drop_eq_getElem_cons hi, (List.getElem?_eq_some_iff.mp h).2]
  rw [whole, List.length_append, next, reported_cons_of hb, List.length_cons]
  omega

section
variable {o : Sgo} {b : Sib} {i : Nat}

theorem finalise_sibs (o : Sgo) :
    o.finalise.sibs = spread o.sibs (if (rewardsOf o).length < 2 then [] else advantages o.eps (rewardsOf o)) := rfl

theorem finalise_of_not_reported (h : o.sibs[i]? = some b) (hb : b.kind ≠ .reported) :
    o.finalise.sibs[i]? = some { b with adv := 0#32, degenerate := false } := by
  rw [finalise_sibs, spread_getElem? h, settledSib, if_neg hb]

theorem finalise_of_few (h : o.sibs[i]? = some b) (hb : b.kind = .reported) (few : (rewardsOf o).length < 2) :
    o.finalise.sibs[i]? = some { b with adv := 0#32, degenerate := true } := by
  rw [finalise_sibs, spread_getElem? h, if_pos few, settledSib, if_pos hb]
  rfl

theorem finalise_of_many (h : o.sibs[i]? = some b) (hb : b.kind = .reported) (many : 2 ≤ (rewardsOf o).length) :
    ∃ a, (advantages o.eps (rewardsOf o))[(reported (o.sibs.take i)).length]? = some a ∧
      o.finalise.sibs[i]? = some { b with adv := a, degenerate := false } := by
  have room : (reported (o.sibs.take i)).length < (advantages o.eps (rewardsOf o)).length := by
    rw [advantages_length, rewardsOf, List.length_map]
    exact reported_take_lt h hb
  refine ⟨_, List.getElem?_eq_getElem room, ?_⟩
  rw [finalise_sibs, spread_getElem? h, if_neg (Nat.not_lt.mpr many), settledSib, if_pos hb, List.getElem?_eq_getElem room]

end

/-- The advantages of the rewards 1, 4, 1: one value of each sign. -/
theorem advantages_example : advantages 0x35800000#32 ([0x3F800000, 0x40800000, 0x3F800000].map (decodeFloat .fp32)) =
    [0xBF3504EB#32, 0x3FB504EB#32, 0xBF3504EB#32] := by
  decide +kernel


/-! ### The object that a reference names (13 R322, R324) -/

section
variable {s : State} {c : Nat} {r : SibRef} {o : Sgo} {z : Ctx}

/-- A change of an object that keeps its number, its generation and its life is found under the same reference. -/
theorem sgoOf_modSgo {f : Sgo → Sgo} (hf : ∀ o, (f o).num = o.num ∧ (f o).gen = o.gen ∧ (f o).live = o.live) :
    (s.modSgo c r f).sgoOf c r = (s.sgoOf c r).map f := by
  have keys : (fun o : Sgo => o.num == r.obj && o.gen == r.gen && o.live) ∘ (fun o => if o.num = r.obj ∧ o.gen = r.gen then f o else o) =
      fun o => o.num == r.obj && o.gen == r.gen && o.live := by
    funext o
    obtain ⟨hn, hg, hl⟩ := hf o
    by_cases named : o.num = r.obj ∧ o.gen = r.gen
    · simp [named, hn, hg, hl]
    · simp [named]
  simp only [State.sgoOf, State.modSgo, modCtx_ctxs, List.getElem?_modify, if_true]
  cases s.ctxs[c]? with
  | none => rfl
  | some z =>
    simp only [Option.map_eq_map, Option.map_some, List.find?_map, keys]
    cases found : z.sgos.find? (fun o => o.num == r.obj && o.gen == r.gen && o.live) with
    | none => rfl
    | some o =>
      have named := List.find?_some found
      simp only [Bool.and_eq_true, beq_iff_eq] at named
      simp [named.1]

theorem sgoOf_of_ctxs {t : State} (h : t.ctxs = s.ctxs) : t.sgoOf c r = s.sgoOf c r := by
  simp only [State.sgoOf, h]

theorem wakeGroup_ctxs (s : State) (g : Nat) : (s.wakeGroup g).ctxs = s.ctxs := by
  unfold State.wakeGroup
  split
  · rfl
  · split
    · split <;> rfl
    · split <;> rfl

theorem wakeGroups_ctxs (l : List Nat) (s : State) : (l.foldl State.wakeGroup s).ctxs = s.ctxs := by
  induction l generalizing s with
  | nil => rfl
  | cons g l ih => rw [List.foldl_cons, ih, wakeGroup_ctxs]

/-- An object with a WAITING sibling is not final, and stays so. -/
theorem settleSgo_waits (ho : s.sgoOf c r = some o) (open_ : o.final = false) (waits : ∃ b ∈ o.sibs, b.kind = .waiting) :
    s.settleSgo c r = s := by
  have some_waits : o.sibs.all (fun b => b.kind != .waiting) = false := by simpa using waits
  simp only [State.settleSgo, ho, open_, some_waits, Bool.and_false, Bool.false_eq_true, if_false, Bool.false_and]

/-- An object of which no sibling is WAITING is finalised at once, and its groups wake; it is gone when its siblings are. -/
theorem settleSgo_finalises (ho : s.sgoOf c r = some o) (open_ : o.final = false) (none_waits : ∀ b ∈ o.sibs, b.kind ≠ .waiting) :
    let f := (s.boundTo c o).foldl State.wakeGroup (s.modSgo c r Sgo.finalise)
    s.settleSgo c r = if o.sibs.all (·.gone) then f.modSgo c r (fun y => { y with live := false }) else f := by
  intro f
  have all_done : o.sibs.all (fun b => b.kind != .waiting) = true := by simpa using none_waits
  have after : f.sgoOf c r = some o.finalise := by
    rw [sgoOf_of_ctxs (wakeGroups_ctxs _ _), sgoOf_modSgo (f := Sgo.finalise) (fun _ => ⟨rfl, rfl, rfl⟩), ho]
    rfl
  have same : o.finalise.sibs.all (·.gone) = o.sibs.all (·.gone) := spread_gone ..
  have final : o.finalise.final = true := rfl
  simp only [State.settleSgo, ho, open_, all_done, Bool.not_false, Bool.and_self, if_true, f, after, same, final, Bool.true_and]

end

/-! ### What the words of sample groups find and return (13 R326 to R329) -/

section
variable {u : State} {c : Nat} {r : SibRef} {rew : Word} {o : Sgo} {b : Sib} {z : Ctx}

theorem sgReward_gone (h : (u.sgExpire c r).sgoOf c r = none) :
    u.sgReward c r rew = (0x0000010200000000#64, u.sgExpire c r) := by
  simp only [State.sgReward, h]
  rfl

/-- A float of 32 bits is finite when its magnitude lies below that of infinity. -/
theorem isFin_decode_fp32 (rew : Word) : (decodeFloat .fp32 rew.toNat).isFin = decide (rew.toNat % 2 ^ 31 < 0x7F800000) := by
  have top : FloatFmt.fp32.maxMag = 0x7F7FFFFF := rfl
  have sign : FloatFmt.fp32.signBit = 2 ^ 31 := rfl
  unfold decodeFloat
  simp only [top, sign]
  by_cases big : 0x7F7FFFFF < rew.toNat % 2 ^ 31
  · have infinite : decide (rew.toNat % 2 ^ 31 < 0x7F800000) = false := decide_eq_false (by omega)
    rw [if_pos big, infinite]
    split <;> rfl
  · have finite : decide (rew.toNat % 2 ^ 31 < 0x7F800000) = true := decide_eq_true (by omega)
    rw [if_neg big, finite]
    split <;> rfl

/-- An object of which sibling `i` has posted a reward, at a resident clock. -/
def posted (i : Nat) (rew : Word) (clock : Nat) (p : Sgo) : Sgo :=
  { p with
    sibs := p.sibs.modify i (fun y => { y with
      kind := if decide (rew.toNat % 2 ^ 31 < 0x7F800000) then .reported else .nonfin, reward := rew })
    due := some (p.due.getD (clock + 256 * p.timeout)) }

theorem modSgo_congr {s : State} {f g : Sgo → Sgo} (h : ∀ p, f p = g p) : s.modSgo c r f = s.modSgo c r g := by
  rw [funext h]

theorem sgReward_waiting (ho : (u.sgExpire c r).sgoOf c r = some o) (hb : o.sibs[r.idx]? = some b)
    (hz : (u.sgExpire c r).ctxs[c]? = some z) (waits : b.kind = .waiting) :
    let e1 := ((u.sgExpire c r).modSgo c r (posted r.idx rew z.resClock)).settleSgo c r
    u.sgReward c r rew = (sgResult 0#32 (if decide (rew.toNat % 2 ^ 31 < 0x7F800000) then 1 else 4)
      (match e1.sgoOf c r with
        | some p => p.final
        | none => true), e1) := by
  intro e1
  simp only [State.sgReward, ho, hb, hz, waits, if_true, isFin_decode_fp32]
  rw [modSgo_congr (g := posted r.idx rew z.resClock) ?posts]
  case posts =>
    intro p
    unfold posted
    cases p.due <;> rfl
  rfl

theorem sgReward_again (ho : (u.sgExpire c r).sgoOf c r = some o) (hb : o.sibs[r.idx]? = some b) (done : b.kind ≠ .waiting) :
    u.sgReward c r rew =
      (sgResult 0#32 (if b.kind = .cancelled then 5 else if b.kind = .timedout then 2 else 6) o.final, u.sgExpire c r) := by
  simp only [State.sgReward, ho, hb, if_neg done]
  cases hk : b.kind with
  | waiting => exact absurd hk done
  | reported => rfl
  | nonfin => rfl
  | cancelled => rfl
  | timedout => rfl

theorem sgResult_fields (adv : Word) {st : Nat} (f : Bool) (h : st < 256) :
    let v := sgResult adv st f
    v.extractLsb' 0 32 = adv ∧ (v.extractLsb' 32 8).toNat = st ∧ v.getLsbD 40 = f ∧ v.extractLsb' 41 23 = 0#23 := by
  have bound := adv.isLt
  have small : adv.toNat + 2 ^ 32 * st + (if f then 2 ^ 40 else 0) < 2 ^ 64 := by split <;> omega
  simp (disch := decide) only [sgResult, ← BitVec.toNat_inj, CopyEngine.extractLsb'_ofNat_toNat small, CopyEngine.getLsbD_ofNat_eq, BitVec.toNat_ofNat]
  cases f
  all_goals
    simp only [if_true, Bool.false_eq_true, if_false, decide_eq_true_eq, decide_eq_false_iff_not]
    omega

theorem rewardRest_eq {k d : Nat} {a : DWord} {y : Wave} {h : Group} (hy : u.waves[k]? = some y) (hg : u.groups[y.group]? = some h)
    (hs : h.sib = some r) : u.rewardRest k d a =
      ((u.sgReward y.ctx r (a.extractLsb' 0 32)).2.modWave k
        (fun x => x.addOut (.s d (u.sgReward y.ctx r (a.extractLsb' 0 32)).1))).proceed k := by
  simp only [State.rewardRest, hy, hg, Option.bind_some, hs]

section
variable {k d : Nat} {y : Wave} (hy : y.ctx = c)
include hy

theorem sgWaitLook_gone (h : (u.sgExpire c r).sgoOf c r = none) : u.sgWaitLook k d y r =
    some (((((u.sgExpire c r).modWave k (fun x => x.addOut (.s d 0x0000010200000000#64))).acquire k).proceed k)) := by
  subst hy
  simp only [State.sgWaitLook, h]
  rfl

theorem sgWaitLook_final (ho : (u.sgExpire c r).sgoOf c r = some o) (hb : o.sibs[r.idx]? = some b) (final : o.final = true) :
    u.sgWaitLook k d y r = some ((((u.sgExpire c r).modWave k (fun x => x.addOut (.s d (sgResult b.adv b.finalStatus true)))).acquire k).proceed k) := by
  subst hy
  simp only [State.sgWaitLook, ho, hb, final, if_true]

theorem sgWaitLook_no_reward (ho : (u.sgExpire c r).sgoOf c r = some o) (hb : o.sibs[r.idx]? = some b) (final : o.final = false)
    (waits : b.kind = .waiting) : u.sgWaitLook k d y r =
      some (((u.sgExpire c r).modWave k (fun x => x.addOut (.s d 0x0000000700000000#64))).proceed k) := by
  subst hy
  simp only [State.sgWaitLook, ho, hb, final, waits, if_true, Bool.false_eq_true, if_false]
  rfl

theorem sgWaitLook_spins (ho : (u.sgExpire c r).sgoOf c r = some o) (hb : o.sibs[r.idx]? = some b) (final : o.final = false)
    (waits : b.kind ≠ .waiting) : u.sgWaitLook k d y r = none := by
  subst hy
  simp only [State.sgWaitLook, ho, hb, final, waits, Bool.false_eq_true, if_false]

end

theorem sgCancel_gone (h : (u.sgExpire c r).sgoOf c r = none) : u.sgCancel c r = u.sgExpire c r := by
  simp only [State.sgCancel, h]

/-- The positions of a list at which something holds. -/
theorem mem_range_filter_iff {α : Type} (l : List α) (p : α → Bool) (i : Nat) :
    i ∈ (List.range l.length).filter (fun i => (l[i]?).any p) ↔ ∃ x, l[i]? = some x ∧ p x = true := by
  rw [List.mem_filter, List.mem_range, Option.any_eq_true]
  exact and_iff_right_of_imp fun ⟨x, hx, _⟩ => (List.getElem?_eq_some_iff.mp hx).1

/-- The groups bound to a reference, the launches that hold it, and the bins that hold its record, in order. -/
def groupsOf (s : State) (c : Nat) (r : SibRef) : List Nat :=
  (List.range s.groups.length).filter (fun g => match s.groups[g]? with
    | some x => x.ctx == c && x.sib == some r
    | none => false)
def launchesOf (s : State) (c : Nat) (r : SibRef) : List Nat :=
  (List.range s.launches.length).filter (fun l => match s.launches[l]? with
    | some x => x.ctx == c && x.sib == some r && x.listed
    | none => false)
def binsOf (s : State) (c : Nat) (r : SibRef) : List (Nat × Bin) :=
  match s.ctxs[c]? with
  | some x => x.bins.filter (fun y => y.2.sib == some r && y.2.slots != [])
  | none => []

theorem mem_groupsOf {s : State} {g : Nat} : g ∈ groupsOf s c r ↔ ∃ x, s.groups[g]? = some x ∧ x.ctx = c ∧ x.sib = some r := by
  have same : groupsOf s c r = (List.range s.groups.length).filter (fun g => (s.groups[g]?).any (fun x => x.ctx == c && x.sib == some r)) := by
    unfold groupsOf
    congr 1
    funext g
    cases s.groups[g]? <;> rfl
  rw [same, mem_range_filter_iff]
  simp

theorem mem_launchesOf {s : State} {l : Nat} :
    l ∈ launchesOf s c r ↔ ∃ x, s.launches[l]? = some x ∧ x.ctx = c ∧ x.sib = some r ∧ x.listed = true := by
  have same : launchesOf s c r = (List.range s.launches.length).filter
      (fun l => (s.launches[l]?).any (fun x => x.ctx == c && x.sib == some r && x.listed)) := by
    unfold launchesOf
    congr 1
    funext l
    cases s.launches[l]? <;> rfl
  rw [same, mem_range_filter_iff]
  simp [and_assoc]

theorem mem_binsOf {s : State} {q : Nat × Bin} :
    q ∈ binsOf s c r ↔ ∃ x, s.ctxs[c]? = some x ∧ q ∈ x.bins ∧ q.2.sib = some r ∧ q.2.slots ≠ [] := by
  unfold binsOf
  cases s.ctxs[c]? with
  | none => simp
  | some x => simp

/-- A cancelled reference ends its groups, then its launches, then its records in bins. -/
theorem sgCancel_ends (ho : (u.sgExpire c r).sgoOf c r = some o) :
    let e := u.sgExpire c r
    let e1 := if o.final then e else
      (e.modSgo c r (fun p => { p with sibs := p.sibs.modify r.idx (fun y => { y with kind := .cancelled }) })).settleSgo c r
    u.sgCancel c r = (binsOf e1 c r).foldl (fun t q => t.dropSet c q.1 q.2)
      ((launchesOf e1 c r).foldl (fun t l => t.modLaunch l (fun x => { x with dead := true }))
        ((groupsOf e1 c r).foldl State.killGroup e1)) := by
  intro e e1
  simp only [State.sgCancel, ho]
  rfl

section
variable {x : DWord} (hx : SibRef.ofWord x = r)
include hx

theorem sgQuery_gone (h : u.sgoOf c r = none) : u.sgQuery c x = 0x10000000#64 := by
  subst hx
  simp only [State.sgQuery, h]
  rfl

theorem sgQuery_object (h : u.sgoOf c r = some o) (whole : x.getLsbD 63 = false) : u.sgQuery c x = o.objWord := by
  subst hx
  simp only [State.sgQuery, h, whole, Bool.false_eq_true, if_false]

theorem sgQuery_sibling (h : u.sgoOf c r = some o) (hb : o.sibs[r.idx]? = some b) (one : x.getLsbD 63 = true) :
    u.sgQuery c x = if o.final then sgResult b.adv b.finalStatus true else sgResult 0#32 b.openStatus false := by
  subst hx
  simp only [State.sgQuery, h, one, if_true, Sgo.sibWord, hb]

end

theorem finalStatus_eq (b : Sib) : b.finalStatus = (match b.kind with
    | .reported => if b.degenerate then 3 else 0
    | .nonfin => 4
    | .cancelled => 5
    | .timedout => 2
    | .waiting => 7) := by
  unfold Sib.finalStatus
  cases b.kind <;> rfl

theorem openStatus_eq (b : Sib) : b.openStatus = (match b.kind with
    | .reported => 1
    | .nonfin => 4
    | .cancelled => 5
    | .timedout => 2
    | .waiting => 7) := by
  unfold Sib.openStatus
  cases b.kind <;> rfl

/-- The fields of a word with three counts of nine bits and three flags. -/
theorem objWord_fields {n rep res : Nat} (f x d : Bool) (hn : n ≤ 256) (hrep : rep ≤ 256) (hres : res ≤ 256) :
    let v := BitVec.ofNat 64 (n + 2 ^ 9 * rep + 2 ^ 18 * res + (if f then 2 ^ 27 else 0) + (if x then 2 ^ 29 else 0) +
      (if d then 2 ^ 30 else 0))
    (v.extractLsb' 0 9).toNat = n ∧ (v.extractLsb' 9 9).toNat = rep ∧ (v.extractLsb' 18 9).toNat = res ∧ v.getLsbD 27 = f ∧
    v.getLsbD 28 = false ∧ v.getLsbD 29 = x ∧ v.getLsbD 30 = d ∧ v.extractLsb' 31 33 = 0#33 := by
  have small : n + 2 ^ 9 * rep + 2 ^ 18 * res + (if f then 2 ^ 27 else 0) + (if x then 2 ^ 29 else 0) +
      (if d then 2 ^ 30 else 0) < 2 ^ 64 := by
    split <;> split <;> split <;> omega
  simp (disch := decide) only [← BitVec.toNat_inj, CopyEngine.extractLsb'_ofNat_toNat small, CopyEngine.getLsbD_ofNat_eq, BitVec.toNat_ofNat]
  cases f <;> cases x <;> cases d
  all_goals
    simp only [if_true, Bool.false_eq_true, if_false, decide_eq_true_eq, decide_eq_false_iff_not]
    omega

theorem objWord_eq_fields (small : o.sibs.length ≤ 256) :
    let v := o.objWord
    (v.extractLsb' 0 9).toNat = o.sibs.length ∧
    (v.extractLsb' 9 9).toNat = (o.sibs.filter (fun y => y.kind == .reported || y.kind == .nonfin)).length ∧
    (v.extractLsb' 18 9).toNat = (o.sibs.filter (fun y => y.kind != .waiting)).length ∧
    v.getLsbD 27 = o.final ∧ v.getLsbD 28 = false ∧ v.getLsbD 29 = o.expired ∧ v.getLsbD 30 = o.due.isSome ∧
    v.extractLsb' 31 33 = 0#33 :=
  objWord_fields o.final o.expired o.due.isSome small ((List.length_filter_le ..).trans small) ((List.length_filter_le ..).trans small)

end

/-! ### A free number, and a free slot of the pool (13 R315; log 11) -/

theorem firstFrom_eq_none_iff {free : Nat → Bool} {k n : Nat} :
    firstFrom free k n = none ↔ ∀ i, k ≤ i → i < k + n → free i = false := by
  induction n generalizing k with
  | zero => simp [firstFrom]; omega
  | succ n ih =>
    by_cases h : free k = true
    · simp only [firstFrom, h, if_true, reduceCtorEq, false_iff, not_forall]
      exact ⟨k, le_refl k, by omega, by simp [h]⟩
    · rw [firstFrom, if_neg h, ih]
      refine ⟨fun rest i lo hi => ?_, fun all i lo hi => all i (by omega) (by omega)⟩
      rcases Nat.eq_or_lt_of_le lo with rfl | later
      · exact Bool.eq_false_iff.mpr h
      · exact rest i later (by omega)

theorem firstFrom_some {free : Nat → Bool} {k n j : Nat} (h : firstFrom free k n = some j) : k ≤ j ∧ j < k + n ∧ free j = true := by
  induction n generalizing k with
  | zero => simp [firstFrom] at h
  | succ n ih =>
    rw [firstFrom] at h
    split at h
    · obtain rfl := Option.some.inj h
      exact ⟨le_refl _, by omega, ‹_›⟩
    · obtain ⟨lo, hi, free_⟩ := ih h
      exact ⟨by omega, by omega, free_⟩

/-- The lowest free number is the one found. -/
theorem firstFrom_of_lowest {free : Nat → Bool} {k n j : Nat} (lo : k ≤ j) (hi : j < k + n) (hj : free j = true)
    (below : ∀ m, k ≤ m → m < j → free m = false) : firstFrom free k n = some j := by
  induction n generalizing k with
  | zero => omega
  | succ n ih =>
    rcases Nat.eq_or_lt_of_le lo with rfl | later
    · rw [firstFrom, if_pos hj]
    · rw [firstFrom, below k (le_refl k) later, if_neg Bool.false_ne_true]
      exact ih later (by omega) fun m hm => below m (by omega)

section
variable {u : State} {c : Nat} {z : Ctx}

theorem pickSlotOf_free (hz : u.ctxs[c]? = some z) :
    ((u.pickSlotOf c).1 = none ↔ ∀ i, i < 1048576 → i ∈ z.pool) ∧
    (∀ slot, (u.pickSlotOf c).1 = some slot → slot < 1048576 ∧ slot ∉ z.pool) := by
  have free_eq (i : Nat) : (!z.pool.contains i) = true ↔ i ∉ z.pool := by simp
  simp only [State.pickSlotOf, hz, State.pick, poolSlots]
  have drawn : u.draw.1.toNat % 1048576 < 1048576 := Nat.mod_lt _ (by decide)
  generalize u.draw.1.toNat % 1048576 = k at drawn
  by_cases here : (!z.pool.contains k) = true
  · simp only [here, if_true]
    refine ⟨⟨nofun, fun all => absurd (all k drawn) ((free_eq k).mp here)⟩, fun slot h => ?_⟩
    obtain rfl := Option.some.inj h
    exact ⟨drawn, (free_eq _).mp here⟩
  · simp only [here, Bool.false_eq_true, if_false]
    refine ⟨?_, fun slot h => ?_⟩
    · rw [firstFrom_eq_none_iff]
      simp
    · obtain ⟨-, hi, free_⟩ := firstFrom_some h
      exact ⟨by omega, (free_eq slot).mp free_⟩

end

/-! ### The record that ENQ adds (13 R315, R317, R321) -/

section
variable {u : State} {k d bin : Nat} {va : DWord} {p : Place} {y : Wave} {h : Group} {t : Tree}

/-- The machine in which the request of ENQ is under way no more. -/
def arrived (u : State) (h : Group) : State := u.modTree h.tree (fun x => { x with infl := x.infl - 1 })

/-- The machine in which ENQ has returned a status. -/
def enqStatus (k d : Nat) (v : State) (n : DWord) : State := (v.modWave k (fun x => x.addOut (.s d n))).proceed k

section
theorem arrived_tree (ht : u.trees[h.tree]? = some t) : (arrived u h).trees[h.tree]? = some { t with infl := t.infl - 1 } := by
  rw [arrived, modTree_trees, List.getElem?_modify_eq, ht]
  rfl

variable (hy : u.waves[k]? = some y) (hh : u.groups[y.group]? = some h) (ht : u.trees[h.tree]? = some t)
include hy hh ht

theorem enqRest_dropped (dropped : t.abandoned = true) : u.enqRest k d va p bin = (arrived u h).proceed k := by
  have tree := arrived_tree ht
  rw [arrived] at tree
  simp only [State.enqRest, hy, hh, tree, dropped, if_true, arrived]

variable (stays : t.abandoned = false) (clean : (arrived u h).meets k y p = false)
include stays clean

theorem enqRest_deep (deep : 24 ≤ h.depth) : u.enqRest k d va p bin = enqStatus k d (arrived u h) 2#64 := by
  have tree := arrived_tree ht
  rw [arrived] at tree clean
  simp only [State.enqRest, hy, hh, tree, stays, clean, Bool.false_eq_true, if_false, Nat.lt_succ_of_le deep, if_true, arrived]
  rfl

theorem enqRest_full (room : h.depth < 24) (full : ((arrived u h).pickSlotOf y.ctx).1 = none) :
    u.enqRest k d va p bin = enqStatus k d ((arrived u h).pickSlotOf y.ctx).2 1#64 := by
  have tree := arrived_tree ht
  rw [arrived] at tree clean full
  simp only [State.enqRest, hy, hh, tree, stays, clean, Bool.false_eq_true, if_false, Nat.not_lt.mpr (Nat.succ_le_of_lt room), arrived]
  rcases picked : (u.modTree h.tree (fun x => { x with infl := x.infl - 1 })).pickSlotOf y.ctx with ⟨slot, v⟩
  rw [picked] at full
  obtain rfl : slot = none := full
  rfl

theorem enqRest_enters {slot : Nat} (room : h.depth < 24) (free : ((arrived u h).pickSlotOf y.ctx).1 = some slot) :
    let r := ((arrived u h).pickSlotOf y.ctx).2.recordOf k p
    u.enqRest k d va p bin = enqStatus k d (((r.2.takeSlot y.ctx slot).feWrite y.ctx (r.2.slotAddr y.ctx slot) r.1).addRecord y.ctx bin slot
      h.tree (h.depth + 1) none) 0#64 := by
  have tree := arrived_tree ht
  rw [arrived] at tree clean free
  simp only [State.enqRest, hy, hh, tree, stays, clean, Bool.false_eq_true, if_false, Nat.not_lt.mpr (Nat.succ_le_of_lt room), arrived]
  rcases picked : (u.modTree h.tree (fun x => { x with infl := x.infl - 1 })).pickSlotOf y.ctx with ⟨found, v⟩
  rw [picked] at free
  obtain rfl : found = some slot := free
  rfl

end

end

/-! ### A record joins its bin (13 R314, R315, R316) -/

section
variable {u : State} {c bin slot tree depth : Nat} {sib : Option SibRef} {x : Bin} {z : Ctx}

/-- A bin that a record has joined, at a resident clock. -/
def joinedBin (slot tree depth : Nat) (sib : Option SibRef) (clock : Nat) (y : Bin) : Bin :=
  { y with
    slots := y.slots ++ [slot], tree := tree, sib := sib
    depth := if y.slots = [] then depth else max y.depth depth
    due := if y.slots = [] then clock + max 1 (256 * y.timer) else y.due }

/-- The machine in which a record has joined its bin. -/
def recordJoins (c bin slot tree depth : Nat) (sib : Option SibRef) (v : State) (clock : Nat) : State :=
  (v.modBin c bin (joinedBin slot tree depth sib clock)).modTree tree (fun t => { t with pend := t.pend + 1 })

/-- A bin whose set is not due expires nothing. -/
theorem binExpire_of_early (hz : u.ctxs[c]? = some z) (hx : u.binOf c bin = some x)
    (early : x.slots ≠ [] → u.ctxRuns c = true → z.resClock < x.due) : u.binExpire c bin = u := by
  simp only [State.binExpire, hx, hz]
  refine if_neg ?_
  rintro ⟨set, due, runs⟩
  exact Nat.not_lt.mpr due (early set runs)

theorem recordJoins_bin (hx : u.binOf c bin = some x) (clock : Nat) : ∃ y, (recordJoins c bin slot tree depth sib u clock).binOf c bin = some y ∧
    y.coal = x.coal ∧ y.slots = x.slots ++ [slot] :=
  ⟨joinedBin slot tree depth sib clock x, ExecutionModel.binOf_modBin hx _, rfl, rfl⟩

variable (hz : u.ctxs[c]? = some z) (hx : u.binOf c bin = some x) (early : x.slots ≠ [] → u.ctxRuns c = true → z.resClock < x.due)
include hz hx early

/-- A record of the set that waits, or of a new one, joins; the set fires when it is full or the record refers to a sibling. -/
theorem addRecord_same (same : ¬ (x.slots ≠ [] ∧ (x.tree ≠ tree ∨ sib.isSome = true ∨ x.sib.isSome = true))) :
    u.addRecord c bin slot tree depth sib = if x.coal ≤ x.slots.length + 1 ∨ sib.isSome = true then
      (recordJoins c bin slot tree depth sib u z.resClock).fireDue c bin 0 else recordJoins c bin slot tree depth sib u z.resClock := by
  obtain ⟨y, hy, coal, slots⟩ := recordJoins_bin (slot := slot) (tree := tree) (depth := depth) (sib := sib) hx z.resClock
  have count : x.slots.length + 1 = y.slots.length := by simp [slots]
  rw [count, ← coal]
  unfold recordJoins joinedBin at hy ⊢
  simp only [State.addRecord, binExpire_of_early hz hx early, hx, if_neg same, hz, hy, Bool.or_eq_true, decide_eq_true_eq]

/-- A record of another set has the one that waits fire first. -/
theorem addRecord_other (other : x.slots ≠ [] ∧ (x.tree ≠ tree ∨ sib.isSome = true ∨ x.sib.isSome = true)) {y : Bin}
    (hy : (recordJoins c bin slot tree depth sib (u.fireDue c bin 0) z.resClock).binOf c bin = some y) :
    u.addRecord c bin slot tree depth sib = if y.coal ≤ y.slots.length ∨ sib.isSome = true then
      (recordJoins c bin slot tree depth sib (u.fireDue c bin 0) z.resClock).fireDue c bin 0
      else recordJoins c bin slot tree depth sib (u.fireDue c bin 0) z.resClock := by
  unfold recordJoins joinedBin at hy ⊢
  simp only [State.addRecord, binExpire_of_early hz hx early, hx, if_pos other, hz, hy, Bool.or_eq_true, decide_eq_true_eq]

end

/-! ### SGFORK: the object and its records (13 R322, R325) -/

section
variable {u : State} {c n bin timeout num : Nat} {z : Ctx} {h : Group} {eps : Word} {bs : List (BitVec 8)}

/-- A context has a live object with a number. -/
def HasLive (z : Ctx) (num : Nat) : Prop := ∃ o ∈ z.sgos, o.num = num ∧ o.live = true

theorem hasLive_iff : z.sgos.any (fun o => o.num == num && o.live) = true ↔ HasLive z num := by
  simp [HasLive]

theorem fork_deep (deep : 24 ≤ h.depth) : u.fork c h n bin timeout eps bs = (0x02000000FFFFFFFF#64, u) := by
  simp only [State.fork, Nat.lt_succ_of_le deep, if_true]
  rfl

/-- An object takes the lowest number that no live one has (log 11). -/
theorem fork_number (hnum : num < 65536) (free : ¬ HasLive z num) (lowest : ∀ m, m < num → HasLive z m) :
    firstFrom (fun k => !(z.sgos.any (fun o => o.num == k && o.live))) 0 65536 = some num := by
  refine firstFrom_of_lowest (Nat.zero_le _) (by omega) ?_ fun m _ hm => ?_
  · simpa [HasLive] using free
  · simp [hasLive_iff.mpr (lowest m hm)]

section
variable (hz : u.ctxs[c]? = some z) (room : h.depth < 24)
include hz room

theorem fork_no_number (all : ∀ num, num < 65536 → HasLive z num) :
    u.fork c h n bin timeout eps bs = (0x03000000FFFFFFFF#64, u) := by
  have none_free : firstFrom (fun k => !(z.sgos.any (fun o => o.num == k && o.live))) 0 65536 = none :=
    firstFrom_eq_none_iff.mpr fun i _ hi => by simp [hasLive_iff.mpr (all i (by omega))]
  simp only [State.fork, hz, Nat.not_lt.mpr (Nat.succ_le_of_lt room), if_false, none_free]
  rfl

variable (hnum : num < 65536) (free : ¬ HasLive z num) (lowest : ∀ m, m < num → HasLive z m)
include hnum free lowest

theorem fork_no_slots (full : 1048576 < z.pool.length + n) : u.fork c h n bin timeout eps bs = (0x01000000FFFFFFFF#64, u) := by
  have found := fork_number hnum free lowest
  simp only [State.fork, hz, Nat.not_lt.mpr (Nat.succ_le_of_lt room), if_false, found, poolSlots, full, if_true]
  rfl

theorem fork_makes (fits : z.pool.length + n ≤ 1048576) :
    let gen := nextGen z.sgos num
    let o : Sgo :=
      { num := num, gen := gen, tree := h.tree, sibs := List.replicate n ⟨.waiting, 0#32, 0#32, false, false⟩,
        eps := eps, timeout := timeout, due := none, expired := false, final := false, live := true }
    let made := u.modCtx c (fun x => { x with sgos := o :: x.sgos.filter (fun p => p.num != num) })
    u.fork c h n bin timeout eps bs = (BitVec.ofNat 64 (num + 65536 * (gen % 65536)),
      made.forkRecords c bin num gen h.tree (h.depth + 1) bs n) := by
  have found := fork_number hnum free lowest
  have word : (⟨num, nextGen z.sgos num, 0⟩ : SibRef).word = BitVec.ofNat 64 (num + 65536 * (nextGen z.sgos num % 65536)) := by
    simp [SibRef.word, Nat.mod_eq_of_lt hnum]
  simp only [State.fork, hz, Nat.not_lt.mpr (Nat.succ_le_of_lt room), if_false, found, poolSlots, Nat.not_lt.mpr fits, word]
  rfl

end

theorem nextGen_new (new : ∀ o ∈ z.sgos, o.num ≠ num) : nextGen z.sgos num = 0 := by
  have none_found : z.sgos.find? (fun o => o.num == num) = none := by simpa [List.find?_eq_none] using new
  rw [nextGen, none_found]

theorem nextGen_head (o : Sgo) (l : List Sgo) : nextGen (o :: l) o.num = (o.gen + 1) % 65536 := by
  simp [nextGen]

theorem forkRecords_succ {gen tree depth i slot : Nat} (hnum : num < 65536) (hgen : gen < 65536) (hi : i < 256)
    (free : ((u.forkRecords c bin num gen tree depth bs i).pickSlotOf c).1 = some slot) :
    let v := u.forkRecords c bin num gen tree depth bs i
    u.forkRecords c bin num gen tree depth bs (i + 1) =
      ((((v.pickSlotOf c).2.takeSlot c slot).feWrite c ((v.pickSlotOf c).2.slotAddr c slot)
        (bs ++ bytesOfNat 8 (num + 65536 * gen + 4294967296 * i))).addRecord c bin slot tree depth (some ⟨num, gen, i⟩)) := by
  have word : (⟨num, gen, i⟩ : SibRef).word.toNat = num + 65536 * gen + 4294967296 * i := by
    simp only [SibRef.word, BitVec.toNat_ofNat]
    omega
  rcases picked : (u.forkRecords c bin num gen tree depth bs i).pickSlotOf c with ⟨found, v⟩
  rw [picked] at free
  obtain rfl : found = some slot := free
  simp only [State.forkRecords, picked, word]

end

/-! ### The words (13 R317, R325 to R329) -/

section
variable (s : State) (sw : BitVec 1) (d a b : BitVec 6)

theorem exec_enq : exec (.enq sw d a b) s = execEnq sw d a b s := rfl
theorem exec_sgfork : exec (.sgfork sw d a b) s = execSgfork sw d a b s := rfl
theorem exec_sgreward : exec (.sgreward sw d a) s = execSgreward sw d a s := rfl
theorem exec_sgwait : exec (.sgwait sw d) s = execSgwait sw d s := rfl
theorem exec_sgcancel : exec (.sgcancel sw a) s = execSgcancel sw a s := rfl
theorem exec_sgquery : exec (.sgquery sw d a) s = execSgquery sw d a s := rfl

end

section
variable {s : State} {w : Wave} {g : Group} {sw : BitVec 1} {d a b : BitVec 6} {p : Place} {r : SibRef}

/-- The machine in which ENQ has translated its record's address, and its request is under way. -/
def enqSent (s : State) (g : Group) (va : DWord) : State :=
  (s.waveLooks s.cur .rd va).modTree g.tree (fun t => { t with infl := t.infl + 1 })

theorem enqSent_wave (hw : s.waves[s.cur]? = some w) (va : DWord) : (enqSent s g va).waves[s.cur]? = some w := by
  rwa [← (cacheOnly_waveLooks s s.cur .rd va).waves] at hw

/-- ENQ with its operands as they must be releases at scope device (R317). -/
theorem gives_enq (calm : s.Calm w) (hg : s.groups[w.group]? = some g) (aligned : (w.s a.toNat).toNat % 32 = 0)
    (hbin : (w.s b.toNat).toNat < 2 ^ 12) (enabled : s.binEnabled w.ctx (w.s b.toNat).toNat = true)
    (hp : s.checkAccess w .rd false 32 (w.s a.toNat) 32 = .ok p) : s.Gives w (.enq sw d a b)
      (s.afterWord sw ((enqSent s g (w.s a.toNat)).release s.cur 4 (.enq d.toNat (w.s a.toNat) p (w.s b.toNat).toNat))) := by
  have looked := cacheOnly_waveLooks s s.cur .rd (w.s a.toNat)
  have low : bitsOf (w.s b.toNat) 0 12 = (w.s b.toNat).toNat := by simp only [bitsOf]; omega
  have high : bitsOf (w.s b.toNat) 12 52 = 0 := by simp only [bitsOf]; omega
  have tree : (s.waveLooks s.cur .rd (w.s a.toNat)).treeOf w = g.tree := by simp only [State.treeOf, looked.groups, hg]
  refine gives_issue rfl (exec_enq ..) fun _ => ?_
  simp only [aligned, low, high, enabled, hp, unlessRace_calm (looked.calm calm), tree, ne_eq, not_true, if_false, Bool.not_true,
    Bool.false_eq_true]
  rfl

/-- SGFORK with its operands as they must be makes an object of the record that it reads (R325). -/
theorem gives_sgfork (calm : s.Calm w) (hg : s.groups[w.group]? = some g) (aligned : (w.s a.toNat).toNat % 32 = 0)
    (hf : s.forkDetail w.ctx (w.s b.toNat) = none) (hp : s.checkAccess w .rd false 32 (w.s a.toNat) 24 = .ok p) :
    let x := w.s b.toNat
    let rd := ((s.waveLooks s.cur .rd (w.s a.toNat)).beforeAccess s.cur p 24).load s.cur p 24
    let f := rd.2.2.fork w.ctx g (bitsOf x 0 9) (bitsOf x 16 12) (bitsOf x 32 16) (epsilonOf (bitsOf x 48 16)) rd.1
    s.Gives w (.sgfork sw d a b) (s.afterWord sw (f.2.modWave s.cur (fun y => (y.addOut (.s d.toNat f.1)).advance))) := by
  intro x rd f
  have looked := (cacheOnly_waveLooks s s.cur .rd (w.s a.toNat)).calm calm
  refine gives_issue rfl (exec_sgfork ..) fun _ => ?_
  simp only [aligned, hf, hp, hg, unlessRace_calm looked, meets_calm looked, ne_eq, not_true, if_false, Bool.false_eq_true]
  rfl

theorem binding_eq (hg : s.groups[w.group]? = some g) (hs : g.sib = some r) : s.binding w = some r := by
  simp only [State.binding, hg, Option.bind_some, hs]

/-- SGREWARD of a bound group releases at scope device (R326). -/
theorem gives_sgreward (hg : s.groups[w.group]? = some g) (hs : g.sib = some r) :
    s.Gives w (.sgreward sw d a) (s.afterWord sw (s.release s.cur 4 (.sgreward d.toNat (w.s a.toNat)))) :=
  gives_issue rfl (exec_sgreward ..) fun _ => by simp only [binding_eq hg hs]

theorem releaseDone_group {u : State} {k : Nat} {y : Wave} {h : Group} (hy : u.waves[k]? = some y) (hh : u.groups[y.group]? = some h)
    (scope : Nat) : ∃ h', (u.releaseDone k scope).groups[y.group]? = some h' ∧ h'.sib = h.sib := by
  unfold State.releaseDone
  by_cases wide : 1 ≤ scope
  · exact ⟨{ h with gphase := h.gphase + 1 }, by simp [hy, hh, wide], rfl⟩
  · exact ⟨h, by simp [hy, hh, wide], rfl⟩

/-- With no store pending, SGREWARD posts its reward at once. -/
theorem gives_sgreward_at_once (hg : s.groups[w.group]? = some g) (hs : g.sib = some r) (empty : w.pend = []) :
    let v := (s.releaseDone s.cur 4).sgReward w.ctx r ((w.s a.toNat).extractLsb' 0 32)
    s.Gives w (.sgreward sw d a) (s.afterWord sw ((v.2.modWave s.cur (fun y => y.addOut (.s d.toNat v.1))).proceed s.cur)) := by
  intro v ready
  obtain ⟨h', hh, sib⟩ := releaseDone_group ready.1 hg 4
  have wave := ScalarControl.releaseDone_wave ready.1 4
  have gives := gives_sgreward (d := d) (a := a) (sw := sw) hg hs ready
  rw [release_empty ready.1 empty, State.runCont, rewardRest_eq wave hh (sib.trans hs)] at gives
  exact gives

theorem gives_sgwait {t : State} (hg : s.groups[w.group]? = some g) (hs : g.sib = some r)
    (done : s.sgWaitLook s.cur d.toNat w r = some t) : s.Gives w (.sgwait sw d) (s.afterWord sw t) :=
  gives_issue rfl (exec_sgwait ..) fun _ => by simp only [binding_eq hg hs, done]

theorem gives_sgwait_spins (hg : s.groups[w.group]? = some g) (hs : g.sib = some r)
    (waits : s.sgWaitLook s.cur d.toNat w r = none) :
    s.Gives w (.sgwait sw d) (s.afterWord sw (s.setSt s.cur (.wait (.sgspin d.toNat (s.coreClock w.core + 2048))))) :=
  gives_issue rfl (exec_sgwait ..) fun _ => by simp only [binding_eq hg hs, waits, sgSpin]

theorem gives_sgcancel (short : (w.s a.toNat).toNat < 2 ^ 40) (inside : s.idxBad w.ctx (SibRef.ofWord (w.s a.toNat)) = false) :
    s.Gives w (.sgcancel sw a) (s.afterWord sw ((s.advance s.cur).sgCancel w.ctx (SibRef.ofWord (w.s a.toNat)))) := by
  have high : bitsOf (w.s a.toNat) 40 24 = 0 := by simp only [bitsOf]; omega
  exact gives_issue rfl (exec_sgcancel ..) fun _ => by simp [high, inside]

theorem gives_sgquery (short : bitsOf (w.s a.toNat) 40 23 = 0) (inside : s.idxBad w.ctx (SibRef.ofWord (w.s a.toNat)) = false) :
    let e := s.sgExpire w.ctx (SibRef.ofWord (w.s a.toNat))
    s.Gives w (.sgquery sw d a)
      (s.afterWord sw (e.modWave s.cur (fun y => (y.addOut (.s d.toNat (e.sgQuery w.ctx (w.s a.toNat)))).advance))) :=
  gives_issue rfl (exec_sgquery ..) fun _ => by simp [short, inside]

end

/-- Settles O34: clause by clause, the records first, then the objects, then the words, each by the lemma of its case. -/
theorem workWordResults : Obligations.WorkWordResults := by
  unfold Obligations.WorkWordResults
  refine ⟨?records, ?bins, ?forks, ?objects, ?finals, ?words⟩
  case records =>
    intro u k d bin va p y h t hy hh ht
    exact ⟨enqRest_dropped hy hh ht, fun stays clean => ⟨enqRest_deep hy hh ht stays clean, enqRest_full hy hh ht stays clean,
      fun slot => enqRest_enters hy hh ht stays clean⟩, fun z hz => pickSlotOf_free hz⟩
  case bins =>
    intro u c bin slot tree depth sib x z hz hx early
    refine ⟨fun same fires => ?_, fun same few none_ => ?_, fun other y hy => addRecord_other hz hx early other hy⟩
    · rw [addRecord_same hz hx early same, if_pos fires]
      rfl
    · rw [addRecord_same hz hx early same, if_neg (by rw [none_]; simpa using few)]
      rfl
  case forks =>
    intro u c n bin timeout z h eps bs hz
    exact ⟨fork_deep, fork_no_number hz, fun num room hnum free lowest => ⟨fork_no_slots hz room hnum free lowest,
      fork_makes hz room hnum free lowest⟩, fun num => nextGen_new, nextGen_head,
      fun num gen tree depth i slot hnum hgen hi => ⟨rfl, forkRecords_succ hnum hgen hi⟩⟩
  case objects =>
    intro u c r rew o b z
    refine ⟨sgReward_gone, fun ho hb hz => ⟨fun waits p hp => ?open_, fun waits gone => ?closed, sgReward_again ho hb⟩,
      fun adv st f => sgResult_fields adv f, fun k d a y h => rewardRest_eq, fun k d y hy => ⟨sgWaitLook_gone hy,
        fun ho hb => ⟨sgWaitLook_final hy ho hb, sgWaitLook_no_reward hy ho hb, sgWaitLook_spins hy ho hb⟩⟩, sgCancel_gone,
      fun ho => ⟨_, _, _, fun g => mem_groupsOf, fun l => mem_launchesOf, fun q => mem_binsOf, sgCancel_ends ho⟩,
      fun x hx => ⟨sgQuery_gone hx, sgQuery_object hx, sgQuery_sibling hx⟩, finalStatus_eq b, openStatus_eq b, objWord_eq_fields⟩
    case open_ =>
      rw [sgReward_waiting ho hb hz waits]
      unfold posted
      simp only [hp]
    case closed =>
      rw [sgReward_waiting ho hb hz waits]
      unfold posted
      simp only [gone]
  case finals =>
    intro u c r o eps l ho
    exact ⟨settleSgo_waits ho, settleSgo_finalises ho, ⟨rfl, spread_length .., fun i b => finalise_of_not_reported, fun i b => finalise_of_few,
      fun i b => finalise_of_many⟩, rfl, advantages_example⟩
  case words =>
    intro s w g sw d a b p r calm hg va x looked sent
    refine ⟨fun aligned hbin enabled hp => ⟨fun empty ready => ?enq, fun pending ready => ?enqWaits⟩,
      fun u entered => CopyEngine.settleRelease_entered entered, gives_sgfork calm hg, gives_sgreward_at_once hg, fun hs pending ready => ?rewardWaits,
      fun u entered => CopyEngine.settleRelease_entered entered, fun t => gives_sgwait hg, gives_sgwait_spins hg, gives_sgcancel, gives_sgquery⟩
    case enq =>
      have gives := gives_enq (d := d) (sw := sw) calm hg aligned hbin enabled hp ready
      rwa [release_empty (enqSent_wave ready.1 _) empty] at gives
    case enqWaits =>
      have gives := gives_enq (d := d) (sw := sw) calm hg aligned hbin enabled hp ready
      rwa [release_pending (enqSent_wave ready.1 _) pending] at gives
    case rewardWaits =>
      have gives := gives_sgreward (d := d) (a := a) (sw := sw) hg hs ready
      rwa [release_pending ready.1 pending] at gives

end Sys2Proof.SampleGroups

/-! PROOFS of 19_device_services: the services that act on no context, the end of a begun service and the SPDM responder. O59 is open: these
are its clauses, and what its clause on IMAGE_PUSH in RECOVERY comes to. -/

namespace Sys2Proof.Services

open Sys2Proof.Machine

section
variable (s : State) (k n : Nat)

theorem exec_badservice : exec .badservice s = execBadservice s := rfl
theorem exec_domSet : exec .domSet s = execDomSet s := rfl
theorem exec_domGet : exec .domGet s = execDomGet s := rfl
theorem exec_snapshot : exec .snapshot s = execSnapshot s := rfl
theorem exec_powerRead : exec .powerRead s = .next (s.power false) := rfl
theorem exec_powerWrite : exec .powerWrite s = .next (s.power true) := rfl
theorem exec_lifeGet : exec .lifeGet s = execLifeGet s := rfl
theorem exec_peerSet : exec .peerSet s = execPeerSet s := rfl
theorem exec_imagePush : exec .imagePush s = execImagePush s := rfl
theorem exec_serviceCompletion : exec (.serviceCompletion k) s = execServiceCompletion k s := rfl
theorem exec_challenge : exec (.challenge k) s = execChallenge k s := rfl
theorem exec_getMeasurements : exec (.getMeasurements k) s = execGetMeasurements k s := rfl
theorem exec_vendorDefinedRequest : exec (.vendorDefinedRequest k n) s = execVendorDefinedRequest k n s := rfl

end

variable {s t : State} {k n : Nat} {g : Begun}

theorem badservice_answers (hb : s.mbBusy = true) (hn : s.spdmBefore = 0) (hs : s.mbService ∉ serviceCodes) :
    exec .badservice s = .next (s.respond (s.refuse resBadService 0)) := by
  simp [exec_badservice, execBadservice, State.mbNext, hb, hn, hs]

theorem domSet_answers (h : s.Request 0x40 1296 noContext) (h0 : (s.mbB 0).toNat < 2 ^ 6)
    (hq : ∀ c, c < 160 → s.mbB (2 + c) &&& ~~~0x1FF00FF#64 = 0#64) :
    s.Answers .domSet (s.modDomain (s.mbB 0).toNat (fun d => { d with
      fmask := s.mbB 1
      quotas := ((List.range 160).map (fun c => (c, s.mbB (2 + c)))).filterMap (fun q =>
        let y := (min (bitsOf q.2 0 8) 128, min (bitsOf q.2 16 9) 416)
        if y = (128, 416) then none else some (q.1, y)) })) noContext [] := by
  have fields : ((List.range 160).map (fun c => (c, s.mbB (2 + c)))).any (fun q => (q.2 &&& ~~~0x1FF00FF#64) != 0#64) = false := by
    simpa [List.any_eq_false] using hq
  obtain ⟨-, -, -, -, -, -, hx⟩ := id h
  rw [State.Answers, exec_domSet, execDomSet, serve0_passes h (by decide) (by decide) rfl]
  simp only [(onlyBits_iff _ _).mpr h0, fields, Bool.not_true, Bool.or_self, Bool.false_eq_true, if_false, State.answer, resOk, hx]

theorem domGet_answers (h : s.Request 0x41 8 noContext) (h0 : (s.mbB 0).toNat < 2 ^ 6) :
    s.Answers .domGet s noContext (s.domBlock (s.mbB 0).toNat) := by
  obtain ⟨-, -, -, -, -, -, hx⟩ := id h
  rw [State.Answers, exec_domGet, execDomGet, serve0_passes h (by decide) (by decide) rfl]
  simp only [(onlyBits_iff _ _).mpr h0, Bool.not_true, Bool.false_eq_true, if_false, State.answer, resOk, hx]

theorem snapshot_answers (h : s.Request 0x42 40 noContext) (h0 : (s.mbB 0).toNat < 2 ^ 6) :
    s.Answers .snapshot { s with snapSeq := s.snapSeq + 1#64 } noContext (s.snapshotBytes (s.mbB 0).toNat (s.mbBuf.num 40 32)) := by
  obtain ⟨-, -, -, -, -, -, hx⟩ := id h
  rw [State.Answers, exec_snapshot, execSnapshot, serve0_passes h (by decide) (by decide) rfl]
  simp only [(onlyBits_iff _ _).mpr h0, Bool.not_true, Bool.false_eq_true, if_false, State.answer, resOk, hx, State.nextSnapshot]

theorem powerRead_answers (h : s.Request 0x50 8 noContext) (h0 : (s.mbB 0) &&& ~~~0xFFF0001#64 = 0#64)
    (read : (s.mbB 0).getLsbD 0 = false) : s.Answers .powerRead s noContext (bytesOfNat 8 s.powerCap) := by
  obtain ⟨-, -, -, -, -, -, hx⟩ := id h
  have fields : ((s.mbB 0 &&& ~~~0xFFF0001#64) != 0#64) = false := by simp only [h0, bne_self_eq_false]
  rw [State.Answers, exec_powerRead, State.power, read, serve0_passes h (by decide) (by decide) rfl]
  simp only [fields, bne_self_eq_false, Bool.and_false, Bool.false_and, Bool.or_self, Bool.false_eq_true, if_false, State.answer, resOk, hx]

theorem powerWrite_answers (h : s.Request 0x50 8 noContext) (h0 : (s.mbB 0) &&& ~~~0xFFF0001#64 = 0#64)
    (write : (s.mbB 0).getLsbD 0 = true) (least : 600 ≤ bitsOf (s.mbB 0) 16 12) (most : bitsOf (s.mbB 0) 16 12 ≤ s.form.maxPower) :
    s.Answers .powerWrite { s with powerCap := bitsOf (s.mbB 0) 16 12 } noContext (bytesOfNat 8 (bitsOf (s.mbB 0) 16 12)) := by
  obtain ⟨-, -, -, -, -, -, hx⟩ := id h
  have fields : ((s.mbB 0 &&& ~~~0xFFF0001#64) != 0#64) = false := by simp only [h0, bne_self_eq_false]
  rw [State.Answers, exec_powerWrite, State.power, write, serve0_passes h (by decide) (by decide) rfl]
  simp only [fields, bne_self_eq_false, Bool.and_false, least, most, decide_true, Bool.and_self, Bool.not_true, Bool.or_self,
    Bool.false_eq_true, if_false, if_true, State.answer, resOk, hx]

theorem lifeGet_answers (h : s.Request 0x51 16 noContext) (h0 : (s.mbB 0).toNat % 8 = 0) (h1 : (s.mbB 1).toNat % 8 = 0)
    (size : (s.mbB 0).toNat + (s.mbB 1).toNat ≤ 0xD10) : s.Answers .lifeGet s noContext ((List.range ((s.mbB 1).toNat / 8)).flatMap (fun j =>
      bytesOfNat 8 (s.lifeAt ((s.mbB 0).toNat + 8 * j)).toNat)) := by
  obtain ⟨-, -, -, -, -, -, hx⟩ := id h
  rw [State.Answers, exec_lifeGet, execLifeGet, serve0_passes h (by decide) (by decide) rfl]
  simp [h0, h1, Nat.not_lt.mpr size, State.answer, resOk, hx]

/-- What comes of the peer that PEER_SET names: absent when it is not enabled, else up or down as a port trains and the draw says (log 67). -/
def peerComes (s : State) : PeerSt :=
  if !(s.mbB 0).getLsbD 16 then .absent
  else if (s.mbB 1).extractLsb' 0 16 &&& s.linkPorts ≠ 0#16 && s.draw.1.getLsbD 0 then .up else .down

theorem peerComes_absent : peerComes s = .absent ↔ (s.mbB 0).getLsbD 16 = false := by
  unfold peerComes
  cases (s.mbB 0).getLsbD 16 with
  | false => simp
  | true =>
    simp only [Bool.not_true, Bool.false_eq_true, if_false, reduceCtorEq, iff_false]
    split <;> simp

theorem peerComes_up (up : peerComes s = .up) : (s.mbB 1).extractLsb' 0 16 &&& s.linkPorts ≠ 0#16 := by
  intro none_
  unfold peerComes at up
  rw [none_] at up
  split at up
  · cases up
  · simp at up

theorem peerSet_answers (h : s.Request 0x52 48 noContext) (h0 : (s.mbB 0) &&& ~~~0x1003F#64 = 0#64) (h1 : (s.mbB 1).toNat < 2 ^ 16) :
    s.Answers .peerSet { s with
      draws := s.draws + 1, peers := s.peers.set (bitsOf (s.mbB 0) 0 6)
        ⟨(s.mbB 1).extractLsb' 0 16, BitVec.ofNat 256 (s.mbBuf.num 48 32), peerComes s⟩ } noContext (bytesOfNat 8 (peerComes s).code) := by
  obtain ⟨-, -, -, -, -, -, hx⟩ := id h
  have fields : ((s.mbB 0 &&& ~~~0x1003F#64) != 0#64) = false := by simp only [h0, bne_self_eq_false]
  rw [State.Answers, exec_peerSet, execPeerSet, serve0_passes h (by decide) (by decide) rfl]
  simp only [fields, (onlyBits_iff _ _).mpr h1, Bool.not_true, Bool.or_self, Bool.false_eq_true, if_false, State.answer, resOk, hx]
  rfl

/-! ### IMAGE_PUSH (19 R415) -/

/-- The bytes of a pushed image reach memory. -/
def ImageReached (s : State) : Prop :=
  reachesMemory (s.mbB 0) = true ∧
    ((s.mbB 1).toNat ≠ 0 → reachesMemory (s.mbB 0 + BitVec.ofNat 64 ((s.mbB 1).toNat - 1)) = true)

/-- The image that a push names, and the machine that has read it and keeps it. -/
def pushedImage (s : State) : List (BitVec 8) := s.mem.read (s.mbB 0).toNat (s.mbB 1).toNat
def imageKept (s : State) : State := { s.homeRange (s.mbB 0).toNat (s.mbB 1).toNat false with firmware := pushedImage s }

theorem imageReached_iff : (!reachesMemory (s.mbB 0) ||
    decide ((s.mbB 1).toNat ≠ 0) && !reachesMemory (s.mbB 0 + BitVec.ofNat 64 ((s.mbB 1).toNat - 1))) = false ↔ ImageReached s := by
  simp [ImageReached]

theorem imagePush_answers (h : s.Request 0x60 16 noContext) (hr : ImageReached s) :
    exec .imagePush s = .next (s.respond (if s.imageOk (pushedImage s) then ⟨imageKept s, 0, 0, noContext, []⟩
      else s.refuse resBadImage 0)) := by
  obtain ⟨-, -, -, -, -, hrec, hx⟩ := id h
  rw [exec_imagePush, execImagePush, serve0_passes h (by decide) (by decide) rfl]
  simp only [imageReached_iff.mpr hr, Bool.false_eq_true, if_false, hrec, State.answer, resOk, hx]
  cases hok : s.imageOk (pushedImage s) <;> unfold pushedImage at hok <;> simp [hok, imageKept, pushedImage]

/-- The rest of the bring-up with a pushed image. -/
def pushBringsUp (s : State) : State :=
  ({ imageKept s with recovery := false, draws := (imageKept s).draws + 1 } : State).measureBoot.bringUp
    (Config.bootFailures (imageKept s).draws)

theorem imagePush_recovers (hrec : s.recovery = true) (h : State.Request { s with recovery := false } 0x60 16 noContext)
    (hr : ImageReached s) : exec .imagePush s = .next (s.respond (if s.imageOk (pushedImage s) then ⟨pushBringsUp s, 0, 0, noContext, []⟩
      else s.refuse resBadImage 0)) := by
  obtain ⟨hb, hn, hs, hl, hh, -, hx⟩ := h
  have hb : s.mbBusy = true := hb
  have hn : s.spdmBefore = 0 := hn
  have hs : s.mbService = 0x60 := hs
  have hl : s.mbLength = 16 := hl
  have hh : s.mbHeaderOk = true := hh
  have hx : s.mbCtx = noContext := hx
  have check : s.mbCheck false true (· == 16) = 0 := by simp [State.mbCheck, hl, hh, hx, resOk]
  have served : ((0x60 : Nat) == 0x60 || (0x60 : Nat) == 0x70) = true := rfl
  rw [exec_imagePush, execImagePush]
  simp only [State.serve0, asked_of_busy hb hn hs, served, check, if_true, imageReached_iff.mpr hr, Bool.false_eq_true, if_false, hrec,
    State.answer, resOk, hx]
  cases hok : s.imageOk (pushedImage s) <;> unfold pushedImage at hok <;> simp [hok, imageKept, pushBringsUp, pushedImage]

/-! ### A request in RECOVERY, and one that is not yet the next (19 R409, R410) -/

section
variable {code : Nat} (lenOk : Nat → Bool)

theorem mbCheck_recovery (marked : Bool) (hr : s.recovery = true) : s.mbCheck marked false lenOk = 9 := by
  simp [State.mbCheck, hr, resRecovery]

theorem answerCtx_recovery (f : State → Nat → Ctx → Answer) (hr : s.recovery = true) : s.answerCtx lenOk f = s.refuse resRecovery 0 := by
  simp only [State.answerCtx, mbCheck_recovery lenOk true hr]
  rfl

theorem serve0_recovery (f : State → Answer) (hr : s.recovery = true) (ha : s.asked code = true)
    (refuses : (code == 0x60 || code == 0x70) = false) : s.serve0 code lenOk f = s.respond (s.refuse resRecovery 0) := by
  simp only [State.serve0, ha, if_true, refuses, mbCheck_recovery lenOk false hr]
  rfl

variable (f : State → Nat → Ctx → Answer)

theorem serveCtx_recovery (hr : s.recovery = true) (ha : s.asked code = true) :
    s.serveCtx code lenOk f = s.respond (s.refuse resRecovery 0) := by
  simp only [State.serveCtx, ha, if_true, answerCtx_recovery lenOk f hr]

theorem serveInval_recovery (hr : s.recovery = true) (ha : s.asked code = true) :
    s.serveInval code lenOk f = s.respond (s.refuse resRecovery 0) := by
  simp only [State.serveInval, ha, if_true, answerCtx_recovery lenOk f hr]
  rfl

theorem serveQuiet_recovery (hr : s.recovery = true) (ha : s.asked code = true) :
    s.serveQuiet code lenOk f = s.respond (s.refuse resRecovery 0) := by
  simp only [State.serveQuiet, ha, if_true, answerCtx_recovery lenOk f hr]
  rfl

theorem not_asked_of_before (hn : s.spdmBefore ≠ 0) (code : Nat) : s.asked code = false := by
  simp [State.asked, State.mbNext, hn]

theorem serve0_waits (f : State → Answer) (ha : s.asked code = false) : s.serve0 code lenOk f = s := by
  simp only [State.serve0, ha, Bool.false_eq_true, if_false]

theorem serveCtx_waits (ha : s.asked code = false) : s.serveCtx code lenOk f = s := by
  simp only [State.serveCtx, ha, Bool.false_eq_true, if_false]

theorem serveInval_waits (ha : s.asked code = false) : s.serveInval code lenOk f = s := by
  simp only [State.serveInval, ha, Bool.false_eq_true, if_false]

theorem serveQuiet_waits (ha : s.asked code = false) : s.serveQuiet code lenOk f = s := by
  simp only [State.serveQuiet, ha, Bool.false_eq_true, if_false]

theorem ctxStop_waits (save : Bool) (ha : s.asked 0x05 = false) : s.ctxStop save = s := by
  simp only [State.ctxStop, ha, Bool.false_and, Bool.false_eq_true, if_false]
  exact serveCtx_waits _ _ ha

theorem power_waits (write : Bool) (ha : s.asked 0x50 = false) : s.power write = s := by
  simp only [State.power, ha, Bool.false_and, Bool.false_eq_true, if_false]
  exact serve0_waits _ _ ha

end

/-- In RECOVERY the services of contexts, rings, domains and peers are refused. -/
theorem recovery_refuses (hr : s.recovery = true) (hb : s.mbBusy = true) (hn : s.spdmBefore = 0) :
    ∀ q, q ∈ [(Instr.ctxCreate, 0x01), (.ctxDestroy, 0x02), (.ctxRead, 0x03), (.ctxWrite, 0x04), (.ctxResume, 0x06), (.ctxKill, 0x07),
        (.ctxInval, 0x08), (.ringCreate, 0x10), (.ringDestroy, 0x11), (.objLoad, 0x20), (.objUnload, 0x21), (.graphSet, 0x30),
        (.binSet, 0x31), (.pbSet, 0x32), (.domSet, 0x40), (.domGet, 0x41), (.snapshot, 0x42), (.lifeGet, 0x51), (.peerSet, 0x52)] →
      s.mbService = q.2 → exec q.1 s = .next (s.respond (s.refuse resRecovery 0)) := by
  intro q hq hs
  have ha := asked_of_busy hb hn hs
  simp only [List.mem_cons, List.not_mem_nil, or_false] at hq
  rcases hq with rfl | rfl | rfl | rfl | rfl | rfl | rfl | rfl | rfl | rfl | rfl | rfl | rfl | rfl | rfl | rfl | rfl | rfl | rfl
  · exact congrArg _ (serve0_recovery _ _ hr ha rfl)
  iterate 8 exact congrArg _ (serveCtx_recovery _ _ hr ha)
  · exact congrArg _ (serveQuiet_recovery _ _ hr ha)
  iterate 3 exact congrArg _ (serveCtx_recovery _ _ hr ha)
  · exact congrArg _ (serveInval_recovery _ _ hr ha)
  iterate 5 exact congrArg _ (serve0_recovery _ _ hr ha rfl)

/-- No service acts before the SPDM requests that reached Lantern first have been served. -/
theorem services_wait (hn : s.spdmBefore ≠ 0) :
    ∀ q, q ∈ [(Instr.ctxCreate, 0x01), (.ctxDestroy, 0x02), (.ctxRead, 0x03), (.ctxWrite, 0x04), (.ctxStopClose, 0x05),
        (.ctxStopSave, 0x05), (.ctxResume, 0x06), (.ctxKill, 0x07), (.ctxInval, 0x08), (.ringCreate, 0x10), (.ringDestroy, 0x11), (.objLoad, 0x20),
        (.objUnload, 0x21), (.graphSet, 0x30), (.binSet, 0x31), (.pbSet, 0x32), (.domSet, 0x40), (.domGet, 0x41), (.snapshot, 0x42), (.powerRead, 0x50),
        (.powerWrite, 0x50), (.lifeGet, 0x51), (.peerSet, 0x52), (.imagePush, 0x60)] → exec q.1 s = .next s := by
  intro q hq
  have ha := not_asked_of_before hn
  simp only [List.mem_cons, List.not_mem_nil, or_false] at hq
  rcases hq with rfl | rfl | rfl | rfl | rfl | rfl | rfl | rfl | rfl | rfl | rfl | rfl | rfl | rfl | rfl | rfl | rfl | rfl | rfl | rfl |
    rfl | rfl | rfl | rfl
  · exact congrArg _ (serve0_waits _ _ (ha _))
  iterate 3 exact congrArg _ (serveCtx_waits _ _ (ha _))
  iterate 2 exact congrArg _ (ctxStop_waits _ (ha _))
  iterate 5 exact congrArg _ (serveCtx_waits _ _ (ha _))
  · exact congrArg _ (serveQuiet_waits _ _ (ha _))
  iterate 3 exact congrArg _ (serveCtx_waits _ _ (ha _))
  · exact congrArg _ (serveInval_waits _ _ (ha _))
  iterate 3 exact congrArg _ (serve0_waits _ _ (ha _))
  iterate 2 exact congrArg _ (power_waits _ (ha _))
  iterate 3 exact congrArg _ (serve0_waits _ _ (ha _))

/-! ### The end of a begun service (19 R412) -/

theorem serviceCompletion_ends {res : Nat} (hg : s.begun[k]? = some g) (open_ : g.ended = false) (first : s.firstBegun k g.ctx = true)
    (ends : s.serviceEnd k g = some (res, t)) :
    let u := t.modBegun k (fun y => { y with ended := true })
    (g.addr = 0#64 → exec (.serviceCompletion k) s = .next u) ∧
    (g.addr ≠ 0#64 → exec (.serviceCompletion k) s =
      .next ((u.enterPhys none g.addr.toNat false ((g.record res).map some) none).raise 2)) := by
  intro u
  constructor <;> intro ha <;>
    simp only [exec_serviceCompletion, execServiceCompletion, hg, open_, first, ends, Bool.not_true, Bool.or_self, Bool.false_eq_true, if_false,
      ha, if_true, u]

/-! ### SPDM (19 R414; log 25) -/

section
variable {req resp : Nat} {content : State → List (BitVec 8) → List (BitVec 8)} {after : State → State}

/-- A request in the mailbox is answered with a message over its body. -/
theorem spdm_mailbox (h : s.Request 0x70 n noContext) (least : 8 ≤ n) (most : n ≤ 4064) (whole : n % 8 = 0) (hm : s.mbBuf.num 33 1 = req) :
    s.spdm req resp content after = s.respond ⟨after s, 0, 0, noContext,
      Config.spdmMessage resp s.spdmReady (s.mbBuf.read 32 n) (content s (s.mbBuf.read 32 n))⟩ := by
  obtain ⟨hb, hn, hs, hl, -, -, hx⟩ := id h
  rw [State.spdm, if_pos (asked_of_busy hb hn hs), if_pos hm, serve0_passes h whole most (by simpa using least), State.answer, hl, hx, resOk]

/-- A request over MCTP is answered over the transport on which it came. -/
theorem spdm_mctp {via : SpdmVia} {msg : List (BitVec 8)} {rest : List (SpdmVia × List (BitVec 8))} (free : s.mbBusy = false ∨ s.spdmBefore ≠ 0)
    (hin : s.spdmIn = (via, msg) :: rest) (hm : spdmCode msg = req) :
    s.spdm req resp content after =
      { after { s with spdmIn := rest, spdmBefore := s.spdmBefore - 1 } with
        spdmOut := (after { s with spdmIn := rest, spdmBefore := s.spdmBefore - 1 }).spdmOut ++
          [(via, Config.spdmMessage resp s.spdmReady msg (content s msg))] } := by
  have next : s.mbNext = false := by
    rcases free with idle | before
    · simp [State.mbNext, idle]
    · simp [State.mbNext, before]
  have asked : s.asked 0x70 = false := by rw [State.asked, next, Bool.false_and]
  simp only [State.spdm, asked, Bool.false_eq_true, if_false, State.mctpNext, next, hin, List.head?_cons, hm, if_true, State.spdmReply]

end

/-! ### What O59 comes to -/

/-- With READY set in RECOVERY, which no bring-up leaves, what O59 says of READY after an image has been pushed is that no training fails. -/
def PushedImagesTrain : Prop :=
  ∀ s : State, s.recovery = true → s.ready = true → State.Request { s with recovery := false } 0x60 16 noContext → ImageReached s →
    s.imageOk (pushedImage s) = true → (Config.bootFailures (imageKept s).draws).any BootFailure.inTraining = false

theorem cacheOnly_ready (h : Laws.CacheOnly s t) : t.ready = s.ready := by rw [h]

theorem imageKept_ready (s : State) : (imageKept s).ready = s.ready := by
  have caches : Laws.CacheOnly s (s.homeRange (s.mbB 0).toNat (s.mbB 1).toNat false) := Laws.cacheOnly_homeRange ..
  simp only [imageKept, cacheOnly_ready caches]

theorem imageKept_firmware (s : State) : (imageKept s).firmware = pushedImage s := by
  simp only [imageKept]

theorem pushBringsUp_keeps (s : State) : (pushBringsUp s).recovery = false ∧ (pushBringsUp s).firmware = pushedImage s ∧
    (pushBringsUp s).ready = (!(Config.bootFailures (imageKept s).draws).any BootFailure.inTraining || s.ready) := by
  rw [← imageKept_ready s, ← imageKept_firmware s, pushBringsUp]
  generalize Config.bootFailures (imageKept s).draws = fails
  generalize imageKept s = u
  obtain ⟨parts, -, ready, -⟩ := DeviceEvents.bringUp_keeps ({ u with recovery := false, draws := u.draws + 1 } : State).measureBoot fails
  simp only [DeviceEvents.bootParts, Prod.mk.injEq] at parts
  obtain ⟨-, -, kept, -, -, -, normal⟩ := parts
  exact ⟨normal, kept, ready⟩

theorem report_recovery (s : State) (kind code : Nat) (ctx : BitVec 32) (addr : DWord) (place launch : Nat) :
    (s.report kind code ctx addr place launch).recovery = s.recovery := by
  unfold State.report
  by_cases full : s.errBase = 0#64 ∨ (s.errWptr - s.errRptr).toNat = s.errSlots
  · rw [if_pos full]
  · rw [if_neg full]
    simp only [State.raise]

theorem respond_refused_recovery (s : State) {a : Answer} (h : a.result ≠ 0) : (s.respond a).recovery = a.state.recovery := by
  simp only [State.respond, if_neg h, State.raise, report_recovery]

theorem respond_answered (s t : State) (ctx : BitVec 32) (body : List (BitVec 8)) :
    (s.respond ⟨t, 0, 0, ctx, body⟩).recovery = t.recovery ∧ (s.respond ⟨t, 0, 0, ctx, body⟩).firmware = t.firmware ∧
      (s.respond ⟨t, 0, 0, ctx, body⟩).ready = t.ready := ⟨rfl, rfl, rfl⟩

theorem imageKept_draws (s : State) : (imageKept s).draws = (s.homeRange (s.mbB 0).toNat (s.mbB 1).toNat false).draws := by
  simp only [imageKept]

/-- What O59 says of an image that is pushed in RECOVERY. -/
def PushRecovers (s : State) : Prop :=
  ∃ u : State, exec .imagePush s = .next u ∧ u.recovery = !s.imageOk (pushedImage s) ∧
    (s.imageOk (pushedImage s) = true → u.firmware = pushedImage s ∧
      u.ready = !(Config.bootFailures (s.homeRange (s.mbB 0).toNat (s.mbB 1).toNat false).draws).any BootFailure.inTraining)

section
variable (hrec : s.recovery = true) (h : State.Request { s with recovery := false } 0x60 16 noContext) (hr : ImageReached s)
include hrec h hr

theorem imagePush_accepted (ok : s.imageOk (pushedImage s) = true) :
    exec .imagePush s = .next (s.respond ⟨pushBringsUp s, 0, 0, noContext, []⟩) := by
  rw [imagePush_recovers hrec h hr, if_pos ok]

theorem imagePush_rejected (bad : s.imageOk (pushedImage s) = false) :
    exec .imagePush s = .next (s.respond (s.refuse resBadImage 0)) := by
  rw [imagePush_recovers hrec h hr, bad, if_neg Bool.false_ne_true]

theorem pushRecovers_of_train (train : s.ready = true → s.imageOk (pushedImage s) = true →
    (Config.bootFailures (imageKept s).draws).any BootFailure.inTraining = false) : PushRecovers s := by
  cases ok : s.imageOk (pushedImage s) with
  | false =>
    refine ⟨_, imagePush_rejected hrec h hr ok, ?_, fun good => ?_⟩
    · rw [ok]
      exact (respond_refused_recovery s (a := s.refuse resBadImage 0) (by decide : resBadImage ≠ 0)).trans hrec
    · rw [ok] at good
      cases good
  | true =>
    obtain ⟨normal, firmware, ready⟩ := pushBringsUp_keeps s
    obtain ⟨hrecovery, hfirmware, hready⟩ := respond_answered s (pushBringsUp s) noContext []
    refine ⟨_, imagePush_accepted hrec h hr ok, ?_, fun _ => ⟨hfirmware.trans firmware, (hready.trans ready).trans ?_⟩⟩
    · rw [hrecovery, normal, ok]
      rfl
    · rw [← imageKept_draws]
      cases was : s.ready with
      | false => rw [Bool.or_false]
      | true => rw [train was ok, Bool.not_false, Bool.or_true]

theorem train_of_pushRecovers (was : s.ready = true) (ok : s.imageOk (pushedImage s) = true) (recovers : PushRecovers s) :
    (Config.bootFailures (imageKept s).draws).any BootFailure.inTraining = false := by
  obtain ⟨u, runs, -, good⟩ := recovers
  obtain rfl := Host.Outcome.next.inj (runs.symm.trans (imagePush_accepted hrec h hr ok))
  obtain ⟨-, -, ready⟩ := pushBringsUp_keeps s
  obtain ⟨-, -, hready⟩ := respond_answered s (pushBringsUp s) noContext []
  have claimed := (good ok).2.symm.trans (hready.trans ready)
  rwa [was, Bool.or_true, ← imageKept_draws, Bool.not_eq_true'] at claimed

end

/-- All that O59 says holds, but for READY after an image that is pushed in RECOVERY with READY set. -/
theorem deviceServiceResults_iff : Obligations.DeviceServiceResults ↔ PushedImagesTrain := by
  unfold Obligations.DeviceServiceResults
  constructor
  · intro claim s hrec was h hr ok
    obtain ⟨-, -, -, -, -, -, -, -, pushed, -⟩ := claim s 0 0 s ⟨0, 0, 0, 0, 0, 0, 0, [], false, false⟩
    exact train_of_pushRecovers hrec h hr was ok (pushed hrec h hr.1 hr.2)
  · intro train s k n t g
    refine ⟨badservice_answers, domSet_answers, domGet_answers, snapshot_answers, fun h h0 => ⟨powerRead_answers h h0, powerWrite_answers h h0⟩,
      lifeGet_answers, fun h h0 h1 => ⟨peerComes s, peerComes_absent, peerComes_up, peerSet_answers h h0 h1⟩,
      fun h first last => imagePush_answers h ⟨first, last⟩,
      fun hrec h first last => pushRecovers_of_train hrec h ⟨first, last⟩ fun was => train s hrec was h ⟨first, last⟩,
      recovery_refuses, fun res => serviceCompletion_ends, ?mailbox, fun _ => services_wait, ?mctp⟩
    case mailbox =>
      intro h least most whole
      refine ⟨fun hm => ?_, fun hm => ?_, fun hm => ?_, fun hm => ?_, fun hm => ?_, fun hm => ?_, fun hm => ?_, fun hm => ?_⟩
      all_goals exact congrArg Host.Outcome.next (spdm_mailbox h least most whole hm)
    case mctp =>
      intro via req rest free hin
      refine ⟨fun hm => ?_, fun hm => ?_, fun hm => ?_, fun hm => ?_, fun hm => ?_, fun hm => ?_, fun hm => ?_, fun hm => ?_⟩
      all_goals exact congrArg Host.Outcome.next (spdm_mctp free hin hm)

/-- The request to push the image of no byte at address 0. -/
def pushBuf : Mem := ⟨[(0, 0x60#8), (4, 0x10#8), (16, 0xFF#8), (17, 0xFF#8), (18, 0xFF#8), (19, 0xFF#8)], []⟩

/-- A device in RECOVERY with READY set, to which that image is pushed. -/
def pushState (d : Nat) : State :=
  { State.reset with recovery := true, ready := true, draws := d, mbBusy := true, mbBuf := pushBuf }

theorem pushState_requests (d : Nat) : State.Request { pushState d with recovery := false } 0x60 16 noContext := by
  have service : pushBuf.num 0 2 = 0x60 := by decide
  have length : pushBuf.num 4 4 = 16 := by decide
  have header : (pushBuf.num 2 2 == 0 && pushBuf.num 20 4 == 0 && pushBuf.num 24 8 == 0) = true := by decide
  have ctx : BitVec.ofNat 32 (pushBuf.num 16 4) = noContext := by decide
  exact ⟨rfl, rfl, service, length, header, rfl, ctx⟩

theorem pushState_body (d : Nat) : (pushState d).mbB 0 = 0#64 ∧ (pushState d).mbB 1 = 0#64 := by
  have first : pushBuf.quad 32 = 0#64 := by decide
  have second : pushBuf.quad 40 = 0#64 := by decide
  exact ⟨first, second⟩

theorem pushState_reached (d : Nat) : ImageReached (pushState d) := by
  obtain ⟨first, second⟩ := pushState_body d
  rw [ImageReached, first, second]
  exact ⟨by decide, fun more => absurd rfl more⟩

theorem pushState_image (d : Nat) : pushedImage (pushState d) = [] := by
  rw [pushedImage, (pushState_body d).2]
  rfl

theorem pushState_draws (d : Nat) : (imageKept (pushState d)).draws = d := by
  obtain ⟨first, second⟩ := pushState_body d
  rw [imageKept_draws, first, second]
  rfl

/-- A proof of O59 would show that the opaque functions of Config sign no image of no byte, or let no training fail. -/
theorem no_failure_of_deviceServiceResults (claim : Obligations.DeviceServiceResults) (signed : Config.imageSigned [] = true) (d : Nat) :
    (Config.bootFailures d).any BootFailure.inTraining = false := by
  have ok : (pushState d).imageOk (pushedImage (pushState d)) = true := by
    rw [pushState_image, State.imageOk, signed]
    exact decide_eq_true (Nat.zero_le (Config.imageVersion []))
  have trains := deviceServiceResults_iff.mp claim (pushState d) rfl rfl (pushState_requests d) (pushState_reached d) ok
  rwa [pushState_draws] at trains

/-- A refutation of O59 would show that they sign some image, and let some training fail. -/
theorem signed_and_failure_of_not (fails : ¬ Obligations.DeviceServiceResults) :
    (∃ image, Config.imageSigned image = true) ∧ ∃ d, (Config.bootFailures d).any BootFailure.inTraining = true := by
  rw [deviceServiceResults_iff, PushedImagesTrain] at fails
  push Not at fails
  obtain ⟨s, -, -, -, -, ok, failed⟩ := fails
  rw [State.imageOk, Bool.and_eq_true] at ok
  exact ⟨⟨_, ok.1⟩, _, by simpa using failed⟩

end Sys2Proof.Services
